-- ==== Sys2Proof/Word.lean ====
section
/-! DEFINITION. The word types of the ZL3 (R10, R11): plain bit vectors. -/

namespace Sys2Proof

/-- One byte. -/
abbrev Byte := BitVec 8
/-- A 16-bit field. -/
abbrev W16 := BitVec 16
/-- A 32-bit register or field. -/
abbrev W32 := BitVec 32
/-- A 64-bit field: station time, SCN, a CRC-64, an identity. -/
abbrev W64 := BitVec 64

end Sys2Proof
end

