-- ==== Sys2Proof/Syntax/Types.lean ====
section
/-! DEFINITION. The operand types of the commands: what an environment of the module can hand to it (frames as received,
readings, observations, submissions), and the names (lanes, modes, sources) both the commands and the state use. -/

namespace Sys2Proof

/-- The three vital lanes (R8, R16). -/
inductive LaneId where
  | a | b | c
  deriving DecidableEq, Repr

/-- One value for each lane. -/
structure PerLane (α : Type) where
  a : α
  b : α
  c : α
  deriving DecidableEq, Repr, Inhabited

/-- The eight modes of R38 (the table of "Modes in outline"). -/
inductive Mode where
  | halt | recovery | start | commission | run3 | run2 | shadow | maintain
  deriving DecidableEq, Repr

/-- The time sources of R51. -/
inductive Src where
  | ptp | partner | gun
  deriving DecidableEq, Repr

/-- The cross-lane links of R17. -/
inductive Link where
  | ab | bc | ca
  deriving DecidableEq, Repr

/-- The two logic feeds of R582. -/
inductive Feed where
  | one | two
  deriving DecidableEq, Repr

/-- The two ends of a Stride segment (R292, R293). -/
inductive End where
  | a | b
  deriving DecidableEq, Repr

/-- A ring-end port: one of the eight SFP cages (R292). -/
structure Port where
  seg : Fin 4
  side : End
  deriving DecidableEq, Repr

/-- The lifecycle states of R554. -/
inductive Lifecycle where
  | blank | provisioned | field | fieldLocked | retired
  deriving DecidableEq, Repr

/-- The value types of R161; `none` is tag 0x0. -/
inductive Ty where
  | none | bool | state4 | enum8 | int16 | int32 | uint32 | dur | tstamp | obj | reqtag
  deriving DecidableEq, Repr, Inhabited

/-- What the module in an SFP cage identifies itself as (R292). -/
inductive Sfp where
  | fx | lx10 | other | empty
  deriving DecidableEq, Repr, Inhabited

/-- What the self-tests and measurements of one start find (R129, R133, R540, R565, R584, R590): facts of the hardware that
the start reads and the manual does not make state. -/
structure StartEnv where
  /-- Per judging lane, the blocks whose MISR signature it finds wrong, one bit per block as in MODBIST (R129, R156). -/
  mismatch : PerLane (BitVec 24)
  /-- Hold-up capacitance measured at START step 1, in µF (R584). -/
  capUf : Nat
  /-- Charge of the hold-up store after charging, in percent (R549). -/
  charge : Nat
  /-- Channels whose coupler BIST marks unusable: input n as n, drive k as 128 + k (R130). -/
  couplers : List Nat
  /-- The frangible cover seal reads intact at START step 1 (R565). -/
  sealIntact : Bool
  /-- The mesh loop of each lane reads intact (R565, R573). -/
  mesh : PerLane Bool
  /-- The key store environment of each lane is in range (R573). -/
  envOk : PerLane Bool
  /-- Canary margin of each lane in percent at 1.2, 1.1, 1.0 and 0.9 GHz (R590). -/
  canary : PerLane (Nat × Nat × Nat × Nat)
  /-- Each lane's settings area of the previous bank verifies its CRC (R540). -/
  settingsCrc : PerLane Bool
  /-- The front end's settings area of the previous bank verifies its CRC (R540). -/
  feSettingsCrc : Bool
  /-- The cross-lane link lines that deliver, in the order of VOTSTS.LINES (R118). -/
  lines : BitVec 6
  /-- Delay of the links AB, BC and CA in ns, measured at START (R66). -/
  linkDelay : List Nat
  /-- Readback of the group isolators at START step 7: bit g is 1 where the isolator of group g reads closed (R133, R248). -/
  isoClosed : BitVec 4
  /-- The modules in the eight SFP cages, S0a, S0b to S3b (R292). -/
  sfp : List Sfp
  /-- Geographic address contacts GA0-GA2 and parity GAP, from bit 0 (R577). -/
  geo : BitVec 4
  /-- Feed readings in mV (R582). -/
  feed1 : Nat
  feed2 : Nat
  /-- Temperature at the rating point in °C (R597). -/
  temp : Int
  deriving DecidableEq, Repr, Inhabited

/-- What comes with a source that is taken (R57, R70). -/
structure SrcMeas where
  /-- clockIdentity of the grandmaster (PTP only). -/
  gm : W64
  /-- The source reports timeTraceable. -/
  traceable : Bool
  /-- The partner has stayed out of HALT and RECOVERY since the retain record was written and reports its own continuity. -/
  partnerCont : Bool
  deriving DecidableEq, Repr

/-- What every PTP message carries: its transport (0 UDP/IPv4, 1 IEEE 802.3), its domain and its logMessageInterval (R52, R77). -/
structure PtpHead where
  transport : Nat
  domain : Nat
  logInterval : Int
  deriving DecidableEq, Repr

/-- The grandmaster data set an Announce carries, which the default best master clock algorithm compares (R52). -/
structure PtpGm where
  priority1 : Nat
  clockClass : Nat
  accuracy : Nat
  variance : Nat
  priority2 : Nat
  identity : W64
  stepsRemoved : Nat
  /-- timeTraceable, and PTP timescale: the origin time stamps count the timescale of R47. -/
  traceable : Bool
  deriving DecidableEq, Repr, Inhabited

/-- A PTP message as measured by the front end (R52). -/
inductive PtpMsg where
  | announce (head : PtpHead) (gm : PtpGm)
  /-- Sync with its receive time stamp; `origin` is present for a one-step master. -/
  | sync (head : PtpHead) (origin : Option Int) (received : Int)
  /-- Follow_Up: the origin time stamp of the last Sync. -/
  | followUp (head : PtpHead) (origin : Int)
  /-- Delay_Resp: sent and received time stamps of the Delay_Req. -/
  | delayResp (head : PtpHead) (sent : Int) (received : Int)
  /-- Peer delay answer: request sent and received, response sent and received. -/
  | pdelayResp (head : PtpHead) (t1 t2 t3 t4 : Int)
  deriving DecidableEq, Repr

/-- One finding of an SRAM scrub (R86). -/
inductive ScrubFind where
  | single (addr : Nat)
  | doubleAllocated (addr : Nat)
  | doubleUnallocated (addr : Nat)
  deriving DecidableEq, Repr

/-- The result one test injection of the comparator produced (R87, R88). -/
inductive InjResult where
  | bothRails | oneRail | none
  deriving DecidableEq, Repr

/-- The test injections of one comparator proof and the result each produced within two clocks (R87): the two single-bit
inversions of the write paths, the inversion on each of the two rails at each stage of the comparator tree, and the stuck value on
each delay register stage. -/
structure Injections where
  dataPath : InjResult
  addrPath : InjResult
  /-- One pair for each stage of the comparator tree. -/
  treeRails : List (InjResult × InjResult)
  /-- One for each delay register stage. -/
  delayStages : List InjResult
  deriving DecidableEq, Repr

/-- What a hurdle finds on the hurdle lane (R87, R142, R590). -/
structure HurdleObs where
  injections : Injections
  /-- The next item of the rotation passed its known-answer test. -/
  itemPass : Bool
  /-- Canary margin in percent at the plan step (item 7). -/
  margin : Nat
  deriving DecidableEq, Repr

/-- A cross-lane frame as its receiver gets it: the bytes each of the link's two lines delivered; no bytes where a line delivered
nothing (R100, R101). -/
structure XCopies where
  line0 : List Byte
  line1 : List Byte
  deriving DecidableEq, Repr

/-- Payload of a local freeze frame (R102, type 0x01). -/
structure LocalPayload where
  /-- 104 input states, 2 bits each, in the order of R102. -/
  inputs : List (BitVec 2)
  /-- Lowest reading of FG0-FG3 since the previous freeze, in mV. -/
  volts : List Nat
  deriving DecidableEq, Repr

/-- Payload of a remote freeze frame (R102, type 0x02): newest and previous held sequence numbers per entry, then the
highest held submission index of each ring. -/
structure RemotePayload where
  seqs : List (W32 × W32)
  rings : List W32
  deriving DecidableEq, Repr

/-- The compared content of an offer (R102, type 0x03). -/
structure Offer where
  mode : Byte
  flags : Byte
  var : W64
  eng : W64
  ctrl : W64
  stat : W64
  slice : W16
  /-- Bytes 54-55, reserved. -/
  res1 : W16
  remote : W64
  drive : W64
  /-- Byte 72: group isolators. -/
  iso : Byte
  /-- Bytes 73-75, reserved. -/
  res2 : BitVec 24
  /-- Bytes 76-79: snapshot phase in µs, informative, not compared. -/
  snap : W32
  deriving DecidableEq, Repr

/-- Payload of a verdict (R102, type 0x04). -/
structure Verdict where
  prints : PerLane W64
  received : PerLane Bool
  deriving DecidableEq, Repr

/-- Payload of a confirmation (R102, type 0x05). -/
structure Confirm where
  set : PerLane Bool
  haltMark : Bool
  deriving DecidableEq, Repr

/-- One lane's observations at the end of one input pulse (R254, R255, R271). -/
structure PulseObs where
  /-- Loop current of each of the 104 inputs in µA (negative: reverse); `none`: the line delivered no result. -/
  loops : List (Option Int)
  /-- Voltage of FG0-FG3 in mV. -/
  volts : List Nat
  deriving DecidableEq, Repr

/-- A pulse-mode safety wire as seen over the 20 ms up to phase 500 (R281). -/
structure WireObs where
  /-- Voltage at phase 500 in mV. -/
  mv : Nat
  /-- Falls below 8 V: phase of the beginning in µs and length in µs. -/
  falls : List (Nat × Nat)
  deriving DecidableEq, Repr

/-- What the test part reads at a sample: the pulse-mode wires, and the voltage of each of the 64 outputs in mV (R254, R267, R281). -/
structure TestPart where
  wires : List (Fin 8 × WireObs)
  outMv : List Nat
  deriving DecidableEq, Repr

/-- The diagnostic record of R251, its fields in order. -/
structure DiagRec where
  seq : W32
  flags : Byte
  chan : List W32
  iso : Byte
  gcur : List Byte
  deriving DecidableEq, Repr

/-- What the test part measures for a diagnostic record beside what it has observed in its slots: the mean load current of each drive
channel over the period in mA and the current of each group in mA (R251). -/
structure DiagObs where
  load : List Nat
  group : List Nat
  deriving DecidableEq, Repr

/-- What an off-pulse slot shows (R260, R261, R267, R593). -/
structure PulseTest where
  /-- An opened switch's midpoint sense still conducts. -/
  conducts : Bool
  /-- The output voltage falls below 8 V within 150 µs. -/
  fell : Bool
  /-- Scaled on-voltage in mV of every switch that stays closed, with its number 0-5 in the channel. -/
  onMv : List (Nat × Nat)
  /-- The other channels whose output fell below 8 V in this slot. -/
  falls : List (Fin 64)
  deriving DecidableEq, Repr

/-- The condition on which the test part's protective switch-off acted (R264). -/
inductive Protect where
  | overload | overtemperature
  deriving DecidableEq, Repr

/-- A Stride frame received at a port: the module's station time in ns at which its start-of-frame delimiter arrived, and its bytes (R296,
R302). -/
structure RingRx where
  rx : Nat
  bytes : List Byte
  deriving DecidableEq, Repr

/-- A Stride frame as a ring end receives it (R296): its port, the module's station time in ns at which its start-of-frame delimiter
arrived (R302, R319), and its bytes. -/
structure RingFrame where
  port : Port
  rx : Nat
  bytes : List Byte
  deriving DecidableEq, Repr

/-- A CAN FD frame on the bus (R378, R382). -/
structure CanFrame where
  ident : Nat
  fd : Bool
  extended : Bool
  remote : Bool
  /-- Its res bit was recessive: a protocol exception (R378). -/
  res : Bool
  bytes : List Byte
  deriving DecidableEq, Repr

/-- A CAN FD frame on one of the channels. -/
structure ChanFrame where
  chan : Fin 4
  frame : CanFrame
  deriving DecidableEq, Repr

/-- How a CAN FD frame that completed was sent (R399): the module's own frame, a vital entry, or a host buffer. -/
inductive CanSent where
  | own
  | vital (num : Nat)
  | hostBuf (buf : Nat)
  deriving DecidableEq, Repr

/-- Where a submission came from: a ring of this module's host, the service channel, or a ring of LEAD's host (R420, R466, R533). -/
inductive SubSrc where
  | ring (sq : Fin 32)
  | service
  | lead (sq : Fin 32)
  deriving DecidableEq, Repr

/-- A submission entry of R432, with what its host address points to as fetched with it. -/
structure Submission where
  src : SubSrc
  index : Nat
  opc : Nat
  crit : Bool
  task : Nat
  tag : W32
  nscn : Nat
  /-- OPER: bytes 16-55 of the entry. -/
  oper : List Byte
  /-- What the entry's address operand points to: terminal telegram, image header, payload chunk, CAN data. -/
  blob : List Byte
  deriving DecidableEq, Repr

/-- An entry of a submission ring as a poll fetches it: ring, entry number, its 64 bytes, and what its address operand points to
(R424, R426, R432, R440). -/
structure PollEntry where
  sq : Fin 32
  index : Nat
  bytes : List Byte
  blob : List Byte
  deriving DecidableEq, Repr

/-- The causes for which host ring memory becomes invalid by itself (R40, R418). -/
inductive InvCause where
  | completionTimeout | unsupportedRequest | completerAbort | poisonedTlp | busMasterCleared
  deriving DecidableEq, Repr

/-- A write of the host to the MSI-X table entry of a vector that leaves it unmasked: the message's address and data (R411, R431). -/
structure MsixWrite where
  vec : Fin 32
  addr : W64
  data : W32
  deriving DecidableEq, Repr

/-- What arrives of a partner frame on one line: nothing, a copy whose CRC-64 verifies, or one whose CRC-64 does not (R456). -/
inductive LineCopy where
  | absent | good | damaged
  deriving DecidableEq, Repr

/-- The copies of a partner frame on both lines (R456). -/
structure PartnerCopies where
  line0 : LineCopy
  line1 : LineCopy
  deriving DecidableEq, Repr

/-- A partner frame as received: its copies, and what the valid ones of them carry (R456, R457). -/
structure PartnerFrame (α : Type) where
  copies : PartnerCopies
  content : α
  deriving DecidableEq, Repr

/-- What the last chunk of a state transfer carries beside its part of the state: LEAD's digests of it and two seals (R457, R458). -/
structure StateTail where
  digests : List W64
  spos : Byte
  seal1 : W64
  seal2 : W64
  deriving DecidableEq, Repr

/-- A hello of the partner (R457). -/
structure Hello where
  identity : W64
  rank : Nat
  role : Nat
  mode : Nat
  vset : PerLane Bool
  inStep : Bool
  wantsState : Bool
  outgoing : Bool
  scn : Nat
  /-- Offset of the partner's time from this module's station time in ns (R51). -/
  offset : Int
  ownTimeline : Bool
  traceable : Bool
  build : W32
  settings : W64
  swi6 : Bool
  swi7 : Bool
  /-- Key check values of the partner's positions A, B, C (R558). -/
  kcv : PerLane W32
  deriving DecidableEq, Repr

/-- A pair status frame (R457 type 0x05). -/
structure PairStatusFrame where
  scn : Nat
  mode : Nat
  role : Nat
  vset : PerLane Bool
  var : W64
  eng : W64
  remote : W64
  acks : List Nat
  deriving DecidableEq, Repr

/-- A pair local image frame (R457 type 0x04), with its two seals (R458). -/
structure PairImage where
  scn : Nat
  inputs : List (BitVec 2)
  volts : List Nat
  grp : List Nat
  diag : List W32
  spos : Byte
  seal1 : W64
  seal2 : W64
  deriving DecidableEq, Repr

/-- A record as offered to the recorder (R507, R510). -/
structure RecIn where
  kind : Nat
  src : Nat
  code : Nat
  privileged : Bool
  scn : Nat
  body : List Byte
  deriving DecidableEq, Repr

/-- The units of a roll call (R492, R496). -/
inductive RcUnit where
  | lane (l : LaneId)
  | frontEnd
  | ioController
  | station (n : Nat)
  | node (num : Nat)
  deriving DecidableEq, Repr

/-- The certificate role of a service connection (R560). -/
inductive CertRole where
  | service | owner | manufacturing
  deriving DecidableEq, Repr

/-- The command block of an owner command (R562), the certificate it comes with and its signature. -/
structure OwnerHead where
  subject : W64
  /-- The certificate chain as presented. -/
  chain : List Byte
  /-- The signed bytes: the entry's 64 bytes, the 64-bit counter and the payload. -/
  block : List Byte
  sig : List Byte
  deriving DecidableEq, Repr

/-- One key of a wrapped key list as it unwraps (R557, R559). -/
inductive KeyEntry where
  | position (l : LaneId) (key : BitVec 128)
  /-- Channel key X or Y (`y`) of the far end or terminal with this CLASS and NUM. -/
  | channel (cls num : Nat) (y : Bool) (key : BitVec 128)
  /-- An entry that does not unwrap. -/
  | broken
  deriving DecidableEq, Repr

/-- The flashes whose wear is watched (R592, R604). -/
inductive Flash where
  | laneA | laneB | laneC | frontEnd
  deriving DecidableEq, Repr

end Sys2Proof
end

