-- ==== Sys2Proof/Syntax.lean ====
section
/-! DEFINITION. The commands of the block: one constructor for each row of spec/opcode_table.json, with the row's operands.
A command IS the moment of its row; its operands are what the module receives or measures at that moment. -/

namespace Sys2Proof

/-- A 6-bit register field of a JIC instruction, or the type tag, count or field number the opcode table puts there (R170). -/
abbrev Rg := BitVec 6

/-- The commands. -/
inductive Instr where
  /-- NOP (R174): JIC NOP does nothing. -/
  | jNop
  /-- JMP (R174): JIC JMP continues at an offset. -/
  | jJmp (off : W32)
  /-- JT (R174): JIC JT jumps if a BOOL is true. -/
  | jJt (a : Rg) (off : W32)
  /-- JF (R174): JIC JF jumps if a BOOL is false. -/
  | jJf (a : Rg) (off : W32)
  /-- JTAB (R174): JIC JTAB jumps to a table entry. -/
  | jJtab (a : Rg) (tab : W32)
  /-- CALL (R608): JIC CALL pushes the return address and calls a function. -/
  | jCall (fn : W32)
  /-- RET (R608): JIC RET returns from the open CALL and closes its loops. -/
  | jRet
  /-- LOOP (R608): JIC LOOP opens a counted loop or skips to the loop end. -/
  | jLoop (a : Rg) (n off : W16)
  /-- NEXT (R608): JIC NEXT decrements the innermost loop and repeats or closes it. -/
  | jNext
  /-- END (R182): JIC END ends the heat and completes undone commands by default. -/
  | jEnd
  /-- FAIL (R172): JIC FAIL raises an application fault and parks the task. -/
  | jFail (n : W32)
  /-- CHK (R174): JIC CHK fails if a BOOL is false. -/
  | jChk (a : Rg) (n : W32)
  /-- LDI (R609): JIC LDI loads an immediate value as a type. -/
  | jLdi (d c : Rg) (imm : W32)
  /-- LDK (R174): JIC LDK loads a constant from the pool. -/
  | jLdk (d : Rg) (k : W32)
  /-- MOV (R174): JIC MOV copies a register with its tag. -/
  | jMov (d a : Rg)
  /-- CVT (R174): JIC CVT converts a value to another type. -/
  | jCvt (d a c : Rg)
  /-- SEL (R174): JIC SEL selects between two values on a BOOL. -/
  | jSel (d a b c : Rg)
  /-- CLR (R609): JIC CLR loads the initial value of a type. -/
  | jClr (d c : Rg)
  /-- OBJ (R162): JIC OBJ forms an object reference. -/
  | jObj (d a c : Rg)
  /-- IDX (R174): JIC IDX returns an object's index. -/
  | jIdx (d a : Rg)
  /-- LD (R92): JIC LD loads a variable from the proper image. -/
  | jLd (d : Rg) (var : W32)
  /-- ST (R167): JIC ST stores an owned variable in the next image. -/
  | jSt (var : W32) (a : Rg)
  /-- LDX (R174): JIC LDX loads an array element. -/
  | jLdx (d a : Rg) (arr : W32)
  /-- STX (R174): JIC STX stores an owned array element. -/
  | jStx (arr : W32) (a b : Rg)
  /-- LDF (R174): JIC LDF loads a record field. -/
  | jLdf (d c : Rg) (rec : W32)
  /-- STF (R174): JIC STF stores an owned record field. -/
  | jStf (rec : W32) (c a : Rg)
  /-- LDP (R174): JIC LDP loads a variable from the current image. -/
  | jLdp (d : Rg) (var : W32)
  /-- LEN (R174): JIC LEN returns an array's element count. -/
  | jLen (d : Rg) (arr : W32)
  /-- ADD (R606): JIC ADD adds two values. -/
  | jAdd (d a b : Rg)
  /-- SUB (R606): JIC SUB subtracts two values. -/
  | jSub (d a b : Rg)
  /-- MUL (R606): JIC MUL multiplies two values. -/
  | jMul (d a b : Rg)
  /-- DIV (R606): JIC DIV divides two values, truncating. -/
  | jDiv (d a b : Rg)
  /-- MOD (R606): JIC MOD returns the remainder. -/
  | jMod (d a b : Rg)
  /-- NEG (R606): JIC NEG negates a value. -/
  | jNeg (d a : Rg)
  /-- ABS (R606): JIC ABS returns a magnitude. -/
  | jAbs (d a : Rg)
  /-- MIN (R174): JIC MIN returns the lesser value. -/
  | jMin (d a b : Rg)
  /-- MAX (R174): JIC MAX returns the greater value. -/
  | jMax (d a b : Rg)
  /-- LIM (R174): JIC LIM clamps a value to a range. -/
  | jLim (d a b c : Rg)
  /-- EQ (R174): JIC EQ compares for equality. -/
  | jEq (d a b : Rg)
  /-- NE (R174): JIC NE compares for inequality. -/
  | jNe (d a b : Rg)
  /-- LT (R174): JIC LT tests less than. -/
  | jLt (d a b : Rg)
  /-- LE (R174): JIC LE tests less than or equal. -/
  | jLe (d a b : Rg)
  /-- GT (R174): JIC GT tests greater than. -/
  | jGt (d a b : Rg)
  /-- GE (R174): JIC GE tests greater than or equal. -/
  | jGe (d a b : Rg)
  /-- AND (R174): JIC AND is a BOOL and. -/
  | jAnd (d a b : Rg)
  /-- OR (R174): JIC OR is a BOOL or. -/
  | jOr (d a b : Rg)
  /-- XOR (R174): JIC XOR is a BOOL exclusive or. -/
  | jXor (d a b : Rg)
  /-- NOT (R174): JIC NOT is a BOOL not. -/
  | jNot (d a : Rg)
  /-- BAND (R174): JIC BAND is a bitwise and. -/
  | jBand (d a b : Rg)
  /-- BOR (R174): JIC BOR is a bitwise or. -/
  | jBor (d a b : Rg)
  /-- BXOR (R174): JIC BXOR is a bitwise exclusive or. -/
  | jBxor (d a b : Rg)
  /-- BNOT (R174): JIC BNOT is a bitwise not. -/
  | jBnot (d a : Rg)
  /-- SHL (R174): JIC SHL shifts left. -/
  | jShl (d a b : Rg)
  /-- SHR (R174): JIC SHR shifts right logically. -/
  | jShr (d a b : Rg)
  /-- BTST (R174): JIC BTST tests a bit. -/
  | jBtst (d a b : Rg)
  /-- BSET (R174): JIC BSET sets a bit. -/
  | jBset (d a b : Rg)
  /-- BCLR (R174): JIC BCLR clears a bit. -/
  | jBclr (d a b : Rg)
  /-- ISCL (R174): JIC ISCL tests a STATE4 for closed. -/
  | jIscl (d a : Rg)
  /-- ISOP (R174): JIC ISOP tests a STATE4 for open. -/
  | jIsop (d a : Rg)
  /-- ISBD (R174): JIC ISBD tests a STATE4 for wire broken or unknown. -/
  | jIsbd (d a : Rg)
  /-- AGR (R174): JIC AGR agrees two values, or gives unknown. -/
  | jAgr (d a b : Rg)
  /-- IN (R257): JIC IN reads an input object from the agreed image, with any force applied. -/
  | jIn (d a : Rg)
  /-- INQ (R174): JIC INQ returns an input's quality bits. -/
  | jInq (d a : Rg)
  /-- STN (R362): JIC STN returns a station's state. -/
  | jStn (d a : Rg)
  /-- FRC (R188): JIC FRC tests whether a variable is forced. -/
  | jFrc (d : Rg) (var : W32)
  /-- AREA (R174): JIC AREA tests whether an area is possessed. -/
  | jArea (d a : Rg)
  /-- GRP (R272): JIC GRP returns a field group state. -/
  | jGrp (d a : Rg)
  /-- NOW (R91): JIC NOW returns the heat's nominal time. -/
  | jNow (d : Rg)
  /-- ELAP (R174): JIC ELAP returns the duration since a time stamp. -/
  | jElap (d a : Rg)
  /-- TON (R184): JIC TON evaluates an on-delay timer. -/
  | jTon (d a b : Rg) (t : W32)
  /-- TOF (R184): JIC TOF evaluates an off-delay timer. -/
  | jTof (d a b : Rg) (t : W32)
  /-- TP (R184): JIC TP evaluates a pulse timer. -/
  | jTp (d a b : Rg) (t : W32)
  /-- TRS (R184): JIC TRS sets a timer idle. -/
  | jTrs (t : W32)
  /-- TREM (R174): JIC TREM returns a timer's remaining duration. -/
  | jTrem (d : Rg) (t : W32)
  /-- CTU (R186): JIC CTU counts up on a rising input. -/
  | jCtu (d a b : Rg) (t : W32)
  /-- CTD (R186): JIC CTD counts down on a rising input. -/
  | jCtd (d a b : Rg) (t : W32)
  /-- CRS (R174): JIC CRS sets a counter. -/
  | jCrs (a : Rg) (t : W32)
  /-- RTRG (R187): JIC RTRG detects a rising edge. -/
  | jRtrg (d a : Rg) (t : W32)
  /-- FTRG (R187): JIC FTRG detects a falling edge. -/
  | jFtrg (d a : Rg) (t : W32)
  /-- ENXT (R224): JIC ENXT returns the next candidate route, waiting for the pass if needed. -/
  | jEnxt (d : Rg)
  /-- EREQ (R224): JIC EREQ returns a route's pending request. -/
  | jEreq (d a : Rg)
  /-- ELCK (R225): JIC ELCK commits the lock of a candidate route. -/
  | jElck (a b : Rg)
  /-- EDRP (R224): JIC EDRP refuses a pending request with a code. -/
  | jEdrp (a b : Rg)
  /-- EREL (R229): JIC EREL releases one element of a locked route. -/
  | jErel (a b : Rg)
  /-- ERRL (R230): JIC ERRL releases a whole route. -/
  | jErrl (a : Rg)
  /-- ESTA (R227): JIC ESTA returns an element's lock state. -/
  | jEsta (d a : Rg)
  /-- EOVL (R224): JIC EOVL returns a route's overlap selection or mask. -/
  | jEovl (d a : Rg)
  /-- HCMD (R182): JIC HCMD fetches the next accepted command for the task. -/
  | jHcmd (d : Rg)
  /-- HDON (R182): JIC HDON completes a command with a code. -/
  | jHdon (a b : Rg)
  /-- HEVT (R174): JIC HEVT raises application event 0x13. -/
  | jHevt (a b : Rg)
  /-- TRG (R181): JIC TRG returns the triggers coalesced into the heat. -/
  | jTrg (d : Rg)
  /-- SYS (R191): JIC SYS returns a system item. -/
  | jSys (d c : Rg)
  /-- REC (R174): JIC REC writes an application recorder entry. -/
  | jRec (a b : Rg)
  /-- CVU (R499): JIC CVU computes a check value over an array. -/
  | jCvu (d a : Rg) (arr : W32)
  /-- CONN (R362): JIC CONN returns a Baton connection state. -/
  | jConn (d a : Rg)
  /-- TAGV (R227): JIC TAGV tests whether a REQTAG is live. -/
  | jTagv (d a : Rg)
  /-- POWER_UP (R583): Once the logic input has been at or above 18.0 V for 1 s on an unpowered module, the ROM loaders select banks and the module enters START or RECOVERY. -/
  | powerUp (env : StartEnv)
  /-- ACQUISITION_TIMEOUT (R58): When ACQTO expires without a valid source, the Pacer starts its own timeline if OWNOK is 1, or keeps waiting. -/
  | acquisitionTimeout
  /-- SOURCE_TAKEN (R57): During START, a valid source later than the floor is taken, and all lanes step station time to it. -/
  | sourceTaken (src : Src) (time : Nat) (meas : SrcMeas)
  /-- PAIR_DISCOVERY_TIMEOUT (R460): When WAIT expires without a partner being heard, the module completes START as single or keeps waiting, according to LONE and the cross wires. -/
  | pairDiscoveryTimeout
  /-- START_COMPLETE (R128): START ends after step 8, and the module takes its target mode. -/
  | startComplete
  /-- WARM_UP_OVERDUE (R141): WUWIN minutes after START completes, a switch that has not passed raises event 0x0D once. -/
  | warmUpOverdue
  /-- PACE_SLOWED (R583): A logic input below 20.0 V for 1 ms slows the front end and I/O board and steps every lane to 900 MHz. -/
  | paceSlowed (vin : Nat)
  /-- PACE_NORMAL (R583): A logic input at or above 21.0 V for 1 s while slowed returns every block to its margin plan step. -/
  | paceNormal (vin : Nat)
  /-- LOGIC_INPUT_BELOW_16V (R583): A logic input below 16.0 V for 2 ms puts the module in HALT with HCAUSE 5 and starts the recorder flush. -/
  | logicInputBelow16v (vin : Nat)
  /-- SUPPLY_VALID_RESTART (R583): In HALT with HCAUSE 5, a logic input at or above 18.0 V for 1 s restarts the module. -/
  | supplyValidRestart (env : StartEnv)
  /-- LOGIC_FEED_ABSENT (R582): A feed that falls below 16.0 V is reported absent with event 0x32. -/
  | logicFeedAbsent (feed : Feed) (mv : Nat)
  /-- LOGIC_FEED_RESTORED (R582): A feed that has been at or above 18.0 V for 1 s is reported restored with event 0x33. -/
  | logicFeedRestored (feed : Feed) (mv : Nat)
  /-- FEED_OVERVOLTAGE_DISCONNECT (R582): A feed above 36.0 V for 1 ms is disconnected by its own protection. -/
  | feedOvervoltageDisconnect (feed : Feed) (mv : Nat)
  /-- FEED_OVERVOLTAGE_RECONNECT (R582): A disconnected feed reconnects after it has been at or below 30.0 V for 1 s. -/
  | feedOvervoltageReconnect (feed : Feed) (mv : Nat)
  /-- RESET_KEY (R595): The front-panel reset key held for 3 s restarts the module in any mode. -/
  | resetKey (heldMs : Nat) (env : StartEnv)
  /-- RESET_REQUEST (R414): A write of 0x0000_A55A to HIFRST restarts the module, restarts START, or resets the host interface, according to the mode. -/
  | resetRequest (val : W32) (env : StartEnv)
  /-- PCIE_RESET (R414): A PCIe conventional reset or a function level reset acts as a host interface reset in every mode. -/
  | pcieReset
  /-- AUTOMATIC_RESTART (R127): 200 ms after HALT entry for HCAUSE 1, 3, 9 or 10, the module restarts unless ARMAX has been reached. -/
  | automaticRestart (env : StartEnv)
  /-- STRIDE_STOP_ON_HALT (R327): At the next basic-cycle boundary after HALT, the front end stops every Stride transmission and drops the telegrams it holds. -/
  | strideStopOnHalt
  /-- MODE_TRANSITION_EFFECT (R123): At phase 0 after the accepting freeze, the module takes the mode produced by the transition submissions and raises event 0x00. -/
  | modeTransitionEffect
  /-- FRONT_END_LIVENESS_EXCHANGE (R21): Once per basic cycle, each lane checks the front end by a liveness exchange on its lane port. -/
  | frontEndLivenessExchange (lane : LaneId) (ok : Bool)
  /-- FRONT_END_LOST (R21): After four missed liveness exchanges, the lane declares the front end lost and treats every remote station as dropped out. -/
  | frontEndLost (lane : LaneId)
  /-- PTP_MESSAGE (R52): A PTP Sync, Follow_Up, Delay_Resp or Announce message is time-stamped and measured by the front end. -/
  | ptpMessage (msg : PtpMsg)
  /-- PTP_ANNOUNCE_TIMEOUT (R51): After 3 announce intervals without an Announce message, the PTP source becomes invalid. -/
  | ptpAnnounceTimeout
  /-- GUN_SOURCE_TIMEOUT (R51): After 2 basic cycles without a gun frame, the gun-frame source becomes invalid. -/
  | gunSourceTimeout
  /-- PARTNER_TIME_TIMEOUT (R51): After 4 missing time messages, the partner source becomes invalid. -/
  | partnerTimeTimeout
  /-- SERVO_CORRECTION (R60): Once per second, each lane corrects towards the median source offset within 50 ppm, or refuses the source above 1 ms. -/
  | servoCorrection
  /-- SOURCE_ELIGIBLE_10S (R55): A higher-ranked source, or one that ends holdover or the own timeline, is taken after 10 s of unbroken eligibility. -/
  | sourceEligible10s (src : Src)
  /-- REFUSED_SOURCE_CLEARED (R61): A refused source becomes eligible again after 10 s with its offset at 1 ms or less. -/
  | refusedSourceCleared (src : Src)
  /-- HOLDOVER_ALARM (R64): When the holdover error estimate passes HOALRM, event 0x44 is raised once. -/
  | holdoverAlarm
  /-- OSCILLATOR_DRIFT_WINDOW (R68): Every 100 s while a source is followed, each lane learns its oscillator offset and applies the drift limits. -/
  | oscillatorDriftWindow (ppb : PerLane Int) (adev : PerLane Nat)
  /-- PCRSCNL_READ (R74): A read of PCRSCNL returns SCN[31:0] and latches SCN[63:32] into PCRSCNH. -/
  | pcrscnlRead
  /-- REGISTER_WRITE (R413): A BAR0 write to a register with no row of its own takes effect, or is clamped, or is discarded under RUN, RWS and the register's own limits. -/
  | registerWrite (off : Nat) (val : W32)
  /-- COMPARATOR_MISMATCH (R84): A core mismatch or comparator fault stops the lane within 2 µs through the hardware path. -/
  | comparatorMismatch (lane : LaneId) (rails : BitVec 2)
  /-- SRAM_SCRUB (R86): Each lane scrubs its whole SRAM every 60 s, correcting single-bit errors and acting on double-bit errors. -/
  | sramScrub (lane : LaneId) (finds : List ScrubFind)
  /-- COMPARATOR_PROOF_OVERDUE (R89): A lane whose last comparator proof is older than 1,000 ms stops itself with cause 2. -/
  | comparatorProofOverdue (lane : LaneId)
  /-- HURDLE_ITEM_OVERDUE (R143): A hurdle item whose interval passes 10 s stops the lane. -/
  | hurdleItemOverdue (lane : LaneId) (item : Fin 8)
  /-- HURDLE (R142): From phase 16,100, the hurdle lane proves its comparator and tests the next rotation item. -/
  | hurdle (obs : HurdleObs)
  /-- TEST_ROUTING_CLOSE (R88): The comparator test routing closes by itself after 64 clock cycles. -/
  | testRoutingClose (lane : LaneId) (active : Bool)
  /-- CLOCK_PLAN_LOWERED (R590): After three consecutive canary readings below 8%, the plan step is lowered by one at the next phase 0. -/
  | clockPlanLowered (lane : LaneId)
  /-- LINK_LINE_LOST (R100): A cross-lane line without a valid frame for 20 ms is declared lost. -/
  | linkLineLost (link : Link) (line : Bool)
  /-- LINK_LINE_RESTORED (R100): A cross-lane line is restored after 1 s of valid frames. -/
  | linkLineRestored (link : Link) (line : Bool)
  /-- LOCAL_FREEZE (R93): At phase 500, each lane freezes station 0 and sends a local freeze frame. -/
  | localFreeze
  /-- LOCAL_FREEZE_FRAME (R93): A local freeze frame from another lane is received, checked and compared for lane time. -/
  | localFreezeFrame (rcv snd : LaneId) (line0 line1 : List Byte)
  /-- LOCAL_FREEZE_AGREEMENT (R93): By phase 560, each lane forms the agreed station 0 image and the group voltages. -/
  | localFreezeAgreement
  /-- SAG_LATCH_SET (R273): After 6 consecutive low freezes spanning 100 ms, the group's sag latch is set and its outputs and isolator are cut. -/
  | sagLatchSet (g : Fin 4)
  /-- MINORITY_REPORT (R258): After MINCNT consecutive freezes of a lane's minority reading on a channel, event 0x6B is raised. -/
  | minorityReport (lane : LaneId) (chan : Fin 104)
  /-- REMOTE_FREEZE (R94): At phase 1,000, each lane sends its remote freeze frame listing its held sequence numbers and submission indices. -/
  | remoteFreeze
  /-- REMOTE_FREEZE_FRAME (R94): A remote freeze frame from another lane is received and checked. -/
  | remoteFreezeFrame (rcv snd : LaneId) (line0 line1 : List Byte)
  /-- REMOTE_FREEZE_AGREEMENT (R94): By phase 1,080, each lane chooses the common telegram of each connection and the submissions accepted. -/
  | remoteFreezeAgreement
  /-- PENDING_REQUEST_EXPIRED (R220): A request pending for PENDMAX cycles is removed and completed with 0x05. -/
  | pendingRequestExpired (route : Fin 4096)
  /-- ENGINE_PASS_LATE (R245): A pass not ended by phase 1,500 raises event 0x1F. -/
  | enginePassLate
  /-- IO_CONTROLLER_LOST (R253): After 5 freezes without a new diagnostic record, every drive is held off and every isolator is opened until restart. -/
  | ioControllerLost
  /-- TASK_RELEASE (R175): A cyclic or event task heat is released at its phase and pre-empts lower-priority heats. -/
  | taskRelease (task : Fin 32)
  /-- SLOW_TASK_SLICE (R179): A slow task receives one slice, cut by instruction count, in the slack window. -/
  | slowTaskSlice (task : Fin 32)
  /-- SNAPSHOT (R97): Once the pass and the due heats are complete, each lane publishes, zeroes padding and computes its digests. -/
  | snapshot
  /-- OFFER_FRAME (R104): An offer from another lane is received. -/
  | offerFrame (rcv snd : LaneId) (line0 line1 : List Byte)
  /-- OFFERS_CLOSE (R104): At phase 15,000, offers close and each lane sends its verdict. -/
  | offersClose
  /-- VERDICT_FRAME (R104): A verdict from another lane is received. -/
  | verdictFrame (rcv snd : LaneId) (line0 line1 : List Byte)
  /-- VERDICTS_CLOSE (R105): At phase 15,200, each lane decides its set and sends its confirmation. -/
  | verdictsClose
  /-- CONFIRMATION_FRAME (R105): A confirmation from another lane is received. -/
  | confirmationFrame (rcv snd : LaneId) (line0 line1 : List Byte)
  /-- CONFIRMATIONS_CLOSE (R105): At phase 15,400, each lane fixes its final voting set, excludes itself, or enters HALT. -/
  | confirmationsClose
  /-- LANE_FAULT_FRAME (R107): A received lane-fault frame leads to the sender's exclusion at this photo finish. -/
  | laneFaultFrame (rcv snd : LaneId) (line0 line1 : List Byte)
  /-- SECURITY_ALARM_FRAME (R565): A received security alarm frame makes the lane act on the trigger within 100 µs. -/
  | securityAlarmFrame (rcv snd : LaneId) (line0 line1 : List Byte) (delay : Fin 101)
  /-- SEALING (R112): From phase 15,500, lanes in the final set seal output telegrams and pass them to the front end. -/
  | sealing
  /-- LOCAL_OUTPUTS_APPLIED (R31): At phase 16,000, the local outputs take the values agreed in this cycle's vote. -/
  | localOutputsApplied
  /-- ONLINE_CHANGE_CHECK (R195): At phase 16,000 before the named SCN, the conditions are checked, and the change is built or abandoned. -/
  | onlineChangeCheck
  /-- ONLINE_CHANGE_APPLIED (R196): From phase 0 of the named SCN, the new application's tasks are released. -/
  | onlineChangeApplied
  /-- INPUT_PULSE_SAMPLE (R254): Every millisecond, each input loop is pulsed, and each lane decodes it and measures the group voltages. -/
  | inputPulseSample (obs : PerLane PulseObs) (test : TestPart)
  /-- DIAGNOSTIC_RECORD (R251): At phase 700, the I/O controller offers its diagnostic record to every lane port. -/
  | diagnosticRecord (load group : List Nat) (ports : PerLane (Option (List Byte)))
  /-- OFF_PULSE (R260): A drive channel commanded on is off-pulsed in its slot, and the opened switches and output fall are judged. -/
  | offPulse (k : Fin 64) (test : PulseTest)
  /-- PROTECTIVE_SWITCH_OFF (R264): On overload or overtemperature, the test part opens the channel's switches. -/
  | protectiveSwitchOff (k : Fin 64) (cond : Protect)
  /-- OPEN_WIRE_DETECTED (R264): A channel on through 3 records with its current below the threshold is reported as open wire. -/
  | openWireDetected (k : Fin 64)
  /-- LOAD_LEARNING_COMPLETE (R265): After 50 qualifying records, the channel's learned current is stored. -/
  | loadLearningComplete (k : Fin 64)
  /-- GROUP_CURRENT_HIGH (R276): A group current above 7.2 A in 50 consecutive records raises event 0x6E. -/
  | groupCurrentHigh (g : Fin 4)
  /-- CONTACTOR_CHECK (R278): At the sixth freeze after a KD change, and at every later freeze, both feedbacks are checked against the drive. -/
  | contactorCheck
  /-- GUN_FRAME_SEND (R304): The gun master sends a gun frame at each basic-cycle start, and the far end sends its copy on evidence of the master. -/
  | gunFrameSend (seg : Fin 4)
  /-- GUN_FRAME_RECEIVE (R302): A gun frame reaches a ring end, which measures it, checks its master and learns ring breaks or closure. -/
  | gunFrameReceive (port : Port) (got : RingRx)
  /-- GUN_YIELD_END (R325): After three matrix cycles of silence, the loser runs the listen again. -/
  | gunYieldEnd (seg : Fin 4)
  /-- GUN_LISTEN_END (R324): After listening for one matrix at START step 6, the module takes the far end or becomes gun master. -/
  | gunListenEnd (seg : Fin 4)
  /-- SEGMENT_DARK (R324): After 50 cycles without a master with GUNOK 0, event 0x90 is raised. -/
  | segmentDark (seg : Fin 4)
  /-- GUN_TAKEOVER (R326): A far-end module without evidence of the master for two basic cycles becomes gun master. -/
  | gunTakeover (seg : Fin 4)
  /-- EXCLUSIVE_WINDOW_SEND (R307): At each exclusive window, the ring end sends the station's frame with its output telegram or a null. -/
  | exclusiveWindowSend (station : Nat)
  /-- EXCLUSIVE_FRAME_RETURN (R310): A returning exclusive frame is checked against its expected time and copy, and its input telegram is offered to the lanes. -/
  | exclusiveFrameReturn (frame : RingFrame)
  /-- BID_WINDOW_SEND (R313): The ring end sends a bid frame granting the previous winner and acknowledging the last message. -/
  | bidWindowSend (seg : Fin 4)
  /-- BID_FRAME_RETURN (R314): The ring end takes the lower bid of the two copies and receives the granted event telegram. -/
  | bidFrameReturn (frame : RingFrame)
  /-- ENTRY_WINDOW_SEND (R322): The ring end sends an entry frame, carrying an object-controller update block where a session runs. -/
  | entryWindowSend (seg : Fin 4)
  /-- ENTRY_FRAME_RETURN (R322): The ring end reads the entry slots and admits or refuses each claiming station. -/
  | entryFrameReturn (frame : RingFrame)
  /-- CAPABILITY_TIMEOUT (R322): Admission is withdrawn when no capability record arrives within 4 station cycles. -/
  | capabilityTimeout (station : Nat)
  /-- STATION_LOST (R323): A station without a valid input part for LOSTCYC cycles loses ADM. -/
  | stationLost (station : Nat)
  /-- MEASURE_WINDOW (R319): In BC2, each ring end sends link delay requests and measures its link delay and transit. -/
  | measureWindow
  /-- LINK_DELAY_REQUEST (R319): A received link delay request is answered with the turnaround time within 5 µs. -/
  | linkDelayRequest (port : Port) (got : RingRx)
  /-- LINK_DELAY_RESPONSE (R319): A received response gives the link delay, and its median is kept. -/
  | linkDelayResponse (port : Port) (rx : Nat) (bytes : List Byte)
  /-- SCHEDULE_SWITCH_DECISION (R329): At phase 1,000 of S−1, the ring ends confirm or abandon the schedule switch from the acknowledgements. -/
  | scheduleSwitchDecision
  /-- SCHEDULE_SWITCH_APPLIED (R329): From phase 0 of S, windows follow the new schedule, and the submission completes. -/
  | scheduleSwitchApplied
  /-- TELEGRAM_COPY_RECEIVED (R358): A lane checks a telegram copy through the acceptance steps and counts it in exactly one class. -/
  | telegramCopyReceived (lane : LaneId) (tel : List Byte) (medium seg : Nat)
  /-- SYNC_SLOT (R388): In each sync slot, each module sends a CAN FD sync frame. -/
  | syncSlot (chan : Fin 4)
  /-- NODE_SLOT (R385): At slot phase P, each module queues its output telegram for the node as a vital entry. -/
  | nodeSlot (num : Nat)
  /-- VITAL_ENTRY_ABORTED (R396): A vital entry that has not started by the end of its slot is aborted and counted. -/
  | vitalEntryAborted (num : Nat) (started : Bool)
  /-- CAN_FRAME_SENT (R399): A CAN FD frame completes on the bus, and its entry ends as sent with TDCV measured. -/
  | canFrameSent (chan : Fin 4) (sent : CanSent) (brs : Bool) (tdcv : Nat)
  /-- CAN_FRAME_RECEIVED (R382): A received CAN FD frame is classed by identifier and offered, forwarded or discarded. -/
  | canFrameReceived (chan : Fin 4) (frame : CanFrame)
  /-- DISCOVERY_REQUEST (R393): Every 50 station cycles, a single or LEAD module sends a discovery request on each enabled channel. -/
  | discoveryRequest (chan : Fin 4)
  /-- DISCOVERY_RESPONSE (R393): A node's discovery response is checked, and the node is admitted or refused. -/
  | discoveryResponse (resp : ChanFrame)
  /-- NODE_LOST (R394): A node whose inputs are missing for CLOST × PER cycles is lost. -/
  | nodeLost (num : Nat)
  /-- HOST_ENTRY_LIFETIME_EXPIRED (R399): A host entry not sent within its lifetime is aborted with reason 1. -/
  | hostEntryLifetimeExpired (chan : Fin 4) (buf : Fin 16)
  /-- ERROR_PASSIVE (R401): Entry to error passive raises event 0xB3. -/
  | errorPassive (chan : Fin 4) (tec rec : Nat)
  /-- BUS_OFF (R401): At bus-off, every queued entry of the channel is aborted with reason 2. -/
  | busOff (chan : Fin 4)
  /-- BUS_OFF_RECOVERED (R401): After 128 occurrences of 11 recessive bits, the channel returns to error active. -/
  | busOffRecovered (chan : Fin 4)
  /-- BIT_TIMING_WRITE (R380): A write to CANnBT or CANnDT is validated and takes effect at the next station cycle boundary. -/
  | bitTimingWrite (chan : Fin 4) (data : Bool) (val : W32)
  /-- HIFCTL_RUN (R422): A write of 1 to RUN starts ring operation if every set-up check passes, or reports SETERR. -/
  | hifctlRun
  /-- HIFCTL_MIRROR (R417): A write of the MIRROR bit enables or disables the state mirror. -/
  | hifctlMirror (on : Bool)
  /-- HIFLACC_READ (R415): A read of HIFLACC latches HIFLCMP and HIFLOUT. -/
  | hiflaccRead
  /-- HIFEVP_READ (R415): A read of HIFEVP latches HIFEVD and HIFEVL. -/
  | hifevpRead
  /-- FPROD_READ (R517): A read of FPROD latches FDELIV and FLOST of the same FIFO. -/
  | fprodRead (f : Fin 13)
  /-- DOORBELL_POLL (R425): Every millisecond, the front end reads the doorbells and acknowledge words and consumes submissions within its limits. -/
  | doorbellPoll (words : List (Fin 96 × W32)) (entries : List PollEntry)
  /-- SUBMISSION_RING_HELD (R427): An SQ held by completion space for 50 cycles raises event 0xC5. -/
  | submissionRingHeld (sq : Fin 32)
  /-- HOST_RING_MEMORY_INVALID (R40): A PCIe error or cleared bus mastering invalidates ring memory and stops ring processing. -/
  | hostRingMemoryInvalid (cause : InvCause)
  /-- PCIE_LINK_DEGRADED (R410): A link trained narrower or slower raises event 0xC7. -/
  | pcieLinkDegraded (speed width : Nat)
  /-- EVENT_FIFO_DRAIN (R447): When an event ring has space, queued events and a loss entry are written. -/
  | eventFifoDrain (eq : Fin 16)
  /-- STATE_MIRROR_WRITE (R450): Between phases 16,000 and 19,500, the front end writes one mirror half and then the header. -/
  | stateMirrorWrite (finished : Bool)
  /-- CRITICAL_PENDING_EXPIRED (R443): A pending critical request not confirmed within CWIN is removed. -/
  | criticalPendingExpired (terminal : Nat)
  /-- HELLO (R457): Each module sends a hello on the partner link at phase 0 of every basic cycle. -/
  | hello
  /-- HELLO_RECEIVED (R457): A partner hello gives time, mode, role and build, and checks pair identity and key check values. -/
  | helloReceived (line0 line1 : LineCopy) (hello : Hello)
  /-- PARTNER_TELEGRAM (R463): A telegram forwarded by the partner is offered to the lane ports. -/
  | partnerTelegram (copies : PartnerCopies) (medium seg : Nat) (tel : List Byte)
  /-- PARTNER_SUBMISSION (R466): A submission forwarded by LEAD is held by SHADOW's lanes. -/
  | partnerSubmission (frame : PartnerFrame Submission)
  /-- PAIR_LOCAL_IMAGE (R464): LEAD sends its sealed station 0 image at phase 560, and SHADOW uses it. -/
  | pairLocalImage (image : Option (PartnerFrame PairImage))
  /-- PAIR_STATUS (R469): At phase 15,400, pair status is exchanged, and SHADOW compares digests to judge whether it is in step. -/
  | pairStatus (frame : Option (PartnerFrame PairStatusFrame))
  /-- STATE_CHUNK (R462): A numbered state chunk from LEAD is received, and the state is adopted when every chunk has arrived and verifies. -/
  | stateChunk (index total : Nat) (copy : LineCopy) (line : Bool) (tail : Option StateTail) (bytes : List Byte)
  /-- PARTNER_ADMISSION_FRAME (R394): SHADOW learns a CAN FD admission from LEAD and serves the same slots. -/
  | partnerAdmissionFrame (chan : Fin 4) (addr : Nat) (identity : W64) (slot : PartnerFrame Nat)
  /-- PARTNER_LINK_LOST (R456): The partner link is lost when neither line delivers for 20 ms. -/
  | partnerLinkLost
  /-- PARTNER_LINE_LOST (R456): One partner line lost raises event 0xDD. -/
  | partnerLineLost (line : Bool)
  /-- LEAD_NO_ACKNOWLEDGEMENT (R467): After 50 cycles without SHADOW's acknowledgement, LEAD raises event 0xD2. -/
  | leadNoAcknowledgement
  /-- TAKEOVER_DECISION (R474): At phase 560, an in-step SHADOW decides from the cross wires and the partner whether to take over. -/
  | takeoverDecision
  /-- OUTGOING_DEADLINE (R472): If SWI6 is not closed by N+3, the outgoing module enters HALT at phase 16,000 of N+3. -/
  | outgoingDeadline
  /-- DRILL_DAY (R479): Each day of station time, DAYS advances and event 0xDA is raised while it is 30 or more. -/
  | drillDay
  /-- ROLL_CALL_LATCH (R492): At phase 0 of T, every unit latches its counts. -/
  | rollCallLatch
  /-- ROLL_CALL_BLOCK (R493): A roll-call block from a unit is checked and copied into the result area. -/
  | rollCallBlock (unit : RcUnit) (num : Nat) (bytes : List Byte)
  /-- ROLL_CALL_CLOSE (R493): Collection closes at phase 0 of T+24. -/
  | rollCallClose
  /-- ROLL_CALL_SECTION_WRITE (R497): The module writes its section and then T in the header by phase 15,000 of T+24. -/
  | rollCallSectionWrite
  /-- ROLL_CALL_COMPLETION (R498): The roll call completes with 0x00 at phase 16,000 of T+24. -/
  | rollCallCompletion
  /-- COUNTER_SETTING_APPLY (R490): A counter setting applies from phase 0 after its freeze, and changed counters are zeroed. -/
  | counterSettingApply
  /-- RECORD_ACCEPT (R510): The recorder accepts a record, gives it an RSEQ, or drops it for lack of room. -/
  | recordAccept (record : RecIn)
  /-- LOSS_RECORD (R511): When room returns, one loss record covers a run of dropped records. -/
  | lossRecord (src : Fin 9)
  /-- RECORDER_FLUSH (R512): Dirty records are written to flash at the count, age or privileged triggers, and read back. -/
  | recorderFlush (writable : Bool) (mismatches : Nat)
  /-- RECORDER_READ_DELIVERY (R516): Records are written into the RR ring in index order as space allows. -/
  | recorderReadDelivery (ring : Fin 8)
  /-- FIFO_POINTER_MISMATCH (R505): A pointer copy mismatch resets the FIFO and counts its items as lost. -/
  | fifoPointerMismatch (f : Fin 13)
  /-- ACTIVATION_PREPARE (R537): At phase 16,000 of S−1, the conditions are rechecked and the NEXT flags are set. -/
  | activationPrepare
  /-- UPDATE_RESTART (R537): At phase 0 of S, the module restarts on the staged banks. -/
  | updateRestart (env : StartEnv)
  /-- SESSION_IDLE_TIMEOUT (R534): A session without a command for IDLE seconds ends and releases the lock. -/
  | sessionIdleTimeout
  /-- SERVICE_CONNECTION_LOST (R534): Loss of the service connection ends a service session. -/
  | serviceConnectionLost
  /-- OC_ACTIVATION_TIMEOUT (R544): A station that has not re-entered on the new version within 600 cycles raises event 0xE5. -/
  | ocActivationTimeout
  /-- TLS_HANDSHAKE (R560): A service port connection is authenticated by TLS 1.3 with a client certificate role. -/
  | tlsHandshake (suiteOk : Bool) (role : CertRole) (subject : W64) (chain : List Byte)
  /-- AUTH_BACKOFF_EXPIRED (R563): The port accepts connections again after the backoff period. -/
  | authBackoffExpired
  /-- MESH_LOOP_BROKEN (R565): A broken mesh loop makes the lane erase keys at its level and send a security alarm frame. -/
  | meshLoopBroken (lane : LaneId)
  /-- KEY_STORE_ENVIRONMENT (R565): A key store environment out of range acts as trigger 2. -/
  | keyStoreEnvironment (lane : LaneId)
  /-- TEMPERATURE_HIGH (R597): A rating-point temperature above 70 °C raises event 0x3A. -/
  | temperatureHigh (temp : Int)
  /-- FLASH_REFRESH (R592): At each refresh interval, flash blocks are moved to fresh blocks and verified. -/
  | flashRefresh (flash : Flash) (wear : Nat)
  /-- GO_TO_RUN (R151): Opcode 0x01 takes COMMISSION to RUN-3 or RUN-2. -/
  | goToRun (sub : Submission)
  /-- HALT_REQUEST (R151): Opcode 0x02 puts the module in HALT with HCAUSE 4. -/
  | haltRequest (sub : Submission)
  /-- POSSESSION_GRANT (R146): Critical opcode 0x04 grants possession of an area. -/
  | possessionGrant (sub : Submission)
  /-- POSSESSION_RETURN (R146): Critical opcode 0x05 returns a possessed area. -/
  | possessionReturn (sub : Submission)
  /-- FORCE_SET (R148): Opcode 0x06 forces a variable or input object inside a possessed area. -/
  | forceSet (sub : Submission)
  /-- FORCE_RELEASE (R151): Opcode 0x07 releases a force. -/
  | forceRelease (sub : Submission)
  /-- ROUTE_REQUEST (R218): Opcode 0x08 enters a route request into the pending table or refuses it. -/
  | routeRequest (sub : Submission)
  /-- ROUTE_CANCEL (R219): Opcode 0x09 cancels a pending request matched by tag and generation. -/
  | routeCancel (sub : Submission)
  /-- RUN_BLOCK_BIST (R131): Opcode 0x0A runs one block's BIST in COMMISSION before FIELD. -/
  | runBlockBist (sub : Submission) (pass : Bool)
  /-- APPLICATION_COMMAND (R182): Opcode 0x0B delivers a command to an event task through HCMD. -/
  | applicationCommand (sub : Submission)
  /-- CLEAR_EXCLUSION_RECORD (R111): Opcode 0x21 clears a lane's exclusion record in COMMISSION. -/
  | clearExclusionRecord (sub : Submission)
  /-- ACKNOWLEDGE_SAG_LATCH (R274): Opcode 0x60 releases a group's sag latch when ACKOK is set. -/
  | acknowledgeSagLatch (sub : Submission)
  /-- CLEAR_EXTERNAL_FEED_LATCH (R269): Opcode 0x61 clears a group's external-feed latch once the feed is gone. -/
  | clearExternalFeedLatch (sub : Submission)
  /-- CLEAR_CHANNEL_LATCH (R264): Opcode 0x62 clears a drive channel or contactor feedback latch. -/
  | clearChannelLatch (sub : Submission)
  /-- DISCARD_LEARNED_CURRENT (R265): Opcode 0x63 discards the learned current of one channel or all channels. -/
  | discardLearnedCurrent (sub : Submission)
  /-- SWITCH_SCHEDULE (R328): Opcode 0x80 announces a schedule switch for SCN S. -/
  | switchSchedule (sub : Submission)
  /-- REBIND_STATION_IDENTITY (R337): Critical opcode 0x81 rebinds a station or node identity and raises its epochs. -/
  | rebindStationIdentity (sub : Submission)
  /-- READ_CONNECTION_COUNTERS (R439): Opcode 0xA0 returns the Baton counts of a connection. -/
  | readConnectionCounters (sub : Submission)
  /-- HOST_CAN_TRANSMIT (R397): Opcode 0xB0 queues a host CAN FD frame in a buffer. -/
  | hostCanTransmit (sub : Submission)
  /-- CANCEL_HOST_TRANSMIT (R400): Opcode 0xB1 cancels a queued host entry, according to its state. -/
  | cancelHostTransmit (sub : Submission) (started : Bool)
  /-- NO_OPERATION (R437): Opcode 0xC0 completes with 0x00. -/
  | noOperation (sub : Submission)
  /-- CHANGEOVER (R472): Opcode 0xD0 passes the LEAD role to SHADOW at the next phase 0. -/
  | changeover (sub : Submission)
  /-- RE_JOIN (R469): Opcode 0xD1 starts a re-join of SHADOW. -/
  | reJoin (sub : Submission)
  /-- OPEN_SESSION (R533): Opcode 0xE0 opens an update session and takes the lock. -/
  | openSession (sub : Submission)
  /-- HEADER (R529): Opcode 0xE1 submits an image header for the header stage. -/
  | header (sub : Submission)
  /-- PAYLOAD_CHUNK (R536): Opcode 0xE2 writes and reads back one payload chunk. -/
  | payloadChunk (sub : Submission)
  /-- VERIFY (R530): Opcode 0xE3 runs the content stage on the staged payload. -/
  | verify (sub : Submission)
  /-- ACTIVATE (R537): Opcode 0xE4 schedules a restart activation or an on-line change at S. -/
  | activate (sub : Submission)
  /-- CLOSE_SESSION (R534): Opcode 0xE5 closes the session and releases the lock. -/
  | closeSession (sub : Submission)
  /-- RECORDER_READ (R515): Opcode 0xE8 starts a recorder read into an RR ring. -/
  | recorderRead (sub : Submission)
  /-- RECORDER_READ_STOP (R515): Opcode 0xE9 ends the read on a ring. -/
  | recorderReadStop (sub : Submission)
  /-- ROLL_CALL (R491): Opcode 0xEA schedules a roll call at target SCN T. -/
  | rollCall (sub : Submission)
  /-- SET_COUNTERS (R490): Opcode 0xEB sets the eight PCCFG words. -/
  | setCounters (sub : Submission)
  /-- PROVISION (R574): Owner opcode 0xF0 loads the owner root key, NID and pair identity. -/
  | provision (head : OwnerHead) (root : List Byte) (nid : Nat) (partner : W64) (paired : Bool)
  /-- LOAD_WRAPPED_KEYS (R559): Owner opcode 0xF1 unwraps and stores position and channel keys. -/
  | loadWrappedKeys (head : OwnerHead) (entries : List KeyEntry)
  /-- LIFECYCLE_TRANSITION (R554): Owner opcode 0xF2 moves the lifecycle to a named state. -/
  | lifecycleTransition (head : OwnerHead) (target : Lifecycle)
  /-- SET_ALARM_LEVELS (R564): Owner opcode 0xF3 sets the alarm levels and AUTHN. -/
  | setAlarmLevels (head : OwnerHead) (levels : List Nat) (authn : Nat)
  /-- CLEAR_PENDING_ALARM (R568): Owner opcode 0xF4 clears the pending alarm. -/
  | clearPendingAlarm (head : OwnerHead)
  /-- OWNER_UPDATE_LOCK (R569): Owner opcode 0xF5 sets or clears the owner update lock. -/
  | ownerUpdateLock (head : OwnerHead) (on : Bool)
  /-- RAISE_ROLLBACK_FLOOR (R569): Owner opcode 0xF6 raises a kind's rollback floor to the running version. -/
  | raiseRollbackFloor (head : OwnerHead) (kind : Nat)
  /-- REVOKE_IMAGE_VERIFICATION_KEY (R574): Owner opcode 0xF7 revokes an image verification key. -/
  | revokeImageVerificationKey (head : OwnerHead) (slot : Nat) (signer : Nat) (sig : List Byte)
  /-- PARTNER_LINE_RESTORED (R456): A lost partner-link line is restored after 1 s of valid frames, and with it the link, so that SHADOW may again ask to join. -/
  | partnerLineRestored (line : Bool)
  /-- MSIX_VECTOR_UNMASKED (R431): A host write to the MSI-X table in BAR2 unmasks a vector, and a message whose PBA bit is pending is sent. -/
  | msixVectorUnmasked (entry : MsixWrite)
  /-- LANE_SUPPLY_LOST (R37): A lane whose own regulator supply fails stops driving its switches and stops offering. -/
  | laneSupplyLost (lane : LaneId)
  /-- HOLD_UP_STORE_EXHAUSTED (R583): With both feeds gone, the hold-up store runs down and the module becomes unpowered. -/
  | holdUpStoreExhausted
  deriving DecidableEq, Repr

end Sys2Proof
end

