-- ==== Sys2Proof/Decode.lean ====
section
/-! DEFINITION. The words of the opcode table. No row of spec/opcode_table.json gives bits: the block is commanded by its
protocol, not by an instruction word, so no word spells a command. -/

namespace Sys2Proof

/-- The command a word of `nbits` bits spells by the opcode table's bits: the table gives none. -/
def decodeTableWord (nbits w : Nat) : Option Instr :=
  match nbits, w with
  | _, _ => none

end Sys2Proof
end

