-- ==== Sys2Proof/Machine/Bits.lean ====
section
/-! DEFINITION. Bit fields, byte orders (R11) and per-lane values: the small operations every register view and frame uses. -/

namespace Sys2Proof.Machine

/-- Bits `[lo+width-1 : lo]` of a number. -/
def fieldOf (w lo width : Nat) : Nat := (w / 2 ^ lo) % 2 ^ width

/-- Bit `i` of a number. -/
def bitOf (w i : Nat) : Bool := w.testBit i

/-- A 32-bit word from fields (value, low bit, width); each value is cut to its width. -/
def pack (fs : List (Nat × Nat × Nat)) : W32 :=
  BitVec.ofNat 32 (fs.foldl (fun acc f => acc + (f.1 % 2 ^ f.2.2) * 2 ^ f.2.1) 0)

/-- `true` is 1. -/
def b2n (b : Bool) : Nat := if b then 1 else 0

/-- Saturation at `top`. -/
def satN (top n : Nat) : Nat := min top n

/-- `w` with bits `[lo+width-1 : lo]` replaced by `v`. -/
def putField (w lo width v : Nat) : Nat :=
  w - fieldOf w lo width * 2 ^ lo + (v % 2 ^ width) * 2 ^ lo

/-- `n` little-endian bytes of `v` (R11: host and module structures). -/
def bytesLE : Nat → Nat → List Byte
  | 0, _ => []
  | n + 1, v => BitVec.ofNat 8 v :: bytesLE n (v / 256)

/-- `n` big-endian bytes of `v` (network order, R11). -/
def bytesBE (n v : Nat) : List Byte := (bytesLE n v).reverse

/-- The number the bytes spell, least significant first. -/
def ofLE : List Byte → Nat
  | [] => 0
  | b :: bs => b.toNat + 256 * ofLE bs

/-- The number the bytes spell, most significant first. -/
def ofBE (bs : List Byte) : Nat := ofLE bs.reverse

/-- `n` bytes from offset `off`, zeros beyond the end. -/
def cut (bs : List Byte) (off n : Nat) : List Byte :=
  let t := (bs.drop off).take n
  t ++ List.replicate (n - t.length) 0

/-- The little-endian field of `n` bytes at `off`. -/
def readLE (bs : List Byte) (off n : Nat) : Nat := ofLE (cut bs off n)

/-- The network-order field of `n` bytes at `off`. -/
def readBE (bs : List Byte) (off n : Nat) : Nat := ofBE (cut bs off n)

/-- One byte of a list, 0 beyond the end. -/
def byteAt (bs : List Byte) (off : Nat) : Nat := ((bs[off]?).getD 0).toNat

/-- The difference of two 32-bit counts, modulo 2^32 (R424). -/
def diff32 (a b : W32) : Nat := (a - b).toNat

/-- The signed reading of a 32-bit field. -/
def signedField (width v : Nat) : Int := if v < 2 ^ (width - 1) then (v : Int) else (v : Int) - 2 ^ width

/-- A signed value as a field of `width` bits, saturating at ±(2^(width-1) − 1) (R74, R79). -/
def satSigned (width : Nat) (v : Int) : Nat :=
  let top : Int := 2 ^ (width - 1) - 1
  let c := max (-top) (min top v)
  (c % 2 ^ width).toNat

def allLanes : List LaneId := [.a, .b, .c]

/-- Lane numbers of R101: 0 A, 1 B, 2 C. -/
def laneNo : LaneId → Nat
  | .a => 0
  | .b => 1
  | .c => 2

/-- The lane with a number; `none` above 2. -/
def laneOf? : Nat → Option LaneId
  | 0 => some .a
  | 1 => some .b
  | 2 => some .c
  | _ => Option.none

/-- The two other lanes. -/
def otherLanes (l : LaneId) : List LaneId := allLanes.filter (· != l)

/-- The link between two different lanes (R17); `none` from a lane to itself. -/
def linkOf : LaneId → LaneId → Option Link
  | .a, .b | .b, .a => some .ab
  | .b, .c | .c, .b => some .bc
  | .c, .a | .a, .c => some .ca
  | _, _ => Option.none

/-- Link numbers in the order of VOTSTS.LINES (R118). -/
def linkNo : Link → Nat
  | .ab => 0
  | .bc => 1
  | .ca => 2

end Sys2Proof.Machine

namespace Sys2Proof

/-- The value of one lane. -/
def PerLane.get {α : Type} (p : PerLane α) : LaneId → α
  | .a => p.a
  | .b => p.b
  | .c => p.c

/-- Replace the value of one lane. -/
def PerLane.set {α : Type} (p : PerLane α) (l : LaneId) (v : α) : PerLane α :=
  match l with
  | .a => { p with a := v }
  | .b => { p with b := v }
  | .c => { p with c := v }

/-- Apply a function to the value of one lane. -/
def PerLane.modify {α : Type} (p : PerLane α) (l : LaneId) (f : α → α) : PerLane α := p.set l (f (p.get l))

/-- Apply a function that knows the lane to every value. -/
def PerLane.mapL {α β : Type} (p : PerLane α) (f : LaneId → α → β) : PerLane β :=
  { a := f .a p.a, b := f .b p.b, c := f .c p.c }

/-- The same value for every lane. -/
def PerLane.all {α : Type} (v : α) : PerLane α := { a := v, b := v, c := v }

/-- The lanes whose value is `true`, in the order A, B, C. -/
def PerLane.lanes (p : PerLane Bool) : List LaneId := [LaneId.a, LaneId.b, LaneId.c].filter p.get

/-- How many lanes are set. -/
def PerLane.count (p : PerLane Bool) : Nat := p.lanes.length

/-- The intersection of two sets of lanes. -/
def PerLane.inter (p q : PerLane Bool) : PerLane Bool := { a := p.a && q.a, b := p.b && q.b, c := p.c && q.c }

/-- Bits [2:0] of a set of lanes: [0] A, [1] B, [2] C. -/
def PerLane.bits (p : PerLane Bool) : Nat := p.a.toNat + 2 * p.b.toNat + 4 * p.c.toNat

/-- The set of lanes of bits [2:0]. -/
def PerLane.ofBits (n : Nat) : PerLane Bool := { a := n.testBit 0, b := n.testBit 1, c := n.testBit 2 }

/-- The set that holds one lane. -/
def PerLane.only (l : LaneId) : PerLane Bool := (PerLane.all false).set l true

end Sys2Proof
end

