-- ==== Sys2Proof/Machine/Tab.lean ====
section
/-! DEFINITION. Sparse tables in ONE canonical form: keys strictly rising, no entry equal to what an unlisted key reads as.
The variable image (R164) is such a table of bytes; so is every table of per-connection, per-station or per-ring state. -/

namespace Sys2Proof.Machine

/-- A sparse table: pairs of key and value. -/
abbrev Tab (α : Type) := List (Nat × α)

/-- What key `k` reads as; `d` where the key is not listed. -/
def tabGet {α : Type} (d : α) (t : Tab α) (k : Nat) : α :=
  match t with
  | [] => d
  | (j, v) :: r => if j = k then v else tabGet d r k

/-- The table with key `k` removed (it reads as the default again). -/
def tabDel {α : Type} (t : Tab α) (k : Nat) : Tab α := t.filter (fun e => e.1 != k)

/-- The table with key `k` present at `v`, in rising order. -/
def tabPut {α : Type} (t : Tab α) (k : Nat) (v : α) : Tab α :=
  match t with
  | [] => [(k, v)]
  | (j, w) :: r => if k < j then (k, v) :: (j, w) :: r else if k = j then (k, v) :: r else (j, w) :: tabPut r k v

/-- The table with key `k` at `v`: an entry equal to the default `d` is removed, not listed. -/
def tabSet {α : Type} [DecidableEq α] (d : α) (t : Tab α) (k : Nat) (v : α) : Tab α := if v = d then tabDel t k else tabPut t k v

/-- The table with `f` applied to what each listed key reads as. -/
def tabMap {α : Type} [DecidableEq α] (d : α) (f : α → α) (t : Tab α) : Tab α :=
  (t.map (·.1)).foldl (fun acc k => tabSet d acc k (f (tabGet d t k))) t

/-- The canonical form. -/
def tabWf {α : Type} [DecidableEq α] (d : α) : Tab α → Bool
  | [] => true
  | (k, v) :: r => (v != d) && r.all (fun e => decide (k < e.1)) && tabWf d r

/-- An optional entry: present or not. -/
def tabFind {α : Type} (t : Tab α) (k : Nat) : Option α := (t.find? (fun e => e.1 == k)).map (·.2)

/-- `x` put in front of the first item it comes before. -/
def insertBy {α : Type} (lt : α → α → Bool) (x : α) : List α → List α
  | [] => [x]
  | y :: ys => if lt x y then x :: y :: ys else y :: insertBy lt x ys

/-- A list in order; with a reflexive `lt` items that tie keep theirs. -/
def sortBy {α : Type} (lt : α → α → Bool) : List α → List α
  | [] => []
  | x :: xs => insertBy lt x (sortBy lt xs)

/-- Memory of the variable image: bytes by address; an unlisted address reads 0. -/
abbrev Memory := List (Nat × BitVec 8)

/-- One byte of memory. -/
def memGet (m : Memory) (a : Nat) : Byte := tabGet 0 m a

/-- Memory with one byte written. -/
def memSet (m : Memory) (a : Nat) (v : Byte) : Memory := tabSet 0 m a v

/-- `n` bytes from address `a`. -/
def memRead (m : Memory) (a : Nat) : Nat → List Byte
  | 0 => []
  | n + 1 => memGet m a :: memRead m (a + 1) n

/-- Memory with the bytes written from address `a`. -/
def memWrite (m : Memory) (a : Nat) : List Byte → Memory
  | [] => m
  | b :: bs => memWrite (memSet m a b) (a + 1) bs

/-- Memory with `n` bytes from address `a` at zero. -/
def memClear (m : Memory) (a n : Nat) : Memory := m.filter (fun e => decide (e.1 < a) || decide (a + n ≤ e.1))

/-- The canonical form of memory. -/
abbrev Memory.wf (m : Memory) : Bool := tabWf 0 m

end Sys2Proof.Machine
end

