-- ==== Sys2Proof/Machine/Parts/App.lean ====
section
/-! DEFINITION. What an application image fixes (R160-R171, R207-R213, R339): variables, objects, tasks, instances, connections
and the route engine's tables, as its sections declare them. It is static while the application runs. -/

namespace Sys2Proof.Machine

/-- Where an input object takes its value from (OMAP). -/
inductive InBind where
  | unbound
  /-- Input channel n of station 0 (R246). -/
  | chan (n : Nat)
  /-- A field of a connection's DATA: offset and size in bytes (R364). -/
  | field (conn off size : Nat)
  /-- The diagnostic word of drive channel k (R266). -/
  | driveWord (k : Nat)
  deriving DecidableEq, Repr, Inhabited

/-- What an output variable drives (OMAP). -/
inductive OutBind where
  | drive (k : Nat)
  | field (conn off size : Nat)
  deriving DecidableEq, Repr, Inhabited

/-- An object of OMAP. -/
structure ObjEntry where
  /-- The object reference (R161, R162). -/
  ref : W32
  inb : InBind
  ty : Ty
  emax : Nat
  /-- OMAP's substitute, in register form. -/
  subst : Nat
  /-- Possession area the object lies in (R146). -/
  area : Option Nat
  /-- Declared a staff-protection switch (R140). -/
  staff : Bool
  /-- UINT32 variable bound for the state mirror (R451). -/
  word : Option Nat
  deriving DecidableEq, Repr, Inhabited

/-- A field of a record variable. -/
structure RecField where
  off : Nat
  ty : Ty
  emax : Nat
  deriving DecidableEq, Repr, Inhabited

/-- A variable descriptor of VDT (R164), with its INIT values. -/
structure VarDesc where
  vid : Nat
  addr : Nat
  ty : Ty
  emax : Nat
  /-- Element count of an array. -/
  count : Option Nat
  /-- Record layout; empty for any other variable. -/
  fields : List RecField
  owner : Nat
  output : Bool
  retained : Bool
  forceable : Bool
  /-- Area of the object the variable belongs to, for forcing (R146), and that object's reference (R174 FRC). -/
  area : Option Nat
  obj : Option W32
  /-- INIT: initial bytes, and restrictive bytes of an output variable. -/
  init : List Byte
  restr : List Byte
  deriving DecidableEq, Repr, Inhabited

/-- The release kinds of R175. -/
inductive TaskKind where
  | cyc5
  | cyc20
  /-- 100, 500 or 1,000 ms, in slices. -/
  | slow
  | evMain
  | evSlack
  deriving DecidableEq, Repr, Inhabited

/-- A task table entry (R171). -/
structure TaskDesc where
  num : Nat
  kind : TaskKind
  /-- Period in station cycles and release offset (slow tasks). -/
  period : Nat
  offset : Nat
  /-- Input objects whose change triggers an event task (R181). -/
  edges : List W32
  /-- Event task: accepts only critical commands (R437). -/
  critical : Bool
  prio : Nat
  entry : Nat
  maxInstr : Nat
  slice : Nat
  /-- Worst-case cycles per heat and, of a slow task, per slice (R180). -/
  worstHeat : Nat
  worstSlice : Nat
  route : Bool
  /-- Blocks in the image: first address and length, of the variables it owns (R164, R168). -/
  blocks : List (Nat × Nat)
  /-- Uses the route engine, a check-value unit or the key store in the slack window (R144). -/
  uses : List Nat
  deriving DecidableEq, Repr, Inhabited

/-- The kinds of TMR instances. -/
inductive InstKind where
  | timer | counter | edge
  deriving DecidableEq, Repr, Inhabited

/-- A TMR entry: kind, owning task, identity and retained mark (R185, R197). -/
structure InstDesc where
  num : Nat
  kind : InstKind
  task : Nat
  ident : Nat
  retained : Bool
  deriving DecidableEq, Repr, Inhabited

/-- A field of a telegram layout (R364). -/
structure LayoutField where
  off : Nat
  size : Nat
  /-- A choice field; otherwise it is ordered. Only a far end merges fields by it (R364, R365). -/
  choice : Bool
  deriving DecidableEq, Repr, Inhabited

/-- A connection table entry (R339-R341). -/
structure ConnDesc where
  num : Nat
  cid : W32
  /-- 1 cyclic, 2 event, 3 terminal. -/
  kind : Nat
  per : Nat
  ofs : Nat
  texp : Nat
  dlen : Nat
  layout : List LayoutField
  layoutId : Nat
  epoch : Nat
  deriving DecidableEq, Repr, Inhabited

/-- An entry of the transfer list: built for an on-line change (R196). -/
structure AppImage where
  build : W32
  layoutDig : W64
  /-- Build number the XFER list was built against (R195). -/
  xferBase : W32
  /-- Network settings version it requires (R526). -/
  nsVersion : W32
  vars : List VarDesc
  outs : List (Nat × Nat × OutBind)
  /-- Allocated ranges of the image in ascending order, and padding ranges (R97). -/
  alloc : List (Nat × Nat)
  pad : List (Nat × Nat)
  objs : List ObjEntry
  tasks : List TaskDesc
  insts : List InstDesc
  /-- JIC code words of the CODE section, by word address (R160, R170). -/
  code : List W32
  kpool : List (Ty × BitVec 64)
  jtabs : List (List Nat)
  conns : List ConnDesc
  /-- Safety-wire inputs: mode and expected phase in µs of a pulse-mode SWI (R280, R281). -/
  swi : List (Nat × Option Nat)
  swiSync : List Nat
  /-- Number of Generic application objects OMAP numbers (R162). -/
  generic : Nat
  /-- Conflict matrix rows by route; a row reads as its diagonal bit where not listed (R207). -/
  matrix : Tab (BitVec 4096)
  /-- Directory and pool words (R208-R210). -/
  dir : Tab W32
  pool : Tab W32
  poolUsed : Nat
  /-- VIDs of the four status arrays (R212): point, signal, section, level crossing. -/
  statusVids : List Nat
  /-- Staff switches declared, by input channel. -/
  staff : List Nat
  /-- Size in bytes of every section of the payload, in the order of R160. -/
  secs : List Nat
  /-- The 16 KiB static slices' bytes by slice index are those of the loaded payload. -/
  payload : List Byte
  deriving DecidableEq, Repr, Inhabited

/-- An image with nothing in it. -/
def AppImage.empty : AppImage :=
  { build := 0, layoutDig := 0, xferBase := 0, nsVersion := 0, vars := [], outs := [], alloc := [], pad := [], objs := [], tasks := [],
    insts := [], code := [], kpool := [], jtabs := [], conns := [], swi := [], swiSync := [], generic := 0, matrix := [], dir := [], pool := [],
    poolUsed := 0, statusVids := [], staff := [], secs := [], payload := [] }

/-- What the header of an application image declares (R4, R160, R527): counts, section sizes, the task table with its worst-case figures. -/
structure AppDecl where
  routes : Nat
  points : Nat
  signals : Nat
  sections : Nat
  crossings : Nat
  areas : Nat
  objects : Nat
  /-- 32-bit words of variables. -/
  words : Nat
  kpool : Nat
  timers : Nat
  counters : Nat
  edges : Nat
  tasks : List TaskDesc
  /-- Sizes in bytes of TASK, CODE, KPOOL, VDT, PAD, INIT, OMAP, TMR, XFER, and of the two parts of ENG: conflict matrix, element tables. -/
  secs : List Nat
  layoutDig : W64
  xferBase : W32
  poolRun : Nat
  deriving DecidableEq, Repr, Inhabited

/-- What the header of a network settings image declares (R527): stations per segment, nodes per channel. -/
structure NetDecl where
  stations : List Nat
  nodes : List Nat
  deriving DecidableEq, Repr, Inhabited

end Sys2Proof.Machine
end

