-- ==== Sys2Proof/Machine/Parts/Host.lean ====
section
/-! DEFINITION. The host interface's state (R410-R454): BAR0 set-up registers, the 96 rings, the Ledger's counts, the event
FIFO, MSI-X vectors, the critical pending table, submissions held, accepted and completed. -/

namespace Sys2Proof.Machine

/-- An event as R444 describes it, less ring number, phase and ESEQ. -/
structure Event where
  code : Nat
  /-- 0 agreed module state; 1, 2, 3 lane A, B, C alone; 4 front end; 5 I/O controller; 6 partner. -/
  src : Nat
  privileged : Bool
  scn : Nat
  arg0 : Nat
  arg1 : Nat
  arg2 : Nat
  deriving DecidableEq, Repr, Inhabited

/-- A completion entry of R436. -/
structure Cpl where
  tag : W32
  opc : Nat
  code : Nat
  detail : Nat
  /-- RESULT: bytes 8-30; empty means zeros. -/
  result : List Byte
  /-- Byte 31 [7:1]. -/
  flags : Nat
  deriving DecidableEq, Repr, Inhabited

/-- A recorder read entry (R516), less TAG and phase. -/
structure RrEntry where
  record : List Byte
  idx : Nat
  afl : Nat
  tag : W32
  deriving DecidableEq, Repr, Inhabited

/-- A telegram mirror entry (R452), less the phase. -/
structure TmEntry where
  tstamp : Nat
  dirm : Nat
  lost : Nat
  tel : List Byte
  deriving DecidableEq, Repr, Inhabited

/-- What the ZL3 writes into a slot of a host ring, with its phase bit (R429). -/
inductive RingEntry where
  | completion (c : Cpl) (phase : Bool)
  | event (e : Event) (eseq : W32) (phase : Bool)
  | record (r : RrEntry) (phase : Bool)
  | telegram (t : TmEntry) (phase : Bool)
  deriving DecidableEq, Repr

/-- A ring: its descriptor of R421 and its counts of R424. -/
structure Ring where
  basel : W32
  baseh : W32
  wrdl : W32
  wrdh : W32
  en : Bool
  fault : Bool
  log2n : Nat
  cls : Bool
  target : Nat
  /-- Entries consumed (SQ) or written (others). -/
  count : W32
  /-- Acknowledge word (or doorbell, SQ) as last read. -/
  ack : W32
  /-- SQ: accepted and not completed; EQ, TM: entries lost. -/
  aux : W32
  /-- SQ: entries consumed and not yet completed (R427). -/
  open_ : Nat
  /-- SQ: SCN + 1 of the cycle in which R427 began to hold it, 0 while it does not; whether 0xC5 was raised. -/
  held : Nat
  heldTold : Bool
  /-- EQ: events produced for the ring (ESEQ); TM: copies dropped since the last written entry. -/
  seq : W32
  lost : Nat
  /-- SQ: entries consumed in station cycle `cycScn` (R426). -/
  cycN : Nat
  cycScn : Nat
  deriving DecidableEq, Repr

def Ring.fresh : Ring :=
  { basel := 0, baseh := 0, wrdl := 0, wrdh := 0, en := false, fault := false, log2n := 0, cls := false, target := 0,
    count := 0, ack := 0, aux := 0, open_ := 0, held := 0, heldTold := false, seq := 0, lost := 0, cycN := 0, cycScn := 0 }

/-- An MSI-X vector (R431). -/
structure Vector32 where
  masked : Bool
  pba : Bool
  /-- Address and data of the table entry (R411). -/
  addr : W64
  data : W32
  /-- A message is due but held by the rate limit. -/
  due : Bool
  lastAt : Option Nat
  sent : Nat
  deriving DecidableEq, Repr

/-- Vectors come up masked after a PCIe reset (PCI Express; the manual gives no reset value). -/
def Vector32.fresh : Vector32 := { masked := true, pba := false, addr := 0, data := 0, due := false, lastAt := none, sent := 0 }

/-- An entry of the critical pending table (R442). -/
structure CritPend where
  /-- DATA of the step 1 telegram. -/
  data : List Byte
  /-- Its full SEQ. -/
  seq : Nat
  deriving DecidableEq, Repr, Inhabited

/-- A submission accepted and not yet completed. -/
structure Accepted where
  src : SubSrc
  opc : Nat
  tag : W32
  deriving DecidableEq, Repr

/-- An event waiting in the event FIFO for its ring (R447); `lossOf` marks losses before it. -/
structure QEvent where
  eq : Nat
  ev : Event
  eseq : W32
  deriving DecidableEq, Repr

/-- An item of a diagnostic FIFO 1 to 12: a telegram with the medium and segment it was received on or sent to (R452, R503). -/
structure FifoItem where
  received : Bool
  medium : Nat
  seg : Nat
  /-- Station time in ns. -/
  at_ : Nat
  tel : List Byte
  deriving DecidableEq, Repr

/-- A diagnostic FIFO: the items it holds, oldest first, and its registers (R503-R505, R517, R521). -/
structure DiagFifo where
  items : List FifoItem
  prod : W32
  deliv : W32
  lostN : W32
  resets : Nat
  /-- FDELIV and FLOST as latched by a read of FPROD. -/
  latDeliv : W32
  latLost : W32
  deriving DecidableEq, Repr

def DiagFifo.fresh : DiagFifo := { items := [], prod := 0, deliv := 0, lostN := 0, resets := 0, latDeliv := 0, latLost := 0 }

/-- What the host programs in the endpoint's configuration space, and its AER status (R410). -/
structure PcieCfg where
  /-- Base addresses of BAR0 and BAR2. -/
  bar0 : W32
  bar2 : W32
  /-- Maximum payload and read request size in bytes. -/
  mps : Nat
  mrrs : Nat
  /-- AER uncorrectable error status. -/
  aer : W32
  deriving DecidableEq, Repr

/-- PRESUMED: reset values and status bits of PCI Express; the manual gives none (log entry 35). -/
def PcieCfg.fresh : PcieCfg := { bar0 := 0, bar2 := 0, mps := 128, mrrs := 512, aer := 0 }

/-- Class code (R410). -/
def classCode : Nat := 0x118000

/-- The front end's host interface. -/
structure HostIf where
  pcie : PcieCfg
  run : Bool
  mirror : Bool
  seterr : Nat
  invcause : Nat
  lspeed : Nat
  lwidth : Nat
  valid : Bool
  busMaster : Bool
  mirl : W32
  mirh : W32
  headl : W32
  headh : W32
  /-- Ledger counts: accepted, completed, events produced, written, lost (R415). An event counts as produced once it has left the event
  FIFO, written or lost: so produced is written and lost together at every moment (R42, R453, R504). -/
  acc : W32
  cmp : W32
  evp : W32
  evd : W32
  evl : W32
  /-- HIFLCMP, HIFLOUT, HIFEVD, HIFEVL as latched (R415). -/
  latCmp : W32
  latOut : W32
  latEvd : W32
  latEvl : W32
  /-- BAR0 writes discarded and host interface resets since power-up (R415). -/
  discN : Nat
  resetN : Nat
  /-- A host interface reset is to be reported with event 0xCA once RUN is set (R414). -/
  resetTold : Bool
  /-- The count of BAR0 reset values: ring descriptors and counts, ring number 0-95. -/
  rings : Tab Ring
  /-- What the ZL3 last wrote into host ring slots: key ring × 4096 + slot. -/
  slots : Tab RingEntry
  /-- What the ZL3 has written into host memory, by 64-bit address: ring entries, head block, state mirror, roll-call sections (R423, R429,
  R448, R496). Every other byte is the host's; it reads 0 here. -/
  mem : Memory
  /-- The head block's words: entries consumed per SQ (R423). -/
  head : Tab W32
  /-- Event routing table, one byte per code (R446); unlisted 0x80. -/
  route : Tab Byte
  vecs : Tab Vector32
  /-- Submissions consumed and held at the lanes, not yet accepted, in order of consumption. -/
  waiting : List Submission
  /-- Submissions accepted in station cycle `cycleAt` less 1, in order of acceptance (R97). -/
  cycleSubs : List Submission
  cycleAt : Nat
  /-- Critical submissions accepted whose verification a protected hurdle defers to the next freeze (R145). -/
  critWait : List Submission
  /-- Submissions accepted and not yet completed, in order of acceptance. -/
  open_ : List Accepted
  /-- Submissions whose completions are not written yet, in order of acceptance (R435). -/
  order : List Accepted
  /-- Completions formed and waiting for phase 16,000, as formed (R435). -/
  cplWait : List (SubSrc × Cpl)
  /-- Agreed events waiting for phase 16,000 (R445). -/
  evWait : List Event
  /-- The event FIFO, oldest first (R44, R447). -/
  fifo : List QEvent
  /-- Events lost per EQ and the first lost ESEQ, until the loss entry is written (R447). -/
  lossQ : Tab (W32 × Nat)
  /-- Critical pending table by terminal connection (R442). -/
  crit : Tab CritPend
  /-- Completions returned to the service channel (R533), newest first. -/
  svcOut : List Cpl
  /-- Diagnostic FIFOs 1-12 (FIFO 0 shows the Ledger's event counts). -/
  dfifo : Tab DiagFifo
  /-- State mirror as last written: MSCN, and the SCN of the last event 0xC8. -/
  mscn : Option Nat
  mirrorMode : Nat
  mirrorVset : Nat
  mirrorMfl : Nat
  skipAt : Option Nat
  /-- Half 0 and half 1: routes, point ends, signals, sections, level crossings, generic objects by slot. -/
  half0 : Tab W64
  half1 : Tab W64
  /-- BUILD and the fields STN of the header (R449). -/
  mirrorBuild : W32
  mirrorStn : Tab Nat
  /-- Data a latching or plain register read returned last. -/
  readData : W32
  deriving DecidableEq, Repr

def HostIf.fresh : HostIf :=
  { pcie := PcieCfg.fresh, run := false, mirror := false, seterr := 0, invcause := 0, lspeed := 0, lwidth := 0, valid := false, busMaster := true,
    mirl := 0, mirh := 0, headl := 0, headh := 0, acc := 0, cmp := 0, evp := 0, evd := 0, evl := 0, latCmp := 0, latOut := 0,
    latEvd := 0, latEvl := 0, discN := 0, resetN := 0, resetTold := false, rings := [], slots := [], mem := [], head := [], route := [],
    vecs := [], waiting := [], cycleSubs := [], cycleAt := 0, critWait := [], open_ := [], order := [], cplWait := [], evWait := [], fifo := [], lossQ := [], crit := [],
    svcOut := [], dfifo := [], mscn := none, mirrorMode := 0, mirrorVset := 0, mirrorMfl := 0, skipAt := none,
    half0 := [], half1 := [], mirrorBuild := 0, mirrorStn := [], readData := 0 }

end Sys2Proof.Machine
end

