-- ==== Sys2Proof/Machine/Crc.lean ====
section
/-! DEFINITION. The check values of R98, R499: CRC-64 (ECMA-182), CRC-32 (IEEE 802.3), CRC-32C, CRC-16 (CCITT). -/

namespace Sys2Proof.Machine

/-- One bit of an unreflected CRC of width `w`. -/
def crcBitMsb {w : Nat} (poly r : BitVec w) : BitVec w := if r.msb then (r <<< 1) ^^^ poly else r <<< 1

/-- One bit of a reflected CRC; `poly` is the bit-reversed polynomial. -/
def crcBitLsb {w : Nat} (poly r : BitVec w) : BitVec w := if r.getLsbD 0 then (r >>> 1) ^^^ poly else r >>> 1

/-- Apply a function `n` times. -/
def iter {α : Type} (f : α → α) : Nat → α → α
  | 0, x => x
  | n + 1, x => iter f n (f x)

def crc64Poly : BitVec 64 := 0x42F0E1EBA9EA3693#64
def crc32PolyRev : BitVec 32 := 0xEDB88320#32
def crc32cPolyRev : BitVec 32 := 0x82F63B78#32
def crc16Poly : BitVec 16 := 0x1021#16

/-- One byte of the CRC-64 of R98 (running value, before the final XOR). -/
def crc64Byte (r : BitVec 64) (b : Byte) : BitVec 64 :=
  iter (crcBitMsb crc64Poly) 8 (r ^^^ ((b.zeroExtend 64) <<< 56))

def crc32Byte (r : BitVec 32) (b : Byte) : BitVec 32 := iter (crcBitLsb crc32PolyRev) 8 (r ^^^ b.zeroExtend 32)
def crc32cByte (r : BitVec 32) (b : Byte) : BitVec 32 := iter (crcBitLsb crc32cPolyRev) 8 (r ^^^ b.zeroExtend 32)
def crc16Byte (r : BitVec 16) (b : Byte) : BitVec 16 := iter (crcBitMsb crc16Poly) 8 (r ^^^ ((b.zeroExtend 16) <<< 8))

/-- The CRC-64 of R98: initial value all ones, final XOR all ones, no reflection. -/
def crc64 (bs : List Byte) : BitVec 64 := (bs.foldl crc64Byte (BitVec.allOnes 64)) ^^^ BitVec.allOnes 64
def crc32 (bs : List Byte) : BitVec 32 := (bs.foldl crc32Byte (BitVec.allOnes 32)) ^^^ BitVec.allOnes 32
def crc32c (bs : List Byte) : BitVec 32 := (bs.foldl crc32cByte (BitVec.allOnes 32)) ^^^ BitVec.allOnes 32
def crc16 (bs : List Byte) : BitVec 16 := bs.foldl crc16Byte (BitVec.allOnes 16)

/-- The running value's start for a polynomial code of R499; codes above 3 name none. -/
def cvuInit (code : Nat) : BitVec 64 :=
  match code with
  | 0 => 0xFFFFFFFF#64
  | 1 => 0xFFFFFFFF#64
  | 2 => BitVec.allOnes 64
  | _ => 0xFFFF#64

/-- One byte through a check-value unit set to a polynomial code (R499). -/
def cvuByte (code : Nat) (r : BitVec 64) (b : Byte) : BitVec 64 :=
  match code with
  | 0 => (crc32Byte (r.truncate 32) b).zeroExtend 64
  | 1 => (crc32cByte (r.truncate 32) b).zeroExtend 64
  | 2 => crc64Byte r b
  | _ => (crc16Byte (r.truncate 16) b).zeroExtend 64

/-- A check-value unit's registers: polynomial code, running value before the final XOR, the value expected (R500, R501). -/
structure CvUnit where
  poly : Nat
  run : BitVec 64
  expected : Option (BitVec 64)
  deriving DecidableEq, Repr

/-- A unit before any use; the manual gives no reset value (log entry 61). -/
def CvUnit.fresh : CvUnit := { poly := 0, run := 0, expected := none }

/-- A computation begins: the initial value, and the value expected at its end where one is given (R499, R501). -/
def cvuStart (poly : Nat) (expected : Option (BitVec 64)) : CvUnit := { poly := poly, run := cvuInit poly, expected := expected }

/-- Bytes through a unit, from its running value on. -/
def CvUnit.feed (bs : List Byte) (u : CvUnit) : CvUnit := { u with run := bs.foldl (cvuByte u.poly) u.run }

/-- What a read of the unit returns: polynomial code and running value (R500). -/
def CvUnit.context (u : CvUnit) : Nat × BitVec 64 := (u.poly, u.run)

/-- A write of a saved context: the computation goes on as if it had never been interrupted (R500). -/
def CvUnit.restore (c : Nat × BitVec 64) (u : CvUnit) : CvUnit := { u with poly := c.1, run := c.2 }

/-- A unit after it has taken the bytes from the initial value on. -/
def cvuOn (poly : Nat) (bs : List Byte) (expected : Option (BitVec 64)) : CvUnit := (cvuStart poly expected).feed bs

/-- The final value from the running value (R499, R500). -/
def cvuFinal (code : Nat) (r : BitVec 64) : BitVec 64 :=
  match code with
  | 0 => r ^^^ 0xFFFFFFFF#64
  | 1 => r ^^^ 0xFFFFFFFF#64
  | 2 => r ^^^ BitVec.allOnes 64
  | _ => r

/-- At the end of a computation the final value differs from the one expected (R501). -/
def CvUnit.mismatch (u : CvUnit) : Bool := u.expected.any (fun e => e != cvuFinal u.poly u.run)

end Sys2Proof.Machine
end

