-- ==== Sys2Proof/Machine/Parts/Lane.lean ====
section
/-! DEFINITION. A lane (R16-R21, R81-R89): what its flash and key store keep across restarts, and what one run holds. -/

namespace Sys2Proof.Machine

/-- The RWS registers stored in each lane's settings (R74, R116, R152, R239, R284, R419, R480, R548). -/
structure Settings where
  modcfg : W32
  votcfg : W32
  pcrcfg : W32
  pcrsrc : W32
  pcrptp : W32
  hifcfg : W32
  engcfg : W32
  fiocfg : W32
  prcfg : W32
  updcfg : W32
  deriving DecidableEq, Repr

/-- The reset values of those registers. -/
def Settings.initial : Settings :=
  { modcfg := 0x1E000301#32, votcfg := pack [(30, 8, 8), (3, 0, 2)], pcrcfg := pack [(10, 8, 8), (5, 4, 4), (1, 3, 1)],
    pcrsrc := 0x321#32, pcrptp := pack [(7, 8, 8)], hifcfg := 1500#32, engcfg := 1500#32, fiocfg := pack [(50, 16, 8), (40, 8, 8), (1, 0, 1)],
    prcfg := pack [(30, 16, 8), (1, 1, 1)], updcfg := 600#32 }

/-- The settings area of one bank of a lane (R540). -/
structure SetArea where
  stored : Option Settings
  version : Nat
  deriving DecidableEq, Repr

/-- An exclusion record of one lane about another, or about itself (R108, R111). -/
structure ExclRec where
  /-- Cause (R119) and SCN of each exclusion recorded, newest first. -/
  entries : List (Nat × Nat)
  deriving DecidableEq, Repr, Inhabited

/-- A route state entry (R217). -/
structure RouteSt where
  mrel : BitVec 64
  fheld : BitVec 48
  orel : BitVec 16
  /-- 0 FREE, 1 LOCKED, 2 UNKNOWN. -/
  state : Nat
  carried : Bool
  ovl : Nat
  noOvl : Bool
  lgen : Nat
  lscn : W32
  ltag : W32
  base : Nat
  deriving DecidableEq, Repr

def RouteSt.free : RouteSt :=
  { mrel := 0, fheld := 0, orel := 0, state := 0, carried := false, ovl := 0, noOvl := false, lgen := 0, lscn := 0, ltag := 0, base := 0 }

/-- A timer, counter or edge detector (R183-R187). -/
structure InstState where
  /-- Input at the previous evaluation; `none` before the first. -/
  prev : Option Bool
  running : Bool
  start : Nat
  /-- Expiry of the running timer: start + preset. -/
  due : Nat
  count : Int
  deriving DecidableEq, Repr

def InstState.idle : InstState := { prev := none, running := false, start := 0, due := 0, count := 0 }

/-- A retain record (R134, R135). -/
structure Retain where
  /-- SCN and station time (ns) of the vote. -/
  scn : Nat
  voteTime : Nat
  /-- The lane's station time at the write. -/
  writeTime : Nat
  locked : BitVec 4096
  /-- Element words by element (status words: flank, element lock state, overlap role). -/
  elements : Tab W32
  /-- The route state table (R214, R217). -/
  routes : Tab RouteSt
  /-- Running approach and sectional release timers, by timer number (R135, R185). -/
  timers : Tab InstState
  areas : BitVec 64
  /-- Retained application variables: address and bytes of each. -/
  vars : List (Nat × List Byte)
  /-- Build number and layout digest of the application that wrote it (R193). -/
  build : W32
  layout : W64
  /-- Grandmaster identity and timeTraceable stored with it (R70). -/
  gm : Option (W64 × Bool)
  /-- Its source of time was the partner or the partner's gun frames (R70). -/
  byPartner : Bool
  /-- The module ran on its own timeline, or in holdover with STEPREF set (R70). -/
  noCont : Bool
  /-- The record verifies. -/
  valid : Bool
  deriving DecidableEq, Repr

/-- One program bank: lane firmware and application (R524). -/
structure ProgBank where
  fwVersion : W32
  /-- The lane firmware image as written. -/
  fw : List Byte
  /-- Settings versions the firmware writes and the oldest it can migrate (R527). -/
  sver : Nat
  smin : Nat
  appBuild : W32
  /-- The application payload as written, which determines the application (R160). -/
  payload : List Byte
  usable : Bool
  deriving DecidableEq, Repr

/-- A lane's key store (R557). -/
structure KeyStore where
  identity : Bool
  transport : Bool
  /-- Image verification keys present and not revoked, 4 slots. -/
  ivk : List Bool
  owner : Option (List Byte)
  position : Option (BitVec 128)
  /-- Channel keys: key CLASS × 4096 + NUM × 2 + (1 for Y). -/
  channel : Tab (BitVec 128)
  lifecycle : Lifecycle
  /-- The last owner command counter accepted (R562). -/
  counter : Nat
  /-- Rollback floors of kinds 1-6 (R569). -/
  floors : Tab W32
  /-- Test and debug ports fused off (R555). -/
  fused : Bool
  /-- Keys loaded for keys the store holds; they replace them at the next freeze (R559). -/
  next : List KeyEntry
  deriving DecidableEq, Repr

/-- A header kept for R532: kind, VERSION, PDIG. -/
structure KeptHeader where
  kind : Nat
  version : W32
  pdig : List Byte
  deriving DecidableEq, Repr

/-- What a lane keeps across restarts and power loss. -/
structure LaneNv where
  retain : Option Retain
  /-- Station time recorded with retain writes and the power-fail flush (R56). -/
  timeRec : Option Nat
  area0 : SetArea
  area1 : SetArea
  bank0 : ProgBank
  bank1 : ProgBank
  /-- Exclusion records this lane holds about each lane (R108). -/
  excl : PerLane ExclRec
  keys : KeyStore
  kept : List KeptHeader
  /-- Forces dropped and not yet reported (R150). -/
  dropped : Nat
  /-- The loss of the front end recorded in the retain area (R21). -/
  feLossSeen : Bool
  /-- Learned oscillator offset in ppb (R68). -/
  drift : Int
  /-- Learned load currents by drive channel (R265). -/
  loads : Tab Nat
  /-- Rebinds of far ends accepted since provisioning: key 0x1000 × kind + number (R354). -/
  rebinds : Tab Nat
  /-- Days since the module last drove its local outputs as LEAD (R479). -/
  days : Nat
  /-- Clock plan step code (R589). -/
  plan : Nat
  /-- Retain and settings writes fail (flash worn or absent): never set by the manual's own operations. -/
  flashOk : Bool
  /-- Learned Allan deviation over the last 24 hours (R67), as a plain number. -/
  allan : Nat
  deriving DecidableEq, Repr

/-- A frame of the photo finish as a lane holds it. -/
structure HeldOffer where
  fingerprint : W64
  offer : Offer
  deriving DecidableEq, Repr

/-- A telegram a lane counted RECV and holds (R94, R360): its full SEQ and the telegram as carried. -/
structure Held where
  seq : Nat
  tel : List Byte
  deriving DecidableEq, Repr, Inhabited

/-- One lane's view of one connection towards the ZL3 (R358, R359): counts of the epoch in force, and the telegrams held. -/
structure BtnLane where
  epoch : Nat
  fmt : Nat
  sealf : Nat
  epmis : Nat
  dup : Nat
  late : Nat
  recv : Nat
  low : Option Nat
  high : Option Nat
  /-- Full SEQs counted RECV, LATE in this epoch, with the body first counted. -/
  counted : List (Nat × List Byte)
  /-- Full SEQs this lane holds two bodies of (R367). -/
  diverged : List Nat
  newest : Option Held
  prev : Option Held
  /-- SCNs of recent seal failures (R358 step 4). -/
  sealFails : List Nat
  /-- SCN at which events 0xA5, 0xA6, 0xAA and 0xAB were last raised (R377). -/
  told : Tab Nat
  /-- Highest full SEQ taken in this epoch (step 9), and the two telegrams as listed at the last freeze of phase 1,000 (R94). -/
  top : Option Nat
  fNew : Option Held
  fPrev : Option Held
  /-- Counts of closed epochs (R373: the registers count all epochs). -/
  fmtOld : Nat
  sealfOld : Nat
  epmisOld : Nat
  dupOld : Nat
  lateOld : Nat
  missOld : Nat
  deriving DecidableEq, Repr

def BtnLane.fresh : BtnLane :=
  { epoch := 0, fmt := 0, sealf := 0, epmis := 0, dup := 0, late := 0, recv := 0, low := none, high := none, counted := [],
    diverged := [], newest := none, prev := none, sealFails := [], told := [], top := none, fNew := none, fPrev := none, fmtOld := 0, sealfOld := 0,
    epmisOld := 0, dupOld := 0, lateOld := 0, missOld := 0 }

/-- What one run of a lane holds. -/
structure Lane where
  nv : LaneNv
  /-- Its own regulator supplies it (R37). -/
  supplied : Bool
  /-- Passed BIST and not held out at the last START (R111, R129). -/
  usable : Bool
  /-- BIST signature judged correct by two lanes at the last START. -/
  heldOut : Bool
  /-- Excluded since the last restart (R108). -/
  excluded : Bool
  /-- Stopped under R84 or R143, with the cause of R119; 0 while it runs. -/
  stopped : Nat
  /-- In HALT alone (R106). -/
  halted : Bool
  /-- All its switches are open and kept open (R35, R108). -/
  opened : Bool
  /-- Pairs, named by their link, in which it holds its own switches open: those shared with an excluded lane (R23, R108). -/
  openPairs : List Link
  /-- Its key store is locked against sealing (R84). -/
  keyLocked : Bool
  /-- The comparator's test routing is active (R87, R88), and the test latch. -/
  testRoute : Bool
  testLatch : Bool
  /-- Operating time of the last comparator proof, and of the last proof of hurdle items 0-7 (R89, R143). -/
  proofAt : Nat
  itemAt : List Nat
  /-- Next item of the rotation. -/
  itemNext : Nat
  /-- Consecutive abandonments (R144, R145). -/
  abandoned : Nat
  /-- Station time in ns, and the correction still to be slewed (R60). -/
  time : Nat
  corr : Int
  /-- Frequency correction in force, in ppb: the opposite of the oscillator offset learned (R60, R63, R68). -/
  freq : Int
  /-- Its offset from its reference as measured, in ns (PCROFn). -/
  offset : Int
  /-- DRIFTLIM (R69). -/
  driftLim : Bool
  driftEol : Bool
  /-- Missed liveness exchanges, and front end declared lost (R21). -/
  feMiss : Nat
  feLost : Bool
  /-- Its voting set. -/
  vset : PerLane Bool
  /-- Largest difference of station time seen in this cycle's frames from each lane, ns (R66). -/
  tdiff : PerLane Nat
  /-- Frames held of this cycle: local freeze, remote freeze, offers, verdicts, confirmations, lane faults. -/
  localRx : PerLane (Option LocalPayload)
  remoteRx : PerLane (Option RemotePayload)
  offerRx : PerLane (Option HeldOffer)
  verdictRx : PerLane (Option Verdict)
  confirmRx : PerLane (Option Confirm)
  faultRx : PerLane (Option Nat)
  /-- The last frame of each TYPE this lane sent, as bytes (R101, R102). -/
  sent : Tab (List Byte)
  /-- Connections on which its own choice of this freeze is not the agreed one: the SEQ chosen and 1, 0 for none (R96). -/
  ownChoice : Tab Nat
  /-- Its own latest pulsed sample: 104 states, and the lowest group voltages since the previous freeze (R254, R271). -/
  sample : List (BitVec 2)
  volts : List Nat
  /-- The agreed station 0 image and group voltages as this lane formed them (R93). -/
  image : List (BitVec 2)
  gvolt : List Nat
  /-- Consecutive freezes at which this lane's agreed reading of each group was below 16.8 V (R93, R273). -/
  gLow : List Nat
  /-- Its own offer of this cycle, and the set it sent in its confirmation. -/
  ownOffer : Option Offer
  ownSet : PerLane Bool
  ownHalt : Bool
  /-- The retain record of the last vote in which the lane was in the final voting set (R134), not yet written. -/
  voted : Option Retain
  /-- Its offer left after 14,500 (R107 event 0x2B). -/
  late : Bool
  /-- The cause the photo finish is to exclude it with, found outside the votes: 12 time, 13 drift (R66, R69). -/
  exclCause : Nat
  /-- Current clock step code, canary margin in percent, consecutive low readings, end of life, a lowering due. -/
  step : Nat
  margin : Nat
  lowReads : Nat
  eol : Bool
  lowerDue : Bool
  /-- Mesh loop intact; key store environment in range (R573). -/
  mesh : Bool
  envOk : Bool
  /-- PC0-PC31, and the counts latched at a roll call (R486, R492). -/
  pcs : Tab (BitVec 48)
  pcLatch : Tab (BitVec 48)
  latchTime : Nat
  /-- Its view of every connection towards the ZL3, by connection number. -/
  btn : Tab BtnLane
  /-- Sum of MISS over all connections as computed at the last freeze, DIVIN, and the SCN 0xA7 was last raised. -/
  missAll : Nat
  divIn : Nat
  foreignAt : Option Nat
  /-- Highest submission index held per SQ, as the number of entries (R95). -/
  subIdx : Tab W32
  /-- Highest alarm level it has acted on since the restart (R565). -/
  alarmLevel : Nat
  /-- Its check-value units 0 to 3 (R499-R502). -/
  cvu : Tab CvUnit
  deriving DecidableEq, Repr

/-- An empty settings area. -/
def SetArea.fresh : SetArea := { stored := none, version := 0 }

def ExclRec.fresh : ExclRec := { entries := [] }

/-- A program bank; `use` says whether the bank is usable. -/
def ProgBank.fresh (use : Bool) (fw build : W32) : ProgBank :=
  { fwVersion := fw, fw := [], sver := 0, smin := 0, appBuild := build, payload := [], usable := use }

def KeyStore.fresh : KeyStore :=
  { identity := true, transport := true, ivk := [true, true, true, true], owner := none, position := none, channel := [],
    lifecycle := .blank, counter := 0, floors := [], fused := false, next := [] }

/-- A lane as manufactured: bank 0 holds an image, bank 1 is empty, lifecycle BLANK. -/
def LaneNv.fresh (fw build : W32) : LaneNv :=
  { retain := none, timeRec := none, area0 := SetArea.fresh, area1 := SetArea.fresh, bank0 := ProgBank.fresh true fw build,
    bank1 := ProgBank.fresh false 0 0, excl := PerLane.all ExclRec.fresh, keys := KeyStore.fresh, kept := [], dropped := 0,
    feLossSeen := false, drift := 0, loads := [], rebinds := [], days := 0, plan := 0, flashOk := true, allan := 0 }

/-- A lane that has not started: everything volatile at its beginning. -/
def Lane.fresh (nv : LaneNv) : Lane :=
  { nv := nv, supplied := true, usable := false, heldOut := false, excluded := false, stopped := 0, halted := false,
    opened := true, openPairs := [], keyLocked := false, testRoute := false, testLatch := false, proofAt := 0, itemAt := List.replicate 8 0,
    itemNext := 0, abandoned := 0, time := 0, corr := 0, freq := 0, offset := 0, driftLim := false, driftEol := false, feMiss := 0,
    feLost := false, vset := PerLane.all false, tdiff := PerLane.all 0, localRx := PerLane.all none,
    remoteRx := PerLane.all none, offerRx := PerLane.all none, verdictRx := PerLane.all none, confirmRx := PerLane.all none,
    faultRx := PerLane.all none, sent := [], ownChoice := [], sample := List.replicate 104 3, volts := [], image := List.replicate 104 3, gvolt := [0, 0, 0, 0], gLow := [0, 0, 0, 0],
    ownOffer := none, ownSet := PerLane.all false, ownHalt := false, voted := none, late := false, exclCause := 0, step := 0, margin := 0,
    lowReads := 0, eol := false, lowerDue := false, mesh := false, envOk := false, pcs := [], pcLatch := [],
    latchTime := 0, btn := [], missAll := 0, divIn := 0, foreignAt := none, subIdx := [], alarmLevel := 0, cvu := [] }

end Sys2Proof.Machine
end

