-- ==== Sys2Proof/Machine/Parts/Logic.lean ====
section
/-! DEFINITION. The state of logic execution (R160-R204) and of the route engine (R206-R244). -/

namespace Sys2Proof.Machine

/-- A register of the JIC machine: 64 bits and a type tag (R170). -/
structure Reg where
  ty : Ty
  val : BitVec 64
  deriving DecidableEq, Repr, Inhabited

/-- A register of tag none. -/
def Reg.empty : Reg := { ty := .none, val := 0 }

/-- An open loop (R608). -/
structure LoopFrame where
  start : Nat
  fin : Nat
  count : Nat
  deriving DecidableEq, Repr

/-- An open call: return address and how many loops were open at the CALL (R608). -/
structure CallFrame where
  ret : Nat
  depth : Nat
  deriving DecidableEq, Repr

/-- What IN and INQ return for an input object: type, value in register form, quality bits (R174). -/
structure InVal where
  ty : Ty
  val : BitVec 64
  quality : Nat
  deriving DecidableEq, Repr

/-- A host command given to an event task (R182). -/
structure TaskCmd where
  sub : Accepted
  /-- The ten words of data. -/
  words : List W32
  fetched : Bool
  done : Bool
  deriving DecidableEq, Repr

/-- A task control block (R170). -/
structure Tcb where
  /-- A heat is in progress (running, pre-empted or between slices). -/
  active : Bool
  pc : Nat
  regs : Vector Reg 64
  calls : List CallFrame
  loops : List LoopFrame
  instrs : Nat
  /-- Instructions left in this slice (slow tasks). -/
  sliceLeft : Nat
  relScn : Nat
  relBcn : Nat
  /-- Nominal time of the heat in ns (R91). -/
  nominal : Nat
  /-- Triggers coalesced into this heat, and triggers held for the next release (R181). -/
  trig : Nat
  trigWait : Nat
  cmds : List TaskCmd
  cmdsWait : List TaskCmd
  /-- Commands accepted in station cycle `cmdScn` (R182). -/
  cmdScn : Nat
  cmdN : Nat
  /-- SYS item 1 of the first heat; 0 later. -/
  startKind : Nat
  heats : W32
  parked : Bool
  /-- Completed since the previous snapshot (R168). -/
  fresh : Bool
  /-- ENXT's cursor (R224). -/
  cursor : Nat
  /-- Copy of the input objects taken at release, for a slow task (R176), by object reference. -/
  inCopy : Tab InVal
  /-- SCN + 1 of the release cycle whose release a protected hurdle deferred to the next one (R145). -/
  deferAt : Nat
  deriving DecidableEq, Repr

def Tcb.empty : Tcb :=
  { active := false, pc := 0, regs := Vector.replicate 64 Reg.empty, calls := [], loops := [], instrs := 0, sliceLeft := 0, relScn := 0,
    relBcn := 0, nominal := 0, trig := 0, trigWait := 0, cmds := [], cmdsWait := [], cmdScn := 0, cmdN := 0, startKind := 0,
    heats := 0, parked := false, fresh := false, cursor := 0, inCopy := [], deferAt := 0 }

/-- Logic execution. -/
structure Logic where
  app : AppImage
  tcbs : Tab Tcb
  /-- The task whose heat runs now, and the heats it pre-empted, innermost first (R178). -/
  running : Option Nat
  stack : List Nat
  insts : Tab InstState
  /-- Fault of the most recently parked task (R201). -/
  fault : Nat
  ftask : Nat
  /-- Window margins of the last 1,000 station cycles in µs, newest first (R202). -/
  mainMar : List Nat
  slkMar : List Nat
  /-- What the lanes that agree offered at the last snapshot (R97, R102). -/
  digests : Option Offer
  /-- On-line change (R203, R204): state, abort, SCN, count, transfer counts. -/
  olcState : Nat
  olcAbt : Nat
  olcScn : Nat
  olcCount : Nat
  fdrop : Nat
  tchg : Nat
  slowab : Nat
  /-- The new application built at phase 16,000 of the cycle before, to apply at phase 0 (R196). -/
  olcNew : Option AppImage
  /-- SCN of the last change applied since the last start (R199). -/
  olcAt : Option Nat
  /-- A heat of the main window, and a heat or slice of the slack window, has run in this SCN, as SCN + 1 (R202). -/
  ranMain : Nat
  ranSlack : Nat
  /-- Agreed input values of the previous cycle, per triggering object (R181). -/
  prevIn : Tab W64
  /-- The snapshot of this SCN has been taken (R97), as SCN + 1; the late marks of lanes stand in `Lane`. -/
  snapScn : Nat
  /-- Output telegram DATA by connection, formed at the snapshot (R169), and drive image. -/
  drive : BitVec 64
  deriving DecidableEq, Repr

def Logic.fresh (app : AppImage) : Logic :=
  { app := app, tcbs := [], running := none, stack := [], insts := [], fault := 0, ftask := 0, mainMar := [], slkMar := [], digests := none,
    olcState := 0, olcAbt := 0, olcScn := 0, olcCount := 0, fdrop := 0, tchg := 0, slowab := 0, olcNew := none, olcAt := none, ranMain := 0, ranSlack := 0, prevIn := [],
    snapScn := 0, drive := 0 }

/-- A pending request (R218). -/
structure PendReq where
  tag : W32
  prio : Nat
  blk : Nat
  arrival : Nat
  sub : Accepted
  deriving DecidableEq, Repr

/-- A candidate of the pass (R221). -/
structure Cand where
  route : Nat
  mask : Nat
  proposed : Nat
  /-- Chosen flank entries, bit j for entry j. -/
  flank : BitVec 48
  /-- Committed or withdrawn: no longer a current candidate. -/
  gone : Bool
  /-- Committed, which clears its marks (R225). -/
  committed : Bool
  deriving DecidableEq, Repr

/-- The route engine's dynamic state (R214). -/
structure Engine where
  locked : BitVec 4096
  /-- Element lock words (R216) by position in the element lock table (R214). -/
  elems : Tab W32
  routes : Tab RouteSt
  pend : Tab PendReq
  cands : List Cand
  /-- The set of UNKNOWN routes at the last pass (R232). -/
  unkLast : BitVec 4096
  /-- Published view (R226): element words, per route STATE, OVL, LTAG, and the pending requests. -/
  pubElems : Tab W32
  pubRoutes : Tab RouteSt
  pubPend : Tab PendReq
  /-- Durations of the last 1,000 passes, newest first, in units of 100 ns (R242). -/
  pdurs : List Nat
  stale : Nat
  relref : Nat
  expired : Nat
  /-- The pass of this SCN (SCN + 1) has ended, and it was late (R245). -/
  passScn : Nat
  lateTold : Nat
  ncand : Nat
  npend : Nat
  deriving DecidableEq, Repr

def Engine.fresh : Engine :=
  { locked := 0, elems := [], routes := [], pend := [], cands := [], unkLast := 0, pubElems := [], pubRoutes := [],
    pubPend := [], pdurs := [], stale := 0, relref := 0, expired := 0, passScn := 0, lateTold := 0, ncand := 0,
    npend := 0 }

/-- One drive channel (R260-R266). -/
structure Drive where
  /-- Commanded on by the applied local drive image. -/
  on : Bool
  overload : Bool
  overtemp : Bool
  proof : Bool
  feedback : Bool
  openWire : Bool
  pulseMissing : Bool
  foreign : Bool
  foreignK : Nat
  /-- Consecutive records on with a mean current below the threshold; consecutive own pulses missing. -/
  lowN : Nat
  missN : Nat
  /-- Qualifying records and sum of their currents, for learning (R265). -/
  learnN : Nat
  learnSum : Nat
  /-- SCN at which the drive changed (R278). -/
  changedAt : Nat
  /-- Bits [4], [5] of CHAN in the latest agreed record. -/
  feed : Bool
  /-- Ageing: switches of this channel whose on-voltage was reported (R593). -/
  onvTold : BitVec 6
  /-- The test part's protective switch-off has acted (R264). -/
  tripped : Bool
  /-- SCN of the last off-pulse, and which set opened. -/
  pulsedAt : Option Nat
  lowSide : Bool
  /-- What the test part has observed for the next diagnostic record, in the bits of CHAN (R251). -/
  obs : BitVec 16
  /-- The same for a slot that ends after phase 600: what it showed is for the record of the next cycle (R251, R260). -/
  late : BitVec 16
  /-- External feed was confirmed by samples of this record period (R251, R267). -/
  confirmed : Bool
  /-- A feedback open with the drive off has been reported (R278). -/
  notDropped : Bool
  /-- Station time at which every switch of the channel opened; consecutive samples at 8 V or more counted from 5 ms after it; the last
  sample was at 8 V or more (R267). -/
  offAt : Nat
  highN : Nat
  high : Bool
  deriving DecidableEq, Repr

def Drive.fresh : Drive :=
  { on := false, overload := false, overtemp := false, proof := false, feedback := false, openWire := false, pulseMissing := false,
    foreign := false, foreignK := 0, lowN := 0, missN := 0, learnN := 0, learnSum := 0, changedAt := 0, feed := false, onvTold := 0,
    tripped := false, pulsedAt := none, lowSide := false, obs := 0, late := 0, confirmed := false, notDropped := false, offAt := 0, highN := 0, high := false }

/-- One field group (R271-R276, R287). -/
structure Group where
  volt : Nat
  cur : Nat
  /-- Isolator commanded open, and its mirror. -/
  isoOpen : Bool
  mirror : Bool
  /-- The isolator has been closed since START completed, or a clear of R269 lets it close (R248, R269); its contacts read closed at
  START step 7 although it is commanded open (R133). -/
  released : Bool
  stuck : Bool
  ext : Bool
  sag : Bool
  /-- Consecutive freezes below 16.8 V; at or above 19.2 V; freezes since the last reading below 19.2 V. -/
  lowN : Nat
  highN : Nat
  grp : Nat
  /-- Event 0x60 / 0x61 state: in GRP 1; below 16.8 V. -/
  below : Bool
  extSrc : Nat
  hiCur : Nat
  hiCurLow : Nat
  hiCurTold : Bool
  /-- Reading above 31.0 V reported, and consecutive freezes at or below 30.0 V (R586). -/
  ovTold : Bool
  ovClear : Nat
  /-- SCN of the freeze at which the reading came back to 16.8 V (R278). -/
  backAt : Nat
  deriving DecidableEq, Repr

def Group.fresh : Group :=
  { volt := 0, cur := 0, isoOpen := true, mirror := true, released := false, stuck := false, ext := false, sag := false, lowN := 0, highN := 50, grp := 0, below := false,
    extSrc := 0xFF, hiCur := 0, hiCurLow := 0, hiCurTold := false, ovTold := false, ovClear := 0, backAt := 0 }

/-- Field I/O as the lanes agree on it. -/
structure Fio where
  drives : Tab Drive
  groups : List Group
  /-- The newest record each lane holds, and the one before it (R94, R251). -/
  recLanes : PerLane (Option DiagRec)
  recPrev : PerLane (Option DiagRec)
  agreed : Option DiagRec
  age : Nat
  iocl : Bool
  /-- Minority: consecutive freezes of difference and of agreement, and reported, by lane × 128 + channel (R258). -/
  minN : Tab Nat
  minOk : Tab Nat
  minTold : Tab Bool
  mtot : Nat
  mchn : Nat
  mlane : Nat
  /-- The agreed station 0 image, and the SCN + 1 of its freeze. -/
  image : List (BitVec 2)
  imageAt : Nat
  /-- Local drive image applied at the last phase 16,000. -/
  applied : BitVec 64
  /-- Pulse-mode wires as last seen (R281), by SWI number, and 0x71 raised. -/
  wires : Tab WireObs
  wirePrev : Tab WireObs
  /-- Pulse-mode wires as decoded at the last freeze, and those found without a valid fall (R281). -/
  wireSt : Tab (BitVec 2)
  wireBad : Nat
  swiBad : Nat
  deriving DecidableEq, Repr

def Fio.fresh : Fio :=
  { drives := [], groups := List.replicate 4 Group.fresh, recLanes := PerLane.all none, recPrev := PerLane.all none, agreed := none, age := 0,
    iocl := false, minN := [], minOk := [], minTold := [], mtot := 0, mchn := 0, mlane := 0, image := List.replicate 104 3, imageAt := 0, applied := 0,
    wires := [], wirePrev := [], wireSt := [], wireBad := 0, swiBad := 0 }

/-- Baton at module level: agreed choices and connection states (R360-R362). -/
structure ConnSt where
  /-- CONN of R362; 2 before anything is chosen. -/
  state : Nat
  chosen : Option Held
  /-- The chosen telegram shows RESTR. -/
  restr : Bool
  ever : Bool
  /-- Output connections: SCN of the last epoch raise (R356), first telegram flag (R346). -/
  raisedAt : Option Nat
  sentAny : Bool
  deriving DecidableEq, Repr

def ConnSt.fresh : ConnSt :=
  { state := 2, chosen := none, restr := false, ever := false, raisedAt := none, sentAny := false }

/-- An output telegram as the front end holds it after sealing (R113): body and two seals with positions. -/
structure OutTel where
  seq : Nat
  body : List Byte
  /-- Whole telegram with SPOS and seals; empty when no two positions matched. -/
  tel : List Byte
  deriving DecidableEq, Repr, Inhabited

structure Baton where
  conns : Tab ConnSt
  /-- Bodies formed at the snapshot, by connection. -/
  bodies : Tab (List Byte)
  /-- Telegrams the front end holds to send, by connection; cleared on HALT (R36, R327). -/
  outTel : Tab OutTel
  /-- Those sealed a station cycle earlier: what leaves in the cycle after their sealing (R31, R307). -/
  outPrev : Tab OutTel
  unsent : Nat
  /-- Connections towards the ZL3 with CONN 2 at the last freeze (R374). -/
  nexp : Nat
  divOut : Nat
  epochChg : Nat
  /-- Seals given by each lane in this cycle, by connection. -/
  seals : PerLane (Tab W64)
  /-- Own forwarded flags: FORCED in the current bodies. -/
  forced : Tab Bool
  deriving DecidableEq, Repr

def Baton.fresh : Baton :=
  { conns := [], bodies := [], outTel := [], outPrev := [], unsent := 0, nexp := 0, divOut := 0, epochChg := 0, seals := PerLane.all [], forced := [] }

end Sys2Proof.Machine
end

