-- ==== Sys2Proof/Machine/Parts/Modes.lean ====
section
/-! DEFINITION. Modes and start-up (R122-R158), power and ageing (R582-R604), update (R524-R551), security (R554-R573) and the
pair (R455-R483). -/

namespace Sys2Proof.Machine

/-- A force (R148, R150): a variable or an input object. -/
structure Force where
  /-- `true`: an input object; `false`: a variable. -/
  isObj : Bool
  /-- VID, or object reference. -/
  ref : Nat
  tag : Nat
  val : BitVec 64
  area : Nat
  deriving DecidableEq, Repr

/-- A transition trigger accepted at the freeze of this station cycle and not yet told (R123, R124). -/
structure Trig where
  sub : Accepted
  /-- Event that tells it: 0x10, 0x11, or 0 for none; and its area. -/
  code : Nat
  area : Nat
  deriving DecidableEq, Repr

/-- Mode state (R152-R158). -/
structure Modes where
  mode : Mode
  hcause : Nat
  /-- START step, 0 outside START. -/
  step : Nat
  /-- The restart decided at step 5 was warm (R133); retain age (in 100 ms), cause of a cold restart and lanes of equal records (R152). -/
  warm : Bool
  retage : Nat
  coldwhy : Nat
  reteq : Nat
  /-- Blocks unusable after the last BIST (R156). -/
  bist : Nat
  /-- Field channel couplers unusable at BIST (R130), by channel index. -/
  couplers : List Nat
  /-- The mode produced by accepted transition submissions, taken at the next phase 0 (R123). -/
  pendMode : Option Mode
  /-- Transition triggers accepted in this station cycle, not yet told: the submission, its event code (0 none) and its area; and the
  possession state before them (R123, R124). -/
  trigs : List Trig
  areasWas : BitVec 64
  /-- Operating time of HALT entry (R127), and whether 0x07 has been raised. -/
  haltAt : Nat
  arTold : Bool
  /-- Submissions accepted before HALT and left without a completion (R45). -/
  haltOpen : Nat
  /-- The last HALT was caused by the photo finish (R118). -/
  haltv : Bool
  splits : Nat
  /-- Hurdle counts since start (R157). -/
  abtot : Nat
  deferN : Nat
  /-- SCN + 1 of the last station cycle whose hurdle was abandoned (R144, R196), was protected, and was protected while it tests the key
  store, which defers the verification of critical commands (R145). -/
  hurdleOff : Nat
  hurdleProt : Nat
  critDefer : Nat
  /-- Staff-protection switches passed, and reported overdue (R140, R141), by input channel. -/
  wuPass : List Nat
  wuOver : List Nat
  /-- Operating time at which step 4 began. -/
  step4At : Nat
  /-- Bank numbers the parts run on, and those that run on trial: bit 0 front end, 1 I/O controller, 2 program banks,
  3 network settings (R538). -/
  runBank : Nat
  /-- The restart the module came from last was an update restart (R537). -/
  updRestart : Bool
  trialBits : Nat
  /-- Operating time at which step 5 ended, at which step 8 began, and at which START completed. -/
  step5At : Option Nat
  step8At : Option Nat
  doneAt : Option Nat
  /-- Station time from which heats are released: the end of START (R128), or SHADOW's adoption (R194). -/
  serveAt : Nat
  /-- Station time at which START completed: hurdles begin in the cycle after (R89, R142). -/
  startedAt : Nat
  /-- Possessed areas and active forces. -/
  areas : BitVec 64
  forces : List Force
  /-- Lines of VOTSTS.LINES, the time each last delivered a valid frame, and links lost. -/
  lines : BitVec 6
  lineAt : Tab Nat
  /-- Operating time from which a lost line has delivered valid frames without a break (R100). -/
  lineSince : Tab Nat
  /-- Delay of the links AB, BC, CA in ns as measured at START (R66). -/
  linkDelay : List Nat
  /-- Station time when it was taken: no step of an earlier phase was due (R57, R72). -/
  firstAt : Nat
  /-- Which steps fired in which SCN: key step, value SCN + 1. -/
  fired : Tab Nat
  /-- Station time from which a step that is not of every cycle is owed (R72). -/
  owed : Tab Nat
  /-- The station time at which each lane fired the step being taken, by its own counter; `none` where it fires late (R71, R72). -/
  stepAt : Option Nat
  deriving DecidableEq, Repr

def Modes.fresh : Modes :=
  { mode := .start, hcause := 0, step := 0, warm := false, retage := 0, coldwhy := 0, reteq := 0, bist := 0, couplers := [],
    pendMode := none, trigs := [], areasWas := 0, haltAt := 0, arTold := false, haltOpen := 0, haltv := false, splits := 0, abtot := 0, deferN := 0,
    hurdleOff := 0, hurdleProt := 0, critDefer := 0, wuPass := [], wuOver := [], step4At := 0, runBank := 0, updRestart := false, trialBits := 0, step5At := none, step8At := none, doneAt := none, serveAt := 0, startedAt := 0,
    areas := 0, forces := [], lines := 0, lineAt := [], lineSince := [], linkDelay := [], firstAt := 0, fired := [], owed := [], stepAt := none }

/-- Power path and environment (R582-R584, R597, R601, R602). -/
structure Power where
  /-- Readings in mV. -/
  feed1 : Nat
  feed2 : Nat
  f1 : Bool
  f2 : Bool
  ov1 : Bool
  ov2 : Bool
  /-- 0 normal; 1 slowed; 2 stopped. -/
  pace : Nat
  vin : Nat
  temp : Int
  tempTold : Bool
  capUf : Nat
  heol : Bool
  /-- Hold-up charge in percent (R549). -/
  charge : Nat
  /-- Wear in percent of lane A, B, C and front-end flash (R604), and the last band reported of each. -/
  wear : List Nat
  band : List Nat
  /-- Day of operating time of the last event 0x38 of each (R592). -/
  wearDay : List Nat
  /-- Operating time (ns) at which the blocks of each were last moved (R592). -/
  movedAt : List Nat
  deriving DecidableEq, Repr

def Power.fresh : Power :=
  { feed1 := 0, feed2 := 0, f1 := false, f2 := false, ov1 := false, ov2 := false, pace := 0, vin := 0, temp := 0,
    tempTold := false, capUf := 0, heol := false, charge := 0, wear := [0, 0, 0, 0], band := [0, 0, 0, 0], wearDay := [0, 0, 0, 0], movedAt := [0, 0, 0, 0] }

/-- A bank of a part other than the lanes (R524): its version, payload and whether it is usable. -/
structure PartBank where
  version : W32
  sver : Nat
  smin : Nat
  payload : List Byte
  usable : Bool
  deriving DecidableEq, Repr

def PartBank.fresh (use : Bool) (v : W32) : PartBank := { version := v, sver := 0, smin := 0, payload := [], usable := use }

/-- A parsed image header (R527). -/
structure ImgHeader where
  kind : Nat
  hfl : Nat
  version : W32
  sver : Nat
  smin : Nat
  plen : Nat
  pdig : List Byte
  ockind : Nat
  /-- COMP entries: kind, lowest, highest VERSION. -/
  comp : List (Nat × Nat × Nat)
  decl : List Byte
  /-- The 4,096 bytes of the header (R543). -/
  raw : List Byte
  deriving DecidableEq, Repr

/-- The non-volatile state of banks and activation (R524-R551). -/
structure Banks where
  fe0 : PartBank
  fe1 : PartBank
  io0 : PartBank
  io1 : PartBank
  ns0 : PartBank
  ns1 : PartBank
  /-- Active bank numbers, NEXT, FAIL and trial-used flags of UPDBANK: bit 0 front end, 1 I/O controller, 2 program
  banks, 3 network settings. -/
  act : Nat
  next : Nat
  fail : Nat
  used : Nat
  /-- COMP entries of the running images by kind (R531). -/
  comps : List (Nat × List (Nat × Nat × Nat))
  /-- Station, VERSION and COMP entries of the object-controller images committed (R531). -/
  ocComps : List (Nat × W32 × List (Nat × Nat × Nat))
  /-- Images verified in the inactive banks, by kind (R530, R550). -/
  verified : List (Nat × ImgHeader)
  /-- VERSION last committed by kind (R546). -/
  committed : Tab W32
  /-- The front end's settings area of each bank (R540). -/
  feSet0 : Nat
  feSet1 : Nat
  deriving DecidableEq, Repr

/-- An update session (R533-R537). -/
structure Session where
  num : Nat
  src : SubSrc
  kind : Nat
  station : Nat
  lastAt : Nat
  header : Option ImgHeader
  /-- The payload as sent, and as each lane has it in its inactive bank (R530). -/
  payload : List Byte
  held : PerLane (List Byte)
  verified : Bool
  deriving DecidableEq, Repr

/-- A scheduled activation (R537). -/
structure Activation where
  scn : Nat
  online : Bool
  kinds : List Nat
  /-- NEXT has been set at phase 16,000 of S − 1. -/
  prepared : Bool
  hdr : ImgHeader
  deriving DecidableEq, Repr

/-- Object-controller transfer (R543, R544, R551). -/
structure OcXfer where
  station : Nat
  /-- 0 idle; 1 pass 1; 2 pass 2; 3 awaiting re-entry. -/
  state : Nat
  block : Nat
  image : List Byte
  version : W32
  session : Nat
  actScn : Nat
  pdig : List Byte
  /-- COMP entries of the image (R531). -/
  comp : List (Nat × Nat × Nat)
  /-- The conditions were found good at phase 16,000 of S − 1 (R535). -/
  prepared : Bool
  /-- The block sent last, bytes 160 on of the entry frame (R543). -/
  out : List Byte
  deriving DecidableEq, Repr

/-- The volatile update state. -/
structure Update where
  session : Option Session
  nextNum : Nat
  lref : Nat
  ldet : Nat
  act : Option Activation
  actScn : Nat
  result : Nat
  reason : Nat
  resKind : Nat
  flane : Nat
  oc : OcXfer
  deriving DecidableEq, Repr

def OcXfer.fresh : OcXfer :=
  { station := 0, state := 0, block := 0, image := [], version := 0, session := 0, actScn := 0, pdig := [], comp := [],
    prepared := false, out := [] }

def Update.fresh : Update :=
  { session := none, nextNum := 1, lref := 0, ldet := 0, act := none, actScn := 0, result := 0, reason := 0,
    resKind := 0, flane := 0, oc := OcXfer.fresh }

def Banks.fresh (fe io : W32) : Banks :=
  { fe0 := PartBank.fresh true fe, fe1 := PartBank.fresh false 0, io0 := PartBank.fresh true io, io1 := PartBank.fresh false 0,
    ns0 := PartBank.fresh true 0, ns1 := PartBank.fresh false 0, act := 0, next := 0, fail := 0, used := 0, comps := [], ocComps := [],
    verified := [], committed := [], feSet0 := 0, feSet1 := 0 }

/-- The non-volatile security state that is the module's own (R564-R572). -/
structure SecNv where
  /-- Levels of triggers 0-12. -/
  levels : List Nat
  authn : Nat
  olock : Bool
  /-- Pending alarm level: 0, 2 or 3. -/
  pend : Nat
  ltrig : Nat
  llvl : Nat
  count : Nat
  nid : Nat
  identity : W64
  /-- The front end's test and debug ports are fused off (R555). -/
  feFused : Bool
  deriving DecidableEq, Repr

def SecNv.fresh (ident : W64) : SecNv :=
  { levels := [3, 3, 3, 2, 1, 2, 2, 1, 1, 1, 1, 2, 4], authn := 5, olock := false, pend := 0, ltrig := 0, llvl := 0, count := 0,
    nid := 0, identity := ident, feFused := false }

/-- The service port (R560-R563). -/
structure SecVol where
  lc : Lifecycle
  authf : Nat
  /-- Operating time until which the port refuses connections. -/
  backoffTo : Option Nat
  sess : Option CertRole
  sessLane : Option LaneId
  subject : W64
  sealOk : Bool
  /-- Triggers seen in this cycle and not yet effective: 3-11 (R565). -/
  seen : List Nat
  deriving DecidableEq, Repr

def SecVol.fresh : SecVol :=
  { lc := .blank, authf := 0, backoffTo := none, sess := none, sessLane := none, subject := 0, sealOk := false, seen := [] }

/-- The pair (R455-R484). -/
structure Pair where
  /-- 0 single; 1 LEAD; 2 SHADOW; 3 searching (R482). -/
  role : Nat
  /-- The provisioned partner has been heard and meets R455; it was refused. -/
  found : Bool
  refused : Bool
  /-- The partner's last hello: mode code, voting set, role, rank, its outgoing and in-step flags. -/
  pmode : Nat
  pvset : Nat
  prole : Nat
  prank : Nat
  pOutgoing : Bool
  pInStep : Bool
  /-- It asks for state (R462). -/
  pWants : Bool
  /-- The agreed SWI6 and SWI7 it reports (R457), and the operating time at which it was heard last (R460). -/
  pSwi6 : Bool
  pSwi7 : Bool
  heardAt : Option Nat
  /-- Lines of the partner link that deliver, and the operating time each last delivered a valid frame (R456). -/
  lines : BitVec 2
  lineAt : Tab Nat
  /-- A lost line that delivers valid frames again: since when, without a gap (R100, R456). -/
  lineSince : Tab Nat
  linkLost : Bool
  /-- The last pair check was equal (R469, R482). -/
  instep : Bool
  /-- Consecutive station cycles in step (R484). -/
  stepCyc : Nat
  xwf : Bool
  dual : Bool
  /-- A changeover accepted at the freeze of SCN `chgScn` is in progress, and its change of roles still to come (R472). -/
  chgo : Bool
  chgDue : Bool
  chgScn : Nat
  outgoing : Bool
  /-- A first join or a re-join is in progress: SCN J of the transfer, chunks held, LEAD's state adopted (R462). -/
  joining : Bool
  joinScn : Nat
  chunks : Tab (List Byte)
  /-- Digests and seals of the last chunk, once it has arrived. -/
  tail : Option StateTail
  adopted : Bool
  /-- SHADOW's acknowledged submission index per SQ, and the SCN of the acknowledgement (R466). -/
  acks : Tab W32
  ackScn : Option Nat
  noAckTold : Bool
  /-- What SHADOW's lanes held of LEAD's rings at phase 15,000 of a cycle, kept when an entry arrives after it (R466). -/
  held15 : Option (Nat × List Nat)
  /-- LEAD's image of this cycle as SHADOW holds it (R464), and LEAD's pair status (R469). -/
  image : Option PairImage
  status : Option PairStatusFrame
  /-- PRCNT (R483). -/
  changeovers : Nat
  takeovers : Nat
  rejoins : Nat
  withheld : Nat
  withhAt : Option Nat
  /-- Adopted completions written (R468). -/
  adoptN : W32
  /-- The row of R460 or R474 whose events have been raised. -/
  xwRow : Nat
  /-- The module restarted once on the partner's build (R542). -/
  buildTried : Bool
  /-- The frames sent last: hello, pair status, pair local image (R457). -/
  helloOut : Option Hello
  statusOut : Option PairStatusFrame
  imageOut : Option PairImage
  /-- The submissions LEAD forwarded of its last poll, in order (frame 0x03, R457, R466). -/
  subOut : List Submission
  /-- The admission LEAD sent last: channel, address, identity, slot phase (frame 0x07, R394, R457). -/
  admOut : Option (Nat × Nat × W64 × Nat)
  /-- The telegrams forwarded last, newest first (frame 0x02, R457, R463). -/
  telOut : List FifoItem
  /-- DIVOUT of the Baton registers at the last pair check: a telegram carrying DIV has been chosen since (R469). -/
  divSeen : Nat
  deriving DecidableEq, Repr

def Pair.fresh : Pair :=
  { role := 3, found := false, refused := false, pmode := 0, pvset := 0, prole := 0, prank := 0, pOutgoing := false,
    pInStep := false, pWants := false, pSwi6 := false, pSwi7 := false, heardAt := none, lines := 0, lineAt := [], lineSince := [], linkLost := true, instep := false, stepCyc := 0, xwf := false, dual := false,
    chgo := false, chgDue := false, chgScn := 0, outgoing := false, joining := false, joinScn := 0, chunks := [], tail := none, adopted := false, acks := [],
    ackScn := none, noAckTold := false, held15 := none, image := none, status := none, changeovers := 0, takeovers := 0, rejoins := 0, withheld := 0,
    withhAt := none, adoptN := 0, xwRow := 0, buildTried := false, helloOut := none, statusOut := none, imageOut := none, subOut := [], admOut := none, telOut := [], divSeen := 0 }

end Sys2Proof.Machine
end

