-- ==== Sys2Proof/Machine/Parts/Join.lean ====
section
/-! DEFINITION. The state that LEAD sends to a joining SHADOW (R462). -/

namespace Sys2Proof.Machine

/-- What the chunks of one transfer spell: the state published at the snapshot of a cycle J (R194, R462). -/
structure LeadState where
  /-- The current image, and the next-image bytes of the tasks not published. -/
  cur : Memory
  nxt : Memory
  /-- Engine dynamic state up to the route state table, and the pending request table (R214). -/
  locked : BitVec 4096
  elems : Tab W32
  routes : Tab RouteSt
  pend : Tab PendReq
  /-- Timers, counters, edge detectors, and task control blocks. -/
  insts : Tab InstState
  tcbs : Tab Tcb
  /-- Forces, possessions, and the critical pending table (R442). -/
  forces : List Force
  areas : BitVec 64
  crit : Tab CritPend
  /-- Epoch counts (R354), and the output connections on which a telegram has been sent (R346). -/
  rebinds : Tab Nat
  sent : List Nat
  deriving DecidableEq, Repr, Inhabited

/-- A transfer as LEAD sends it (R456, R457): the SCN J, the state, its chunks by their numbers, sent alternately on line 0 and line 1, and what
the last one carries beside its part. -/
structure StateOut where
  scn : Nat
  state : LeadState
  chunks : List (List Byte)
  tail : StateTail
  deriving DecidableEq, Repr

end Sys2Proof.Machine
end

