-- ==== Sys2Proof/Machine/Parts/Net.lean ====
section
/-! DEFINITION. The network settings image (R294, R298, R379) and the state of Stride (R292-R337) and CAN FD (R378-R408). -/

namespace Sys2Proof.Machine

/-- A station table entry (R294). -/
structure StationDesc where
  num : Nat
  seg : Nat
  pos : Nat
  identity : W64
  kind : Nat
  outLen : Nat
  inLen : Nat
  conns : Nat
  /-- Declared fibre of its link towards end a, in metres. -/
  fibre : Nat
  deriving DecidableEq, Repr, Inhabited

/-- A window of a schedule, as its word says (R298). -/
structure WindowDesc where
  seg : Nat
  bcn : Nat
  /-- 0 exclusive, 1 arbitrating, 2 entry. -/
  kind : Nat
  station : Nat
  off : Nat
  deriving DecidableEq, Repr, Inhabited

/-- A schedule (R298): its number, and the window words of each segment and each BCN. -/
structure SchedDesc where
  num : Nat
  words : List (List (List W32))
  deriving DecidableEq, Repr, Inhabited

/-- A node table entry (R379). -/
structure NodeDesc where
  chan : Nat
  addr : Nat
  identity : W64
  kind : Nat
  dlen0 : Nat
  dlen1 : Nat
  per : Nat
  ofs : Nat
  slot : Nat
  events : Nat
  deriving DecidableEq, Repr, Inhabited

/-- The network settings image. -/
structure NetImage where
  version : W32
  stations : List StationDesc
  /-- Schedules loaded, 0-7. -/
  scheds : List SchedDesc
  nodes : List NodeDesc
  /-- Declared fibre, in metres, of each segment's link to end b: the last of the n + 1 links of R295. -/
  endFibre : List Nat
  /-- CRC-64 of R98 over the image (R455). -/
  digest : W64
  deriving DecidableEq, Repr, Inhabited

def NetImage.empty : NetImage := { version := 0, stations := [], scheds := [], nodes := [], endFibre := [], digest := 0 }

/-- One admitted or entering station (R322, R323). -/
structure StationSt where
  adm : Bool
  /-- SCN from which it is admitted. -/
  admScn : Nat
  capDone : Bool
  /-- SCN of the last valid input part. -/
  seenScn : Nat
  identity : W64
  /-- Roll-call blocks it reports, and the SCN it was admitted before a roll call's announcement. -/
  blocks : Nat
  /-- It acknowledged the announced switch in its window of this SCN; admissions that ended, as the SCN from which it was admitted and the
  SCN in which admission was withdrawn, newest first (R329). -/
  ackScn : Option Nat
  spans : List (Nat × Nat)
  falseTold : Option Nat
  fw : Nat
  /-- Start of the last window sent to it (station time), and the output telegram it carried; empty for a null. -/
  sentAt : Option Nat
  sentTel : List Byte
  /-- STS of its last valid input part: it is restrictive, its false starts; the fields of its last diagnostic record (R306, R316). -/
  restrictive : Bool
  falseStarts : Nat
  diag : List Nat
  deriving DecidableEq, Repr

def StationSt.fresh : StationSt :=
  { adm := false, admScn := 0, capDone := false, seenScn := 0, identity := 0, blocks := 0, ackScn := none, spans := [],
    falseTold := none, fw := 0, sentAt := none, sentTel := [], restrictive := false, falseStarts := 0, diag := [] }

/-- What a ring end expects of its windows (R310, R321): from window starts `since` on, its own frame turned back (`looped`) or the other
end's; of earlier windows what it expected before, with the transit of then. -/
structure Expect where
  looped : Bool
  since : Nat
  wasLooped : Bool
  wasLt : Nat
  deriving DecidableEq, Repr, Inhabited

def Expect.fresh : Expect := { looped := false, since := 0, wasLooped := false, wasLt := 0 }

/-- One segment as this module serves it. -/
structure Segment where
  /-- 0 dark, 1 gun master, 2 far end, 3 listening (R333). -/
  role : Nat
  broken : Bool
  timing : Bool
  brkA : Nat
  brkB : Nat
  /-- Expected transit at each end in ns (R319, R336). -/
  ltA : Nat
  ltB : Nat
  /-- Whole-chain transit before a break. -/
  wholeA : Nat
  wholeB : Nat
  /-- What each end expects back, end a first (R310, R321). -/
  expects : List Expect
  nlost : Nat
  /-- The master's rank and mode as its last gun frame or hello told them: what a far-end copy repeats (R304). -/
  mstRank : Nat
  mstMode : Nat
  /-- Operating time since which no master has been heard; event 0x90 raised. -/
  darkAt : Nat
  darkTold : Bool
  /-- Silence after a yield ends at this operating time (R325). -/
  yieldTo : Option Nat
  /-- Evidence of the master: basic cycle number (SCN × 4 + BCN) of the last one (R304, R326). -/
  evidence : Option Nat
  /-- Link delay medians: last 8 values of end a and end b in ns, and the last medians. -/
  delaysA : List Nat
  delaysB : List Nat
  medA : Option Nat
  medB : Option Nat
  /-- Bid in progress: station and message granted next; acknowledged; lowest bid seen in this window. -/
  grant : Nat
  grantMid : Nat
  ackStn : Nat
  ackMid : Nat
  bid : W32
  /-- Windows sent, as the last frame of each kind: SCN × 4 + BCN of the last gun frame, bid and entry window. -/
  gunSent : Option Nat
  gunCopy : Bool
  bidSent : Nat
  entrySent : Nat
  /-- Stopped at the basic-cycle boundary after HALT (R327). -/
  stopped : Bool
  /-- Station time t1 of the last link delay requests; answers given and the turnaround of the last one (R319). -/
  measAt : Option Nat
  answers : Nat
  answerTurn : Nat
  /-- The granted station's message reached the end in this window (R313). -/
  gotMsg : Bool
  /-- SCN of the first matrix as master after a cold start (R301 MFL[3]). -/
  coldScn : Option Nat
  /-- D, the delay of the last gun frame from the other module's end, in ns (R302). -/
  gunDelay : Option Nat
  /-- The frame of each type last sent from each end: key 2 × type, plus 1 for end b (R296). -/
  out : Tab (List Byte)
  deriving DecidableEq, Repr

def Segment.fresh : Segment :=
  { role := 0, broken := false, timing := false, brkA := 0, brkB := 0, ltA := 0, ltB := 0, wholeA := 0, wholeB := 0,
    expects := [Expect.fresh, Expect.fresh], nlost := 0, darkAt := 0, mstRank := 0, mstMode := 0, darkTold := false, yieldTo := none, evidence := none, delaysA := [], delaysB := [], medA := none, medB := none, grant := 0,
    grantMid := 0, ackStn := 0, ackMid := 0, bid := 0xFFFFFFFF#32, gunSent := none, gunCopy := false, bidSent := 0, entrySent := 0,
    stopped := false, measAt := none, answers := 0, answerTurn := 0,
    gotMsg := false, coldScn := none, gunDelay := none, out := [] }

/-- The diagnostic record of a ring-end port: link delay median in ns; what its SFP module offers of SFF-8472 (R316, R580). -/
structure PortDiag where
  delay : Option Nat
  sff : List Byte
  deriving DecidableEq, Repr

/-- Stride. -/
structure Stride where
  strcfg : W32
  segs : List Segment
  stations : Tab StationSt
  sched : Nat
  /-- Announced switch (R328): schedule, SCN S, confirmed, and the submission to complete. -/
  swNext : Nat
  swScn : Nat
  /-- SCN from which gun frames announce it: the cycle after its acceptance. -/
  swFrom : Nat
  swPend : Bool
  swConf : Bool
  swSub : Option Accepted
  applied : Nat
  aband : Nat
  noack : Nat
  refusedN : Nat
  reason : Nat
  refStn : Nat
  fsend : Nat
  fcserr : Nat
  take : Nat
  yielded : Nat
  foreignN : Nat
  /-- Telegrams offered to the lane ports (latest per connection source), newest first. -/
  offered : List (List Byte)
  /-- Ports unusable or dark, by port 0-7 (R130, R292). -/
  darkPorts : Nat
  /-- Station time of the basic-cycle boundary after HALT entry, up to which the front end goes on sending (R36, R327). -/
  stopAt : Option Nat
  /-- Diagnostic records of the ports (R580). -/
  diag : Tab PortDiag
  deriving DecidableEq, Repr

def Stride.fresh (cfg : W32) : Stride :=
  { strcfg := cfg, segs := List.replicate 4 Segment.fresh, stations := [], sched := 0, swNext := 0, swScn := 0, swFrom := 0, swPend := false,
    swConf := false, swSub := none, applied := 0, aband := 0, noack := 0, refusedN := 0, reason := 0, refStn := 0, fsend := 0, fcserr := 0,
    take := 0, yielded := 0, foreignN := 0, offered := [], darkPorts := 0, stopAt := none, diag := [] }

/-- A host transmit entry (R397-R400). -/
structure HostTx where
  gen : Nat
  ident : Nat
  fd : Bool
  brs : Bool
  data : List Byte
  /-- Operating time at which its lifetime ends. -/
  deadline : Nat
  /-- 0 free; 1 queued; 2 started; 3 ended, completion not yet acknowledged. -/
  state : Nat
  sq : Nat
  tag : W32
  /-- Count of the CQ entry that carried its completion (R397), once written. -/
  cplAt : Option W32
  lastGen : Nat
  /-- Operating time (ns) of the poll that queued it (R400). -/
  queuedAt : Nat
  deriving DecidableEq, Repr

def HostTx.fresh : HostTx :=
  { queuedAt := 0, gen := 0, ident := 0, fd := false, brs := false, data := [], deadline := 0, state := 0, sq := 0, tag := 0, cplAt := none, lastGen := 0 }

/-- A vital transmit entry (R396). -/
structure VitalTx where
  num : Nat
  /-- Its identifier (R382). -/
  ident : Nat
  tel : List Byte
  scn : Nat
  started : Bool
  deriving DecidableEq, Repr

/-- A CAN FD node (R393, R394). -/
structure NodeSt where
  adm : Bool
  admScn : Nat
  identity : W64
  blocks : Nat
  abortTold : Option Nat
  /-- Identities that have answered for the address since start (R393). -/
  answered : List W64
  deriving DecidableEq, Repr

def NodeSt.fresh : NodeSt := { adm := false, admScn := 0, identity := 0, blocks := 0, abortTold := none, answered := [] }

/-- One channel. -/
structure CanChan where
  bt : W32
  dt : W32
  /-- Timing written and waiting for the next station cycle boundary (R380). -/
  btNext : Option W32
  dtNext : Option W32
  /-- SCN in which the waiting timing was accepted. -/
  timingAt : Nat
  state : Nat
  rec_ : Nat
  tec : Nat
  tdcv : Nat
  tdcMax : Nat
  boff : Nat
  abort_ : Nat
  vital : List VitalTx
  host : Tab HostTx
  /-- SCN of the last events 0xB6 and 0xB8. -/
  tdcTold : Option Nat
  rangeTold : Option Nat
  discarded : Nat
  /-- Frames counted as errors: protocol exceptions (R378). -/
  errors : Nat
  /-- Cancels refused for a generation that is not the buffer's (R400). -/
  cancelMiss : Nat
  /-- Station time at the start-of-frame of the last sync frame, and the frame (R388). -/
  syncSent : Option Nat
  syncOut : Option CanFrame
  /-- Operating time (ns) at which the channel entered bus integration, while it may still be in it (R378, R380). -/
  integ : Option Nat
  /-- Transmit entries ended as sent, cancelled and aborted, vital and host, since the Ledger began (R42). -/
  ends : W32 × W32 × W32
  /-- SCN of the last discovery request, and the frame (R393); the last admission frame (R394). -/
  discAt : Option Nat
  discOut : Option CanFrame
  admitOut : Option CanFrame
  deriving DecidableEq, Repr

def CanChan.fresh (bt dt : W32) : CanChan :=
  { bt := bt, dt := dt, btNext := none, dtNext := none, timingAt := 0, state := 3, rec_ := 0, tec := 0, tdcv := 0, tdcMax := 0, boff := 0, abort_ := 0,
    vital := [], host := [], tdcTold := none, rangeTold := none, discarded := 0, errors := 0, cancelMiss := 0, syncSent := none, syncOut := none,
    integ := none, ends := (0, 0, 0), discAt := none, discOut := none, admitOut := none }

/-- CAN FD. -/
structure Can where
  canctl : W32
  chans : List CanChan
  nodes : Tab NodeSt
  deriving DecidableEq, Repr

/-- Reset values of CANnBT and CANnDT (R405). -/
def canBtReset : W32 := pack [(0, 24, 8), (62, 16, 8), (15, 8, 8), (15, 0, 8)]
def canDtReset : W32 := pack [(1, 31, 1), (0, 24, 5), (6, 19, 5), (1, 15, 4), (1, 11, 4), (8, 0, 8)]
def canCtlReset : W32 := pack [(3, 8, 8), (15, 0, 4)]

/-- The front end's stored settings (R331, R337, R403): registers, and identities rebound by opcode 0x81. -/
structure FeSettings where
  strcfg : W32
  canctl : W32
  bts : List W32
  dts : List W32
  /-- Rebound identity of station n, and of CAN node NUM at 0x1000 + NUM. -/
  bound : Tab W64
  deriving DecidableEq, Repr

def FeSettings.initial : FeSettings :=
  { strcfg := pack [(3, 8, 8), (1, 1, 1)], canctl := canCtlReset, bts := List.replicate 4 canBtReset, dts := List.replicate 4 canDtReset,
    bound := [] }

def Can.fresh (f : FeSettings) : Can :=
  { canctl := f.canctl, chans := (f.bts.zip f.dts).map (fun p => CanChan.fresh p.1 p.2), nodes := [] }

end Sys2Proof.Machine
end

