-- ==== Sys2Proof/Config.lean ====
section
/-! DEFINITION. What an implementation fixes and the manual leaves open, as constants without a body: nothing can be proved of
their values, so a statement that mentions one holds whatever it is. Each is named in a log entry. -/

namespace Sys2Proof.Config

/-- Front-end firmware version of the cassette as delivered (R416: FEMAJ and FEMIN have no stated value). -/
opaque feVersion : W32
/-- I/O controller and lane firmware versions as delivered. -/
opaque ioVersion : W32
opaque laneVersion : W32
/-- The variant is the ZL3-4096-C (R416: VARIANT reads 0x41 or 0x43). -/
opaque variantC : Bool
/-- Address bits that the source address of a Stride frame takes from an identity, per port (R296). -/
opaque ringAddress : W64 → Nat → BitVec 48
/-- The module's 64-bit identity (R557). -/
opaque identity : W64
/-- ECDSA P-256 verification: under image verification key of a slot, of a message and a signature (R528). -/
opaque imageSigOk : Nat → List Byte → List Byte → Bool
/-- The certificate chain verifies up to the owner root key (R560, R562). -/
opaque chainOk : List Byte → List Byte → Bool
/-- A manufacturing certificate chains to an image verification key (R560). -/
opaque mfgChainOk : List Byte → Bool
/-- The owner certificate's signature over a command block verifies (R562). -/
opaque ownerSigOk : List Byte → List Byte → List Byte → Bool
/-- The application a program bank's payload spells: how a section encodes its entries is the Jeari suite's (R160). -/
opaque appOf : List Byte → Machine.AppImage
/-- The network settings a payload spells (R294, R379). -/
opaque netOf : List Byte → Machine.NetImage
/-- Byte layout of an item list of a digest: 0 engine, 1 control, 2 retain record, 4 pair state (R97, R134). -/
opaque layoutBytes : Nat → List Nat → List Byte
/-- What the DECL bytes of a header declare: R527 names their content and not its layout. -/
opaque declOf : List Byte → Machine.AppDecl
opaque netDeclOf : List Byte → Machine.NetDecl
/-- What the self-tests of a start find where the command that restarts the module brings no measurements (R530, R542). -/
opaque startEnv : Nat → StartEnv
/-- What the module in SFP cage `k` offers of SFF-8472 diagnostics at a reading, numbered by the free-value counter (R580). -/
opaque sfpDiagnostics : Nat → Nat → List Byte
/-- The state that the chunks of a transfer spell, in their order: how a chunk encodes it the manual does not say (R462). -/
opaque leadState : List (List Byte) → Machine.LeadState
/-- How LEAD spells its state in a transfer, and the length of a chunk less 1; the manual gives neither (R457, R462). -/
opaque stateBytes : Machine.LeadState → List Byte
opaque chunkTop : Nat
/-- A value the manual leaves open, numbered by the plain counter of State that each use advances. -/
opaque freeValue : Nat → W64

end Sys2Proof.Config
end

