-- ==== Sys2Proof/Machine/StrideFrame.lean ====
section
/-! DEFINITION. Stride frames as bytes (R296, R301, R306, R313, R316, R322): the common header, the payload of every type, the frame check
sequence. Fields are in network order (R11). -/

namespace Sys2Proof.Machine

/-! ## The common header (R296) -/

/-- Types of VT[3:0]. -/
def sGun : Nat := 1
def sExclusive : Nat := 2
def sBid : Nat := 3
def sEntry : Nat := 4
def sDelayReq : Nat := 5
def sDelayRsp : Nat := 6

/-- A frame with its header fields read. -/
structure SFrame where
  kind : Nat
  /-- FLAGS[0] END: sent from end b; [1] LOOP; [2] ADM. -/
  fromB : Bool
  looped : Bool
  adm : Bool
  seg : Nat
  bcn : Nat
  /-- SCN[31:0] of the window, and its start in µs from the start of the basic cycle. -/
  scn : Nat
  woff : Nat
  stn : Nat
  sched : Nat
  loopPos : Nat
  payload : List Byte
  deriving DecidableEq, Repr

/-- DA: 03-00-88-B5-00-0s; 03-00-88-B5-01-00 for link-local frames. -/
def destOf (kind seg : Nat) : List Byte :=
  [0x03, 0x00, 0x88, 0xB5] ++ (if kind = 5 ∨ kind = 6 then [0x01, 0x00] else [0x00, BitVec.ofNat 8 seg])

/-- SA: a locally administered address of one station, six bytes; how it follows from the identity is open (log entry 56). -/
def sourceOf (identity : W64) (port : Nat) : List Byte :=
  let a := bytesBE 6 (Config.ringAddress identity port).toNat
  BitVec.ofNat 8 (4 * (byteAt a 0 / 4) + 2) :: a.drop 1

/-- Bytes 0 to the end of the payload. -/
def SFrame.body (f : SFrame) (src : List Byte) : List Byte :=
  destOf f.kind f.seg ++ src ++ [0x88, 0xB5, BitVec.ofNat 8 (16 + f.kind), BitVec.ofNat 8 (b2n f.fromB + 2 * b2n f.looped + 4 * b2n f.adm),
    BitVec.ofNat 8 f.seg, BitVec.ofNat 8 f.bcn] ++ bytesBE 4 f.scn ++ bytesBE 2 f.woff ++ bytesBE 2 f.stn ++
  [BitVec.ofNat 8 f.sched, BitVec.ofNat 8 f.loopPos, 0, 0] ++ f.payload

/-- The frame check sequence of IEEE 802.3, in the order that standard sends it: low byte of the register first (PRESUMED, log entry 56). -/
def fcsOf (body : List Byte) : List Byte := bytesLE 4 (crc32 body).toNat

/-- The frame as it leaves a ring end. -/
def SFrame.bytes (f : SFrame) (src : List Byte) : List Byte := f.body src ++ fcsOf (f.body src)

/-- The frame check sequence is good (R297). -/
def fcsGood (bs : List Byte) : Bool := decide (34 ≤ bs.length) && fcsOf (bs.take (bs.length - 4)) == bs.drop (bs.length - 4)

/-- A frame as a ring end reads it; one of another EtherType (a VLAN tag has one of its own), another version or a type not listed is
discarded (R292, R296). -/
def sRead (bs : List Byte) : Option SFrame :=
  let vt := byteAt bs 14
  let fl := byteAt bs 15
  if readBE bs 12 2 = 0x88B5 ∧ vt / 16 = 1 ∧ 1 ≤ vt % 16 ∧ vt % 16 ≤ 6 then
    some { kind := vt % 16, fromB := bitOf fl 0, looped := bitOf fl 1, adm := bitOf fl 2, seg := byteAt bs 16, bcn := byteAt bs 17 % 4,
           scn := readBE bs 18 4, woff := readBE bs 22 2, stn := readBE bs 24 2, sched := byteAt bs 26 % 8, loopPos := byteAt bs 27,
           payload := (bs.take (bs.length - 4)).drop 30 }
  else none

/-! ## Gun frames (R301): offsets are those of the frame less 30 -/

structure GunPay where
  ts : Nat
  /-- Accumulated delay, ns × 2^16. -/
  corr : Nat
  scn : Nat
  mid : W64
  /-- MFL: rank of the master, pair, far-end copy, first matrix after a cold start. -/
  rank : Nat
  pair : Bool
  farCopy : Bool
  first : Bool
  mmode : Nat
  swfl : Nat
  swScn : Nat
  rcScn : Nat
  nstn : Nat
  deriving DecidableEq, Repr

def gunBytes (g : GunPay) : List Byte :=
  bytesBE 8 g.ts ++ bytesBE 8 g.corr ++ bytesBE 8 g.scn ++ bytesBE 8 g.mid.toNat ++
  [BitVec.ofNat 8 (g.rank % 2 + 2 * b2n g.pair + 4 * b2n g.farCopy + 8 * b2n g.first), BitVec.ofNat 8 (g.mmode % 8), BitVec.ofNat 8 g.swfl, 0] ++
  bytesBE 4 g.swScn ++ bytesBE 8 g.rcScn ++ bytesBE 2 g.nstn

def gunOf (b : List Byte) : GunPay :=
  let mfl := byteAt b 32
  { ts := readBE b 0 8, corr := readBE b 8 8, scn := readBE b 16 8, mid := BitVec.ofNat 64 (readBE b 24 8), rank := mfl % 2,
    pair := bitOf mfl 1, farCopy := bitOf mfl 2, first := bitOf mfl 3, mmode := byteAt b 33 % 8, swfl := byteAt b 34, swScn := readBE b 36 4,
    rcScn := readBE b 40 8, nstn := readBE b 48 2 }

/-- What CORR says in ns. -/
def GunPay.delay (g : GunPay) : Nat := g.corr / 65536

/-! ## Link delay frames (R319). Where a payload carries its time the manual does not say: DESIGN CHOICE (log entry 56), from its first byte. -/

/-- The request carries its own send time t1. -/
def delayReqBytes (t1 : Nat) : List Byte := bytesBE 8 t1

/-- The response carries the turnaround t3 − t2. -/
def delayRspBytes (turn : Nat) : List Byte := bytesBE 4 turn
def delayRspOf (b : List Byte) : Nat := readBE b 0 4

/-! ## Exclusive frames and trailers (R306, R316) -/

/-- The payload as sent to a station of output part `o` and input part `i`: OLEN, OUT zero-filled, ILEN 0xFFFF, and IN, STS and TRL for the
station to write, sent as zeros. -/
def exBytes (o i : Nat) (tel : List Byte) : List Byte :=
  bytesBE 2 tel.length ++ cut tel 0 o ++ bytesBE 2 0xFFFF ++ List.replicate (i + 72) 0

/-- A trailer record. -/
inductive Trailer where
  | capability (kind fw outMax inMax conns blocks : Nat) (bypass : Bool) (residence : Nat)
  | rollCall (block : Nat) (bytes : List Byte)
  | diagnostic (delayA delayB fcs falseStarts silences : Nat)
  | nothing
  deriving DecidableEq, Repr

/-- The trailer of a kind (STS[4]) and block number (STS[5]); a kind not listed is none. -/
def trailerOf (kind block : Nat) (t : List Byte) : Trailer :=
  match kind with
  | 1 => .capability (readBE t 0 2) (readBE t 2 2) (readBE t 4 2) (readBE t 6 2) (byteAt t 8) (byteAt t 9) (bitOf (byteAt t 10) 0) (readBE t 12 2)
  | 2 => .rollCall block t
  | 3 => .diagnostic (readBE t 0 4) (readBE t 4 4) (readBE t 8 2) (readBE t 10 2) (readBE t 12 2)
  | _ => .nothing

/-- What a station has written into its frame. -/
structure ExPay where
  ilen : Nat
  input : List Byte
  /-- STS[0]: acknowledgement valid, its schedule; STS[1] restrictive; ACKSCN; STS[6-7]. -/
  ackValid : Bool
  ackSched : Nat
  restrictive : Bool
  ackScn : W16
  falseStarts : Nat
  trailer : Trailer
  deriving DecidableEq, Repr

def exOf (o i : Nat) (b : List Byte) : ExPay :=
  let n := readBE b (2 + o) 2
  let s := 4 + o + i
  { ilen := n, input := cut b (4 + o) (if n ≤ i then n else 0), ackValid := bitOf (byteAt b s) 7, ackSched := byteAt b s % 8,
    restrictive := byteAt b (s + 1) == 1, ackScn := BitVec.ofNat 16 (readBE b (s + 2) 2), falseStarts := readBE b (s + 6) 2,
    trailer := trailerOf (byteAt b (s + 4)) (byteAt b (s + 5)) (cut b (s + 8) 64) }

/-! ## Bid frames (R313) -/

/-- The payload as sent: grant, room for a message, acknowledgement, the free bid. -/
def bidBytes (gstn gmid astn amid : Nat) : List Byte :=
  bytesBE 2 gstn ++ bytesBE 2 gmid ++ bytesBE 2 0xFFFF ++ List.replicate 256 0 ++ bytesBE 2 astn ++ bytesBE 2 amid ++ bytesBE 4 0xFFFFFFFF

structure BidPay where
  mlen : Nat
  msg : List Byte
  bid : W32
  deriving DecidableEq, Repr

def bidOf (b : List Byte) : BidPay :=
  let n := readBE b 4 2
  { mlen := n, msg := cut b 6 (if n ≤ 256 then n else 0), bid := BitVec.ofNat 32 (readBE b 266 4) }

/-! ## Entry frames (R322) -/

/-- The payload as sent: HOPS 0 and eight free slots. -/
def entryBytes : List Byte :=
  [0, 0] ++ (List.replicate 8 (List.replicate 8 (0xFF#8) ++ List.replicate 8 (0#8))).flatten

/-- One slot. -/
structure EntrySlot where
  identity : W64
  claimed : Nat
  hops : Nat
  firmware : W32
  deriving DecidableEq, Repr

def entrySlots (b : List Byte) : List EntrySlot :=
  (List.range 8).map (fun k =>
    { identity := BitVec.ofNat 64 (readBE b (2 + 16 * k) 8), claimed := readBE b (10 + 16 * k) 2, hops := byteAt b (12 + 16 * k),
      firmware := BitVec.ofNat 32 (readBE b (14 + 16 * k) 4) })

end Sys2Proof.Machine
end

