-- ==== Sys2Proof/Machine/Cipher.lean ====
section
/-! DEFINITION. The standards the manual names: AES-128-CMAC (R351, R352, R558: NIST SP 800-38B and RFC 4493 over the cipher of FIPS 197)
and SHA-256 (R527: FIPS 180-4). The manual gives them by name; their definitions here follow the standards (PRESUMED, log entry 6). -/

namespace Sys2Proof.Machine

/-! ## The cipher, over blocks of 16 bytes, column after column -/

/-- The S-box, 16 bytes a row, the lowest index in the lowest byte. -/
def sboxRows : List Nat :=
  [0x76abd7fe2b670130c56f6bf27b777c63, 0xc072a49cafa2d4adf04759fa7dc982ca, 0x1531d871f1e5a534ccf73f362693fdb7,
   0x75b227ebe28012079a059618c323c704, 0x842fe329b3d63b52a05a6e1b1a2c8309, 0xcf584c4a39becb6a5bb1fc20ed00d153] ++
  [0xa89f3c507f02f94585334d43fbaaefd0, 0xd2f3ff1021dab6bcf5389d928f40a351, 0x73195d643d7ea7c41744975fec130ccd,
   0xdb0b5ede14b8ee4688902a22dc4f8160, 0x79e4959162acd3c25c2406490a3a32e0, 0x08ae7a65eaf4566ca94ed58d6d37c8e7] ++
  [0x8a8bbd4b1f74dde8c6b4a61c2e2578ba, 0x9e1dc186b95735610ef6034866b53e70, 0xdf2855cee9871e9b948ed9691198f8e1,
   0x16bb54b00f2d99416842e6bf0d89a18c]

def subByte (b : Nat) : Nat := fieldOf (sboxRows.getD (b / 16) 0) (8 * (b % 16)) 8

def xorBytes (x y : List Nat) : List Nat := List.zipWith Nat.xor x y

/-- Row `r` of column `c` comes from column `c + r`. -/
def shiftRows (x : List Nat) : List Nat := (List.range 16).map (fun i => x.getD ((i + 4 * (i % 4)) % 16) 0)

/-- Multiplication by 2 in the field of the cipher. -/
def xtime (b : Nat) : Nat := if b < 128 then 2 * b else Nat.xor (2 * b) 0x11B

/-- One byte of a mixed column: twice the first, three times the second, the other two once. -/
def mixByte (a b c d : Nat) : Nat := Nat.xor (Nat.xor (xtime a) (Nat.xor (xtime b) b)) (Nat.xor c d)

def mixColumns (x : List Nat) : List Nat :=
  (List.range 16).map (fun i =>
    let at_ (k : Nat) : Nat := x.getD (4 * (i / 4) + (i + k) % 4) 0
    mixByte (at_ 0) (at_ 1) (at_ 2) (at_ 3))

/-- The next round key; `rc` is the round constant. -/
def nextKey (rc : Nat) (k : List Nat) : List Nat :=
  let w (i : Nat) : List Nat := (k.drop (4 * i)).take 4
  let t := xorBytes ((w 3).drop 1 ++ (w 3).take 1 |>.map subByte) [rc, 0, 0, 0]
  let w0 := xorBytes (w 0) t
  let w1 := xorBytes (w 1) w0
  let w2 := xorBytes (w 2) w1
  w0 ++ w1 ++ w2 ++ xorBytes (w 3) w2

/-- The rounds from the one of round constant `rc` on; the last mixes no columns. -/
def aesRounds : Nat → Nat → List Nat → List Nat → List Nat
  | 0, _, _, x => x
  | n + 1, rc, k, x =>
    let k1 := nextKey rc k
    let y := shiftRows (x.map subByte)
    aesRounds n (xtime rc) k1 (xorBytes (if n = 0 then y else mixColumns y) k1)

/-- AES-128 of one block. -/
def aesBlock (k x : List Nat) : List Nat := aesRounds 10 1 k (xorBytes x k)

/-! ## CMAC -/

/-- The bytes of a 128-bit word, most significant first. -/
def blockOf (v : BitVec 128) : List Nat := (bytesBE 16 v.toNat).map BitVec.toNat

/-- The word that 16 bytes spell. -/
def wordOf (x : List Nat) : BitVec 128 := BitVec.ofNat 128 (x.foldl (fun n b => 256 * n + b) 0)

/-- A subkey from the one before it. -/
def cmacDouble (v : BitVec 128) : BitVec 128 := if v.msb then (v <<< 1) ^^^ 0x87#128 else v <<< 1

/-- The blocks of a message under CBC; the last one, padded where it is short, takes a subkey. -/
def cmacBlocks (k : BitVec 128) (k1 : BitVec 128) : Nat → List Byte → List Nat → List Nat
  | 0, _, c => c
  | fuel + 1, msg, c =>
    if msg.length ≤ 16 then
      let full := msg.length = 16
      let last := if full then msg else msg ++ [0x80] ++ List.replicate (15 - msg.length) 0
      aesBlock (blockOf k) (xorBytes (xorBytes (last.map BitVec.toNat) (blockOf (if full then k1 else cmacDouble k1))) c)
    else cmacBlocks k k1 fuel (msg.drop 16) (aesBlock (blockOf k) (xorBytes ((msg.take 16).map BitVec.toNat) c))

/-- AES-128-CMAC. -/
@[irreducible] def aesCmac (k : BitVec 128) (msg : List Byte) : BitVec 128 :=
  let zero := List.replicate 16 0
  wordOf (cmacBlocks k (cmacDouble (wordOf (aesBlock (blockOf k) zero))) (msg.length + 1) msg zero)

/-! ## SHA-256 -/

def shaInit : List (BitVec 32) :=
  [0x6a09e667#32, 0xbb67ae85#32, 0x3c6ef372#32, 0xa54ff53a#32, 0x510e527f#32, 0x9b05688c#32, 0x1f83d9ab#32, 0x5be0cd19#32]

def shaConst : List Nat :=
  [0x428a2f98, 0x71374491, 0xb5c0fbcf, 0xe9b5dba5, 0x3956c25b, 0x59f111f1, 0x923f82a4, 0xab1c5ed5] ++
  [0xd807aa98, 0x12835b01, 0x243185be, 0x550c7dc3, 0x72be5d74, 0x80deb1fe, 0x9bdc06a7, 0xc19bf174] ++
  [0xe49b69c1, 0xefbe4786, 0x0fc19dc6, 0x240ca1cc, 0x2de92c6f, 0x4a7484aa, 0x5cb0a9dc, 0x76f988da] ++
  [0x983e5152, 0xa831c66d, 0xb00327c8, 0xbf597fc7, 0xc6e00bf3, 0xd5a79147, 0x06ca6351, 0x14292967] ++
  [0x27b70a85, 0x2e1b2138, 0x4d2c6dfc, 0x53380d13, 0x650a7354, 0x766a0abb, 0x81c2c92e, 0x92722c85] ++
  [0xa2bfe8a1, 0xa81a664b, 0xc24b8b70, 0xc76c51a3, 0xd192e819, 0xd6990624, 0xf40e3585, 0x106aa070] ++
  [0x19a4c116, 0x1e376c08, 0x2748774c, 0x34b0bcb5, 0x391c0cb3, 0x4ed8aa4a, 0x5b9cca4f, 0x682e6ff3] ++
  [0x748f82ee, 0x78a5636f, 0x84c87814, 0x8cc70208, 0x90befffa, 0xa4506ceb, 0xbef9a3f7, 0xc67178f2]

/-- Three rotations to the right, or two and a shift, taken together. -/
def shaMix (x : BitVec 32) (a b c : Nat) (shift : Bool) : BitVec 32 :=
  x.rotateRight a ^^^ x.rotateRight b ^^^ (if shift then x >>> c else x.rotateRight c)

/-- The message schedule: `n` more words, each from the sixteen before it; newest first. -/
def shaSchedule : Nat → List (BitVec 32) → List (BitVec 32)
  | 0, ws => ws
  | n + 1, ws =>
    let w (i : Nat) : BitVec 32 := ws.getD (i - 1) 0
    shaSchedule n ((shaMix (w 2) 17 19 10 true + w 7 + shaMix (w 15) 7 18 3 true + w 16) :: ws)

/-- One step of the compression with a word of the schedule plus its constant. -/
def shaStep (st : List (BitVec 32)) (kw : BitVec 32) : List (BitVec 32) :=
  match st with
  | [a, b, c, d, e, f, g, h] =>
    let t := h + shaMix e 6 11 25 false + ((e &&& f) ^^^ (~~~ e &&& g)) + kw
    [t + shaMix a 2 13 22 false + ((a &&& b) ^^^ (a &&& c) ^^^ (b &&& c)), a, b, c, d + t, e, f, g]
  | _ => st

/-- One block of 64 bytes. -/
def shaBlock (st : List (BitVec 32)) (block : List Byte) : List (BitVec 32) :=
  let first := (List.range 16).map (fun i => BitVec.ofNat 32 (readBE block (4 * i) 4))
  let ws := (shaSchedule 48 first.reverse).reverse
  List.zipWith (· + ·) st ((List.zipWith (fun w k => w + BitVec.ofNat 32 k) ws shaConst).foldl shaStep st)

/-- The blocks of a padded message. -/
def shaBlocks : Nat → List Byte → List (BitVec 32) → List (BitVec 32)
  | 0, _, st => st
  | n + 1, msg, st => shaBlocks n (msg.drop 64) (shaBlock st (msg.take 64))

/-- SHA-256, 32 bytes. -/
@[irreducible] def sha256 (msg : List Byte) : List Byte :=
  let pad := msg ++ [0x80] ++ List.replicate ((119 - msg.length % 64) % 64) 0 ++ bytesBE 8 (8 * msg.length)
  (shaBlocks (pad.length / 64) pad shaInit).flatMap (fun w => bytesBE 4 w.toNat)

end Sys2Proof.Machine
end

