-- ==== Sys2Proof/Machine/RingBytes.lean ====
section
/-! DEFINITION. What the ZL3 writes into host memory, as bytes: completion, event, recorder read and telegram mirror entries with their
phase bit (R429, R436, R444, R452, R516), the head block (R423), the state mirror (R448, R449, R451). -/

namespace Sys2Proof.Machine

/-- Bytes of one entry of ring `i` (R420, R452, R516). -/
def entrySize (i : Nat) : Nat := if i < 32 then 64 else if i < 80 then 32 else if i < 88 then 128 else 288

/-- A 64-bit address from its two registers. -/
def addrOf (lo hi : W32) : Nat := hi.toNat * 4294967296 + lo.toNat

/-- A completion entry (R436). -/
def cplBytes (c : Cpl) (phase : Bool) : List Byte :=
  bytesLE 4 c.tag.toNat ++ bytesLE 1 c.opc ++ bytesLE 1 c.code ++ bytesLE 2 c.detail ++ cut c.result 0 23 ++
    bytesLE 1 (putField c.flags 0 1 (b2n phase))

/-- An event entry (R444). -/
def eventBytes (e : Event) (eseq : W32) (phase : Bool) : List Byte :=
  bytesLE 1 e.code ++ bytesLE 1 e.src ++ bytesLE 1 (b2n e.privileged) ++ bytesLE 1 0 ++ bytesLE 4 eseq.toNat ++ bytesLE 8 e.scn ++
    bytesLE 4 e.arg0 ++ bytesLE 4 e.arg1 ++ bytesLE 4 e.arg2 ++ bytesLE 3 0 ++ bytesLE 1 (b2n phase)

/-- A recorder read entry (R516). -/
def rrBytes (r : RrEntry) (phase : Bool) : List Byte :=
  cut r.record 0 64 ++ bytesLE 8 r.idx ++ bytesLE 1 r.afl ++ bytesLE 3 0 ++ bytesLE 4 r.tag.toNat ++ List.replicate 47 0 ++ bytesLE 1 (b2n phase)

/-- A telegram mirror entry (R452). -/
def tmBytes (t : TmEntry) (phase : Bool) : List Byte :=
  bytesLE 8 t.tstamp ++ bytesLE 1 t.dirm ++ bytesLE 1 0 ++ bytesLE 2 t.tel.length ++ bytesLE 4 t.lost ++ cut t.tel 0 256 ++
    List.replicate 15 0 ++ bytesLE 1 (b2n phase)

/-- An entry as the single memory write that carries it (R429). -/
def slotBytes : RingEntry → List Byte
  | .completion c ph => cplBytes c ph
  | .event e n ph => eventBytes e n ph
  | .record r ph => rrBytes r ph
  | .telegram t ph => tmBytes t ph

/-- The 32 words of the head block (R423). -/
def headBytes (head : Tab W32) : List Byte := (List.range 32).flatMap (fun q => bytesLE 4 (tabGet 0 head q).toNat)

/-- The header of the state mirror (R449). -/
def mirrorHead (mscn mode vset mfl : Nat) (build : W32) (stn : Tab Nat) : List Byte :=
  bytesLE 8 mscn ++ bytesLE 1 (mscn % 2) ++ bytesLE 1 mode ++ bytesLE 1 vset ++ bytesLE 1 mfl ++ bytesLE 4 build.toNat ++
    List.replicate 48 0 ++ (List.range 513).flatMap (fun n => bytesLE 1 (tabGet 0 stn n))

/-- The entries of a half in their slots below `n`, written over it; a slot with no configured object reads 0 (R448). -/
def mirrorHalf (area n : Nat) (half : Tab W64) (mem : Memory) : Memory :=
  (half.filter (fun e => decide (e.1 < n))).foldl (fun x e => memWrite x (area + 8 * e.1) (bytesLE 8 e.2.toNat)) (memClear mem area (8 * n))

end Sys2Proof.Machine
end

