-- ==== Sys2Proof/Machine/Parts/Recorder.lean ====
section
/-! DEFINITION. The recorder (R506-R516), the roll call (R491-R498) and the front end's check-value units (R499-R502). -/

namespace Sys2Proof.Machine

/-- A record of R507, less its CRC, which is computed from it. -/
structure Record where
  kind : Nat
  src : Nat
  code : Nat
  privileged : Bool
  podium : Bool
  rseq : W32
  scn : Nat
  opsec : Nat
  pcyc : Nat
  body : List Byte
  deriving DecidableEq, Repr, Inhabited

/-- A dirty record: the record and the operating time (ns) of its acceptance (R511, R512). -/
structure Dirty where
  record : Record
  at_ : Nat
  deriving DecidableEq, Repr

/-- What is recorded with the device identity at every start: variant code, module identity, geographic address GA2-GA0 with its parity
GAP in bit 3 (R2, R577). -/
structure StartId where
  variant : Nat
  identity : W64
  geo : BitVec 4
  deriving DecidableEq, Repr

/-- The counts of every Ledger clause as host ring memory became invalid, with the privileged stamp (R41, R42, R509). -/
structure LedgerRec where
  scn : Nat
  opsec : Nat
  pcyc : Nat
  /-- Submission: accepted and completed. -/
  acc : W32
  cmp : W32
  /-- Consumption: per enabled ring its count and the doorbell or acknowledge word last read. -/
  rings : Tab (W32 × W32)
  /-- FIFO: produced, delivered and lost of FIFOs 0 to 12. -/
  fifos : List (W32 × W32 × W32)
  /-- Recorder: next RSEQ of every source, and loss records. -/
  seqs : Tab W32
  losses : Nat
  /-- Baton: received, duplicate, late and missing of every connection in the lowest voting lane, and missing in all. -/
  conns : Tab (Nat × Nat × Nat × Nat)
  missing : Nat
  /-- CAN FD: transmit entries sent, cancelled and aborted per channel. -/
  can : List (W32 × W32 × W32)
  deriving DecidableEq, Repr

/-- The non-volatile recorder store and its metadata (R506, R509). -/
structure RecStore where
  /-- Records by store index. -/
  recs : Tab Record
  /-- Store index of the next record. -/
  next : Nat
  /-- FIELD has been entered: the Podium has started (R506). -/
  field : Bool
  podiumN : Nat
  podFull : Bool
  pcyc : Nat
  /-- The previous run ended with a closing record. -/
  closed : Bool
  /-- Next RSEQ of sources 0-8 that the closing record lists (R508), or found in the store. -/
  nextSeq : Tab W32
  /-- Next RSEQ of sources 0-8 after the last record found in the store. -/
  foundSeq : Tab W32
  /-- The store can no longer be written (R514). -/
  broken : Bool
  /-- The identity recorded at each start, newest first (R2, R577). -/
  starts : List StartId
  /-- The Ledger counts recorded at each invalidity, newest first (R41). -/
  ledgers : List LedgerRec
  deriving DecidableEq, Repr

def RecStore.fresh : RecStore :=
  { recs := [], next := 0, field := false, podiumN := 0, podFull := false, pcyc := 0, closed := true, nextSeq := [],
    foundSeq := [], broken := false, starts := [], ledgers := [] }

/-- A recorder read running on an RR ring (R515). -/
structure RecRead where
  mode : Nat
  mask : Nat
  privOnly : Bool
  start : Nat
  left : Nat
  delivered : Nat
  tag : W32
  /-- The next entry carries AFL[3]: start moved (R516). -/
  moved : Bool
  deriving DecidableEq, Repr

/-- The recorder's volatile part. -/
structure Recorder where
  dirty : List Dirty
  /-- Next RSEQ per source 0-8. -/
  seq : Tab W32
  /-- A run of drops per source: first RSEQ and number (R511). -/
  drops : Tab (W32 × Nat)
  /-- It accepts nothing further (power-fail flush, R512). -/
  stopped : Bool
  unusable : Bool
  /-- Event 0xE9 has been raised. -/
  unusTold : Bool
  ceil : Nat
  lossN : Nat
  acceptedN : W32
  droppedN : W32
  reads : Tab RecRead
  /-- Entries waiting for space in an RR ring, per ring (end entries). -/
  ends : Tab (List RrEntry)
  deriving DecidableEq, Repr

def Recorder.fresh : Recorder :=
  { dirty := [], seq := [], drops := [], stopped := false, unusable := false, unusTold := false, ceil := 16384, lossN := 0,
    acceptedN := 0, droppedN := 0, reads := [], ends := [] }

/-- One unit's blocks in a roll call (R493, R497). -/
structure RcEntry where
  /-- 0 lane; 1 front end; 2 I/O controller; 3 station; 4 CAN FD node. -/
  kind : Nat
  declared : Nat
  latched : Bool
  blocks : Tab (List Byte)
  deriving DecidableEq, Repr, Inhabited

/-- The roll call (R491-R498). -/
structure RollCall where
  /-- 0 none; 1 announced; 2 collecting; 3 writing (R519). -/
  state : Nat
  target : Nat
  /-- SCN from which the target is announced: the cycle after its acceptance (R492). -/
  annAt : Nat
  /-- The submission to complete. -/
  sub : Option Accepted
  area : Nat
  size : Nat
  units : Tab RcEntry
  /-- The module's own blocks as latched at T, by unit × 16 + block (R495). -/
  own : Tab (List Byte)
  late : Nat
  written : Nat
  /-- Header counts of the section written: configured, complete, partial, missing, not latched. -/
  header : List Nat
  sectionDone : Bool
  closed : Bool
  count : Nat
  deriving DecidableEq, Repr

def RollCall.fresh : RollCall :=
  { state := 0, target := 0, annAt := 0, sub := none, area := 0, size := 0, units := [], own := [], late := 0, written := 0, header := [],
    sectionDone := false, closed := false, count := 0 }

/-- Counter settings (R490, R520), check-value unit status (R519) and the counter setting waiting to apply. -/
structure Counters where
  cfg : Tab W32
  /-- The eight PCCFG words accepted by 0xEB, and the SCN of the freeze that accepted them. -/
  waiting : Option (List W32 × Nat)
  mism : Nat
  /-- The front end's check-value units 12 to 15 (R499-R502). -/
  cvu : Tab CvUnit
  /-- Front-end counts of R495: gun, exclusive and other frames sent and received per port 0-7; CAN sent and received 0-3. -/
  sentPort : Tab W32
  rcvdPort : Tab W32
  sentCan : Tab W32
  rcvdCan : Tab W32
  consumed : W32
  fwdPartner : W32
  rcvdPartner : W32
  /-- I/O controller counts: input pulses, off-pulses, diagnostic records, protective switch-offs. -/
  pulses : W32
  offPulses : W32
  diags : W32
  protects : W32
  deriving DecidableEq, Repr

def Counters.fresh : Counters :=
  { cfg := [], waiting := none, mism := 0, cvu := [], sentPort := [], rcvdPort := [], sentCan := [], rcvdCan := [], consumed := 0,
    fwdPartner := 0, rcvdPartner := 0, pulses := 0, offPulses := 0, diags := 0, protects := 0 }

end Sys2Proof.Machine
end

