-- ==== Sys2Proof/Machine/Parts/Time.lean ====
section
/-! DEFINITION. The Pacer's state (R51-R79): time sources, the source in use, holdover, the floor. -/

namespace Sys2Proof.Machine

/-- What PCRSTS.SRCNOW names: no source, a source of R51, holdover, or the own timeline (R78). -/
inductive TimeUse where
  | acquire
  | following (s : Src)
  | holdover
  | own
  deriving DecidableEq, Repr, Inhabited

/-- One time source as the Pacer sees it (R51, R55, R57, R61). -/
structure SrcState where
  /-- Valid under R51. -/
  valid : Bool
  /-- Refused under R61. -/
  refused : Bool
  /-- At or below the floor at START: absent for the rest of the run (R57). -/
  absent : Bool
  /-- Moment (operating time, ns) from which it has been eligible without a break (R55). -/
  eligAt : Option Nat
  /-- Moment from which its offset has been 1 ms or less without a break, while refused (R61). -/
  clearAt : Option Nat
  /-- Offsets measured and not yet used by a correction, newest first, in ns. -/
  offs : List Int
  /-- Moment it was last heard: Announce, hello or gun frame. -/
  heardAt : Option Nat
  /-- It reports timeTraceable. -/
  traceable : Bool
  deriving DecidableEq, Repr, Inhabited

/-- The PTP port of the front end (R51, R52): the selected grandmaster and the exchange in progress. -/
structure PtpPort where
  /-- The selected grandmaster, by the default best master clock algorithm. -/
  gm : Option PtpGm
  logAnnounce : Int
  /-- Operating time of its last Announce. -/
  annAt : Option Nat
  /-- Receive time of the last two-step Sync not yet followed up. -/
  syncAt : Option Int
  /-- Mean path delay in ns, from the last delay exchange. -/
  delay : Int
  /-- Difference received − sent of the last Sync, before the delay is taken off. -/
  msDiff : Option Int
  /-- The 16 most recent offsets, newest first. -/
  window : List Int
  deriving DecidableEq, Repr, Inhabited

/-- The Pacer (one agreed copy; each lane's own clock stands in `Lane`). -/
structure Pacer where
  use : TimeUse
  ptpPort : PtpPort
  ptp : SrcState
  partner : SrcState
  gun : SrcState
  /-- Station time exists: a source was taken, or the own timeline started (R57, R58). -/
  taken : Bool
  /-- Operating time at which holdover or the own timeline began (R64). -/
  holdAt : Nat
  /-- Event 0x44 has been raised in this holdover (R64). -/
  alarmed : Bool
  /-- Holdover was entered from PTP (R70). -/
  fromPtp : Bool
  /-- Reference lane of holdover (R67). -/
  ref : Option LaneId
  /-- The grandmaster last followed and the timeTraceable it last reported (R70). -/
  lastGm : Option (W64 × Bool)
  /-- Every pair of voting lanes agrees within 20 µs (R66). -/
  agree : Bool
  /-- Continuity proven at the last start (R70). -/
  cont : Bool
  /-- Corrections refused since start (R78). -/
  refusedN : Nat
  /-- Floor of R56 in ns; `none` without a record. -/
  floor : Option Nat
  /-- PCRSCNH as latched (R74). -/
  scnh : W32
  /-- Last servo run, operating time (R60). -/
  servoAt : Nat
  deriving DecidableEq, Repr, Inhabited

/-- A source nothing has been heard of. -/
def SrcState.fresh : SrcState :=
  { valid := false, refused := false, absent := false, eligAt := none, clearAt := none, offs := [], heardAt := none,
    traceable := false }

/-- The Pacer at the beginning of START. -/
def Pacer.fresh : Pacer :=
  { use := .acquire,
    ptpPort := { gm := none, logAnnounce := 0, annAt := none, syncAt := none, delay := 0, msDiff := none, window := [] },
    ptp := SrcState.fresh, partner := SrcState.fresh, gun := SrcState.fresh,
    taken := false, holdAt := 0, alarmed := false, fromPtp := false, ref := none, lastGm := none,
    agree := false, cont := false, refusedN := 0, floor := none, scnh := 0, servoAt := 0 }

end Sys2Proof.Machine
end

