-- ==== Sys2Proof/Machine/State.lean ====
section
/-! DEFINITION. The state of the block: everything the manual gives the module, plain data, and the queue of waiting commands.
The three lanes hold the agreed state in identical form (R90): the model keeps one copy of it, and per lane what may differ. -/

namespace Sys2Proof.Machine

/-- Why the machine would stop. No command of this block stops it: every trap, halt and exclusion of the manual is a next
state. -/
inductive Fault where
  /-- Raised by nobody; safe. It keeps the type inhabited. -/
  | noCommandFaults
  deriving DecidableEq, Repr

/-- Why a command has no meaning. -/
inductive Refusal where
  /-- Raised by the arm of a command that has no meaning yet; safe. -/
  | notModelled (mnemonic : String)
  deriving DecidableEq, Repr

/-- What the module keeps across restarts and power loss, beside each lane's own flash (`LaneNv`). -/
structure Nv where
  /-- Recorder store and metadata (R506, R509). -/
  store : RecStore
  /-- Banks of the front end, the I/O controller and the network settings (R524). -/
  banks : Banks
  /-- Owner settings and alarm state (R564-R569). -/
  sec : SecNv
  /-- The front end's stored settings (R331, R403): each of its banks has an area of its own (R524). -/
  fe0 : FeSettings
  fe1 : FeSettings
  /-- Operating time (s) of each automatic restart (R127). -/
  arTimes : List Nat
  /-- Provisioned pair (R455, R574). -/
  paired : Bool
  partnerId : W64
  deriving DecidableEq, Repr

/-- The module. -/
structure Mod where
  /-- The logic supply is present (R583). -/
  powered : Bool
  /-- Operating time in ns, counted while the supply is present (R509); every deadline that needs no station time uses it. -/
  clk : Nat
  /-- Counter of free values taken (the model's own). -/
  freeN : Nat
  nv : Nv
  /-- The RWS registers in force in the lanes. -/
  cfg : Settings
  tm : Pacer
  ln : PerLane Lane
  md : Modes
  pw : Power
  lg : Logic
  /-- Current image and next image (R164). -/
  cur : Memory
  nxt : Memory
  en : Engine
  fio : Fio
  bt : Baton
  str : Stride
  can : Can
  net : NetImage
  host : HostIf
  rcd : Recorder
  rc : RollCall
  pc : Counters
  up : Update
  sec : SecVol
  pr : Pair
  /-- The state of cycle J that LEAD sent last to a partner that joins, in the chunks of frames 0x06 (R457, R462). -/
  stateOut : Option StateOut
  deriving DecidableEq, Repr

/-- The state: the commands waiting, first in first out, and the module. -/
structure State where
  pending : List Instr
  m : Mod
  deriving DecidableEq, Repr

/-- The module's non-volatile memory as manufactured. -/
def Nv.fresh : Nv :=
  { store := RecStore.fresh, banks := Banks.fresh Config.feVersion Config.ioVersion, sec := SecNv.fresh Config.identity,
    fe0 := FeSettings.initial, fe1 := FeSettings.initial, arTimes := [], paired := false, partnerId := 0 }

/-- The front end's settings area of a bank (R524). -/
def Nv.feArea (n : Nv) (second : Bool) : FeSettings := if second then n.fe1 else n.fe0

/-- The module at the beginning of a run: every volatile part at its reset value, what is non-volatile as given. -/
def Mod.start (clk freeN : Nat) (nv : Nv) (lanes : PerLane LaneNv) : Mod :=
  { powered := false, clk := clk, freeN := freeN, nv := nv, cfg := Settings.initial, tm := Pacer.fresh,
    ln := lanes.mapL (fun _ v => Lane.fresh v), md := Modes.fresh, pw := Power.fresh, lg := Logic.fresh AppImage.empty,
    cur := [], nxt := [], en := Engine.fresh, fio := Fio.fresh, bt := Baton.fresh, str := Stride.fresh (nv.feArea (nv.banks.act % 2 == 1)).strcfg,
    can := Can.fresh (nv.feArea (nv.banks.act % 2 == 1)), net := NetImage.empty, host := HostIf.fresh, rcd := Recorder.fresh, rc := RollCall.fresh,
    pc := Counters.fresh, up := Update.fresh, sec := SecVol.fresh, pr := Pair.fresh, stateOut := none }

/-- The module right after reset: unpowered, as manufactured, every register at the manual's reset value. -/
def Mod.initial : Mod :=
  Mod.start 0 0 Nv.fresh (PerLane.all (LaneNv.fresh Config.laneVersion 0))

/-- The machine right after reset: no command waits. -/
def State.reset : State := { pending := [], m := Mod.initial }

end Sys2Proof.Machine
end

