-- ==== Sys2Proof/Machine/XFrame.lean ====
section
/-! DEFINITION. Cross-lane frames as bytes (R17, R98, R101-R103): the common header, the payload of every type, the link check. -/

namespace Sys2Proof.Machine

/-! ## The common header and the link check (R17, R101) -/

/-- TYPE codes (R101). -/
def xLocal : Nat := 0x01
def xRemote : Nat := 0x02
def xOffer : Nat := 0x03
def xVerdict : Nat := 0x04
def xConfirm : Nat := 0x05
def xAlarm : Nat := 0x0E
def xFault : Nat := 0x0F

/-- A frame with its header fields read. -/
structure XFrame where
  type : Nat
  sender : Nat
  mode : Byte
  flags : Byte
  scn : Nat
  /-- Sender's station time at transmission, ns (R66). -/
  stime : Nat
  payload : List Byte
  deriving DecidableEq, Repr

/-- Bytes 0-19 and the payload. -/
def XFrame.body (f : XFrame) : List Byte :=
  bytesBE 1 f.type ++ bytesBE 1 f.sender ++ [f.mode, f.flags] ++ bytesBE 8 f.scn ++ bytesBE 8 f.stime ++ f.payload

/-- The frame as it leaves: its bytes, then the CRC-64 over all of them (R17, R98, R101). -/
def XFrame.bytes (f : XFrame) : List Byte := f.body ++ bytesBE 8 (crc64 f.body).toNat

/-- The bytes pass the link check. -/
def linkOk (bs : List Byte) : Bool :=
  decide (28 ≤ bs.length) && readBE bs (bs.length - 8) 8 == (crc64 (bs.take (bs.length - 8))).toNat

/-- A frame as read; `none` where the link check fails: it counts as no frame (R17). -/
def xParse (bs : List Byte) : Option XFrame :=
  if linkOk bs then
    some { type := byteAt bs 0, sender := byteAt bs 1, mode := bs.getD 2 0, flags := bs.getD 3 0, scn := readBE bs 4 8, stime := readBE bs 12 8,
           payload := (bs.take (bs.length - 8)).drop 20 }
  else none

/-- The copy that counts: that of line 0, else that of line 1 (R100). -/
def xFrameOf (c : XCopies) : Option XFrame := (xParse c.line0).or (xParse c.line1)

/-! ## Payloads (R102): offsets are those of the frame less 20 -/

/-- Two-bit states, four to a byte from bits [7:6]. -/
def packStates : List (BitVec 2) → List Byte
  | a :: b :: c :: d :: r => BitVec.ofNat 8 (64 * a.toNat + 16 * b.toNat + 4 * c.toNat + d.toNat) :: packStates r
  | [] => []
  | [a] => [BitVec.ofNat 8 (64 * a.toNat)]
  | [a, b] => [BitVec.ofNat 8 (64 * a.toNat + 16 * b.toNat)]
  | [a, b, c] => [BitVec.ofNat 8 (64 * a.toNat + 16 * b.toNat + 4 * c.toNat)]

/-- `n` two-bit states of packed bytes. -/
def unpackStates (bs : List Byte) (n : Nat) : List (BitVec 2) :=
  (List.range n).map (fun i => BitVec.ofNat 2 (fieldOf (byteAt bs (i / 4)) (6 - 2 * (i % 4)) 2))

/-- Type 0x01. -/
def localBytes (p : LocalPayload) : List Byte := packStates p.inputs ++ p.volts.flatMap (bytesBE 2) ++ bytesBE 2 0

def localOf (b : List Byte) : LocalPayload :=
  { inputs := unpackStates b 104, volts := (List.range 4).map (fun g => readBE b (26 + 2 * g) 2) }

/-- Type 0x02: n entries of 8 bytes in connection-table order, then the 32 ring entries of 8 bytes. -/
def remoteBytes (p : RemotePayload) : List Byte :=
  bytesBE 2 p.seqs.length ++ bytesBE 2 0 ++ p.seqs.flatMap (fun e => bytesBE 4 e.1.toNat ++ bytesBE 4 e.2.toNat) ++
  p.rings.flatMap (fun r => bytesBE 4 r.toNat ++ bytesBE 4 0xFFFFFFFF)

def remoteOf (b : List Byte) : RemotePayload :=
  let n := readBE b 0 2
  { seqs := (List.range n).map (fun i => (BitVec.ofNat 32 (readBE b (4 + 8 * i) 4), BitVec.ofNat 32 (readBE b (8 + 8 * i) 4))),
    rings := (List.range 32).map (fun i => BitVec.ofNat 32 (readBE b (4 + 8 * n + 8 * i) 4)) }

/-- Bytes 20-75 of an offer. -/
def offerFields (o : Offer) : List Byte :=
  bytesBE 8 o.var.toNat ++ bytesBE 8 o.eng.toNat ++ bytesBE 8 o.ctrl.toNat ++ bytesBE 8 o.stat.toNat ++
  bytesBE 2 o.slice.toNat ++ bytesBE 2 o.res1.toNat ++ bytesBE 8 o.remote.toNat ++ bytesBE 8 o.drive.toNat ++ [o.iso] ++
  bytesBE 3 o.res2.toNat

/-- Type 0x03. -/
def offerPayload (o : Offer) : List Byte := offerFields o ++ bytesBE 4 o.snap.toNat

/-- An offer with the mode and flags of its own header. -/
def offerOfFrame (f : XFrame) : Offer :=
  let b := f.payload
  let w (off : Nat) : W64 := BitVec.ofNat 64 (readBE b off 8)
  { mode := f.mode, flags := f.flags, var := w 0, eng := w 8, ctrl := w 16, stat := w 24, slice := BitVec.ofNat 16 (readBE b 32 2),
    res1 := BitVec.ofNat 16 (readBE b 34 2), remote := w 36, drive := w 44, iso := b.getD 52 0, res2 := BitVec.ofNat 24 (readBE b 53 3),
    snap := BitVec.ofNat 32 (readBE b 56 4) }

/-- Bytes 2-3 and 20-75 of an offer (R103). -/
def offerBytes (o : Offer) : List Byte := [o.mode, o.flags] ++ offerFields o

/-- The fingerprint of an offer (R103). -/
def fingerprint (o : Offer) : W64 := crc64 (offerBytes o)

/-- Lanes as bits A, B, C from bit 0. -/
def laneBits (p : PerLane Bool) : Nat := b2n p.a + 2 * b2n p.b + 4 * b2n p.c
def bitLanes (n : Nat) : PerLane Bool := { a := bitOf n 0, b := bitOf n 1, c := bitOf n 2 }

/-- Type 0x04. -/
def verdictBytes (v : Verdict) : List Byte :=
  bytesBE 8 v.prints.a.toNat ++ bytesBE 8 v.prints.b.toNat ++ bytesBE 8 v.prints.c.toNat ++ bytesBE 1 (laneBits v.received) ++ bytesBE 3 0

def verdictOf (b : List Byte) : Verdict :=
  let w (off : Nat) : W64 := BitVec.ofNat 64 (readBE b off 8)
  { prints := { a := w 0, b := w 8, c := w 16 }, received := bitLanes (byteAt b 24) }

/-- Type 0x05. -/
def confirmBytes (c : Confirm) : List Byte := bytesBE 1 (laneBits c.set + 8 * b2n c.haltMark) ++ bytesBE 3 0

def confirmOf (b : List Byte) : Confirm := { set := bitLanes (byteAt b 0), haltMark := bitOf (byteAt b 0) 3 }

/-- Type 0x0E: trigger and level. -/
def alarmBytes (trig lvl : Nat) : List Byte := bytesBE 1 trig ++ bytesBE 1 lvl ++ bytesBE 2 0

def alarmOf (b : List Byte) : Nat × Nat := (byteAt b 0, byteAt b 1)

/-- Type 0x0F: the cause code of VOTXA. -/
def faultBytes (cause : Nat) : List Byte := bytesBE 4 cause

def faultOf (b : List Byte) : Nat := readBE b 0 4

end Sys2Proof.Machine
end

