-- ==== Sys2Proof/Machine/Ops.lean ====
section
/-! DEFINITION. The shared operations: lanes and station time, events and the recorder's acceptance, host rings and completions,
MSI-X. -/

namespace Sys2Proof.Machine

/-! ## Parts of the module -/

def updLane (l : LaneId) (f : Lane → Lane) (m : Mod) : Mod := { m with ln := m.ln.modify l f }
def updLanes (f : LaneId → Lane → Lane) (m : Mod) : Mod := { m with ln := m.ln.mapL f }
def updHost (f : HostIf → HostIf) (m : Mod) : Mod := { m with host := f m.host }
def updMd (f : Modes → Modes) (m : Mod) : Mod := { m with md := f m.md }
def updTm (f : Pacer → Pacer) (m : Mod) : Mod := { m with tm := f m.tm }
def updRcd (f : Recorder → Recorder) (m : Mod) : Mod := { m with rcd := f m.rcd }
def updNv (f : Nv → Nv) (m : Mod) : Mod := { m with nv := f m.nv }
/-- The front end's settings in the area of the bank it runs on, the one area it writes (R524, R540). -/
def feSettings (m : Mod) : FeSettings := m.nv.feArea (m.md.runBank % 2 == 1)
def updFe (f : FeSettings → FeSettings) (m : Mod) : Mod :=
  updNv (fun n => if m.md.runBank % 2 == 1 then { n with fe1 := f n.fe1 } else { n with fe0 := f n.fe0 }) m
def updPr (f : Pair → Pair) (m : Mod) : Mod := { m with pr := f m.pr }
def updUp (f : Update → Update) (m : Mod) : Mod := { m with up := f m.up }
def updSec (f : SecVol → SecVol) (m : Mod) : Mod := { m with sec := f m.sec }
def updFio (f : Fio → Fio) (m : Mod) : Mod := { m with fio := f m.fio }
def updLg (f : Logic → Logic) (m : Mod) : Mod := { m with lg := f m.lg }
def updEn (f : Engine → Engine) (m : Mod) : Mod := { m with en := f m.en }
def updPw (f : Power → Power) (m : Mod) : Mod := { m with pw := f m.pw }
def updStr (f : Stride → Stride) (m : Mod) : Mod := { m with str := f m.str }
def updCan (f : Can → Can) (m : Mod) : Mod := { m with can := f m.can }
def updBt (f : Baton → Baton) (m : Mod) : Mod := { m with bt := f m.bt }
def updRc (f : RollCall → RollCall) (m : Mod) : Mod := { m with rc := f m.rc }
def updPc (f : Counters → Counters) (m : Mod) : Mod := { m with pc := f m.pc }

/-- Fold a step over a list of items. -/
def forEach {α : Type} (xs : List α) (f : α → Mod → Mod) (m : Mod) : Mod := xs.foldl (fun acc x => f x acc) m

/-- `f` where `c` holds, nothing otherwise. -/
def onlyIf (c : Bool) (f : Mod → Mod) (m : Mod) : Mod := if c then f m else m

/-! ## Lanes (R16, R84, R106, R108) -/

/-- A lane that runs: supplied, usable, not stopped, not excluded, not halted alone. -/
def Lane.alive (l : Lane) : Bool := l.supplied && l.usable && !l.excluded && !l.halted && l.stopped == 0

/-- A lane drives the switches of a pair: it has its supply and holds neither all its switches nor those of the pair open (R22, R23,
R37). -/
def Lane.drivesPair (l : Lane) (k : Link) : Bool := l.supplied && !l.opened && !l.openPairs.contains k

/-- The lanes of a pair, which is named by the link between them (R17, R22). -/
def pairLanes : Link → LaneId × LaneId
  | .ab => (.a, .b)
  | .bc => (.b, .c)
  | .ca => (.c, .a)

def allLinks : List Link := [.ab, .bc, .ca]

/-- Both lanes of a pair drive their switches of it. -/
def pairDriven (m : Mod) (k : Link) : Bool :=
  (m.ln.get (pairLanes k).1).drivesPair k && (m.ln.get (pairLanes k).2).drivesPair k

/-- Some pair is driven: what the lanes command on in agreement conducts (R22, R23, R248). -/
def someDriven (m : Mod) : Bool := allLinks.any (pairDriven m)

/-- The pairs a lane shares with another one. -/
def sharedPairs (l x : LaneId) : List Link := (linkOf l x).toList

/-- Running lanes, in the order A, B, C. -/
def aliveLanes (m : Mod) : List LaneId := allLanes.filter (fun l => (m.ln.get l).alive)

/-- The voting set the module shows (R106, R118): that of the lowest lane that continues. -/
def vsetOf (m : Mod) : PerLane Bool :=
  match aliveLanes m with
  | [] => PerLane.all false
  | l :: _ => (m.ln.get l).vset

/-- The voting lanes, in the order A, B, C. -/
def voters (m : Mod) : List LaneId := (vsetOf m).lanes

/-- The lowest voting lane that runs: registers and mirrors show its values. -/
def refLane (m : Mod) : LaneId :=
  match aliveLanes m with
  | [] => .a
  | l :: _ => l

/-- The value two voting lanes hold, else that of the lowest lane: agreed state is what the winners of the vote hold. -/
def agreedBy {α : Type} [DecidableEq α] (m : Mod) (f : Lane → α) : α :=
  match aliveLanes m with
  | [] => f m.ln.a
  | [x] => f (m.ln.get x)
  | [x, _] => f (m.ln.get x)
  | x :: y :: z :: _ =>
    if f (m.ln.get x) = f (m.ln.get y) ∨ f (m.ln.get x) = f (m.ln.get z) then f (m.ln.get x)
    else if f (m.ln.get y) = f (m.ln.get z) then f (m.ln.get y) else f (m.ln.get x)

/-! ## Station time (R48-R50, R71) -/

/-- Station time the module shows: that of the lowest voting lane, in ns. -/
def now (m : Mod) : Nat := (m.ln.get (refLane m)).time
def scnOf (t : Nat) : Nat := t / 20000000
def bcnOf (t : Nat) : Nat := t % 20000000 / 5000000
def phaseOf (t : Nat) : Nat := t % 20000000 / 1000
def scn (m : Mod) : Nat := scnOf (now m)
def bcn (m : Mod) : Nat := bcnOf (now m)
def phase (m : Mod) : Nat := phaseOf (now m)

/-- The bound of R60 in ppb. -/
def slewPpb : Int := 50000

/-- What a lane of frequency correction `freq` (ppb) and pending phase correction `corr` slews while `d` ns pass: frequency and phase
correction together stay within 50 ppm of the free rate of its oscillator (R60). The frequency correction cancels the oscillator's own
offset, so what is left for the phase is what the bound leaves beside it (log entry 53). -/
def slewOf (d : Nat) (freq corr : Int) : Int :=
  let up : Int := max 0 ((d : Int) * (slewPpb - freq) / 1000000000)
  let down : Int := max 0 ((d : Int) * (slewPpb + freq) / 1000000000)
  max (-down) (min up corr)

/-- The operating time at which one level-mode event of a cycle-based counter has the value it has every cycle, and the clock
rate of a step code in cycles per µs (R603). -/
def mhzOf (step : Nat) : Nat :=
  match step with
  | 0 => 1200
  | 1 => 1100
  | 2 => 1000
  | _ => 900

/-- One lane's clock after `d` ns of the reference lane's station time, in which the reference slewed `ref` (R60, R67). The test
routing of the comparator has closed after 64 clocks, at most 72 ns (R88). -/
def laneTick (taken : Bool) (d : Nat) (ref : Int) (l : Lane) : Lane :=
  let s := if taken then slewOf d l.freq l.corr else 0
  { l with time := if taken then (((l.time + d : Nat) : Int) + s - ref).toNat else l.time, corr := l.corr - s,
           testRoute := l.testRoute && decide (d < 72) }

/-! ## Performance counters (R486-R490) -/

/-- The setting byte of counter `n` (R520). -/
def pcByte (cfg : Tab W32) (n : Nat) : Nat := fieldOf (tabGet 0 cfg (n / 4)).toNat (8 * (n % 4)) 8

/-- Add to counter `n`; a carry out of 48 bits advances the next counter where that one is chained (R489). -/
def pcBump : Nat → Tab W32 → Nat → Nat → Lane → Lane
  | 0, _, _, _, l => l
  | fuel + 1, cfg, n, k, l =>
    let t := (tabGet 0 l.pcs n).toNat + k
    let l1 := { l with pcs := tabSet 0 l.pcs n (BitVec.ofNat 48 t) }
    if 2 ^ 48 ≤ t ∧ n < 31 ∧ bitOf (pcByte cfg (n + 1)) 7 then pcBump fuel cfg (n + 1) (t / 2 ^ 48) l1 else l1

/-- `levels` per level counter and `edges` per edge counter of an event code (R487). -/
def pcCount (cfg : Tab W32) (code levels edges : Nat) (l : Lane) : Lane :=
  if cfg.isEmpty then l
  else
    (List.range 32).foldl (fun acc n =>
      let b := pcByte cfg n
      if b % 64 = code ∧ (!bitOf b 7 || n == 0) then pcBump 32 cfg n (if bitOf b 6 then edges else levels) acc else acc) l

/-- One occurrence of an event in a lane. -/
def pcEvent (l : LaneId) (code : Nat) (m : Mod) : Mod := updLane l (pcCount m.pc.cfg code 1 1) m

/-- One occurrence of an event in every running lane. -/
def pcAll (code : Nat) (m : Mod) : Mod :=
  if m.pc.cfg.isEmpty then m else updLanes (fun _ l => if l.alive then pcCount m.pc.cfg code 1 1 l else l) m

/-- A share of what is left, as a free value decides (R488: the five classes add up; how they split is not given). -/
def freeShare (k left : Nat) : Nat := (Config.freeValue k).toNat % (left + 1)

/-- The cycle-based events of `d` ns in one lane: cycles, the two slots of each, the `us` microseconds its station time advances, cycles
below nominal. The split of the slots is open; the five level counts add up to twice the cycles (R488). So are cache misses, the
engine's busy cycles and the words of the check-value units. -/
def pcCycles (cfg : Tab W32) (k d us : Nat) (l : Lane) : Lane :=
  let cyc := d * mhzOf l.step / 1000
  let r := freeShare k (2 * cyc)
  let w := freeShare (k + 1) (2 * cyc - r)
  let f := freeShare (k + 2) (2 * cyc - r - w)
  let v := freeShare (k + 3) (2 * cyc - r - w - f)
  let e := fun (i : Nat) (n : Nat) => freeShare (k + 4 + i) (min n cyc)
  let n := fun (i : Nat) => freeShare (k + 9 + 2 * i) cyc
  let open_ := fun (i code : Nat) (x : Lane) => pcCount cfg code (n i) (freeShare (k + 10 + 2 * i) (n i)) x
  open_ 0 0x0D <| open_ 1 0x0E <| open_ 2 0x0F <| open_ 3 0x16 <| pcCount cfg 0x17 (if l.step = 0 then 0 else cyc) 0
    (pcCount cfg 0x0B us us (pcCount cfg 0x06 (2 * cyc - r - w - f - v) (e 4 (2 * cyc - r - w - f - v))
      (pcCount cfg 0x05 v (e 3 v) (pcCount cfg 0x04 f (e 2 f) (pcCount cfg 0x03 w (e 1 w) (pcCount cfg 0x02 r (e 0 r)
        (pcCount cfg 0x01 cyc 0 l)))))))

/-- The clock step changes; to a step below 1.2 GHz, the first cycle of it is an edge of event 0x17 (R487). -/
def setStep (cfg : Tab W32) (s : Nat) (l : Lane) : Lane :=
  pcCount cfg 0x17 0 (if l.step = 0 ∧ s ≠ 0 then 1 else 0) { l with step := s }

/-- Microseconds by which a lane's station time advances in `d` ns; none before station time is taken (R487). -/
def usOf (taken : Bool) (d : Nat) (ref : Int) (l : Lane) : Nat := (laneTick taken d ref l).time / 1000 - l.time / 1000

/-- The counters of every supplied lane while `d` ns pass. -/
def passCounters (d : Nat) (ref : Int) (m : Mod) : Mod :=
  if m.pc.cfg.isEmpty then m
  else
    { m with freeN := m.freeN + 51,
             ln := m.ln.mapL (fun x l => if l.supplied && l.usable then pcCycles m.pc.cfg (m.freeN + 17 * laneNo x) d (usOf m.tm.taken d ref l) l else l) }

/-- Time passes: `d` ns of station time (R50, R72). Operating time passes with it. -/
def passTime (d : Nat) (m : Mod) : Mod :=
  let ref := slewOf d (m.ln.get (refLane m)).freq (m.ln.get (refLane m)).corr
  let m1 := passCounters d ref m
  { m1 with clk := m1.clk + d, ln := m1.ln.mapL (fun _ l => laneTick m1.tm.taken d ref l) }

/-- Station time moves forward to `t`; it never runs backward (R49). -/
def passTo (t : Nat) (m : Mod) : Mod := passTime (t - now m) m

/-- The freeze of the phase plan that follows, phase 1,000 (R95). -/
def toFreeze (m : Mod) : Mod :=
  if !m.tm.taken || now m % 20000000 == 1000000 then m
  else passTo ((if phase m < 1000 then scn m else scn m + 1) * 20000000 + 1000000) m

/-- Operating time moves forward to `t`. -/
def passClk (t : Nat) (m : Mod) : Mod := passTime (t - m.clk) m

/-- How far the hindmost running lane's station time stands behind the time the module shows. -/
def lagOf (m : Mod) : Nat := (aliveLanes m).foldl (fun n l => max n (now m - (m.ln.get l).time)) 0

/-- Station time moves on until every running lane's own station time has reached `t`: each lane fires a step when its own time does
(R71). -/
def passAll (t : Nat) (m : Mod) : Mod := passTo (t + lagOf m) m

/-- A step whose phase had passed, in a cycle in which it was due, is fired late, and each running lane counts it (R72). -/
def fireLate (m : Mod) : Mod := pcAll 0x0A m

/-- Step `key` has fired in cycle `k` (a station cycle, or a basic cycle for the steps of every basic cycle), in every lane at `t` of its own
station time, or late (R71, R72). -/
def noteFired (key k : Nat) (t : Option Nat) (m : Mod) : Mod :=
  updMd (fun d => { d with fired := tabSet 0 d.fired key (k + 1), stepAt := t }) m

/-- From now on step `key` is owed: at its next moment it fires, late where that moment passes without it (R72). -/
def owe (key : Nat) (m : Mod) : Mod := updMd (fun d => { d with owed := tabPut d.owed key (now m) }) m

/-- Step `key` is owed no longer. -/
def unowe (key : Nat) (m : Mod) : Mod := updMd (fun d => { d with owed := tabDel d.owed key }) m

/-- From when step `key` is owed, if it is. -/
def owedFrom (key : Nat) (m : Mod) : Option Nat := (tabFind m.md.owed key).map (max m.md.firstAt)

/-- Step `key` of a cycle of `len` ns at offset `off` ns fires in the cycle of now, or in the next one where it has fired already: no
phase is reached twice (R72). It is not owed before station time `due`. Where it is owed, a moment that has passed without it is not
skipped: the step fires late, now; a step that is not owed (`due` none) waits for the next moment. -/
def fireAt (key len off : Nat) (due : Option Nat) (m : Mod) : Mod :=
  let c := now m / len
  let k := max (if c + 1 ≤ tabGet 0 m.md.fired key then c + 1 else c) ((due.getD 0 - off + len - 1) / len)
  if now m ≤ k * len + off then noteFired key k (some (k * len + off)) (passAll (k * len + off) m)
  else if due.isSome then noteFired key k none (fireLate m)
  else noteFired key (k + 1) (some ((k + 1) * len + off)) (passAll ((k + 1) * len + off) m)

/-- A step of the phase plan at phase `p` µs, due in every station cycle since station time was taken (R26, R71, R72). -/
def toPhase (key p : Nat) (m : Mod) : Mod := if m.tm.taken then fireAt key 20000000 (p * 1000) (some m.md.firstAt) m else m

/-- As `toPhase`, for a step that is due from station time `due` only. -/
def toPhaseFrom (due key p : Nat) (m : Mod) : Mod :=
  if m.tm.taken then fireAt key 20000000 (p * 1000) (some (max due m.md.firstAt)) m else m

/-- The next phase `p` of a step that is owed only since `owe`, or not at all (a window, a slot: its frame leaves at its moment or not). -/
def toNext (key p : Nat) (m : Mod) : Mod := if m.tm.taken then fireAt key 20000000 (p * 1000) (owedFrom key m) m else m

/-- As `toPhaseFrom` and `toNext`, for a step of every basic cycle at offset `off` µs. -/
def toBasicFrom (due key off : Nat) (m : Mod) : Mod :=
  if m.tm.taken then fireAt key 5000000 (off * 1000) (some (max due m.md.firstAt)) m else m

def toBasic (key off : Nat) (m : Mod) : Mod := if m.tm.taken then fireAt key 5000000 (off * 1000) (owedFrom key m) m else m

/-- The step `key` has fired in this station cycle. -/
def firedNow (key : Nat) (m : Mod) : Bool := tabGet 0 m.md.fired key == scn m + 1

/-- A fresh free value (the manual leaves it open): the value and the module that has used it. -/
def takeFree (m : Mod) : W64 × Mod := (Config.freeValue m.freeN, { m with freeN := m.freeN + 1 })

/-! ## Modes -/

/-- Mode codes of R38. -/
def modeCode : Mode → Nat
  | .halt => 0
  | .recovery => 1
  | .start => 2
  | .commission => 3
  | .run3 => 4
  | .run2 => 5
  | .shadow => 6
  | .maintain => 7

def mode (m : Mod) : Mode := m.md.mode
def inHalt (m : Mod) : Bool := mode m == .halt
def isRun (m : Mod) : Bool := mode m == .run3 || mode m == .run2
/-- A mode in which the module votes: every mode but HALT and RECOVERY. -/
def operating (m : Mod) : Bool := mode m != .halt && mode m != .recovery
/-- START is over and the module serves (COMMISSION, RUN-3, RUN-2, SHADOW, MAINTAIN). -/
def serving (m : Mod) : Bool := operating m && mode m != .start
/-- RUN-3 or RUN-2 by the number of voting lanes (R122). -/
def runMode (m : Mod) : Mode := if (voters m).length = 3 then .run3 else .run2
/-- The module is LEAD or single, and not outgoing (R459, R472). -/
def leads (m : Mod) : Bool := (m.pr.role == 0 || m.pr.role == 1) && !m.pr.outgoing

/-! ## Frames a lane sends (R101, R149) -/

/-- FLAGS of a cross-lane frame: a force is active; an on-line change is scheduled (R101, R149). -/
def xFlags (m : Mod) : Byte := BitVec.ofNat 8 (b2n (!m.md.forces.isEmpty) + 2 * b2n (m.lg.olcState == 1))

/-- Bytes of a cross-lane frame pass a lane's unit 1, their CRC aside (R17, R502). -/
def throughUnit1 (body : List Byte) (x : Lane) : Lane := { x with cvu := tabSet CvUnit.fresh x.cvu 1 (cvuOn 2 body none) }

/-- A lane forms and sends a frame of a type to both other lanes at station time `t` of its own; the state keeps its bytes (R101, R102,
R502). -/
def sendXAt (t : Nat) (m : Mod) (l : LaneId) (type : Nat) (payload : List Byte) (x : Lane) : Lane :=
  let f : XFrame := { type := type, sender := laneNo l, mode := BitVec.ofNat 8 (modeCode (mode m)), flags := xFlags m, scn := scnOf t,
                      stime := t, payload := payload }
  throughUnit1 f.body { x with sent := tabPut x.sent type f.bytes }

/-- A frame that leaves when something happens, bound to no phase. -/
def sendXNow (m : Mod) (l : LaneId) (type : Nat) (payload : List Byte) (x : Lane) : Lane := sendXAt x.time m l type payload x

/-- A frame of the step being taken: each lane fires it when its own station time reaches the phase, so that is the time the frame carries;
late, the lane's own time (R71, R72). -/
def sendX (m : Mod) (l : LaneId) (type : Nat) (payload : List Byte) (x : Lane) : Lane :=
  sendXAt (m.md.stepAt.getD x.time) m l type payload x

/-! ## Rings in host memory (R420-R431) -/

def ringOf (m : Mod) (i : Nat) : Ring := tabGet Ring.fresh m.host.rings i
def setRing (i : Nat) (r : Ring) (m : Mod) : Mod := updHost (fun h => { h with rings := tabSet Ring.fresh h.rings i r }) m
def updRing (i : Nat) (f : Ring → Ring) (m : Mod) : Mod := setRing i (f (ringOf m i)) m
def ringSize (r : Ring) : Nat := 2 ^ r.log2n

/-- The front end is lost, as the lanes agree it: remote stations and nodes are dropped out, and the host path is gone (R21). -/
def feGone (m : Mod) : Bool := agreedBy m (·.feLost)

/-- Ring processing runs: RUN set, host ring memory valid, and the front end there (R21, R40, R41). -/
def ledgerUp (m : Mod) : Bool := m.host.run && m.host.valid && !feGone m

/-- A ring can take an entry: enabled, not faulted, and with space (R428, R429). -/
def ringRoom (m : Mod) (i : Nat) : Bool :=
  let r := ringOf m i
  ledgerUp m && r.en && !r.fault && decide (diff32 r.count r.ack < ringSize r)

/-- The phase bit of entry `n` (R429). -/
def phaseBit (r : Ring) : Bool := (r.count.toNat / ringSize r) % 2 == 0

/-- Write an entry into the slot of entry `count`, in host memory one write of its bytes (R424, R429). -/
def putSlot (i : Nat) (mk : Bool → RingEntry) (m : Mod) : Mod :=
  let r := ringOf m i
  let slot := r.count.toNat % ringSize r
  let e := mk (phaseBit r)
  setRing i { r with count := r.count + 1 }
    (updHost (fun h => { h with slots := tabPut h.slots (i * 4096 + slot) e,
                                mem := memWrite h.mem (addrOf r.basel r.baseh + slot * entrySize i) (slotBytes e) }) m)

/-- Entries were written to a ring that names the vector: its message is due; a masked vector sets its PBA bit (R431). -/
def fireVector (v : Nat) (m : Mod) : Mod :=
  let x := tabGet Vector32.fresh m.host.vecs v
  updHost (fun h => { h with vecs := tabSet Vector32.fresh h.vecs v (if x.masked then { x with pba := true } else { x with due := true }) }) m

/-- The clock of the rate limit: station time, and operating time before it is taken (R431). -/
def hostTime (m : Mod) : Nat := if m.tm.taken then now m else m.clk

/-- A due message leaves once 1,000 µs of station time have passed since the vector's last one (R431): a memory write of the table entry's
data to its address. -/
def sendVector (t : Nat) (x : Vector32) : Vector32 :=
  if x.due && !x.masked && (x.lastAt.all (fun s => decide (s + 1000000 ≤ t))) then
    { x with due := false, lastAt := some t, sent := x.sent + 1 }
  else x

/-- After the entries of a batch, which a command's work is, the messages due leave (R431). Where the limit of one message in 1,000 µs and the
100 µs from the last entry cannot both be kept, the message waits: DESIGN CHOICE (log entry 64). -/
def fireDue (m : Mod) : Mod :=
  if m.host.vecs.isEmpty then m
  else updHost (fun h => { h with vecs := tabMap Vector32.fresh (sendVector (hostTime m)) h.vecs }) m

/-- Write an entry and name its ring's vector. -/
def ringWrite (i : Nat) (mk : Bool → RingEntry) (m : Mod) : Mod :=
  fireVector (ringOf m i).target (putSlot i mk m)

/-! ## Recorder acceptance (R507-R511) -/

/-- Codes whose tables mark them privileged (R80, R121, R159, R205, R245, R291, R338, R377, R409, R454, R485, R523, R553,
R575, R605). -/
def isPrivileged (code : Nat) : Bool :=
  decide (code ∈ [0x00, 0x01, 0x02, 0x03, 0x04, 0x06, 0x07, 0x08, 0x09, 0x0B, 0x0E, 0x0F, 0x10, 0x11, 0x12]) ||
  decide (code ∈ [0x14, 0x17, 0x18, 0x19, 0x1A, 0x1B, 0x1D, 0x1F, 0x20, 0x21, 0x22, 0x23, 0x26, 0x2C, 0x2D]) ||
  decide (code ∈ [0x30, 0x32, 0x34, 0x35, 0x36, 0x37, 0x3B, 0x40, 0x45, 0x46, 0x48, 0x49]) ||
  decide (code ∈ [0x62, 0x63, 0x64, 0x65, 0x66, 0x67, 0x6C, 0x6D, 0x6F, 0x70, 0x81, 0x82, 0x8D, 0x8F]) ||
  decide (code ∈ [0xA3, 0xA4, 0xA6, 0xA7, 0xA8, 0xA9, 0xC1, 0xC3, 0xC6, 0xCA, 0xCB]) ||
  decide (code ∈ [0xD1, 0xD2, 0xD3, 0xD4, 0xD5, 0xD6, 0xD8, 0xD9, 0xDB]) ||
  (decide (0xE0 ≤ code) && decide (code ≤ 0xE6)) || decide (code ∈ [0xE8, 0xE9, 0xEB, 0xEE, 0xEF]) ||
  (decide (0xF0 ≤ code) && decide (code ≤ 0xFE))

/-- The recorder has a place: non-privileged records may not use the last 1,024 (R511). -/
def recRoom (priv : Bool) (m : Mod) : Bool :=
  decide (m.rcd.dirty.length < if priv then m.rcd.ceil else m.rcd.ceil - 1024)

/-- Accept or drop one record, giving it the next RSEQ of its source (R510, R511); while the source has a run of drops that no loss record
covers yet, the record joins it. Nothing is accepted once the power-fail
flush has begun (R512) or the recorder is unusable (R514). -/
def recAccept (kind src code : Nat) (priv : Bool) (scnAt : Nat) (body : List Byte) (m : Mod) : Mod :=
  if m.rcd.stopped || m.rcd.unusable then m
  else
    let seq := tabGet 0 m.rcd.seq src
    let seqs := tabSet 0 m.rcd.seq src (seq + 1)
    if recRoom priv m && (tabFind m.rcd.drops src).isNone then
      let r : Record :=
        { kind := kind, src := src, code := code, privileged := priv, podium := false, rseq := seq, scn := scnAt,
          opsec := if priv then satN 0xFFFFFFFF (m.clk / 1000000000) else 0, pcyc := if priv then m.nv.store.pcyc else 0, body := body }
      updRcd (fun d => { d with seq := seqs, dirty := d.dirty ++ [{ record := r, at_ := m.clk }], acceptedN := d.acceptedN + 1 }) m
    else
      let run := match tabFind m.rcd.drops src with
        | some (first, n) => (first, n + 1)
        | none => (seq, 1)
      updRcd (fun d => { d with seq := seqs, drops := tabPut d.drops src run, droppedN := d.droppedN + 1 }) m

/-- BODY of an event record (R508). -/
def eventBody (a0 a1 a2 : Nat) : List Byte := bytesLE 4 a0 ++ bytesLE 4 a1 ++ bytesLE 4 a2

/-- BODY of a loss record: source, reason, first lost RSEQ, number lost (R508). -/
def lossBody (src reason : Nat) (first : W32) (n : Nat) : List Byte :=
  bytesLE 1 src ++ bytesLE 1 reason ++ bytesLE 2 0 ++ bytesLE 4 first.toNat ++ bytesLE 4 n

/-! ## Events (R44, R444-R447) -/

/-- ARG0 of an event that names no object. -/
def noArg : Nat := 0xFFFFFFFF

/-- The EQ an event code is routed to, when the code is enabled and the ring can be produced for (R446). -/
def eqOf (m : Mod) (code : Nat) : Option Nat :=
  let b := (tabGet 0x80 m.host.route code).toNat
  let eq := b % 16
  if bitOf b 7 && ledgerUp m && (ringOf m (64 + eq)).en then some eq else none

/-- The event FIFO takes an item; full, it overwrites its oldest and counts the loss for that item's EQ (R44, R447). -/
def fifoPush (q : QEvent) (m : Mod) : Mod :=
  match m.host.fifo with
  | old :: rest =>
    if m.host.fifo.length < 1024 then updHost (fun h => { h with fifo := h.fifo ++ [q] }) m
    else
      let run := match tabFind m.host.lossQ old.eq with
        | some (first, n) => (first, n + 1)
        | none => (old.eseq, 1)
      updRing (64 + old.eq) (fun r => { r with aux := r.aux + 1 })
        (updHost (fun h => { h with fifo := rest ++ [q], evp := h.evp + 1, evl := h.evl + 1, lossQ := tabPut h.lossQ old.eq run }) m)
  | [] => updHost (fun h => { h with fifo := [q] }) m

/-- Write a queued event to its ring. -/
def writeEvent (q : QEvent) (m : Mod) : Mod :=
  updHost (fun h => { h with evp := h.evp + 1, evd := h.evd + 1 }) (ringWrite (64 + q.eq) (fun ph => .event q.ev q.eseq ph) m)

/-- Produce an event for its ring: written at once when the ring has space and nothing waits for it, else queued (R446, R447). -/
def produce (e : Event) (m : Mod) : Mod :=
  match eqOf m e.code with
  | none => m
  | some eq =>
    let r := ringOf m (64 + eq)
    let q : QEvent := { eq := eq, ev := e, eseq := r.seq }
    let m1 := setRing (64 + eq) { r with seq := r.seq + 1 } m
    if ringRoom m1 (64 + eq) && !(m1.host.fifo.any (fun x => x.eq == eq)) && (tabFind m1.host.lossQ eq).isNone then writeEvent q m1
    else fifoPush q m1

/-- The event's record and its way to the host: agreed events (SRC 0) wait for phase 16,000 (R445); in HALT and RECOVERY
there is no vote to wait for. -/
def raiseRaw (e : Event) (m : Mod) : Mod :=
  let m1 := recAccept 0 e.src e.code e.privileged e.scn (eventBody e.arg0 e.arg1 e.arg2) m
  if e.src = 0 ∧ operating m then updHost (fun h => { h with evWait := h.evWait ++ [e] }) m1 else produce e m1

/-- One loss record, reason 1, covers a run of drops of a source (R511). -/
def writeLoss (src : Nat) (run : W32 × Nat) (m : Mod) : Mod :=
  recAccept 2 8 0 true (scn m) (lossBody src 1 run.1 run.2)
    (updRcd (fun d => { d with drops := tabDel d.drops src, lossN := satN 0xFFFFFFFF (d.lossN + 1) }) m)

/-- Event 0xE8 for the loss record of a run (R511). -/
def tellLoss (src : Nat) (run : W32 × Nat) (m : Mod) : Mod :=
  if (tabFind m.rcd.drops src).isSome then m
  else raiseRaw { code := 0xE8, src := 4, privileged := true, scn := scn m, arg0 := src, arg1 := 1, arg2 := run.2 } m

/-- Places free for `n` loss records with their events and the record that follows, of privilege `priv`: a run of drops is closed only where
the next record is not dropped again, so that one gap has one loss record (R511). -/
def roomAfter (n : Nat) (priv : Bool) (m : Mod) : Bool :=
  decide (m.rcd.dirty.length + 2 * n < if priv then m.rcd.ceil else m.rcd.ceil - 1024)

/-- Before a further record of a source with a run of drops is accepted, its loss record is written and event 0xE8 raised; the loss record
is the recorder's and the event the front end's, so runs of sources 8 and 4 close before it (R511). `priv`: the record that follows. -/
def closeRun (priv : Bool) (src : Nat) (m : Mod) : Mod :=
  match tabFind m.rcd.drops src with
  | none => m
  | some run =>
    let more := ([8, 4].filter (· != src)).filterMap (fun s => (tabFind m.rcd.drops s).map (fun r => (s, r)))
    let runs := more ++ [(src, run)]
    if m.rcd.stopped || m.rcd.unusable || !roomAfter runs.length priv m then m
    else forEach runs (fun p => tellLoss p.1 p.2) (forEach runs (fun p => writeLoss p.1 p.2) m)

/-- What an event carries beside its code: SRC and ARG0 to ARG2 (R444). -/
structure EvArgs where
  src : Nat := 0
  arg0 : Nat := noArg
  arg1 : Nat := 0
  arg2 : Nat := 0

/-- Raise an event. SRC 0 events are formed from agreed state and need two running lanes while the module votes (R435, R445,
R510). -/
def raise (code : Nat) (x : EvArgs) (m : Mod) : Mod :=
  if x.src == 0 && decide ((aliveLanes m).length < 2) && operating m then m
  else
    let e : Event :=
      { code := code, src := x.src, privileged := isPrivileged code, scn := scn m, arg0 := x.arg0, arg1 := x.arg1, arg2 := x.arg2 }
    raiseRaw e (closeRun e.privileged x.src m)

/-- SRC of a lane alone (R444). -/
def laneSrc (l : LaneId) : Nat := laneNo l + 1

/-- A lane's unit takes a computation to its end; a final value other than the one expected is event 0xEC with the unit's number, counted
(R499, R501). -/
def laneCvu (l : LaneId) (u : Nat) (x : CvUnit) (m : Mod) : Mod :=
  onlyIf x.mismatch (fun n => raise 0xEC { src := laneSrc l, arg0 := 4 * laneNo l + u, arg1 := x.poly }
      (updPc (fun p => { p with mism := satN 0xFFFF (p.mism + 1) }) n))
    (updLane l (fun y => { y with cvu := tabSet CvUnit.fresh y.cvu u x }) m)

/-- Drain one event ring from the FIFO: a loss entry first, which is event 0xC4 and as such recorded, then events while there is space (R445,
R447, R454). -/
def drainRing : Nat → Nat → Mod → Mod
  | 0, _, m => m
  | fuel + 1, eq, m =>
    if !ringRoom m (64 + eq) then m
    else
      match tabFind m.host.lossQ eq with
      | some (first, n) =>
        let e : Event := { code := 0xC4, src := 4, privileged := isPrivileged 0xC4, scn := scn m, arg0 := n, arg1 := 0, arg2 := 0 }
        let m1 := ringWrite (64 + eq) (fun ph => .event e first ph) m
        let m2 := recAccept 0 e.src e.code e.privileged e.scn (eventBody e.arg0 e.arg1 e.arg2) (closeRun e.privileged 4 m1)
        drainRing fuel eq (updHost (fun h => { h with lossQ := tabDel h.lossQ eq }) m2)
      | none =>
        match m.host.fifo.find? (fun q => q.eq == eq) with
        | none => m
        | some q => drainRing fuel eq (writeEvent q (updHost (fun h => { h with fifo := h.fifo.erase q }) m))

/-! ## Completions (R435-R438) -/

def cplOf (opc : Nat) (tag : W32) (code detail : Nat) : Cpl :=
  { tag := tag, opc := opc, code := code, detail := detail, result := [], flags := 0 }

/-- Take a submission off the list of those accepted and not completed. -/
def closeAccepted (a : Accepted) (m : Mod) : Mod := updHost (fun h => { h with open_ := h.open_.erase a }) m

/-- Ring number of the CQ that PRCFG.ADOPTCQ names (R481). -/
def adoptCq (m : Mod) : Nat := fieldOf m.cfg.prcfg.toNat 24 5 + 32

/-- A completion has been written: its submission leaves the order of acceptance (R435). -/
def outOfOrder (src : SubSrc) (c : Cpl) (m : Mod) : Mod :=
  updHost (fun h => { h with order := h.order.erase { src := src, opc := c.opc, tag := c.tag } }) m

/-- A completion waits: its CQ has no slot the host has acknowledged, or is faulted (R43, R428, R429). -/
def waitCpl (src : SubSrc) (c : Cpl) (m : Mod) : Mod := updHost (fun h => { h with cplWait := h.cplWait ++ [(src, c)] }) m

/-- The completion of a host CAN FD frame is entry `n` of its CQ; the buffer is the ZL3's until that entry is acknowledged (R397). -/
def noteCanCpl (sq : Nat) (c : Cpl) (n : W32) (m : Mod) : Mod :=
  if c.opc ≠ 0xB0 then m
  else
    let mark (h : HostTx) : HostTx := if h.state = 3 ∧ h.sq = sq ∧ h.tag = c.tag ∧ h.cplAt.isNone then { h with cplAt := some n } else h
    updCan (fun x => { x with chans := x.chans.map (fun k => { k with host := tabMap HostTx.fresh mark k.host }) }) m

/-- The front end writes a completion into the CQ its submission ring names (R421, R435), where that ring has room, else it waits (R428,
R429, R430). Completions of LEAD's submissions are not SHADOW's to write; a module that has taken the lead writes them to the adoption CQ with PH[1] set, counted in PRADOPT (R468). -/
def writeCpl (src : SubSrc) (c : Cpl) (m : Mod) : Mod :=
  match src with
  | .service => updHost (fun h => { h with svcOut := c :: h.svcOut }) (outOfOrder src c m)
  | .lead _ =>
    if m.pr.role = 2 ∨ !ledgerUp m then outOfOrder src c m
    else if !ringRoom m (adoptCq m) then waitCpl src c m
    else
      updPr (fun p => { p with adoptN := p.adoptN + 1 })
        (ringWrite (adoptCq m) (fun ph => .completion { c with flags := c.flags ||| 2 } ph) (outOfOrder src c m))
  | .ring sq =>
    let cq := (ringOf m sq.val).target % 32 + 32
    if !ledgerUp m then m
    else if !ringRoom m cq then waitCpl src c m
    else
      noteCanCpl sq.val c (ringOf m cq).count <| updRing sq.val (fun r => { r with aux := r.aux - 1, open_ := r.open_ - 1 })
        (updHost (fun h => { h with cmp := h.cmp + 1 }) (ringWrite cq (fun ph => .completion c ph) (outOfOrder src c m)))

/-- What a completion answers. -/
def answered (p : SubSrc × Cpl) : Accepted := { src := p.1, opc := p.2.opc, tag := p.2.tag }

/-- Opcodes whose completions the front end forms and writes alone, within 1 ms of the outcome (R435). -/
def feOnly (opc : Nat) : Bool := opc == 0x80 || opc == 0xB0 || opc == 0xB1 || opc == 0xC0

/-- An interlocking-ring submission of an outgoing module's host stays outstanding until its HALT: the outcome is the new LEAD's to write
(R468). -/
def leftToNewLead (m : Mod) (a : Accepted) : Bool :=
  m.pr.outgoing && (match a.src with
    | .ring q => !(ringOf m q.val).cls
    | .service | .lead _ => false)

/-- An outcome is reached: the completion waits for phase 16,000 with those of its cycle, but for what the front end writes alone (R435). A
submission that a host interface reset has taken out of the Ledger completes nowhere (R41, R414). -/
def completeWith (a : Accepted) (c : Cpl) (m : Mod) : Mod :=
  if a ∈ m.host.open_ ∧ !leftToNewLead m a then
    if feOnly a.opc then writeCpl a.src c (closeAccepted a m)
    else updHost (fun h => { h with cplWait := h.cplWait ++ [(a.src, c)] }) (closeAccepted a m)
  else m

def complete (a : Accepted) (code detail : Nat) (m : Mod) : Mod :=
  completeWith a (cplOf a.opc a.tag code detail) m

/-- A completion that the front end forms and writes alone (R398, R435). -/
def completeNow (a : Accepted) (code detail : Nat) (m : Mod) : Mod :=
  if a ∈ m.host.open_ ∧ !leftToNewLead m a then writeCpl a.src (cplOf a.opc a.tag code detail) (closeAccepted a m) else m

/-- The accepted submission of an entry. -/
def acceptedOf (s : Submission) (opc : Nat) : Accepted := { src := s.src, opc := opc, tag := s.tag }

/-- A completion's place in the order of acceptance (R435). -/
def placeOf (m : Mod) (p : SubSrc × Cpl) : Nat := m.host.order.idxOf (answered p)

/-- Byte-identical copies of a completion come from two distinct lanes: while the module votes, two lanes of the final voting set offer it
(R435). -/
def twoCopies (m : Mod) : Bool := !operating m || decide (2 ≤ (aliveLanes m).length)

/-- Write the completions that wait, in order of acceptance; a full or faulted CQ keeps its work waiting (R43, R428, R435). -/
def flushCpls (m : Mod) : Mod :=
  let todo := sortBy (fun p q => decide (placeOf m p ≤ placeOf m q)) m.host.cplWait
  let go (p : SubSrc × Cpl) (acc : Mod) : Mod :=
    match p.1 with
    | .service => if feGone acc then waitCpl p.1 p.2 acc else writeCpl p.1 p.2 acc
    | .lead _ => if acc.pr.role = 2 then acc else if ledgerUp acc && twoCopies acc then writeCpl p.1 p.2 acc else waitCpl p.1 p.2 acc
    | .ring _ => if ledgerUp acc && twoCopies acc then writeCpl p.1 p.2 acc else waitCpl p.1 p.2 acc
  forEach todo go (updHost (fun h => { h with cplWait := [] }) m)

/-- Those the front end writes alone that found no room are written as soon as a poll finds it. -/
def flushAlone (m : Mod) : Mod :=
  let todo := m.host.cplWait.filter (fun p => feOnly p.2.opc && ofOwnRing p.1)
  forEach todo (fun p acc => if ledgerUp acc then writeCpl p.1 p.2 acc else waitCpl p.1 p.2 acc)
    (updHost (fun h => { h with cplWait := h.cplWait.filter (fun p => !(feOnly p.2.opc && ofOwnRing p.1)) }) m)
where
  /-- It came through a ring of this module's host. -/
  ofOwnRing : SubSrc → Bool
    | .ring _ => true
    | .service | .lead _ => false

/-- Produce the agreed events that wait. -/
def flushEvents (m : Mod) : Mod :=
  forEach m.host.evWait produce (updHost (fun h => { h with evWait := [] }) m)

/-! ## The step's lift -/

/-- A command on a powered module: an unpowered module does nothing. The MSI-X messages of what was written leave after it (R431). -/
def State.run (f : Mod → Mod) (s : State) : Host.Outcome State Fault Refusal :=
  .next { s with m := if s.m.powered then fireDue (f s.m) else s.m }

end Sys2Proof.Machine
end

