-- ==== Sys2Proof/Machine/Recorder.lean ====
section
/-! DEFINITION. The recorder, roll call, performance counter settings, check-value units and diagnostic FIFOs
(R486-R523). -/

namespace Sys2Proof.Machine

/-! ## The store (R506-R514) -/

/-- Records of the Podium and of the Lap (R506). -/
def podiumSize : Nat := 1048576
def lapSize : Nat := 133169152

/-- A record as 64 bytes (R507). -/
def recordBytes (r : Record) : List Byte :=
  let h := bytesLE 1 r.kind ++ bytesLE 1 r.src ++ bytesLE 1 r.code ++ bytesLE 1 (b2n r.privileged + 2 * b2n r.podium) ++
    bytesLE 4 r.rseq.toNat ++ bytesLE 8 r.scn ++ bytesLE 4 r.opsec ++ bytesLE 4 r.pcyc ++ cut r.body 0 32
  h ++ bytesLE 8 (crc64 h).toNat

/-- Write one record to the store: to the Podium once FIELD has been entered and while it has room, else to the Lap, over the
Lap's oldest record when the Lap is full (R506). -/
def storeRecord (r : Record) (m : Mod) : Mod :=
  let st := m.nv.store
  let pod := st.field && decide (st.podiumN < podiumSize)
  let recs := tabPut st.recs st.next { r with podium := pod }
  let full := decide (lapSize < recs.length - (st.podiumN + b2n pod))
  let recs' := if full then
      match recs.find? (fun e => !e.2.podium) with
      | some e => tabDel recs e.1
      | none => recs
    else recs
  let full := pod && decide (st.podiumN + 1 = podiumSize) && !st.podFull
  let st' : RecStore :=
    { st with recs := recs', next := st.next + 1, podiumN := st.podiumN + b2n pod, podFull := st.podFull || full,
              foundSeq := tabPut st.foundSeq r.src (r.rseq + 1) }
  onlyIf full (raise 0xEF { src := 4 }) (updNv (fun n => { n with store := st' }) m)

/-- Every dirty record to flash (R512). -/
def flushDirty (m : Mod) : Mod :=
  if m.rcd.unusable || m.nv.store.broken then m
  else forEach (m.rcd.dirty.map (·.record)) storeRecord (updRcd (fun d => { d with dirty := [] }) m)

/-- A loss record of source 8 and its event (R508, R511, R513, R514). -/
def lossRecord (src reason : Nat) (first : W32) (n : Nat) (m : Mod) : Mod :=
  let m1 := recAccept 2 8 0 true (scn m) (lossBody src reason first n) m
  raise 0xE8 { src := 4, arg0 := src, arg1 := reason, arg2 := n }
    (updRcd (fun d => { d with lossN := satN 0xFFFFFFFF (d.lossN + 1) }) m1)

/-- The store can no longer be written (R514). -/
def recorderFails (m : Mod) : Mod :=
  if m.rcd.unusable then m
  else
    let src := (m.rcd.dirty.head?.map (·.record.src)).getD 8
    let lost := m.rcd.dirty.filter (fun d => d.record.src == src)
    let first := (lost.head?.map (·.record.rseq)).getD (tabGet 0 m.rcd.seq src)
    let m1 := raise 0xE9 { src := 4 } m
    let m2 := lossRecord src 4 first lost.length m1
    updRcd (fun d => { d with unusable := true, unusTold := true }) (updNv (fun n => { n with store := { n.store with broken := true } }) m2)

/-- VARIANT of HIFID: 0x41 for the ZL3-4096-A, 0x43 for the ZL3-4096-C (R1, R416). -/
def variantCode : Nat := if Config.variantC then 0x43 else 0x41

/-- The device identity that a start records, beside the recorder's records: R508 gives the opening record no bytes for it (R2, R577;
log entry 52). -/
def startId (geo : BitVec 4) (m : Mod) : StartId := { variant := variantCode, identity := m.nv.sec.identity, geo := geo }

/-- START step 1 (R509, R510, R513): the power-cycle count, numbering, the opening record and the loss records found. `powerOn`
is a START that follows a return of the logic supply. -/
def openRecorder (powerOn : Bool) (geo : BitVec 4) (m : Mod) : Mod :=
  let st := m.nv.store
  let seqOf (s : Nat) : W32 := if st.closed then tabGet 0 st.nextSeq s else tabGet 0 st.foundSeq s
  let seqs := (List.range 9).foldl (fun t s => tabSet 0 t s (seqOf s)) []
  let m1 := updRcd (fun d => { d with seq := seqs })
    (updNv (fun n => { n with store := { n.store with closed := false, pcyc := n.store.pcyc + b2n powerOn,
                                                      starts := startId geo m :: n.store.starts } }) m)
  let m2 := recAccept 4 8 0 true 0 (bytesLE 1 (b2n (!powerOn))) m1
  let check (s : Nat) (acc : Mod) : Mod :=
    let found : W32 := tabGet 0 st.foundSeq s
    if st.closed then
      let short := diff32 (seqOf s) found
      if 0 < short ∧ short < 2 ^ 31 then lossRecord s 2 found short acc else acc
    else lossRecord s 3 found 0 acc
  if st.recs.isEmpty && st.closed then m2 else forEach (List.range 9) check m2

/-- RECORD_ACCEPT: a record is offered (R510, R511). Records of SRC 0 and 7 are formed from agreed state and need two lanes. -/
def offerRecord (r : RecIn) (m : Mod) : Mod :=
  if (r.src = 0 ∨ r.src = 7) ∧ (aliveLanes m).length < 2 then m
  else
    let priv := r.privileged || decide (2 ≤ r.kind)
    recAccept r.kind r.src (if r.kind = 0 then r.code else 0) priv r.scn r.body (closeRun priv r.src m)

def execRecordAccept (record : RecIn) (s : State) : Host.Outcome State Fault Refusal := s.run (offerRecord record)

/-- LOSS_RECORD: the run of drops of a source is closed when room has returned for a record of any kind after it (R511). -/
def execLossRecord (src : Fin 9) (s : State) : Host.Outcome State Fault Refusal := s.run (closeRun false src.val)

/-- The moment the dirty records are due (R512): now for 2,048 records, a privileged record, HALT or a low logic input; else
when the oldest is 1 s old. -/
def flushAt (m : Mod) : Nat :=
  match m.rcd.dirty with
  | [] => m.clk
  | d :: _ =>
    if decide (2048 ≤ m.rcd.dirty.length) || m.rcd.dirty.any (·.record.privileged) || inHalt m || m.pw.pace == 2 then m.clk
    else max m.clk (d.at_ + 1000000000)

/-- Front-end units of a use: those of the pair that BIST left usable, else the remaining ones (R130, R502). -/
def feUnits (m : Mod) (first : Nat) : List Nat :=
  let ok (u : Nat) : Bool := !bitOf m.md.bist (8 + u)
  let own := [first, first + 1].filter ok
  if own.isEmpty then [12, 13, 14, 15].filter ok else own

/-- One of the units of a use takes the work; which of them is open. -/
def feUnit (first : Nat) (m : Mod) : Option Nat × Mod :=
  let (v, m1) := takeFree m
  let us := feUnits m first
  (us[v.toNat % us.length]?, m1)

/-- A unit of the front end is left with a computation. -/
def leaveCvu (u : Option Nat) (x : CvUnit) (m : Mod) : Mod :=
  match u with
  | none => m
  | some n => updPc (fun p => { p with cvu := tabSet CvUnit.fresh p.cvu n x }) m

/-- A front-end unit takes a computation to its end; a final value other than the one expected is event 0xEC, counted (R501). -/
def feCvu (first : Nat) (x : CvUnit) (m : Mod) : Mod :=
  let (u, m1) := feUnit first m
  onlyIf (x.mismatch && u.isSome) (fun n => raise 0xEC { src := 4, arg0 := u.getD 0, arg1 := x.poly }
      (updPc (fun p => { p with mism := satN 0xFFFF (p.mism + 1) }) n))
    (leaveCvu u x m1)

/-- A record as read back from flash, through units 12 and 13 with its CRC expected (R501, R502, R512): as written, or (`bad`) something
whose running value is open and does not fit that CRC. A page that fails is written again elsewhere. -/
def readBack (bad : Bool) (d : Dirty) (m : Mod) : Mod :=
  let bs := recordBytes d.record
  let good := cvuOn 2 (bs.take 56) (some (BitVec.ofNat 64 (readLE bs 56 8)))
  if bad then
    let (v, m1) := takeFree m
    feCvu 12 { good with run := if v = good.run then ~~~good.run else v } m1
  else feCvu 12 good m

/-- The records written are read back; of the `bad` first ones the read-back fails. -/
def checkPages (bad : Nat) (ds : List Dirty) (m : Mod) : Mod :=
  forEach ((List.range ds.length).zip ds) (fun p => readBack (decide (p.1 < bad)) p.2) m

/-- Every dirty record to flash and read back; how many fail is open (R512). -/
def flushRead (m : Mod) : Mod :=
  if m.rcd.dirty.isEmpty || m.rcd.unusable || m.nv.store.broken then m
  else
    let (v, m1) := takeFree m
    checkPages (v.toNat % (m.rcd.dirty.length + 1)) m.rcd.dirty (flushDirty m1)

/-- RECORDER_FLUSH: dirty records are written and read back (R501, R506, R512, R514). -/
def doFlush (writable : Bool) (mismatches : Nat) (m : Mod) : Mod :=
  if m.rcd.dirty.isEmpty then m
  else
    let m1 := passClk (flushAt m) m
    if !writable then recorderFails m1
    else checkPages mismatches m1.rcd.dirty (flushDirty m1)

def execRecorderFlush (writable : Bool) (mismatches : Nat) (s : State) : Host.Outcome State Fault Refusal :=
  s.run (doFlush writable mismatches)

/-- The power-fail flush (R46, R512): nothing further is accepted, every dirty record and a closing record are written. -/
def powerFailFlush (m : Mod) : Mod :=
  if m.rcd.stopped || m.rcd.unusable then updRcd (fun d => { d with stopped := true }) m
  else
    let m1 := flushRead m
    let nexts := (List.range 8).map (fun s => tabGet 0 m1.rcd.seq s)
    let own := tabGet 0 m1.rcd.seq 8
    let m2 := flushRead (recAccept 3 8 0 true (scn m1) (nexts.flatMap (fun w => bytesLE 4 w.toNat)) m1)
    let st (s : RecStore) : RecStore :=
      { s with closed := true, nextSeq := (((List.range 8).zip nexts).foldl (fun t p => tabPut t p.1 p.2) []) ++ [(8, own + 1)] }
    updRcd (fun d => { d with stopped := true }) (updNv (fun n => { n with store := st n.store }) m2)

/-! ## Reading (R515, R516) -/

/-- The entry that ends a read. -/
def endEntry (r : RecRead) (reason : Nat) : RrEntry :=
  { record := cut (bytesLE 4 r.delivered ++ bytesLE 1 reason) 0 64, idx := 0, afl := 4, tag := r.tag }

/-- End the read of a ring with a reason; its end entry waits for space. -/
def endRead (ring reason : Nat) (m : Mod) : Mod :=
  match tabFind m.rcd.reads ring with
  | none => m
  | some r =>
    updRcd (fun d => { d with reads := tabDel d.reads ring, ends := tabPut d.ends ring (tabGet [] d.ends ring ++ [endEntry r reason]) }) m

/-- Records a read can see from an index on: those of the store, and in live mode those not yet flushed, with their index. -/
def readable (m : Mod) (r : RecRead) : List (Nat × Record × Bool) :=
  let st := (m.nv.store.recs.filter (fun e => decide (r.start ≤ e.1))).map (fun e => (e.1, e.2, false))
  let n := m.nv.store.next
  let dirty := if r.mode = 2 then
      (((List.range m.rcd.dirty.length).zip m.rcd.dirty).map (fun p => (n + p.1, p.2.record, true))).filter (fun e => decide (r.start ≤ e.1))
    else []
  st ++ dirty

/-- The read selects a record (R515). -/
def selects (r : RecRead) (x : Record) : Bool := bitOf r.mask x.src && (!r.privOnly || x.privileged)

/-- Deliver entries to a recorder read ring while it has space (R516). -/
def deliver : Nat → Nat → Mod → Mod
  | 0, _, m => m
  | fuel + 1, ring, m =>
    if !ringRoom m (80 + ring) then m
    else
      match tabGet [] m.rcd.ends ring with
      | e :: es =>
        deliver fuel ring (ringWrite (80 + ring) (fun ph => .record e ph) (updRcd (fun d => { d with ends := tabSet [] d.ends ring es }) m))
      | [] =>
        match tabFind m.rcd.reads ring with
        | none => m
        | some r =>
          if r.mode ≠ 2 ∧ r.left = 0 then deliver fuel ring (endRead ring 0 m)
          else
            match (readable m r).find? (fun e => selects r e.2.1) with
            | none => if r.mode = 2 then m else deliver fuel ring (endRead ring 3 m)
            | some (idx, rec, fresh) =>
              let e : RrEntry :=
                { record := recordBytes rec, idx := idx, afl := b2n rec.podium + 2 * b2n fresh + 8 * b2n r.moved, tag := r.tag }
              let r' := { r with start := idx + 1, left := r.left - 1, delivered := r.delivered + 1, moved := false }
              deliver fuel ring (ringWrite (80 + ring) (fun ph => .record e ph)
                (updRcd (fun d => { d with reads := tabPut d.reads ring r' }) m))

/-- RECORDER_READ_DELIVERY. A ring that is faulted ends its read with reason 4. -/
def doDelivery (ring : Nat) (m : Mod) : Mod :=
  if (ringOf m (80 + ring)).fault then endRead ring 4 m else deliver 8192 ring m

def execRecorderReadDelivery (ring : Fin 8) (s : State) : Host.Outcome State Fault Refusal := s.run (doDelivery ring.val)

/-- Opcode 0xE8: start a read (R515, R516, R522). Positions: ring, mode, mask, count. -/
def startRead (a : Accepted) (sub : Submission) (m : Mod) : Mod :=
  let o := sub.oper
  let ring := byteAt o 0
  let md := byteAt o 1
  let mask := readLE o 2 2
  let start := readLE o 8 8
  let count := readLE o 16 4
  if 7 < ring then complete a 0x07 1 m
  else if 2 < md then complete a 0x07 2 m
  else if mask = 0 then complete a 0x07 3 m
  else if md ≠ 2 ∧ count = 0 then complete a 0x07 4 m
  else
    let m1 := endRead ring 2 m
    let recs := m1.nv.store.recs
    let next := m1.nv.store.next
    let held (i : Nat) : Bool := (tabFind recs i).isSome
    let first (p : Nat × Record → Bool) : Nat := ((recs.find? p).map (·.1)).getD next
    let at_ := match md with
      | 0 =>
        if held start || decide (next ≤ start) then start
        else
          match recs.find? (fun e => !e.2.podium) with
          | some e => max start e.1
          | none => first (fun e => decide (start ≤ e.1))
      | 1 => first (fun e => decide (start ≤ e.2.scn))
      | _ => next + m1.rcd.dirty.length
    let r : RecRead :=
      { mode := md, mask := mask, privOnly := bitOf (byteAt o 4) 0, start := at_, left := count, delivered := 0, tag := sub.tag,
        moved := md == 0 && decide (at_ ≠ start) }
    complete a 0 0 (updRcd (fun d => { d with reads := tabPut d.reads ring r }) m1)

/-- Opcode 0xE9: stop a read (R515, R522). -/
def stopRead (a : Accepted) (sub : Submission) (m : Mod) : Mod :=
  let ring := byteAt sub.oper 0
  if 7 < ring then complete a 0x07 1 m
  else if (tabFind m.rcd.reads ring).isNone then complete a 0x07 2 m
  else complete a 0 0 (endRead ring 1 m)

/-! ## Diagnostic FIFOs (R503-R505, R517, R521) -/

/-- FPROD, FDELIV, FLOST of a FIFO; FIFO 0 shows the Ledger's counts (R504). -/
def fifoCounts (m : Mod) (f : Nat) : W32 × W32 × W32 :=
  if f = 0 then (m.host.evp, m.host.evd, m.host.evl)
  else
    let x := tabGet DiagFifo.fresh m.host.dfifo f
    (x.prod, x.deliv, x.lostN)

def dfifoOf (m : Mod) (f : Nat) : DiagFifo := tabGet DiagFifo.fresh m.host.dfifo f
def updDfifo (f : Nat) (g : DiagFifo → DiagFifo) (m : Mod) : Mod :=
  updHost (fun h => { h with dfifo := tabSet DiagFifo.fresh h.dfifo f (g (tabGet DiagFifo.fresh h.dfifo f)) }) m

/-- Items a FIFO holds when full: FIFO 0 1,024, the mirror FIFOs 64, the lane-port and partner FIFOs 256 (R503). -/
def fifoCap (f : Nat) : Nat := if f = 0 then 1024 else if f ≤ 8 then 64 else 256

/-- A FIFO takes an item; full, it overwrites its oldest and counts that as lost (R503); an item is produced once it has left, delivered or
lost, so that FPROD = FDELIV + FLOST at every instant (R504). Of a mirror FIFO the loss shows in LOST too (R452, R505). -/
def fifoTake (f : Nat) (item : FifoItem) (m : Mod) : Mod :=
  let x := dfifoOf m f
  if x.items.length < fifoCap f then updDfifo f (fun y => { y with items := y.items ++ [item] }) m
  else
    onlyIf (decide (1 ≤ f) && decide (f ≤ 8)) (updRing (88 + (f - 1)) (fun r => { r with aux := r.aux + 1, lost := r.lost + 1 }))
      (updDfifo f (fun y => { y with items := y.items.drop 1 ++ [item], prod := y.prod + 1, lostN := y.lostN + 1 }) m)

/-- The consumer takes the `n` oldest items. -/
def fifoGive (f n : Nat) (m : Mod) : Mod :=
  let k := min n (dfifoOf m f).items.length
  updDfifo f (fun y => { y with items := y.items.drop k, prod := y.prod + BitVec.ofNat 32 k, deliv := y.deliv + BitVec.ofNat 32 k }) m

/-- FPROD_READ: FPROD is returned, FDELIV and FLOST are latched (R517). -/
def readFprod (f : Nat) (m : Mod) : Mod :=
  let (p, d, l) := fifoCounts m f
  let x := tabGet DiagFifo.fresh m.host.dfifo f
  updHost (fun h => { h with readData := p, dfifo := tabSet DiagFifo.fresh h.dfifo f { x with latDeliv := d, latLost := l } }) m

def execFprodRead (f : Fin 13) (s : State) : Host.Outcome State Fault Refusal := s.run (readFprod f.val)

/-- Items a FIFO holds (R521). -/
def fifoFill (m : Mod) (f : Nat) : Nat := if f = 0 then m.host.fifo.length else (dfifoOf m f).items.length

/-- FIFO_POINTER_MISMATCH: the FIFO is reset, its items are counted lost, operation continues (R505). The loss entry of an
event ring then reports the events lost (R447). -/
def resetFifo (f : Nat) (m : Mod) : Mod :=
  let n := fifoFill m f
  let x := tabGet DiagFifo.fresh m.host.dfifo f
  let note (h : HostIf) (y : DiagFifo) : HostIf := { h with dfifo := tabSet DiagFifo.fresh h.dfifo f y }
  let y : DiagFifo := { x with resets := satN 0xFFFF (x.resets + 1) }
  let m1 :=
    if f = 0 then
      let drop (q : QEvent) (acc : Mod) : Mod :=
        let run := match tabFind acc.host.lossQ q.eq with
          | some (first, k) => (first, k + 1)
          | none => (q.eseq, 1)
        updRing (64 + q.eq) (fun r => { r with aux := r.aux + 1 })
          (updHost (fun h => { h with evp := h.evp + 1, evl := h.evl + 1, lossQ := tabPut h.lossQ q.eq run }) acc)
      updHost (fun h => note { h with fifo := [] } y) (forEach m.host.fifo drop m)
    else if f ≤ 8 then
      updRing (88 + (f - 1)) (fun r => { r with aux := r.aux + BitVec.ofNat 32 n, lost := r.lost + n })
        (updHost (fun h => note h { y with items := [], prod := x.prod + BitVec.ofNat 32 n, lostN := x.lostN + BitVec.ofNat 32 n }) m)
    else updHost (fun h => note h { y with items := [], prod := x.prod + BitVec.ofNat 32 n, lostN := x.lostN + BitVec.ofNat 32 n }) m
  raise 0xED { src := 4, arg0 := f } m1

def execFifoPointerMismatch (f : Fin 13) (s : State) : Host.Outcome State Fault Refusal := s.run (resetFifo f.val)

/-! ## Counter settings (R490, R520, R522) -/

/-- Every EVT code of the eight words is in the table of R487. -/
def pcWordOk (w : W32) : Bool := (List.range 4).all (fun i => decide (fieldOf w.toNat (8 * i) 6 ≤ 0x1A))

/-- Put a counter setting into force: a counter whose code, mode or CHAIN changes starts from zero (R490). -/
def applyPccfg (ws : List W32) (m : Mod) : Mod :=
  let cfg := ((List.range 8).zip ws).foldl (fun t p => tabSet 0 t p.1 p.2) m.pc.cfg
  let changed := (List.range 32).filter (fun n => pcByte cfg n != pcByte m.pc.cfg n)
  let zero (l : Lane) : Lane := { l with pcs := changed.foldl (fun t n => tabSet 0 t n 0) l.pcs }
  updPc (fun p => { p with cfg := cfg, waiting := none }) (updLanes (fun _ l => zero l) m)

/-- COUNTER_SETTING_APPLY: at phase 0 of the cycle after the freeze that accepted it (R490). -/
def doApplyCounters (m : Mod) : Mod :=
  match m.pc.waiting with
  | none => m
  | some (ws, s) => applyPccfg ws (passTo ((s + 1) * 20000000) m)

def execCounterSettingApply (s : State) : Host.Outcome State Fault Refusal := s.run doApplyCounters

/-- Opcode 0xEB (R490, R522). -/
def setCountersSub (a : Accepted) (sub : Submission) (m : Mod) : Mod :=
  let ws := (List.range 8).map (fun i => BitVec.ofNat 32 (readLE sub.oper (4 * i) 4))
  if ws.all pcWordOk then complete a 0 0 (updPc (fun p => { p with waiting := some (ws, scn m) }) m) else complete a 0x07 1 m

/-! ## Roll call (R491-R498) -/

/-- Rank of the module (STRCFG.RANK, R332). -/
def rankOf (m : Mod) : Nat := b2n (bitOf m.str.strcfg.toNat 0)

/-- Unit number in the section of R496. -/
def unitNo : RcUnit → Nat
  | .lane l => laneNo l
  | .frontEnd => 3
  | .ioController => 4
  | .station n => 4 + n
  | .node num => 516 + num

/-- Opcode 0xEA at the freeze of cycle A (R491): positions T too near, T too far, one pending, area. -/
def rollCallSub (a : Accepted) (sub : Submission) (m : Mod) : Mod :=
  let t := sub.nscn
  let area := readLE sub.oper 0 8
  let size := readLE sub.oper 8 4
  if t ≤ scn m then complete a 0x05 1 m
  else if t < scn m + 4 then complete a 0x05 0 m
  else if scn m + 3000 < t then complete a 0x07 2 m
  else if m.rc.state ≠ 0 then complete a 0x07 3 m
  else if area % 4096 ≠ 0 ∨ size < 0xC5000 then complete a 0x07 4 m
  else
    updRc (fun r => { RollCall.fresh with state := 1, target := t, annAt := scn m + 1, sub := some a, area := area, size := size, count := r.count }) m

/-- Header of the module's own blocks (R494, R495), little-endian. -/
def ownHead (t num of : Nat) : List Byte := bytesLE 4 t ++ bytesLE 1 num ++ bytesLE 1 of ++ bytesLE 2 0

/-- A lane's block `b` (R495). -/
def laneBlock (t : Nat) (l : Lane) (b : Nat) : List Byte :=
  let pc (n : Nat) : List Byte := bytesLE 6 (tabGet 0 l.pcLatch n).toNat
  let body := if b < 3 then (List.range 9).flatMap (fun i => pc (9 * b + i))
    else (List.range 5).flatMap (fun i => pc (27 + i)) ++ bytesLE 8 l.latchTime ++ bytesLE 1 l.step
  cut (ownHead t b 4 ++ body) 0 64

/-- The front end's block `b` (R495). -/
def feBlock (m : Mod) (t b : Nat) : List Byte :=
  let w (x : W32) : List Byte := bytesLE 4 x.toNat
  let ports (f : Tab W32) : List Byte := (List.range 8).flatMap (fun i => w (tabGet 0 f i))
  let cans (f : Tab W32) : List Byte := (List.range 4).flatMap (fun i => w (tabGet 0 f i))
  let body := match b with
    | 0 => ports m.pc.sentPort
    | 1 => ports m.pc.rcvdPort ++ cans m.pc.sentCan
    | _ => cans m.pc.rcvdCan ++ w m.pc.consumed ++ w m.host.evp ++ w m.rcd.acceptedN ++ w m.rcd.droppedN ++ w m.pc.fwdPartner ++
        w m.pc.rcvdPartner
  cut (ownHead t b 3 ++ body) 0 64

/-- The I/O controller's block (R495). -/
def ioBlock (m : Mod) (t : Nat) : List Byte :=
  cut (ownHead t 0 1 ++ [m.pc.pulses, m.pc.offPulses, m.pc.diags, m.pc.protects].flatMap (fun x => bytesLE 4 x.toNat)) 0 64

/-- RCSCN of gun and sync frames: the target from the cycle after acceptance until it comes (R317, R492). -/
def rcScn (m : Mod) : Nat := if m.rc.state = 1 ∧ m.rc.annAt ≤ scn m then m.rc.target else 0

/-- The unit table as it stands at the latch: who is configured, declared and latched (R492, R497): a station or node admitted
from the target cycle itself saw no announcement (R317). -/
def unitTable (m : Mod) : Tab RcEntry :=
  let e (kind decl : Nat) (lat : Bool) : RcEntry := { kind := kind, declared := min decl 16, latched := lat, blocks := [] }
  let lanes := allLanes.map (fun l => (laneNo l, e 0 4 (m.ln.get l).alive))
  let stns := m.net.stations.map (fun d =>
    let s := tabGet StationSt.fresh m.str.stations d.num
    (4 + d.num, e 3 s.blocks (s.adm && decide (s.admScn < m.rc.target))))
  let nodes := m.net.nodes.map (fun d =>
    let num := 64 * d.chan + d.addr
    let s := tabGet NodeSt.fresh m.can.nodes num
    (516 + num, e 4 s.blocks (s.adm && decide (s.admScn < m.rc.target))))
  let all : List (Nat × RcEntry) := lanes ++ [(3, e 1 3 true), (4, e 2 1 true)] ++ stns ++ nodes
  all.foldl (fun t p => tabPut t p.1 p.2) []

/-- Time passes until lane `l`'s own station time has reached `t`: what its slew leaves short after one pass is at most a ten-thousandth of
it (R60), so that `fuel` 6 spans every 64-bit time. -/
def passOwn : Nat → Nat → LaneId → Mod → Mod
  | 0, _, _, m => m
  | fuel + 1, t, l, m =>
    if t ≤ (m.ln.get l).time then m else passOwn fuel t l (passTime (t - (m.ln.get l).time) m)

/-- A lane latches its counters when its own station time reaches `t` (R492). -/
def latchLane (t : Nat) (l : LaneId) (m : Mod) : Mod :=
  updLane l (fun x => { x with pcLatch := x.pcs, latchTime := x.time }) (passOwn 6 t l m)

/-- ROLL_CALL_LATCH: at phase 0 of T every unit latches its counts, each lane on its own station time, the foremost first (R492). -/
def doLatch (m : Mod) : Mod :=
  if m.rc.state ≠ 1 then m
  else
    let t := m.rc.target
    let m2 := forEach (sortBy (fun x y => decide ((m.ln.get y).time ≤ (m.ln.get x).time)) (aliveLanes m)) (latchLane (t * 20000000)) m
    let own : Tab (List Byte) :=
      (allLanes.flatMap (fun l => (List.range 4).map (fun b => (16 * laneNo l + b, laneBlock t (m2.ln.get l) b)))) ++
      ((List.range 3).map (fun b => (48 + b, feBlock m2 t b))) ++ [(64, ioBlock m2 t)]
    updRc (fun r => { r with state := 2, units := unitTable m2, own := own }) m2

def execRollCallLatch (s : State) : Host.Outcome State Fault Refusal := s.run doLatch

/-- A block arrives (R493, R494): of another T, after the close, or of a unit that did not latch, it is late. The module's own units deliver
the blocks they formed at the latch. -/
def takeBlock (unit : RcUnit) (b : Nat) (bytes : List Byte) (m : Mod) : Mod :=
  let u := unitNo unit
  let late := updRc (fun r => { r with late := r.late + 1 }) m
  let (data, good) :=
    match unit with
    | .station _ | .node _ => (cut bytes 0 64, readBE bytes 0 4 == m.rc.target % 2 ^ 32)
    | _ => (tabGet [] m.rc.own (16 * u + b), (tabFind m.rc.own (16 * u + b)).isSome)
  if m.rc.state ≠ 2 || !good then late
  else if 15 < b then m
  else
    match tabFind m.rc.units u with
    | none => m
    | some e =>
      if !e.latched then late
      else updRc (fun r => { r with units := tabPut r.units u { e with blocks := tabPut e.blocks b data } }) m

/-- The block that `bytes` bring: of a station, the exclusive frame whose trailer carries it, numbered by STS[5] (R306, R316); of a node, the
data of its roll-call frame, numbered by byte 4 (R494); of the module's own units, block `num` of what was latched. -/
def blockIn (unit : RcUnit) (num : Nat) (bytes : List Byte) : Option (Nat × List Byte) :=
  match unit with
  | .station n =>
    match sRead bytes with
    | some f =>
      let k := f.payload.length - 72
      if fcsGood bytes ∧ f.kind = sExclusive ∧ f.stn = n ∧ 72 ≤ f.payload.length ∧ byteAt f.payload (k + 4) = 2 then
        some (byteAt f.payload (k + 5), cut f.payload (k + 8) 64)
      else none
    | none => none
  | .node _ => some (byteAt bytes 4, cut bytes 0 64)
  | _ => some (num, [])

def execRollCallBlock (unit : RcUnit) (num : Nat) (bytes : List Byte) (s : State) : Host.Outcome State Fault Refusal :=
  s.run (fun m => match blockIn unit num bytes with
    | some b => takeBlock unit b.1 b.2 m
    | none => m)

/-- ROLL_CALL_CLOSE: collection closes at phase 0 of T + 24 (R493). -/
def doClose (m : Mod) : Mod :=
  if m.rc.state ≠ 2 then m else updRc (fun r => { r with state := 3, closed := true }) (passTo ((m.rc.target + 24) * 20000000) m)

def execRollCallClose (s : State) : Host.Outcome State Fault Refusal := s.run doClose

/-- State of a unit in its table entry (R497). -/
def unitState (e : RcEntry) : Nat :=
  if !e.latched then 4 else if e.blocks.isEmpty then 3 else if e.declared ≤ e.blocks.length then 1 else 2

def unitsIn (m : Mod) (st : Nat) : Nat := (m.rc.units.filter (fun e => unitState e.2 == st)).length

/-- An entry of the unit table (R497). -/
def unitBytes (u : Nat) (e : RcEntry) : List Byte :=
  bytesLE 2 u ++ bytesLE 1 e.kind ++ bytesLE 1 (unitState e) ++ bytesLE 1 e.declared ++ bytesLE 1 e.blocks.length ++
    bytesLE 2 (e.blocks.foldl (fun n b => n + 2 ^ b.1) 0) ++ bytesLE 8 0

/-- Kind of unit `u` (R496, R497). -/
def unitKind (u : Nat) : Nat := if u < 3 then 0 else if u = 3 then 1 else if u = 4 then 2 else if u ≤ 516 then 3 else 4

/-- The header less T: bytes 8 to 63 (R497). -/
def sectionHead (m : Mod) (counts : List Nat) (blocks : Nat) : List Byte :=
  bytesLE 1 (rankOf m) ++ bytesLE 1 m.pr.role ++ counts.flatMap (bytesLE 2) ++ bytesLE 4 blocks ++ bytesLE 4 m.rc.late ++ List.replicate 36 0

/-- The section in host memory: all 772 entries of the unit table, state 0 where the unit is not configured, blocks as received, header, and T
last (R496, R497). -/
def sectionInto (m : Mod) (counts : List Nat) (blocks : Nat) (mem : Memory) : Memory :=
  let base := m.rc.area + rankOf m * 0xC5000
  let entry (x : Memory) (u : Nat) : Memory :=
    memWrite x (base + 0x40 + 16 * u) (match tabFind m.rc.units u with
      | some e => unitBytes u e
      | none => bytesLE 2 u ++ bytesLE 1 (unitKind u) ++ List.replicate 13 0)
  let unit (x : Memory) (e : Nat × RcEntry) : Memory :=
    e.2.blocks.foldl (fun y b => memWrite y (base + 0x4000 + 1024 * e.1 + 64 * b.1) b.2) x
  memWrite (memWrite (m.rc.units.foldl unit ((List.range 772).foldl entry mem)) (base + 8) (sectionHead m counts blocks)) base (bytesLE 8 m.rc.target)

/-- ROLL_CALL_SECTION_WRITE: the module writes its section, T last, where the area holds it, by phase 15,000 of T + 24 (R496, R497). -/
def doSection (m : Mod) : Mod :=
  if m.rc.state ≠ 3 || m.rc.sectionDone then m
  else
    let fits := decide ((rankOf m + 1) * 0xC5000 ≤ m.rc.size)
    let blocks := m.rc.units.foldl (fun n e => n + e.2.blocks.length) 0
    let head := [m.rc.units.length, unitsIn m 1, unitsIn m 2, unitsIn m 3, unitsIn m 4]
    onlyIf (fits && ledgerUp m) (updHost (fun h => { h with mem := sectionInto m head blocks h.mem }))
      (updRc (fun r => { r with header := head, written := blocks, sectionDone := fits }) m)

def execRollCallSectionWrite (s : State) : Host.Outcome State Fault Refusal := s.run doSection

/-- ROLL_CALL_COMPLETION: 0x00 at phase 16,000 of T + 24, with event 0xEA (R498). -/
def doRollComplete (m : Mod) : Mod :=
  if m.rc.state ≠ 3 then m
  else
    let m1 := doSection (passTo ((m.rc.target + 24) * 20000000 + 16000000) m)
    let m2 := raise 0xEA { src := 4, arg0 := unitsIn m1 1, arg1 := unitsIn m1 3 } m1
    let m3 := match m1.rc.sub with
      | some a => if a ∈ m2.host.open_ then complete a 0 0 m2 else m2
      | none => m2
    updRc (fun r => { r with state := 0, sub := none, count := satN 0xFFFF (r.count + 1) }) m3

def execRollCallCompletion (s : State) : Host.Outcome State Fault Refusal := s.run doRollComplete

end Sys2Proof.Machine
end

