-- ==== Sys2Proof/Machine/Halt.lean ====
section
/-! DEFINITION. Retain records, the end of CAN FD entries, HALT entry, exclusion of a lane and the end of an update session
(R35, R36, R45, R106, R108, R125, R134, R150, R402, R534). -/

namespace Sys2Proof.Machine

/-! ## Retain records (R134, R135) -/

/-- Running approach and sectional release timers: retained timer instances (R135, R185). -/
def retainTimers (m : Mod) : Tab InstState :=
  let keep (n : Nat) : Bool := m.lg.app.insts.any (fun d => d.num == n && d.retained)
  m.lg.insts.filter (fun e => e.2.running && keep e.1)

/-- Bytes a value of a type takes in the image (R163): 1, 2, 4 or 8. -/
def tyBytes : Ty → Nat
  | .bool | .state4 | .enum8 => 1
  | .int16 => 2
  | .int32 | .uint32 | .obj | .reqtag => 4
  | .dur | .tstamp => 8
  | .none => 0

/-- Bytes a variable takes: its fields, its elements, or its value. -/
def varBytes (v : VarDesc) : Nat :=
  let elem := if v.fields.isEmpty then tyBytes v.ty else v.fields.foldl (fun n f => max n (f.off + tyBytes f.ty)) 0
  elem * v.count.getD 1

/-- The bytes of every retained variable, each with its address. -/
def retainVars (m : Mod) : List (Nat × List Byte) :=
  (m.lg.app.vars.filter (·.retained)).map (fun v => (v.addr, memRead m.cur v.addr (varBytes v)))

/-- An otherwise valid source is refused (R61, R78): PCRSTS.STEPREF. -/
def stepRef (m : Mod) : Bool :=
  let held (x : SrcState) : Bool := x.valid && x.refused && !x.absent
  held m.tm.ptp || held m.tm.partner || held m.tm.gun

/-- Station time of the vote: the phase at which it is decided, equal in all lanes whatever their own clocks; the time of the module where it
is decided late (R134, R135). -/
def voteTimeOf (m : Mod) : Nat := m.md.stepAt.getD (now m)

/-- The agreed state as a retain record shows it: the state of the vote of this cycle; `t` is the lane's own station time. -/
def retainOf (m : Mod) (t : Nat) : Retain :=
  { scn := scn m, voteTime := voteTimeOf m, writeTime := t, locked := m.en.locked, elements := m.en.elems, routes := m.en.routes,
    timers := retainTimers m, areas := m.md.areas, vars := retainVars m, build := m.lg.app.build, layout := m.lg.app.layoutDig,
    gm := if m.tm.use == .following .ptp || (m.tm.use == .holdover && m.tm.fromPtp && !stepRef m) then m.tm.lastGm else none,
    byPartner := m.tm.use == .following .partner || m.tm.use == .following .gun,
    noCont := m.tm.use == .own || (m.tm.use == .holdover && stepRef m),
    valid := true }

/-- The fields of a route state entry in the order of R217. -/
def routeNats (r : RouteSt) : List Nat :=
  [r.mrel.toNat, r.fheld.toNat, r.orel.toNat, r.state, b2n r.carried, r.ovl, b2n r.noOvl, r.lgen, r.lscn.toNat, r.ltag.toNat, r.base]

/-- What a retain record spells for its digest, the lane's station time at the write left out (R134). -/
def retainNats (r : Retain) : List Nat :=
  [r.scn, r.voteTime, r.locked.toNat, r.areas.toNat, r.build.toNat, r.layout.toNat, b2n r.gm.isSome, (r.gm.elim 0 (fun g => g.1.toNat)),
   b2n (r.gm.elim false (fun g => g.2)), b2n r.byPartner, b2n r.noCont] ++
  r.elements.flatMap (fun e => [e.1, e.2.toNat]) ++ r.routes.flatMap (fun e => e.1 :: routeNats e.2) ++
  r.timers.flatMap (fun e => [e.1, e.2.start, e.2.due, (e.2.prev.map b2n).getD 2]) ++ r.vars.flatMap (fun e => e.1 :: e.2.map BitVec.toNat)

/-- The record as bytes, less the lane's station time at the write. -/
def retainBytes (r : Retain) : List Byte := Config.layoutBytes 2 (retainNats r)

/-- The retain digest (R134). -/
def retainDigest (r : Retain) : W64 := crc64 (retainBytes r)

/-- The lanes in a final voting set hold the state of the vote as what they would write (R134). -/
def holdVote (m : Mod) : Mod :=
  updLanes (fun l x => if x.alive && (x.vset.get l) then { x with voted := some (retainOf m x.time) } else x) m

/-- One lane writes its retain record, and with it its station time (R56, R134); a lane excluded or in START writes none. The record goes through
its unit 1 (R502). A write that fails raises event 0x09. -/
def writeRetain (l : LaneId) (m : Mod) : Mod :=
  let x := m.ln.get l
  if !x.alive || mode m == .start then m
  else
    match x.voted with
    | none => m
    | some r =>
      if x.nv.flashOk then
        updLane l (fun y => throughUnit1 (retainBytes r) { y with nv := { y.nv with retain := some { r with writeTime := y.time }, timeRec := some y.time } }) m
      else raise 0x09 { src := laneSrc l, arg0 := laneNo l } m

def writeRetains (m : Mod) : Mod := forEach allLanes writeRetain m

/-! ## Forces (R150) -/

/-- HALT entry and every restart drop all forces; each lane writes the number dropped. -/
def dropForces (m : Mod) : Mod :=
  let n := m.md.forces.length
  if n = 0 then m
  else updMd (fun d => { d with forces := [] }) (updLanes (fun _ l => { l with nv := { l.nv with dropped := l.nv.dropped + n } }) m)

/-! ## CAN FD entries (R396-R402) -/

/-- A channel as it stands: timing accepted in an earlier station cycle is in force since the boundary, and the channel entered bus
integration there (R380). -/
def settled (m : Mod) (c : CanChan) : CanChan :=
  if c.timingAt < scn m ∧ (c.btNext.isSome ∨ c.dtNext.isSome) then
    { c with bt := c.btNext.getD c.bt, dt := c.dtNext.getD c.dt, btNext := none, dtNext := none,
             integ := some (m.clk - (now m - (c.timingAt + 1) * 20000000)) }
  else c

def updChan (n : Nat) (f : CanChan → CanChan) (m : Mod) : Mod :=
  updCan (fun c => { c with chans := c.chans.mapIdx (fun i x => if i == n then f (settled m x) else x) }) m

def chanOf (m : Mod) (n : Nat) : CanChan := settled m (m.can.chans.getD n (CanChan.fresh 0 0))

/-- A transmit entry ends in exactly one of sent (0), cancelled (1) and aborted (R42). -/
def countEnd (n how : Nat) (m : Mod) : Mod :=
  updChan n (fun c => { c with ends := (c.ends.1 + if how = 0 then 1 else 0, c.ends.2.1 + if how = 1 then 1 else 0, c.ends.2.2 + if 2 ≤ how then 1 else 0) }) m

def hostTx (m : Mod) (n buf : Nat) : HostTx := tabGet HostTx.fresh (chanOf m n).host buf

def setHostTx (n buf : Nat) (h : HostTx) (m : Mod) : Mod :=
  updChan n (fun c => { c with host := tabSet HostTx.fresh c.host buf h }) m

/-- A host entry ends: sent, cancelled or aborted, exactly once. Its completion carries the buffer and the generation (R399), in
RESULT bytes 8 and 9 (DESIGN CHOICE, log entry 20). The buffer stays owned until the completion is acknowledged (R397). -/
def endHostTx (n buf code detail : Nat) (m0 : Mod) : Mod :=
  let h := hostTx m0 n buf
  if h.state = 1 ∨ h.state = 2 then
    let m := countEnd n (if code = 0 then 0 else if code = 0x13 then 1 else 2) m0
    let c : Cpl := { tag := h.tag, opc := 0xB0, code := code, detail := detail, result := bytesLE 1 buf ++ bytesLE 1 h.gen, flags := 0 }
    let src : SubSrc := .ring (Fin.ofNat 32 h.sq)
    let a : Accepted := { src := src, opc := 0xB0, tag := h.tag }
    if a ∈ m.host.open_ then writeCpl src c (closeAccepted a (setHostTx n buf { h with state := 3, cplAt := none } m))
    else setHostTx n buf { h with state := 0 } m
  else m0

/-- A vital entry is aborted (R396): counted, and told at most once per node in 1,000 station cycles. -/
def abortVital (n num reason : Nat) (m : Mod) : Mod :=
  let nd := tabGet NodeSt.fresh m.can.nodes num
  let tell := match nd.abortTold with
    | some s => decide (s + 1000 ≤ scn m)
    | none => true
  let m1 := updChan n (fun c => { c with vital := c.vital.filter (fun v => v.num != num), abort_ := satN 255 (c.abort_ + 1) }) (countEnd n 2 m)
  if tell then
    raise 0xB7 { src := 4, arg0 := num, arg1 := reason }
      (updCan (fun c => { c with nodes := tabSet NodeSt.fresh c.nodes num { nd with abortTold := some (scn m) } }) m1)
  else m1

/-- Every entry of a channel that qualifies is aborted with a reason; `started` entries only where said. -/
def abortChannel (n reason : Nat) (started : Bool) (m : Mod) : Mod :=
  let c := chanOf m n
  let vs := (c.vital.filter (fun v => started || !v.started)).map (·.num)
  let hs := (c.host.filter (fun e => e.2.state == 1 || (started && e.2.state == 2))).map (·.1)
  forEach hs (fun b acc => endHostTx n b 0x14 reason acc) (forEach vs (fun v acc => abortVital n v reason acc) m)

/-! ## Update session and activation (R534, R545) -/

/-- A session ends and releases the lock: event 0xEB. -/
def endSession (m : Mod) : Mod :=
  match m.up.session with
  | none => m
  | some x => raise 0xEB { arg0 := noArg, arg1 := x.kind, arg2 := x.num } (updUp (fun u => { u with session := none }) m)

/-- A host session ends (R534). -/
def endHostSession (m : Mod) : Mod :=
  match m.up.session with
  | some x => if x.src = .service then m else endSession m
  | none => m

/-- A pending activation is abandoned with a reason of R551; the image stays verified (R545). LGXOLC shows an on-line change abandoned,
with no code of its own (R203). -/
def abandonActivation (reason : Nat) (m : Mod) : Mod :=
  match m.up.act with
  | none => m
  | some a =>
    let k := a.kinds.headD 0
    raise 0xE5 { arg1 := reason, arg2 := k }
      (updUp (fun u => { u with act := none, result := 3, reason := reason, resKind := k })
        (updNv (fun n => { n with banks := { n.banks with next := 0 } })
          (updLg (fun g => { g with olcNew := none, olcState := if a.online then 3 else g.olcState, olcAbt := if a.online then 0 else g.olcAbt }) m)))

/-- A pending activation of object-controller firmware is abandoned before its SCN: event 0xE5 (R535, R545). -/
def abandonOc (reason : Nat) (m : Mod) : Mod :=
  let o := m.up.oc
  if o.state = 0 ∨ o.actScn = 0 ∨ o.actScn ≤ scn m then m
  else
    raise 0xE5 { arg0 := o.station, arg1 := reason, arg2 := o.session }
      (updUp (fun u => { u with oc := OcXfer.fresh, result := 3, reason := reason, resKind := 6 }) m)

/-! ## HALT (R35, R45, R125) -/

/-- Every switch and group isolator is opened (R35, R248). -/
def openOutputs (m : Mod) : Mod :=
  updFio (fun f => { f with applied := 0, drives := f.drives.map (fun e => (e.1, { e.2 with on := false, offAt := if e.2.on && !e.2.tripped then now m else e.2.offAt })),
                            groups := f.groups.map (fun g => { g with isoOpen := true }) })
    (updLanes (fun _ l => { l with opened := true }) m)

/-- Every accepted submission is completed with a refusal that names HALT; host CAN FD entries end under R402 instead (R45). -/
def refuseOpen (m : Mod) : Mod :=
  forEach (m.host.open_.filter (fun a => a.opc != 0xB0)) (fun a acc => complete a 0x08 acc.md.hcause acc) m

/-- A lane-fault frame that the continuing lanes hold of a lane tells its event: 0x22 for cause 1, 0x23 for cause 2 (R107, R121). -/
def tellFault (l : LaneId) (m : Mod) : Mod :=
  let c := (aliveLanes m).findSome? (fun y => (m.ln.get y).faultRx.get l)
  if c = some 1 then raise 0x22 { arg0 := laneNo l } m else if c = some 2 then raise 0x23 { arg0 := laneNo l } m else m

/-- Triggers that met the HALT cause in the same station cycle are not applied: possession stands as before them, and nothing is told
of them (R124). -/
def dropTrigs (m : Mod) : Mod :=
  if m.md.trigs.isEmpty then m else updMd (fun d => { d with areas := d.areasWas, trigs := [] }) m

/-- Whether the start-of-frame of each queued entry of a channel has been on the bus is told by no command: it is open, but for an
entry queued at this very moment (R400, R402; log entry 59). -/
def openStarts (n : Nat) (m : Mod) : Mod :=
  let (v, m1) := takeFree m
  updChan n (fun c =>
    { c with vital := c.vital.mapIdx (fun i e => { e with started := e.started || v.getLsbD i }),
             host := tabMap HostTx.fresh (fun h => if h.state = 1 ∧ h.queuedAt < m.clk ∧ v.getLsbD (32 + h.gen % 32) then { h with state := 2 } else h) c.host }) m1

/-- Accepted submissions are completed with the refusal that names HALT, and the CAN FD entries that have not started are aborted, as far
as the rings take the completions (R45, R402). -/
def endOpen (m : Mod) : Mod :=
  flushCpls (forEach (List.range 4) (fun c acc => abortChannel c 3 false (openStarts c acc)) (refuseOpen m))

/-- Submissions accepted before HALT that are left without a completion (R45). -/
def leftOpen (m : Mod) : Nat := m.host.cplWait.length + m.host.open_.length

/-- The front end goes on sending Stride frames up to the next basic-cycle boundary (R36, R327). -/
def stopStrideAt (m : Mod) : Mod :=
  if m.tm.taken then updStr (fun s => { s with stopAt := some ((now m / 5000000 + 1) * 5000000) }) m else m

/-- Entry to HALT from any mode but HALT and RECOVERY: outputs open, nothing is sealed any more, the retain record is written,
forces dropped, submissions ended, what `tell` tells, then events 0x04 and 0x00, the recorder flushed (R35, R36, R45, R123, R124, R125,
R134, R150, R402, R498, R512, R534). Event 0x04 counts the submissions left without a completion (R45). -/
def enterHaltTelling (tell : Mod → Mod) (cause : Nat) (m : Mod) : Mod :=
  if mode m == .halt || mode m == .recovery then m
  else
    let prev := modeCode (mode m)
    let m1 := dropTrigs (dropForces (writeRetains (openOutputs m)))
    let m2 := updLg (fun g => { g with running := none, stack := [], drive := 0 })
      (updMd (fun d => { d with mode := .halt, hcause := cause, step := 0, pendMode := none, haltAt := m.clk, arTold := false,
                                haltv := cause == 1 || cause == 9 }) m1)
    let m3 := endOpen (updHost (fun h => { h with crit := [], critWait := [] }) (updRc (fun r => { r with state := 0, sub := none }) m2))
    let n := leftOpen m3
    let m4 := stopStrideAt (updMd (fun d => { d with haltOpen := n }) m3)
    let m5 := raise 0x00 { arg1 := 0, arg2 := prev } (raise 0x04 { arg1 := cause, arg2 := n } (tell m4))
    flushRead (flushEvents (abandonActivation 5 (endHostSession m5)))

def enterHalt (cause : Nat) (m : Mod) : Mod := enterHaltTelling id cause m

/-- HALT is entered through the photo finish: the events of the lane-fault frames held, and event 0x21 (R107, R121). -/
def haltByVote (cause : Nat) (m : Mod) : Mod :=
  enterHaltTelling (fun x => raise 0x21 { arg1 := cause } (forEach allLanes tellFault x)) cause m

/-! ## Exclusion (R108, R119) -/

/-- The service session ends with the lane that ends its TLS connection, and its update session with it (R534, R561). -/
def endServiceOf (l : LaneId) (m : Mod) : Mod :=
  if m.sec.sessLane ≠ some l then m
  else
    let m1 := updSec (fun s => { s with sess := none, sessLane := none, subject := 0 }) m
    match m1.up.session with
    | some x => if x.src = .service then endSession m1 else m1
    | none => m1

/-- A lane is excluded at phase 15,400: it opens its switches and stops; the remaining lanes hold open their switches in the pairs they
share with it (R23); they, and the lane itself if it can and has not done so when it stopped, record cause and SCN. Event 0x20 names lane and cause; causes 1 and 2 have been told by 0x22 or 0x23 as well. -/
def excludeLane (l : LaneId) (cause : Nat) (m : Mod) : Mod :=
  let s := scn m
  let note (x : Lane) : Lane :=
    { x with nv := { x.nv with excl := x.nv.excl.modify l (fun e => { entries := (cause, s) :: e.entries }) } }
  let out (y : LaneId) (x : Lane) : Lane :=
    if y = l then
      let x1 := if x.supplied && x.stopped == 0 then note x else x
      { x1 with excluded := true, opened := true, vset := PerLane.all false, exclCause := 0 }
    else if x.alive then { note x with vset := x.vset.set l false, openPairs := sharedPairs y l ++ x.openPairs, faultRx := x.faultRx.set l none } else x
  endServiceOf l (raise 0x20 { arg0 := laneNo l, arg1 := cause } (updLanes out m))

/-- The mode that RUN-3 or RUN-2 shows follows the number of voting lanes (R122); the change is told as any mode change. Where a
transition waits for phase 0, the mode taken there tells both in one event 0x00 (R123, R124). -/
def settleRun (m : Mod) : Mod :=
  if isRun m && mode m != runMode m && m.md.pendMode.isNone then
    raise 0x00 { arg1 := modeCode (runMode m), arg2 := modeCode (mode m) } (updMd (fun d => { d with mode := runMode m }) m)
  else m

/-- A lane stops itself (R84): it opens its switches, locks its key store against sealing, and writes the cause into its exclusion
record if its flash works. It sends a lane-fault frame, which reaches the others as LANE_FAULT_FRAME. -/
def stopLane (l : LaneId) (cause : Nat) (m : Mod) : Mod :=
  let s := scn m
  let own (x : Lane) : PerLane ExclRec :=
    if x.nv.flashOk then x.nv.excl.modify l (fun e => { entries := (cause, s) :: e.entries }) else x.nv.excl
  updLane l (fun x =>
    if x.stopped = 0 then
      sendXNow m l xFault (faultBytes cause) { x with stopped := cause, opened := true, keyLocked := true, nv := { x.nv with excl := own x } }
    else x) m

end Sys2Proof.Machine
end

