-- ==== Sys2Proof/Machine/Alarm.lean ====
section
/-! DEFINITION. Key stores and the alarm levels (R557, R558, R564-R568). -/

namespace Sys2Proof.Machine

/-- Level of a trigger: in BLANK every trigger is at level 1 (R564). -/
def levelOf (trig : Nat) (m : Mod) : Nat := if m.sec.lc == .blank then 1 else m.nv.sec.levels.getD trig 1

/-- One key entry at one lane: a position key only at its own lane (R559). -/
def loadKey (l : LaneId) (e : KeyEntry) (k : KeyStore) : KeyStore :=
  match e with
  | .position p key => if p = l then { k with position := some key } else k
  | .channel cls num y key => { k with channel := tabPut k.channel (4096 * cls + 2 * num + b2n y) key }
  | .broken => k

/-- The entry replaces a key the lane holds (R559). -/
def replacesKey (l : LaneId) (e : KeyEntry) (k : KeyStore) : Bool :=
  match e with
  | .position p _ => p == l && k.position.isSome
  | .channel cls num y _ => (tabFind k.channel (4096 * cls + 2 * num + b2n y)).isSome
  | .broken => false

/-- A key entry as it is loaded: one that replaces a key waits for the next freeze (R559). -/
def holdKey (l : LaneId) (k : KeyStore) (e : KeyEntry) : KeyStore :=
  if replacesKey l e k then { k with next := k.next ++ [e] } else loadKey l e k

/-- The keys that wait take the place of the old ones. -/
def takeKeys (l : LaneId) (k : KeyStore) : KeyStore := { k.next.foldl (fun x e => loadKey l e x) k with next := [] }

/-- At the freeze after they were loaded, keys replace those they were loaded for (R559). -/
def replaceKeys (m : Mod) : Mod := updLanes (fun l x => { x with nv := { x.nv with keys := takeKeys l x.nv.keys } }) m

/-- The keys a level erases in one lane (R557, R566): at 3 the seal and session keys, at 4 every key; the lifecycle becomes
RETIRED at 4. -/
def eraseKeys (lvl : Nat) (k : KeyStore) : KeyStore :=
  if 4 ≤ lvl then
    { identity := false, transport := false, ivk := [false, false, false, false], owner := none, position := none, channel := [],
      lifecycle := .retired, counter := 0, floors := [], fused := k.fused, next := [] }
  else if lvl = 3 then { k with position := none, channel := [], next := [] }
  else k

/-- A lane acts on an alarm of a level: its keys go, and it remembers the level. -/
def laneAlarm (lvl : Nat) (l : LaneId) (m : Mod) : Mod :=
  updLane l (fun x => { x with nv := { x.nv with keys := eraseKeys lvl x.nv.keys }, alarmLevel := max x.alarmLevel lvl }) m

/-- SECALM: last trigger, level, and the count since first entry to FIELD (R572). -/
def noteTrigger (trig lvl : Nat) (m : Mod) : Mod :=
  updNv (fun n => { n with sec := { n.sec with ltrig := trig, llvl := lvl,
                                               count := satN 0xFFFF (n.sec.count + b2n n.store.field) } }) m

/-- The module becomes RETIRED (R554): event 0xF5 where it was not. -/
def retire (m : Mod) : Mod :=
  onlyIf (m.sec.lc != .retired) (raise 0xF5 { arg1 := 4 }) (updSec (fun s => { s with lc := .retired }) m)

/-- An alarm takes effect in the module (R566, R567). Each level includes the effects of every lower one. A trigger below a
pending level is recorded only. ARG1 is the trigger, ARG2 the level. -/
def alarm (trig lvl : Nat) (m : Mod) : Mod :=
  let x : EvArgs := { arg1 := trig, arg2 := lvl }
  let m1 := raise 0xF0 x (noteTrigger trig lvl m)
  if lvl < m.nv.sec.pend ∨ lvl < 2 then m1
  else
    let m2 := raise 0xF1 x (updNv (fun n => { n with sec := { n.sec with pend := max n.sec.pend (min lvl 3) } }) m1)
    let m3 := abandonOc 6 (abandonActivation 6 (endSession m2))
    if lvl < 3 then m3
    else
      let m4 := raise 0xF2 x (updSec (fun s => { s with sess := none, sessLane := none, subject := 0 }) m3)
      let m5 := if lvl < 4 then m4 else retire (raise 0xF3 x m4)
      enterHalt 7 m5

/-- An alarm every lane acts on: triggers 1 and 3-12. -/
def alarmAll (trig : Nat) (m : Mod) : Mod :=
  let lvl := levelOf trig m
  alarm trig lvl (forEach allLanes (laneAlarm lvl) m)

/-- The text of R558. -/
def kcvText : List Byte :=
  [0x5A, 0x4C, 0x33, 0x20, 0x4B, 0x45, 0x59, 0x20, 0x43, 0x48, 0x45, 0x43, 0x4B, 0x20, 0x56, 0x31]

/-- Key check value of a lane's position key: the first 4 bytes of its CMAC; 0 when none is loaded (R558). -/
def kcvOf (l : Lane) : W32 :=
  match l.nv.keys.position with
  | none => 0
  | some k => (aesCmac k kcvText).extractLsb' 96 32

/-- Lanes that hold a position key. -/
def posKeys (m : Mod) : List LaneId := allLanes.filter (fun l => (m.ln.get l).nv.keys.position.isSome)

/-- Triggers 3-11 noticed in this cycle take effect from phase 1,080; the highest level takes effect, every trigger is recorded
(R565, R567). -/
def noteSeen (trig : Nat) (m : Mod) : Mod :=
  updSec (fun s => { s with seen := if trig ∈ s.seen then s.seen else s.seen ++ [trig] }) m

/-- Raise the triggers noticed, the highest level first. -/
def seenAlarms (m : Mod) : Mod :=
  let order := (List.range 4).reverse.flatMap (fun k => m.sec.seen.filter (fun t => levelOf t m == k + 1))
  forEach order alarmAll (updSec (fun s => { s with seen := [] }) m)

/-- A trigger noticed: with the module voting it takes effect at the freeze, else at once (R565). -/
def noteTrig (trig : Nat) (m : Mod) : Mod := if operating m then noteSeen trig m else alarmAll trig m

end Sys2Proof.Machine
end

