-- ==== Sys2Proof/Machine/Engine.lean ====
section
/-! DEFINITION. The route engine (R206-R245): stored tables, the pass, commit and release, requests and cancels. -/

namespace Sys2Proof.Machine

/-! ## Stored tables (R207-R211) -/

/-- Directory word fields (R208). -/
def dirValid (app : AppImage) (r : Nat) : Bool := bitOf (tabGet 0 app.dir r).toNat 31
def dirBase (app : AppImage) (r : Nat) : Nat := fieldOf (tabGet 0 app.dir r).toNat 0 20

/-- A row of the conflict matrix; a row not listed has its diagonal bit only (R207). -/
def matrixRow (app : AppImage) (r : Nat) : BitVec 4096 := (tabFind app.matrix r).getD (BitVec.ofNat 4096 (2 ^ r))

/-- A list entry of the pool (R210). -/
structure PoolEntry where
  cond : Nat
  depth : Nat
  group : Nat
  kind : Nat
  idx : Nat
  deriving DecidableEq, Repr

def poolEntry (w : W32) : PoolEntry :=
  { cond := fieldOf w.toNat 28 4, depth := fieldOf w.toNat 24 4, group := fieldOf w.toNat 19 5, kind := fieldOf w.toNat 13 3,
    idx := fieldOf w.toNat 0 13 }

/-- A route definition (R209). -/
structure RouteDef where
  route : Nat
  main : List PoolEntry
  flank : List PoolEntry
  ovs : List (List PoolEntry)
  deriving DecidableEq, Repr

/-- `n` entries of the pool from index `i`. -/
def poolSlice (app : AppImage) (i n : Nat) : List PoolEntry := (List.range n).map (fun k => poolEntry (tabGet 0 app.pool (i + k)))

/-- The definition at a pool index (R209). -/
def routeDef (app : AppImage) (base : Nat) : RouteDef :=
  let h0 := (tabGet 0 app.pool base).toNat
  let h1 := (tabGet 0 app.pool (base + 1)).toNat
  let nMain := fieldOf h0 0 7
  let nFlank := fieldOf h0 8 6
  let nAlt := fieldOf h0 17 3
  let nov (i : Nat) : Nat := fieldOf h1 (8 * i) 8
  let at_ (i : Nat) : Nat := base + 2 + nMain + nFlank + ((List.range i).map nov).foldl (· + ·) 0
  { route := fieldOf h0 20 12, main := poolSlice app (base + 2) nMain, flank := poolSlice app (base + 2 + nMain) nFlank,
    ovs := (List.range nAlt).map (fun i => poolSlice app (at_ i) (nov i)) }

/-- Position of an element in the element lock table (R214). -/
def elemPos (kind idx : Nat) : Nat :=
  match kind with
  | 1 => idx
  | 2 => 2048 + idx
  | 3 => 6144 + idx
  | 4 => 14336 + idx
  | _ => 14464 + idx

/-! ## Element lock words (R216) -/

def roleOf (w : Nat) : Nat := fieldOf w 30 2
def posOf (w : Nat) : Nat := fieldOf w 28 2
def holdOf (w : Nat) : Nat := fieldOf w 22 6
def candOf (w : Nat) : Bool := bitOf w 21
def ownerOf (w : Nat) : Nat := fieldOf w 0 12

def elemOf (m : Mod) (e : PoolEntry) : Nat := (tabGet 0 m.en.elems (elemPos e.kind e.idx)).toNat

def setElem (e : PoolEntry) (w : Nat) (m : Mod) : Mod :=
  updEn (fun x => { x with elems := tabSet 0 x.elems (elemPos e.kind e.idx) (BitVec.ofNat 32 w) }) m

/-- When HOLD falls to 0 and ROLE is none, POS becomes 0 (R216). -/
def settlePos (w : Nat) : Nat := if roleOf w = 0 ∧ holdOf w = 0 then putField w 28 2 0 else w

/-- The status byte of an element, from the current image (R212). -/
def statusOf (m : Mod) (e : PoolEntry) : Nat :=
  if e.kind = 5 then 0
  else
    match m.lg.app.vars.find? (fun v => some v.vid == m.lg.app.statusVids[e.kind - 1]?) with
    | some v => (memGet m.cur (v.addr + e.idx)).toNat
    | none => 0

/-- Position a point condition wants. -/
def wantPos (cond : Nat) : Nat := if cond = 1 then 1 else 2

/-- The lock test: the part of R211 that concerns ROLE, POS and HOLD. An element that would need a 64th hold fails. -/
def lockTest (flank : Bool) (e : PoolEntry) (w : Nat) : Bool :=
  let free := roleOf w == 0
  let posFits := holdOf w == 0 || posOf w == wantPos e.cond
  let more := decide (holdOf w < 63)
  match e.cond with
  | 1 | 2 => if flank then more && ((free && posFits) || ((roleOf w == 1 || roleOf w == 2) && posOf w == wantPos e.cond))
             else free && posFits
  | 3 => free
  | 4 => free && holdOf w == 0
  | 5 | 6 => free && more
  | 7 => true
  | _ => false

/-- The status test of R211; for AREA-FREE, the area is not possessed. -/
def statusTest (m : Mod) (e : PoolEntry) : Bool :=
  let s := statusOf m e
  match e.cond with
  | 1 => s % 4 == 1 || bitOf s 2
  | 2 => s % 4 == 2 || bitOf s 2
  | 3 | 4 | 5 => s % 4 == 1
  | 6 => s % 4 == 1 || s % 4 == 2
  | 7 => !m.md.areas.getLsbD e.idx
  | _ => false

/-- An element marked by another candidate is not obtainable, except under AREA-FREE (R211). -/
def markTest (e : PoolEntry) (w : Nat) : Bool := e.cond == 7 || !candOf w

def obtainable (flank : Bool) (m : Mod) (e : PoolEntry) : Bool :=
  markTest e (elemOf m e) && lockTest flank e (elemOf m e) && statusTest m e

/-- The lock an entry takes at commit (R211): `role` 1 for the main list, 2 for an overlap. -/
def takeLock (flank : Bool) (role route : Nat) (e : PoolEntry) (m : Mod) : Mod :=
  let w := elemOf m e
  let own (x : Nat) : Nat := putField (putField x 30 2 role) 0 12 route
  let hold (x : Nat) : Nat := putField x 22 6 (holdOf x + 1)
  match e.cond with
  | 1 | 2 =>
    if flank then setElem e (putField (hold w) 28 2 (wantPos e.cond)) m else setElem e (putField (own w) 28 2 (wantPos e.cond)) m
  | 3 | 4 => setElem e (own w) m
  | 5 | 6 => setElem e (hold w) m
  | _ => m

/-- Release what an entry took: its lock, or its hold (R229). -/
def dropLock (flank : Bool) (e : PoolEntry) (m : Mod) : Mod :=
  let w := elemOf m e
  let unhold (x : Nat) : Nat := settlePos (putField x 22 6 (holdOf x - 1))
  match e.cond with
  | 1 | 2 => if flank then setElem e (unhold w) m else setElem e (settlePos (putField w 30 2 0)) m
  | 3 | 4 => setElem e (settlePos (putField w 30 2 0)) m
  | 5 | 6 => setElem e (unhold w) m
  | _ => m

/-! ## Routes and requests (R217-R220) -/

def routeSt (m : Mod) (r : Nat) : RouteSt := tabGet RouteSt.free m.en.routes r

def setRoute (r : Nat) (x : RouteSt) (m : Mod) : Mod := updEn (fun e => { e with routes := tabSet RouteSt.free e.routes r x }) m

/-- The definition a route holds: that of DEFBASE while it is LOCKED or UNKNOWN. -/
def heldDef (m : Mod) (r : Nat) : RouteDef := routeDef m.lg.app (routeSt m r).base

/-- REQTAG: generation and route (R161). -/
def tagRoute (t : W32) : Nat := fieldOf t.toNat 0 12
def tagGen (t : W32) : Nat := fieldOf t.toNat 20 12

def pendOf (m : Mod) (r : Nat) : Option PendReq := tabFind m.en.pend r

def dropPend (r : Nat) (m : Mod) : Mod := updEn (fun e => { e with pend := tabDel e.pend r }) m

/-- A request ends without a lock: completion 0x10 with the code of R218. -/
def endPend (r code : Nat) (m : Mod) : Mod :=
  match pendOf m r with
  | none => m
  | some p => complete p.sub 0x10 code (dropPend r m)

/-- The route task of the running application, and whether it is parked (R190, R233). -/
def routeTask (m : Mod) : Option Nat := (m.lg.app.tasks.find? (·.route)).map (·.num)

def routeTaskParked (m : Mod) : Bool :=
  match routeTask m with
  | some t => (tabGet Tcb.empty m.lg.tcbs t).parked
  | none => false

/-- Why a request is refused: the first row of R218 that applies, 0 when none does. -/
def requestRefusal (m : Mod) (tag : W32) : Nat :=
  let r := tagRoute tag
  let st := routeSt m r
  if !dirValid m.lg.app r then 1
  else if (pendOf m r).isSome then 2
  else if st.state ≠ 0 then 3
  else if !(mode m == .commission || isRun m || mode m == .maintain || mode m == .shadow) then 6
  else if tagGen tag = 0 ∨ tagGen tag = st.lgen then 7
  else if routeTaskParked m then 8
  else 0

/-- Opcode 0x08: enter the request, or refuse it (R218). -/
def routeRequestSub (a : Accepted) (sub : Submission) (m : Mod) : Mod :=
  let r := tagRoute sub.tag
  let why := requestRefusal m sub.tag
  if fieldOf sub.tag.toNat 12 8 ≠ 0 then complete a 0x03 4 m
  else if 7 < byteAt sub.oper 0 then complete a 0x03 16 m
  else if why ≠ 0 then complete a 0x10 why m
  else
    let p : PendReq := { tag := sub.tag, prio := byteAt sub.oper 0, blk := 0, arrival := scn m % 2 ^ 32, sub := a }
    setRoute r { routeSt m r with lgen := tagGen sub.tag } (updEn (fun e => { e with pend := tabPut e.pend r p }) m)

/-- Opcode 0x09: cancel a pending request by its tag, generation included (R219). -/
def routeCancelSub (a : Accepted) (sub : Submission) (m : Mod) : Mod :=
  let tag := BitVec.ofNat 32 (readLE sub.oper 0 4)
  let r := tagRoute tag
  match pendOf m r with
  | some p =>
    if p.tag = tag then complete a 0 0 (endPend r 4 m)
    else complete a 0x12 0 (raise 0x1E { arg0 := r, arg2 := tag.toNat } (updEn (fun e => { e with stale := satN 0xFFFF (e.stale + 1) }) m))
  | none => complete a 0x12 0 (raise 0x1E { arg0 := r, arg2 := tag.toNat } (updEn (fun e => { e with stale := satN 0xFFFF (e.stale + 1) }) m))

/-- ENGCFG.PENDMAX (R239). -/
def pendMax (m : Mod) : Nat := fieldOf m.cfg.engcfg.toNat 0 16

/-- A pending request has been pending for PENDMAX cycles (R220). -/
def pendOld (m : Mod) (p : PendReq) : Bool := decide (pendMax m ≤ (scn m + 2 ^ 32 - p.arrival) % 2 ^ 32)

/-- Remove and complete an expired request with code 0x05, counted in ENGEXP (R220, R238). -/
def expirePend (r : Nat) (m : Mod) : Mod :=
  endPend r 5 (updEn (fun e => { e with expired := satN 0xFFFFFFFF (e.expired + 1) }) m)

def expirePends (m : Mod) : Mod := forEach ((m.en.pend.filter (fun e => pendOld m e.2)).map (·.1)) expirePend m

/-- PENDING_REQUEST_EXPIRED: in the pass of the PENDMAXth cycle after its arrival (R220). -/
def doExpire (r : Nat) (m : Mod) : Mod :=
  match pendOf m r with
  | none => m
  | some p =>
    let age := (scn m + 2 ^ 32 - p.arrival) % 2 ^ 32
    let m1 := if age < pendMax m then passTo ((scn m + (pendMax m - age)) * 20000000 + 1080000) m else m
    expirePend r m1

def execPendingRequestExpired (route : Fin 4096) (s : State) : Host.Outcome State Fault Refusal := s.run (doExpire route.val)

/-! ## The sweep (R232) -/

/-- The set of UNKNOWN routes. -/
def unknownSet (m : Mod) : BitVec 4096 :=
  m.en.routes.foldl (fun v e => if e.2.state = 2 then v ||| BitVec.ofNat 4096 (2 ^ e.1) else v) 0

def unknownRoutes (m : Mod) : List Nat := (m.en.routes.filter (fun e => e.2.state == 2)).map (·.1)

/-- Every element a definition lists, as positions of the element lock table. -/
def defElems (d : RouteDef) : List PoolEntry := d.main ++ d.flank ++ d.ovs.flatten

/-- The next pass sweeps: engine state taken from outside may hold a set of UNKNOWN routes that changed since its last sweep; a sweep
over a set that did not change leaves every word as it is (R137, R232, R234). -/
def sweepDue (m : Mod) : Mod := updEn (fun e => { e with unkLast := ~~~ unknownSet m }) m

/-- ROLE 3 on every listed element whose ROLE is none; ROLE none on every element with ROLE 3 that no UNKNOWN route lists. -/
def sweep (m : Mod) : Mod :=
  let listed := ((unknownRoutes m).flatMap (fun r => defElems (heldDef m r))).filter (fun e => e.kind != 5)
  let pos := listed.map (fun e => elemPos e.kind e.idx)
  let cleared : Tab W32 := m.en.elems.filterMap (fun e =>
    if roleOf e.2.toNat = 3 ∧ !(pos.contains e.1) then
      let w := BitVec.ofNat 32 (putField e.2.toNat 30 2 0)
      if w = 0 then none else some (e.1, w)
    else some e)
  let m1 := updEn (fun x => { x with elems := cleared, unkLast := unknownSet m }) m
  forEach listed (fun e acc =>
    let w := elemOf acc e
    if roleOf w = 0 then setElem e (putField w 30 2 3) acc else acc) m1

/-! ## The pass (R221-R223) -/

/-- Grant order: priority, then arrival, then route number. Arrivals are compared as ages at SCN `now32`. -/
def before (now32 : Nat) (a b : Nat × PendReq) : Bool :=
  let age (p : PendReq) : Nat := (now32 + 2 ^ 32 - p.arrival) % 2 ^ 32
  if a.2.prio ≠ b.2.prio then decide (a.2.prio < b.2.prio)
  else if age a.2 ≠ age b.2 then decide (age b.2 < age a.2)
  else decide (a.1 < b.1)

/-- The first obstacle in the main list: 2 a mark, 3 the lock test, 4 or 7 the status or area test; 0 none. -/
def mainBlock (m : Mod) : List PoolEntry → Nat
  | [] => 0
  | e :: es =>
    let w := elemOf m e
    if !markTest e w then 2
    else if !lockTest false e w then 3
    else if !statusTest m e then (if e.cond = 7 then 7 else 4)
    else mainBlock m es

/-- The flank entries chosen: every required one and the first obtainable member of each group; `none` when one is missing. -/
def chooseFlank (m : Mod) (fl : List PoolEntry) : Option (List Nat) :=
  let ix := (List.range fl.length).zip fl
  let need := (ix.filter (fun p => p.2.group == 0)).map (fun p => if obtainable true m p.2 then some p.1 else none)
  let groups := (List.range 31).map (· + 1) |>.filter (fun g => fl.any (fun e => e.group == g))
  let picks := groups.map (fun g => (ix.find? (fun p => p.2.group == g && obtainable true m p.2)).map (·.1))
  let all := need ++ picks
  if all.all (·.isSome) then some (all.filterMap id) else none

/-- Alternatives all of whose entries pass a test, as bits. -/
def ovMask (d : RouteDef) (ok : PoolEntry → Bool) : Nat :=
  ((List.range d.ovs.length).zip d.ovs).foldl (fun n p => if p.2.all ok then n + 2 ^ p.1 else n) 0

/-- The lowest alternative of a mask. -/
def lowestBit (mask : Nat) : Nat := ((List.range 4).find? (fun i => bitOf mask i)).getD 0

def setBlk (r blk : Nat) (m : Mod) : Mod :=
  match pendOf m r with
  | none => m
  | some p => updEn (fun e => { e with pend := tabPut e.pend r { p with blk := blk } }) m

/-- Mark an element for a candidate, or take the mark off. -/
def markElem (on : Bool) (e : PoolEntry) (m : Mod) : Mod := setElem e (putField (elemOf m e) 21 1 (b2n on)) m

def pick {α : Type} (l : List α) (is : List Nat) : List α := is.filterMap (fun i => l[i]?)

def maskBits (is : List Nat) : Nat := is.foldl (fun n i => n + 2 ^ i) 0

/-- One pending request in the pass (R221). -/
def passOne (r : Nat) (m : Mod) : Mod :=
  let row := matrixRow m.lg.app r
  let cands := m.en.cands.foldl (fun v c => v ||| BitVec.ofNat 4096 (2 ^ c.route)) (0 : BitVec 4096)
  if row &&& m.en.locked ≠ 0 then setBlk r 1 m
  else if row &&& cands ≠ 0 then setBlk r 2 m
  else
    let d := routeDef m.lg.app (dirBase m.lg.app r)
    let b := mainBlock m d.main
    if b ≠ 0 then setBlk r b m
    else
      match chooseFlank m d.flank with
      | none => setBlk r 6 m
      | some fl =>
        let mask := ovMask d (obtainable false m)
        if !d.ovs.isEmpty && mask == 0 then setBlk r 5 m
        else
          let prop := lowestBit mask
          let c : Cand := { route := r, mask := mask, proposed := prop, flank := BitVec.ofNat 48 (maskBits fl), gone := false, committed := false }
          let marks := d.main ++ pick d.flank fl ++ (if d.ovs.isEmpty then [] else d.ovs.getD prop [])
          setBlk r 0 (forEach marks (markElem true) (updEn (fun e => { e with cands := e.cands ++ [c] }) m))

/-- Clear every CAND mark. -/
def clearMarks (t : Tab W32) : Tab W32 :=
  t.filterMap (fun e =>
    let w := BitVec.ofNat 32 (putField e.2.toNat 21 1 0)
    if w = 0 then none else some (e.1, w))

/-- The engine pass from phase 1,080 (R221). Its duration is open below the bound of R223; it is noted in units of 100 ns. -/
def enginePass (m : Mod) : Mod :=
  let m1 := expirePends m
  let swept := unknownSet m1 != m1.en.unkLast
  let m2 := if swept then sweep m1 else m1
  let m3 := updEn (fun e => { e with elems := clearMarks e.elems, cands := [] }) m2
  let order := (sortBy (before (scn m3 % 2 ^ 32)) m3.en.pend).map (·.1)
  let m4 := forEach order passOne m3
  let cycles := 4000 + 61 * order.length + (if swept then 23 * (unknownRoutes m4).length else 0)
  let (v, m5) := takeFree m4
  let dur := satN 0xFFFF (v.toNat % (cycles * 10 / 900 + 1))
  pcAll 0x10 (updEn (fun e => { e with passScn := scn m5 + 1, ncand := e.cands.length, npend := e.pend.length,
                                       pdurs := (dur :: e.pdurs).take 1000 }) m5)

/-- The pass of this cycle has not ended by phase 1,500, and ENXT waits for it: event 0x1F, once in a cycle (R245). -/
def tellLatePass (m : Mod) : Mod :=
  if m.en.passScn = scn m + 1 ∨ m.en.lateTold = scn m + 1 ∨ phase m < 1500 then m
  else raise 0x1F {} (updEn (fun e => { e with lateTold := scn m + 1 }) m)

/-! ## Commit and release (R224-R231) -/

/-- A current candidate: in the list, neither committed nor withdrawn. -/
def candOfRoute (m : Mod) (r : Nat) : Option Cand := m.en.cands.find? (fun c => c.route == r && !c.gone)

def withdraw (r : Nat) (m : Mod) : Mod :=
  updEn (fun e => { e with cands := e.cands.map (fun c => if c.route == r then { c with gone := true } else c) }) m

/-- A committed candidate is no longer current, and its marks are cleared (R225). -/
def commit (r : Nat) (m : Mod) : Mod :=
  updEn (fun e => { e with cands := e.cands.map (fun c => if c.route == r then { c with gone := true, committed := true } else c) }) m

/-- Elements a candidate has marked. -/
def candMarks (m : Mod) (c : Cand) : List PoolEntry :=
  let d := routeDef m.lg.app (dirBase m.lg.app c.route)
  let fl := (List.range d.flank.length).filter (fun j => c.flank.getLsbD j)
  d.main ++ pick d.flank fl ++ (if d.ovs.isEmpty then [] else d.ovs.getD c.proposed [])

/-- An entry of an alternative still passes its lock or status test at the commit, other candidates' marks not counting (R225). -/
def commitTest (m : Mod) (e : PoolEntry) : Bool := lockTest false e (elemOf m e) && statusTest m e

/-- Another candidate of the pass has marked the element: an area is marked by each that lists it, and withdrawn candidates keep their
marks until the next pass (R211, R225, R227). -/
def otherMarks (m : Mod) (r : Nat) (e : PoolEntry) : Bool :=
  m.en.cands.any (fun x => x.route != r && !x.committed && (candMarks m x).any (fun f => f.kind == e.kind && f.idx == e.idx))

/-- ELCK a, b (R224, R225); `none` is a bound fault. -/
def lockRoute (r alt : Nat) (m : Mod) : Option Mod :=
  match candOfRoute m r with
  | none => none
  | some c =>
    let d := routeDef m.lg.app (dirBase m.lg.app r)
    let ovl := d.ovs.getD alt []
    let ok := if d.ovs.isEmpty then alt == 0 else decide (alt < 4) && bitOf c.mask alt && ovl.all (commitTest m)
    if !ok then none
    else
      let fl := (List.range d.flank.length).filter (fun j => c.flank.getLsbD j)
      let others := if d.ovs.isEmpty || alt == c.proposed then []
        else (m.en.cands.filter (fun x => x.route != r && !x.gone && (candMarks m x).any (fun e => ovl.any (fun f => f.kind == e.kind && f.idx == e.idx)))).map (·.route)
      let m1 := forEach ((candMarks m c).filter (fun e => !otherMarks m r e)) (markElem false) m
      let m2 := forEach d.main (takeLock false 1 r) m1
      let m3 := forEach ovl (takeLock false 2 r) m2
      let m4 := forEach (pick d.flank fl) (takeLock true 1 r) m3
      let tag := ((pendOf m r).map (·.tag)).getD 0
      let st : RouteSt :=
        { routeSt m r with mrel := 0, fheld := c.flank, orel := 0, state := 1, carried := false, ovl := alt, noOvl := d.ovs.isEmpty,
                           lscn := BitVec.ofNat 32 (scn m), ltag := tag, base := dirBase m.lg.app r }
      let m5 := setRoute r st (updEn (fun e => { e with locked := e.locked ||| BitVec.ofNat 4096 (2 ^ r) }) m4)
      let m6 := match pendOf m5 r with
        | some p => complete p.sub 0 0 (dropPend r m5)
        | none => m5
      some (forEach others (fun x acc => setBlk x 2 (withdraw x acc)) (commit r m6))

/-- A route becomes FREE: its bit leaves the locked-route vector; its last accepted generation stays. -/
def freeRoute (r : Nat) (m : Mod) : Mod :=
  setRoute r { RouteSt.free with lgen := (routeSt m r).lgen }
    (updEn (fun e => { e with locked := e.locked &&& ~~~ BitVec.ofNat 4096 (2 ^ r) }) m)

/-- Release every hold of flank entries the route still has (R231). -/
def dropFlanks (r : Nat) (m : Mod) : Mod :=
  let d := heldDef m r
  let fl := (List.range d.flank.length).filter (fun j => (routeSt m r).fheld.getLsbD j)
  setRoute r { routeSt m r with fheld := 0 } (forEach (pick d.flank fl) (dropLock true) m)

/-- With the last main entry the flank holds go; with every main and overlap entry the route becomes FREE (R231). -/
def settleRoute (r : Nat) (m : Mod) : Mod :=
  let d := heldDef m r
  let st := routeSt m r
  let mains := (List.range d.main.length).all (fun i => st.mrel.getLsbD i)
  let ovs := (List.range (d.ovs.getD st.ovl []).length).all (fun i => st.orel.getLsbD i)
  let m1 := if mains then dropFlanks r m else m
  if mains && ovs then freeRoute r m1 else m1

/-- The route's entry signal has status 1, at danger (R228). -/
def entryAtDanger (m : Mod) (r : Nat) : Bool :=
  match (heldDef m r).main.head? with
  | some e => statusOf m e % 4 == 1
  | none => false

def countRelref (m : Mod) : Mod := updEn (fun e => { e with relref := satN 0xFFFF (e.relref + 1) }) m

/-- Index of an element in a list. -/
def findElem (l : List PoolEntry) (kind idx : Nat) : Option Nat := l.findIdx? (fun e => e.kind == kind && e.idx == idx)

/-- EREL a, b (R228, R229, R231); `none` is a bound fault, checked before the entry signal. -/
def releaseElem (r kind idx : Nat) (m : Mod) : Option Mod :=
  let st := routeSt m r
  if st.state ≠ 1 then none
  else
    let d := heldDef m r
    let act (f : Mod → Mod) : Option Mod := some (if entryAtDanger m r then settleRoute r (f m) else countRelref m)
    match findElem d.main kind idx with
    | some i =>
      if st.mrel.getLsbD i then act id
      else if !((List.range i).all (fun k => st.mrel.getLsbD k)) then none
      else act (fun x => setRoute r { st with mrel := st.mrel ||| BitVec.ofNat 64 (2 ^ i) } (forEach (pick d.main [i]) (dropLock false) x))
    | none =>
      match findElem (d.ovs.getD st.ovl []) kind idx with
      | some k =>
        if st.orel.getLsbD k then act id
        else act (fun x => setRoute r { st with orel := st.orel ||| BitVec.ofNat 16 (2 ^ k) }
          (forEach (pick (d.ovs.getD st.ovl []) [k]) (dropLock false) x))
      | none =>
        match findElem d.flank kind idx with
        | some j =>
          if st.fheld.getLsbD j then
            act (fun x => setRoute r { st with fheld := st.fheld &&& ~~~ BitVec.ofNat 48 (2 ^ j) } (forEach (pick d.flank [j]) (dropLock true) x))
          else act id
        | none => none

/-- ERRL a (R228, R230, R232). -/
def releaseRoute (r : Nat) (m : Mod) : Mod :=
  let st := routeSt m r
  if st.state = 0 then m
  else if !entryAtDanger m r then countRelref m
  else if st.state = 2 then raise 0x1D { arg0 := r } (freeRoute r m)
  else
    let d := heldDef m r
    let mains := (List.range d.main.length).filter (fun i => !st.mrel.getLsbD i)
    let ovl := d.ovs.getD st.ovl []
    let ovs := (List.range ovl.length).filter (fun i => !st.orel.getLsbD i)
    let m1 := forEach (pick d.main mains) (dropLock false) m
    let m2 := forEach (pick ovl ovs) (dropLock false) m1
    freeRoute r (dropFlanks r m2)

/-! ## Reading (R224, R226, R227) -/

/-- ESTA of an element lock word (R227). -/
def estaOf (w : Nat) : Nat := roleOf w + 4 * b2n (decide (0 < holdOf w)) + 8 * posOf w + 32 * b2n (candOf w)

/-- EOVL of a route, live (R224). -/
def eovlLive (m : Mod) (r : Nat) : Nat :=
  match candOfRoute m r with
  | some c =>
    let none_ := (routeDef m.lg.app (dirBase m.lg.app r)).ovs.isEmpty
    c.proposed + 4 * b2n none_ + 16 * c.mask
  | none =>
    let st := routeSt m r
    match st.state with
    | 1 => st.ovl + 4 * b2n st.noOvl
    | 2 => 8 + 4 * b2n (heldDef m r).ovs.isEmpty
    | _ => 0

/-- EOVL of a route in the published view: no route is a candidate (R224, R226). -/
def eovlPub (m : Mod) (r : Nat) : Nat :=
  let st := tabGet RouteSt.free m.en.pubRoutes r
  match st.state with
  | 1 => st.ovl + 4 * b2n st.noOvl
  | 2 => 8 + 4 * b2n (routeDef m.lg.app st.base).ovs.isEmpty
  | _ => 0

/-- The published view is copied at the snapshot (R226). -/
def publishEngine (m : Mod) : Mod :=
  updEn (fun e => { e with pubElems := e.elems, pubRoutes := e.routes, pubPend := e.pend }) m

/-- TAGV: the tag is the route's pending request, or the LTAG of the route while it is LOCKED (R227). -/
def tagLive (live : Bool) (m : Mod) (tag : W32) : Bool :=
  let r := tagRoute tag
  if live then
    (pendOf m r).any (fun p => p.tag == tag) || ((routeSt m r).state == 1 && (routeSt m r).ltag == tag)
  else
    (tabFind m.en.pubPend r).any (fun p => p.tag == tag) ||
      ((tabGet RouteSt.free m.en.pubRoutes r).state == 1 && (tabGet RouteSt.free m.en.pubRoutes r).ltag == tag)

/-- Cold state of the engine: every valid route UNKNOWN with DEFBASE its directory BASE, all else cleared (R138, R232). -/
def coldEngine (m : Mod) : Mod :=
  let rs := (m.lg.app.dir.map (·.1)).filter (dirValid m.lg.app)
  let routes : Tab RouteSt := rs.map (fun r => (r, { RouteSt.free with state := 2, base := dirBase m.lg.app r }))
  let locked := rs.foldl (fun v r => v ||| BitVec.ofNat 4096 (2 ^ r)) (0 : BitVec 4096)
  updEn (fun _ => { Engine.fresh with routes := routes, locked := locked }) m

end Sys2Proof.Machine
end

