-- ==== Sys2Proof/Machine/Start.lean ====
section
/-! DEFINITION. Restart and START steps 1 to 6 (R122-R139, R538-R540, R554, R565, R584, R590): what begins at power-up and at every
restart, and the restart decision once station time is taken. -/

namespace Sys2Proof.Machine

/-! ## Host interface reset (R40, R41, R414) -/

/-- MISS of one connection in its epoch in force (R359). -/
def missOf (c : ConnDesc) (b : BtnLane) : Nat :=
  match c.kind, b.low, b.high with
  | 1, some l, some h => (h - l) / c.per + 1 - b.recv - b.late
  | _, _, _ => 0

/-- A submission came through a ring of this module's host. -/
def ofRing (x : SubSrc) : Bool :=
  match x with
  | .ring _ => true
  | .service | .lead _ => false

/-- The counts of every Ledger clause, with the privileged stamp (R41, R42, R509). -/
def ledgerCounts (m : Mod) : LedgerRec :=
  let x := m.ln.get (refLane m)
  { scn := scn m, opsec := satN 0xFFFFFFFF (m.clk / 1000000000), pcyc := m.nv.store.pcyc, acc := m.host.acc, cmp := m.host.cmp,
    rings := (m.host.rings.filter (fun e => e.2.en)).map (fun e => (e.1, e.2.count, e.2.ack)), fifos := (List.range 13).map (fifoCounts m),
    seqs := m.rcd.seq, losses := m.rcd.lossN,
    conns := x.btn.map (fun e => (e.1, e.2.recv, e.2.dup + e.2.dupOld, e.2.late + e.2.lateOld,
      (match m.lg.app.conns.find? (fun c => c.num == e.1) with | some c => missOf c e.2 | none => 0) + e.2.missOld)),
    missing := x.missAll, can := m.can.chans.map (·.ends) }

/-- Host ring memory becomes invalid: ring processing stops, the Ledger's counts are recorded, event 0xC1 with INVCAUSE in ARG1 and the submissions still open in
ARG2, and EQ0's vector if it can still be sent (R40, R41). -/
def invalidate (cause : Nat) (m : Mod) : Mod :=
  if !m.host.valid then m
  else
    let m0 := onlyIf (!(m.rcd.stopped || m.rcd.unusable))
      (updNv (fun v => { v with store := { v.store with ledgers := ledgerCounts m :: v.store.ledgers } })) m
    let m1 := updHost (fun h => { h with valid := false, invcause := cause }) m0
    raise 0xC1 { src := 4, arg1 := cause, arg2 := (m.host.acc - m.host.cmp).toNat } (fireVector (ringOf m1 64).target m1)

/-- A ring at a host interface reset: not enabled, its counts zero; addresses, size and target stay (R414). -/
def clearRing (r : Ring) : Ring :=
  { r with en := false, fault := false, count := 0, ack := 0, aux := 0, open_ := 0, held := 0, heldTold := false, seq := 0,
           lost := 0, cycN := 0, cycScn := 0 }

/-- RUN 0, memory invalid, every ring count and Ledger counter zero; the routing table stays. What was consumed or open through a ring
leaves the Ledger. Bus mastering is enabled again by the host's new set-up, which no command names (log entry 35). -/
def clearHost (h : HostIf) : HostIf :=
  { h with run := false, valid := false, busMaster := true, rings := tabMap Ring.fresh clearRing h.rings, acc := 0, cmp := 0, evp := 0,
           evd := 0, evl := 0, latCmp := 0, latOut := 0, latEvd := 0, latEvl := 0, head := [], waiting := h.waiting.filter (fun s => !ofRing s.src), critWait := h.critWait.filter (fun s => !ofRing s.src),
           open_ := h.open_.filter (fun a => !ofRing a.src), order := h.order.filter (fun a => !ofRing a.src), cplWait := h.cplWait.filter (fun p => !ofRing p.1), fifo := [],
           lossQ := [], resetN := satN 0xFFFF (h.resetN + 1), resetTold := true }

/-- CAN buffers that wait for an acknowledgement of their completion are free; the generation each accepted last stays (R397). The
Ledger's counts begin anew (R41). -/
def freeEnded (c : CanChan) : CanChan :=
  { c with ends := (0, 0, 0), host := tabMap HostTx.fresh (fun h => if h.state = 3 then { HostTx.fresh with lastGen := h.lastGen } else h) c.host }

/-- A host interface reset (R414). -/
def hostReset (m : Mod) : Mod :=
  endHostSession
    (updCan (fun c => { c with chans := c.chans.map freeEnded })
      (updPr (fun p => { p with adoptN := 0 })
        (updHost clearHost
          (updLanes (fun _ l => { l with subIdx := l.subIdx.filter (fun e => decide (32 ≤ e.1)) }) (invalidate 6 m)))))

/-- PCIE_RESET: a conventional or function level reset acts as a host interface reset in every mode (R410, R414); what the host programmed in
the configuration space and the MSI-X table begins anew (log entry 35). -/
def execPcieReset (s : State) : Host.Outcome State Fault Refusal :=
  s.run (fun m => hostReset (updHost (fun h => { h with pcie := PcieCfg.fresh, vecs := [] }) m))

/-! ## Bank selection (R538, R539) -/

def progBank (l : Lane) (b : Nat) : ProgBank := if b = 0 then l.nv.bank0 else l.nv.bank1
def setArea (l : Lane) (b : Nat) : SetArea := if b = 0 then l.nv.area0 else l.nv.area1

/-- Two lanes' banks hold the same content. -/
def sameBank (p q : ProgBank) : Bool :=
  p.fwVersion == q.fwVersion && p.fw == q.fw && p.sver == q.sver && p.smin == q.smin && p.appBuild == q.appBuild && p.payload == q.payload

/-- Supplied lanes that hold bank `b` usable and identical to another such lane's. -/
def goodLanes (m : Mod) (b : Nat) : List LaneId :=
  let ok (l : LaneId) : Bool := (m.ln.get l).supplied && (progBank (m.ln.get l) b).usable
  allLanes.filter (fun l => ok l && (otherLanes l).any (fun x => ok x && sameBank (progBank (m.ln.get l) b) (progBank (m.ln.get x) b)))

/-- Bank `b` of the part with bit `i`: 0 front end, 1 I/O controller, 2 program banks, 3 network settings. -/
def partUsable (m : Mod) (i b : Nat) : Bool :=
  let k := m.nv.banks
  match i with
  | 0 => if b = 0 then k.fe0.usable else k.fe1.usable
  | 1 => if b = 0 then k.io0.usable else k.io1.usable
  | 2 => decide (2 ≤ (goodLanes m b).length)
  | _ => if b = 0 then k.ns0.usable else k.ns1.usable

/-- Image kind that event 0xE5 names for a part. -/
def partKind (i : Nat) : Nat := if i = 3 then 5 else if i = 2 then 4 else i + 1

/-- A staged bank is given up: event 0xE5, UPDRES "fell back" (R538-R540, R551). -/
def fellBack (i reason lanes : Nat) (m : Mod) : Mod :=
  raise 0xE5 { arg1 := reason, arg2 := lanes }
    (updUp (fun u => { u with result := 4, reason := reason, resKind := partKind i, flane := lanes }) m)


def setBit (w i : Nat) (b : Bool) : Nat := putField w i 1 (b2n b)

/-- The bank is kept as failed; what was verified in it counts no more, so that only a fresh staging brings it back (R539). -/
def failParts (parts : List Nat) (m : Mod) : Mod :=
  let of (kind : Nat) : Nat := if kind = 5 then 3 else if kind = 3 ∨ kind = 4 then 2 else kind - 1
  updNv (fun n => { n with banks := { n.banks with
    fail := parts.foldl (fun w i => setBit w i true) n.banks.fail, next := parts.foldl (fun w i => setBit w i false) n.banks.next,
    used := parts.foldl (fun w i => setBit w i false) n.banks.used,
    verified := n.banks.verified.filter (fun e => !(parts.contains (of e.1))) } }) m

/-- The trial of a part can begin: its bank is usable; a program bank that is to run with new network settings needs theirs too (R526). -/
def trialUsable (m : Mod) (i b : Nat) : Bool :=
  let ns := 1 - b2n (bitOf m.nv.banks.act 3)
  partUsable m i b && (i != 2 || !(bitOf m.nv.banks.next 3 && !bitOf m.nv.banks.used 3) || partUsable m 3 ns)

/-- One part selects its bank: the next bank on its first trial, else the active one (R538). -/
def selectPart (i : Nat) (m : Mod) : Mod :=
  let k := m.nv.banks
  let act := b2n (bitOf k.act i)
  let other := 1 - act
  let run (b : Nat) (trial : Bool) (x : Mod) : Mod :=
    updMd (fun d => { d with runBank := setBit d.runBank i (b == 1), trialBits := setBit d.trialBits i trial }) x
  if bitOf k.next i && !bitOf k.used i then
    let m1 := updNv (fun n => { n with banks := { n.banks with used := setBit n.banks.used i true } }) m
    if trialUsable m i other then run other true m1
    else run act false (fellBack i 1 0 (failParts [i] m1))
  else if bitOf k.next i then
    run act false (fellBack i 3 0 (updNv (fun n => { n with banks := { n.banks with
      next := setBit n.banks.next i false, used := setBit n.banks.used i false } }) m))
  else run act false m

/-- Network settings run only with the application they were staged with: without its trial they give up theirs, and no event tells it
beside the program bank's own (R526). -/
def selectNet (m : Mod) : Mod :=
  if bitOf m.nv.banks.next 3 && !bitOf m.md.trialBits 2 then
    selectPart 3 (updNv (fun n => { n with banks := { n.banks with next := setBit n.banks.next 3 false, used := setBit n.banks.used 3 false } }) m)
  else selectPart 3 m

def selectBanks (m : Mod) : Mod := selectNet (forEach [0, 1, 2] selectPart m)

/-- The program bank the lanes run on. -/
def runProg (m : Mod) : Nat := b2n (bitOf m.md.runBank 2)

/-- The settings in force: what two lanes' areas of the running bank hold (R152). -/
def storedSettings (m : Mod) : Option Settings := agreedBy m (fun l => (setArea l (runProg m)).stored)

/-- At START the RWS registers take their stored values; without stored settings, their reset values (R152). -/
def loadSettings (m : Mod) : Mod := { m with cfg := (storedSettings m).getD Settings.initial }

/-! ## Step 1 (R513, R565, R584) -/

/-- Usable energy of the hold-up store in µJ: half of C times 1,701 V² (R584). -/
def holdUpUj (capUf : Nat) : Nat := capUf * 1701 / 2

/-- Dirty ceiling by usable energy (R584). -/
def ceilOf (uj : Nat) : Nat :=
  if 5400000 ≤ uj then 16384 else if 5000000 ≤ uj then 12288 else if 4500000 ≤ uj then 8192 else 4096

/-- The state held by at least two of the given lanes; the first lane's where no two agree (R554). -/
def lifecycleOf (m : Mod) (ls : List LaneId) : Lifecycle :=
  let lc (l : LaneId) : Lifecycle := (m.ln.get l).nv.keys.lifecycle
  match ls.find? (fun l => ls.any (fun x => x != l && lc x == lc l)) with
  | some l => lc l
  | none => (ls.head?.map lc).getD .blank

/-- What every run begins with, in START and in RECOVERY: the supply readings, the charge and the temperature (R549, R582, R601), and the
lifecycle state that two supplied lanes hold (R546, R554). -/
def readIn (env : StartEnv) (m : Mod) : Mod :=
  updSec (fun s => { s with lc := lifecycleOf m (allLanes.filter (fun l => (m.ln.get l).supplied)) })
    (updPw (fun p => { p with charge := env.charge, feed1 := env.feed1, feed2 := env.feed2, f1 := decide (16000 ≤ env.feed1),
                              f2 := decide (16000 ≤ env.feed2), vin := max env.feed1 env.feed2, temp := env.temp }) m)

/-- Hold-up store measured, ceiling set, recorder opened, cover seal checked. The transition into START is told (R122, R159); ARG2 of a
power-up, which has no mode before it, is 0: a DESIGN CHOICE (log entry 18). -/
def startStep1 (powerOn : Bool) (prev : Nat) (env : StartEnv) (m : Mod) : Mod :=
  let uj := holdUpUj env.capUf
  let ceil := ceilOf uj
  let low := decide (uj < 4500000)
  let m1 := updPw (fun p => { p with capUf := env.capUf, heol := low }) m
  let m2 := updMd (fun d => { d with mode := .start, step := 1 }) (updSec (fun s => { s with sealOk := env.sealIntact }) m1)
  let m3 := onlyIf (prev != 2) (raise 0x00 { arg1 := 2, arg2 := prev }) (openRecorder powerOn env.geo m2)
  let m4 := updRcd (fun d => { d with ceil := ceil }) m3
  let m5 := onlyIf (decide (ceil < 16384)) (raise 0xEE { src := 4, arg2 := ceil }) m4
  let m6 := onlyIf low (raise 0x37 { src := 4 }) m5
  onlyIf (!env.sealIntact) (alarmAll 1) m6

/-! ## Step 2 (R129, R130, R132, R590) -/

/-- Judging lanes that find block `b` mismatched. -/
def misjudged (m : Mod) (env : StartEnv) (b : Nat) : List LaneId :=
  allLanes.filter (fun l => (m.ln.get l).supplied && (env.mismatch.get l).getLsbD b)

/-- A lane's BIST result: two lanes find its signature correct, and it is one of them: so the model reads "counting itself" (R129), a DESIGN
CHOICE (log entry 63); its bank is one of those that start;
its margin at 900 MHz is not below 4% (R590). -/
def bistPass (m : Mod) (env : StartEnv) (l : LaneId) : Bool :=
  let good := (allLanes.filter (fun x => (m.ln.get x).supplied && !(env.mismatch.get x).getLsbD (laneNo l)))
  let c := env.canary.get l
  (m.ln.get l).supplied && decide (l ∈ good) && decide (2 ≤ good.length) && decide (l ∈ goodLanes m (runProg m)) &&
    !(decide (c.1 < 12) && decide (c.2.1 < 12) && decide (c.2.2.1 < 12) && decide (c.2.2.2 < 4))

/-- The plan step a lane takes at START: the highest at which its margin is 12% or more; 900 MHz where none is (R590). -/
def planOf (c : Nat × Nat × Nat × Nat) : Nat :=
  if 12 ≤ c.1 then 0 else if 12 ≤ c.2.1 then 1 else if 12 ≤ c.2.2.1 then 2 else 3

def marginAt (c : Nat × Nat × Nat × Nat) (step : Nat) : Nat :=
  match step with
  | 0 => c.1
  | 1 => c.2.1
  | 2 => c.2.2.1
  | _ => c.2.2.2

/-- A lane's margin plan from its canary. -/
def planLane (env : StartEnv) (l : LaneId) (m : Mod) : Mod :=
  let c := env.canary.get l
  let p := planOf c
  let g := marginAt c p
  let end_ := decide (p = 3) && decide (g < 8)
  onlyIf (end_ && (m.ln.get l).usable) (raise 0x36 { src := laneSrc l, arg0 := laneNo l })
    (updLane l (fun x => setStep m.pc.cfg p { x with nv := { x.nv with plan := p }, margin := g, eol := end_ }) m)

/-- An exclusion record about a lane, kept by the other running lanes (R108, R130). -/
def recordExcl (l : LaneId) (cause at_ : Nat) (m : Mod) : Mod :=
  updLanes (fun y x => if y ≠ l ∧ x.alive then
    { x with nv := { x.nv with excl := x.nv.excl.modify l (fun e => { entries := (cause, at_) :: e.entries }) } } else x) m

/-- Blocks two judging lanes find mismatched, the lanes apart (R130). -/
def bistBad (env : StartEnv) (m : Mod) : List Nat := (List.range 24).filter (fun b => 3 ≤ b ∧ 2 ≤ (misjudged m env b).length)

/-- Lanes that do not pass. -/
def bistFailed (env : StartEnv) (m : Mod) : List LaneId := allLanes.filter (fun l => !bistPass m env l)

/-- The numbers of what failed: lanes 0-2, blocks 3-23. -/
def bistNumbers (env : StartEnv) (m : Mod) : List Nat := (bistFailed env m).map laneNo ++ bistBad env m

def bistBits (xs : List Nat) : Nat := xs.foldl (fun n b => n + 2 ^ b) 0

/-- The lanes that pass may be used; MODBIST shows the rest (R156). -/
def noteBist (env : StartEnv) (m : Mod) : Mod :=
  updMd (fun d => { d with step := 2, bist := bistBits (bistNumbers env m), couplers := env.couplers })
    (updLanes (fun l x => { x with usable := bistPass m env l }) m)

/-- Event 0x02 for each block, and an exclusion record with event 0x2C for each lane (R108, R130). -/
def tellBist (failed : List LaneId) (numbers : List Nat) (floor : Nat) (m : Mod) : Mod :=
  forEach failed (fun l acc => raise 0x2C { arg0 := laneNo l, arg1 := 15 } (recordExcl l 15 floor acc))
    (forEach numbers (fun b acc => raise 0x02 { arg0 := b } acc) m)

/-- The units that failed are left out (R130), with the ports whose SFP is of a wrong kind (R292); a store found broken in an earlier run
stays broken (R514). The readback of the isolators is kept for step 7 (R133). -/
def leaveOut (env : StartEnv) (bad : List Nat) (bits : Nat) (m : Mod) : Mod :=
  let wrong := (List.range 8).filter (fun k => env.sfp.getD k .empty != .fx && env.sfp.getD k .empty != .lx10)
  updStr (fun s => { s with darkPorts := wrong.foldl (fun n k => n ||| 2 ^ k) (fieldOf bits 12 8) })
    (updTm (fun t => { t with ptp := { t.ptp with absent := decide (7 ∈ bad) } })
      (updFio (fun f => { f with groups := f.groups.mapIdx (fun g x => { x with stuck := env.isoClosed.getLsbD g }) })
        (updRcd (fun d => { d with unusable := d.unusable || decide (5 ∈ bad) || m.nv.store.broken }) m)))

/-- The largest station time the lanes that pass BIST have on record (R56). -/
def floorOf (m : Mod) : Option Nat :=
  ((aliveLanes m).filterMap (fun l => (m.ln.get l).nv.timeRec)).foldl (fun (a : Option Nat) t => some (max (a.getD 0) t)) none

/-- BIST: blocks, lanes, and the HALT causes 2, 3 and 8. The exclusion record of cause 15 takes the SCN of the floor, the latest station
time known before step 4: a DESIGN CHOICE (log entry 18). -/
def startStep2 (env : StartEnv) (m : Mod) : Mod :=
  if mode m != .start then m
  else if 2 ≤ (bistFailed env m).length then enterHalt 2 (noteBist env m)
  else if 3 ∈ bistBad env m then enterHalt 3 (noteBist env m)
  else
    let m0 := noteBist env m
    let m1 := tellBist (bistFailed env m) (bistNumbers env m) (scnOf ((floorOf m0).getD 0)) m0
    let m2 := leaveOut env (bistBad env m) (bistBits (bistNumbers env m)) (forEach allLanes (planLane env) m1)
    if m2.sec.lc == .retired then enterHalt 8 m2 else m2

/-! ## Step 3 (R56, R111, R118, R540, R554, R567) -/

/-- VOTCFG (R117): HOLDWIN days and HOLDN exclusions. -/
def holdWin (m : Mod) : Nat := fieldOf m.cfg.votcfg.toNat 8 8
def holdN (m : Mod) : Nat := fieldOf m.cfg.votcfg.toNat 0 2

/-- Exclusions of an exclusion record within HOLDWIN days back from a floor SCN (R111, R119). -/
def exclCount (m : Mod) (at_ : Nat) (e : ExclRec) : Nat :=
  (e.entries.filter (fun p => decide (at_ ≤ p.2 + holdWin m * 4320000))).length

/-- A lane is held out by another passing lane's record (R111). -/
def heldOutBy (m : Mod) (l : LaneId) : Bool :=
  let at_ := scnOf (m.tm.floor.getD 0)
  (aliveLanes m).any (fun x => x != l &&
    (let e := (m.ln.get x).nv.excl.get l
     e.entries.any (fun p => p.1 == 1 || p.1 == 2 || p.1 == 14 || p.1 == 15) || decide (holdN m ≤ exclCount m at_ e)))

/-- Settings migration of a lane at the first START of a bank: the previous bank's area verifies, its version lies from SMIN to
SVER; its content is written into the new bank's own area (R540). -/
def migrateLane (env : StartEnv) (l : LaneId) (m : Mod) : Bool × Mod :=
  let x := m.ln.get l
  let b := runProg m
  let p := progBank x b
  let old := setArea x (1 - b)
  let ok := env.settingsCrc.get l && decide (p.smin ≤ old.version) && decide (old.version ≤ p.sver)
  let new : SetArea := { stored := old.stored, version := p.sver }
  (ok, if ok then updLane l (fun y => { y with nv := if b = 0 then { y.nv with area0 := new } else { y.nv with area1 := new } }) m else m)

/-- Migration of every part on trial; `none` in the mask: lanes that failed, and the front end (R540). -/
def migrate (env : StartEnv) (m : Mod) : Nat × Bool × Mod :=
  let lanes := if bitOf m.md.trialBits 2 then aliveLanes m else []
  let (bits, m1) := lanes.foldl (fun (acc : Nat × Mod) l =>
    let r := migrateLane env l acc.2
    (if r.1 then acc.1 else acc.1 + 2 ^ laneNo l, r.2)) (0, m)
  if bitOf m.md.trialBits 0 then
    let k := m.nv.banks
    let new := if bitOf m.md.runBank 0 then k.fe1 else k.fe0
    let old := if bitOf m.md.runBank 0 then k.feSet0 else k.feSet1
    let ok := env.feSettingsCrc && decide (new.smin ≤ old) && decide (old ≤ new.sver)
    let put (n : Nv) : Nv :=
      if bitOf m.md.runBank 0 then { n with fe1 := n.fe0, banks := { n.banks with feSet1 := new.sver } }
      else { n with fe0 := n.fe1, banks := { n.banks with feSet0 := new.sver } }
    (bits, ok, if ok then updNv put m1 else m1)
  else (bits, true, m1)

/-- A failed migration: the trial banks are marked failed, event 0xE5 reason 2, HALT with HCAUSE 10 (R540). -/
def migrationFails (bits : Nat) (m : Mod) : Mod :=
  enterHalt 10 (fellBack 2 2 bits (failParts ((List.range 4).filter (fun i => bitOf m.md.trialBits i)) m))

/-- The front end's registers take what the area of its running bank stores (R540). -/
def loadFe (m : Mod) : Mod := updStr (fun s => { s with strcfg := (feSettings m).strcfg }) (updCan (fun _ => Can.fresh (feSettings m)) m)

/-- What the running banks hold is loaded: application and network settings. -/
def loadImages (m : Mod) : Mod :=
  let l := m.ln.get (refLane m)
  let p := progBank l (runProg m)
  let app := { Config.appOf p.payload with build := p.appBuild, payload := p.payload }
  let k := m.nv.banks
  let ns := if bitOf m.md.runBank 3 then k.ns1 else k.ns0
  { updLg (fun _ => Logic.fresh app) m with net := { Config.netOf ns.payload with version := ns.version } }

/-- Links are trained, the floor is set, and the settings two lanes store come into force (R56, R118, R152). -/
def startFloor (env : StartEnv) (m : Mod) : Mod :=
  let m1 := updTm (fun t => { t with floor := floorOf m })
    (updLanes (fun l x => { x with mesh := env.mesh.get l, envOk := env.envOk.get l })
      (updMd (fun d => { d with step := 3, lines := env.lines, linkDelay := env.linkDelay, lineAt := (List.range 6).foldl (fun t i => tabPut t i m.clk) [] }) m))
  loadSettings m1

/-- A lane whose record holds it out takes no part (R111). -/
def holdOutLane (l : LaneId) (m : Mod) : Mod := updLane l (fun x => { x with heldOut := true, usable := false }) m

/-- The hold-outs are told from the state the exchange of step 3 has agreed, event 0x2C, and take effect (R111, R128). -/
def holdOut (m : Mod) : Mod :=
  let ls := (aliveLanes m).filter (heldOutBy m)
  forEach ls holdOutLane (forEach ls (fun l acc => raise 0x2C { arg0 := laneNo l } acc) m)

/-- The lanes that pass agree on the lifecycle; one that differs is trigger 11 (R554, R565). -/
def agreeLifecycle (passing : List LaneId) (m : Mod) : Mod :=
  let lc := lifecycleOf m passing
  onlyIf (passing.any (fun l => (m.ln.get l).nv.keys.lifecycle != lc)) (alarmAll 11) (updSec (fun s => { s with lc := lc }) m)

/-- Settings as the bytes of their registers in order. -/
def settingsBytes (s : Settings) : List Byte :=
  [s.modcfg, s.votcfg, s.pcrcfg, s.pcrsrc, s.pcrptp, s.hifcfg, s.engcfg, s.fiocfg, s.prcfg, s.updcfg].flatMap (fun w => bytesLE 4 w.toNat)

/-- A lane reads its running program bank and the settings beside it, and both pass its unit 2 (R502; CRC-64, log entry 24). -/
def throughUnit2 (b : Nat) (x : Lane) : Lane :=
  let p := progBank x b
  { x with cvu := tabSet CvUnit.fresh x.cvu 2 (cvuOn 2 (p.fw ++ p.payload ++ ((setArea x b).stored.map settingsBytes).getD []) none) }

/-- The voting set is formed, the images are loaded, and START waits in step 4 for station time. -/
def takeUp (m : Mod) : Mod :=
  let vs : PerLane Bool := m.ln.mapL (fun _ x => x.alive)
  let b := runProg m
  let m1 := loadImages (loadFe (loadSettings (updLanes (fun _ x => if x.alive then throughUnit2 b { x with vset := vs } else x) m)))
  let role := if m1.nv.paired && !bitOf m1.md.bist 6 then 3 else 0
  updPr (fun p => { p with role := role }) (updMd (fun d => { d with step := 4, step4At := m1.clk }) m1)

/-- Settings migrate, or the trial fails (R540). -/
def startMigrate (env : StartEnv) (m : Mod) : Mod :=
  let r := migrate env m
  if r.1 ≠ 0 ∨ !r.2.1 then migrationFails r.1 r.2.2 else takeUp r.2.2

/-- Lifecycle agreed; a level 3 alarm pending with fewer than two lanes keyed is HALT with HCAUSE 7 (R567). -/
def startLifecycle (env : StartEnv) (passing : List LaneId) (m : Mod) : Mod :=
  let m1 := agreeLifecycle passing m
  if mode m1 != .start then m1
  else if m1.nv.sec.pend = 3 ∧ (posKeys m1).length < 2 then enterHalt 7 m1
  else startMigrate env m1

/-- Links trained, floor set, hold-out applied, lifecycle agreed, settings migrated and loaded. -/
def startStep3 (env : StartEnv) (m : Mod) : Mod :=
  if mode m != .start then m
  else
    let m1 := startFloor env m
    let m2 := holdOut m1
    if (aliveLanes m2).length < 2 then enterHalt 2 m2 else startLifecycle env (aliveLanes m1) m2

/-! ## Restart (R122, R126) -/

/-- RECOVERY: fewer than two lanes hold a usable, identical program bank (R122). Its events need no vote. -/
def enterRecovery (powerOn : Bool) (prev : Nat) (env : StartEnv) (m : Mod) : Mod :=
  raise 0x03 {} (onlyIf (prev != 1) (raise 0x00 { arg1 := 1, arg2 := prev })
    (openRecorder powerOn env.geo (updMd (fun d => { d with mode := .recovery, step := 0 }) m)))

/-- Every volatile part begins anew. Forces are dropped, and what the recorder holds is written, by a restart that has the supply,
before this (R150, R512). -/
def restartBase (powerOn : Bool) (m0 : Mod) : Mod :=
  let base := Mod.start m0.clk m0.freeN m0.nv (m0.ln.mapL (fun x l => { l.nv with keys := takeKeys x l.nv.keys }))
  let lane (l : LaneId) (x : Lane) : Lane :=
    let up := powerOn || (m0.ln.get l).supplied
    { x with supplied := up, usable := up }
  { base with
      powered := true,
      ln := base.ln.mapL lane,
      host := { base.host with discN := if powerOn then 0 else m0.host.discN, resetN := if powerOn then 0 else m0.host.resetN },
      pw := { base.pw with ov1 := m0.pw.ov1, ov2 := m0.pw.ov2, tempTold := m0.pw.tempTold && !powerOn, wear := m0.pw.wear, band := m0.pw.band, wearDay := m0.pw.wearDay, movedAt := m0.pw.movedAt },
      md := { base.md with hcause := if powerOn then 0 else m0.md.hcause, haltv := !powerOn && m0.md.haltv },
      pr := { base.pr with buildTried := m0.pr.buildTried && !powerOn } }

/-- A restart, or power-up: banks are selected and START runs its steps 1 to 3, or RECOVERY is entered (R122, R126). -/
def restart (powerOn : Bool) (env : StartEnv) (m : Mod) : Mod :=
  let prev := if powerOn then 0 else modeCode (mode m)
  let m2 := readIn env (loadFe (selectBanks (restartBase powerOn (if powerOn then m else flushDirty (dropForces m)))))
  if (goodLanes m2 (runProg m2)).length < 2 then enterRecovery powerOn prev env m2
  else startStep3 env (startStep2 env (startStep1 powerOn prev env (loadSettings m2)))

/-- POWER_UP: the logic input has been at or above 18.0 V for 1 s on an unpowered module (R122, R583). -/
def execPowerUp (env : StartEnv) (s : State) : Host.Outcome State Fault Refusal :=
  .next { s with m := if s.m.powered then s.m else fireDue (restart true env s.m) }

/-- The power-cycle count rises by one (R509). -/
def countCycle (m : Mod) : Mod := updNv (fun n => { n with store := { n.store with pcyc := n.store.pcyc + 1 } }) m

/-- SUPPLY_VALID_RESTART: in HALT with HCAUSE 5 (R126, R583). It is a restart, not a power-up, and a START that follows a return of the
logic supply, which the power-cycle count counts (R509). -/
def doSupplyRestart (env : StartEnv) (m : Mod) : Mod := if inHalt m && m.md.hcause == 5 then restart false env (countCycle m) else m

def execSupplyValidRestart (env : StartEnv) (s : State) : Host.Outcome State Fault Refusal := s.run (doSupplyRestart env)

/-- RESET_KEY: held for 3 s it restarts the module in any mode (R126, R595). -/
def doResetKey (held : Nat) (env : StartEnv) (m : Mod) : Mod := if 3000 ≤ held then restart false env m else m

def execResetKey (heldMs : Nat) (env : StartEnv) (s : State) : Host.Outcome State Fault Refusal := s.run (doResetKey heldMs env)

/-- What a host interface reset keeps stays through the restart of START: descriptors, routing table, and the report of event 0xCA; so does what
the host programs beside BAR0 (R411, R414). -/
def keepSetUp (k h : HostIf) : HostIf :=
  { h with rings := k.rings, route := k.route, resetTold := k.resetTold, pcie := k.pcie, lspeed := k.lspeed, lwidth := k.lwidth,
           busMaster := k.busMaster, vecs := k.vecs, invcause := k.invcause }

/-- RESET_REQUEST: a write of 0x0000_A55A to HIFRST; its effect depends on the mode, every other value is ignored (R414). -/
def doResetRequest (val : W32) (env : StartEnv) (m : Mod) : Mod :=
  if val ≠ 0xA55A#32 then m
  else
    match mode m with
    | .halt | .recovery => restart false env m
    | .start => let m1 := hostReset m; updHost (keepSetUp m1.host) (restart false env m1)
    | _ => hostReset m

def execResetRequest (val : W32) (env : StartEnv) (s : State) : Host.Outcome State Fault Refusal := s.run (doResetRequest val env)

/-- Automatic restarts in the last 24 h of operating time (R127, R154). -/
def arCount (m : Mod) : Nat := (m.nv.arTimes.filter (fun t => decide (m.clk / 1000000000 < t + 86400))).length

/-- MODCFG.ARMAX (R153). -/
def arMax (m : Mod) : Nat := fieldOf m.cfg.modcfg.toNat 8 3

/-- AUTOMATIC_RESTART: 200 ms after HALT entry for HCAUSE 1, 3, 9 and 10, below the limit of ARMAX (R127). Where ARMAX is 0 no limit is
reached and event 0x07 is not raised: a DESIGN CHOICE (log entry 55). -/
def doAutoRestart (env : StartEnv) (m : Mod) : Mod :=
  let c := m.md.hcause
  if !inHalt m || !(c == 1 || c == 3 || c == 9 || c == 10) then m
  else
    let m1 := passClk (m.md.haltAt + 200000000) m
    if arMax m1 = 0 then m1
    else if arMax m1 ≤ arCount m1 then
      if m1.md.arTold then m1 else raise 0x07 { arg1 := c } (updMd (fun d => { d with arTold := true }) m1)
    else
      let m2 := raise 0x06 { arg1 := c } m1
      let t := m2.clk / 1000000000
      restart false env (updNv (fun n => { n with arTimes := (t :: n.arTimes).filter (fun x => decide (t < x + 86400)) }) m2)

def execAutomaticRestart (env : StartEnv) (s : State) : Host.Outcome State Fault Refusal := s.run (doAutoRestart env)

/-! ## Steps 4 to 6: time, restart decision, network start (R56-R59, R70, R136-R139, R192-R194) -/

/-- Every variable takes its INIT value (R192). -/
def initImage (app : AppImage) : Memory := app.vars.foldl (fun t v => memWrite t v.addr v.init) []

/-- Task control blocks start empty; the first heat sees SYS item 1 at `kind` (R192, R196). -/
def freshTasks (app : AppImage) (kind : Nat) : Tab Tcb :=
  app.tasks.foldl (fun t d => tabPut t d.num { Tcb.empty with startKind := kind }) []

/-- The valid retain records of the lanes taking part: the build of the bank being started (R136, R193). -/
def validRetains (m : Mod) : List (LaneId × Retain) :=
  (aliveLanes m).filterMap (fun l =>
    match (m.ln.get l).nv.retain with
    | some r => if r.valid && r.build == m.lg.app.build then some (l, r) else none
    | none => none)

/-- The majority retain record: the largest group of two or more equal digests (R136). -/
def majority (rs : List (LaneId × Retain)) : List (LaneId × Retain) :=
  let same (a b : LaneId × Retain) : Bool := retainDigest a.2 == retainDigest b.2
  match rs.find? (fun a => decide (2 ≤ (rs.filter (same a)).length)) with
  | some a => rs.filter (same a)
  | none => []

/-- Continuity is proven by the source taken (R70). -/
def continuous (src : Option Src) (meas : SrcMeas) (age : Int) (r : Retain) : Bool :=
  let source := match src with
    | some .partner => meas.partnerCont
    | some .gun => meas.partnerCont
    | some .ptp => (match r.gm with
        | some (g, tr) => g == meas.gm && tr && meas.traceable
        | none => false)
    | none => false
  source && decide (0 < age) && decide (age ≤ 10000000000) && !r.noCont

/-- Warm restart: the majority record and the retained timers are loaded (R137, R192). -/
def warmLoad (r : Retain) (m : Mod) : Mod :=
  let img := r.vars.foldl (fun t e => memWrite t e.1 e.2) (initImage m.lg.app)
  let m1 := { updLg (fun g => { g with tcbs := freshTasks g.app 1, insts := r.timers }) m with cur := img, nxt := img }
  updMd (fun d => { d with warm := true, areas := r.areas })
    (sweepDue (updEn (fun _ => { Engine.fresh with locked := r.locked, elems := clearMarks r.elements, routes := r.routes }) m1))

/-- The configured areas: those some object or variable of the application lies in. An area that only entries of the AREA-FREE pool name is not
among them: the manual does not say what configures an area; a DESIGN CHOICE (log entry 63). -/
def configuredAreas (app : AppImage) : BitVec 64 :=
  ((app.objs.filterMap (·.area)) ++ (app.vars.filterMap (·.area))).foldl (fun v a => v ||| BitVec.ofNat 64 (2 ^ a)) 0

/-- Cold restart: routes UNKNOWN, possessions from the most restrictive record (R138, R192, R232). -/
def coldBuild (rs : List (LaneId × Retain)) (m : Mod) : Mod :=
  let img := initImage m.lg.app
  let areas := if rs.isEmpty then configuredAreas m.lg.app else rs.foldl (fun v p => v ||| p.2.areas) 0
  let m1 := { updLg (fun g => { g with tcbs := freshTasks g.app 2, insts := [] }) m with cur := img, nxt := img }
  coldEngine (updMd (fun d => { d with warm := false, areas := areas }) m1)

/-- What the restart decision of R136 rests on. -/
structure RestartView where
  /-- Valid retain records, and those of the majority. -/
  rs : List (LaneId × Retain)
  best : List (LaneId × Retain)
  /-- Age in ns, from the latest write among the lanes of the majority (R70). Where there is none, RETAGE shows the age from the latest
  write of all: a DESIGN CHOICE (log entry 53); continuity is then not proven. -/
  age : Int
  /-- Continuity of time is proven. -/
  ok : Bool
  /-- MODRST.COLDWHY (R155); 0 warm. -/
  why : Nat

def restartView (src : Option Src) (meas : SrcMeas) (m : Mod) : RestartView :=
  let rs := validRetains m
  let best := majority rs
  let t := (if best.isEmpty then rs else best).foldl (fun a p => max a p.2.writeTime) 0
  let age : Int := (now m : Int) - t
  let ok := match best.head? with
    | some p => continuous src meas age p.2
    | none => false
  { rs := rs, best := best, age := age, ok := ok,
    why := if rs.isEmpty then 4 else if best.isEmpty then 1 else if 10000000000 < age then 2 else if !ok then 3 else 0 }

/-- MODRST shows the decision (R155); time without continuity is event 0x49 (R70). -/
def noteRestart (v : RestartView) (m : Mod) : Mod :=
  onlyIf (!v.rs.isEmpty && !v.ok) (raise 0x49 {})
    (updMd (fun d => { d with coldwhy := v.why, reteq := v.best.foldl (fun n p => n + 2 ^ laneNo p.1) 0,
                              retage := if v.rs.isEmpty then 0 else satN 255 (v.age.toNat / 100000000) })
      (updTm (fun x => { x with cont := v.ok }) m))

/-- A module joining as SHADOW makes no restart decision (R194). -/
def joinBuild (m : Mod) : Mod :=
  let img := initImage m.lg.app
  { updMd (fun d => { d with coldwhy := 5, warm := false }) (updLg (fun g => { g with tcbs := freshTasks g.app 0 }) m) with cur := img, nxt := img }

/-- A lane whose record is not that of the majority: event 0x08 (R136). -/
def tellOdd (best : List (LaneId × Retain)) (m : Mod) : Mod :=
  forEach ((aliveLanes m).filter (fun l => !(best.any (fun q => q.1 == l)))) (fun l acc => raise 0x08 { arg0 := laneNo l } acc) m

/-- START step 5: the restart decision of R136, in its order, and the state it builds; a module joining as SHADOW makes none. -/
def decideRestart (src : Option Src) (meas : SrcMeas) (m0 : Mod) : Mod :=
  let m := updMd (fun d => { d with step := 5 }) m0
  if m.pr.role = 2 then joinBuild m
  else
    let v := restartView src meas m
    match v.why, v.best.head? with
    | 0, some p => warmLoad p.2 (tellOdd v.best (noteRestart v m))
    | _, _ => coldBuild v.rs (noteRestart v m)

/-- START step 6: ring ends listen, CAN FD channels are enabled (R128, R324). -/
def startStep6 (m : Mod) : Mod :=
  let dark (i : Nat) : Bool := bitOf m.str.darkPorts (2 * i) && bitOf m.str.darkPorts (2 * i + 1)
  let segs := m.str.segs.mapIdx (fun i g => { g with role := if dark i then 0 else 3, darkAt := m.clk })
  let chans := m.can.chans.mapIdx (fun i c => { c with state := if bitOf m.can.canctl.toNat i && !bitOf m.md.bist (8 + i) then 0 else 3 })
  updMd (fun d => { d with step := 6, step5At := some m.clk })
    (updCan (fun c => { c with chans := chans }) (updStr (fun s => { s with segs := segs }) m))

/-- Whether START is waiting for time in step 4. Pair discovery, which runs there too, comes first: a module that is to join as SHADOW
takes its first station time from LEAD (R59, R460). -/
def acquiring (m : Mod) : Bool := mode m == .start && m.md.step == 4 && !m.tm.taken && m.pr.role != 3

/-- A code of PCRSRC names the source (R76). -/
def srcCode : Src → Nat
  | .ptp => 1
  | .partner => 2
  | .gun => 3

/-- Position of a source in PCRSRC; `none` where it is not listed (R76: a code counts at its first position only). -/
def srcRank (m : Mod) (s : Src) : Option Nat :=
  (List.range 3).find? (fun i => fieldOf m.cfg.pcrsrc.toNat (4 * i) 4 == srcCode s)

def srcOf (m : Mod) : Src → SrcState
  | .ptp => m.tm.ptp
  | .partner => m.tm.partner
  | .gun => m.tm.gun

def updSrc (s : Src) (f : SrcState → SrcState) (m : Mod) : Mod :=
  updTm (fun t => match s with
    | .ptp => { t with ptp := f t.ptp }
    | .partner => { t with partner := f t.partner }
    | .gun => { t with gun := f t.gun }) m

/-- This module sends gun frames itself (R53). -/
def isGunMaster (m : Mod) : Bool := m.str.segs.any (fun g => g.role == 1)

/-- Position of a source in the order in force: in SHADOW the partner comes ahead of every other (R54, R76). -/
def useRank (m : Mod) (s : Src) : Option Nat :=
  if m.pr.role = 2 ∧ s = .partner then some 0 else (srcRank m s).map (· + 1)

/-- A source the Pacer may use: listed, not this module's own gun frames, not a partner in SHADOW that follows this module (R53, R54). -/
def usable (m : Mod) (s : Src) : Bool :=
  (useRank m s).isSome && !(srcOf m s).absent &&
    match s with
    | .ptp => true
    | .gun => !isGunMaster m
    | .partner => !(leads m && m.pr.pmode == modeCode .shadow)

/-- The source PCRSRC lists first, with R53 and R54 applied, among those that are valid (R57); a module that joins as SHADOW takes its first
time from LEAD only (R59). -/
def firstSource (m : Mod) (src : Src) : Bool :=
  usable m src && (m.pr.role != 2 || src == .partner) && [Src.ptp, Src.partner, Src.gun].all (fun t => t == src || !usable m t || !(srcOf m t).valid ||
    (match useRank m src, useRank m t with
     | some i, some j => decide (i < j)
     | _, _ => true))

/-- The correction that cancels a learned offset, within the bound of R60. -/
def freqOf (drift : Int) : Int := max (-slewPpb) (min slewPpb (-drift))

/-- What was measured against a clock that the step of station time replaces counts no more (R61: offsets are from current station time).
The 16 offsets by which PTP is judged (R51) go on from the step where PTP itself is taken, whose offset is then 0; else 16 new ones are
awaited. DESIGN CHOICE (log entry 63). -/
def rebaseOffsets (taken : Option Src) (m : Mod) : Mod :=
  let keep := taken == some .ptp
  updTm (fun t =>
    let w := t.ptpPort.window
    { t with ptp := { t.ptp with offs := [], valid := t.ptp.valid && keep }, partner := { t.partner with offs := [] },
             gun := { t.gun with offs := [] },
             ptpPort := { t.ptpPort with window := if keep then w.map (fun o => o - w.headD 0) else [], syncAt := none, msDiff := none } }) m

/-- All lanes take a station time in one step; each starts with the frequency correction it stored (R57, R58, R68). -/
def stepTime (t : Nat) (taken : Option Src) (m : Mod) : Mod :=
  rebaseOffsets taken (updMd (fun d => { d with firstAt := t }) (updLanes (fun _ l => { l with time := t, corr := 0, freq := freqOf l.nv.drift }) m))

/-- Identity of the grandmaster selected. -/
def gmIdent (t : Pacer) : W64 := (t.ptpPort.gm.map (·.identity)).getD 0

/-- What the source taken tells of itself: of PTP, its grandmaster's own announcement (R70). -/
def measOf (src : Src) (meas : SrcMeas) (m : Mod) : SrcMeas :=
  if src = .ptp then { meas with gm := gmIdent m.tm, traceable := m.tm.ptp.traceable } else meas

/-- SOURCE_TAKEN: the first valid source in PCRSRC order, with R53 and R54 applied; a module that joins as SHADOW takes LEAD's time only
(R57, R59). All lanes step station time to it where it is later than the floor; one at or below it is absent for the rest of the run
(R57). Then step 5 and step 6. -/
def takeSource (src : Src) (time : Nat) (meas0 : SrcMeas) (m : Mod) : Mod :=
  let meas := measOf src meas0 m
  if !acquiring m || !(srcOf m src).valid || !firstSource m src then m
  else if (match m.tm.floor with
      | some f => decide (time ≤ f)
      | none => false) then
    raise 0x45 { arg1 := srcCode src }
      (updTm (fun t => { t with refusedN := satN 255 (t.refusedN + 1) }) (updSrc src (fun x => { x with absent := true, valid := false }) m))
  else
    let m1 := updSrc src (fun x => { x with traceable := meas.traceable, eligAt := some m.clk }) (stepTime time (some src) m)
    let m2 := updTm (fun t => { t with use := .following src, taken := true, servoAt := m.clk, agree := true,
                                       lastGm := if src = .ptp then some (meas.gm, meas.traceable) else t.lastGm }) m1
    startStep6 (decideRestart (some src) meas (raise 0x40 { arg1 := srcCode src } m2))

def execSourceTaken (src : Src) (time : Nat) (meas : SrcMeas) (s : State) : Host.Outcome State Fault Refusal :=
  s.run (takeSource src time meas)

/-- PCRCFG fields (R75). -/
def acqTo (m : Mod) : Nat := fieldOf m.cfg.pcrcfg.toNat 8 8
def ownOk (m : Mod) : Bool := bitOf m.cfg.pcrcfg.toNat 3
def hoAlrm (m : Mod) : Nat := fieldOf m.cfg.pcrcfg.toNat 4 4

/-- The oscillator with the lowest Allan deviation among the voting lanes; lane order decides a tie (R67). -/
def bestOsc (m : Mod) : Option LaneId :=
  (aliveLanes m).foldl (fun (a : Option LaneId) l =>
    match a with
    | none => some l
    | some x => if (m.ln.get l).nv.allan < (m.ln.get x).nv.allan then some l else some x) none

/-- Event 0x48 once (R58). -/
def tellSearch (m : Mod) : Mod := if m.tm.alarmed then m else raise 0x48 {} (updTm (fun t => { t with alarmed := true }) m)

/-- The floor plus 10 s, rounded up to a station cycle boundary (R58). -/
def ownStart (floor : Nat) : Nat := (floor + 10000000000 + 19999999) / 20000000 * 20000000

/-- The own timeline starts (R58). -/
def ownTimeline (f : Nat) (m : Mod) : Mod :=
  let t := ownStart f
  let m1 := stepTime t none (tellSearch m)
  updTm (fun x => { x with use := .own, taken := true, ref := bestOsc m, holdAt := m.clk, fromPtp := false, servoAt := m.clk, agree := true,
                           alarmed := false }) m1

/-- ACQUISITION_TIMEOUT: with OWNOK and a floor the own timeline starts; otherwise the Pacer keeps searching. Event 0x48 (R58). A module
that joins as SHADOW takes its first time from LEAD and starts no timeline of its own (R59). -/
def acqTimeout (m : Mod) : Mod :=
  if !acquiring m then m
  else
    let m1 := passClk (m.md.step4At + acqTo m * 1000000000) m
    match ownOk m1 && m1.pr.role != 2, m1.tm.floor with
    | true, some f => startStep6 (decideRestart none { gm := 0, traceable := false, partnerCont := false } (ownTimeline f m1))
    | _, _ => tellSearch m1

def execAcquisitionTimeout (s : State) : Host.Outcome State Fault Refusal := s.run acqTimeout

end Sys2Proof.Machine
end

