-- ==== Sys2Proof/Machine/Power.lean ====
section
/-! DEFINITION. The power path and ageing (R24, R37, R46, R582, R583, R590-R592, R597): what the supply sensor and each lane's own
measurements do. Events of the supply sensor carry SRC 4, those of a lane its own SRC (log entry 21). -/

namespace Sys2Proof.Machine

/-- Reading of the logic input and the Pace step (R583, R601): 0 normal, 1 slowed, 2 stopped. -/
def setPace (pace vin : Nat) (m : Mod) : Mod := updPw (fun p => { p with pace := pace, vin := vin }) m

/-- A lane's clock step is the lower of its margin plan step and the Pace step (R583). -/
def paceLanes (slow : Bool) (m : Mod) : Mod :=
  updLanes (fun _ l => setStep m.pc.cfg (if slow then max l.nv.plan 3 else l.nv.plan) l) m

/-- PACE_SLOWED: a logic input below 20.0 V for 1 ms (R583); event 0x30. -/
def doPaceSlowed (vin : Nat) (m : Mod) : Mod :=
  if 20000 ≤ vin ∨ m.pw.pace ≠ 0 then m else raise 0x30 { src := 4 } (paceLanes true (setPace 1 vin m))

def execPaceSlowed (vin : Nat) (s : State) : Host.Outcome State Fault Refusal := s.run (doPaceSlowed vin)

/-- PACE_NORMAL: at or above 21.0 V for 1 s while slowed (R583); event 0x31. -/
def doPaceNormal (vin : Nat) (m : Mod) : Mod :=
  if vin < 21000 ∨ m.pw.pace ≠ 1 then m else raise 0x31 { src := 4 } (paceLanes false (setPace 0 vin m))

def execPaceNormal (vin : Nat) (s : State) : Host.Outcome State Fault Refusal := s.run (doPaceNormal vin)

/-- Each lane records its station time with the power-fail flush (R56). -/
def recordTimes (m : Mod) : Mod :=
  if !m.tm.taken then m
  else updLanes (fun _ l => if l.alive && l.nv.flashOk then { l with nv := { l.nv with timeRec := some l.time } } else l) m

/-- LOGIC_INPUT_BELOW_16V: below 16.0 V for 2 ms (R583): HALT with HCAUSE 5, retain records, and the power-fail flush (R134, R512). -/
def doBelow16 (vin : Nat) (m : Mod) : Mod :=
  if 16000 ≤ vin then m
  else
    let m1 := setPace 2 vin m
    let m2 := if operating m1 then enterHalt 5 m1 else writeRetains m1
    powerFailFlush (recordTimes m2)

def execLogicInputBelow16v (vin : Nat) (s : State) : Host.Outcome State Fault Refusal := s.run (doBelow16 vin)

def feedNo : Feed → Nat
  | .one => 1
  | .two => 2

/-- One feed's reading; the logic input is the higher of the two (R582). -/
def setFeed (f : Feed) (mv : Nat) (m : Mod) : Mod :=
  updPw (fun p =>
    match f with
    | .one => { p with feed1 := mv, vin := max mv p.feed2 }
    | .two => { p with feed2 := mv, vin := max p.feed1 mv }) m

def feedPresent (m : Mod) : Feed → Bool
  | .one => m.pw.f1
  | .two => m.pw.f2

def setPresent (f : Feed) (on : Bool) (m : Mod) : Mod :=
  updPw (fun p =>
    match f with
    | .one => { p with f1 := on }
    | .two => { p with f2 := on }) m

def feedOv (m : Mod) : Feed → Bool
  | .one => m.pw.ov1
  | .two => m.pw.ov2

def setOv (f : Feed) (on : Bool) (m : Mod) : Mod :=
  updPw (fun p =>
    match f with
    | .one => { p with ov1 := on }
    | .two => { p with ov2 := on }) m

/-- LOGIC_FEED_ABSENT: below 16.0 V, event 0x32, once until it is back (R582). -/
def doFeedAbsent (f : Feed) (mv : Nat) (m : Mod) : Mod :=
  let m1 := setFeed f mv m
  if mv < 16000 ∧ feedPresent m f then raise 0x32 { src := 4, arg0 := feedNo f } (setPresent f false m1) else m1

def execLogicFeedAbsent (feed : Feed) (mv : Nat) (s : State) : Host.Outcome State Fault Refusal := s.run (doFeedAbsent feed mv)

/-- LOGIC_FEED_RESTORED: at or above 18.0 V for 1 s, event 0x33 (R582). -/
def doFeedRestored (f : Feed) (mv : Nat) (m : Mod) : Mod :=
  let m1 := setFeed f mv m
  if 18000 ≤ mv ∧ !feedPresent m f then raise 0x33 { src := 4, arg0 := feedNo f } (setPresent f true m1) else m1

def execLogicFeedRestored (feed : Feed) (mv : Nat) (s : State) : Host.Outcome State Fault Refusal := s.run (doFeedRestored feed mv)

/-- FEED_OVERVOLTAGE_DISCONNECT: above 36.0 V for 1 ms, event 0x34 (R582). -/
def doOvDisconnect (f : Feed) (mv : Nat) (m : Mod) : Mod :=
  let m1 := setFeed f mv m
  if 36000 < mv ∧ !feedOv m f then raise 0x34 { src := 4, arg0 := feedNo f } (setOv f true m1) else m1

def execFeedOvervoltageDisconnect (feed : Feed) (mv : Nat) (s : State) : Host.Outcome State Fault Refusal :=
  s.run (doOvDisconnect feed mv)

/-- FEED_OVERVOLTAGE_RECONNECT: at or below 30.0 V for 1 s (R582). -/
def doOvReconnect (f : Feed) (mv : Nat) (m : Mod) : Mod :=
  let m1 := setFeed f mv m
  if mv ≤ 30000 then setOv f false m1 else m1

def execFeedOvervoltageReconnect (feed : Feed) (mv : Nat) (s : State) : Host.Outcome State Fault Refusal :=
  s.run (doOvReconnect feed mv)

/-- TEMPERATURE_HIGH: above 70 °C, event 0x3A once until the reading has fallen to 67 °C or below (R597). -/
def doTemperature (t : Int) (m : Mod) : Mod :=
  let m1 := updPw (fun p => { p with temp := t }) m
  if 70 < t ∧ !m.pw.tempTold then raise 0x3A { src := 4 } (updPw (fun p => { p with tempTold := true }) m1)
  else if t ≤ 67 then updPw (fun p => { p with tempTold := false }) m1
  else m1

def execTemperatureHigh (temp : Int) (s : State) : Host.Outcome State Fault Refusal := s.run (doTemperature temp)

def flashNo : Flash → Nat
  | .laneA => 0
  | .laneB => 1
  | .laneC => 2
  | .frontEnd => 3

/-- Band of a wear in percent (R592): below 50, below 80, below 95, 95 or more. -/
def wearBand (w : Nat) : Nat := if w < 50 then 0 else if w < 80 then 1 else if w < 95 then 2 else 3

/-- Refresh interval of a band of wear, in ns: 12 months, 3 months, 1 month, 1 week (R592), a month counted as 365/12 days: DESIGN CHOICE (log
entry 63). -/
def refreshNs (band : Nat) : Nat :=
  match band with
  | 0 => 365 * 86400000000000
  | 1 => 365 * 86400000000000 / 4
  | 2 => 365 * 86400000000000 / 12
  | _ => 7 * 86400000000000

/-- The blocks of flash `i` are due to be moved: the interval of the band their wear stands in has passed (R592). -/
def refreshDue (m : Mod) (i : Nat) : Bool := decide (m.pw.movedAt.getD i 0 + refreshNs (m.pw.band.getD i 0) ≤ m.clk)

/-- FLASH_REFRESH: blocks whose interval has passed move with identical content, so no bank or settings area changes; the wear found is kept,
and event 0x38 is raised when it enters a higher band, which shortens the interval at once, and once per day of operating time at 95% or
more (R592). -/
def doRefresh (f : Flash) (wear : Nat) (m : Mod) : Mod :=
  let i := flashNo f
  let b := wearBand wear
  let day := m.clk / 86400000000000
  let tell := decide (m.pw.band.getD i 0 < b) || (b == 3 && decide (m.pw.wearDay.getD i 0 < day))
  let m1 := updPw (fun p => { p with wear := p.wear.set i wear, band := p.band.set i (max b (p.band.getD i 0)),
                                     movedAt := if refreshDue m i then p.movedAt.set i m.clk else p.movedAt }) m
  if tell then raise 0x38 { src := if i < 3 then i + 1 else 4, arg0 := i, arg1 := wear } (updPw (fun p => { p with wearDay := p.wearDay.set i day }) m1)
  else m1

def execFlashRefresh (flash : Flash) (wear : Nat) (s : State) : Host.Outcome State Fault Refusal := s.run (doRefresh flash wear)

/-- CLOCK_PLAN_LOWERED: after three consecutive readings below 8% the plan goes down one step at phase 0 of the next station cycle,
event 0x35 (R590). -/
def doPlanLowered (l : LaneId) (m : Mod) : Mod :=
  let x := m.ln.get l
  if !x.alive || !x.lowerDue || decide (3 ≤ x.nv.plan) then m
  else
    let m1 := unowe (100 + laneNo l) (toNext (100 + laneNo l) 0 m)
    let p := x.nv.plan + 1
    raise 0x35 { src := laneSrc l, arg0 := laneNo l, arg1 := p }
      (updLane l (fun y => setStep m.pc.cfg (max p y.step) { y with nv := { y.nv with plan := p }, lowerDue := false, lowReads := 0 }) m1)

def execClockPlanLowered (lane : LaneId) (s : State) : Host.Outcome State Fault Refusal := s.run (doPlanLowered lane)

/-- LANE_SUPPLY_LOST: the lane stops driving its switches and stops offering; it is excluded at the next photo finish (R37, R106). -/
def doSupplyLost (l : LaneId) (m : Mod) : Mod := updLane l (fun x => { x with supplied := false, opened := true }) m

def execLaneSupplyLost (lane : LaneId) (s : State) : Host.Outcome State Fault Refusal := s.run (doSupplyLost lane)

/-- HOLD_UP_STORE_EXHAUSTED: with both feeds gone the store runs down: the module is unpowered, and what was volatile is lost; dirty
records not flushed are lost with it (R46, R583). -/
def doExhausted (m : Mod) : Mod :=
  if (m.pw.f1 || m.pw.f2) && decide (16000 ≤ m.pw.vin) then m
  else
    let base := Mod.start m.clk m.freeN m.nv (m.ln.mapL (fun _ l => l.nv))
    { base with pw := { base.pw with wear := m.pw.wear, band := m.pw.band, wearDay := m.pw.wearDay, movedAt := m.pw.movedAt } }

def execHoldUpStoreExhausted (s : State) : Host.Outcome State Fault Refusal := s.run doExhausted

end Sys2Proof.Machine
end

