-- ==== Sys2Proof/Machine/Pacer.lean ====
section
/-! DEFINITION. The Pacer (R51-R80): time sources, eligibility, the servo, refusal, holdover, oscillator drift. Offsets are those of
the source from station time, in ns: what a lane has to be corrected by. -/

namespace Sys2Proof.Machine

/-! ## Eligibility (R51-R55) -/

/-- Eligible: valid and not refused (R55). -/
def eligible (m : Mod) (s : Src) : Bool := usable m s && (srcOf m s).valid && !(srcOf m s).refused

/-- Source `s` ranks higher than `t`. -/
def outranks (m : Mod) (s t : Src) : Bool :=
  match useRank m s, useRank m t with
  | some i, some j => decide (i < j)
  | some _, none => true
  | none, _ => false

/-- The highest-priority eligible source other than `out`. -/
def bestEligible (m : Mod) (out : Src) : Option Src :=
  ([Src.ptp, Src.partner, Src.gun].filter (fun s => s != out && eligible m s)).foldl (fun (a : Option Src) s =>
    match a with
    | none => some s
    | some t => if outranks m s t then some s else some t) none

/-- The moment from which a source has been eligible without a break is kept up. -/
def noteElig (s : Src) (m : Mod) : Mod :=
  if eligible m s then updSrc s (fun x => { x with eligAt := some (x.eligAt.getD m.clk) }) m
  else updSrc s (fun x => { x with eligAt := none }) m

/-! ## Using and losing a source (R55, R62-R65, R67) -/

/-- The Pacer follows a source; station time is not stepped. What was left of a correction towards another source is given up: the new
source's offset is measured against station time as it stands (R61, R62). -/
def follow (s : Src) (m : Mod) : Mod :=
  updTm (fun t => { t with use := .following s, ref := none,
                           lastGm := if s = .ptp then some (gmIdent t, t.ptp.traceable) else t.lastGm })
    (updLanes (fun _ x => { x with corr := 0 }) m)

/-- The other voting lanes slew towards the reference lane's station time (R67). -/
def towardsRef (m : Mod) : Mod :=
  match m.tm.ref with
  | none => m
  | some r =>
    let t := (m.ln.get r).time
    updLanes (fun l x => if l = r then x else { x with corr := (t : Int) - x.time, offset := (x.time : Int) - t }) m

/-- Holdover begins on the best oscillator, corrected by its learned frequency offset, which every lane's frequency correction goes on
to apply: event 0x43 (R63, R67). -/
def holdover (fromPtp : Bool) (m : Mod) : Mod :=
  let m1 := updTm (fun t => { t with use := .holdover, ref := bestOsc m, holdAt := m.clk, alarmed := false, fromPtp := fromPtp }) m
  raise 0x43 {} (towardsRef (updLanes (fun _ x => { x with corr := 0, freq := freqOf x.nv.drift, offset := 0 }) m1))

/-- The source in use stops being eligible: another replaces it at once, or holdover begins. Event 0x41 where it became invalid, not
where it was refused (R55, R63). -/
def loseSource (s : Src) (invalid : Bool) (m : Mod) : Mod :=
  if m.tm.use ≠ .following s then m
  else
    let m1 := onlyIf invalid (raise 0x41 { arg1 := srcCode s }) m
    match bestEligible m1 s with
    | some t => raise 0x42 { arg1 := srcCode t } (follow t m1)
    | none => holdover (s == .ptp) m1

/-- A source's validity changes; in use, it is lost with it. One refused for the rest of the run is treated as absent (R57). A source that is
not valid measures no offset, so what a refused one had of the 10 s of R61 is broken. -/
def setValid (s : Src) (v : Bool) (m : Mod) : Mod :=
  if (srcOf m s).absent then m
  else
    let m1 := noteElig s (updSrc s (fun x => { x with valid := v, clearAt := if v then x.clearAt else none }) m)
    if v then m1 else loseSource s true m1

/-- A module that becomes gun master follows its own gun frames no longer (R53). -/
def dropOwnGun (m : Mod) : Mod := if isGunMaster m then loseSource .gun true (noteElig .gun m) else m

/-- In SHADOW the partner is used as soon as it is eligible: R54 puts it ahead of every other source while it is valid. It then ends holdover
and the own timeline too without the 10 s of R55 and R65, which R55 gives outside R53 and R54; R65 makes no such exception: a DESIGN
CHOICE between the two (log entry 63). -/
def preferPartner (m : Mod) : Mod :=
  if m.pr.role = 2 ∧ eligible m .partner ∧ m.tm.taken ∧ m.tm.use ≠ .following .partner then raise 0x42 { arg1 := 2 } (follow .partner m)
  else m

/-- An offset of a source is measured; before station time is taken there is nothing to measure it from (R61). A source that is absent is not
measured (R57). -/
def measure (s : Src) (off : Int) (m : Mod) : Mod :=
  if (srcOf m s).absent then m
  else updSrc s (fun x => { x with offs := if m.tm.taken then off :: x.offs else x.offs, heardAt := some m.clk }) m

/-! ## PTP (R51, R52, R77) -/

def ptpDomain (m : Mod) : Nat := fieldOf m.cfg.pcrptp.toNat 16 8
def ptpMaxClass (m : Mod) : Nat := fieldOf m.cfg.pcrptp.toNat 8 8
def ptpTransport (m : Mod) : Nat := fieldOf m.cfg.pcrptp.toNat 4 4
def ptpPeerDelay (m : Mod) : Bool := bitOf m.cfg.pcrptp.toNat 0

/-- The message is of the transport and domain set up (R52, R77). -/
def ptpMine (m : Mod) (h : PtpHead) : Bool := h.transport == ptpTransport m && h.domain == ptpDomain m

/-- logSyncInterval of a supported master (R52). -/
def syncRate (h : PtpHead) : Bool := decide (-4 ≤ h.logInterval) && decide (h.logInterval ≤ 0)

def updPort (f : PtpPort → PtpPort) (m : Mod) : Mod := updTm (fun t => { t with ptpPort := f t.ptpPort }) m

/-- The 16 most recent offsets lie within a spread of 50 µs (R51). -/
def spreadOk (w : List Int) : Bool :=
  decide (w.length = 16) && w.all (fun a => w.all (fun b => decide (a - b ≤ 50000)))

/-- PTP is valid while its grandmaster announces itself within MAXCLASS and its offsets are steady (R51). -/
def judgePtp (m : Mod) : Mod :=
  let p := m.tm.ptpPort
  setValid .ptp ((p.gm.any (fun g => decide (g.clockClass ≤ ptpMaxClass m))) && spreadOk p.window) m

/-- One measured difference received − sent of a Sync: the offset of the source is the path delay less it. Before any delay exchange the delay
taken is 0, and such an offset counts among the 16 of R51: a DESIGN CHOICE (log entry 63), the manual gives no delay there. -/
def ptpOffset (diff : Int) (m : Mod) : Mod :=
  let off := m.tm.ptpPort.delay - diff
  judgePtp (measure .ptp off (updPort (fun p => { p with msDiff := some diff, syncAt := none, window := (off :: p.window).take 16 }) m))

/-- Fields in the order the data set comparison of the default best master clock algorithm takes them, the lower the better; PRESUMED
from IEEE 1588, which R52 names (log entry 22). -/
def gmKey (g : PtpGm) : List Nat :=
  [g.priority1, g.clockClass, g.accuracy, g.variance, g.priority2, g.identity.toNat, g.stepsRemoved]

/-- Lexical order. -/
def lexLt : List Nat → List Nat → Bool
  | a :: as, b :: bs => decide (a < b) || (a == b && lexLt as bs)
  | [], _ :: _ => true
  | _, [] => false

/-- Announce: the grandmaster selected announces itself anew, or a better one takes its place (R52). -/
def ptpAnnounce (gm : PtpGm) (log : Int) (m : Mod) : Mod :=
  let p := m.tm.ptpPort
  let same := p.gm.any (fun g => g.identity == gm.identity)
  let better := same || p.gm.isNone || p.gm.any (fun g => lexLt (gmKey gm) (gmKey g))
  if !better then m
  else
    let win := if same then p.window else []
    let m1 := updPort (fun q => { q with gm := some gm, logAnnounce := log, annAt := some m.clk, window := win }) m
    let m2 := updSrc .ptp (fun x => { x with traceable := gm.traceable }) m1
    let m3 := if m2.tm.use = .following .ptp then updTm (fun t => { t with lastGm := some (gm.identity, gm.traceable) }) m2 else m2
    judgePtp m3

/-- The timeTraceable flag that the grandmaster last followed reports, as long as it is the one a retain record would name (R70). -/
def noteLastGm (gm : PtpGm) (m : Mod) : Mod :=
  if m.tm.lastGm.any (fun p => p.1 == gm.identity) && (m.tm.use == .following .ptp || (m.tm.use == .holdover && m.tm.fromPtp)) then
    updTm (fun t => { t with lastGm := some (gm.identity, gm.traceable) }) m
  else m

/-- PTP_MESSAGE: measured by the front end, of the transport, domain and delay mechanism set up (R51, R52, R77). A Sync, Follow_Up or delay
answer is taken as the selected grandmaster's: the row's message names no sender, and the manual does not say what one of another master
would do; a DESIGN CHOICE (log entry 63). -/
def doPtp (msg : PtpMsg) (m : Mod) : Mod :=
  if m.tm.ptp.absent then m
  else
    match msg with
    | .announce h gm => if ptpMine m h ∧ -3 ≤ h.logInterval ∧ h.logInterval ≤ 2 then ptpAnnounce gm h.logInterval (noteLastGm gm m) else m
    | .sync h origin received =>
      if !(ptpMine m h && syncRate h) then m
      else
        match origin with
        | some o => ptpOffset (received - o) m
        | none => updPort (fun p => { p with syncAt := some received }) m
    | .followUp h origin =>
      if !(ptpMine m h && syncRate h) then m
      else
        match m.tm.ptpPort.syncAt with
        | some r => ptpOffset (r - origin) m
        | none => m
    | .delayResp h sent received =>
      if !ptpMine m h || ptpPeerDelay m then m
      else
        match m.tm.ptpPort.msDiff with
        | some x => updPort (fun p => { p with delay := (x + (received - sent)) / 2 }) m
        | none => m
    | .pdelayResp h t1 t2 t3 t4 =>
      if !ptpMine m h || !ptpPeerDelay m then m else updPort (fun p => { p with delay := ((t4 - t1) - (t3 - t2)) / 2 }) m

def execPtpMessage (msg : PtpMsg) (s : State) : Host.Outcome State Fault Refusal := s.run (doPtp msg)

/-- Three announce intervals in ns. -/
def announceLimit (log : Int) : Nat :=
  if 0 ≤ log then 3000000000 * 2 ^ log.toNat else 3000000000 / 2 ^ (-log).toNat

/-- PTP_ANNOUNCE_TIMEOUT: three announce intervals without an Announce of the selected grandmaster: the source becomes invalid (R51);
in use, it is lost (R63). -/
def doPtpTimeout (m : Mod) : Mod :=
  match m.tm.ptpPort.annAt with
  | some t =>
    let m1 := passClk (t + announceLimit m.tm.ptpPort.logAnnounce) m
    setValid .ptp false (updPort (fun p => { p with gm := none, annAt := none, window := [] }) (updSrc .ptp (fun x => { x with heardAt := none }) m1))
  | none => m

def execPtpAnnounceTimeout (s : State) : Host.Outcome State Fault Refusal := s.run doPtpTimeout

/-- A source that was heard goes silent for `ns`. -/
def sourceSilent (s : Src) (ns : Nat) (m : Mod) : Mod :=
  match (srcOf m s).heardAt with
  | none => m
  | some t => setValid s false (updSrc s (fun x => { x with heardAt := none }) (passClk (t + ns) m))

/-- GUN_SOURCE_TIMEOUT: 2 basic cycles without a gun frame (R51). -/
def execGunSourceTimeout (s : State) : Host.Outcome State Fault Refusal := s.run (sourceSilent .gun 10000000)

/-- PARTNER_TIME_TIMEOUT: 4 missing time messages (R51). -/
def execPartnerTimeTimeout (s : State) : Host.Outcome State Fault Refusal := s.run (sourceSilent .partner 20000000)

/-! ## The servo (R60, R61) -/

/-- The median of the offsets measured in a second; the lower of the two middle ones of an even number. -/
def median (xs : List Int) : Option Int :=
  let s := sortBy (fun a b => decide (a < b)) xs
  s[(s.length - 1) / 2]?

def overMs (d : Int) : Bool := decide (1000000 < d) || decide (d < -1000000)

/-- A source whose offset exceeds 1 ms is refused; an offset of exactly 1 ms is not (R61). -/
def refuseSrc (s : Src) (m : Mod) : Mod :=
  let m1 := noteElig s (updSrc s (fun x => { x with refused := true, clearAt := none }) m)
  loseSource s false (raise 0x45 { arg1 := srcCode s } (updTm (fun t => { t with refusedN := satN 255 (t.refusedN + 1) }) m1))

/-- One source at the servo: its offset is judged, and in use it corrects every lane. A second without an offset breaks the 10 s of a refused
source (R61). -/
def servoSrc (s : Src) (m : Mod) : Mod :=
  let x := srcOf m s
  match median x.offs with
  | none => updSrc s (fun y => { y with clearAt := none }) m
  | some d =>
    let m0 := updSrc s (fun y => { y with offs := [] }) m
    if x.refused && overMs d then updSrc s (fun y => { y with clearAt := none }) m0
    else if !x.valid then m0
    else if overMs d then refuseSrc s m0
    else
      let m1 := if x.refused then updSrc s (fun y => { y with clearAt := some (y.clearAt.getD m.clk) }) m0 else m0
      if m1.tm.use = .following s then
        let t := now m1
        updLanes (fun _ l => { l with corr := d + ((t : Int) - l.time), offset := ((l.time : Int) - t) - d }) m1
      else m1

/-- SERVO_CORRECTION: once per second (R60, R61). -/
def doServo (m : Mod) : Mod :=
  if !m.tm.taken then m
  else
    let m1 := passClk (m.tm.servoAt + 1000000000) m
    let m2 := updTm (fun t => { t with servoAt := m1.clk }) m1
    towardsRef (servoSrc .gun (servoSrc .partner (servoSrc .ptp m2)))

def execServoCorrection (s : State) : Host.Outcome State Fault Refusal := s.run doServo

/-- SOURCE_ELIGIBLE_10S: a higher-ranked source replaces the one in use, or any eligible one ends holdover or the own timeline, after
10 s of unbroken eligibility; event 0x42 (R55, R65). -/
def doEligible (s : Src) (m : Mod) : Mod :=
  match (srcOf m s).eligAt with
  | none => m
  | some t =>
    if !eligible m s || !m.tm.taken then m
    else
      let m1 := passClk (t + 10000000000) m
      let take := match m1.tm.use with
        | .following u => outranks m1 s u && u != s
        | .holdover | .own => true
        | .acquire => false
      if take then raise 0x42 { arg1 := srcCode s } (follow s m1) else m1

def execSourceEligible10s (src : Src) (s : State) : Host.Outcome State Fault Refusal := s.run (doEligible src)

/-- REFUSED_SOURCE_CLEARED: its offset has been 1 ms or less for 10 s (R61). -/
def doCleared (s : Src) (m : Mod) : Mod :=
  match (srcOf m s).refused, (srcOf m s).clearAt with
  | true, some t =>
    if (srcOf m s).absent then m
    else noteElig s (updSrc s (fun x => { x with refused := false, clearAt := none }) (passClk (t + 10000000000) m))
  | _, _ => m

def execRefusedSourceCleared (src : Src) (s : State) : Host.Outcome State Fault Refusal := s.run (doCleared src)

/-! ## Holdover and drift (R64, R67-R69, R591) -/

def inHold (m : Mod) : Bool := m.tm.use == .holdover || m.tm.use == .own

/-- Frequency uncertainty of the reference oscillator in ppb, at least 1 ppm (R64). DESIGN CHOICE (log entry 53): the manual does not say
what that uncertainty is; the model takes the oscillator's stored Allan deviation (R67) as ppb. -/
def holdPpb (m : Mod) : Nat :=
  match m.tm.ref with
  | some l => max 1000 (m.ln.get l).nv.allan
  | none => 1000

/-- Holdover error estimate in ns (R64, R74). -/
def holdError (m : Mod) : Nat := if inHold m then (m.clk - m.tm.holdAt) * holdPpb m / 1000000000 else 0

/-- HOLDOVER_ALARM: once when the estimate passes HOALRM (R64). -/
def doHoldAlarm (m : Mod) : Mod :=
  if !inHold m || m.tm.alarmed then m
  else
    let lim := hoAlrm m * 100000
    let m1 := passClk (m.tm.holdAt + (lim + 1) * 1000000000 / holdPpb m + 1) m
    raise 0x44 { arg2 := satN 0xFFFFFFFF (holdError m1) } (updTm (fun t => { t with alarmed := true }) m1)

def execHoldoverAlarm (s : State) : Host.Outcome State Fault Refusal := s.run doHoldAlarm

/-- One lane's drift window (R68, R69, R591): beyond 10 ppm DRIFTLIM and event 0x47, from 20 ppm event 0x3B once, beyond 25 ppm the
photo finish excludes the lane. Event 0x47 is raised when DRIFTLIM comes up, not in every window beyond 10 ppm: a DESIGN CHOICE (log entry
53). -/
def driftLane (ppb : PerLane Int) (adev : PerLane Nat) (l : LaneId) (m : Mod) : Mod :=
  let x := m.ln.get l
  if !x.alive then m
  else
    let p := ppb.get l
    let a := p.natAbs
    let m1 := updLane l (fun y => { y with nv := { y.nv with drift := p, allan := adev.get l }, freq := freqOf p, driftLim := decide (10000 < a),
                                           exclCause := if 25000 < a then 13 else y.exclCause }) m
    let m2 := onlyIf (decide (10000 < a) && !x.driftLim) (raise 0x47 { src := laneSrc l, arg0 := laneNo l }) m1
    if 20000 ≤ a ∧ !x.driftEol then
      raise 0x3B { src := laneSrc l, arg0 := laneNo l } (updLane l (fun y => { y with driftEol := true }) m2)
    else m2

def doDrift (ppb : PerLane Int) (adev : PerLane Nat) (m : Mod) : Mod :=
  match m.tm.use with
  | .following _ => forEach allLanes (driftLane ppb adev) m
  | _ => m

/-- OSCILLATOR_DRIFT_WINDOW: every 100 s while a source is followed (R68). -/
def execOscillatorDriftWindow (ppb : PerLane Int) (adev : PerLane Nat) (s : State) : Host.Outcome State Fault Refusal :=
  s.run (doDrift ppb adev)

/-- The reference lane was excluded: the next best voting lane takes over (R67). -/
def reRef (m : Mod) : Mod :=
  match m.tm.ref with
  | some l => if (m.ln.get l).alive then m else towardsRef (updTm (fun t => { t with ref := bestOsc m }) m)
  | none => m

/-! ## Registers (R74, R78, R79) -/

/-- PCRSCNL_READ: returns SCN[31:0] and latches SCN[63:32] (R74). -/
def doScnRead (m : Mod) : Mod :=
  let n := scn m
  updHost (fun h => { h with readData := BitVec.ofNat 32 n }) (updTm (fun t => { t with scnh := BitVec.ofNat 32 (n / 2 ^ 32) }) m)

def execPcrscnlRead (s : State) : Host.Outcome State Fault Refusal := s.run doScnRead

/-- PCRSTS (R78). -/
def pcrSts (m : Mod) : W32 :=
  let t := m.tm
  let (srcNow, state) := match t.use with
    | .acquire => (0, 0)
    | .following s => (srcCode s, if (m.ln.get (refLane m)).corr = 0 then 1 else 2)
    | .holdover => (4, 3)
    | .own => (5, 4)
  let trace := match t.use with
    | .following s => (srcOf m s).traceable
    | _ => false
  pack [(satN 255 t.refusedN, 16, 8), (srcNow, 8, 4), (state, 4, 4), (b2n t.cont, 3, 1), (b2n trace, 2, 1), (b2n (stepRef m), 1, 1),
        (b2n t.agree, 0, 1)]

/-- PCRLNA, PCRLNB, PCRLNC (R79). -/
def pcrLn (m : Mod) (l : LaneId) : W32 :=
  let x := m.ln.get l
  pack [(satSigned 16 x.nv.drift, 16, 16), (b2n ((vsetOf m).get l), 2, 1), (b2n x.driftLim, 1, 1), (b2n (m.tm.ref == some l), 0, 1)]

end Sys2Proof.Machine
end

