-- ==== Sys2Proof/Machine/Lanes.lean ====
section
/-! DEFINITION. Inside a lane (R81-R89, R142-R145, R590): the comparator and its proof, the scrub, the hurdle, and the cross-lane
lines (R100). -/

namespace Sys2Proof.Machine

/-! ## Comparator (R83, R84, R87-R89) -/

/-- COMPARATOR_MISMATCH: rails 01 mean equal, 10 mismatch, 00 and 11 a comparator fault (R83). The lane stops with cause 1; while
the test routing is active the reaction goes to the test latch (R87). -/
def doMismatch (l : LaneId) (rails : BitVec 2) (m : Mod) : Mod :=
  if rails = 1 ∨ !(m.ln.get l).alive then m
  else if (m.ln.get l).testRoute then updLane l (fun x => { x with testLatch := true }) m
  else stopLane l 1 m

def execComparatorMismatch (lane : LaneId) (rails : BitVec 2) (s : State) : Host.Outcome State Fault Refusal :=
  s.run (doMismatch lane rails)

/-- One finding of the scrub (R86). -/
def scrubOne (l : LaneId) (f : ScrubFind) (m : Mod) : Mod :=
  if !(m.ln.get l).alive then m
  else
    match f with
    | .single _ => pcEvent l 0x0C m
    | .doubleAllocated _ => stopLane l 14 m
    | .doubleUnallocated _ => raise 0x29 { src := laneSrc l, arg0 := laneNo l } m

/-- SRAM_SCRUB: single-bit errors are corrected and counted, a double-bit error stops the lane in allocated SRAM and is zeroed in
unallocated SRAM (R86). -/
def execSramScrub (lane : LaneId) (finds : List ScrubFind) (s : State) : Host.Outcome State Fault Refusal :=
  s.run (forEach finds (scrubOne lane))

/-- COMPARATOR_PROOF_OVERDUE: a lane whose last proof is older than 1,000 ms stops itself with cause 2; not before START completes
(R89). -/
def doProofOverdue (l : LaneId) (m : Mod) : Mod :=
  if !serving m || !(m.ln.get l).alive then m else stopLane l 2 (passClk ((m.ln.get l).proofAt + 1000000001) m)

def execComparatorProofOverdue (lane : LaneId) (s : State) : Host.Outcome State Fault Refusal := s.run (doProofOverdue lane)

/-- TEST_ROUTING_CLOSE: the routing closes by itself after 64 clocks; still active, it is a comparator fault: cause 2 (R88). -/
def doRoutingClose (l : LaneId) (active : Bool) (m : Mod) : Mod :=
  if !(m.ln.get l).alive then m
  else if active then stopLane l 2 m
  else updLane l (fun x => { x with testRoute := false, testLatch := false }) m

def execTestRoutingClose (lane : LaneId) (active : Bool) (s : State) : Host.Outcome State Fault Refusal :=
  s.run (doRoutingClose lane active)

/-! ## Hurdles (R89, R142-R145) -/

/-- The lane whose turn it is: position SCN mod k in the order A, B, C of the voting lanes (R89). -/
def hurdleLane (m : Mod) : Option LaneId :=
  let vs := voters m
  if vs.isEmpty then none else vs[scn m % vs.length]?

/-- The hurdle of this station cycle has been abandoned. -/
def hurdleIsOff (m : Mod) : Bool := m.md.hurdleOff == scn m + 1

/-- The hurdle of a lane gives way: counted once, and tried again at the lane's next turn (R144, R196). -/
def abandonHurdle (l : LaneId) (m : Mod) : Mod :=
  if hurdleIsOff m then m
  else
    pcEvent l 0x19 (updMd (fun d => { d with hurdleOff := scn m + 1, abtot := satN 65535 (d.abtot + 1) })
      (updLane l (fun x => { x with abandoned := min 8 (x.abandoned + 1) }) m))

/-- A hurdle item fails: event 0x0B with the item, and the lane stops (R143). Stop code 3 marks it for HCAUSE 9. -/
def itemFails (l : LaneId) (item : Nat) (m : Mod) : Mod :=
  stopLane l 3 (raise 0x0B { src := laneSrc l, arg0 := laneNo l, arg1 := item } m)

/-- Hurdle item 7 at the plan step (R590): below 4% at 900 MHz is a failure, below 8% there the end of life, and three readings
below 8% in a row lower the plan. -/
def readCanary (l : LaneId) (margin : Nat) (m : Mod) : Mod :=
  let x := m.ln.get l
  let low := if margin < 8 then x.lowReads + 1 else 0
  let last := decide (x.nv.plan = 3)
  let m1 := updLane l (fun y => { y with margin := margin, lowReads := if last then 0 else low, lowerDue := !last && decide (3 ≤ low) }) m
  let m2 := onlyIf (!last && decide (3 ≤ low) && !x.lowerDue) (owe (100 + laneNo l)) m1
  if last && decide (margin < 8) && !x.eol then
    raise 0x36 { src := laneSrc l, arg0 := laneNo l } (updLane l (fun y => { y with eol := true }) m2)
  else m2

/-- The item of this hurdle is proven. -/
def itemProven (l : LaneId) (item : Nat) (m : Mod) : Mod :=
  pcEvent l 0x18 (updLane l (fun y =>
    { y with itemAt := y.itemAt.set item m.clk, itemNext := (item + 1) % 8, abandoned := 0 }) m)

/-- The test injections of R87 in turn: both write paths, each rail at each stage of the tree, each delay register stage. -/
def injectionResults (i : Injections) : List InjResult :=
  [i.dataPath, i.addrPath] ++ i.treeRails.flatMap (fun p => [p.1, p.2]) ++ i.delayStages

/-- What one injection leaves in the test latch, to which the reaction path is routed: set by a result on both rails within two clocks.
The lane reads the latch and clears it before the next (R87). -/
def latched (r : InjResult) : Bool := r == .bothRails

/-- The comparator is proven: it has stages to prove, and every injection sets the latch (R87, R88). -/
def comparatorProven (i : Injections) : Bool :=
  !i.treeRails.isEmpty && !i.delayStages.isEmpty && (injectionResults i).all latched

/-- The hurdle of a lane: comparator proof first, then the next item of the rotation (R87, R142). -/
def runHurdle (l : LaneId) (obs : HurdleObs) (m : Mod) : Mod :=
  let item := (m.ln.get l).itemNext
  let m1 := updLane l (fun y => { y with testRoute := true, testLatch := false }) m
  if !comparatorProven obs.injections then stopLane l 2 m1
  else
    let m2 := pcEvent l 0x1A (updLane l (fun y => { y with proofAt := m.clk }) m1)
    if item = 7 then
      let m3 := readCanary l obs.margin m2
      if !obs.itemPass || (decide ((m.ln.get l).nv.plan = 3) && decide (obs.margin < 4)) then itemFails l 7 m3 else itemProven l 7 m3
    else if obs.itemPass then itemProven l item m2
    else itemFails l item m2

/-- HURDLE: from phase 16,100, unless a service request has abandoned it at phase 16,000 (R142, R144). -/
def doHurdle (obs : HurdleObs) (m : Mod) : Mod :=
  if !serving m then m
  else
    let m1 := toPhaseFrom (scnOf m.md.startedAt * 20000000 + 20000000) 12 16100 m
    match hurdleLane m1 with
    | some l => if hurdleIsOff m1 || !(m1.ln.get l).alive then m1 else runHurdle l obs m1
    | none => m1

def execHurdle (obs : HurdleObs) (s : State) : Host.Outcome State Fault Refusal := s.run (doHurdle obs)

/-- HURDLE_ITEM_OVERDUE: the interval of an item passes 10 s (R143). -/
def doItemOverdue (l : LaneId) (item : Nat) (m : Mod) : Mod :=
  if !serving m || !(m.ln.get l).alive then m
  else itemFails l item (passClk ((m.ln.get l).itemAt.getD item 0 + 10000000001) m)

def execHurdleItemOverdue (lane : LaneId) (item : Fin 8) (s : State) : Host.Outcome State Fault Refusal :=
  s.run (doItemOverdue lane item.val)

/-! ## Cross-lane lines (R100, R118) -/

def lineNo (k : Link) (line : Bool) : Nat := 2 * linkNo k + b2n line

def lineUp (m : Mod) (n : Nat) : Bool := m.md.lines.getLsbD n

def setLine (n : Nat) (up : Bool) (m : Mod) : Mod :=
  updMd (fun d => { d with lines := BitVec.ofNat 6 (setBit d.lines.toNat n up) }) m

/-- A line has delivered nothing valid for 20 ms. -/
def lineSilent (m : Mod) (n : Nat) : Bool := decide (tabGet 0 m.md.lineAt n + 20000000 ≤ m.clk)

/-- LINK_LINE_LOST: after 20 ms without a valid frame; event 0x25 for one line, event 0x26 alone where both lines of the link are
lost (R100). SRC 0, ARG0 the link in the order AB, BC, CA and, for 0x25, ARG1 the line are a DESIGN CHOICE (log entry 54). A line of the same link that has been silent as long is declared lost at the same moment. -/
def doLineLost (k : Link) (line : Bool) (m : Mod) : Mod :=
  let n := lineNo k line
  let o := lineNo k (!line)
  if !lineUp m n then m
  else
    let m1 := setLine n false (passClk (tabGet 0 m.md.lineAt n + 20000000) m)
    if !lineUp m1 o then raise 0x26 { arg0 := linkNo k } m1
    else if lineSilent m1 o then raise 0x26 { arg0 := linkNo k } (setLine o false m1)
    else raise 0x25 { arg0 := linkNo k, arg1 := b2n line } m1

def execLinkLineLost (link : Link) (line : Bool) (s : State) : Host.Outcome State Fault Refusal := s.run (doLineLost link line)

/-- LINK_LINE_RESTORED: a lost line that delivers valid frames again is restored once it has done so for 1 s (R100). -/
def doLineRestored (n : Nat) (m : Mod) : Mod :=
  match tabFind m.md.lineSince n with
  | none => m
  | some t =>
    if lineUp m n then m
    else
      let m1 := passClk (t + 1000000000) m
      updMd (fun d => { d with lineAt := tabPut d.lineAt n m1.clk, lineSince := tabDel d.lineSince n }) (setLine n true m1)

def execLinkLineRestored (link : Link) (line : Bool) (s : State) : Host.Outcome State Fault Refusal :=
  s.run (doLineRestored (lineNo link line))

/-- VOTCMP (R120): proof ages in ms from the last proof; 0 during START, and until a START has completed. -/
def votCmp (m : Mod) : W32 :=
  let age (l : LaneId) : Nat := if mode m == .start || m.md.doneAt.isNone then 0 else satN 1023 ((m.clk - (m.ln.get l).proofAt) / 1000000)
  pack [(age .c, 20, 10), (age .b, 10, 10), (age .a, 0, 10)]

end Sys2Proof.Machine
end

