-- ==== Sys2Proof/Machine/Vote.lean ====
section
/-! DEFINITION. The photo finish (R66, R93-R108, R119): frames between lanes, verdicts, confirmations, the final voting set,
exclusion, HALT. -/

namespace Sys2Proof.Machine

/-! ## Frames (R17, R66, R100, R101) -/

/-- What a line's silence ends: the valid frames it has delivered without a break (R100). -/
def lineBroke (n : Nat) (m : Mod) : Mod := updMd (fun d => { d with lineSince := tabDel d.lineSince n }) m

/-- A line delivered a copy: one that passes the link check was heard; on a lost line, valid frames with no gap of 20 ms begin or go on
(R17, R100). -/
def lineHeard (n : Nat) (ok : Bool) (m : Mod) : Mod :=
  if !ok then lineBroke n m
  else
    let going := (tabFind m.md.lineSince n).isSome && decide (m.clk < tabGet 0 m.md.lineAt n + 20000000)
    updMd (fun d => { d with lineAt := tabPut d.lineAt n m.clk,
                             lineSince := if lineUp m n then tabDel d.lineSince n else if going then d.lineSince else tabPut d.lineSince n m.clk }) m

/-- What the two copies of a frame tell about their lines, and to the receiver's performance counters (R100, R487); each goes through the
receiver's unit 1 with its check value expected (R17, R501, R502). -/
def heardOn (rcv : LaneId) (k : Link) (c : XCopies) (m : Mod) : Mod :=
  let hear (bs : List Byte) (line : Bool) (acc : Mod) : Mod :=
    if bs.isEmpty then acc
    else
      laneCvu rcv 1 (cvuOn 2 (bs.take (bs.length - 8)) (some (BitVec.ofNat 64 (readBE bs (bs.length - 8) 8))))
        (pcEvent rcv (if linkOk bs then 0x11 else 0x12) (lineHeard (lineNo k line) (linkOk bs) acc))
  hear c.line1 true (hear c.line0 false m)

/-- Largest difference of station time between two lanes seen in this cycle's frames, ns (R66). -/
def pairDiff (m : Mod) (x y : LaneId) : Nat := max ((m.ln.get x).tdiff.get y) ((m.ln.get y).tdiff.get x)

/-- A lane differs by more than 40 µs from every other voting lane (R66). -/
def timeFar (m : Mod) (x : LaneId) : Bool :=
  let others := (voters m).filter (· != x)
  !others.isEmpty && others.all (fun y => decide (40000 < pairDiff m x y))

/-- Every pair of voting lanes agrees within 20 µs (R66, R78). -/
def allAgree (m : Mod) : Bool :=
  (voters m).all (fun x => (voters m).all (fun y => x == y || decide (pairDiff m x y ≤ 20000)))

/-- Delay of a link as measured at START, ns (R66). -/
def linkDelayOf (m : Mod) (k : Link) : Nat := m.md.linkDelay.getD (linkNo k) 0

/-- The sender's station time at transmission against the receiver's own at reception, less the link delay (R66). -/
def timeGap (m : Mod) (rcv : LaneId) (k : Link) (stime : Nat) : Nat :=
  ((stime : Int) - ((m.ln.get rcv).time - linkDelayOf m k : Int)).natAbs

/-- The receiver compares the sender's station time with its own (R66): above 20 µs AGREE falls and event 0x46 is raised for the
pair; a lane above 40 µs from both others is marked with cause 12. -/
def compareTime (rcv snd : LaneId) (k : Link) (stime : Nat) (m : Mod) : Mod :=
  let d := timeGap m rcv k stime
  let before := pairDiff m rcv snd
  let m1 := updLane rcv (fun x => { x with tdiff := x.tdiff.modify snd (max d) }) m
  let m2 := if 20000 < d ∧ before ≤ 20000 then
      raise 0x46 { arg0 := laneNo rcv, arg1 := laneNo snd, arg2 := satN 0xFFFFFFFF d } (updTm (fun t => { t with agree := false }) m1)
    else m1
  updLanes (fun l x => if timeFar m2 l && x.alive && x.exclCause == 0 then { x with exclCause := 12 } else x) m2

/-- A frame as it comes to a receiver: what it leaves behind whatever its type, and the frame where its content counts: either copy
passes the link check, TYPE and SENDER are those of the command, content of this station cycle, and a sender in the receiver's own
voting set (R17, R66, R93, R100, R101). -/
def frameIn (type : Nat) (rcv snd : LaneId) (c : XCopies) (m : Mod) : Option XFrame × Mod :=
  match linkOf rcv snd with
  | none => (none, m)
  | some k =>
    if !(m.ln.get rcv).alive || !operating m then (none, m)
    else
      let m1 := heardOn rcv k c m
      match xFrameOf c with
      | none => (none, m1)
      | some f =>
        if f.type = type ∧ f.sender = laneNo snd ∧ (m.ln.get rcv).vset.get snd = true ∧ (m.ln.get snd).supplied = true then
          (if f.scn = scn m then some f else none, compareTime rcv snd k f.stime m1)
        else (none, m1)

/-- A frame of a round: it counts only when its reception is complete at the round's closing phase at the latest (R104). -/
def roundFrame (type key close : Nat) (rcv snd : LaneId) (c : XCopies) (keep : XFrame → Lane → Lane) (m : Mod) : Mod :=
  match frameIn type rcv snd c m with
  | (none, m1) => m1
  | (some f, m1) => if phaseOf (m1.ln.get rcv).time ≤ close ∧ firedNow key m1 = false then updLane rcv (keep f) m1 else m1

/-- LOCAL_FREEZE_FRAME: left out where it has not arrived by phase 560 (R93). -/
def execLocalFreezeFrame (rcv snd : LaneId) (line0 line1 : List Byte) (s : State) : Host.Outcome State Fault Refusal :=
  s.run (roundFrame xLocal 2 560 rcv snd { line0 := line0, line1 := line1 } (fun f x => { x with localRx := x.localRx.set snd (some (localOf f.payload)) }))

/-- REMOTE_FREEZE_FRAME: left out where it is missing at phase 1,080 (R94, R96). -/
def execRemoteFreezeFrame (rcv snd : LaneId) (line0 line1 : List Byte) (s : State) : Host.Outcome State Fault Refusal :=
  s.run (roundFrame xRemote 4 1080 rcv snd { line0 := line0, line1 := line1 } (fun f x => { x with remoteRx := x.remoteRx.set snd (some (remoteOf f.payload)) }))

/-! ## Offers (R102-R104) -/

/-- OFFER_FRAME: an offer as received, with the mode and flags of its own header (R102-R104). -/
def execOfferFrame (rcv snd : LaneId) (line0 line1 : List Byte) (s : State) : Host.Outcome State Fault Refusal :=
  s.run (roundFrame xOffer 7 15000 rcv snd { line0 := line0, line1 := line1 } (fun f x =>
    { x with offerRx := x.offerRx.set snd (some { fingerprint := fingerprint (offerOfFrame f), offer := offerOfFrame f }) }))

/-- A lane's own view of the offers: its own and those received (R104). -/
def viewOf (l : LaneId) (x : Lane) : PerLane (Option W64) :=
  (PerLane.all ()).mapL (fun y _ => if y = l then x.ownOffer.map fingerprint else (x.offerRx.get y).map (·.fingerprint))

/-- OFFERS_CLOSE: each lane that has offered sends its verdict (R104). -/
def doOffersClose (m : Mod) : Mod :=
  let m1 := toPhase 7 15000 m
  let say (l : LaneId) (x : Lane) : Lane :=
    if x.alive && x.ownOffer.isSome then
      let v := viewOf l x
      let w : Verdict := { prints := v.mapL (fun _ p => p.getD 0), received := v.mapL (fun _ p => p.isSome) }
      sendX m1 l xVerdict (verdictBytes w) { x with verdictRx := x.verdictRx.set l (some w) }
    else x
  updLanes say m1

def execOffersClose (s : State) : Host.Outcome State Fault Refusal := s.run doOffersClose

/-- VERDICT_FRAME (R104). -/
def execVerdictFrame (rcv snd : LaneId) (line0 line1 : List Byte) (s : State) : Host.Outcome State Fault Refusal :=
  s.run (roundFrame xVerdict 8 15200 rcv snd { line0 := line0, line1 := line1 } (fun f x => { x with verdictRx := x.verdictRx.set snd (some (verdictOf f.payload)) }))

/-- ok(x) as lane `l` finds it: it holds x's verdict (or is x), no view says the offer of x was not received, all views show one
fingerprint, which is the answer (R105). A lane found out by its time or drift, or named by its lane-fault frame, is not ok (R66,
R69, R107). -/
def okPrint (l : LaneId) (lane : Lane) (bad : PerLane Bool) (x : LaneId) : Option W64 :=
  let views := allLanes.filterMap (fun y => if lane.vset.get y then lane.verdictRx.get y else none)
  let held := x == l || (lane.verdictRx.get x).isSome
  if !lane.vset.get x || !held || bad.get x || (lane.faultRx.get x).isSome then none
  else
    match views with
    | [] => none
    | v :: _ => if views.all (fun w => w.received.get x && w.prints.get x == v.prints.get x) then some (v.prints.get x) else none

/-- The largest set of lanes with equal fingerprints; empty where none has two (R105). -/
def bestSet (p : PerLane (Option W64)) : PerLane Bool :=
  let same (x : LaneId) : PerLane Bool := p.mapL (fun _ q => (p.get x).isSome && decide (q = p.get x))
  allLanes.foldl (fun (g : PerLane Bool) x => if g.count < (same x).count ∧ 2 ≤ (same x).count then same x else g) (PerLane.all false)

/-- VERDICTS_CLOSE: each lane decides its set and sends its confirmation (R105). -/
def doVerdictsClose (m : Mod) : Mod :=
  let m1 := toPhase 8 15200 m
  let bad : PerLane Bool := m1.ln.mapL (fun _ x => x.exclCause != 0)
  let decideOne (l : LaneId) (x : Lane) : Lane :=
    if x.alive then
      let g := bestSet ((PerLane.all ()).mapL (fun y _ => okPrint l x bad y))
      let halt := decide (g.count < 2)
      let c : Confirm := { set := g, haltMark := halt }
      sendX m1 l xConfirm (confirmBytes c) { x with ownSet := g, ownHalt := halt, confirmRx := x.confirmRx.set l (some c) }
    else x
  updLanes decideOne m1

def execVerdictsClose (s : State) : Host.Outcome State Fault Refusal := s.run doVerdictsClose

/-- CONFIRMATION_FRAME (R105). -/
def execConfirmationFrame (rcv snd : LaneId) (line0 line1 : List Byte) (s : State) : Host.Outcome State Fault Refusal :=
  s.run (roundFrame xConfirm 9 15400 rcv snd { line0 := line0, line1 := line1 } (fun f x => { x with confirmRx := x.confirmRx.set snd (some (confirmOf f.payload)) }))

/-- LANE_FAULT_FRAME: leads to the sender's exclusion at this photo finish, or at the next where its verdicts have closed (R84, R107). -/
def doFaultFrame (rcv snd : LaneId) (c : XCopies) (m : Mod) : Mod :=
  match frameIn xFault rcv snd c m with
  | (none, m1) => m1
  | (some f, m1) => updLane rcv (fun x => { x with faultRx := x.faultRx.set snd (some (faultOf f.payload)) }) m1

def execLaneFaultFrame (rcv snd : LaneId) (line0 line1 : List Byte) (s : State) : Host.Outcome State Fault Refusal :=
  s.run (doFaultFrame rcv snd { line0 := line0, line1 := line1 })

/-! ## The final voting set (R105-R108) -/

/-- What a lane concludes at phase 15,400: `none` is HALT, else its final set (R105). -/
def finalOf (l : LaneId) (x : Lane) : Option (PerLane Bool) :=
  let from_ := (otherLanes l).filter x.ownSet.get
  let cutBy (g : PerLane Bool) (y : LaneId) : PerLane Bool :=
    match x.confirmRx.get y with
    | some c => if c.haltMark then g else g.inter c.set
    | none => g.set y false
  let marker := from_.any (fun y => match x.confirmRx.get y with
    | some c => c.haltMark
    | none => false)
  let final := from_.foldl cutBy x.ownSet
  if x.ownHalt || marker || decide (final.count < 2) then none else some final

/-- The lowest code of R119 of the fields in which an offer differs; 0 where none does. -/
def diffCause (o r : Offer) : Nat :=
  if o.var ≠ r.var then 4
  else if o.eng ≠ r.eng then 5
  else if o.ctrl ≠ r.ctrl then 6
  else if o.stat ≠ r.stat ∨ o.slice ≠ r.slice then 7
  else if o.remote ≠ r.remote then 8
  else if o.drive ≠ r.drive ∨ o.iso ≠ r.iso then 9
  else if o.mode ≠ r.mode ∨ o.flags ≠ r.flags ∨ o.res1 ≠ r.res1 ∨ o.res2 ≠ r.res2 then 10
  else 0

/-- Why a lane lost its place, from the state the continuing lanes hold (R107, R119). -/
def exclusionCause (m : Mod) (conts : List LaneId) (x : LaneId) : Nat :=
  let lane := m.ln.get x
  let fault := conts.findSome? (fun y => (m.ln.get y).faultRx.get x)
  let rx := ((voters m).filter (· != x)).map (fun y => (m.ln.get y).offerRx.get x)
  let ref := conts.findSome? (fun y => (m.ln.get y).ownOffer)
  match fault with
  | some c => c
  | none =>
    if lane.exclCause ≠ 0 then lane.exclCause
    else if rx.any (·.isNone) then 3
    else
      match rx.filterMap id, ref with
      | a :: rest, some r =>
        if rest.any (fun b => b.fingerprint != a.fingerprint) then 11
        else
          let c := diffCause a.offer r
          if c = 0 then 3 else c
      | _, _ => 3

/-- A lane that the others still hold in their sets leaves by itself: it enters HALT alone, or excludes itself. It opens its switches
and stops offering until the next restart; the others exclude it at their next photo finish (R105, R106). -/
def stepAside (halt : Bool) (l : LaneId) (m : Mod) : Mod :=
  endServiceOf l (updLane l (fun x =>
    if x.alive then { x with halted := halt, excluded := !halt, opened := true, vset := PerLane.all false } else x) m)

/-- One exclusion with its events: 0x22 or 0x23 from the lane-fault frame held, and 0x20 (R107, R121). -/
def loseLane (conts : List LaneId) (l : LaneId) (m : Mod) : Mod :=
  let c := exclusionCause m conts l
  excludeLane l c (tellFault l m)

/-- CONFIRMATIONS_CLOSE (R105-R108): every lane concludes; the module continues with the lanes that do, or enters HALT: HCAUSE 9
where a hurdle failure left fewer than two voting lanes, else 1 (R143). -/
def closeVote (m : Mod) : Mod :=
  let vs := allLanes.filter (fun l => aliveLanes m |>.any (fun y => (m.ln.get y).vset.get l))
  let finals : PerLane (Option (PerLane Bool)) := m.ln.mapL (fun l x => if x.alive && x.vset.get l then finalOf l x else none)
  let conts := vs.filter (fun l => match finals.get l with
    | some g => g.get l
    | none => false)
  if conts.isEmpty then haltByVote (if vs.any (fun l => (m.ln.get l).stopped == 3) then 9 else 1) m
  else
    let gone := vs.filter (fun l => !(conts.contains l))
    let kept (l : LaneId) : Bool := conts.any (fun y => match finals.get y with
      | some g => g.get l
      | none => false)
    let m1 := forEach (gone.filter (fun l => !kept l)) (loseLane conts) m
    let m2 := forEach (gone.filter kept) (fun l acc => stepAside (finals.get l).isNone l acc) m1
    let m3 := updLanes (fun l x => match finals.get l with
      | some g => if conts.contains l then { x with vset := g } else x
      | none => x) m2
    let split := conts.any (fun x => conts.any (fun y => finals.get x != finals.get y))
    let m4 := if split then raise 0x27 {} (updMd (fun d => { d with splits := satN 255 (d.splits + 1) }) m3) else m3
    settleRun (reRef (holdVote m4))

/-- The frames of a photo finish are used up; a lane-fault frame of a lane still in the voting set counts at the next one (R107). -/
def endRound (m : Mod) : Mod :=
  updLanes (fun _ x => { x with offerRx := PerLane.all none, verdictRx := PerLane.all none, confirmRx := PerLane.all none,
                                faultRx := x.faultRx.mapL (fun y c => if x.vset.get y then c else none), ownOffer := none }) m

/-- CONFIRMATIONS_CLOSE at phase 15,400, while the module votes on station time. -/
def doConfirmationsClose (m : Mod) : Mod :=
  if !operating m || !m.tm.taken then m else endRound (closeVote (toPhase 9 15400 m))

def execConfirmationsClose (s : State) : Host.Outcome State Fault Refusal := s.run doConfirmationsClose

/-! ## Registers (R118, R119) -/

/-- VOTSTS (R118). -/
def votSts (m : Mod) : W32 :=
  pack [(satN 255 m.md.splits, 24, 8), (m.md.lines.toNat, 8, 6), (b2n m.md.haltv, 3, 1), ((vsetOf m).bits, 0, 3)]

/-- The exclusions of a lane as the lane with the most of them recorded has them (R111). DESIGN CHOICE (log entry 54): the manual does not
say whose record VOTXn and VOTSn show where the lanes' records differ. -/
def exclOf (m : Mod) (l : LaneId) : List (Nat × Nat) :=
  allLanes.foldl (fun a y => let e := ((m.ln.get y).nv.excl.get l).entries; if a.length < e.length then e else a) []

/-- VOTXn (R119). -/
def votX (m : Mod) (l : LaneId) : W32 :=
  let es := exclOf m l
  let at_ := if m.tm.taken then scn m else scnOf (m.tm.floor.getD 0)
  let x := m.ln.get l
  pack [((es.head?.map (·.1)).getD 0, 28, 4), (satN 15 (exclCount m at_ { entries := es }), 20, 4), (b2n x.heldOut, 1, 1), (b2n x.excluded, 0, 1)]

/-- VOTSn (R116). -/
def votS (m : Mod) (l : LaneId) : W32 := BitVec.ofNat 32 (((exclOf m l).head?.map (·.2)).getD 0)

end Sys2Proof.Machine
end

