-- ==== Sys2Proof/Machine/FieldIo.lean ====
section
/-! DEFINITION. Field I/O (R246-R291): sampling and decoding of inputs, the agreed station 0 image, field groups, the diagnostic
record, drive channels and their latches, contactors, safety wires. -/

namespace Sys2Proof.Machine

/-! ## Channels (R246) -/

/-- Group of an input channel. -/
def groupOfIn (n : Nat) : Nat := if n < 40 then 0 else if n < 80 then 1 else if n < 96 then 2 else 3
/-- Group of a drive channel. -/
def groupOfDrive (k : Nat) : Nat := if k < 24 then 0 else if k < 48 then 1 else if k < 56 then 2 else 3
/-- Drive channels of a group. -/
def drivesOf (g : Nat) : List Nat := (List.range 64).filter (fun k => groupOfDrive k == g)

def driveOf (m : Mod) (k : Nat) : Drive := tabGet Drive.fresh m.fio.drives k
def updDrive (k : Nat) (f : Drive → Drive) (m : Mod) : Mod :=
  updFio (fun x => { x with drives := tabSet Drive.fresh x.drives k (f (tabGet Drive.fresh x.drives k)) }) m
def groupAt (m : Mod) (g : Nat) : Group := m.fio.groups.getD g Group.fresh
def updGroup (g : Nat) (f : Group → Group) (m : Mod) : Mod :=
  updFio (fun x => { x with groups := x.groups.mapIdx (fun i y => if i == g then f y else y) }) m

/-- The coupler of a channel is unusable since BIST (R130, R283); drives are numbered from 128. -/
def couplerBad (m : Mod) (n : Nat) : Bool := m.md.couplers.contains n

/-! ## Inputs (R254, R255) -/

/-- Decode of one pulsed input: loop current in µA, the lane's own reading of the group in mV (R255). I_open is V_g / 10 kΩ. -/
def decodeLoop (ua : Option Int) (mv : Nat) : BitVec 2 :=
  match ua with
  | none => 3
  | some i =>
    if mv < 16800 then 3
    else
      let v : Int := mv
      if 5000 ≤ i then 1
      else if 6 * v ≤ 100 * i ∧ 100 * i ≤ 14 * v then 0
      else if 0 ≤ i ∧ 100 * i < 3 * v then 2
      else 3

/-- Expected phase of a cross wire (R470). -/
def crossPhase (j : Nat) : Option Nat :=
  match j with
  | 6 => some 18800
  | 7 => some 19100
  | _ => none

/-- Safety-wire inputs in pulse mode, with their expected phase (R280); the cross wires of a provisioned pair are, whatever the image
declares (R470). -/
def pulseWire (m : Mod) (j : Nat) : Option (Option Nat) :=
  if m.nv.paired && (crossPhase j).isSome then some (crossPhase j) else (m.lg.app.swi.find? (fun e => e.1 == j)).map (·.2)

/-- A pulse-mode wire is synchronised (R281), as the cross wires are (R470). -/
def wireSync (m : Mod) (j : Nat) : Bool := (m.nv.paired && (crossPhase j).isSome) || m.lg.app.swiSync.contains j

/-- Input `n` is a safety wire in pulse mode: its pulse source is switched off (R254, R280). -/
def inPulseMode (m : Mod) (n : Nat) : Bool := decide (96 ≤ n) && ((pulseWire m (n - 96)).join).isSome

/-- An input that no pulse samples, or whose coupler is unusable, gives no result (R130, R254, R283). -/
def loopOf (m : Mod) (o : PulseObs) (n : Nat) : Option Int :=
  if inPulseMode m n || couplerBad m n || bitOf m.md.bist 4 then none else (o.loops[n]?).getD none

/-- One lane's sample: every loop decoded against its own latest group readings; the lowest readings since the last freeze kept
(R255, R271). -/
def sampleLane (m : Mod) (o : PulseObs) (x : Lane) : Lane :=
  let v (g : Nat) : Nat := o.volts.getD g 0
  { x with sample := (List.range 104).map (fun n => decodeLoop (loopOf m o n) (v (groupOfIn n))),
           volts := if x.volts.isEmpty then (List.range 4).map v else (List.range 4).map (fun g => min (v g) (x.volts.getD g 0)) }

/-- Every switch of a drive channel is open. -/
def allOpen (d : Drive) : Bool := !d.on || d.tripped

/-- The test part's reading of an output: samples at 8 V or more count from 5 ms after the channel went off (R267). -/
def readOutput (t mv : Nat) (d : Drive) : Drive :=
  let up := decide (8000 ≤ mv)
  let n := if up && allOpen d && decide (d.offAt + 5000000 ≤ t) then min 3 (d.highN + 1) else 0
  { d with high := up, highN := n, confirmed := d.confirmed || decide (3 ≤ n) }

/-- The readings of the drive channels' outputs. -/
def readOutputs (outMv : List Nat) (m : Mod) : Mod :=
  forEach outMv.zipIdx (fun p acc => updDrive p.2 (readOutput (now m) p.1) acc) m

/-- INPUT_PULSE_SAMPLE: at the phases ≡ 500 modulo 1,000 each lane judges its own comparators; the test part samples pulse-mode wires and
the outputs (R254, R255, R267, R271, R280). -/
def doSample (obs : PerLane PulseObs) (wires : List (Fin 8 × WireObs)) (outMv : List Nat) (m0 : Mod) : Mod :=
  let m := if m0.tm.taken then fireAt 16 1000000 500000 none m0 else m0
  let m1 := updLanes (fun l x => if x.supplied then sampleLane m (obs.get l) x else x) m
  updPc (fun c => { c with pulses := c.pulses + 1 })
    (readOutputs (outMv.take 64) (updFio (fun f => { f with wires := wires.foldl (fun t w => tabPut t w.1.val w.2) f.wires }) m1))

def execInputPulseSample (obs : PerLane PulseObs) (test : TestPart) (s : State) : Host.Outcome State Fault Refusal :=
  s.run (doSample obs test.wires test.outMv)

/-! ## Pulse-mode wires (R281) -/

def fallOk (f : Nat × Nat) : Bool := decide (40 ≤ f.2) && decide (f.2 ≤ 250)

/-- A fall begins within ±100 µs of the expected phase, modulo a station cycle. -/
def nearPhase (e b : Nat) : Bool :=
  let d := (b + 20000 - e % 20000) % 20000
  decide (d ≤ 100) || decide (19900 ≤ d)

/-- Age in µs, at the sample at phase 500, of a fall that began at a phase of the 20 ms up to it. -/
def fallAge (b : Nat) : Nat := (500 + 20000 - b % 20000) % 20000

/-- Decode of a pulse-mode wire; `none` where the manual states no result, between 8 V and 16 V at phase 500 (log entry 23). -/
def decodeWire (sync : Bool) (expect : Nat) (w : WireObs) (prev : Option WireObs) : Option (BitVec 2) :=
  if w.mv < 8000 then some 0
  else if w.mv < 16000 then none
  else if sync then
    match w.falls with
    | [f] => some (if fallOk f && nearPhase expect f.1 then 1 else 3)
    | _ => some 3
  else
    let late := (prev.map (·.falls)).getD []
    some (if w.falls.any fallOk || late.any (fun f => fallOk f && decide (fallAge f.1 + 20000 ≤ 25000)) then 1 else 3)

/-- One pulse-mode wire at the sample of phase 500. A wire without an observation gives no result (R255, R281). -/
def decodeOne (j : Nat) (m : Mod) : Mod :=
  match (pulseWire m j).join with
  | none => m
  | some e =>
    match tabFind m.fio.wires j with
    | none => updFio (fun f => { f with wireSt := tabPut f.wireSt j 3, wireBad := setBit f.wireBad j false }) m
    | some w =>
      match decodeWire (wireSync m j) e w (tabFind m.fio.wirePrev j) with
      | some v => updFio (fun f => { f with wireSt := tabPut f.wireSt j v, wireBad := setBit f.wireBad j (v == 3) }) m
      | none =>
        let r := takeFree m
        updFio (fun f => { f with wireSt := tabPut f.wireSt j (BitVec.ofNat 2 r.1.toNat), wireBad := setBit f.wireBad j false }) r.2

/-- The pulse-mode wires as seen over the 20 ms up to phase 500; what was seen is used up (R281). -/
def decodeWires (m : Mod) : Mod :=
  updFio (fun f => { f with wirePrev := f.wires, wires := [] }) (forEach (List.range 8) decodeOne m)

/-- What a lane reads at the freeze: its latest samples, and the pulse-mode wires, as far as their couplers give a result. -/
def readingOf (m : Mod) (x : Lane) : List (BitVec 2) :=
  (List.range 104).map (fun n =>
    if inPulseMode m n && !(couplerBad m n || bitOf m.md.bist 4) then tabGet 3 m.fio.wireSt (n - 96) else x.sample.getD n 3)

/-- Event 0x71 when a pulse-mode wire that agrees as unknown has lost its valid fall (R281). -/
def tellWire (j : Nat) (m : Mod) : Mod :=
  let bad := bitOf m.fio.wireBad j && m.fio.image.getD (96 + j) 3 == 3
  onlyIf (bad && !bitOf m.fio.swiBad j) (raise 0x71 { arg0 := 96 + j }) (updFio (fun f => { f with swiBad := setBit f.swiBad j bad }) m)

/-! ## The local freeze (R93) -/

/-- A lane freezes its own reading and sends its local freeze frame; what it held of the last cycle's frames is gone. -/
def freezeLane (m : Mod) (l : LaneId) (x : Lane) : Lane :=
  if !x.alive then x
  else
    let p : LocalPayload := { inputs := readingOf m x, volts := (List.range 4).map (fun g => x.volts.getD g 0) }
    sendX m l xLocal (localBytes p)
      { x with localRx := (PerLane.all none).set l (some p), remoteRx := PerLane.all none, tdiff := PerLane.all 0, volts := [] }

/-- LOCAL_FREEZE at phase 500 (R93). The reading of AGREE follows the frames of the cycle that ends here (R66). -/
def doLocalFreeze (m : Mod) : Mod :=
  if !operating m then m
  else
    let m1 := decodeWires (toPhase 1 500 m)
    updLanes (freezeLane m1) (updTm (fun t => { t with agree := t.taken && allAgree m1 }) m1)

def execLocalFreeze (s : State) : Host.Outcome State Fault Refusal := s.run doLocalFreeze

/-- The state of one channel from the frames held: two of three, two equal of two, else unknown (R93). -/
def agreeState (xs : List (BitVec 2)) : BitVec 2 :=
  match xs with
  | [p, q, r] => if p = q ∨ p = r then p else if q = r then q else 3
  | [p, q] => if p = q then p else 3
  | _ => 3

/-- Group voltage: median of three, lower of two, 0 mV with its own frame alone (R93, R271). -/
def agreeVolt (xs : List Nat) : Nat :=
  match xs with
  | [a, b, c] => max (min a b) (min (max a b) c)
  | [a, b] => min a b
  | _ => 0

/-- A lane forms the agreed station 0 image and group voltages from the frames it holds; its readings below 16.8 V count towards the sag
latch, the 0 mV of a lane that holds only its own frame like any other (R93, R273). -/
def agreeLane (x : Lane) : Lane :=
  if !x.alive then x
  else
    let ps := allLanes.filterMap (fun y => if x.vset.get y then x.localRx.get y else none)
    let volts := (List.range 4).map (fun g => agreeVolt (ps.map (fun p => p.volts.getD g 0)))
    { x with image := (List.range 104).map (fun n => agreeState (ps.map (fun p => p.inputs.getD n 3))), gvolt := volts,
             gLow := volts.mapIdx (fun g v => if v < 16800 then x.gLow.getD g 0 + 1 else 0) }

/-! ## Field groups (R271-R276, R586) -/

/-- GRP (R272): the first row that applies. -/
def grpOf (g : Group) : Nat := if g.sag || g.ext then 3 else if g.volt < 16800 then 2 else if g.highN < 50 then 1 else 0

/-- Diagnostics of a group's channels are suspended (R275). -/
def suspended (g : Group) : Bool := decide (g.volt < 16800)

/-- Event 0x60 on entry to GRP 1 (R272): `was` is the group before. -/
def tellLow (g : Nat) (was : Group) (m : Mod) : Mod :=
  onlyIf ((groupAt m g).grp == 1 && was.grp != 1) (raise 0x60 { arg0 := g, arg2 := (groupAt m g).volt }) m

/-- One group at a freeze: counts, state, events 0x60, 0x61 and 0x72. -/
def evalGroup (g : Nat) (mv : Nat) (m : Mod) : Mod :=
  let x := groupAt m g
  let low := decide (mv < 16800)
  let x1 : Group :=
    { x with volt := mv, lowN := if low then x.lowN + 1 else 0, highN := if mv < 19200 then 0 else min 50 (x.highN + 1), below := low,
             ovClear := if mv ≤ 30000 then min 50 (x.ovClear + 1) else 0, backAt := if x.below && !low then scn m else x.backAt }
  let grp := grpOf x1
  let ov := decide (31000 < mv) && !x.ovTold
  let x2 : Group := { x1 with grp := grp, ovTold := (x.ovTold && decide (x1.ovClear < 50)) || ov }
  let m1 := updGroup g (fun _ => x2) m
  let m2 := tellLow g x m1
  let m3 := onlyIf (low && !x.below) (raise 0x61 { arg0 := g, arg2 := mv }) m2
  onlyIf ov (raise 0x72 { arg0 := g, arg2 := mv }) m3

/-- Warm-up test: a staff-protection switch passes when an agreed image frozen after step 5 shows it open; event 0x0C (R140). -/
def warmUp (m : Mod) : Mod :=
  if m.md.step5At.isNone then m
  else
    forEach (m.lg.app.staff.filter (fun n => !(m.md.wuPass.contains n) && m.fio.image.getD n 3 == 0))
      (fun n acc => raise 0x0C { arg0 := n } (updMd (fun d => { d with wuPass := d.wuPass ++ [n], wuOver := d.wuOver.filter (· != n) }) acc)) m

/-- Two modules claim the lead (R476): agreed SWI6 closed outside a changeover. -/
def dualLead (m : Mod) : Mod :=
  if leads m && serving m && m.fio.image.getD 102 3 == 1 && !m.pr.chgo && !m.pr.dual && pulseMode6 then
    let m1 := raise 0xD9 {} (updPr (fun p => { p with dual := true }) m)
    if rankOf m = 1 then enterHalt 6 m1 else m1
  else m
where
  /-- The cross wire is in use: a pair is provisioned. -/
  pulseMode6 : Bool := m.nv.paired

/-- LEAD drops the limit of R466 and runs as single (R467); with the role, sessions and activations end (R534, R545). -/
def runAlone (m : Mod) : Mod :=
  abandonOc 4 (abandonActivation 4 (endSession (updPr (fun p => { p with role := 0, ackScn := none, noAckTold := false, stepCyc := 0 }) m)))

/-- A changeover is over for the new LEAD once the former LEAD no longer claims the drive, at the latest three station cycles after it
began; a LEAD whose partner's alive wire reads open runs as single (R467, R472). -/
def partnerWires (m : Mod) : Mod :=
  if m.pr.role ≠ 1 ∨ !serving m ∨ m.pr.outgoing then m
  else
    let past := m.pr.chgo && decide (m.pr.chgScn < scn m) && (m.fio.image.getD 102 3 == 0 || decide (m.pr.chgScn + 3 < scn m))
    let m1 := if past then updPr (fun p => { p with chgo := false }) m else m
    if m1.fio.image.getD 103 3 == 0 && !m1.pr.chgo then
      runAlone m1
    else m1

/-- One lane's reading of a channel against the agreed state, counted towards the minority report (R258). -/
def countMinority (m : Mod) : Mod :=
  let ls := (voters m).filter (fun l => (m.ln.get l).alive)
  let keys := ls.flatMap (fun l => (List.range 104).map (fun n => (l, n)))
  let minc := fieldOf m.cfg.fiocfg.toNat 16 8
  let one (f : Fio) (p : LaneId × Nat) : Fio :=
    let key := laneNo p.1 * 128 + p.2
    let own := (((m.ln.get p.1).localRx.get p.1).map (fun q => q.inputs.getD p.2 3)).getD 3
    let differs := own != f.image.getD p.2 3
    let n := if differs then min 255 (tabGet 0 f.minN key + 1) else 0
    let ok := if differs then 0 else min 255 (tabGet 0 f.minOk key + 1)
    { f with minN := tabSet 0 f.minN key n,
             minOk := if tabGet false f.minTold key && decide (ok < minc) then tabSet 0 f.minOk key ok else tabSet 0 f.minOk key 0,
             minTold := if minc ≤ ok then tabSet false f.minTold key false else f.minTold }
  updFio (fun f => keys.foldl one f) m

/-- SAG_LATCH_SET: 6 consecutive low freezes; event 0x62 (R273). -/
def doSagLatch (g : Nat) (m : Mod) : Mod :=
  let x := groupAt m g
  if x.lowN < 6 ∨ x.sag then m else raise 0x62 { arg0 := g } (updGroup g (fun y => { y with sag := true, grp := 3 }) m)

def execSagLatchSet (g : Fin 4) (s : State) : Host.Outcome State Fault Refusal := s.run (doSagLatch g.val)

/-- MINORITY_REPORT: event 0x6B once for lane and channel, and FIOMIN (R258, R289). -/
def doMinority (l : LaneId) (n : Nat) (m : Mod) : Mod :=
  let key := laneNo l * 128 + n
  if tabGet 0 m.fio.minN key < fieldOf m.cfg.fiocfg.toNat 16 8 ∨ tabGet false m.fio.minTold key then m
  else
    raise 0x6B { arg0 := n, arg1 := laneNo l }
      (updFio (fun f => { f with minTold := tabSet false f.minTold key true, mtot := satN 0xFFFF (f.mtot + 1), mchn := n,
                                 mlane := 2 ^ laneNo l }) m)

def execMinorityReport (lane : LaneId) (chan : Fin 104) (s : State) : Host.Outcome State Fault Refusal :=
  s.run (doMinority lane chan.val)

/-! ## Diagnostic record (R251-R253, R264-R268) -/

/-- The supply pole of a group isolator conducts: its coil is fed through a 2oo3 network and the lanes command it closed (R22, R248). -/
def isoConducts (m : Mod) (g : Nat) : Bool := someDriven m && !(groupAt m g).isoOpen

/-- The mirror contact shows the isolator open (R248). -/
def mirrorOpen (m : Mod) (g : Nat) : Bool := !(isoConducts m g || (groupAt m g).stuck)

/-- Slot 0 ends before phase 600; slot 1 begins before phase 700 and ends after phase 600, so what its pulse shows is for the record of the
next cycle, as of every later slot (R251, R260). -/
def obsLate (k : Nat) : Bool := k == 1

/-- What a channel shows in the slot of channel `k` joins the observations of its record. -/
def noteObs (k : Nat) (f : Nat → Nat) (d : Drive) : Drive :=
  if obsLate k then { d with late := BitVec.ofNat 16 (f d.late.toNat) } else { d with obs := BitVec.ofNat 16 (f d.obs.toNat) }

/-- CHAN of a drive channel in the record of this cycle (R251, R261, R264, R267). -/
def chanWord (m : Mod) (o : DiagObs) (k : Nat) : W32 :=
  let d := driveOf m k
  let throughout := d.on && !d.tripped && decide (d.changedAt + 2 ≤ scn m)
  let seen := d.obs.toNat
  pack [(if throughout then satN 0xFFFF (o.load.getD k 0) else 0, 16, 16), (fieldOf seen 14 1, 14, 1), (b2n throughout, 13, 1), (fieldOf seen 5 7, 5, 7),
        (b2n d.confirmed, 4, 1), (fieldOf seen 0 4, 0, 4)]

/-- The record that the I/O controller forms (R251, R263). -/
def diagRecord (m : Mod) (o : DiagObs) : DiagRec :=
  { seq := BitVec.ofNat 32 (scn m), flags := BitVec.ofNat 8 (b2n (decide (0 < m.pw.pace))), chan := (List.range 64).map (chanWord m o),
    iso := BitVec.ofNat 8 ((List.range 4).foldl (fun n g => n + b2n (mirrorOpen m g) * 2 ^ g) 0),
    gcur := (List.range 4).map (fun g => BitVec.ofNat 8 (satN 255 (o.group.getD g 0 / 100))) }

/-- Bytes 0-271 of a record, in network order (R251). -/
def diagBody (r : DiagRec) : List Byte :=
  bytesBE 4 r.seq.toNat ++ [r.flags] ++ bytesBE 3 0 ++ r.chan.flatMap (fun w => bytesBE 4 w.toNat) ++ [r.iso] ++ bytesBE 3 0 ++ r.gcur

/-- A record with its CRC. -/
def diagBytes (r : DiagRec) : List Byte := diagBody r ++ bytesBE 8 (crc64 (diagBody r)).toNat

/-- A record as a lane port takes it; one that fails its CRC counts as no record (R251). -/
def diagIn (bs : List Byte) : Option DiagRec :=
  if bs.length = 280 ∧ readBE bs 272 8 = (crc64 (bs.take 272)).toNat then
    some { seq := BitVec.ofNat 32 (readBE bs 0 4), flags := bs.getD 4 0, chan := (List.range 64).map (fun k => BitVec.ofNat 32 (readBE bs (8 + 4 * k) 4)),
           iso := bs.getD 264 0, gcur := (List.range 4).map (fun g => bs.getD (268 + g) 0) }
  else none

/-- The record as a port delivers it goes through front-end unit 14 or 15, with the CRC it carries expected (R501, R502). -/
def checkRecord (bs : List Byte) (m : Mod) : Mod := feCvu 14 (cvuOn 2 (bs.take 272) (some (BitVec.ofNat 64 (readBE bs 272 8)))) m

/-- DIAGNOSTIC_RECORD: at phase 700 the I/O controller offers its record to every lane port; `ports` names what a port delivers in its
place (R249-R251). -/
def doRecord (o : DiagObs) (ports : PerLane (Option (List Byte))) (m : Mod) : Mod :=
  if !operating m || bitOf m.md.bist 4 then m
  else
    let m1 := toNext 14 700 m
    let own := diagBytes (diagRecord m1 o)
    let got (l : LaneId) : Option DiagRec := if (m1.ln.get l).alive then diagIn ((ports.get l).getD own) else none
    let new : PerLane (Option DiagRec) := (PerLane.all ()).mapL (fun l _ => (got l).or (m1.fio.recLanes.get l))
    let old : PerLane (Option DiagRec) := (PerLane.all ()).mapL (fun l _ => if (got l).isSome then m1.fio.recLanes.get l else m1.fio.recPrev.get l)
    let m2 := forEach (aliveLanes m1) (fun l => checkRecord ((ports.get l).getD own)) (updPc (fun c => { c with diags := c.diags + 1 }) m1)
    updFio (fun f => { f with recLanes := new, recPrev := old,
                              drives := f.drives.map (fun e => (e.1, { e.2 with obs := e.2.late, late := 0, confirmed := false })) }) m2

def execDiagnosticRecord (load group : List Nat) (ports : PerLane (Option (List Byte))) (s : State) :
    Host.Outcome State Fault Refusal :=
  s.run (doRecord { load := load, group := group } ports)

/-- External feed on a group (R268, R288): FIOEXT takes the source named, 0xFE at a new detection that names none; its latch is set, its drives held off and its isolator opened at the next phase 16,000. -/
def extFeed (g : Nat) (src : Option Nat) (m : Mod) : Mod :=
  let x := groupAt m g
  let m1 := updGroup g (fun y => { y with ext := true, grp := 3, extSrc := match src with
    | some k => k
    | none => if y.ext then y.extSrc else 0xFE }) m
  let m2 := onlyIf (!x.ext) (raise 0x64 { arg0 := g }) m1
  match src with
  | some k => if x.extSrc = k ∧ x.ext then m2 else raise 0x66 { arg0 := g, arg1 := k } m2
  | none => m2

/-- The learned current of a channel in mA; 0 when none is learned (R265). -/
def learned (m : Mod) (k : Nat) : Nat := agreedBy m (fun l => tabGet 0 l.nv.loads k)

/-- Load learning is enabled and not suspended for a channel (R263, R265). -/
def learning (m : Mod) (k : Nat) (flags : Byte) : Bool :=
  bitOf m.cfg.fiocfg.toNat 0 && !bitOf flags.toNat 0 && decide ((groupAt m (groupOfDrive k)).grp < 2)

/-- A current is below the open-wire threshold (R264). -/
def belowOpen (m : Mod) (k cur : Nat) : Bool :=
  let l := learned m k
  if l = 0 then decide (cur < 5) else decide (cur * 100 < fieldOf m.cfg.fiocfg.toNat 8 8 * l)

/-- One channel of a newly agreed record (R261, R264, R265, R267, R275). Learning counts the first 50 qualifying records in a row: a record
that does not qualify, LEARN 0 and a suspension begin it anew. -/
def channelRecord (flags : Byte) (w : W32) (k : Nat) (m : Mod) : Mod :=
  let n := w.toNat
  let d := driveOf m k
  let g := groupAt m (groupOfDrive k)
  let sus := suspended g
  let cur := fieldOf n 16 16
  let on := bitOf n 13
  let miss := if bitOf n 14 && !sus then (if bitOf n 3 then d.missN + 1 else 0) else d.missN
  let proof := bitOf n 2 && !sus
  let clean := on && fieldOf n 0 6 == 0
  let learn := learning m k flags && learned m k == 0
  let low := on && !sus && belowOpen m k cur
  let d1 : Drive :=
    { d with overload := d.overload || bitOf n 0, overtemp := d.overtemp || bitOf n 1, proof := d.proof || proof,
             pulseMissing := if bitOf n 14 && !sus then bitOf n 3 else d.pulseMissing, missN := miss, feed := bitOf n 4, foreign := bitOf n 5,
             foreignK := fieldOf n 6 6, lowN := if low then d.lowN + 1 else 0,
             openWire := d.openWire && !(on && !sus && !low),
             learnN := if !(learn && clean) then 0 else if d.learnN < 50 then d.learnN + 1 else d.learnN,
             learnSum := if !(learn && clean) then 0 else if d.learnN < 50 then d.learnSum + cur else d.learnSum }
  let m1 := updDrive k (fun _ => d1) m
  let m2 := onlyIf (bitOf n 0 && !d.overload) (raise 0x68 { arg0 := k }) m1
  let m3 := onlyIf (bitOf n 1 && !d.overtemp) (raise 0x69 { arg0 := k }) m2
  onlyIf (proof && !d.proof) (raise 0x67 { arg0 := k }) m3

/-- External feed confirmed by the record: CHAN[4], or the channel's own pulse missing twice (R267, R268). -/
def feedRecord (k : Nat) (m : Mod) : Mod :=
  let d := driveOf m k
  if d.feed || decide (2 ≤ d.missN) then extFeed (groupOfDrive k) (if d.foreign then some d.foreignK else none) m else m

/-- Group current at a record (R276). -/
def currentRecord (g cur : Nat) (iso : Byte) (m : Mod) : Mod :=
  updGroup g (fun x =>
    let high := decide (72 < cur)
    let n := if high then min 50 (x.hiCur + 1) else 0
    let l := if high then 0 else min 50 (x.hiCurLow + 1)
    { x with cur := cur, mirror := bitOf iso.toNat g, hiCur := n, hiCurLow := l, hiCurTold := x.hiCurTold && decide (l < 50) }) m

/-- The record agreed at a freeze by the rule of R94: the highest SEQ that every voting lane holds among its newest and previous;
`none` leaves the last in force. Entry 0 of the remote freeze frames lists them. -/
def commonRecord (m : Mod) : Option DiagRec :=
  let ref := refLane m
  let held := ((m.fio.recLanes.get ref).toList ++ (m.fio.recPrev.get ref).toList)
  let lists := allLanes.filterMap (fun y => if (m.ln.get ref).vset.get y then (m.ln.get ref).remoteRx.get y else none)
  let inAll (q : W32) : Bool := lists.all (fun p => match p.seqs.head? with
    | some (a, b) => a == q || b == q
    | none => false)
  held.foldl (fun (best : Option DiagRec) r =>
    if !inAll r.seq then best
    else
      match best with
      | none => some r
      | some b => if b.seq.toNat < r.seq.toNat then some r else some b) none

/-- Agreement on the diagnostic record at the freeze of phase 1,000, and what it sets (R252, R268). A record older than one that a lane
listed raises no event 0x28: DESIGN CHOICE (R121 names connections only; log entry 63). -/
def agreeRecord (m : Mod) : Mod :=
  match commonRecord m with
  | none => updFio (fun f => { f with age := satN 255 (f.age + 1) }) m
  | some r =>
    if (m.fio.agreed.map (·.seq)) = some r.seq then updFio (fun f => { f with age := satN 255 (f.age + 1) }) m
    else
      let m1 := updFio (fun f => { f with agreed := some r, age := 0 }) m
      let m2 := forEach (List.range 64) (fun k acc => channelRecord r.flags (r.chan.getD k 0) k acc) m1
      let m3 := forEach (List.range 4) (fun g acc => currentRecord g ((r.gcur.getD g 0).toNat) r.iso acc) m2
      forEach (List.range 64) feedRecord m3

/-- IO_CONTROLLER_LOST: no new record at 5 consecutive freezes; event 0x6F (R253). -/
def doIoLost (m : Mod) : Mod :=
  if m.fio.age < 5 ∨ m.fio.iocl ∨ !operating m then m else raise 0x6F {} (updFio (fun f => { f with iocl := true }) m)

def execIoControllerLost (s : State) : Host.Outcome State Fault Refusal := s.run doIoLost

/-! ## Drive channels -/

/-- A channel is held off whatever the application computes (R264, R266). -/
def heldOff (m : Mod) (k : Nat) : Bool :=
  let d := driveOf m k
  let g := groupAt m (groupOfDrive k)
  d.overload || d.overtemp || d.proof || d.feedback || g.sag || g.ext || m.fio.iocl || couplerBad m (128 + k) || bitOf m.md.bist 4

/-- The diagnostic word of a channel (R266). -/
def driveWord (m : Mod) (k : Nat) : W32 :=
  let d := driveOf m k
  let g := groupAt m (groupOfDrive k)
  pack [(learned m k, 16, 16), (d.foreignK, 10, 6), (b2n (heldOff m k), 9, 1), (b2n (suspended g), 8, 1), (b2n d.feedback, 7, 1),
        (b2n d.foreign, 6, 1), (b2n g.ext, 5, 1), (b2n d.pulseMissing, 4, 1), (b2n d.proof, 3, 1), (b2n d.overtemp, 2, 1),
        (b2n d.openWire, 1, 1), (b2n d.overload, 0, 1)]

/-- A channel that is off with its output at 8 V or more falls below 8 V in the slot of channel `k`: its next record names `k` (R267). -/
def foreignPulse (k : Nat) (j : Fin 64) (m : Mod) : Mod :=
  if j.val = k ∨ !allOpen (driveOf m j.val) ∨ !(driveOf m j.val).high then m
  else updDrive j.val (noteObs k (fun n => putField (putField n 5 1 1) 6 6 k)) m

/-- OFF_PULSE: in its slot at phase 200 + 300 × k, the set of switches alternating by station cycle; on the reduced plan OUT and KD
channels pulse in even cycles only (R260, R261, R263). The on-voltage of each switch that stays closed is judged (R593). -/
def doOffPulse (k : Nat) (t : PulseTest) (m : Mod) : Mod :=
  if !operating m then m
  else
    let m1 := toNext (1000 + k) (200 + 300 * k) m
    let slow := decide (0 < m1.pw.pace) && decide (k < 56)
    let d := driveOf m1 k
    if allOpen d || (slow && scn m1 % 2 == 1) then m1
    else
      let side := if slow then scn m1 / 2 % 2 == 1 else scn m1 % 2 == 1
      let bits := 2 ^ 14 + (if t.conducts then 4 else 0) + (if t.fell then 0 else 8)
      let m2 := updPc (fun c => { c with offPulses := c.offPulses + 1 })
        (updDrive k (fun x => noteObs k (fun n => n ||| bits) { x with pulsedAt := some (scn m1), lowSide := side })
          (forEach t.falls (foreignPulse k) m1))
      forEach t.onMv (fun p acc =>
        if 500 < p.2 ∧ p.1 < 6 ∧ !(driveOf acc k).onvTold.getLsbD p.1 then
          raise 0x39 { src := 5, arg0 := k, arg1 := p.1 }
            (updDrive k (fun x => { x with onvTold := x.onvTold ||| BitVec.ofNat 6 (2 ^ p.1) }) acc)
        else acc) m2

def execOffPulse (k : Fin 64) (test : PulseTest) (s : State) : Host.Outcome State Fault Refusal := s.run (doOffPulse k.val test)

/-- PROTECTIVE_SWITCH_OFF: the test part opens the channel's switches; the record will say why (R250, R264). -/
def doProtect (k : Nat) (c : Protect) (m : Mod) : Mod :=
  updPc (fun x => { x with protects := x.protects + 1 })
    (updDrive k (fun d => { d with tripped := true, offAt := if allOpen d then d.offAt else now m, obs := d.obs ||| (match c with
      | .overload => 1
      | .overtemperature => 2) }) m)

def execProtectiveSwitchOff (k : Fin 64) (cond : Protect) (s : State) : Host.Outcome State Fault Refusal :=
  s.run (doProtect k.val cond)

/-- OPEN_WIRE_DETECTED: 3 consecutive records below the threshold; reported only, event 0x6A (R264). -/
def doOpenWire (k : Nat) (m : Mod) : Mod :=
  let d := driveOf m k
  if d.lowN < 3 ∨ d.openWire ∨ suspended (groupAt m (groupOfDrive k)) then m else raise 0x6A { arg0 := k } (updDrive k (fun x => { x with openWire := true }) m)

def execOpenWireDetected (k : Fin 64) (s : State) : Host.Outcome State Fault Refusal := s.run (doOpenWire k.val)

/-- LOAD_LEARNING_COMPLETE: the mean over 50 qualifying records is stored in every lane (R265). -/
def doLearned (k : Nat) (m : Mod) : Mod :=
  let d := driveOf m k
  if d.learnN < 50 ∨ !learning m k ((m.fio.agreed.map (·.flags)).getD 0) then m
  else
    let v := d.learnSum / d.learnN
    updDrive k (fun x => { x with learnN := 0, learnSum := 0 })
      (updLanes (fun _ l => { l with nv := { l.nv with loads := tabSet 0 l.nv.loads k v } }) m)

def execLoadLearningComplete (k : Fin 64) (s : State) : Host.Outcome State Fault Refusal := s.run (doLearned k.val)

/-- GROUP_CURRENT_HIGH: above 7.2 A in 50 consecutive records; event 0x6E (R276). -/
def doCurrentHigh (g : Nat) (m : Mod) : Mod :=
  let x := groupAt m g
  if x.hiCur < 50 ∨ x.hiCurTold then m else raise 0x6E { arg0 := g } (updGroup g (fun y => { y with hiCurTold := true }) m)

def execGroupCurrentHigh (g : Fin 4) (s : State) : Host.Outcome State Fault Refusal := s.run (doCurrentHigh g.val)

/-! ## Contactors (R277, R278, R471) -/

/-- A contactor's feedback fault: held off and latched, event 0x6C. -/
def kfFault (j : Nat) (m : Mod) : Mod :=
  if (driveOf m (48 + j)).feedback then m else raise 0x6C { arg0 := j } (updDrive (48 + j) (fun d => { d with feedback := true }) m)

/-- A feedback shows picked up with the drive off: external feed on FG2, events 0x6D and 0x64 (R278). -/
def kfFeed (j : Nat) (m : Mod) : Mod :=
  let m1 := if (driveOf m (48 + j)).notDropped then m
    else raise 0x6D { arg0 := j } (updDrive (48 + j) (fun d => { d with notDropped := true }) m)
  extFeed 2 none m1

/-- One contactor against its drive. In SHADOW both feedbacks must read the same and nothing else is judged (R471). -/
def checkContactor (shadow : Bool) (j : Nat) (m : Mod) : Mod :=
  let a := m.fio.image.getD (80 + 2 * j) 3
  let b := m.fio.image.getD (81 + 2 * j) 3
  let on := (driveOf m (48 + j)).on
  let m0 := if a != 0 && b != 0 then updDrive (48 + j) (fun d => { d with notDropped := false }) m else m
  if shadow then (if a = b then m0 else kfFault j m0)
  else if on then (if a = 0 ∧ b = 0 then m0 else kfFault j m0)
  else if a = 1 ∧ b = 1 then m0
  else
    let m1 := if a = 0 ∨ b = 0 then kfFeed j m0 else m0
    if a = 0 ∧ b = 0 then m1 else kfFault j m1

/-- START step 7: a contactor whose feedback shows picked up is external feed, and each isolator's readback shows in its mirror (R133). What
follows where an isolator does not read open is not stated: START continues (log entry 55). Step 8 begins (R128). -/
def startStep7 (m : Mod) : Mod :=
  if mode m != .start || !(m.md.step == 6 || m.md.step == 7) then m
  else
    let m1 := updFio (fun f => { f with groups := f.groups.map (fun g => { g with mirror := !g.stuck }) }) m
    let picked (j : Nat) : Bool := m.fio.image.getD (80 + 2 * j) 3 == 0 || m.fio.image.getD (81 + 2 * j) 3 == 0
    let m2 := if m.pr.role = 2 ∨ suspended (groupAt m 2) then m1 else forEach ((List.range 8).filter picked) kfFeed m1
    updMd (fun d => { d with step := 8, step8At := some m.clk }) m2

/-- CONTACTOR_CHECK: on the image of the sixth freeze after a change and of every later one; suspended while FG2 reads below 16.8 V and up to
the sixth freeze after it has come back (R278). -/
def doContactors (m : Mod) : Mod :=
  if !operating m || mode m == .start || suspended (groupAt m 2) then m
  else
    let due (j : Nat) : Bool := decide (max (driveOf m (48 + j)).changedAt (groupAt m 2).backAt + 7 ≤ m.fio.imageAt)
    forEach ((List.range 8).filter due) (checkContactor (mode m == .shadow)) m

def execContactorCheck (s : State) : Host.Outcome State Fault Refusal := s.run doContactors

/-! ## The agreement of the local freeze -/

/-- In START the images of the freezes carry step 6 to step 7, and step 7 to step 8, which need one (R128, R133; log entry 14). -/
def startStage (m : Mod) : Mod :=
  if m.md.step = 6 then updMd (fun d => { d with step := 7 }) m else if m.md.step = 7 then startStep7 m else m

/-- LOCAL_FREEZE_AGREEMENT: by phase 560, the agreed image and group voltages, and what is judged from them (R93, R140, R272, R281,
R467, R476, R586). With the I/O controller unusable every input reads unknown (R130). -/
def doLocalAgreement (m : Mod) : Mod :=
  if !operating m then m
  else
    let m1 := updLanes (fun _ x => agreeLane x) (toPhase 2 560 m)
    let m2 := updFio (fun f => { f with image := agreedBy m1 (·.image), imageAt := scn m1 + 1 }) m1
    let volts := agreedBy m2 (·.gvolt)
    let m3 := forEach (List.range 4) (fun g acc => evalGroup g (volts.getD g 0) acc) (forEach (List.range 8) tellWire m2)
    startStage (dualLead (partnerWires (warmUp (countMinority m3))))

def execLocalFreezeAgreement (s : State) : Host.Outcome State Fault Refusal := s.run doLocalAgreement

/-! ## Submissions (R290) -/

/-- Completes with 0x03 and the offset of the operand, or with 0x07 and the position of the condition. -/
def badOperand (a : Accepted) (off : Nat) (m : Mod) : Mod := complete a 0x03 off m
def refuse (a : Accepted) (pos : Nat) (m : Mod) : Mod := complete a 0x07 pos m

/-- 0x60: acknowledge the sag latch of a group (R274). -/
def ackSagSub (a : Accepted) (sub : Submission) (m : Mod) : Mod :=
  let g := byteAt sub.oper 0
  let x := groupAt m g
  if 4 ≤ g then badOperand a 16 m
  else if !x.sag then refuse a 1 m
  else if x.highN < 50 then refuse a 2 m
  else
    let m1 := updGroup g (fun y => { y with sag := false, grp := grpOf { y with sag := false } }) m
    complete a 0 0 (raise 0x63 { arg0 := g } (tellLow g x m1))

/-- 0x61: clear the external-feed latch of a group, once the feed is gone; its isolator then closes at the next phase 16,000 whatever the
group's reading (R269). -/
def clearExtSub (a : Accepted) (sub : Submission) (m : Mod) : Mod :=
  let g := byteAt sub.oper 0
  let picked := g == 2 && (List.range 8).any (fun j => !(driveOf m (48 + j)).on &&
    (m.fio.image.getD (80 + 2 * j) 3 == 0 || m.fio.image.getD (81 + 2 * j) 3 == 0))
  if 4 ≤ g then badOperand a 16 m
  else if !(groupAt m g).ext then refuse a 1 m
  else if (drivesOf g).any (fun k => (driveOf m k).feed) || picked then refuse a 2 m
  else
    let m1 := updGroup g (fun y => { y with ext := false, released := true, grp := grpOf { y with ext := false } }) m
    let m2 := forEach (drivesOf g) (fun k acc => updDrive k (fun d => { d with missN := 0 }) acc) m1
    complete a 0 0 (raise 0x65 { arg0 := g } (tellLow g (groupAt m g) m2))

/-- 0x62: clear the latch of a drive channel (R264, R278). -/
def clearChannelSub (a : Accepted) (sub : Submission) (m : Mod) : Mod :=
  let k := byteAt sub.oper 0
  let d := driveOf m k
  let g := groupAt m (groupOfDrive k)
  if 64 ≤ k then badOperand a 16 m
  else if !(d.overload || d.overtemp || d.feedback || d.proof) then refuse a 1 m
  else if d.proof then refuse a 2 m
  else if g.sag || g.ext then refuse a 3 m
  else complete a 0 0 (raise 0x70 { arg0 := k }
    (updDrive k (fun x => { x with overload := false, overtemp := false, feedback := false, tripped := false }) m))

/-- 0x63: discard the learned current of one channel, or of all with 0xFF (R265). -/
def discardSub (a : Accepted) (sub : Submission) (m : Mod) : Mod :=
  let k := byteAt sub.oper 0
  if 64 ≤ k ∧ k ≠ 0xFF then badOperand a 16 m
  else if !bitOf m.cfg.fiocfg.toNat 0 then refuse a 1 m
  else
    let ks := if k = 0xFF then List.range 64 else [k]
    let m1 := updLanes (fun _ l => { l with nv := { l.nv with loads := ks.foldl (fun t i => tabSet 0 t i 0) l.nv.loads } }) m
    complete a 0 0 (forEach ks (fun i acc => updDrive i (fun d => { d with learnN := 0, learnSum := 0 }) acc) m1)

/-! ## Registers (R286-R289) -/

def fioSts (m : Mod) : W32 :=
  pack [(m.fio.age, 24, 8), ((agreedBy m (fun l => l.nv.loads.length)), 16, 8), (b2n (decide (0 < m.pw.pace)), 1, 1), (b2n m.fio.iocl, 0, 1)]

/-- FIOHLDL (`hi` false) and FIOHLDH. -/
def fioHld (m : Mod) (hi : Bool) : W32 :=
  BitVec.ofNat 32 ((List.range 32).foldl (fun n i => n + b2n (heldOff m (i + if hi then 32 else 0)) * 2 ^ i) 0)

/-- FIOGn; VOLT is what the lane that shows it took as the agreed reading (R93, R287). -/
def fioG (m : Mod) (g : Nat) : W32 :=
  let x := groupAt m g
  pack [((m.ln.get (refLane m)).gvolt.getD g 0, 16, 16), (satN 127 x.cur, 8, 7), (b2n x.mirror, 5, 1), (b2n x.ext, 4, 1), (b2n x.sag, 3, 1),
        (b2n (x.sag && decide (50 ≤ x.highN)), 2, 1), (x.grp, 0, 2)]

def fioExt (m : Mod) : W32 := pack ((List.range 4).map (fun g => ((groupAt m g).extSrc, 8 * g, 8)))
def fioMin (m : Mod) : W32 := pack [(m.fio.mtot, 16, 16), (m.fio.mchn, 8, 8), (m.fio.mlane, 0, 3)]
def fioKf (m : Mod) : W32 := pack ((List.range 8).map (fun j => (b2n (driveOf m (48 + j)).feedback, j, 1)))

end Sys2Proof.Machine
end

