-- ==== Sys2Proof/Machine/Wire.lean ====
section
/-! DEFINITION. What the media share: connection identities (R341), telegram mirror copies (R452), forwarding to the partner
(R463), and telegrams offered to the lane ports (R311). -/

namespace Sys2Proof.Machine

/-! ## Connection identities (R341) -/

def cidClass (c : W32) : Nat := fieldOf c.toNat 30 2
def cidNum (c : W32) : Nat := fieldOf c.toNat 20 10
def cidIdx (c : W32) : Nat := fieldOf c.toNat 16 4
def cidDir (c : W32) : Nat := fieldOf c.toNat 15 1
def cidNid (c : W32) : Nat := fieldOf c.toNat 0 15

/-- The connection with these identity fields. -/
def connWith (m : Mod) (cls num idx dir : Nat) : Option ConnDesc :=
  m.lg.app.conns.find? (fun c => cidClass c.cid == cls && cidNum c.cid == num && cidIdx c.cid == idx && cidDir c.cid == dir)

def connNo (m : Mod) (n : Nat) : Option ConnDesc := m.lg.app.conns.find? (fun c => c.num == n)

/-! ## Telegram mirror rings (R452) -/

/-- The writer of TM ring `t` writes one copy; a copy that finds the ring full is dropped and counted, the first after a written entry told
with event 0xC9 (R452, R454). -/
def writeCopy (t : Nat) (x : FifoItem) (m : Mod) : Mod :=
  let i := 88 + t
  if ringRoom m i then
    let e : TmEntry := { tstamp := x.at_, dirm := b2n x.received + 2 * x.medium + 16 * x.seg, lost := (ringOf m i).lost, tel := x.tel }
    updRing i (fun r => { r with lost := 0 }) (ringWrite i (fun ph => .telegram e ph) m)
  else
    onlyIf ((ringOf m i).lost == 0) (raise 0xC9 { src := 4, arg0 := i }) (updRing i (fun r => { r with aux := r.aux + 1, lost := r.lost + 1 }) m)

/-- While ring processing runs and the ring is not faulted, its writer takes what its FIFO holds (R503). -/
def drainMirror (t : Nat) (m : Mod) : Mod :=
  let xs := (dfifoOf m (1 + t)).items
  if xs.isEmpty || !ledgerUp m || !(ringOf m (88 + t)).en || (ringOf m (88 + t)).fault then m
  else forEach xs (writeCopy t) (fifoGive (1 + t) xs.length m)

/-- One copy for TM ring `t` (R452, R503): medium 0 Stride, 1 CAN FD, 2 host, 3 partner, 4 unsent. A ring that is not enabled takes none. -/
def mirrorCopy (t : Nat) (received : Bool) (medium seg : Nat) (tel : List Byte) (m : Mod) : Mod :=
  if !(ringOf m (88 + t)).en then m
  else drainMirror t (fifoTake (1 + t) { received := received, medium := medium, seg := seg, at_ := now m, tel := tel } m)

/-! ## Towards the lanes and the partner -/

/-- The partner link is there: a pair is provisioned, and the port passed BIST (R130, R455). -/
def linkFitted (m : Mod) : Bool := m.nv.paired && !bitOf m.md.bist 6

/-- A line delivers a valid frame, or a frame that fails its check. The first valid frame of a line since the start makes it deliver;
after a loss valid frames with no gap of 20 ms begin or go on, towards its restoration (R100, R456). -/
def heardLine (i : Nat) (ok : Bool) (m : Mod) : Mod :=
  if !ok then updPr (fun p => { p with lineSince := tabDel p.lineSince i }) m
  else
    let first := (tabFind m.pr.lineAt i).isNone
    let going := (tabFind m.pr.lineSince i).isSome && decide (m.clk < tabGet 0 m.pr.lineAt i + 20000000)
    let since := if m.pr.lines.getLsbD i || first then tabDel m.pr.lineSince i
      else if going then m.pr.lineSince else tabPut m.pr.lineSince i m.clk
    updPr (fun p => { p with lineAt := tabPut p.lineAt i m.clk, lineSince := since,
                             lines := if first then p.lines ||| BitVec.ofNat 2 (2 ^ i) else p.lines, linkLost := p.linkLost && !first }) m

/-- The CRC-64 of a copy as a front-end unit finds it, 14 or 15 (R456, R502): the value is open, for the bytes of the frame are; it is the one
expected, or it is not (R501). -/
def partnerCheck (ok : Bool) (m : Mod) : Mod :=
  let (v, m1) := takeFree m
  let x := cvuFinal 2 v
  feCvu 14 { poly := 2, run := v, expected := some (if ok then x else ~~~x) } m1

/-- One copy of a partner frame on line `i`. -/
def hearCopy (i : Nat) (c : LineCopy) (m : Mod) : Mod :=
  match c with
  | .absent => m
  | .good => heardLine i true (partnerCheck true m)
  | .damaged => heardLine i false (partnerCheck false m)

/-- The frame counts: either copy passes its check (R456). -/
def copiesOk (c : PartnerCopies) : Bool := c.line0 == .good || c.line1 == .good

/-- A partner frame of any type arrives: each line is judged by its copy (R456). -/
def hearFrame (c : PartnerCopies) (m : Mod) : Mod := if !linkFitted m then m else hearCopy 1 c.line1 (hearCopy 0 c.line0 m)

/-- The partner link carries frames: a pair is provisioned, a line delivers, and the partner has been heard. -/
def partnerUp (m : Mod) : Bool := m.nv.paired && m.pr.found && !m.pr.linkLost

/-- The partner link takes one telegram of the forward FIFO: frame 0x02 with medium, segment or channel, and the telegram as carried (R457,
R463). -/
def forwardOne (x : FifoItem) (m : Mod) : Mod :=
  mirrorCopy 6 false 3 x.seg x.tel
    (updPr (fun p => { p with telOut := x :: p.telOut }) (updPc (fun c => { c with fwdPartner := c.fwdPartner + 1 }) m))

/-- While the link carries frames it takes what the forward FIFO holds (R503). -/
def drainForward (m : Mod) : Mod :=
  let xs := (dfifoOf m 12).items
  if xs.isEmpty || !partnerUp m then m else forEach xs forwardOne (updPr (fun p => { p with telOut := [] }) (fifoGive 12 xs.length m))

/-- A telegram received on a medium is offered to every lane port and forwarded to the partner, which an outgoing module no longer does;
what the partner forwarded is not forwarded back (R311, R463, R472, R503). The lanes take it up as TELEGRAM_COPY_RECEIVED. -/
def offerTelegram (fromPartner : Bool) (medium seg : Nat) (tel : List Byte) (m : Mod) : Mod :=
  let x : FifoItem := { received := true, medium := medium, seg := seg, at_ := now m, tel := tel }
  let m1 := forEach [9, 10, 11] (fun f => fifoTake f x) (updStr (fun s => { s with offered := (tel :: s.offered).take 256 }) m)
  if !fromPartner ∧ m1.nv.paired ∧ m1.pr.found ∧ !m1.pr.outgoing then drainForward (fifoTake 12 x m1) else m1

/-- A lane port delivers a telegram: the FIFO has given the items up to it (R503). -/
def takeFromPort (l : LaneId) (tel : List Byte) (m : Mod) : Mod :=
  let xs := (dfifoOf m (9 + laneNo l)).items
  if xs.any (fun x => x.tel == tel) then fifoGive (9 + laneNo l) (xs.findIdx (fun x => x.tel == tel) + 1) m else m

end Sys2Proof.Machine
end

