-- ==== Sys2Proof/Machine/Stride.lean ====
section
/-! DEFINITION. Stride (R292-R338): gun frames and mastership, exclusive, bid and measure windows, entry and loss of stations,
ring breaks, schedule switches. Events of this chapter are the front end's: SRC 4. -/

namespace Sys2Proof.Machine

/-! ## Ports, segments, stations -/

def segAt (m : Mod) (i : Nat) : Segment := m.str.segs.getD i Segment.fresh
def updSeg (i : Nat) (f : Segment → Segment) (m : Mod) : Mod :=
  updStr (fun s => { s with segs := s.segs.mapIdx (fun j x => if j == i then f x else x) }) m

def stationAt (m : Mod) (n : Nat) : StationSt := tabGet StationSt.fresh m.str.stations n
def updStation (n : Nat) (f : StationSt → StationSt) (m : Mod) : Mod :=
  updStr (fun s => { s with stations := tabSet StationSt.fresh s.stations n (f (tabGet StationSt.fresh s.stations n)) }) m

/-- The station table entry of a station, with a rebound identity in place of the table's (R294, R331). -/
def stationDesc (m : Mod) (n : Nat) : Option StationDesc :=
  (m.net.stations.find? (fun d => d.num == n)).map (fun d => match tabFind (feSettings m).bound n with
    | some i => { d with identity := i }
    | none => d)

def segStations (m : Mod) (i : Nat) : List StationDesc := m.net.stations.filter (fun d => d.seg == i)

/-- Ring ends this module uses: both of a single module, one of a pair's by rank (R293); a dark port is not used (R130). -/
def usesEnd (m : Mod) (i : Nat) (b : Bool) : Bool :=
  (!m.nv.paired || (rankOf m == 1) == b) && !bitOf m.str.darkPorts (2 * i + b2n b)

def sideB : End → Bool
  | .a => false
  | .b => true

def portNo (p : Port) : Nat := 2 * p.seg.val + b2n (sideB p.side)

/-- A frame of a type leaves every ring end in use, as that end forms it; the state keeps its bytes and the front end counts it (R299,
R495). -/
def sendOn (i kind : Nat) (mk : Bool → List Byte) (m : Mod) : Mod :=
  let ends := [false, true].filter (usesEnd m i)
  updPc (fun c => { c with sentPort := ends.foldl (fun t b => tabSet 0 t (2 * i + b2n b) (tabGet 0 t (2 * i + b2n b) + 1)) c.sentPort })
    (updSeg i (fun g => { g with out := ends.foldl (fun t b => tabPut t (2 * kind + b2n b) (mk b)) g.out }) m)

/-- A frame of this module: the header as of now, with the window start `t` (R296). -/
def frameOut (m : Mod) (i kind t : Nat) (b adm : Bool) (stn : Nat) (payload : List Byte) : List Byte :=
  SFrame.bytes { kind := kind, fromB := b, looped := false, adm := adm, seg := i, bcn := bcnOf t, scn := scnOf t, woff := t % 5000000 / 1000,
                 stn := stn, sched := m.str.sched, loopPos := 0, payload := payload }
    (sourceOf m.nv.sec.identity (2 * i + b2n b))

/-- A frame arrives at a ring end: a bad FCS is discarded and counted, one of another EtherType, version or unlisted type discarded (R292,
R296, R297). A frame of another listed type than `kind` is taken up by that type's own row. -/
def ringIn (kind : Nat) (f : RingFrame) (m : Mod) : Option SFrame × Mod :=
  let p := portNo f.port
  if !usesEnd m f.port.seg.val (sideB f.port.side) then (none, m)
  else if !fcsGood f.bytes then (none, updStr (fun s => { s with fcserr := satN 0xFFFF (s.fcserr + 1) }) m)
  else
    match sRead f.bytes with
    | none => (none, m)
    | some x =>
      if x.kind = kind then (some x, updPc (fun c => { c with rcvdPort := tabSet 0 c.rcvdPort p (tabGet 0 c.rcvdPort p + 1) }) m)
      else (none, m)

/-- Stride frames may leave at station time `t`: in every mode but HALT and RECOVERY, and after HALT entry up to the next basic-cycle boundary
(R36, R327). -/
def mayStride (t : Nat) (m : Mod) : Bool :=
  operating m || (inHalt m && m.str.stopAt.any (fun b => decide (t < b)))

/-- A ring end of the segment may send at `t`: the loser of R325 sends nothing there while it is silent. -/
def endSends (t : Nat) (m : Mod) (i : Nat) : Bool :=
  let g := segAt m i
  mayStride t m && m.tm.taken && !g.stopped && g.yieldTo.isNone

/-- The segment is served: the module may send Stride frames and holds a role (R327). -/
def sendsAt (t : Nat) (m : Mod) (i : Nat) : Bool :=
  endSends t m i && ((segAt m i).role == 1 || (segAt m i).role == 2)

def sends (m : Mod) (i : Nat) : Bool := sendsAt (now m) m i

/-- Number of a basic cycle of station time. -/
def basicOf (t : Nat) : Nat := t / 5000000

/-! ## Timing (R295, R319) -/

/-- Declared transit in tenths of a ns: 0.8 µs per station and 4.9 ns per metre of the declared fibre of all n + 1 links (R295). -/
def declTenths (net : NetImage) (i : Nat) : Nat :=
  let ds := net.stations.filter (fun d => d.seg == i)
  8000 * ds.length + 49 * (ds.foldl (fun n d => n + d.fibre) 0 + net.endFibre.getD i 0)

/-- The worst transit T_w in tenths of a ns. -/
def worstTenths (net : NetImage) (i : Nat) : Nat := 2 * declTenths net i + 10000

/-- The window words of a segment and basic cycle of a schedule (R298). -/
def windowWords (d : SchedDesc) (seg bcn : Nat) : List W32 := (d.words.getD seg []).getD bcn []

/-- A window word: [31:30] kind, [29:20] station number, [12:0] start offset (R298). -/
def windowOf (seg bcn : Nat) (w : W32) : WindowDesc :=
  { seg := seg, bcn := bcn, kind := fieldOf w.toNat 30 2, station := fieldOf w.toNat 20 10, off := fieldOf w.toNat 0 13 }

/-- All windows of a schedule. -/
def schedWindows (d : SchedDesc) : List WindowDesc :=
  (List.range 4).flatMap (fun i => (List.range 4).flatMap (fun b => (windowWords d i b).map (windowOf i b)))

/-- Windows of the schedule in force on a segment. -/
def windowsOf (m : Mod) (i : Nat) : List WindowDesc :=
  match m.net.scheds.find? (fun s => s.num == m.str.sched) with
  | some d => (schedWindows d).filter (fun w => w.seg == i)
  | none => []

/-- A measured transit exceeds T_w / 2: no bid result returns in time (R315, R319). -/
def transitBad (m : Mod) (i : Nat) : Bool :=
  let g := segAt m i
  let lim := worstTenths m.net i
  decide (lim < 20 * g.ltA) || decide (lim < 20 * g.ltB)

/-- The measured transits break a timing limit: one exceeds T_w / 2, or the whole chain breaks the freeze keep-out (R319). -/
def timingBad (m : Mod) (i : Nat) : Bool :=
  let g := segAt m i
  let own := 2 * max g.wholeA g.wholeB + 1000
  transitBad m i ||
    (windowsOf m i).any (fun w => w.bcn == 0 && decide (800000 < w.off * 1000 + own) && decide (w.off < 1000))

/-- The timing flag follows the measurement; event 0x8C when it comes up (R315, R319). -/
def judgeTiming (i : Nat) (m : Mod) : Mod :=
  let bad := timingBad m i
  let m1 := updSeg i (fun g => { g with timing := bad }) m
  onlyIf (bad && !(segAt m i).timing) (raise 0x8C { src := 4, arg0 := i }) m1

/-! ## Gun frames (R301-R304, R321) -/

/-- Payload of a gun frame (R301). A far-end copy has the master's content but for TS, END and MFL[2] (R304). -/
def gunPayload (m : Mod) (i : Nat) (copy : Bool) : GunPay :=
  let g := segAt m i
  let told := m.str.swPend && decide (m.str.swFrom ≤ scn m)
  { ts := now m, corr := 0, scn := scn m, mid := if copy then m.nv.partnerId else m.nv.sec.identity,
    rank := if copy then g.mstRank else rankOf m, pair := m.nv.paired, farCopy := copy, first := g.coldScn == some (scn m),
    mmode := if copy then g.mstMode else modeCode (mode m), swfl := if told then 128 + 64 * b2n m.str.swConf + m.str.swNext else 0,
    swScn := if told then m.str.swScn else 0, rcScn := rcScn m, nstn := (segStations m i).length }

/-- GUN_FRAME_SEND: at each basic-cycle start; the far end sends its copy only after a basic cycle with evidence of the master
(R304). -/
def doGunSend (i : Nat) (m : Mod) : Mod :=
  if !sends m i then m
  else
    let m1 := toBasic (300 + i) 0 m
    let g := segAt m1 i
    let bc := basicOf (now m1)
    let ok := g.role == 1 || (match g.evidence with
      | some e => decide (bc ≤ e + 1)
      | none => false)
    if !ok || !sends m1 i then m1
    else
      let t := bc * 5000000
      sendOn i sGun (fun b => frameOut m1 i sGun t b false 0 (gunBytes (gunPayload m1 i (g.role == 2))))
        (updSeg i (fun x => { x with gunSent := some bc, gunCopy := x.role == 2 }) m1)

def execGunFrameSend (seg : Fin 4) (s : State) : Host.Outcome State Fault Refusal := s.run (doGunSend seg.val)

/-- The transit a ring end expects. -/
def transitAt (g : Segment) (b : Bool) : Nat := if b then g.ltB else g.ltA

/-- A ring end's expectation changes, for the windows from station time `t` on (R321). -/
def expectFrom (t : Nat) (b looped : Bool) (g : Segment) : Segment :=
  { g with expects := g.expects.mapIdx (fun k e =>
      if (k == 1) == b && e.looped != looped then
        { looped := looped, since := t, wasLooped := e.looped, wasLt := transitAt g b }
      else e) }

/-- What a ring end learns of the chain: a looped frame shows a break, one from the other end without LOOP a whole ring (R321). The
transit is the time from the sending of the copy expected to its return (R319). A position that turns frames from an end is 0 until a frame
of that end returns turned (R335). -/
def learnRing (p : Port) (f : SFrame) (transit : Nat) (m : Mod) : Mod :=
  let i := p.seg.val
  let g := segAt m i
  let b := sideB p.side
  let setLt (x0 : Segment) : Segment :=
    let x := expectFrom (now m) b f.looped x0
    if b then { x with ltB := transit } else { x with ltA := transit }
  let m1 :=
    if f.looped then
      if f.fromB ≠ b then m
      else
        let m0 := updSeg i (fun x => setLt (if b then { x with broken := true, brkB := f.loopPos } else { x with broken := true, brkA := f.loopPos })) m
        onlyIf (!g.broken) (raise 0x83 { src := 4, arg0 := i, arg1 := f.loopPos }) m0
    else if f.fromB = b then m
    else
      let whole (x : Segment) : Segment := if b then { x with wholeB := transit } else { x with wholeA := transit }
      let m0 := updSeg i (fun x => whole (setLt { x with broken := false, brkA := 0, brkB := 0 })) m
      onlyIf g.broken (raise 0x84 { src := 4, arg0 := i }) m0
  judgeTiming i m1

/-- The measured delay of a ring end's receive link (R319). -/
def linkDelayAt (m : Mod) (p : Port) : Option Nat := if sideB p.side then (segAt m p.seg.val).medB else (segAt m p.seg.val).medA

/-- The offset of the gun frames' time, and D, the delay from the sending end: both once the receive link's delay has been measured (R51,
R302). -/
def measureGun (f : RingFrame) (g : GunPay) (m : Mod) : Mod :=
  match linkDelayAt m f.port with
  | some d =>
    let m1 := updSeg f.port.seg.val (fun x => { x with gunDelay := some (g.delay + d) }) m
    if m.tm.taken then measure .gun (((g.ts + g.delay + d : Nat) : Int) - f.rx) m1 else updSrc .gun (fun x => { x with heardAt := some m.clk }) m1
  | none => updSrc .gun (fun x => { x with heardAt := some m.clk }) m

/-- A gun master hears another accepted master: the lower rank, then the lower identity wins; the loser is silent for three matrix
cycles (R325). -/
def yieldTo (f : GunPay) (i : Nat) (m : Mod) : Mod :=
  let lower := decide (f.rank < rankOf m) || (f.rank == rankOf m && decide (f.mid.toNat < m.nv.sec.identity.toNat))
  if (segAt m i).role = 1 ∧ lower then
    raise 0x82 { src := 4, arg0 := i } (updStr (fun s => { s with yielded := satN 255 (s.yielded + 1) })
      (unowe (300 + i) (updSeg i (fun g => { g with role := 3, yieldTo := some (m.clk + 60000000) }) m)))
  else m

/-- GUN_FRAME_RECEIVE (R302-R304, R319, R321, R325). A far end's own copy turned back at a break bears the master's identity and is
no evidence of the master (R304). A far end learns from the master's frame that the matrix is its first (R301). -/
def doGunReceive (f : RingFrame) (m : Mod) : Mod :=
  match ringIn sGun f m with
  | (none, m1) => m1
  | (some x, m1) =>
    let p := f.port
    let i := p.seg.val
    let g := gunOf x.payload
    let learn := learnRing p x (f.rx - g.ts)
    if g.mid = m.nv.sec.identity then learn m1
    else if !m.nv.paired ∨ g.mid ≠ m.nv.partnerId then
      noteTrig 7 (raise 0x8D { src := 4, arg0 := i } (updStr (fun s => { s with foreignN := satN 255 (s.foreignN + 1) }) m1))
    else if x.fromB = sideB p.side then learn m1
    else
      let m2 := updSeg i (fun y => { y with evidence := some (basicOf (now m1)), coldScn := if g.first then some g.scn else y.coldScn,
                                            mstRank := g.rank, mstMode := g.mmode }) (learn m1)
      yieldTo g i (setValid .gun true (measureGun f g m2))

def execGunFrameReceive (port : Port) (got : RingRx) (s : State) : Host.Outcome State Fault Refusal :=
  s.run (doGunReceive { port := port, rx := got.rx, bytes := got.bytes })

/-! ## Mastership (R324-R327) -/

/-- GUN_YIELD_END: the loser runs the listen again (R325). -/
def doYieldEnd (i : Nat) (m : Mod) : Mod :=
  match (segAt m i).yieldTo with
  | none => m
  | some t =>
    let m1 := passClk t m
    updSeg i (fun g => { g with yieldTo := none, role := 3, evidence := none, darkAt := m1.clk }) m1

def execGunYieldEnd (seg : Fin 4) (s : State) : Host.Outcome State Fault Refusal := s.run (doYieldEnd seg.val)

/-- GUN_LISTEN_END: after one matrix the far end where the partner was heard; else, with GUNOK, gun master at the next station cycle
boundary, event 0x80 (R324). -/
def doListenEnd (i : Nat) (m : Mod) : Mod :=
  let g := segAt m i
  if g.role ≠ 3 ∨ g.yieldTo.isSome ∨ !operating m ∨ !m.tm.taken then m
  else
    let m1 := passClk (g.darkAt + 20000000) m
    if g.evidence.isSome then owe (300 + i) (updSeg i (fun x => { x with role := 2 }) m1)
    else if bitOf m.str.strcfg.toNat 1 then
      let m2 := toNext (200 + i) 0 m1
      raise 0x80 { src := 4, arg0 := i } (dropOwnGun (owe (300 + i) (updSeg i (fun x => { x with role := 1, coldScn := some (scn m2) }) m2)))
    else m1

def execGunListenEnd (seg : Fin 4) (s : State) : Host.Outcome State Fault Refusal := s.run (doListenEnd seg.val)

/-- SEGMENT_DARK: 50 station cycles without a master with GUNOK 0; event 0x90 once (R324). -/
def doDark (i : Nat) (m : Mod) : Mod :=
  let g := segAt m i
  if g.role ≠ 3 ∨ g.darkTold ∨ bitOf m.str.strcfg.toNat 1 ∨ g.evidence.isSome ∨ !operating m then m
  else raise 0x90 { src := 4, arg0 := i } (updSeg i (fun x => { x with darkTold := true }) (passClk (g.darkAt + 1000000000) m))

def execSegmentDark (seg : Fin 4) (s : State) : Host.Outcome State Fault Refusal := s.run (doDark seg.val)

/-- GUN_TAKEOVER: the far end has had no evidence of the master for two basic cycles; event 0x81 (R326). -/
def doTakeover (i : Nat) (m : Mod) : Mod :=
  let g := segAt m i
  if g.role ≠ 2 ∨ !operating m then m
  else
    let m1 := passTo (((g.evidence.getD 0) + 3) * 5000000) m
    let m2 := toBasic (310 + i) 0 m1
    raise 0x81 { src := 4, arg0 := i }
      (dropOwnGun (owe (300 + i) (updStr (fun s => { s with take := satN 255 (s.take + 1) })
        (updSeg i (fun x => { x with role := 1, evidence := none }) m2))))

def execGunTakeover (seg : Fin 4) (s : State) : Host.Outcome State Fault Refusal := s.run (doTakeover seg.val)

/-- STRIDE_STOP_ON_HALT: at the next basic-cycle boundary after HALT entry every transmission stops and held telegrams are dropped (R36,
R327). -/
def doStrideStop (m : Mod) : Mod :=
  if operating m then m
  else
    let m1 := match m.str.stopAt with
      | some t => passTo t m
      | none => m
    updBt (fun b => { b with outTel := [], outPrev := [] })
      (updStr (fun s => { s with segs := s.segs.map (fun g => { g with stopped := true }), stopAt := none }) m1)

def execStrideStopOnHalt (s : State) : Host.Outcome State Fault Refusal := s.run doStrideStop

/-! ## Windows (R298, R299, R307) -/

/-- The next start of a window at or after `t`. -/
def windowAt (t : Nat) (w : WindowDesc) : Nat :=
  let c := t / 20000000 * 20000000 + (w.bcn * 5000 + w.off) * 1000
  if t ≤ c then c else c + 20000000

/-- The start of the next window of a kind on a segment that has not been sent yet. -/
def nextWindow (m : Mod) (i kind sent : Nat) : Option Nat :=
  ((windowsOf m i).filter (fun w => w.kind == kind)).foldl (fun (a : Option Nat) w =>
    let t := windowAt (max (now m) sent) w
    some (min (a.getD t) t)) none

/-- An admitted station in this station cycle (R322). -/
def admitted (m : Mod) (n : Nat) : Bool := (stationAt m n).adm && decide ((stationAt m n).admScn ≤ scn m)

/-- The output telegram the front end holds for a station in this station cycle: that of its connection IDX 0 from the ZL3, sealed in the
previous one (R31, R307, R343). -/
def outFor (m : Mod) (cls n : Nat) : Option OutTel :=
  match connWith m cls n 0 1 with
  | none => none
  | some c =>
    let of (t : Tab OutTel) : Option OutTel := (tabFind t c.num).bind (fun o => if o.tel.isEmpty || o.seq != scn m then none else some o)
    (of m.bt.outPrev).or (of m.bt.outTel)

/-- EXCLUSIVE_WINDOW_SEND: the frame leaves at its window, with the telegram sealed in the previous station cycle or a null; a station
that is not admitted gets a null (R31, R307). -/
def doExclusiveSend (n : Nat) (m : Mod) : Mod :=
  match stationDesc m n with
  | none => m
  | some d =>
    match (windowsOf m d.seg).find? (fun w => w.kind == 0 && w.station == n) with
    | none => m
    | some w =>
      if !sends m d.seg then m
      else
        let m1 := toNext (2000 + n) (w.bcn * 5000 + w.off) m
        let t := scn m1 * 20000000 + (w.bcn * 5000 + w.off) * 1000
        let held := if admitted m1 n then ((outFor m1 0 n).map (·.tel)).getD [] else []
        let tel := if held.length ≤ d.outLen then held else []
        if !sendsAt t m1 d.seg then m1 else
        let m2 := sendOn d.seg sExclusive (fun b => frameOut m1 d.seg sExclusive t b (admitted m1 n) n (exBytes d.outLen d.inLen tel))
          (updStation n (fun x => { x with sentAt := some t, sentTel := tel }) m1)
        if tel.isEmpty then m2 else mirrorCopy (d.seg % 4) false 0 d.seg tel m2

def execExclusiveWindowSend (station : Nat) (s : State) : Host.Outcome State Fault Refusal := s.run (doExclusiveSend station)

/-- A false start at a ring end: discarded, counted, event 0x88 at most once per station in 1,000 station cycles (R310). -/
def falseStart (n : Nat) (m : Mod) : Mod :=
  let tell := match (stationAt m n).falseTold with
    | some s => decide (s + 1000 ≤ scn m)
    | none => true
  let m1 := updStr (fun s => { s with fsend := satN 0xFFFF (s.fsend + 1) }) m
  if tell then raise 0x88 { src := 4, arg0 := n } (updStation n (fun x => { x with falseTold := some (scn m) }) m1) else m1

/-- An entry is refused, or an admission withdrawn: counted, event 0x86 with the reason and the identity's low word (R322). -/
def refuseEntry (n reason : Nat) (identity : W64) (m : Mod) : Mod :=
  raise 0x86 { src := 4, arg0 := n, arg1 := reason, arg2 := identity.toNat % 2 ^ 32 }
    (updStr (fun s => { s with refusedN := satN 255 (s.refusedN + 1), reason := reason, refStn := n }) m)

/-- A station loses its admission. -/
def dropStation (n : Nat) (m : Mod) : Mod :=
  updStation n (fun x => { x with adm := false, capDone := false, spans := ((x.admScn, scn m) :: x.spans).take 4 }) m

/-- The station was admitted throughout station cycle `s` (R329). -/
def admThroughout (x : StationSt) (s : Nat) : Bool :=
  (x.adm && decide (x.admScn ≤ s)) || x.spans.any (fun p => decide (p.1 ≤ s) && decide (s < p.2))

/-- A station whose firmware was activated has entered again: its capability record tells the version it runs (R544). -/
def ocReturned (n fw : Nat) (m : Mod) : Mod :=
  let o := m.up.oc
  if o.state ≠ 3 ∨ o.station ≠ n ∨ scn m < o.actScn then m
  else
    let ok := fw == o.version.toNat
    raise (if ok then 0xE4 else 0xE5) { arg0 := n, arg1 := if ok then 6 else 9, arg2 := o.session }
      (updNv (fun v => if ok then { v with banks := { v.banks with ocComps := v.banks.ocComps.filter (fun e => e.1 != n) ++ [(n, o.version, o.comp)],
                                                                   committed := tabSet 0 v.banks.committed 6 o.version } } else v)
        (updUp (fun u => { u with oc := OcXfer.fresh, result := if ok then 2 else 3, reason := if ok then 0 else 9, resKind := 6 }) m))

/-- A diagnostic record of a station is kept; the module's own are those of its ports (R316). -/
def takeDiagnostic (n : Nat) (t : Trailer) (m : Mod) : Mod :=
  match t with
  | .diagnostic a b fcs fs sil => updStation n (fun x => { x with diag := [a, b, fcs, fs, sil] }) m
  | _ => m

/-- A capability record is checked once after admission (R322). -/
def takeCapability (n : Nat) (d : StationDesc) (t : Trailer) (m : Mod) : Mod :=
  match t with
  | .capability kind fw outMax inMax conns blocks _ residence =>
    let x := stationAt m n
    if !x.adm || x.capDone then m
    else if kind = d.kind ∧ d.outLen ≤ outMax ∧ d.inLen ≤ inMax ∧ d.conns ≤ conns ∧ residence ≤ 800 then
      ocReturned n fw (updStation n (fun y => { y with capDone := true, blocks := blocks, fw := fw }) m)
    else refuseEntry n 4 x.identity (dropStation n m)
  | _ => m

/-- A frame of a window arrives within ±2 µs of its expected transit and is the copy expected: of the window that started at `start`,
the other end's on a whole ring, its own turned back on a broken one, as the end expected when the window was sent (R310, R321). -/
def expected (m : Mod) (start : Option Nat) (f : RingFrame) (x : SFrame) : Bool :=
  let i := f.port.seg.val
  let g := segAt m i
  let b := sideB f.port.side
  let e := g.expects.getD (b2n b) Expect.fresh
  let old := start.any (fun t => decide (t < e.since))
  let lt := if old then e.wasLt else transitAt g b
  let copy := if (if old then e.wasLooped else e.looped) then x.looped && x.fromB == b else !x.looped && x.fromB != b
  copy && x.seg == i && (match start with
    | some t => x.scn == scnOf t % 2 ^ 32 && x.bcn == bcnOf t && x.woff == t % 5000000 / 1000 &&
        decide (f.rx ≤ t + lt + 2000) && decide (t + lt ≤ f.rx + 2000)
    | none => false)

/-- A roll-call block of a station comes in its trailer, numbered by STS[5] (R316, R493). -/
def takeRollCall (n : Nat) (t : Trailer) (m : Mod) : Mod :=
  match t with
  | .rollCall b bytes => takeBlock (.station n) b bytes m
  | _ => m

/-- EXCLUSIVE_FRAME_RETURN (R306, R310, R311, R316, R322, R328). A valid input part is a null, or a telegram of at most the declared length,
in a frame of the declared length. What it says of a window it says of that window's station cycle. -/
def doExclusiveReturn (f : RingFrame) (m : Mod) : Mod :=
  match ringIn sExclusive f m with
  | (none, m1) => m1
  | (some h, m1) =>
    match stationDesc m h.stn with
    | none => falseStart h.stn m1
    | some d =>
      let n := h.stn
      let x := exOf d.outLen d.inLen h.payload
      if !expected m (stationAt m n).sentAt f h then falseStart n m1
      else if h.payload.length ≠ 76 + d.outLen + d.inLen ∨ d.inLen < x.ilen ∨ !(stationAt m n).adm then m1
      else
        let ack := x.ackValid && m.str.swPend && x.ackSched == m.str.swNext && x.ackScn == BitVec.ofNat 16 m.str.swScn
        let w := scnOf ((stationAt m n).sentAt.getD 0)
        let m2 := updStation n (fun y => { y with seenScn := w, restrictive := x.restrictive, falseStarts := x.falseStarts,
                                                  ackScn := if ack && decide (w + 2 ≤ m.str.swScn) then some w else y.ackScn }) m1
        let m3 := takeRollCall n x.trailer (takeDiagnostic n x.trailer (takeCapability n d x.trailer m2))
        if x.ilen = 0 then m3 else offerTelegram false 0 d.seg x.input m3

def execExclusiveFrameReturn (frame : RingFrame) (s : State) : Host.Outcome State Fault Refusal := s.run (doExclusiveReturn frame)

/-- BID_WINDOW_SEND: grants the winner of the previous bid and acknowledges the message received; with a transit above the limit
nobody is granted (R313-R315). -/
def doBidSend (i : Nat) (m : Mod) : Mod :=
  if !sends m i then m
  else
    match nextWindow m i 1 (segAt m i).bidSent with
    | none => m
    | some t =>
      if !sendsAt t m i then m else
      let m1 := updSeg i (fun g =>
        let b := g.bid.toNat
        let none_ := b == 0xFFFFFFFF || transitBad m i
        { g with grant := if none_ then 0 else fieldOf b 19 10, grantMid := if none_ then 0 else fieldOf b 0 16,
                 ackStn := if g.gotMsg then g.grant else 0, ackMid := if g.gotMsg then g.grantMid else 0, gotMsg := false,
                 bid := 0xFFFFFFFF#32, bidSent := t + 1 }) (passTo t m)
      let g := segAt m1 i
      sendOn i sBid (fun b => frameOut m1 i sBid t b false 0 (bidBytes g.grant g.grantMid g.ackStn g.ackMid)) m1

def execBidWindowSend (seg : Fin 4) (s : State) : Host.Outcome State Fault Refusal := s.run (doBidSend seg.val)

/-- Start of the last window of a kind sent; the field holds it plus 1, and 0 before the first. -/
def lastSent (n : Nat) : Option Nat := if n = 0 then none else some (n - 1)

/-- BID_FRAME_RETURN: the lower bid of the two copies is kept, and the granted message is offered to the lanes (R310, R313, R314). -/
def doBidReturn (f : RingFrame) (m : Mod) : Mod :=
  match ringIn sBid f m with
  | (none, m1) => m1
  | (some h, m1) =>
    let i := f.port.seg.val
    let g := segAt m1 i
    let x := bidOf h.payload
    if !expected m (lastSent g.bidSent) f h then falseStart h.stn m1
    else
      let m2 := updSeg i (fun y => { y with bid := if x.bid.toNat < y.bid.toNat then x.bid else y.bid }) m1
      if g.grant ≠ 0 ∧ 1 ≤ x.mlen ∧ x.mlen ≤ 256 then offerTelegram false 0 i x.msg (updSeg i (fun y => { y with gotMsg := true }) m2) else m2

def execBidFrameReturn (frame : RingFrame) (s : State) : Host.Outcome State Fault Refusal := s.run (doBidReturn frame)

/-! ## Entry and loss (R322, R323) -/

/-- One claim of an entry frame. The position is counted from end a. -/
def takeClaim (i : Nat) (fromB : Bool) (e : EntrySlot) (m : Mod) : Mod :=
  if e.identity = BitVec.ofNat 64 (2 ^ 64 - 1) then m
  else
    let pos := if fromB then (segStations m i).length + 1 - e.hops else e.hops
    let known := m.net.stations.any (fun d => ((stationDesc m d.num).map (·.identity)) == some e.identity)
    match stationDesc m e.claimed with
    | none => refuseEntry e.claimed (if known then 2 else 1) e.identity m
    | some d =>
      let x := stationAt m e.claimed
      if x.adm ∧ x.identity = e.identity then m
      else if !known then refuseEntry e.claimed 1 e.identity m
      else if d.seg ≠ i ∨ d.identity ≠ e.identity ∨ x.adm then refuseEntry e.claimed 2 e.identity m
      else if d.pos ≠ pos then refuseEntry e.claimed 3 e.identity m
      else
        raise 0x85 { src := 4, arg0 := e.claimed }
          (updStation e.claimed (fun y => { y with adm := true, admScn := scn m + 1, capDone := false, seenScn := scn m, identity := e.identity,
                                                   ackScn := none, fw := e.firmware.toNat }) m)

/-- ENTRY_FRAME_RETURN: each claiming station is admitted or refused (R310, R322). -/
def doEntryReturn (f : RingFrame) (m : Mod) : Mod :=
  match ringIn sEntry f m with
  | (none, m1) => m1
  | (some h, m1) =>
    let i := f.port.seg.val
    if !expected m (lastSent (segAt m i).entrySent) f h then falseStart h.stn m1
    else forEach (entrySlots h.payload) (takeClaim i h.fromB) m1

def execEntryFrameReturn (frame : RingFrame) (s : State) : Host.Outcome State Fault Refusal := s.run (doEntryReturn frame)

/-- CAPABILITY_TIMEOUT: no capability record within 4 station cycles of admission; reason 4 (R322). -/
def doCapTimeout (n : Nat) (m : Mod) : Mod :=
  let x := stationAt m n
  if !x.adm || x.capDone then m
  else refuseEntry n 4 x.identity (dropStation n (passTo ((x.admScn + 4) * 20000000) m))

def execCapabilityTimeout (station : Nat) (s : State) : Host.Outcome State Fault Refusal := s.run (doCapTimeout station)

/-- STRCFG.LOSTCYC (R332). -/
def lostCyc (m : Mod) : Nat := fieldOf m.str.strcfg.toNat 8 8

/-- STATION_LOST: no valid input part for LOSTCYC consecutive station cycles; event 0x87 (R323). -/
def doStationLost (n : Nat) (m : Mod) : Mod :=
  let x := stationAt m n
  if !x.adm then m
  else
    let m1 := passTo ((max x.seenScn (x.admScn - 1) + lostCyc m + 1) * 20000000) m
    let seg := ((stationDesc m n).map (·.seg)).getD 0
    raise 0x87 { src := 4, arg0 := n } (updSeg seg (fun g => { g with nlost := satN 255 (g.nlost + 1) }) (dropStation n m1))

def execStationLost (station : Nat) (s : State) : Host.Outcome State Fault Refusal := s.run (doStationLost station)

/-! ## Measurement (R319) -/

/-- The diagnostic record of a ring-end port: its link delay median, and what its SFP module offers of SFF-8472 diagnostics (R316, R580). -/
def portRecord (m : Mod) (k : Nat) (sff : List Byte) : PortDiag :=
  { delay := if k % 2 = 1 then (segAt m (k / 2)).medB else (segAt m (k / 2)).medA, sff := sff }

/-- MEASURE_WINDOW: at offset 4,700 of BC2 each ring end, whatever its role, sends its link delay requests with t1, the window's start; with them the diagnostics of the SFP modules are
read, on which the module does not act (R319, R580). What a module offers comes from outside (log entry 8). -/
def doMeasure (m : Mod) : Mod :=
  if !m.tm.taken || !mayStride (now m) m then m
  else
    let m1 := toPhase 21 14700 m
    let m2 := updStr (fun s => { s with diag := (List.range 8).foldl (fun t k => tabPut t k (portRecord m1 k (Config.sfpDiagnostics k m1.freeN))) s.diag })
      { m1 with freeN := m1.freeN + 1 }
    forEach (List.range 4) (fun i acc =>
      let t1 := scn acc * 20000000 + 14700000
      if endSends t1 acc i then sendOn i sDelayReq (fun b => frameOut acc i sDelayReq t1 b false 0 (delayReqBytes t1))
        (updSeg i (fun g => { g with measAt := some t1 }) acc)
      else acc) m2

def execMeasureWindow (s : State) : Host.Outcome State Fault Refusal := s.run doMeasure

/-- A frame of a type leaves one ring end. -/
def sendPort (p : Port) (kind : Nat) (bytes : List Byte) (m : Mod) : Mod :=
  updPc (fun c => { c with sentPort := tabSet 0 c.sentPort (portNo p) (tabGet 0 c.sentPort (portNo p) + 1) })
    (updSeg p.seg.val (fun g => { g with out := tabPut g.out (2 * kind + b2n (sideB p.side)) bytes }) m)

/-- LINK_DELAY_REQUEST: answered out of the same port with the turnaround t3 − t2, at most 5 µs; how long the answer takes within that is
open, a free value (R296, R319). A loser of R325 in its silence answers nothing. -/
def doDelayRequest (f : RingFrame) (m : Mod) : Mod :=
  match ringIn sDelayReq f m with
  | (none, m1) => m1
  | (some _, m1) =>
    let i := f.port.seg.val
    if !endSends (now m1) m1 i then m1
    else
      let (v, m2) := takeFree m1
      let turn := v.toNat % 5001
      sendPort f.port sDelayRsp (frameOut m2 i sDelayRsp (f.rx + turn) (sideB f.port.side) false 0 (delayRspBytes turn))
        (updSeg i (fun g => { g with answers := g.answers + 1, answerTurn := turn }) m2)

def execLinkDelayRequest (port : Port) (got : RingRx) (s : State) : Host.Outcome State Fault Refusal :=
  s.run (doDelayRequest { port := port, rx := got.rx, bytes := got.bytes })

/-- The median of the last values of a link delay. -/
def medianNat (xs : List Nat) : Option Nat :=
  let s := sortBy (fun a b => decide (a < b)) xs
  s[(s.length - 1) / 2]?

/-- A link delay is measured: its median of the last 8; a step of more than 200 ns raises event 0x8E (R319). -/
def keepDelay (p : Port) (d : Nat) (m : Mod) : Mod :=
    let i := p.seg.val
    let b := sideB p.side
    let g := segAt m i
    let xs := (d :: (if b then g.delaysB else g.delaysA)).take 8
    let old := if b then g.medB else g.medA
    let new := medianNat xs
    let step := match old, new with
      | some x, some y => decide (x + 200 < y) || decide (y + 200 < x)
      | _, _ => false
    let m1 := updSeg i (fun x => if b then { x with delaysB := xs, medB := new } else { x with delaysA := xs, medA := new }) m
    onlyIf step (raise 0x8E { src := 4, arg0 := portNo p }) m1

/-- LINK_DELAY_RESPONSE: link delay ((t4 − t1) − (t3 − t2)) / 2, with t4 the receipt of the response and t3 − t2 what it carries (R296, R319). -/
def doDelay (f : RingFrame) (m : Mod) : Mod :=
  match ringIn sDelayRsp f m with
  | (none, m1) => m1
  | (some x, m1) =>
    match (segAt m1 f.port.seg.val).measAt with
    | none => m1
    | some t1 => keepDelay f.port ((f.rx - t1 - delayRspOf x.payload) / 2) m1

def execLinkDelayResponse (port : Port) (rx : Nat) (bytes : List Byte) (s : State) : Host.Outcome State Fault Refusal :=
  s.run (doDelay { port := port, rx := rx, bytes := bytes })

/-! ## Schedules (R328, R329) -/

/-- 0x80: announce a schedule switch. Conditions 1 to 3 of R328, and the named SCN at least 10 cycles ahead (R73). -/
def switchSub (a : Accepted) (sub : Submission) (m : Mod) : Mod :=
  let k := byteAt sub.oper 0
  if 8 ≤ k then completeNow a 0x03 16 m
  else if !(m.net.scheds.any (fun s => s.num == k)) then completeNow a 0x07 1 m
  else if k = m.str.sched then completeNow a 0x07 2 m
  else if m.str.swPend then completeNow a 0x07 3 m
  else if sub.nscn < scn m then completeNow a 0x05 1 m
  else if sub.nscn < scn m + 10 then completeNow a 0x05 0 m
  else
    raise 0x89 { src := 4, arg1 := k, arg2 := sub.nscn % 2 ^ 32 }
      (updStr (fun s => { s with swPend := true, swConf := false, swNext := k, swScn := sub.nscn, swFrom := scn m + 1, swSub := some a,
                                 stations := s.stations.map (fun e => (e.1, { e.2 with ackScn := none })) }) m)

/-- The submission of the switch completes. -/
def endSwitch (code : Nat) (m : Mod) : Mod :=
  match m.str.swSub with
  | some a => completeNow a code 0 (updStr (fun s => { s with swSub := none }) m)
  | none => m

/-- SCHEDULE_SWITCH_DECISION: at phase 1,000 of S − 1 every station admitted throughout S − 2 must have acknowledged in S − 2; else the
switch is abandoned, event 0x8B (R329). -/
def doSwitchDecision (m : Mod) : Mod :=
  if !m.str.swPend || m.str.swConf || !operating m then m
  else
    let s := m.str.swScn
    let m1 := passTo ((s - 1) * 20000000 + 1000000) m
    let missing := (m1.str.stations.filter (fun e => admThroughout e.2 (s - 2) && e.2.ackScn != some (s - 2))).map (·.1)
    match missing with
    | [] => updStr (fun x => { x with swConf := true }) m1
    | n :: _ =>
      endSwitch 0x15 (raise 0x8B { src := 4, arg0 := n, arg1 := m.str.swNext }
        (updStr (fun x => { x with swPend := false, aband := satN 255 (x.aband + 1), noack := n }) m1))

def execScheduleSwitchDecision (s : State) : Host.Outcome State Fault Refusal := s.run doSwitchDecision

/-- SCHEDULE_SWITCH_APPLIED: from phase 0 of S windows follow the new schedule; event 0x8A (R329). -/
def doSwitchApplied (m : Mod) : Mod :=
  if !m.str.swPend || !m.str.swConf || !operating m then m
  else
    let m1 := passTo (m.str.swScn * 20000000) m
    endSwitch 0 (raise 0x8A { src := 4, arg1 := m.str.swNext }
      (updStr (fun x => { x with sched := x.swNext, swPend := false, swConf := false, applied := satN 255 (x.applied + 1) }) m1))

def execScheduleSwitchApplied (s : State) : Host.Outcome State Fault Refusal := s.run doSwitchApplied

/-! ## Registers (R333-R336) -/

def strSts (m : Mod) : W32 :=
  pack (((List.range 4).map (fun i => let g := segAt m i; (g.role + 4 * b2n g.broken + 8 * b2n g.timing, 16 + 4 * i, 4))) ++
    [(if m.str.swPend then m.str.swNext else 0, 8, 3), (b2n m.str.swPend, 7, 1), (m.str.sched, 0, 3)])

def strSwa (m : Mod) : W32 := pack [(m.str.applied, 24, 8), (m.str.aband, 16, 8), (m.str.noack, 0, 10)]
def strEnt (m : Mod) : W32 := pack [(m.str.refusedN, 24, 8), (m.str.reason, 20, 4), (m.str.refStn, 0, 10)]

def strSeg (m : Mod) (i : Nat) : W32 :=
  let g := segAt m i
  let nadm := ((segStations m i).filter (fun d => admitted m d.num)).length
  pack [(nadm, 24, 8), (g.nlost, 16, 8), (g.brkA, 8, 8), (g.brkB, 0, 8)]

def strLt (m : Mod) (i : Nat) : W32 :=
  let g := segAt m i
  pack [(if usesEnd m i false then satN 0xFFFF (g.ltA / 10) else 0, 16, 16), (if usesEnd m i true then satN 0xFFFF (g.ltB / 10) else 0, 0, 16)]

def strFs (m : Mod) : W32 := pack [(m.str.fsend, 16, 16), (m.str.fcserr, 0, 16)]
def strGun (m : Mod) : W32 := pack [(m.str.take, 24, 8), (m.str.yielded, 16, 8), (m.str.foreignN, 8, 8)]

end Sys2Proof.Machine
end

