-- ==== Sys2Proof/Machine/Baton.lean ====
section
/-! DEFINITION. The Baton layer (R94, R112, R113, R339-R377): acceptance of telegrams, the remote freeze, connection states, the
telegrams the lanes seal, epochs, the counters. -/

namespace Sys2Proof.Machine

/-! ## Connections (R339-R341, R354) -/

/-- Connections towards the ZL3, in connection-table order. -/
def inConns (m : Mod) : List ConnDesc := m.lg.app.conns.filter (fun c => cidDir c.cid == 0)

/-- Key of a far end's rebind count: stations and CAN FD nodes apart. -/
def farKey (cls num : Nat) : Nat := 0x1000 * cls + num

/-- Rebinds of a far end accepted since provisioning, as the lanes keep them (R354). -/
def rebindsOf (m : Mod) (cls num : Nat) : Nat := agreedBy m (fun l => tabGet 0 l.nv.rebinds (farKey cls num))

/-- The epoch in force of a connection (R354). -/
def epochOf (m : Mod) (c : ConnDesc) : Nat := c.epoch + rebindsOf m (cidClass c.cid) (cidNum c.cid)

/-- The network identity of the installation, as provisioned: every connection of it carries it (R342, R554). -/
def ownNid (m : Mod) : Nat := m.nv.sec.nid

def connSt (m : Mod) (n : Nat) : ConnSt := tabGet ConnSt.fresh m.bt.conns n
def updConnSt (n : Nat) (f : ConnSt → ConnSt) (m : Mod) : Mod :=
  updBt (fun b => { b with conns := tabSet ConnSt.fresh b.conns n (f (tabGet ConnSt.fresh b.conns n)) }) m

def btnOf (x : Lane) (n : Nat) : BtnLane := tabGet BtnLane.fresh x.btn n
def updBtn (n : Nat) (f : BtnLane → BtnLane) (x : Lane) : Lane :=
  { x with btn := tabSet BtnLane.fresh x.btn n (f (btnOf x n)) }

/-- The number under which a lane counts copies that name no connection towards the ZL3. -/
def noConn : Nat := 4096

/-! ## Telegrams (R344, R348, R351, R352) -/

def telKind (t : List Byte) : Nat := byteAt t 0 % 16
def telDlen (t : List Byte) : Nat := byteAt t 3
def telCid (t : List Byte) : W32 := BitVec.ofNat 32 (readBE t 4 4)
def telData (t : List Byte) : List Byte := cut t 16 (telDlen t)
def telRestr (t : List Byte) : Bool := bitOf (byteAt t 1) 1
def telDiv (t : List Byte) : Bool := bitOf (byteAt t 1) 2

/-- The body: every byte but SPOS and the seals (R344). -/
def telBody (t : List Byte) : List Byte := cut t 0 2 ++ cut t 3 (13 + telDlen t)

/-- The full SEQ: the value congruent to SEQ that lies nearest a reference SCN (R348). Of two equally near the manual names
none: the lower, a DESIGN CHOICE (log entry 60). -/
def fullSeq (ref seq : Nat) : Nat :=
  let base := ref / 2 ^ 32 * 2 ^ 32 + seq % 2 ^ 32
  if base ≤ ref then (if 2 ^ 31 < ref - base then base + 2 ^ 32 else base)
  else if 2 ^ 32 ≤ base ∧ 2 ^ 31 ≤ base - ref then base - 2 ^ 32
  else base

/-- The derived key of a position key for a connection identity (R351). -/
def sealKey (k : BitVec 128) (pos : Nat) (cid : W32) : BitVec 128 :=
  aesCmac k ([0x01, 0x42, 0x54, 0x4E, 0x31, 0x00, BitVec.ofNat 8 pos] ++ bytesBE 4 cid.toNat ++ [0x00, 0x80])

/-- A seal under a position key over a body (R352). -/
def sealOf (k : BitVec 128) (pos : Nat) (cid : W32) (body : List Byte) : W64 :=
  (aesCmac (sealKey k pos cid) body).extractLsb' 64 64

/-- The channel key X or Y of a far end in a lane's key store. -/
def channelKey (x : Lane) (cls num : Nat) (y : Bool) : Option (BitVec 128) := tabFind x.nv.keys.channel (4096 * cls + 2 * num + b2n y)

/-- SPOS is as in R353 and both seals verify. -/
def sealsOk (x : Lane) (t : List Byte) : Bool :=
  let cid := telCid t
  let lo := if cidClass cid = 2 then 6 else 4
  let good (y : Bool) (off : Nat) : Bool := match channelKey x (cidClass cid) (cidNum cid) y with
    | some k => sealOf k (lo + b2n y) cid (telBody t) == BitVec.ofNat 64 (readBE t off 8)
    | none => false
  byteAt t 2 == 16 * lo + lo + 1 && good false (16 + telDlen t) && good true (24 + telDlen t)

/-! ## Acceptance (R358, R359, R367) -/

/-- Where a copy stands in the acceptance steps. -/
structure TelCheck where
  /-- First failing step 1-9; 0 when every step passes. -/
  step : Nat
  /-- The connection it names, from step 2 on. -/
  conn : Option ConnDesc
  full : Nat
  deriving Repr

/-- The steps of R358 in order, at the receiver's station time `t`. `terminal`: a terminal telegram on the host path (R340, R370). -/
def checkTel (m : Mod) (x : Lane) (t : Nat) (terminal : Bool) (tel : List Byte) : TelCheck :=
  let cid := telCid tel
  let known := m.lg.app.conns.find? (fun c => c.cid == cid)
  let dlenOk := match known with
    | some c => telDlen tel == c.dlen
    | none => true
  let fmt := byteAt tel 0 / 16 == 1 && m.lg.app.conns.any (fun c => c.kind == telKind tel) && dlenOk && tel.length == 32 + telDlen tel
  if !fmt then { step := 1, conn := none, full := 0 }
  else
    match known with
    | none => { step := 2, conn := none, full := 0 }
    | some c =>
      let ours := cidDir cid == 0 && c.kind == telKind tel && (c.kind == 3) == terminal &&
        (!terminal || (cidClass cid == 2 && cidIdx cid == 0))
      if !ours then { step := 2, conn := none, full := 0 }
      else if readBE tel 10 2 ≠ c.texp then { step := 3, conn := some c, full := 0 }
      else if !sealsOk x tel then { step := 4, conn := some c, full := 0 }
      else if readBE tel 8 2 ≠ epochOf m c then { step := 5, conn := some c, full := 0 }
      else
        let full := fullSeq (scnOf t) (readBE tel 12 4)
        let b := btnOf x c.num
        if scnOf t + 1 < full ∨ (c.kind = 1 ∧ full % c.per ≠ c.ofs) then { step := 6, conn := some c, full := full }
        else if b.counted.any (fun e => e.1 == full) then { step := 7, conn := some c, full := full }
        else if full * 20000000 + c.texp * 1000000 < t then { step := 8, conn := some c, full := full }
        else if c.kind != 3 && (match b.top with
            | some h => decide (full ≤ h)
            | none => false) then { step := 9, conn := some c, full := full }
        else { step := 0, conn := some c, full := full }

/-- LOW and HIGH over the full SEQs counted RECV or LATE (R359). -/
def noteSeq (full : Nat) (body : List Byte) (b : BtnLane) : BtnLane :=
  { b with low := some (min (b.low.getD full) full), high := some (max (b.high.getD full) full), counted := (full, body) :: b.counted }

/-- A lane drops a telegram of a full SEQ it holds two bodies of (R367). -/
def dropSeq (full : Nat) (b : BtnLane) : BtnLane :=
  if (b.newest.map (·.seq)) = some full then { b with newest := b.prev, prev := none }
  else if (b.prev.map (·.seq)) = some full then { b with prev := none }
  else b

/-- Counting in exactly one class (R359). -/
def countTel (k : TelCheck) (tel : List Byte) (b : BtnLane) : BtnLane :=
  match k.step with
  | 0 => { noteSeq k.full (telBody tel) b with recv := b.recv + 1, top := some k.full, prev := b.newest, newest := some { seq := k.full, tel := tel } }
  | 4 => { b with sealf := b.sealf + 1 }
  | 5 => { b with epmis := b.epmis + 1 }
  | 7 => { b with dup := b.dup + 1 }
  | 8 | 9 => { noteSeq k.full (telBody tel) b with late := b.late + 1 }
  | _ => { b with fmt := b.fmt + 1 }

/-- An event of R377 is told at most once per connection in 1,000 station cycles, by the lane that is the first to meet the case. Event
0xA6 is trigger 9 (R564). -/
def tellBtn (l : LaneId) (n code : Nat) (x : EvArgs) (m : Mod) : Mod :=
  let due := allLanes.all (fun y => match tabFind (btnOf (m.ln.get y) n).told code with
    | some s => decide (s + 1000 ≤ scn m)
    | none => true)
  if due then
    onlyIf (code == 0xA6) (noteTrig 9)
      (raise code { x with src := laneSrc l, arg0 := n } (updLane l (updBtn n (fun b => { b with told := tabPut b.told code (scn m) })) m))
  else m

/-- The events the failing step raises (R358, R377). -/
def tellStep (l : LaneId) (k : TelCheck) (tel : List Byte) (m : Mod) : Mod :=
  let n := (k.conn.map (·.num)).getD noConn
  match k.step with
  | 2 =>
    let due := allLanes.all (fun y => match (m.ln.get y).foreignAt with
      | some s => decide (s + 1000 ≤ scn m)
      | none => true)
    if cidNid (telCid tel) != ownNid m && due then
      noteTrig 8 (raise 0xA7 { src := laneSrc l, arg2 := (telCid tel).toNat } (updLane l (fun x => { x with foreignAt := some (scn m) }) m))
    else m
  | 3 => tellBtn l n 0xAA {} m
  | 4 =>
    let s := scn m
    let m1 := updLane l (updBtn n (fun b => { b with sealFails := s :: b.sealFails.filter (fun x => decide (s < x + 1000)) })) m
    if 16 ≤ (btnOf (m1.ln.get l) n).sealFails.length then tellBtn l n 0xA6 {} m1 else m1
  | 5 => tellBtn l n 0xA5 { arg2 := readBE tel 8 2 } m
  | 6 => tellBtn l n 0xAB { arg2 := readBE tel 12 4 } m
  | _ => m

/-- A lane that now holds two bodies for one full SEQ keeps neither: DIVIN, event 0xA4 (R367). -/
def diverge (l : LaneId) (k : TelCheck) (tel : List Byte) (m : Mod) : Mod :=
  let n := (k.conn.map (·.num)).getD noConn
  let b := btnOf (m.ln.get l) n
  if k.step = 7 ∧ b.counted.any (fun e => e.1 == k.full && e.2 != telBody tel) ∧ !(b.diverged.contains k.full) then
    raise 0xA4 { src := laneSrc l, arg0 := n, arg2 := k.full % 2 ^ 32 }
      (updLane l (fun x => { updBtn n (fun y => dropSeq k.full { y with diverged := k.full :: y.diverged }) x with divIn := x.divIn + 1 }) m)
  else m

/-- One copy at one lane, counted in exactly one class. -/
def acceptTel (l : LaneId) (k : TelCheck) (tel : List Byte) (m : Mod) : Mod :=
  let n := (k.conn.map (·.num)).getD noConn
  diverge l k tel (updLane l (updBtn n (countTel k tel)) (pcEvent l (if k.step = 0 then 0x13 else 0x14) (tellStep l k tel m)))

/-- Ring of the telegram mirror for a received copy (R452). -/
def mirrorRing (medium seg : Nat) : Nat := if medium = 0 then seg % 4 else if medium = 1 then 4 else 6

/-- TELEGRAM_COPY_RECEIVED: a lane takes a copy from its lane port (R358-R360, R367, R452). A telegram that passes steps 1 to 6 at
the lowest voting lane is copied to its mirror ring. -/
def doTelegram (l : LaneId) (tel : List Byte) (medium seg : Nat) (m : Mod) : Mod :=
  let x := m.ln.get l
  if !x.alive || !operating m || x.feLost then m
  else
    let k := checkTel m x x.time false tel
    let m1 := acceptTel l k tel (takeFromPort l tel m)
    if l = refLane m ∧ (k.step = 0 ∨ 7 ≤ k.step) then mirrorCopy (mirrorRing medium seg) true medium (seg % 4) tel m1 else m1

def execTelegramCopyReceived (lane : LaneId) (tel : List Byte) (medium seg : Nat) (s : State) : Host.Outcome State Fault Refusal :=
  s.run (doTelegram lane tel medium seg)

/-- A terminal telegram at the freeze that accepts its submission: steps 1 to 8 with the nominal time of the freeze (R371). -/
def checkTerminal (tel : List Byte) (m : Mod) : TelCheck × Mod :=
  let t := scn m * 20000000 + 1000000
  let k := checkTel m (m.ln.get (refLane m)) t true tel
  (k, forEach (aliveLanes m) (fun l acc => acceptTel l (checkTel m (m.ln.get l) t true tel) tel acc) m)

/-! ## The remote freeze (R94-R96, R360) -/

/-- Sequence numbers a lane lists for one connection. -/
def listed (b : BtnLane) : W32 × W32 :=
  let w (h : Option Held) : W32 := (h.map (fun x => BitVec.ofNat 32 x.seq)).getD 0xFFFFFFFF#32
  (w b.newest, w b.prev)

/-- Sequence numbers of a lane's diagnostic records, the stream of entry 0 (R252). -/
def listedRec (m : Mod) (l : LaneId) : W32 × W32 :=
  let w (r : Option DiagRec) : W32 := (r.map (·.seq)).getD 0xFFFFFFFF#32
  (w (m.fio.recLanes.get l), w (m.fio.recPrev.get l))

/-- What a lane sends at phase 1,000: the diagnostic record stream, every connection towards the ZL3, the 32 rings. -/
def remotePayload (m : Mod) (l : LaneId) (x : Lane) : RemotePayload :=
  { seqs := listedRec m l :: (inConns m).map (fun c => listed (btnOf x c.num)),
    rings := (List.range 32).map (fun i => tabGet 0 x.subIdx i - 1) }

/-- REMOTE_FREEZE at phase 1,000: what each lane holds then is what it lists and what the choice may use (R94, R95). -/
def doRemoteFreeze (m : Mod) : Mod :=
  if !operating m then m
  else
    let m1 := toPhase 3 1000 m
    updLanes (fun l x =>
      if x.alive then
        sendX m1 l xRemote (remoteBytes (remotePayload m1 l x)) { x with
                 remoteRx := x.remoteRx.set l (some (remotePayload m1 l x)),
                 btn := x.btn.map (fun e => (e.1, { e.2 with fNew := e.2.newest, fPrev := e.2.prev })) }
      else x) m1

def execRemoteFreeze (s : State) : Host.Outcome State Fault Refusal := s.run doRemoteFreeze

/-- The remote freeze frames a lane holds of the lanes in its voting set, its own among them (R96). -/
def laneLists (m : Mod) (l : LaneId) : List RemotePayload :=
  allLanes.filterMap (fun y => if (m.ln.get l).vset.get y then (m.ln.get l).remoteRx.get y else none)

/-- The lane whose lists another running lane holds too; the lowest running lane where no two agree. -/
def listLane (m : Mod) : LaneId :=
  ((aliveLanes m).find? (fun l => (aliveLanes m).any (fun y => y != l && laneLists m y == laneLists m l))).getD (refLane m)

/-- The remote freeze frames the agreement uses: those of the voting lanes that arrived (R96). -/
def remoteLists (m : Mod) : List RemotePayload := laneLists m (listLane m)

/-- Full SEQs one list names for entry `i`. -/
def seqsAt (m : Mod) (p : RemotePayload) (i : Nat) : List Nat :=
  let (a, b) := p.seqs.getD i (0xFFFFFFFF#32, 0xFFFFFFFF#32)
  ([a, b].filter (· != 0xFFFFFFFF#32)).map (fun w => fullSeq (scn m) w.toNat)

/-- The telegram of a full SEQ as a lane held it at the freeze, or as last chosen. -/
def heldSeq (m : Mod) (l : LaneId) (n full : Nat) : Option Held :=
  let b := btnOf (m.ln.get l) n
  ([b.fNew, b.fPrev, (connSt m n).chosen].filterMap id).find? (fun h => h.seq == full)

/-- What a lane chooses for the connection of entry `i`: the highest SEQ common to every list it holds, else what was chosen before
(R94, R96). -/
def laneChoice (m : Mod) (l : LaneId) (c : ConnDesc) (i : Nat) : Option Held :=
  let ls := (laneLists m l).map (fun p => seqsAt m p i)
  let old := (connSt m c.num).chosen
  match ((ls.headD []).filter (fun q => ls.all (fun k => k.contains q))).max? with
  | some q => (heldSeq m l c.num q).orElse (fun _ => old)
  | none => old

/-- A lane that was left out, or lacked another's lists, computes on its own choice (R96); one that alone finds the front end lost, or alone
still hears it, computes with its far ends dropped out, or not (R21). Where this differs from the agreed course, the lane keeps it, and its
digests show it. -/
def noteChoices (cs : List (ConnDesc × Nat)) (before m : Mod) : Mod :=
  updLanes (fun l x =>
    { x with ownChoice := cs.foldl (fun t p =>
        let q := laneChoice before l p.1 (p.2 + 1)
        let agreed := (connSt m p.1.num).chosen
        if x.alive && x.feLost != feGone m && agreed.isSome then tabPut t p.1.num 0
        else if x.alive && q != agreed then tabPut t p.1.num ((q.map (·.seq + 1)).getD 0) else t) [] }) m

/-- The choice of R94 for the connection of entry `i`, as the lanes agree it. Event
0x28 where the last choice stays although some lane lists a higher one. -/
def chooseTel (c : ConnDesc) (i : Nat) (m : Mod) : Mod :=
  let ls := (remoteLists m).map (fun p => seqsAt m p i)
  let old := (connSt m c.num).chosen
  let new := laneChoice m (listLane m) c i
  let stays := (new.map (·.seq)) == (old.map (·.seq))
  let newer := match old with
    | some o => ls.any (fun l => l.any (fun q => decide (o.seq < q)))
    | none => false
  let m1 := updConnSt c.num (fun s => { s with chosen := new, ever := s.ever || new.isSome }) m
  onlyIf (stays && newer) (raise 0x28 { arg0 := c.num }) m1

/-- CONN of one connection at the freeze, and the events of R362 and R366: 0xA3 at each freeze whose chosen telegram carries DIV. -/
def stateConn (old : Option Held) (c : ConnDesc) (m : Mod) : Mod :=
  let s := connSt m c.num
  let newer := match s.chosen, old with
    | some h, some o => decide (o.seq < h.seq)
    | some _, none => true
    | none, _ => false
  let nominal := scn m * 20000000 + 1000000
  let expired := match s.chosen with
    | some h => decide (h.seq * 20000000 + c.texp * 1000000 < nominal)
    | none => true
  let st := if c.kind = 1 then (if feGone m || expired then 2 else if newer then 0 else 1) else if newer then 0 else 1
  let tel := (s.chosen.map (·.tel)).getD []
  let restr := telRestr tel
  let div := s.chosen.isSome && telDiv tel
  let m1 := updConnSt c.num (fun x => { x with state := st, restr := if newer then restr else x.restr }) m
  let m2 := onlyIf (c.kind == 1 && st == 2 && s.state != 2) (raise 0xA0 { arg0 := c.num }) m1
  let m3 := onlyIf (c.kind == 1 && st != 2 && s.state == 2) (raise 0xA1 { arg0 := c.num }) m2
  let m4 := onlyIf (newer && restr && !s.restr) (raise 0xA2 { arg0 := c.num }) m3
  if div then raise 0xA3 { arg0 := c.num } (updBt (fun b => { b with divOut := b.divOut + 1 }) m4) else m4

/-- CONNECTION_STATE_EVALUATION: choices, states, and MISS as the registers show it (R94, R362, R373). -/
def evalConns (m : Mod) : Mod :=
  let cs := (inConns m).zipIdx.filter (fun p => p.1.kind != 3)
  let one (p : ConnDesc × Nat) (acc : Mod) : Mod := stateConn (connSt acc p.1.num).chosen p.1 (chooseTel p.1 (p.2 + 1) acc)
  let m1 := noteChoices cs m (forEach cs one m)
  let m2 := updBt (fun b => { b with nexp := (cs.filter (fun p => p.1.kind == 1 && (connSt m1 p.1.num).state == 2)).length }) m1
  updLanes (fun _ x => { x with missAll := ((inConns m1).map (fun c => missOf c (btnOf x c.num) + (btnOf x c.num).missOld)).foldl (· + ·)
                                             (btnOf x noConn).missOld }) m2

/-- STN of a station (R318, R362): station 0 is current until the I/O controller is lost. -/
def stnOf (m : Mod) (n : Nat) : Nat :=
  if n = 0 then b2n m.fio.iocl
  else
    let cs := (inConns m).filter (fun c => cidClass c.cid == 0 && cidNum c.cid == n && c.kind != 3)
    if !(cs.any (fun c => (connSt m c.num).ever)) then 2
    else if cs.any (fun c => c.kind == 1 && (connSt m c.num).state == 2) then 1
    else 0

/-- The far end's cyclic connection IDX 1, on which event objects depend (R362). -/
def mainConn (m : Mod) (c : ConnDesc) : Option ConnDesc :=
  (inConns m).find? (fun x => x.kind == 1 && cidClass x.cid == cidClass c.cid && cidNum x.cid == cidNum c.cid && cidIdx x.cid == 1)

/-- The objects of a connection read their substitutes (R362). -/
def substituted (m : Mod) (c : ConnDesc) : Bool :=
  if c.kind = 1 then (connSt m c.num).state == 2
  else
    feGone m || (connSt m c.num).chosen.isNone || (match mainConn m c with
      | some x => (connSt m x.num).state == 2
      | none => false)

/-! ## Epochs (R354-R356) -/

/-- A lane begins the counts of a new epoch; what was counted stays in the registers, MISS as the connection stood in the epoch that ends
(R359, R373). -/
def nextEpoch (c : ConnDesc) (b : BtnLane) : BtnLane :=
  { b with epoch := b.epoch + 1, fmt := 0, sealf := 0, epmis := 0, dup := 0, late := 0, recv := 0, low := none, high := none,
           counted := [], diverged := [], top := none, fmtOld := b.fmtOld + b.fmt, sealfOld := b.sealfOld + b.sealf,
           epmisOld := b.epmisOld + b.epmis, dupOld := b.dupOld + b.dup, lateOld := b.lateOld + b.late,
           missOld := b.missOld + missOf c b }

/-- The epoch in force of a connection has been raised in this station cycle: BTNEPO.CHG, event 0xA8, and from the ZL3 the silence of
R356 and a first telegram (R346, R355, R356). `old` is its table entry in the epoch that ends. -/
def epochRaised (old c : ConnDesc) (m : Mod) : Mod :=
  let m1 := updLanes (fun _ x => updBtn c.num (nextEpoch old) x) m
  let m2 := updConnSt c.num (fun s => { s with raisedAt := some (scn m), sentAny := false }) m1
  raise 0xA8 { arg0 := c.num, arg2 := epochOf m c } (updBt (fun b => { b with epochChg := b.epochChg + 1 }) m2)

/-- The connections of a far end. -/
def farConns (m : Mod) (cls num : Nat) : List ConnDesc :=
  m.lg.app.conns.filter (fun c => cidClass c.cid == cls && cidNum c.cid == num)

/-- A rebind is accepted: every lane counts it, and every connection of the far end has a new epoch (R354, R355). -/
def countRebind (cls num : Nat) (m : Mod) : Mod :=
  let k := farKey cls num
  let m1 := updLanes (fun _ l => { l with nv := { l.nv with rebinds := tabSet 0 l.nv.rebinds k (tabGet 0 l.nv.rebinds k + 1) } }) m
  forEach (farConns m1 cls num) (fun c => epochRaised c c) m1

/-- A telegram of SEQ SCN + 1 would fall into the silence after an epoch raise (R356). -/
def silent (m : Mod) (c : ConnDesc) : Bool :=
  match (connSt m c.num).raisedAt with
  | some e => decide (scn m + 1 < e + c.texp / 20 + 1)
  | none => false

/-! ## Sealing (R112, R113, R347, R356) -/

/-- The output connections whose telegram is due with SEQ SCN + 1 (R347). -/
def dueConns (m : Mod) : List ConnDesc :=
  m.lg.app.conns.filter (fun c => cidDir c.cid == 1 && c.kind == 1 && (scn m + 1) % c.per == c.ofs && !silent m c)

/-- A body (R344, R346). -/
def bodyOf (m : Mod) (c : ConnDesc) (forced : Bool) (data : List Byte) : List Byte :=
  let flags := b2n forced + 8 * b2n (!(connSt m c.num).sentAny)
  [0x11, BitVec.ofNat 8 flags, BitVec.ofNat 8 c.dlen] ++ bytesBE 4 c.cid.toNat ++ bytesBE 2 (epochOf m c) ++ bytesBE 2 c.texp ++
    bytesBE 4 (scn m + 1) ++ data

/-- A telegram from a body, SPOS and two seals. -/
def telOf (body : List Byte) (spos : Nat) (s1 s2 : W64) : List Byte :=
  cut body 0 2 ++ [BitVec.ofNat 8 spos] ++ body.drop 2 ++ bytesBE 8 s1.toNat ++ bytesBE 8 s2.toNat

/-- Lanes that seal: in the final voting set, with a position key, not locked, and with the front end heard (R21, R84, R112). -/
def sealers (m : Mod) : List LaneId :=
  (aliveLanes m).filter (fun l => let x := m.ln.get l; x.vset.get l && !x.keyLocked && !x.feLost && x.nv.keys.position.isSome)

/-- Telegrams are sealed once START is over; the outgoing module seals nothing (R36, R128, R472). -/
def maySeal (m : Mod) : Bool := serving m && !m.pr.outgoing

/-- One body at the front end: with the seals of the two lowest positions, or not sent, counted and copied to TM7; what stands there
in the seal fields is open (R113, R452). -/
def matchBody (ls : List LaneId) (n : Nat) (body : List Byte) (m : Mod) : Mod :=
  let cid := BitVec.ofNat 32 (readBE body 3 4)
  let sealBy (l : LaneId) : W64 := match (m.ln.get l).nv.keys.position with
    | some k => sealOf k (laneNo l) cid body
    | none => 0
  match ls with
  | p :: q :: _ =>
    let tel := telOf body (16 * laneNo p + laneNo q) (sealBy p) (sealBy q)
    updConnSt n (fun s => { s with sentAny := true }) (updBt (fun b => { b with outTel := tabPut b.outTel n { seq := scn m + 1, body := body, tel := tel } }) m)
  | _ =>
    let (v, m1) := takeFree m
    let (w, m2) := takeFree m1
    mirrorCopy 7 false 4 0 (telOf body (v.toNat % 256) w v) (updBt (fun b => { b with unsent := b.unsent + 1 }) m2)

/-- Event 0xD7 at most once in 1,000 station cycles; PRCNT.WITHH counts the cycle (R469). -/
def withhold (tell : Bool) (m : Mod) : Mod :=
  let due := match m.pr.withhAt with
    | some s => decide (s + 1000 ≤ scn m)
    | none => true
  let m1 := updPr (fun p => { p with withheld := satN 255 (p.withheld + 1) }) m
  if tell && due then raise 0xD7 {} (updPr (fun p => { p with withhAt := some (scn m) }) m1) else m1

/-- LEAD's pair status of this cycle is held (R469). -/
def statusHeld (m : Mod) : Bool := match m.pr.status with
  | some f => f.scn == scn m
  | none => false

/-- SEALING from phase 15,500: the bodies formed at the snapshot are sealed by the lanes of the final voting set. In SHADOW only in step
and with LEAD's pair status of this cycle held (R112, R113, R469). -/
def doSealing (m : Mod) : Mod :=
  if !maySeal m then m
  else
    let m1 := toPhase 10 15500 m
    let held := statusHeld m1
    let hold := mode m1 == .shadow && (!held || !m1.pr.instep)
    let m2 := if hold then withhold (!held) m1 else m1
    let ls := if hold then [] else sealers m2
    let seals : PerLane (Tab W64) := (PerLane.all ()).mapL (fun l _ =>
      if l ∈ ls then
        (match (m2.ln.get l).nv.keys.position with
         | some k => m2.bt.bodies.map (fun e => (e.1, sealOf k (laneNo l) (BitVec.ofNat 32 (readBE e.2 3 4)) e.2))
         | none => [])
      else [])
    let n := m2.bt.bodies.length
    let m3 := updLanes (fun l x => if l ∈ ls then pcCount m2.pc.cfg 0x15 n n x else x) m2
    forEach m2.bt.bodies (fun e acc => matchBody ls e.1 e.2 acc) (updBt (fun b => { b with outTel := [], outPrev := b.outTel, seals := seals }) m3)

def execSealing (s : State) : Host.Outcome State Fault Refusal := s.run doSealing

/-! ## Submission 0xA0 and registers (R373-R376, R439) -/

/-- 0xA0: the counts of the lowest voting lane (R439). -/
def readCountersSub (a : Accepted) (sub : Submission) (m : Mod) : Mod :=
  let n := readLE sub.oper 0 2
  match (inConns m).find? (fun c => c.num == n) with
  | none => refuse a 1 m
  | some c =>
    let b := btnOf (m.ln.get (refLane m)) n
    let res := bytesLE 4 b.recv ++ bytesLE 4 b.dup ++ bytesLE 4 b.late ++ bytesLE 4 (b.low.getD 0) ++ bytesLE 4 (b.high.getD 0) ++
      bytesLE 3 (satN 16777215 (missOf c b))
    completeWith a { cplOf a.opc a.tag 0 (epochOf m c) with result := res, flags := 2 * (connSt m n).state } m

/-- A count summed over all connections in the lowest voting lane. -/
def btnSum (m : Mod) (f : BtnLane → Nat) : Nat := ((m.ln.get (refLane m)).btn.map (fun e => f e.2)).foldl (· + ·) 0

def btnSts (m : Mod) : W32 :=
  let cs := inConns m
  pack [(m.bt.nexp, 16, 11), (cs.length, 0, 11)]

def btnInv (m : Mod) : W32 :=
  pack [(satN 65535 (btnSum m (fun b => b.sealf + b.sealfOld)), 16, 16), (satN 65535 (btnSum m (fun b => b.fmt + b.fmtOld)), 0, 16)]

def btnEpo (m : Mod) : W32 :=
  pack [(satN 65535 (btnSum m (fun b => b.epmis + b.epmisOld)), 16, 16), (satN 255 m.bt.epochChg, 8, 8),
        (satN 255 (m.lg.app.conns.filter (fun c => cidDir c.cid == 1 && silent m c)).length, 0, 8)]

def btnDiv (m : Mod) : W32 :=
  pack [(satN 65535 m.bt.divOut, 16, 16), (satN 65535 (m.ln.get (refLane m)).divIn, 0, 16)]

def btnDup (m : Mod) : W32 := BitVec.ofNat 32 (satN 0xFFFFFFFF (btnSum m (fun b => b.dup + b.dupOld)))
def btnLate (m : Mod) : W32 := BitVec.ofNat 32 (satN 0xFFFFFFFF (btnSum m (fun b => b.late + b.lateOld)))
def btnMiss (m : Mod) : W32 := BitVec.ofNat 32 (satN 0xFFFFFFFF (m.ln.get (refLane m)).missAll)

end Sys2Proof.Machine
end

