-- ==== Sys2Proof/Machine/CanFd.lean ====
section
/-! DEFINITION. CAN FD (R378-R408): bit timing, slots, frames sent and received, discovery and admission, transmit entries, fault
confinement; rebinding of a far end (R337, R395). Events of this chapter are the front end's: SRC 4. -/

namespace Sys2Proof.Machine

/-! ## Nodes -/

/-- NUM of a node (R390). -/
def nodeNum (chan addr : Nat) : Nat := 64 * chan + addr

/-- The node table entry of a NUM, with a rebound identity in place of the table's (R379, R395). -/
def nodeDesc (m : Mod) (num : Nat) : Option NodeDesc :=
  (m.net.nodes.find? (fun d => nodeNum d.chan d.addr == num)).map (fun d => match tabFind (feSettings m).bound (0x1000 + num) with
    | some i => { d with identity := i }
    | none => d)

def nodeAt (m : Mod) (num : Nat) : NodeSt := tabGet NodeSt.fresh m.can.nodes num
def updNode (num : Nat) (f : NodeSt → NodeSt) (m : Mod) : Mod :=
  updCan (fun c => { c with nodes := tabSet NodeSt.fresh c.nodes num (f (tabGet NodeSt.fresh c.nodes num)) }) m

/-! ## Bit timing (R380, R383, R384, R405) -/

/-- Clocks of 12.5 ns per nominal bit, and per data-phase bit. -/
def nomClocks (bt : W32) : Nat := (fieldOf bt.toNat 24 8 + 1) * (3 + fieldOf bt.toNat 16 8 + fieldOf bt.toNat 8 8)
def dataClocks (bt dt : W32) : Nat :=
  if bitOf dt.toNat 31 then (fieldOf dt.toNat 24 5 + 1) * (3 + fieldOf dt.toNat 19 5 + fieldOf dt.toNat 15 4) else nomClocks bt

/-- A sample point of `s` quanta in a bit of `q` lies between two thousandths, inclusive. -/
def sampleIn (lo hi s q : Nat) : Bool := decide (lo * q ≤ 1000 * s) && decide (1000 * s ≤ hi * q)

/-- Sync slot and node slot in µs, rounded up, from the longest frame of R383. -/
def slotUs (frames clocks : Nat) : Nat := (25 * frames * clocks + 1999) / 2000 + 40
def frameClocks (bt dt : W32) : Nat := 34 * nomClocks bt + 678 * dataClocks bt dt
def syncUs (bt dt : W32) : Nat := slotUs 2 (frameClocks bt dt)
def nodeUs (bt dt : W32) : Nat := slotUs 5 (frameClocks bt dt)

/-- Two nodes send in one station cycle some time. -/
def coSend (a b : NodeDesc) : Bool :=
  let g := Nat.gcd a.per b.per
  a.ofs % g == b.ofs % g

/-- The most nodes of a list that ever send in one station cycle; pairwise agreement of PER and OFS is enough for a common cycle. -/
def mostSend : Nat → List NodeDesc → Nat
  | 0, _ => 0
  | _ + 1, [] => 0
  | fuel + 1, d :: ds => max (mostSend fuel ds) (1 + mostSend fuel (ds.filter (coSend d)))

/-- Slots overlap: `[p, p + l)` and `[q, q + k)`. -/
def overlaps (p l q k : Nat) : Bool := decide (p < q + k) && decide (q < p + l)

/-- The schedule of a channel meets R384 at these rates. -/
def scheduleOk (nodes : List NodeDesc) (bt dt : W32) : Bool :=
  let s := syncUs bt dt
  let n := nodeUs bt dt
  let inside (d : NodeDesc) : Bool := decide (d.slot + n ≤ 20000) && [0, 5000, 10000, 15000].all (fun p => !overlaps d.slot n p s)
  let clash (a b : NodeDesc) : Bool := a.addr != b.addr && coSend a b && overlaps a.slot n b.slot n
  nodes.all inside && nodes.all (fun a => nodes.all (fun b => !clash a b)) &&
    decide (4 * s + mostSend (nodes.length + 1) nodes * n ≤ 16000)

/-- The conditions of R380 on bit timing. With BRS 0 the data rate is the nominal one, and the sample point and SJW of CANnDT are asked
all the same (log entry 27). -/
def timingOk (nodes : List NodeDesc) (bt dt : W32) : Bool :=
  let b := bt.toNat
  let d := dt.toNat
  let brs := bitOf d 31
  decide (nomClocks bt ∈ [80, 160, 320, 640]) && decide (fieldOf b 8 8 ≤ 127) && decide (fieldOf b 0 8 ≤ fieldOf b 8 8) &&
    sampleIn 750 875 (2 + fieldOf b 16 8) (3 + fieldOf b 16 8 + fieldOf b 8 8) &&
    decide (fieldOf d 11 4 ≤ fieldOf d 15 4) &&
    (!brs || decide (dataClocks bt dt ∈ [80, 40, 20, 16, 10])) && sampleIn 700 800 (2 + fieldOf d 19 5) (3 + fieldOf d 19 5 + fieldOf d 15 4) &&
    decide (dataClocks bt dt ≤ nomClocks bt) && scheduleOk nodes bt dt

def chanNodes (m : Mod) (n : Nat) : List NodeDesc := m.net.nodes.filter (fun d => d.chan == n)

/-- Every bit timing stored in the front end's settings follows what the channels hold or will hold. -/
def storeTiming (m : Mod) : Mod :=
  updFe (fun f => { f with bts := m.can.chans.map (fun c => c.btNext.getD c.bt), dts := m.can.chans.map (fun c => c.dtNext.getD c.dt) }) m

/-- A BAR0 write is discarded: counted in HIFDISC, event 0xC2 with the offset (R413). -/
def discardWrite (off : Nat) (m : Mod) : Mod :=
  raise 0xC2 { src := 4, arg2 := off } (updHost (fun h => { h with discN := satN 0xFFFF (h.discN + 1) }) m)

/-- BIT_TIMING_WRITE: only in START and COMMISSION with RUN 0; in COMMISSION from the next station cycle boundary (R380, R413). -/
def doBitTiming (n : Nat) (data : Bool) (val : W32) (m : Mod) : Mod :=
  let off := 0x300 + 0x10 + 0x10 * n + 4 * b2n data
  let c := chanOf m n
  let v := if data then BitVec.ofNat 32 (val.toNat - fieldOf val.toNat 29 2 * 2 ^ 29 - fieldOf val.toNat 8 3 * 2 ^ 8) else val
  let bt := if data then c.btNext.getD c.bt else v
  let dt := if data then v else c.dtNext.getD c.dt
  if m.host.run || !(mode m == .start || mode m == .commission) || !timingOk (chanNodes m n) bt dt then discardWrite off m
  else if mode m == .start then storeTiming (updChan n (fun x => { x with bt := bt, dt := dt }) m)
  else storeTiming (updChan n (fun x => { x with btNext := some bt, dtNext := some dt, timingAt := scn m }) m)

def execBitTimingWrite (chan : Fin 4) (data : Bool) (val : W32) (s : State) : Host.Outcome State Fault Refusal :=
  s.run (doBitTiming chan.val data val)

/-! ## Sending (R385, R388, R396, R399, R402) -/

/-- The channel is in bus integration, which ends with 11 recessive bits: no sooner than 11 bit times after it began, and at the end of
the next frame at the latest (R378; log entry 59). -/
def integrating (m : Mod) (n : Nat) : Bool :=
  match (chanOf m n).integ with
  | some t => decide (2 * m.clk < 2 * t + 275 * nomClocks (chanOf m n).bt)
  | none => false

/-- A channel takes part in bus traffic: error active or error passive, and not integrating. -/
def chanUp (m : Mod) (n : Nat) : Bool := decide ((chanOf m n).state < 2) && !integrating m n

/-- The module sends CAN FD frames (R402). -/
def canSends (m : Mod) (n : Nat) : Bool := operating m && m.tm.taken && chanUp m n

/-- A frame the module itself sends: FD base format (R378, R382). -/
def ownFrame (ident : Nat) (bytes : List Byte) : CanFrame :=
  { ident := ident, fd := true, extended := false, remote := false, res := false, bytes := bytes }

/-- SYNC_SLOT: in each of the four sync slots the module sends its sync frame. When its start-of-frame is on the bus, and
with it the TPREV of the next, is open within the slot (R383, R388; log entry 59). -/
def doSync (n : Nat) (m : Mod) : Mod :=
  if !canSends m n then m
  else
    let m1 := toBasic (4000 + n) 0 m
    let fl := bcn m1 + 4 * rankOf m1 + 8 * b2n (leads m1)
    let out := bytesBE 8 (scn m1) ++ bytesBE 8 ((chanOf m1 n).syncSent.getD 0) ++ [BitVec.ofNat 8 fl, BitVec.ofNat 8 (modeCode (mode m1))] ++
      bytesBE 6 0 ++ bytesBE 8 (rcScn m1)
    let (v, m2) := takeFree m1
    let c0 := chanOf m1 n
    let sof := now m1 + v.toNat % (1000 * syncUs c0.bt c0.dt)
    updChan n (fun c => { c with syncSent := some sof, syncOut := some (ownFrame (rankOf m1) out) }) m2

def execSyncSlot (chan : Fin 4) (s : State) : Host.Outcome State Fault Refusal := s.run (doSync chan.val)

/-- An admitted node in this station cycle (R394). -/
def nodeServed (m : Mod) (num : Nat) : Bool := (nodeAt m num).adm && decide ((nodeAt m num).admScn ≤ scn m)

/-- NODE_SLOT: at slot phase P of a cycle in which the node sends, the telegram sealed for it becomes a vital entry (R385, R396). -/
def doNodeSlot (num : Nat) (m : Mod) : Mod :=
  match nodeDesc m num with
  | none => m
  | some d =>
    if !canSends m d.chan then m
    else
      let m1 := toNext (5000 + num) d.slot m
      if !nodeServed m1 num || scn m1 % d.per != d.ofs then m1
      else
        match outFor m1 1 num with
        | none => m1
        | some o =>
          let m2 := if (chanOf m1 d.chan).vital.any (fun v => v.num == num) then abortVital d.chan num 0 m1 else m1
          updChan d.chan (fun c => { c with vital := c.vital ++ [{ num := num, ident := 0x40 + 64 * rankOf m2 + d.addr, tel := o.tel, scn := scn m2, started := false }] }) m2

def execNodeSlot (num : Nat) (s : State) : Host.Outcome State Fault Refusal := s.run (doNodeSlot num)

/-- VITAL_ENTRY_ABORTED: at the end of its slot an entry whose start-of-frame has not reached the bus is aborted (R396). -/
def doVitalEnd (num : Nat) (started : Bool) (m : Mod) : Mod :=
  match nodeDesc m num with
  | none => m
  | some d =>
    let c := chanOf m d.chan
    match c.vital.find? (fun v => v.num == num) with
    | none => m
    | some v =>
      let m1 := passTo (v.scn * 20000000 + (d.slot + nodeUs c.bt c.dt) * 1000) m
      if started || v.started then updChan d.chan (fun x => { x with vital := x.vital.map (fun e => if e.num == num then { e with started := true } else e) }) m1
      else abortVital d.chan num 0 m1

def execVitalEntryAborted (num : Nat) (started : Bool) (s : State) : Host.Outcome State Fault Refusal := s.run (doVitalEnd num started)

/-- A counter of ISO 11898-1 goes down by one; one above 127 goes to a value from 119 to 127, which is open. -/
def lowerRec (n : Nat) (m : Mod) : Mod :=
  let c := chanOf m n
  if 127 < c.rec_ then
    let (v, m1) := takeFree m
    updChan n (fun x => { x with rec_ := 119 + v.toNat % 9 }) m1
  else updChan n (fun x => { x with rec_ := x.rec_ - 1 }) m

/-- With both counters at 127 or less a passive channel is error active again. -/
def settleError (n : Nat) (m : Mod) : Mod :=
  updChan n (fun c => if c.state = 1 ∧ c.tec ≤ 127 ∧ c.rec_ ≤ 127 then { c with state := 0 } else c) m

/-- Transmitter delay of a frame sent with BRS 1; above two data-phase bit times event 0xB6, at most once in 1,000 cycles (R381). -/
def measureTdc (n tdcv : Nat) (m : Mod) : Mod :=
  let c := chanOf m n
  let v := satN 255 tdcv
  let m1 := updChan n (fun x => { x with tdcv := v, tdcMax := max x.tdcMax v }) m
  let due := match c.tdcTold with
    | some s => decide (s + 1000 ≤ scn m)
    | none => true
  if decide (2 * dataClocks c.bt c.dt < tdcv) && due then
    raise 0xB6 { src := 4, arg0 := n, arg2 := v } (updChan n (fun x => { x with tdcTold := some (scn m) }) m1)
  else m1

/-- The entry of a frame that completed ends as sent (R396, R399). -/
def endSent (n : Nat) (sent : CanSent) (m : Mod) : Mod :=
  match sent with
  | .own => m
  | .vital num =>
    (match (chanOf m n).vital.find? (fun v => v.num == num) with
     | some v => mirrorCopy 4 false 1 n v.tel (countEnd n 0 <| updChan n (fun c => { c with vital := c.vital.filter (fun e => e.num != num) }) m)
     | none => m)
  | .hostBuf b => endHostTx n b 0 0 m

/-- The frame named is one the channel can have sent: the module's own while it sends, or one that was on the bus as it entered HALT; or
an entry it holds (R402). -/
def canEnd (m : Mod) (n : Nat) (sent : CanSent) : Bool :=
  chanUp m n && (match sent with
    | .own => operating m || (mode m == .halt && decide (2 * m.clk ≤ 2 * m.md.haltAt + 25 * frameClocks (chanOf m n).bt (chanOf m n).dt))
    | .vital num => (chanOf m n).vital.any (fun v => v.num == num)
    | .hostBuf b => (hostTx m n b).state == 1 || (hostTx m n b).state == 2)

/-- CAN_FRAME_SENT (R381, R396, R399, R452). -/
def doCanSent (n : Nat) (sent : CanSent) (brs : Bool) (tdcv : Nat) (m : Mod) : Mod :=
  if !canEnd m n sent then m
  else
    let m1 := updPc (fun c => { c with sentCan := tabSet 0 c.sentCan n (tabGet 0 c.sentCan n + 1) })
      (settleError n (updChan n (fun c => { c with tec := c.tec - 1 }) m))
    let m2 := onlyIf (brs && bitOf (chanOf m n).dt.toNat 31) (measureTdc n tdcv) m1
    endSent n sent m2

def execCanFrameSent (chan : Fin 4) (sent : CanSent) (brs : Bool) (tdcv : Nat) (s : State) : Host.Outcome State Fault Refusal :=
  s.run (doCanSent chan.val sent brs tdcv)

/-! ## Receiving (R378, R382, R392) -/

/-- What an identifier names. -/
inductive CanClass where
  | zl3
  | input (addr : Nat)
  | event (addr : Nat)
  | discovery
  | rollCall (addr : Nat)
  | hostRange
  | other
  deriving DecidableEq, Repr

def classOf (ident : Nat) : CanClass :=
  if ident < 4 ∨ (0x40 ≤ ident ∧ ident < 0xC0) ∨ ident = 0x7F0 ∨ ident = 0x7F1 then .zl3
  else if 0x100 ≤ ident ∧ ident < 0x140 then .input (ident - 0x100)
  else if 0x200 ≤ ident ∧ ident < 0x400 then .event (ident % 64)
  else if 0x400 ≤ ident ∧ ident < 0x440 then .discovery
  else if 0x440 ≤ ident ∧ ident < 0x480 then .rollCall (ident - 0x440)
  else if 0x480 ≤ ident ∧ ident ≤ 0x7EF then .hostRange
  else .other

/-- A frame in a vital range is discarded and counted; event 0xB8 at most once per channel in 1,000 station cycles (R382). -/
def discardVital (n ident : Nat) (m : Mod) : Mod :=
  let due := match (chanOf m n).rangeTold with
    | some s => decide (s + 1000 ≤ scn m)
    | none => true
  let m1 := updChan n (fun c => { c with discarded := c.discarded + 1 }) m
  if due then raise 0xB8 { src := 4, arg0 := n, arg2 := ident } (updChan n (fun c => { c with rangeTold := some (scn m) }) m1) else m1

/-- A telegram frame of a node: its address is in the table and its length and format fit; then it is offered and forwarded. -/
def nodeTelegram (n addr : Nat) (f : CanFrame) (lens : NodeDesc → List Nat) (m : Mod) : Mod :=
  match nodeDesc m (nodeNum n addr) with
  | some d => if f.fd ∧ f.bytes.length ∈ lens d then offerTelegram false 1 n f.bytes m else discardVital n f.ident m
  | none => discardVital n f.ident m

/-- CAN_FRAME_RECEIVED (R378, R382, R392, R463). A discovery response and a roll-call block are taken up by their own rows. A frame
whose res bit is recessive counts as an error and puts the channel into bus integration; the end of a frame that a channel in
integration meets ends it, and that frame is not received. -/
def doCanReceived (n : Nat) (f : CanFrame) (m : Mod) : Mod :=
  if !chanUp m n then updChan n (fun c => { c with integ := none }) m
  else
    let m1 := updPc (fun c => { c with rcvdCan := tabSet 0 c.rcvdCan n (tabGet 0 c.rcvdCan n + 1) }) (settleError n (lowerRec n m))
    if f.res then updChan n (fun c => { c with errors := c.errors + 1, integ := some m.clk }) m
    else if f.extended || f.remote then updChan n (fun c => { c with discarded := c.discarded + 1 }) m1
    else
      match classOf f.ident with
      | .zl3 => discardVital n f.ident m1
      | .input a => nodeTelegram n a f (fun d => [32 + d.dlen1]) m1
      | .event a => nodeTelegram n a f (fun _ => [32, 48, 64]) m1
      | .discovery => if f.fd ∧ f.bytes.length = 32 then m1 else discardVital n f.ident m1
      | .rollCall a =>
        if (nodeDesc m (nodeNum n a)).isSome && f.fd && f.bytes.length == 64 then m1 else discardVital n f.ident m1
      | .hostRange => m1
      | .other => m1

def execCanFrameReceived (chan : Fin 4) (frame : CanFrame) (s : State) : Host.Outcome State Fault Refusal :=
  s.run (doCanReceived chan.val frame)

/-! ## Discovery and admission (R393, R394) -/

/-- Bounds (ns of station time) of the slots of a channel in station cycle `s`: its sync slots and the node slots that occur (R383). -/
def slotsIn (m : Mod) (n s : Nat) : List (Nat × Nat) :=
  let c := chanOf m n
  let at_ (p len : Nat) : Nat × Nat := (s * 20000000 + p * 1000, s * 20000000 + (p + len) * 1000)
  [0, 5000, 10000, 15000].map (fun p => at_ p (syncUs c.bt c.dt)) ++
    ((chanNodes m n).filter (fun d => s % d.per == d.ofs)).map (fun d => at_ d.slot (nodeUs c.bt c.dt))

/-- The first moment from `t` on that lies in no slot of the channel: `t` itself or the end of a slot of this or the next cycle (R384). -/
def nextFree (m : Mod) (n t : Nat) : Nat :=
  let slots := slotsIn m n (t / 20000000) ++ slotsIn m n (t / 20000000 + 1)
  let free (u : Nat) : Bool := decide (t ≤ u) && slots.all (fun p => decide (u < p.1) || decide (p.2 ≤ u))
  let ends := (slots.map (·.2)).filter free
  if free t then t else ends.foldl min (ends.headD t)

/-- DISCOVERY_REQUEST: once every 50 station cycles, in free time, by a single module or LEAD. The manual gives its eight bytes no
content: they are free (log entry 59). -/
def doDiscRequest (n : Nat) (m : Mod) : Mod :=
  if !canSends m n || !leads m then m
  else
    let m0 := match (chanOf m n).discAt with
      | some s => passTo ((s + 50) * 20000000) m
      | none => m
    let m1 := passTo (nextFree m0 n (now m0)) m0
    let (v, m2) := takeFree m1
    updChan n (fun c => { c with discAt := some (scn m1), discOut := some (ownFrame (0x7F0 + rankOf m1) (bytesBE 8 v.toNat)) }) m2

def execDiscoveryRequest (chan : Fin 4) (s : State) : Host.Outcome State Fault Refusal := s.run (doDiscRequest chan.val)

/-- A discovery response as its frame spells it (R393). -/
structure DiscResp where
  address : Nat
  identity : W64
  kind : Nat
  firmware : Nat
  maxDlen : Nat
  events : Nat
  blocks : Nat
  deriving DecidableEq, Repr

/-- The response a frame carries: identifier 0x400 + n, FD base format, 32 bytes (R382, R393). -/
def discOf (f : CanFrame) : Option DiscResp :=
  if f.fd && !f.extended && !f.remote && !f.res && classOf f.ident == .discovery && f.bytes.length == 32 then
    some { address := f.ident - 0x400, identity := BitVec.ofNat 64 (readBE f.bytes 0 8), kind := readBE f.bytes 8 2, firmware := readBE f.bytes 10 2,
           maxDlen := byteAt f.bytes 12, events := byteAt f.bytes 13, blocks := byteAt f.bytes 14 }
  else none

/-- Why a response is refused, 0 when it is not (R393). -/
def discRefusal (m : Mod) (n : Nat) (r : DiscResp) : Nat :=
  let num := nodeNum n r.address
  match nodeDesc m num with
  | none => 1
  | some d =>
    let x := nodeAt m num
    let known := m.net.nodes.any (fun e => ((nodeDesc m (nodeNum e.chan e.addr)).map (·.identity)) == some r.identity)
    if !known then 1
    else if d.identity ≠ r.identity then 2
    else if d.kind ≠ r.kind ∨ r.maxDlen < max d.dlen0 d.dlen1 ∨ r.events < d.events then 3
    else if x.answered.any (· != r.identity) || (x.adm && x.identity != r.identity) then 4
    else 0

/-- The admission frame: identity, address, slot phase P (R382, R394). -/
def admitFrame (m : Mod) (num : Nat) (r : DiscResp) : CanFrame :=
  let slot := ((nodeDesc m num).map (·.slot)).getD 0
  ownFrame (2 + rankOf m) (bytesBE 8 r.identity.toNat ++ bytesBE 1 r.address ++ bytesBE 2 slot ++ bytesBE 5 0)

/-- LEAD tells its partner of the admission (frame 0x07, R394, R457). -/
def tellAdmission (n num : Nat) (r : DiscResp) (m : Mod) : Mod :=
  if m.pr.role = 1 ∧ partnerUp m then
    updPr (fun p => { p with admOut := some (n, r.address, r.identity, ((nodeDesc m num).map (·.slot)).getD 0) }) m
  else m

/-- The node is admitted: its slot is served from the next station cycle; event 0xB0 (R394). -/
def admitNode (n num : Nat) (r : DiscResp) (m : Mod) : Mod :=
  raise 0xB0 { src := 4, arg0 := num }
    (updChan n (fun c => { c with admitOut := some (admitFrame m num r) })
      (updNode num (fun x => { x with adm := true, admScn := scn m + 1, identity := r.identity, blocks := r.blocks }) (tellAdmission n num r m)))

/-- DISCOVERY_RESPONSE: the node is admitted or refused; event 0xB1 with the identity (R393, R394). -/
def doDiscResponse (n : Nat) (f : CanFrame) (m : Mod) : Mod :=
  match discOf f with
  | none => m
  | some r =>
    let num := nodeNum n r.address
    if !canSends m n || !leads m then m
    else
      let why := discRefusal m n r
      let m1 := updNode num (fun x => { x with answered := if x.answered.contains r.identity then x.answered else r.identity :: x.answered }) m
      if why ≠ 0 then raise 0xB1 { src := 4, arg0 := num, arg1 := why, arg2 := r.identity.toNat % 2 ^ 32 } m1 else admitNode n num r m1

def execDiscoveryResponse (resp : ChanFrame) (s : State) : Host.Outcome State Fault Refusal :=
  s.run (doDiscResponse resp.chan.val resp.frame)

/-- SCN of the newest input telegram on IDX 1 that passed the acceptance steps at the lowest voting lane; at least the admission. -/
def nodeGood (m : Mod) (num : Nat) : Nat :=
  let base := (nodeAt m num).admScn - 1
  match connWith m 1 num 1 0 with
  | none => base
  | some c => max base ((btnOf (m.ln.get (refLane m)) c.num).top.getD 0)

/-- CANCTL.CLOST (R404). -/
def cLost (m : Mod) : Nat := fieldOf m.can.canctl.toNat 8 8

/-- NODE_LOST: CLOST × PER station cycles without a valid input telegram; event 0xB2 (R394). -/
def doNodeLost (num : Nat) (m : Mod) : Mod :=
  match nodeDesc m num with
  | none => m
  | some d =>
    if !(nodeAt m num).adm then m
    else
      let m1 := passTo ((nodeGood m num + cLost m * d.per + 1) * 20000000) m
      raise 0xB2 { src := 4, arg0 := num } (updNode num (fun x => { x with adm := false }) m1)

def execNodeLost (num : Nat) (s : State) : Host.Outcome State Fault Refusal := s.run (doNodeLost num)

/-- PARTNER_ADMISSION_FRAME: SHADOW learns the admission from LEAD and serves the same slot (R394, R457). -/
def doPartnerAdmission (n addr : Nat) (identity : W64) (slot : PartnerFrame Nat) (m0 : Mod) : Mod :=
  let m := hearFrame slot.copies m0
  let num := nodeNum n addr
  match nodeDesc m num with
  | none => m
  | some d =>
    if m.pr.role ≠ 2 ∨ !partnerUp m ∨ !copiesOk slot.copies ∨ d.slot ≠ slot.content then m
    else updNode num (fun x => { x with adm := true, admScn := scn m + 1, identity := identity }) m

def execPartnerAdmissionFrame (chan : Fin 4) (addr : Nat) (identity : W64) (slot : PartnerFrame Nat) (s : State) : Host.Outcome State Fault Refusal :=
  s.run (doPartnerAdmission chan.val addr identity slot)

/-! ## Host entries (R397-R400) -/

/-- HOST_ENTRY_LIFETIME_EXPIRED: between attempts too an entry that is not sent in its lifetime is aborted with reason 1 (R399). -/
def doLifetime (n buf : Nat) (m : Mod) : Mod :=
  let h := hostTx m n buf
  if h.state = 1 ∨ h.state = 2 then endHostTx n buf 0x14 1 (passClk h.deadline m) else m

def execHostEntryLifetimeExpired (chan : Fin 4) (buf : Fin 16) (s : State) : Host.Outcome State Fault Refusal :=
  s.run (doLifetime chan.val buf.val)

/-- The host has acknowledged the completion of a buffer's last entry (R397). -/
def bufferFree (m : Mod) (h : HostTx) : Bool :=
  h.state == 0 || (h.state == 3 && (match h.cplAt with
    | some n =>
      let d := diff32 (ringOf m ((ringOf m h.sq).target % 32 + 32)).ack n
      decide (0 < d) && decide (d < 2 ^ 31)
    | none => false))

/-- Lengths the two formats carry; BRS needs the FD format. -/
def formatOk (ident len : Nat) (fd brs : Bool) : Bool :=
  decide (0x480 ≤ ident) && decide (ident ≤ 0x7EF) &&
    (if fd then decide (len ≤ 8) || decide (len ∈ [12, 16, 20, 24, 32, 48, 64]) else decide (len ≤ 8) && !brs)

/-- 0xB0: queue a host frame in a buffer, or refuse it (R397). Conditions in the order of R397. -/
def canTransmitSub (a : Accepted) (sub : Submission) (m : Mod) : Mod :=
  let o := sub.oper
  let n := byteAt o 0
  let buf := byteAt o 1
  let gen := byteAt o 2
  let fd := bitOf (byteAt o 3) 0
  let brs := bitOf (byteAt o 3) 1
  let ident := readLE o 4 2
  let len := byteAt o 6
  let life := readLE o 16 2
  let h := hostTx m n buf
  let sq := match sub.src with
    | .ring q => q.val
    | .service | .lead _ => 0
  if 4 ≤ n then completeNow a 0x03 16 m
  else if 16 ≤ buf then completeNow a 0x03 17 m
  else if life = 0 ∨ 1000 < life then completeNow a 0x03 32 m
  else if !bufferFree m h then completeNow a 0x07 1 m
  else if !formatOk ident len fd brs then completeNow a 0x07 2 m
  else if gen = 0 ∨ gen = h.lastGen then completeNow a 0x07 3 m
  else if (chanOf m n).state = 3 then completeNow a 0x07 4 m
  else
    setHostTx n buf { gen := gen, ident := ident, fd := fd, brs := brs, data := cut sub.blob 0 len, deadline := m.clk + life * 1000000, queuedAt := m.clk,
                      state := 1, sq := sq, tag := a.tag, cplAt := none, lastGen := gen } m

/-- 0xB1: cancel by channel, buffer and generation; `started`: its start-of-frame has been on the bus, which that of an entry queued in
the same poll has not (R400). It is never refused as a submission: a channel or buffer that does not exist holds no such entry (R408). A
buffer that is free has no current use whose generation could differ (log entry 59). -/
def canCancelSub (started : Bool) (a : Accepted) (sub : Submission) (m : Mod) : Mod :=
  let n := byteAt sub.oper 0
  let buf := byteAt sub.oper 1
  let h := hostTx m n buf
  if 4 ≤ n ∨ 16 ≤ buf ∨ bufferFree m h then completeNow a 0x12 0 m
  else if h.gen ≠ byteAt sub.oper 2 then completeNow a 0x12 0 (updChan n (fun c => { c with cancelMiss := c.cancelMiss + 1 }) m)
  else if h.state = 3 then completeNow a 0x12 0 m
  else if (started && decide (h.queuedAt < m.clk)) || h.state == 2 then completeNow a 0x11 0 (setHostTx n buf { h with state := 2 } m)
  else completeNow a 0 0 (endHostTx n buf 0x13 0 m)

/-! ## Fault confinement (R401) -/

/-- ERROR_PASSIVE: errors on the bus have raised the counters to these values, which ISO 11898-1 never lets an error lower. One above
127 makes an error active channel error passive: event 0xB3 (R401, R406). -/
def doErrorPassive (n tec rec_ : Nat) (m : Mod) : Mod :=
  if !chanUp m n then m
  else
    let m1 := updChan n (fun c => { c with tec := max c.tec (satN 255 tec), rec_ := max c.rec_ (satN 255 rec_) }) m
    let c := chanOf m1 n
    if c.state = 0 ∧ (127 < c.tec ∨ 127 < c.rec_) then raise 0xB3 { src := 4, arg0 := n } (updChan n (fun x => { x with state := 1 }) m1) else m1

def execErrorPassive (chan : Fin 4) (tec rec : Nat) (s : State) : Host.Outcome State Fault Refusal := s.run (doErrorPassive chan.val tec rec)

/-- BUS_OFF: the transmit error counter is above 255, which CANnSTS shows as 255; every queued entry is aborted with reason 2;
event 0xB4 (R401, R406). -/
def doBusOff (n : Nat) (m : Mod) : Mod :=
  if 2 ≤ (chanOf m n).state then m
  else
    let m1 := updChan n (fun c => { c with state := 2, tec := 255, boff := satN 255 (c.boff + 1) }) m
    raise 0xB4 { src := 4, arg0 := n } (abortChannel n 2 true m1)

def execBusOff (chan : Fin 4) (s : State) : Host.Outcome State Fault Refusal := s.run (doBusOff chan.val)

/-- BUS_OFF_RECOVERED: after 128 occurrences of 11 recessive bits the channel is error active; event 0xB5. -/
def doBusOn (n : Nat) (m : Mod) : Mod :=
  if (chanOf m n).state ≠ 2 then m
  else raise 0xB5 { src := 4, arg0 := n } (updChan n (fun c => { c with state := 0, tec := 0, rec_ := 0 }) m)

def execBusOffRecovered (chan : Fin 4) (s : State) : Host.Outcome State Fault Refusal := s.run (doBusOn chan.val)

/-! ## Rebinding (R337, R395) -/

/-- Possession areas OMAP gives a far end: of the station's object, or of the objects bound to the node's connections. -/
def farAreas (m : Mod) (cls num : Nat) : List Nat :=
  if cls = 0 then (m.lg.app.objs.filter (fun o => fieldOf o.ref.toNat 28 4 == 6 && fieldOf o.ref.toNat 0 16 == num)).filterMap (·.area)
  else
    (m.lg.app.objs.filter (fun o => match o.inb with
      | .field c _ _ => (farConns m cls num).any (fun d => d.num == c)
      | _ => false)).filterMap (·.area)

/-- Identity a far end is bound to, and whether it is admitted. -/
def boundOf (m : Mod) (cls num : Nat) : Option W64 :=
  if cls = 0 then (stationDesc m num).map (·.identity) else (nodeDesc m num).map (·.identity)

def farAdmitted (m : Mod) (cls num : Nat) : Bool := if cls = 0 then (stationAt m num).adm else (nodeAt m num).adm

/-- Identity the table gives a far end. -/
def tableOf (m : Mod) (cls num : Nat) : Option W64 :=
  if cls = 0 then (m.net.stations.find? (fun d => d.num == num)).map (·.identity)
  else (m.net.nodes.find? (fun d => nodeNum d.chan d.addr == num)).map (·.identity)

/-- The identity is bound to another station; for a node, to another node (R337, R395). -/
def boundElsewhere (m : Mod) (cls num : Nat) (i : W64) : Bool :=
  if cls = 0 then m.net.stations.any (fun d => d.num != num && boundOf m 0 d.num == some i)
  else m.net.nodes.any (fun d => nodeNum d.chan d.addr != num && boundOf m 1 (nodeNum d.chan d.addr) == some i)

/-- 0x81: rebind the identity of a station or node, or return to the table's with 0; event 0x8F (R338). A rebind that would take an epoch above 65,535 is
refused as an invalid operand (R337, R354, R395; log entry 28). -/
def rebindSub (a : Accepted) (sub : Submission) (m : Mod) : Mod :=
  let num := readLE sub.oper 0 2
  let cls := byteAt sub.oper 2
  let ident : W64 := BitVec.ofNat 64 (readLE sub.oper 8 8)
  let key := num + 0x1000 * cls
  if 2 ≤ cls then badOperand a 18 m
  else if (boundOf m cls num).isNone then badOperand a 16 m
  else if !(mode m == .commission || mode m == .maintain) then refuse a 1 m
  else if mode m == .maintain && !((farAreas m cls num).any (fun i => m.md.areas.getLsbD i)) then refuse a 2 m
  else if farAdmitted m cls num then refuse a 3 m
  else if boundElsewhere m cls num (if ident = 0 then (tableOf m cls num).getD 0 else ident) then refuse a 4 m
  else if (farConns m cls num).any (fun c => decide (65535 < epochOf m c + 1)) then badOperand a 16 m
  else
    let put (t : Tab W64) : Tab W64 := if ident = 0 then tabDel t key else tabPut t key ident
    let m1 := countRebind cls num (updFe (fun f => { f with bound := put f.bound }) m)
    complete a 0 0 (raise 0x8F { arg0 := num, arg2 := ((boundOf m1 cls num).getD 0).toNat % 2 ^ 32 } m1)

/-! ## Registers (R403-R407) -/

/-- A write of CANCTL: CLOST within its limits; a channel disabled aborts its entries with reason 4, one enabled starts (R399, R404). -/
def setCanCtl (v : W32) (m : Mod) : Mod :=
  let lost := max 2 (min 50 (fieldOf v.toNat 8 8))
  let w := pack [(lost, 8, 8), (fieldOf v.toNat 0 4, 0, 4)]
  let m1 := updFe (fun f => { f with canctl := w }) (updCan (fun c => { c with canctl := w }) m)
  forEach (List.range 4) (fun i acc =>
    let on := bitOf w.toNat i && !bitOf acc.md.bist (8 + i)
    if !on && (chanOf acc i).state != 3 then updChan i (fun c => { c with state := 3 }) (abortChannel i 4 true acc)
    else if on && (chanOf acc i).state == 3 && acc.md.step5At.isSome then updChan i (fun c => { c with state := 0 }) acc
    else acc) m1

/-- A node slot straddles the freeze: it ends after phase 900 and begins before 1,000 (R386). -/
def kOut (m : Mod) (n : Nat) : Bool :=
  let c := chanOf m n
  (chanNodes m n).any (fun d => decide (900 < d.slot + nodeUs c.bt c.dt) && decide (d.slot < 1000))

def canSts (m : Mod) (n : Nat) : W32 :=
  let c := chanOf m n
  pack [(c.state, 30, 2), (b2n (kOut m n), 29, 1), (satN 255 c.rec_, 16, 8), (satN 255 c.tec, 8, 8), (c.tdcv, 0, 8)]

def canCnt (m : Mod) (n : Nat) : W32 :=
  let c := chanOf m n
  let adm := ((chanNodes m n).filter (fun d => (nodeAt m (nodeNum d.chan d.addr)).adm)).length
  pack [(adm, 26, 6), (c.boff, 16, 8), (c.abort_, 8, 8), (c.tdcMax, 0, 8)]

end Sys2Proof.Machine
end

