-- ==== Sys2Proof/Machine/Flags.lean ====
section
/-! DEFINITION. Ranges of the JIC value types (R161-R163, R609) and the fault codes of R172: what an operation checks before it
writes a register. The JIC machine has no condition flags. -/

namespace Sys2Proof.Machine

/-! ## Fault codes (R172) -/

def fIllegal : Nat := 1
def fType : Nat := 2
def fOwner : Nat := 3
def fOverflow : Nat := 4
def fDiv : Nat := 5
def fBound : Nat := 6
def fDepth : Nat := 7
def fCount : Nat := 8
def fApp : Nat := 9
def fObj : Nat := 10
def fLoop : Nat := 11

/-! ## Ranges -/

/-- Least and greatest value of a type; `none` has no value (R161). -/
def tyLo : Ty → Int
  | .int16 => -32768
  | .int32 => -2147483648
  | .dur => -9223372036854775808
  | _ => 0

def tyHi : Ty → Int
  | .none => -1
  | .bool => 1
  | .state4 => 3
  | .enum8 => 255
  | .int16 => 32767
  | .int32 => 2147483647
  | .uint32 | .obj | .reqtag => 4294967295
  | .dur => 9223372036854775807
  | .tstamp => 18446744073709551615

/-- A value lies in the range of a type; bits [19:12] of a REQTAG are 0. -/
def fits (ty : Ty) (v : Int) : Bool :=
  decide (tyLo ty ≤ v) && decide (v ≤ tyHi ty) && (ty != .reqtag || v.toNat / 4096 % 256 == 0)

/-- The type of a tag; tags 0x0 and 0xB-0xF name none (R161). -/
def tyOfTag (c : Nat) : Ty :=
  match c with
  | 1 => .bool
  | 2 => .state4
  | 3 => .enum8
  | 4 => .int16
  | 5 => .int32
  | 6 => .uint32
  | 7 => .dur
  | 8 => .tstamp
  | 9 => .obj
  | 10 => .reqtag
  | _ => .none

/-- Operand types of ADD, SUB, MUL, DIV and MOD, of NEG and ABS, and of the ordering opcodes (R174, R606). -/
def arithTy : Ty → Bool
  | .int16 | .int32 | .uint32 | .dur => true
  | _ => false

def negTy : Ty → Bool
  | .int16 | .int32 | .dur => true
  | _ => false

def orderTy : Ty → Bool
  | .int16 | .int32 | .uint32 | .dur | .enum8 | .tstamp => true
  | _ => false

/-- The null reference. -/
def nullRef : Nat := 0xFFFFFFFF

/-- Greatest index of an object kind with a fixed range (R162). -/
def kindTop (kind : Nat) : Option Nat :=
  match kind with
  | 0 => some 4095
  | 1 => some 2047
  | 2 => some 4095
  | 3 => some 8191
  | 4 => some 127
  | 5 => some 63
  | 6 => some 512
  | 7 => some 167
  | 8 => some 32767
  | _ => none

/-- An index is in the range of a kind (R162). Kind 10 is "as numbered in OMAP": the indices 0 to the count of generic objects less 1, a
DESIGN CHOICE (log entry 58). -/
def objIn (app : AppImage) (kind : Nat) (idx : Int) : Bool :=
  decide (0 ≤ idx) && (match kindTop kind with
    | some top => decide (idx ≤ top)
    | none => (kind == 9 && decide (idx < app.conns.length)) || (kind == 10 && decide (idx < app.generic)))

/-- A reference R162 admits: null, or a kind with an index in its range and bits [27:16] zero. -/
def refOk (app : AppImage) (v : Nat) : Bool :=
  v == nullRef || (fieldOf v 16 12 == 0 && objIn app (fieldOf v 28 4) (fieldOf v 0 16 : Nat))

end Sys2Proof.Machine
end

