-- ==== Sys2Proof/Machine/JicCode.lean ====
section
/-! DEFINITION. Instruction words of JIC (R170, R174): word 0 with the opcode in [31:24] and the operands d, a, b, c below it, and the
second word of the opcodes that have one. -/

namespace Sys2Proof.Machine

/-- A register operand of word 0. -/
def rgField (w : W32) (lo : Nat) : Rg := BitVec.ofNat 6 (fieldOf w.toNat lo 6)

/-- Opcodes 0x00 to 0x0F, in the order of the Code column. -/
def codes0 (d a _b c : Rg) (w2 : W32) : List Instr :=
  [.jNop, .jJmp w2, .jJt a w2, .jJf a w2, .jJtab a w2, .jCall w2, .jRet,
   .jLoop a (BitVec.ofNat 16 (fieldOf w2.toNat 16 16)) (BitVec.ofNat 16 (fieldOf w2.toNat 0 16)), .jNext, .jEnd, .jFail w2, .jChk a w2,
   .jLdi d c w2, .jLdk d w2, .jMov d a, .jCvt d a c]

/-- Opcodes 0x10 to 0x1F, in the order of the Code column. -/
def codes1 (d a b c : Rg) (w2 : W32) : List Instr :=
  [.jSel d a b c, .jClr d c, .jObj d a c, .jIdx d a, .jLd d w2, .jSt w2 a, .jLdx d a w2, .jStx w2 a b, .jLdf d c w2, .jStf w2 c a,
   .jLdp d w2, .jLen d w2, .jAdd d a b, .jSub d a b, .jMul d a b, .jDiv d a b]

/-- Opcodes 0x20 to 0x2F, in the order of the Code column. -/
def codes2 (d a b c : Rg) (_w2 : W32) : List Instr :=
  [.jMod d a b, .jNeg d a, .jAbs d a, .jMin d a b, .jMax d a b, .jLim d a b c, .jEq d a b, .jNe d a b, .jLt d a b, .jLe d a b,
   .jGt d a b, .jGe d a b, .jAnd d a b, .jOr d a b, .jXor d a b, .jNot d a]

/-- Opcodes 0x30 to 0x3F, in the order of the Code column. -/
def codes3 (d a b _c : Rg) (_w2 : W32) : List Instr :=
  [.jBand d a b, .jBor d a b, .jBxor d a b, .jBnot d a, .jShl d a b, .jShr d a b, .jBtst d a b, .jBset d a b, .jBclr d a b, .jIscl d a,
   .jIsop d a, .jIsbd d a, .jAgr d a b, .jIn d a, .jInq d a, .jStn d a]

/-- Opcodes 0x40 to 0x4F, in the order of the Code column. -/
def codes4 (d a b _c : Rg) (w2 : W32) : List Instr :=
  [.jFrc d w2, .jArea d a, .jGrp d a, .jNow d, .jElap d a, .jTon d a b w2, .jTof d a b w2, .jTp d a b w2, .jTrs w2, .jTrem d w2,
   .jCtu d a b w2, .jCtd d a b w2, .jCrs a w2, .jRtrg d a w2, .jFtrg d a w2, .jEnxt d]

/-- Opcodes 0x50 to 0x5F, in the order of the Code column. -/
def codes5 (d a b c : Rg) (w2 : W32) : List Instr :=
  [.jEreq d a, .jElck a b, .jEdrp a b, .jErel a b, .jErrl a, .jEsta d a, .jEovl d a, .jHcmd d, .jHdon a b, .jHevt a b, .jTrg d,
   .jSys d c, .jRec a b, .jCvu d a w2, .jConn d a, .jTagv d a]

/-- The instruction two words spell: w2 is the second word of an opcode that has one. A code byte from 0x60 names none (R172). -/
def decodeJic (w w2 : W32) : Option Instr :=
  let d := rgField w 18
  let a := rgField w 12
  let b := rgField w 6
  let c := rgField w 0
  (codes0 d a b c w2 ++ codes1 d a b c w2 ++ codes2 d a b c w2 ++ codes3 d a b c w2 ++ codes4 d a b c w2 ++ codes5 d a b c w2)[fieldOf w.toNat 24 8]?

end Sys2Proof.Machine
end

