-- ==== Sys2Proof/Machine/Operands.lean ====
section
/-! DEFINITION. What a JIC instruction works on (R164-R191): the running heat, its registers, variables of the two images, input
objects, instances, commands; and what ends a heat or parks a task. -/

namespace Sys2Proof.Machine

/-! ## Values in registers (R161, R170) -/

/-- The number a register holds: signed for INT16, INT32 and DUR. -/
def regInt (r : Reg) : Int :=
  match r.ty with
  | .int16 | .int32 => (r.val.truncate 32 : BitVec 32).toInt
  | .dur => r.val.toInt
  | _ => r.val.toNat

/-- A register of a type that holds a number of its range; a value of 32 bits or less has bits [63:32] zero. -/
def regOf (ty : Ty) (v : Int) : Reg :=
  { ty := ty, val := match ty with
    | .int16 | .int32 => (BitVec.ofInt 32 v).zeroExtend 64
    | _ => BitVec.ofInt 64 v }

def boolReg (b : Bool) : Reg := regOf .bool (b2n b)

/-- The signed or unsigned number of `n` little-endian bytes as a value of a type. -/
def rawInt (ty : Ty) (n : Nat) : Int :=
  match ty with
  | .int16 => signedField 16 n
  | .int32 => signedField 32 n
  | .dur => signedField 64 n
  | _ => n

/-! ## The heat -/

/-- A heat at one instruction: its task, the instruction's address, the control block with the pc at the next instruction. -/
structure Heat where
  num : Nat
  desc : TaskDesc
  at_ : Nat
  tcb : Tcb
  m : Mod

/-- What an instruction does to a heat: the heat after it, or a fault code. -/
abbrev JStep := Heat → Except Nat Heat

def tcbOf (m : Mod) (t : Nat) : Tcb := tabGet Tcb.empty m.lg.tcbs t
def setTcb (t : Nat) (x : Tcb) (m : Mod) : Mod := updLg (fun g => { g with tcbs := tabSet Tcb.empty g.tcbs t x }) m
def updTcb (t : Nat) (f : Tcb → Tcb) (m : Mod) : Mod := setTcb t (f (tcbOf m t)) m
def taskDesc (m : Mod) (t : Nat) : Option TaskDesc := m.lg.app.tasks.find? (fun d => d.num == t)

/-- A register's content; tag none is a type fault (R172). -/
def getReg (r : Rg) (h : Heat) : Except Nat Reg :=
  let x := h.tcb.regs[r.toNat]'r.isLt
  if x.ty = .none then .error fType else .ok x

/-- A register of a required type. -/
def getAs (ty : Ty) (r : Rg) (h : Heat) : Except Nat Int := do
  let x ← getReg r h
  if x.ty = ty then .ok (regInt x) else .error fType

def getBool (r : Rg) (h : Heat) : Except Nat Bool := do
  let v ← getAs .bool r h
  .ok (v == 1)

def setReg (r : Rg) (x : Reg) (h : Heat) : Heat := { h with tcb := { h.tcb with regs := h.tcb.regs.set r.toNat x r.isLt } }

/-- Write a result of a type; outside its range it is an overflow fault (R163). -/
def putRes (d : Rg) (ty : Ty) (v : Int) (h : Heat) : Except Nat Heat :=
  if fits ty v then .ok (setReg d (regOf ty v) h) else .error fOverflow

def setM (f : Mod → Mod) (h : Heat) : Heat := { h with m := f h.m }
def jump (pc : Nat) (h : Heat) : Heat := { h with tcb := { h.tcb with pc := pc } }

/-- An index, count, number, shift, code or alternative: INT32, in a range (R607). -/
def getIndex (r : Rg) (lim : Nat) (h : Heat) : Except Nat Nat := do
  let v ← getAs .int32 r h
  if 0 ≤ v ∧ v < lim then .ok v.toNat else .error fBound

/-- An object operand of one of the kinds: kind and index (R162, R224). -/
def getObj (kinds : List Nat) (r : Rg) (h : Heat) : Except Nat (Nat × Nat) := do
  let v ← getAs .obj r h
  let n := v.toNat
  if n ≠ nullRef ∧ refOk h.m.lg.app n ∧ fieldOf n 28 4 ∈ kinds then .ok (fieldOf n 28 4, fieldOf n 0 16) else .error fObj

/-! ## Variables (R92, R163-R167, R188) -/

/-- The variable a second word names by its VID; a VID of no variable is a bound fault (log entry 29). -/
def varOf (vid : W32) (h : Heat) : Except Nat VarDesc :=
  match h.m.lg.app.vars.find? (fun v => v.vid == vid.toNat) with
  | some v => .ok v
  | none => .error fBound

def plainVar (v : VarDesc) : Bool := v.fields.isEmpty && v.count.isNone

/-- The image a heat reads a variable from: the next image for its own, the current image for another task's (R92). -/
def imageOf (v : VarDesc) (h : Heat) : Memory := if v.owner = h.num then h.m.nxt else h.m.cur

/-- A value loaded from the image; a BOOL, STATE4 or ENUM8 outside its range is a type fault (R163). -/
def decodeVal (ty : Ty) (emax n : Nat) : Except Nat Reg :=
  match ty with
  | .bool => if n ≤ 1 then .ok (regOf ty n) else .error fType
  | .state4 => if n ≤ 3 then .ok (regOf ty n) else .error fType
  | .enum8 => if n ≤ emax then .ok (regOf ty n) else .error fType
  | .none => .error fType
  | _ => .ok (regOf ty (rawInt ty n))

/-- The force on a variable, and on an input object (R188). -/
def forceOn (m : Mod) (isObj : Bool) (ref : Nat) : Option Force := m.md.forces.find? (fun f => f.isObj == isObj && f.ref == ref)

/-- Load a value of a variable from an image, the forced value while it is forced. -/
def loadVal (v : VarDesc) (img : Memory) (off : Nat) (ty : Ty) (emax : Nat) (h : Heat) : Except Nat Reg :=
  match forceOn h.m false v.vid with
  | some f => .ok { ty := ty, val := f.val }
  | none => decodeVal ty emax (ofLE (memRead img (v.addr + off) (tyBytes ty)))

/-- Store a register in an own variable, in the next image (R167). -/
def storeVal (v : VarDesc) (off : Nat) (ty : Ty) (emax : Nat) (r : Rg) (h : Heat) : Except Nat Heat := do
  if v.owner ≠ h.num then .error fOwner
  else
    let x ← getReg r h
    if x.ty ≠ ty then .error fType
    else if ty = .enum8 ∧ emax < x.val.toNat then .error fType
    else .ok (setM (fun m => { m with nxt := memWrite m.nxt (v.addr + off) (bytesLE (tyBytes ty) x.val.toNat) }) h)

/-- The element count of an array. -/
def arrayLen (v : VarDesc) : Except Nat Nat :=
  match v.count with
  | some n => if v.fields.isEmpty then .ok n else .error fType
  | none => .error fType

/-- A field of a record. -/
def recField (v : VarDesc) (c : Nat) : Except Nat RecField :=
  if v.fields.isEmpty ∨ v.count.isSome then .error fType
  else
    match v.fields[c]? with
    | some f => .ok f
    | none => .error fBound

/-! ## Input objects (R140, R176, R257, R266, R362, R464) -/

/-- LEAD's local image of this cycle as SHADOW holds it (R464). -/
def leadImage (m : Mod) : Option PairImage :=
  if m.pr.role = 2 then (match m.pr.image with
    | some p => if p.scn = scn m then some p else none
    | none => none)
  else none

/-- State of an input channel as the application sees it; a staff switch that has not passed its test reads open (R140). -/
def chanState (m : Mod) (n : Nat) : BitVec 2 :=
  let v := match leadImage m with
    | some p => p.inputs.getD n 3
    | none => m.fio.image.getD n 3
  if m.lg.app.staff.contains n && !(m.md.wuPass.contains n) then 0 else v

/-- GRP of a field group as the application sees it. -/
def grpSeen (m : Mod) (g : Nat) : Nat :=
  match leadImage m with
  | some p => p.grp.getD g 0
  | none => (groupAt m g).grp

/-- The diagnostic word of a drive channel as the application sees it. -/
def wordSeen (m : Mod) (k : Nat) : Nat :=
  match leadImage m with
  | some p => (p.diag.getD k 0).toNat
  | none => (driveWord m k).toNat

/-- The value of a type a telegram field spells; outside the type the manual states none (log entry 30). -/
def fieldVal (o : ObjEntry) (n size free : Nat) : Reg :=
  let v : Int := match o.ty with
    | .int16 | .int32 => signedField (8 * size) n
    | _ => n
  let ok := fits o.ty v && (o.ty != .enum8 || decide (n ≤ o.emax))
  if ok then regOf o.ty v
  else
    match o.ty with
    | .enum8 => regOf o.ty (free % (o.emax + 1) : Nat)
    | .reqtag => regOf o.ty (free % 4096 : Nat)
    | _ => regOf o.ty (tyLo o.ty + ((free : Int) % (tyHi o.ty - tyLo o.ty + 1)))

/-- What IN and INQ give for an object from agreed state, forces left aside; `none`: OMAP binds it to no input. -/
def inputVal (m : Mod) (o : ObjEntry) : Option InVal :=
  let subst : InVal := { ty := o.ty, val := BitVec.ofNat 64 o.subst, quality := 1 }
  match o.inb with
  | .unbound => none
  | .chan n =>
    let s := chanState m n
    if o.ty = .state4 then some { ty := .state4, val := s.zeroExtend 64, quality := 0 }
    else if s.toNat < 2 then some { ty := .bool, val := s.zeroExtend 64, quality := 0 }
    else some { subst with ty := .bool }
  | .driveWord k => some { ty := .uint32, val := BitVec.ofNat 64 (wordSeen m k), quality := 0 }
  | .field conn off size =>
    match connNo m conn with
    | none => some subst
    | some c =>
      if substituted m c then some subst
      else
        let tel := ((connSt m conn).chosen.map (·.tel)).getD []
        let v := fieldVal o (readBE (telData tel) off size) size (Config.freeValue m.freeN).toNat
        some { ty := v.ty, val := v.val, quality := if (connSt m conn).state = 1 then 4 else 0 }

/-- The input object an operand names, as the heat sees it: a slow task reads its copy of the release cycle (R176). -/
def heatInput (r : Rg) (h : Heat) : Except Nat (Nat × InVal) := do
  let v ← getAs .obj r h
  let ref := v.toNat
  match h.m.lg.app.objs.find? (fun o => o.ref.toNat == ref) with
  | none => .error fObj
  | some o =>
    let live := inputVal h.m o
    let x := if h.desc.kind = .slow then (tabFind h.tcb.inCopy ref).orElse (fun _ => live) else live
    match x with
    | some i => .ok (ref, i)
    | none => .error fObj

/-- The copy of every bound input object a slow task takes at its release (R176). -/
def inputCopy (m : Mod) : Tab InVal :=
  m.lg.app.objs.foldl (fun t o => match inputVal m o with
    | some v => tabPut t o.ref.toNat v
    | none => t) []

/-! ## Instances (R183-R187) -/

/-- The instance a number names: own, and of the kind (R172, R183). -/
def getInst (t : W32) (kind : InstKind) (h : Heat) : Except Nat InstState :=
  match h.m.lg.app.insts.find? (fun d => d.num == t.toNat && d.kind == kind) with
  | some d => if d.task = h.num then .ok (tabGet InstState.idle h.m.lg.insts t.toNat) else .error fOwner
  | none => .error fBound

def setInst (t : W32) (x : InstState) (h : Heat) : Heat :=
  setM (updLg (fun g => { g with insts := tabSet InstState.idle g.insts t.toNat x })) h

/-! ## Ending a heat, parking a task (R168, R170, R173, R178, R182) -/

/-- The next heat in the list of those that wait, highest priority first, runs. -/
def resume (m : Mod) : Mod :=
  match m.lg.stack with
  | [] => updLg (fun g => { g with running := none }) m
  | t :: ts => updLg (fun g => { g with running := some t, stack := ts }) m

/-- Complete every command of a heat that is not done. -/
def endCmds (cs : List TaskCmd) (each : TaskCmd → Mod → Mod) (m : Mod) : Mod := forEach (cs.filter (fun c => !c.done)) each m

/-- A control block after its heat: registers, calls and loops cleared (R170, R608). -/
def clearTcb (x : Tcb) : Tcb :=
  { x with active := false, regs := Vector.replicate 64 Reg.empty, calls := [], loops := [], cmds := [], trig := 0, inCopy := [], fresh := true, startKind := 0 }

/-- End of the running heat (R168, R182): commands it did not complete are completed by default, event 0x15. -/
def endHeat (t : Nat) (m : Mod) : Mod :=
  let x := tcbOf m t
  let dflt (c : TaskCmd) (acc : Mod) : Mod := raise 0x15 { arg0 := t, arg2 := c.sub.tag.toNat } (complete c.sub 0x0E t acc)
  resume (pcAll 0x08 (setTcb t (clearTcb x) (endCmds x.cmds dflt m)))

/-- Restrictive bytes of INIT into every OUT variable of a task, in the next image. -/
def restrictOuts (t : Nat) (m : Mod) : Mod :=
  { m with nxt := (m.lg.app.vars.filter (fun v => v.owner == t && v.output)).foldl (fun img v => memWrite img v.addr v.restr) m.nxt }

/-- The running task is parked with a fault at a code address (R172, R173, R233). -/
def parkTask (t code addr : Nat) (m : Mod) : Mod :=
  let x := tcbOf m t
  let refuse_ (c : TaskCmd) (acc : Mod) : Mod := complete c.sub 0x0C t acc
  let m1 := endCmds (x.cmds ++ x.cmdsWait) refuse_ (restrictOuts t m)
  let m2 := setTcb t { clearTcb x with parked := true, cmdsWait := [], trigWait := 0 } m1
  let m3 := updLg (fun g => { g with fault := code, ftask := t }) (raise 0x14 { arg0 := t, arg1 := code, arg2 := addr } m2)
  let route := (taskDesc m t).any (·.route)
  resume (if route then forEach (m3.en.pend.map (·.1)) (fun r acc => endPend r 8 acc) m3 else m3)

/-- A slow task's slice is used up: it waits for its next slice (R179). -/
def sliceOver (d : TaskDesc) (t : Nat) (m : Mod) : Mod :=
  if d.kind = .slow ∧ (tcbOf m t).active ∧ (tcbOf m t).sliceLeft = 0 ∧ m.lg.running = some t then resume m else m

/-- What the CODE section holds at a word address (R160, R170). -/
inductive CodeAt where
  /-- No word of the section. -/
  | nothing
  /-- An opcode byte from 0x60 to 0xFF. -/
  | illegal
  | instr (i : Instr)
  deriving DecidableEq, Repr

def codeAt (app : AppImage) (pc : Nat) : CodeAt :=
  match app.code[pc]? with
  | none => .nothing
  | some w =>
    match decodeJic w (app.code.getD (pc + 1) 0) with
    | some i => .instr i
    | none => .illegal

/-- The instruction commanded is the one at the address; where the section holds no word there, the command stands for it (log entry
31). -/
def codeGives (app : AppImage) (pc : Nat) (i : Instr) : Bool := codeAt app pc == .nothing || codeAt app pc == .instr i

/-- The running heat executes one instruction, as `go` carries it out on its task and control block: above the declared maximum the task is
parked, and so it is on an illegal opcode (R172). An instruction that does not stand at the heat's address is not executed. Without a
running heat nothing is. -/
def stepHeat (i : Instr) (go : TaskDesc → Nat → Tcb → Mod → Mod) (m : Mod) : Mod :=
  match m.lg.running with
  | none => m
  | some t =>
    match taskDesc m t with
    | none => m
    | some d =>
      let x := tcbOf m t
      if d.maxInstr ≤ x.instrs then parkTask t fCount x.pc m
      else if codeAt m.lg.app x.pc = .illegal then parkTask t fIllegal x.pc m
      else if codeGives m.lg.app x.pc i then go d t x m
      else m

/-- One instruction of `words` words of the heat that runs (R170, R172, R179). -/
def runJic (i : Instr) (words : Nat) (op : JStep) (m : Mod) : Mod :=
  stepHeat i (fun d t x m1 =>
    let y : Tcb := { x with instrs := x.instrs + 1, sliceLeft := x.sliceLeft - 1, pc := x.pc + words }
    match op { num := t, desc := d, at_ := x.pc, tcb := y, m := pcAll 0x07 m1 } with
    | .error f => parkTask t f x.pc (setTcb t y (pcAll 0x07 m1))
    | .ok h => sliceOver d t (setTcb t h.tcb h.m)) m

/-- A JIC instruction as a command. -/
def State.jic (i : Instr) (words : Nat) (op : JStep) (s : State) : Host.Outcome State Fault Refusal := s.run (runJic i words op)

end Sys2Proof.Machine
end

