-- ==== Sys2Proof/Machine/JicFlow.lean ====
section
/-! DEFINITION. JIC opcodes of control flow, 0x00-0x0B (R172, R174, R182, R607, R608). Code addresses are word addresses; that a
target is the first word of an instruction is a property of the code, which comes in as the commands themselves (log entry 31). -/

namespace Sys2Proof.Machine

def nopStep : JStep := fun h => .ok h

/-- JMP continues at `off` as an absolute word address, as do JT, JF and CALL with theirs; R608 gives an offset for LOOP alone: DESIGN
CHOICE (log entry 63). -/
def jmpStep (off : W32) : JStep := fun h => .ok (jump off.toNat h)

/-- JT and JF: jump where BOOL a has the value. -/
def jumpIf (want : Bool) (a : Rg) (off : W32) : JStep := fun h => do
  let c ← getBool a h
  .ok (if c = want then jump off.toNat h else h)

/-- JTAB: entry INT32 a of a jump table; a table or an entry that does not exist is a bound fault. -/
def jtabStep (a : Rg) (tab : W32) : JStep := fun h => do
  let es := h.m.lg.app.jtabs.getD tab.toNat []
  let i ← getIndex a es.length h
  .ok (jump (es.getD i 0) h)

/-- CALL pushes the address of the next instruction; more than 16 open is a depth fault (R172, R608). -/
def callStep (fn : W32) : JStep := fun h =>
  if 16 ≤ h.tcb.calls.length then .error fDepth
  else
    let c : CallFrame := { ret := h.tcb.pc, depth := h.tcb.loops.length }
    .ok { h with tcb := { h.tcb with calls := c :: h.tcb.calls, pc := fn.toNat } }

/-- RET pops the return address and closes every loop opened since the CALL (R608). -/
def retStep : JStep := fun h =>
  match h.tcb.calls with
  | [] => .error fBound
  | c :: cs => .ok { h with tcb := { h.tcb with calls := cs, pc := c.ret, loops := h.tcb.loops.drop (h.tcb.loops.length - c.depth) } }

/-- LOOP: a count of 0 continues at the loop end; a count negative or above n is a loop fault, a seventeenth loop a bound fault. -/
def loopStep (a : Rg) (n off : W16) : JStep := fun h => do
  let v ← getAs .int32 a h
  let fin := h.at_ + off.toNat
  if v < 0 ∨ (n.toNat : Int) < v then .error fLoop
  else if v = 0 then .ok (jump fin h)
  else if 16 ≤ h.tcb.loops.length then .error fBound
  else .ok { h with tcb := { h.tcb with loops := { start := h.tcb.pc, fin := fin, count := v.toNat } :: h.tcb.loops } }

/-- NEXT decrements the innermost open loop and repeats or closes it (R608). -/
def nextStep : JStep := fun h =>
  match h.tcb.loops with
  | [] => .error fBound
  | l :: ls =>
    if 1 < l.count then .ok { h with tcb := { h.tcb with loops := { l with count := l.count - 1 } :: ls, pc := l.start } }
    else .ok { h with tcb := { h.tcb with loops := ls, pc := l.fin } }

/-- FAIL: an application fault. Its code n is reported nowhere: event 0x14 and LGXSTS carry the fault code 9 (R172, R173). -/
def failStep : JStep := fun _ => .error fApp

/-- CHK: FAIL where BOOL a is false. -/
def chkStep (a : Rg) : JStep := fun h => do
  let c ← getBool a h
  if c then .ok h else .error fApp

/-- END: the heat ends. -/
def doEnd (m : Mod) : Mod := stepHeat .jEnd (fun _ t _ m1 => endHeat t (pcAll 0x07 m1)) m

def execJNop (s : State) : Host.Outcome State Fault Refusal := s.jic .jNop 1 nopStep
def execJJmp (off : W32) (s : State) : Host.Outcome State Fault Refusal := s.jic (.jJmp off) 2 (jmpStep off)
def execJJt (a : Rg) (off : W32) (s : State) : Host.Outcome State Fault Refusal := s.jic (.jJt a off) 2 (jumpIf true a off)
def execJJf (a : Rg) (off : W32) (s : State) : Host.Outcome State Fault Refusal := s.jic (.jJf a off) 2 (jumpIf false a off)
def execJJtab (a : Rg) (tab : W32) (s : State) : Host.Outcome State Fault Refusal := s.jic (.jJtab a tab) 2 (jtabStep a tab)
def execJCall (fn : W32) (s : State) : Host.Outcome State Fault Refusal := s.jic (.jCall fn) 2 (callStep fn)
def execJRet (s : State) : Host.Outcome State Fault Refusal := s.jic .jRet 1 retStep
def execJLoop (a : Rg) (n off : W16) (s : State) : Host.Outcome State Fault Refusal := s.jic (.jLoop a n off) 2 (loopStep a n off)
def execJNext (s : State) : Host.Outcome State Fault Refusal := s.jic .jNext 1 nextStep
def execJEnd (s : State) : Host.Outcome State Fault Refusal := s.run doEnd
def execJFail (n : W32) (s : State) : Host.Outcome State Fault Refusal := s.jic (.jFail n) 2 failStep
def execJChk (a : Rg) (n : W32) (s : State) : Host.Outcome State Fault Refusal := s.jic (.jChk a n) 2 (chkStep a)

end Sys2Proof.Machine
end

