-- ==== Sys2Proof/Machine/JicData.lean ====
section
/-! DEFINITION. JIC opcodes of values and variables, 0x0C-0x1B (R92, R161-R163, R167, R174, R188, R607, R609). -/

namespace Sys2Proof.Machine

/-- A type operand: tag none and 0xB-0xF are a type fault (R609). -/
def tyArg (c : Rg) : Except Nat Ty := if tyOfTag c.toNat = .none then .error fType else .ok (tyOfTag c.toNat)

/-- A value as a type: outside the type an overflow fault, a reference R162 does not admit an object fault (R174, R609). -/
def asType (d : Rg) (ty : Ty) (v : Int) (h : Heat) : Except Nat Heat :=
  if !fits ty v then .error fOverflow
  else if ty = .obj ∧ !refOk h.m.lg.app v.toNat then .error fObj
  else putRes d ty v h

/-- LDI: the word is signed for INT16, INT32, DUR and TSTAMP (R609). -/
def ldiStep (d c : Rg) (imm : W32) : JStep := fun h => do
  let ty ← tyArg c
  asType d ty (if ty = .int16 ∨ ty = .int32 ∨ ty = .dur ∨ ty = .tstamp then imm.toInt else imm.toNat) h

/-- LDK: constant k; outside the pool a bound fault. -/
def ldkStep (d : Rg) (k : W32) : JStep := fun h =>
  match h.m.lg.app.kpool[k.toNat]? with
  | some (ty, v) => if ty = .none then .error fType else .ok (setReg d { ty := ty, val := v } h)
  | none => .error fBound

def movStep (d a : Rg) : JStep := fun h => do
  let x ← getReg a h
  .ok (setReg d x h)

def cvtStep (d a c : Rg) : JStep := fun h => do
  let x ← getReg a h
  let ty ← tyArg c
  asType d ty (regInt x) h

/-- SEL: b where BOOL a is true, else c; b and c are of one type (R174). -/
def selStep (d a b c : Rg) : JStep := fun h => do
  let cond ← getBool a h
  let x ← getReg b h
  let y ← getReg c h
  if x.ty ≠ y.ty then .error fType else .ok (setReg d (if cond then x else y) h)

/-- Initial value of a type; 0 for ENUM8 (R161, R609). -/
def initVal : Ty → Int
  | .state4 => 3
  | .obj => nullRef
  | _ => 0

def clrStep (d c : Rg) : JStep := fun h => do
  let ty ← tyArg c
  .ok (setReg d (regOf ty (initVal ty)) h)

/-- OBJ: a reference of kind c and index INT32 a; outside R162 an object fault. -/
def objStep (d a c : Rg) : JStep := fun h => do
  let i ← getAs .int32 a h
  if objIn h.m.lg.app c.toNat i then .ok (setReg d (regOf .obj (c.toNat * 2 ^ 28 + i)) h) else .error fObj

/-- IDX: null is an object fault. A reference that R162 does not admit, as LD or LDK may load it, gives its index: DESIGN CHOICE (log entry
63). -/
def idxStep (d a : Rg) : JStep := fun h => do
  let v ← getAs .obj a h
  if v.toNat = nullRef then .error fObj else .ok (setReg d (regOf .int32 (fieldOf v.toNat 0 16)) h)

/-- LD from the image of R92; LDP from the current image. -/
def ldStep (cur : Bool) (d : Rg) (var : W32) : JStep := fun h => do
  let v ← varOf var h
  if !plainVar v then .error fType
  else
    let x ← loadVal v (if cur then h.m.cur else imageOf v h) 0 v.ty v.emax h
    .ok (setReg d x h)

/-- ST: an own variable, in the next image. Where one instruction commits two faults the order of the tests here says which is told:
ownership, then type, then bound; of a timer opcode the instance, then the operands: DESIGN CHOICE (log entry 63). -/
def stStep (var : W32) (a : Rg) : JStep := fun h => do
  let v ← varOf var h
  if v.owner ≠ h.num then .error fOwner
  else if !plainVar v then .error fType
  else storeVal v 0 v.ty v.emax a h

/-- LDX: element INT32 a. -/
def ldxStep (d a : Rg) (arr : W32) : JStep := fun h => do
  let v ← varOf arr h
  let n ← arrayLen v
  let i ← getIndex a n h
  let x ← loadVal v (imageOf v h) (i * tyBytes v.ty) v.ty v.emax h
  .ok (setReg d x h)

def stxStep (arr : W32) (a b : Rg) : JStep := fun h => do
  let v ← varOf arr h
  if v.owner ≠ h.num then .error fOwner
  else
    let n ← arrayLen v
    let i ← getIndex a n h
    storeVal v (i * tyBytes v.ty) v.ty v.emax b h

/-- LDF: field number c. -/
def ldfStep (d c : Rg) (rec_ : W32) : JStep := fun h => do
  let v ← varOf rec_ h
  let f ← recField v c.toNat
  let x ← loadVal v (imageOf v h) f.off f.ty f.emax h
  .ok (setReg d x h)

def stfStep (rec_ : W32) (c a : Rg) : JStep := fun h => do
  let v ← varOf rec_ h
  if v.owner ≠ h.num then .error fOwner
  else
    let f ← recField v c.toNat
    storeVal v f.off f.ty f.emax a h

def lenStep (d : Rg) (arr : W32) : JStep := fun h => do
  let v ← varOf arr h
  let n ← arrayLen v
  .ok (setReg d (regOf .int32 n) h)

def execJLdi (d c : Rg) (imm : W32) (s : State) : Host.Outcome State Fault Refusal := s.jic (.jLdi d c imm) 2 (ldiStep d c imm)
def execJLdk (d : Rg) (k : W32) (s : State) : Host.Outcome State Fault Refusal := s.jic (.jLdk d k) 2 (ldkStep d k)
def execJMov (d a : Rg) (s : State) : Host.Outcome State Fault Refusal := s.jic (.jMov d a) 1 (movStep d a)
def execJCvt (d a c : Rg) (s : State) : Host.Outcome State Fault Refusal := s.jic (.jCvt d a c) 1 (cvtStep d a c)
def execJSel (d a b c : Rg) (s : State) : Host.Outcome State Fault Refusal := s.jic (.jSel d a b c) 1 (selStep d a b c)
def execJClr (d c : Rg) (s : State) : Host.Outcome State Fault Refusal := s.jic (.jClr d c) 1 (clrStep d c)
def execJObj (d a c : Rg) (s : State) : Host.Outcome State Fault Refusal := s.jic (.jObj d a c) 1 (objStep d a c)
def execJIdx (d a : Rg) (s : State) : Host.Outcome State Fault Refusal := s.jic (.jIdx d a) 1 (idxStep d a)
def execJLd (d : Rg) (var : W32) (s : State) : Host.Outcome State Fault Refusal := s.jic (.jLd d var) 2 (ldStep false d var)
def execJSt (var : W32) (a : Rg) (s : State) : Host.Outcome State Fault Refusal := s.jic (.jSt var a) 2 (stStep var a)
def execJLdx (d a : Rg) (arr : W32) (s : State) : Host.Outcome State Fault Refusal := s.jic (.jLdx d a arr) 2 (ldxStep d a arr)
def execJStx (arr : W32) (a b : Rg) (s : State) : Host.Outcome State Fault Refusal := s.jic (.jStx arr a b) 2 (stxStep arr a b)
def execJLdf (d c : Rg) (rec_ : W32) (s : State) : Host.Outcome State Fault Refusal := s.jic (.jLdf d c rec_) 2 (ldfStep d c rec_)
def execJStf (rec_ : W32) (c a : Rg) (s : State) : Host.Outcome State Fault Refusal := s.jic (.jStf rec_ c a) 2 (stfStep rec_ c a)
def execJLdp (d : Rg) (var : W32) (s : State) : Host.Outcome State Fault Refusal := s.jic (.jLdp d var) 2 (ldStep true d var)
def execJLen (d : Rg) (arr : W32) (s : State) : Host.Outcome State Fault Refusal := s.jic (.jLen d arr) 2 (lenStep d arr)

end Sys2Proof.Machine
end

