-- ==== Sys2Proof/Machine/JicAlu.lean ====
section
/-! DEFINITION. JIC opcodes of arithmetic, comparison, logic and bits, 0x1C-0x3C (R163, R174, R606, R607). -/

namespace Sys2Proof.Machine

/-- Two operands of one type that the operation takes: the type and both numbers (R174). -/
def getPair (ok : Ty → Bool) (a b : Rg) (h : Heat) : Except Nat (Ty × Int × Int) := do
  let x ← getReg a h
  let y ← getReg b h
  if x.ty = y.ty ∧ ok x.ty then .ok (x.ty, regInt x, regInt y) else .error fType

/-- One operand of a type the operation takes. -/
def getOne (ok : Ty → Bool) (a : Rg) (h : Heat) : Except Nat (Ty × Int) := do
  let x ← getReg a h
  if ok x.ty then .ok (x.ty, regInt x) else .error fType

/-- ADD (R606): two of one arithmetic type, or TSTAMP + DUR. -/
def addStep (d a b : Rg) : JStep := fun h => do
  let x ← getReg a h
  let y ← getReg b h
  if x.ty = .tstamp ∧ y.ty = .dur then putRes d .tstamp (regInt x + regInt y) h
  else if x.ty = y.ty ∧ arithTy x.ty then putRes d x.ty (regInt x + regInt y) h
  else .error fType

/-- SUB (R606): two of one arithmetic type, TSTAMP − DUR, or TSTAMP − TSTAMP. -/
def subStep (d a b : Rg) : JStep := fun h => do
  let x ← getReg a h
  let y ← getReg b h
  if x.ty = .tstamp ∧ y.ty = .tstamp then putRes d .dur (regInt x - regInt y) h
  else if x.ty = .tstamp ∧ y.ty = .dur then putRes d .tstamp (regInt x - regInt y) h
  else if x.ty = y.ty ∧ arithTy x.ty then putRes d x.ty (regInt x - regInt y) h
  else .error fType

def mulStep (d a b : Rg) : JStep := fun h => do
  let (ty, x, y) ← getPair arithTy a b h
  putRes d ty (x * y) h

/-- DIV truncates towards zero; MOD has the sign of a; a divisor of 0 is fault 5 (R172, R174). -/
def divStep (rem : Bool) (d a b : Rg) : JStep := fun h => do
  let (ty, x, y) ← getPair arithTy a b h
  if y = 0 then .error fDiv else putRes d ty (if rem then Int.tmod x y else Int.tdiv x y) h

def negStep (d a : Rg) : JStep := fun h => do
  let (ty, x) ← getOne negTy a h
  putRes d ty (-x) h

def absStep (d a : Rg) : JStep := fun h => do
  let (ty, x) ← getOne negTy a h
  putRes d ty (x.natAbs : Int) h

def anyTy (_ : Ty) : Bool := true

/-- MIN and MAX of two values of one type, whatever it is; the order of BOOL, STATE4, OBJ and REQTAG is that of their register values:
DESIGN CHOICE (log entry 63). -/
def minStep (d a b : Rg) : JStep := fun h => do
  let (ty, x, y) ← getPair anyTy a b h
  .ok (setReg d (regOf ty (min x y)) h)

def maxStep (d a b : Rg) : JStep := fun h => do
  let (ty, x, y) ← getPair anyTy a b h
  .ok (setReg d (regOf ty (max x y)) h)

/-- LIM: a clamped to [b, c]; b above c is a bound fault. -/
def limStep (d a b c : Rg) : JStep := fun h => do
  let (ty, x, lo) ← getPair anyTy a b h
  let (_, _, hi) ← getPair anyTy a c h
  if hi < lo then .error fBound else .ok (setReg d (regOf ty (max lo (min x hi))) h)

/-- A comparison gives a BOOL. -/
def cmpStep (ok : Ty → Bool) (rel : Int → Int → Bool) (d a b : Rg) : JStep := fun h => do
  let (_, x, y) ← getPair ok a b h
  .ok (setReg d (boolReg (rel x y)) h)

def isBool (t : Ty) : Bool := t == .bool
def isU32 (t : Ty) : Bool := t == .uint32
def isS4 (t : Ty) : Bool := t == .state4

/-- BOOL and, or, exclusive or. -/
def logicStep (f : Bool → Bool → Bool) (d a b : Rg) : JStep := fun h => do
  let x ← getBool a h
  let y ← getBool b h
  .ok (setReg d (boolReg (f x y)) h)

def notStep (d a : Rg) : JStep := fun h => do
  let x ← getBool a h
  .ok (setReg d (boolReg (!x)) h)

/-- UINT32 bitwise operations. -/
def getU32 (a : Rg) (h : Heat) : Except Nat W32 := do
  let v ← getAs .uint32 a h
  .ok (BitVec.ofInt 32 v)

def putU32 (d : Rg) (v : W32) (h : Heat) : Heat := setReg d (regOf .uint32 v.toNat) h

def bitsStep (f : W32 → W32 → W32) (d a b : Rg) : JStep := fun h => do
  let x ← getU32 a h
  let y ← getU32 b h
  .ok (putU32 d (f x y) h)

def bnotStep (d a : Rg) : JStep := fun h => do
  let x ← getU32 a h
  .ok (putU32 d (~~~ x) h)

/-- Shifts, and bit set and clear: the shift or bit is an INT32 from 0 to 31. -/
def shiftStep (f : W32 → Nat → W32) (d a b : Rg) : JStep := fun h => do
  let x ← getU32 a h
  let n ← getIndex b 32 h
  .ok (putU32 d (f x n) h)

def btstStep (d a b : Rg) : JStep := fun h => do
  let x ← getU32 a h
  let n ← getIndex b 32 h
  .ok (setReg d (boolReg (x.getLsbD n)) h)

/-- Tests of a STATE4. -/
def stateStep (f : Int → Bool) (d a : Rg) : JStep := fun h => do
  let v ← getAs .state4 a h
  .ok (setReg d (boolReg (f v)) h)

/-- AGR: a where both agree, else unknown. -/
def agrStep (d a b : Rg) : JStep := fun h => do
  let (_, x, y) ← getPair isS4 a b h
  putRes d .state4 (if x = y then x else 3) h

def execJAdd (d a b : Rg) (s : State) : Host.Outcome State Fault Refusal := s.jic (.jAdd d a b) 1 (addStep d a b)
def execJSub (d a b : Rg) (s : State) : Host.Outcome State Fault Refusal := s.jic (.jSub d a b) 1 (subStep d a b)
def execJMul (d a b : Rg) (s : State) : Host.Outcome State Fault Refusal := s.jic (.jMul d a b) 1 (mulStep d a b)
def execJDiv (d a b : Rg) (s : State) : Host.Outcome State Fault Refusal := s.jic (.jDiv d a b) 1 (divStep false d a b)
def execJMod (d a b : Rg) (s : State) : Host.Outcome State Fault Refusal := s.jic (.jMod d a b) 1 (divStep true d a b)
def execJNeg (d a : Rg) (s : State) : Host.Outcome State Fault Refusal := s.jic (.jNeg d a) 1 (negStep d a)
def execJAbs (d a : Rg) (s : State) : Host.Outcome State Fault Refusal := s.jic (.jAbs d a) 1 (absStep d a)
def execJMin (d a b : Rg) (s : State) : Host.Outcome State Fault Refusal := s.jic (.jMin d a b) 1 (minStep d a b)
def execJMax (d a b : Rg) (s : State) : Host.Outcome State Fault Refusal := s.jic (.jMax d a b) 1 (maxStep d a b)
def execJLim (d a b c : Rg) (s : State) : Host.Outcome State Fault Refusal := s.jic (.jLim d a b c) 1 (limStep d a b c)
def execJEq (d a b : Rg) (s : State) : Host.Outcome State Fault Refusal := s.jic (.jEq d a b) 1 (cmpStep anyTy (fun x y => x == y) d a b)
def execJNe (d a b : Rg) (s : State) : Host.Outcome State Fault Refusal := s.jic (.jNe d a b) 1 (cmpStep anyTy (fun x y => x != y) d a b)
def execJLt (d a b : Rg) (s : State) : Host.Outcome State Fault Refusal := s.jic (.jLt d a b) 1 (cmpStep orderTy (fun x y => decide (x < y)) d a b)
def execJLe (d a b : Rg) (s : State) : Host.Outcome State Fault Refusal := s.jic (.jLe d a b) 1 (cmpStep orderTy (fun x y => decide (x ≤ y)) d a b)
def execJGt (d a b : Rg) (s : State) : Host.Outcome State Fault Refusal := s.jic (.jGt d a b) 1 (cmpStep orderTy (fun x y => decide (y < x)) d a b)
def execJGe (d a b : Rg) (s : State) : Host.Outcome State Fault Refusal := s.jic (.jGe d a b) 1 (cmpStep orderTy (fun x y => decide (y ≤ x)) d a b)
def execJAnd (d a b : Rg) (s : State) : Host.Outcome State Fault Refusal := s.jic (.jAnd d a b) 1 (logicStep and d a b)
def execJOr (d a b : Rg) (s : State) : Host.Outcome State Fault Refusal := s.jic (.jOr d a b) 1 (logicStep or d a b)
def execJXor (d a b : Rg) (s : State) : Host.Outcome State Fault Refusal := s.jic (.jXor d a b) 1 (logicStep xor d a b)
def execJNot (d a : Rg) (s : State) : Host.Outcome State Fault Refusal := s.jic (.jNot d a) 1 (notStep d a)
def execJBand (d a b : Rg) (s : State) : Host.Outcome State Fault Refusal := s.jic (.jBand d a b) 1 (bitsStep (· &&& ·) d a b)
def execJBor (d a b : Rg) (s : State) : Host.Outcome State Fault Refusal := s.jic (.jBor d a b) 1 (bitsStep (· ||| ·) d a b)
def execJBxor (d a b : Rg) (s : State) : Host.Outcome State Fault Refusal := s.jic (.jBxor d a b) 1 (bitsStep (· ^^^ ·) d a b)
def execJBnot (d a : Rg) (s : State) : Host.Outcome State Fault Refusal := s.jic (.jBnot d a) 1 (bnotStep d a)
def execJShl (d a b : Rg) (s : State) : Host.Outcome State Fault Refusal := s.jic (.jShl d a b) 1 (shiftStep (fun x n => x <<< n) d a b)
def execJShr (d a b : Rg) (s : State) : Host.Outcome State Fault Refusal := s.jic (.jShr d a b) 1 (shiftStep (fun x n => x >>> n) d a b)
def execJBtst (d a b : Rg) (s : State) : Host.Outcome State Fault Refusal := s.jic (.jBtst d a b) 1 (btstStep d a b)
def execJBset (d a b : Rg) (s : State) : Host.Outcome State Fault Refusal := s.jic (.jBset d a b) 1 (shiftStep (fun x n => x ||| (1#32 <<< n)) d a b)
def execJBclr (d a b : Rg) (s : State) : Host.Outcome State Fault Refusal := s.jic (.jBclr d a b) 1 (shiftStep (fun x n => x &&& ~~~ (1#32 <<< n)) d a b)
def execJIscl (d a : Rg) (s : State) : Host.Outcome State Fault Refusal := s.jic (.jIscl d a) 1 (stateStep (fun v => v == 1) d a)
def execJIsop (d a : Rg) (s : State) : Host.Outcome State Fault Refusal := s.jic (.jIsop d a) 1 (stateStep (fun v => v == 0) d a)
def execJIsbd (d a : Rg) (s : State) : Host.Outcome State Fault Refusal := s.jic (.jIsbd d a) 1 (stateStep (fun v => decide (2 ≤ v)) d a)
def execJAgr (d a b : Rg) (s : State) : Host.Outcome State Fault Refusal := s.jic (.jAgr d a b) 1 (agrStep d a b)

end Sys2Proof.Machine
end

