-- ==== Sys2Proof/Machine/JicIo.lean ====
section
/-! DEFINITION. JIC opcodes that read inputs and module state, 0x3D-0x44, instances, 0x45-0x4E, and commands, events, records and
check values, 0x57-0x5E (R140, R174, R176, R181-R188, R191, R362, R499, R607). -/

namespace Sys2Proof.Machine

/-! ## Inputs and module state -/

/-- IN: the value of an input object, the forced value while it is forced (R188). -/
def inStep (d a : Rg) : JStep := fun h => do
  let (ref, x) ← heatInput a h
  .ok (setReg d { ty := x.ty, val := ((forceOn h.m true ref).map (·.val)).getD x.val } h)

/-- INQ: [0] substitute in use, [1] forced, [2] telegram older than the previous freeze. -/
def inqStep (d a : Rg) : JStep := fun h => do
  let (ref, x) ← heatInput a h
  .ok (setReg d (regOf .uint32 (putField x.quality 1 1 (b2n (forceOn h.m true ref).isSome) : Nat)) h)

/-- STN. In a later slice of a slow task STN, GRP and CONN show what is agreed now, the copy of R176 being one of input objects: DESIGN
CHOICE (log entry 63). -/
def stnStep (d a : Rg) : JStep := fun h => do
  let (_, n) ← getObj [6] a h
  .ok (setReg d (regOf .enum8 (stnOf h.m n)) h)

/-- FRC: the variable is forced, or its object is. -/
def frcStep (d : Rg) (var : W32) : JStep := fun h => do
  let v ← varOf var h
  let obj := match v.obj with
    | some o => (forceOn h.m true o.toNat).isSome
    | none => false
  .ok (setReg d (boolReg ((forceOn h.m false v.vid).isSome || obj)) h)

def areaStep (d a : Rg) : JStep := fun h => do
  let (_, n) ← getObj [5] a h
  .ok (setReg d (boolReg (h.m.md.areas.getLsbD n)) h)

def grpStep (d a : Rg) : JStep := fun h => do
  let g ← getIndex a 4 h
  .ok (setReg d (regOf .enum8 (grpSeen h.m g)) h)

/-- NOW: the nominal time of the heat (R91). -/
def nowStep (d : Rg) : JStep := fun h => .ok (setReg d (regOf .tstamp h.tcb.nominal) h)

/-- ELAP: a time stamp later than NOW is a bound fault. -/
def elapStep (d a : Rg) : JStep := fun h => do
  let v ← getAs .tstamp a h
  if (h.tcb.nominal : Int) < v then .error fBound else putRes d .dur (h.tcb.nominal - v) h

/-! ## Timers, counters, edge detectors -/

/-- A preset is a DUR from 0 to 604,800 s (R184). -/
def getPreset (b : Rg) (h : Heat) : Except Nat Nat := do
  let p ← getAs .dur b h
  if 0 ≤ p ∧ p ≤ 604800000000000 then .ok p.toNat else .error fBound

/-- Evaluate a timer: `start` on the change that starts it, `stop` on what sets it idle. -/
def timerAt (now_ preset : Nat) (start stop : Bool) (a : Bool) (x : InstState) : InstState :=
  if stop then { x with prev := some a, running := false, start := 0, due := 0 }
  else if start && !x.running then { x with prev := some a, running := true, start := now_, due := now_ + preset }
  else if x.running then { x with prev := some a, due := x.start + preset }
  else { x with prev := some a }

/-- The timer has expired at the nominal time. -/
def expired (now_ : Nat) (x : InstState) : Bool := x.running && decide (x.due ≤ now_)

/-- TON: true once a has been true in every evaluation since the start for the preset (R184). -/
def tonAt (now_ preset : Nat) (a : Bool) (x : InstState) : Bool × InstState :=
  let y := timerAt now_ preset (a && x.prev == some false) (!a) a x
  (expired now_ y, y)

/-- TOF: true while a is true and for the preset after it falls. -/
def tofAt (now_ preset : Nat) (a : Bool) (x : InstState) : Bool × InstState :=
  let y := timerAt now_ preset (!a && x.prev == some true) a a x
  let z := if expired now_ y then { y with running := false, start := 0, due := 0 } else y
  (a || z.running, z)

/-- TP: true from the start for the preset, whatever a does meanwhile. -/
def tpAt (now_ preset : Nat) (a : Bool) (x : InstState) : Bool × InstState :=
  let y := timerAt now_ preset (a && x.prev == some false) false a x
  let z := if expired now_ y then { y with running := false, start := 0, due := 0 } else y
  (z.running, z)

def timerStep (at_ : Nat → Nat → Bool → InstState → Bool × InstState) (d a b : Rg) (t : W32) : JStep := fun h => do
  let x ← getInst t .timer h
  let c ← getBool a h
  let p ← getPreset b h
  let (q, y) := at_ h.tcb.nominal p c x
  .ok (setInst t y (setReg d (boolReg q) h))

/-- TRS: idle; the previous value stays (R184). -/
def trsStep (t : W32) : JStep := fun h => do
  let x ← getInst t .timer h
  .ok (setInst t { x with running := false, start := 0, due := 0 } h)

/-- TREM: what remains; 0 when idle or expired. -/
def tremStep (d : Rg) (t : W32) : JStep := fun h => do
  let x ← getInst t .timer h
  putRes d .dur (if x.running then (x.due - h.tcb.nominal : Nat) else (0 : Nat)) h

/-- INT32 saturation of a counter (R186). -/
def satI32 (v : Int) : Int := max (-2147483648) (min 2147483647 v)

/-- CTU and CTD count on a false-to-true change between consecutive evaluations. -/
def countStep (up : Bool) (d a b : Rg) (t : W32) : JStep := fun h => do
  let x ← getInst t .counter h
  let c ← getBool a h
  let lim ← getAs .int32 b h
  let n := if c && x.prev == some false then satI32 (if up then x.count + 1 else x.count - 1) else x.count
  .ok (setInst t { x with prev := some c, count := n } (setReg d (boolReg (if up then decide (lim ≤ n) else decide (n ≤ lim))) h))

def crsStep (a : Rg) (t : W32) : JStep := fun h => do
  let x ← getInst t .counter h
  let v ← getAs .int32 a h
  .ok (setInst t { x with count := v } h)

/-- RTRG and FTRG: a change to `want`; the first evaluation reports none (R187). -/
def edgeStep (want : Bool) (d a : Rg) (t : W32) : JStep := fun h => do
  let x ← getInst t .edge h
  let c ← getBool a h
  .ok (setInst t { x with prev := some c } (setReg d (boolReg (c == want && x.prev == some (!want))) h))

/-! ## Commands, events, records -/

/-- Write registers d, d+1, …; the caller has checked that they exist. -/
def setRegs : Nat → List Reg → Heat → Heat
  | _, [], h => h
  | d, x :: xs, h => setRegs (d + 1) xs (setReg (BitVec.ofNat 6 d) x h)

/-- HCMD: the next command given to this heat and not fetched yet, in acceptance order; tag 0 when none remains (R182). -/
def hcmdStep (d : Rg) : JStep := fun h =>
  if 53 < d.toNat then .error fBound
  else
    match h.tcb.cmds.findIdx? (fun c => !c.fetched) with
    | none => .ok (setReg d (regOf .reqtag 0) h)
    | some i =>
      let go (c : TaskCmd) : List Reg :=
        { ty := .reqtag, val := c.sub.tag.zeroExtend 64 } ::
          (List.range 10).map (fun k => { ty := .uint32, val := (c.words.getD k 0).zeroExtend 64 })
      let regs := ((h.tcb.cmds[i]?).map go).getD []
      let h1 := setRegs d.toNat regs h
      .ok { h1 with tcb := { h1.tcb with cmds := h1.tcb.cmds.mapIdx (fun j c => if j = i then { c with fetched := true } else c) } }

/-- HDON: complete a command the heat holds; a tag it does not hold or has completed has no effect (R182). -/
def hdonStep (a b : Rg) : JStep := fun h => do
  let tag ← getAs .reqtag a h
  let code ← getIndex b 65536 h
  match h.tcb.cmds.findIdx? (fun c => !c.done && (c.sub.tag.toNat : Int) == tag) with
  | none => .ok h
  | some i =>
    let h1 : Heat := { h with tcb := { h.tcb with cmds := h.tcb.cmds.mapIdx (fun j c => if j = i then { c with done := true } else c) } }
    match h.tcb.cmds[i]? with
    | some c => .ok (setM (complete c.sub 0x16 code) h1)
    | none => .ok h1

/-- An operand of HEVT and REC: INT32 or UINT32, its 32 bits as they stand (R607). -/
def getWord (a : Rg) (h : Heat) : Except Nat Nat := do
  let x ← getReg a h
  if x.ty = .int32 ∨ x.ty = .uint32 then .ok (x.val.toNat % 2 ^ 32) else .error fType

def hevtStep (a b : Rg) : JStep := fun h => do
  let x ← getWord a h
  let y ← getWord b h
  .ok (setM (raise 0x13 { arg0 := h.num, arg1 := x, arg2 := y }) h)

/-- REC: an entry of kind 1 and SRC 7, with the task number and the build number (R508). -/
def recStep (a b : Rg) : JStep := fun h => do
  let x ← getWord a h
  let y ← getWord b h
  let body := bytesLE 4 x ++ bytesLE 4 y ++ bytesLE 4 h.num ++ bytesLE 4 h.m.lg.app.build.toNat
  .ok (setM (offerRecord { kind := 1, src := 7, code := 0, privileged := false, scn := scn h.m, body := body }) h)

def trgStep (d : Rg) : JStep := fun h => .ok (setReg d (regOf .uint32 h.tcb.trig) h)

/-- The mask of parked tasks (R191, R200). -/
def parkedMask (m : Mod) : Nat := ((List.range 32).filter (fun t => (tcbOf m t).parked)).foldl (fun n t => n + 2 ^ t) 0

/-- The system items of R191. -/
def sysItem (c : Nat) (h : Heat) : Option Reg :=
  match c with
  | 0 => some (regOf .enum8 (b2n (mode h.m != .commission)))
  | 1 => some (regOf .enum8 h.tcb.startKind)
  | 2 => some (regOf .uint32 (h.tcb.relScn % 2 ^ 32 : Nat))
  | 3 => some (regOf .enum8 h.tcb.relBcn)
  | 4 => some (regOf .uint32 (parkedMask h.m))
  | 5 => some (boolReg (!h.m.md.forces.isEmpty))
  | 6 => some (regOf .uint32 h.m.lg.app.build.toNat)
  | 7 => some (regOf .uint32 h.tcb.heats.toNat)
  | _ => none

def sysStep (d c : Rg) : JStep := fun h =>
  match sysItem c.toNat h with
  | some x => .ok (setReg d x h)
  | none => .error fBound

/-- CVU: the check value of an array by lane unit 3; 64 bits in d and d + 1 for polynomial 2 (R174, R499, R502). -/
def cvuStep (d a : Rg) (arr : W32) : JStep := fun h => do
  let p ← getIndex a 4 h
  if p = 2 ∧ d.toNat = 63 then .error fBound
  else
    let v ← varOf arr h
    let n ← arrayLen v
    let x := cvuOn p (memRead (imageOf v h) v.addr (n * tyBytes v.ty)) none
    let r := cvuFinal p x.run
    let lo := regOf .uint32 (r.toNat % 2 ^ 32 : Nat)
    let unit (l : Lane) : Lane := if l.alive then { l with cvu := tabSet CvUnit.fresh l.cvu 3 x } else l
    .ok (setRegs d.toNat (if p = 2 then [lo, regOf .uint32 (r.toNat / 2 ^ 32 : Nat)] else [lo]) { h with m := updLanes (fun _ l => unit l) h.m })

/-- CONN: a connection towards the ZL3 that is not terminal, else an object fault (R162, R362). -/
def connStep (d a : Rg) : JStep := fun h => do
  let (_, n) ← getObj [9] a h
  match (inConns h.m).find? (fun c => c.num == n && c.kind != 3) with
  | some _ => .ok (setReg d (regOf .enum8 (connSt h.m n).state) h)
  | none => .error fObj

def execJIn (d a : Rg) (s : State) : Host.Outcome State Fault Refusal := s.jic (.jIn d a) 1 (inStep d a)
def execJInq (d a : Rg) (s : State) : Host.Outcome State Fault Refusal := s.jic (.jInq d a) 1 (inqStep d a)
def execJStn (d a : Rg) (s : State) : Host.Outcome State Fault Refusal := s.jic (.jStn d a) 1 (stnStep d a)
def execJFrc (d : Rg) (var : W32) (s : State) : Host.Outcome State Fault Refusal := s.jic (.jFrc d var) 2 (frcStep d var)
def execJArea (d a : Rg) (s : State) : Host.Outcome State Fault Refusal := s.jic (.jArea d a) 1 (areaStep d a)
def execJGrp (d a : Rg) (s : State) : Host.Outcome State Fault Refusal := s.jic (.jGrp d a) 1 (grpStep d a)
def execJNow (d : Rg) (s : State) : Host.Outcome State Fault Refusal := s.jic (.jNow d) 1 (nowStep d)
def execJElap (d a : Rg) (s : State) : Host.Outcome State Fault Refusal := s.jic (.jElap d a) 1 (elapStep d a)
def execJTon (d a b : Rg) (t : W32) (s : State) : Host.Outcome State Fault Refusal := s.jic (.jTon d a b t) 2 (timerStep tonAt d a b t)
def execJTof (d a b : Rg) (t : W32) (s : State) : Host.Outcome State Fault Refusal := s.jic (.jTof d a b t) 2 (timerStep tofAt d a b t)
def execJTp (d a b : Rg) (t : W32) (s : State) : Host.Outcome State Fault Refusal := s.jic (.jTp d a b t) 2 (timerStep tpAt d a b t)
def execJTrs (t : W32) (s : State) : Host.Outcome State Fault Refusal := s.jic (.jTrs t) 2 (trsStep t)
def execJTrem (d : Rg) (t : W32) (s : State) : Host.Outcome State Fault Refusal := s.jic (.jTrem d t) 2 (tremStep d t)
def execJCtu (d a b : Rg) (t : W32) (s : State) : Host.Outcome State Fault Refusal := s.jic (.jCtu d a b t) 2 (countStep true d a b t)
def execJCtd (d a b : Rg) (t : W32) (s : State) : Host.Outcome State Fault Refusal := s.jic (.jCtd d a b t) 2 (countStep false d a b t)
def execJCrs (a : Rg) (t : W32) (s : State) : Host.Outcome State Fault Refusal := s.jic (.jCrs a t) 2 (crsStep a t)
def execJRtrg (d a : Rg) (t : W32) (s : State) : Host.Outcome State Fault Refusal := s.jic (.jRtrg d a t) 2 (edgeStep true d a t)
def execJFtrg (d a : Rg) (t : W32) (s : State) : Host.Outcome State Fault Refusal := s.jic (.jFtrg d a t) 2 (edgeStep false d a t)
def execJHcmd (d : Rg) (s : State) : Host.Outcome State Fault Refusal := s.jic (.jHcmd d) 1 (hcmdStep d)
def execJHdon (a b : Rg) (s : State) : Host.Outcome State Fault Refusal := s.jic (.jHdon a b) 1 (hdonStep a b)
def execJHevt (a b : Rg) (s : State) : Host.Outcome State Fault Refusal := s.jic (.jHevt a b) 1 (hevtStep a b)
def execJTrg (d : Rg) (s : State) : Host.Outcome State Fault Refusal := s.jic (.jTrg d) 1 (trgStep d)
def execJSys (d c : Rg) (s : State) : Host.Outcome State Fault Refusal := s.jic (.jSys d c) 1 (sysStep d c)
def execJRec (a b : Rg) (s : State) : Host.Outcome State Fault Refusal := s.jic (.jRec a b) 1 (recStep a b)
def execJCvu (d a : Rg) (arr : W32) (s : State) : Host.Outcome State Fault Refusal := s.jic (.jCvu d a arr) 2 (cvuStep d a arr)
def execJConn (d a : Rg) (s : State) : Host.Outcome State Fault Refusal := s.jic (.jConn d a) 1 (connStep d a)

end Sys2Proof.Machine
end

