-- ==== Sys2Proof/Machine/JicRoute.lean ====
section
/-! DEFINITION. JIC opcodes of the route engine, 0x4F-0x56 and 0x5F (R174, R189, R224-R231). Outside the route task ENXT, EREQ, ELCK,
EDRP, EREL and ERRL are ownership faults; ESTA, EOVL and TAGV read the published view there. -/

namespace Sys2Proof.Machine

/-- Only the route task (R189, R224). -/
def routeOnly (op : JStep) : JStep := fun h => if h.desc.route then op h else .error fOwner

def getRoute (a : Rg) (h : Heat) : Except Nat Nat := do
  let (_, r) ← getObj [0] a h
  .ok r

def getElem_ (a : Rg) (h : Heat) : Except Nat (Nat × Nat) := getObj [1, 2, 3, 4, 5] a h

/-- The pass of this cycle has ended; ENXT waits for it otherwise, and a wait after phase 1,500 is told (R224, R245). -/
def passEnded (m : Mod) : Mod := if m.en.passScn = scn m + 1 then m else enginePass (tellLatePass m)

/-- The route task runs and its next instruction is ENXT. -/
def enxtNext (m : Mod) : Bool :=
  match m.lg.running with
  | none => false
  | some t => (taskDesc m t).any (·.route) && (match codeAt m.lg.app (tcbOf m t).pc with
      | .instr (.jEnxt _) => true
      | _ => false)

/-- ENGINE_PASS_LATE: phase 1,500 finds the pass of the cycle not ended. Where ENXT waits already it is told now, else when an ENXT comes
to wait (R245). -/
def doPassLate (m : Mod) : Mod :=
  let m1 := if m.tm.taken && decide (phase m < 1500) then passTo (scn m * 20000000 + 1500000) m else m
  if m1.en.passScn = scn m1 + 1 ∨ !serving m1 then m
  else onlyIf (enxtNext m1) tellLatePass m1

def execEnginePassLate (s : State) : Host.Outcome State Fault Refusal := s.run doPassLate

/-- ENXT: the next candidate in grant order from the heat's cursor that is neither committed nor withdrawn, or null. -/
def enxtStep (d : Rg) : JStep := routeOnly fun h =>
  let h1 := setM passEnded h
  let rest := h1.m.en.cands.zipIdx.drop h1.tcb.cursor
  match rest.find? (fun p => !p.1.gone) with
  | some (c, i) =>
    let h2 := setReg d (regOf .obj c.route) h1
    .ok { h2 with tcb := { h2.tcb with cursor := i + 1 } }
  | none => .ok (setReg d (regOf .obj nullRef) h1)

/-- EREQ: tag, priority and arrival in d, d + 1, d + 2; tag 0 when the route has none. -/
def ereqStep (d a : Rg) : JStep := routeOnly fun h => do
  let r ← getRoute a h
  if 61 < d.toNat then .error fBound
  else
    match pendOf h.m r with
    | none => .ok (setReg d (regOf .reqtag 0) h)
    | some p =>
      .ok (setRegs d.toNat [{ ty := .reqtag, val := p.tag.zeroExtend 64 }, regOf .enum8 p.prio, regOf .uint32 (p.arrival % 2 ^ 32 : Nat)] h)

/-- ELCK: commit candidate a with alternative b (R225). -/
def elckStep (a b : Rg) : JStep := routeOnly fun h => do
  let r ← getRoute a h
  let alt ← getIndex b 4 h
  match lockRoute r alt h.m with
  | some m => .ok { h with m := m }
  | none => .error fBound

/-- EDRP: refuse the pending request of route a with code b, 0x10 to 0xFF. -/
def edrpStep (a b : Rg) : JStep := routeOnly fun h => do
  let r ← getRoute a h
  let code ← getIndex b 256 h
  if code < 16 ∨ (pendOf h.m r).isNone then .error fBound else .ok (setM (fun m => endPend r code (withdraw r m)) h)

def erelStep (a b : Rg) : JStep := routeOnly fun h => do
  let r ← getRoute a h
  let (kind, idx) ← getElem_ b h
  match releaseElem r kind idx h.m with
  | some m => .ok { h with m := m }
  | none => .error fBound

def errlStep (a : Rg) : JStep := routeOnly fun h => do
  let r ← getRoute a h
  .ok (setM (releaseRoute r) h)

/-- ESTA: the live lock word in the route task, the published one elsewhere (R226, R227). -/
def estaStep (d a : Rg) : JStep := fun h => do
  let (kind, idx) ← getElem_ a h
  let t := if h.desc.route then h.m.en.elems else h.m.en.pubElems
  .ok (setReg d (regOf .enum8 (estaOf (tabGet 0 t (elemPos kind idx)).toNat)) h)

def eovlStep (d a : Rg) : JStep := fun h => do
  let r ← getRoute a h
  .ok (setReg d (regOf .enum8 (if h.desc.route then eovlLive h.m r else eovlPub h.m r)) h)

def tagvStep (d a : Rg) : JStep := fun h => do
  let v ← getAs .reqtag a h
  .ok (setReg d (boolReg (tagLive h.desc.route h.m (BitVec.ofInt 32 v))) h)

def execJEnxt (d : Rg) (s : State) : Host.Outcome State Fault Refusal := s.jic (.jEnxt d) 1 (enxtStep d)
def execJEreq (d a : Rg) (s : State) : Host.Outcome State Fault Refusal := s.jic (.jEreq d a) 1 (ereqStep d a)
def execJElck (a b : Rg) (s : State) : Host.Outcome State Fault Refusal := s.jic (.jElck a b) 1 (elckStep a b)
def execJEdrp (a b : Rg) (s : State) : Host.Outcome State Fault Refusal := s.jic (.jEdrp a b) 1 (edrpStep a b)
def execJErel (a b : Rg) (s : State) : Host.Outcome State Fault Refusal := s.jic (.jErel a b) 1 (erelStep a b)
def execJErrl (a : Rg) (s : State) : Host.Outcome State Fault Refusal := s.jic (.jErrl a) 1 (errlStep a)
def execJEsta (d a : Rg) (s : State) : Host.Outcome State Fault Refusal := s.jic (.jEsta d a) 1 (estaStep d a)
def execJEovl (d a : Rg) (s : State) : Host.Outcome State Fault Refusal := s.jic (.jEovl d a) 1 (eovlStep d a)
def execJTagv (d a : Rg) (s : State) : Host.Outcome State Fault Refusal := s.jic (.jTagv d a) 1 (tagvStep d a)

end Sys2Proof.Machine
end

