-- ==== Sys2Proof/Machine/Tasks.lean ====
section
/-! DEFINITION. Heats and slices (R168-R182) and the snapshot (R97, R102, R168, R169, R226). -/

namespace Sys2Proof.Machine

/-! ## Release (R170, R175-R179, R181) -/

/-- The application's tasks are released: START is over, in SHADOW only once LEAD's state is adopted (R194), and not in the slack
window in which an on-line change is built (R196). -/
def runsApp (m : Mod) : Bool := serving m && (mode m != .shadow || m.pr.adopted) && m.lg.olcNew.isNone

/-- Priority of a task of the running application; 0 is the highest (R171). -/
def prioOf (m : Mod) (t : Nat) : Nat := ((taskDesc m t).map (·.prio)).getD 32

/-- A released heat pre-empts a running heat of lower priority, else it waits by priority (R178). -/
def enqueueHeat (t : Nat) (m : Mod) : Mod :=
  let wait (x : Nat) (g : Logic) : Logic := { g with stack := insertBy (fun a b => decide (prioOf m a < prioOf m b)) x g.stack }
  match m.lg.running with
  | none => updLg (fun g => { g with running := some t }) m
  | some r =>
    if prioOf m t < prioOf m r then pcAll 0x09 (updLg (fun g => { wait r g with running := some t }) m)
    else updLg (wait t) m

/-- The control block of a heat at its release (R91, R170, R181). -/
def newHeat (d : TaskDesc) (m : Mod) (nominal : Nat) (x : Tcb) : Tcb :=
  { Tcb.empty with active := true, pc := d.entry, relScn := scnOf nominal, relBcn := bcnOf nominal, nominal := nominal, trig := x.trigWait,
                   cmds := x.cmdsWait, cmdScn := x.cmdScn, cmdN := x.cmdN, startKind := x.startKind,
                   heats := if x.heats = BitVec.allOnes 32 then x.heats else x.heats + 1,
                   inCopy := if d.kind = .slow then inputCopy m else [] }

/-- The window of this SCN in which a heat or slice runs is noted for the margins: the main window up to phase 14,500 (R202). -/
def noteRan (main : Bool) (m : Mod) : Mod :=
  updLg (fun g => if main then { g with ranMain := scn m + 1 } else { g with ranSlack := scn m + 1 }) m

/-- A heat released at a nominal time runs in the main window: the 5 ms heats of the first three basic cycles, the 20 ms and the MAIN
event heats (R175). -/
def mainHeat (d : TaskDesc) (nominal : Nat) : Bool :=
  match d.kind with
  | .cyc5 => bcnOf nominal != 3
  | .cyc20 | .evMain => true
  | .slow | .evSlack => false

/-- Release a heat at a nominal time. -/
def startHeat (d : TaskDesc) (nominal : Nat) (m : Mod) : Mod :=
  let m1 := updTcb d.num (newHeat d m nominal) m
  if d.kind = .slow then m1 else enqueueHeat d.num (noteRan (mainHeat d nominal) m1)

/-- An event task has work at this release: a trigger, or a command. -/
def hasWork (m : Mod) (d : TaskDesc) : Bool :=
  let x := tcbOf m d.num
  match d.kind with
  | .evMain | .evSlack => decide (0 < x.trigWait) || !x.cmdsWait.isEmpty
  | _ => true

/-- The block under test at the next hurdle of a lane is one the task uses: items 0, 1 and 2 (R142, R144). -/
def conflicts (d : TaskDesc) (item : Nat) : Bool := decide (item < 3) && d.uses.contains item

/-- The station cycle is a release cycle of a slow task (R175), or the one after a release that was deferred (R145). -/
def slowDue (m : Mod) (d : TaskDesc) : Bool :=
  (d.period != 0 && scn m % d.period == d.offset) || ((tcbOf m d.num).deferAt != 0 && (tcbOf m d.num).deferAt == scn m)

/-- A task has work in the slack window of this station cycle: the heat of the last basic cycle, a heat with a trigger or a command, a
slice (R175, R179). -/
def slackDue (m : Mod) (d : TaskDesc) : Bool :=
  !(tcbOf m d.num).parked &&
    (match d.kind with
     | .cyc5 => true
     | .evSlack => hasWork m d || (tcbOf m d.num).active
     | .slow => (tcbOf m d.num).active || slowDue m d
     | .cyc20 | .evMain => false)

/-- The hurdle of this station cycle is protected, or will be: its lane's last 8 were abandoned (R145). -/
def protects (m : Mod) (l : LaneId) : Bool := m.md.hurdleProt == scn m + 1 || (bcn m == 3 && decide (8 ≤ (m.ln.get l).abandoned))

/-- A service request deferred by a protected hurdle: in its station cycle no heat is released for the slack window, the 5 ms heat of its last
basic cycle among them, and no slice begins, that needs the block under test (R145). -/
def deferred (m : Mod) (d : TaskDesc) : Bool :=
  match hurdleLane m with
  | some l => protects m l && conflicts d (m.ln.get l).itemNext &&
      (d.kind == .evSlack || d.kind == .slow || (d.kind == .cyc5 && bcn m == 3))
  | none => false

/-- What is deferred comes one station cycle later: a 5 ms heat at its release of then, an event heat with its triggers, a slice; the release
of a slow task is held until then (R145). -/
def deferHeat (d : TaskDesc) (m : Mod) : Mod :=
  if d.kind = .slow ∧ slowDue m d ∧ !(tcbOf m d.num).active then updTcb d.num (fun x => { x with deferAt := scn m + 1 }) m else m

/-- A task may be released: not parked, its last heat over (R173, R179, R181). -/
def mayRelease (m : Mod) (d : TaskDesc) : Bool :=
  let x := tcbOf m d.num
  runsApp m && !x.parked && !x.active && hasWork m d

/-- The moment of a release: phase 600 of every basic cycle, 1,500 or 16,000 (R175). -/
def toRelease (d : TaskDesc) (m : Mod) : Mod :=
  match d.kind with
  | .cyc5 => toBasicFrom m.md.serveAt (6000 + d.num) 600 m
  | .cyc20 | .evMain => toPhaseFrom m.md.serveAt (6000 + d.num) 1500 m
  | .slow | .evSlack => toPhaseFrom m.md.serveAt (6000 + d.num) 16000 m

/-- TASK_RELEASE: a heat is released at its phase. The nominal time is the release phase itself (R91). -/
def doRelease (t : Nat) (m : Mod) : Mod :=
  match taskDesc m t with
  | none => m
  | some d =>
    if !mayRelease m d then m
    else
      let m1 := toRelease d m
      let nominal := match d.kind with
        | .cyc5 => now m1 / 5000000 * 5000000 + 600000
        | .cyc20 | .evMain => scn m1 * 20000000 + 1500000
        | .slow | .evSlack => scn m1 * 20000000 + 16000000
      if deferred m1 d then deferHeat d m1
      else if d.kind = .slow ∧ !slowDue m1 d then m
      else startHeat d nominal m1

def execTaskRelease (task : Fin 32) (s : State) : Host.Outcome State Fault Refusal := s.run (doRelease task.val)

/-- SLOW_TASK_SLICE: one slice in each slack window until the heat completes; a release that falls due comes first (R175, R179). -/
def doSlice (t : Nat) (m : Mod) : Mod :=
  match taskDesc m t with
  | none => m
  | some d =>
    if d.kind ≠ .slow ∨ !runsApp m ∨ (tcbOf m t).parked then m
    else
      let m1 := toPhaseFrom m.md.serveAt (8000 + t) 16000 m
      let due := !deferred m1 d && !(tcbOf m1 t).active && slowDue m1 d && !firedNow (6000 + t) m1
      let m2 := if due then
          startHeat d (scn m1 * 20000000 + 16000000) (updMd (fun x => { x with fired := tabSet 0 x.fired (6000 + t) (scn m1 + 1) }) m1)
        else m1
      let m3 := updTcb t (fun x => { x with sliceLeft := d.slice }) m2
      if deferred m1 d then deferHeat d m1
      else if !(tcbOf m2 t).active then m
      else if m3.lg.running = some t ∨ m3.lg.stack.contains t then m3
      else enqueueHeat t (noteRan false m3)

def execSlowTaskSlice (task : Fin 32) (s : State) : Host.Outcome State Fault Refusal := s.run (doSlice task.val)

/-! ## Outputs (R149, R169, R346, R364, R471) -/

/-- The number an output variable holds at a byte offset in the current image, a force in its place (R148, R169). -/
def outNat (m : Mod) (vid off : Nat) : Nat :=
  match m.lg.app.vars.find? (fun v => v.vid == vid) with
  | none => 0
  | some v =>
    let ty := if v.fields.isEmpty then v.ty else ((v.fields.find? (fun f => f.off == off)).map (·.ty)).getD .none
    match forceOn m false vid with
    | some f => f.val.toNat % 2 ^ (8 * tyBytes ty)
    | none => ofLE (memRead m.cur (v.addr + off) (tyBytes ty))

/-- DATA of an output telegram: object fields in network order, 0 elsewhere (R11, R364). -/
def outData (m : Mod) (c : ConnDesc) : List Byte :=
  m.lg.app.outs.foldl (fun bs o => match o.2.2 with
    | .field conn off size =>
      if conn = c.num then bs.take off ++ bytesBE size (outNat m o.1 o.2.1) ++ bs.drop (off + size) else bs
    | .drive _ => bs) (List.replicate c.dlen 0)

/-- The body carries a forced object (R149, R346). -/
def outForced (m : Mod) (c : ConnDesc) : Bool :=
  m.lg.app.outs.any (fun o => match o.2.2 with
    | .field conn _ _ => conn == c.num && (forceOn m false o.1).isSome
    | .drive _ => false)

/-- Drive channels the application commands on: the bound value is 1 (log entry 32). -/
def appDrives (m : Mod) : List Nat :=
  m.lg.app.outs.filterMap (fun o => match o.2.2 with
    | .drive k => if outNat m o.1 o.2.1 = 1 then some k else none
    | .field _ _ _ => none)

/-- The module drives its local outputs: single or LEAD, the outgoing module until it halts (R470-R472). -/
def drives (m : Mod) : Bool := serving m && mode m != .shadow && (leads m || m.pr.outgoing)

/-- SWO7: LEAD, single, or SHADOW in step (R470). -/
def aliveWire (m : Mod) : Bool := drives m || (mode m == .shadow && m.pr.instep)

/-- The local drive image: SWO6 claims the drive, SWO7 shows the module alive, SHADOW holds every other output open, and a channel
held off stays off (R169, R264, R470, R471). -/
def driveImage (m : Mod) : BitVec 64 :=
  let app := if drives m then (appDrives m).filter (fun k => decide (k < 62)) ++ [62] else []
  let on := (app ++ (if aliveWire m then [63] else [])).filter (fun k => !heldOff m k)
  on.foldl (fun v k => v ||| BitVec.ofNat 64 (2 ^ k)) 0

/-! ## Digests (R97, R98) -/

def tyNo : Ty → Nat
  | .none => 0
  | .bool => 1
  | .state4 => 2
  | .enum8 => 3
  | .int16 => 4
  | .int32 => 5
  | .uint32 => 6
  | .dur => 7
  | .tstamp => 8
  | .obj => 9
  | .reqtag => 10

def srcNat : SubSrc → Nat
  | .ring q | .lead q => q.val
  | .service => 32

def accNats (a : Accepted) : List Nat := [srcNat a.src, a.opc, a.tag.toNat]

/-- A host command as the lanes hold it: its entry and what its address points to. -/
def subNats (s : Submission) : List Nat :=
  [srcNat s.src, s.index, s.opc, b2n s.crit, s.task, s.tag.toNat, s.nscn] ++ s.oper.map (·.toNat) ++ s.blob.map (·.toNat)

/-- Host commands accepted in this station cycle. -/
def acceptedNow (m : Mod) : List Submission := if m.host.cycleAt = scn m + 1 then m.host.cycleSubs else []

def tcbNats (x : Tcb) : List Nat :=
  [b2n x.active, x.pc, x.instrs, x.sliceLeft, x.relScn, x.relBcn, x.nominal, x.trig, x.trigWait, x.startKind, x.heats.toNat, b2n x.parked, x.cursor] ++
  x.regs.toList.flatMap (fun r => [tyNo r.ty, r.val.toNat]) ++ x.calls.flatMap (fun c => [c.ret, c.depth]) ++
  x.loops.flatMap (fun l => [l.start, l.fin, l.count]) ++
  (x.cmds ++ x.cmdsWait).flatMap (fun c => accNats c.sub ++ c.words.map (·.toNat) ++ [b2n c.fetched, b2n c.done]) ++
  x.inCopy.flatMap (fun e => [e.1, e.2.val.toNat, e.2.quality]) ++ [x.deferAt]

/-- A pending request table entry: 16 bytes, zero where a route has no request (R218). -/
def pendBytes (p : Option PendReq) : List Byte :=
  match p with
  | none => List.replicate 16 0
  | some p => bytesLE 4 p.tag.toNat ++ bytesLE 4 (p.prio + 256 * p.blk) ++ bytesLE 4 p.arrival ++ bytesLE 4 0

/-- A route state entry: 32 bytes (R217). The releasing bit follows from MREL. -/
def routeBytes (r : RouteSt) : List Byte :=
  bytesLE 8 r.mrel.toNat ++ bytesLE 6 r.fheld.toNat ++ bytesLE 2 r.orel.toNat ++
  bytesLE 1 (r.state + 4 * b2n (r.mrel != 0) + 8 * b2n r.carried) ++ bytesLE 1 (r.ovl + 4 * b2n r.noOvl) ++ bytesLE 2 r.lgen ++
  bytesLE 4 r.lscn.toNat ++ bytesLE 4 r.ltag.toNat ++ bytesLE 4 r.base

/-- The candidate words, whose bits the manual does not give: an open layout (log entry 20). -/
def candNats (m : Mod) : List Nat := m.en.cands.flatMap (fun c => [c.route, c.mask, c.proposed, c.flank.toNat, b2n c.gone])

/-- What the engine digest covers: locked-route vector, pending request table, candidate list, element lock table, route state table
(R97, R214). -/
def engineBytes (m : Mod) : List Byte :=
  bytesLE 512 m.en.locked.toNat ++ (List.range 4096).flatMap (fun r => pendBytes (pendOf m r)) ++ Config.layoutBytes 0 (candNats m) ++
  (List.range 14528).flatMap (fun i => bytesLE 4 (tabGet 0 m.en.elems i).toNat) ++
  (List.range 4096).flatMap (fun r => routeBytes (routeSt m r))

/-- The remote input image of a connection as a lane computes on it: SEQ and telegram, or the SEQ of its own choice (R96). -/
def remoteNats (x : Lane) (e : Nat × ConnSt) : List Nat :=
  match tabFind x.ownChoice e.1 with
  | some q => [e.1, e.2.state, q]
  | none => [e.1, e.2.state, (e.2.chosen.map (·.seq + 1)).getD 0] ++ ((e.2.chosen.map (·.tel)).getD []).map (·.toNat)

/-- What the control digest of a lane covers: its station 0 image and group voltages as it agreed them and the pending table of critical
commands among the rest (R93, R97, R442). -/
def controlNats (m : Mod) (x : Lane) : List Nat :=
  m.lg.insts.flatMap (fun e => [e.1, (e.2.prev.map b2n).getD 2, b2n e.2.running, e.2.start, e.2.due, (e.2.count % 2 ^ 32).toNat]) ++
  m.lg.tcbs.flatMap (fun e => e.1 :: tcbNats e.2) ++
  m.md.forces.flatMap (fun f => [b2n f.isObj, f.ref, f.tag, f.val.toNat, f.area]) ++
  [m.md.areas.toNat, modeCode (mode m)] ++ m.fio.image.map (·.toNat) ++ x.image.map (·.toNat) ++ x.gvolt ++ x.gLow ++
  m.host.crit.flatMap (fun e => e.1 :: e.2.seq :: e.2.data.map (·.toNat)) ++
  m.bt.conns.flatMap (remoteNats x) ++ (acceptedNow m).flatMap subNats

/-- The bytes of the allocated ranges of the next image. -/
def allocBytes (m : Mod) : List Byte := m.lg.app.alloc.flatMap (fun r => memRead m.nxt r.1 r.2)

/-- A static slice of this station cycle (R97, R102). -/
def sliceNo (m : Mod) : Nat := scn m % 1280

/-- One byte of the static regions in their order: JIC code (16 MiB), conflict matrix (2 MiB), route element tables (2 MiB): R19, R97,
R207-R209. -/
def staticByte (app : AppImage) (k : Nat) : Byte :=
  if k < 0x1000000 then BitVec.ofNat 8 ((app.code.getD (k / 4) 0).toNat / 256 ^ (k % 4))
  else if k < 0x1200000 then BitVec.ofNat 8 ((matrixRow app ((k - 0x1000000) / 512)).toNat / 256 ^ (k % 512))
  else
    let j := k - 0x1200000
    if j < 0x4000 then BitVec.ofNat 8 ((tabGet 0 app.dir (j / 4)).toNat / 256 ^ (j % 4))
    else BitVec.ofNat 8 ((tabGet 0 app.pool ((j - 0x4000) / 4)).toNat / 256 ^ (j % 4))

/-- The 16 KiB of static slice `i`. -/
def sliceBytes (app : AppImage) (i : Nat) : List Byte := (List.range 16384).map (fun j => staticByte app (i * 16384 + j))

/-- Group isolators in byte 72 of an offer, bit g for group g. DESIGN CHOICE (log entry 54): the manual names the bits and gives them no
sense; 1 is commanded open. -/
def isoBits (m : Mod) : Nat := (m.fio.groups.zipIdx.filter (fun p => p.1.isoOpen)).foldl (fun n p => n + 2 ^ p.2) 0

/-- The lane computed on remote input images of its own choice: what it computed from them, the model keeps no copy of (R96). -/
def ownCourse (m : Mod) (l : LaneId) : Bool := !(m.ln.get l).ownChoice.isEmpty

/-- What a lane computed: `agreed`, or of a lane that computed on its own choice a free value (R96, log entry 63). -/
def computed (m : Mod) (l : LaneId) (k : Nat) (agreed : W64) : W64 :=
  if ownCourse m l then Config.freeValue (m.freeN + 4 * laneNo l + k) else agreed

/-- The running lane whose digests are the agreed ones: the lowest that computed on the agreed choice. -/
def courseLane (m : Mod) : LaneId := ((aliveLanes m).find? (fun l => !ownCourse m l)).getD (refLane m)

/-- The offer a lane forms from the state it computed (R96, R102). -/
def offerOf (m : Mod) (l : LaneId) : Offer :=
  { mode := BitVec.ofNat 8 (modeCode (mode m)),
    flags := xFlags m,
    var := computed m l 0 (crc64 (allocBytes m)),
    eng := computed m l 1 (crc64 (engineBytes m)),
    ctrl := crc64 (Config.layoutBytes 1 (controlNats m (m.ln.get l))),
    stat := crc64 (sliceBytes m.lg.app (sliceNo m)),
    slice := BitVec.ofNat 16 (sliceNo m), res1 := 0,
    remote := computed m l 2 (crc64 (m.bt.bodies.flatMap (·.2))),
    drive := computed m l 3 m.lg.drive, iso := BitVec.ofNat 8 (isoBits m), res2 := 0,
    snap := BitVec.ofNat 32 (phaseOf (m.ln.get l).time) }

/-! ## The snapshot (R97, R168, R202) -/

/-- The last release of a task in this cycle below phase 14,500, if it has one: its moment. -/
def dueRelease (m : Mod) (d : TaskDesc) : Option Nat :=
  let c := scn m * 20000000
  match d.kind with
  | .cyc5 => some (c + 10600000)
  | .cyc20 => some (c + 1500000)
  | .evMain => if hasWork m d then some (c + 1500000) else none
  | .slow | .evSlack => none

/-- Every heat whose release phase is below 14,500 has been released and is over; parked tasks count as completed (R97). -/
def mainDone (m : Mod) : Bool :=
  m.lg.app.tasks.all (fun d =>
    let x := tcbOf m d.num
    let released := match dueRelease m d with
      | some t => decide (t < m.md.serveAt) || decide (t / 5000000 + 1 ≤ (if d.kind = .cyc5 then tabGet 0 m.md.fired (6000 + d.num)
          else tabGet 0 m.md.fired (6000 + d.num) * 4))
      | none => true
    x.parked || d.kind == .slow || d.kind == .evSlack || (released && !x.active))

/-- Copy the blocks of every task whose latest heat has completed from the next image to the current image (R168). -/
def publish (m : Mod) : Mod :=
  let ready := m.lg.app.tasks.filter (fun d => (tcbOf m d.num).fresh)
  let copy (r : Nat × Nat) (img : Memory) : Memory := memWrite img r.1 (memRead m.nxt r.1 r.2)
  let m1 := { m with cur := ready.foldl (fun img d => d.blocks.foldl (fun i r => copy r i) img) m.cur }
  updLg (fun g => { g with tcbs := g.tcbs.map (fun e => (e.1, { e.2 with fresh := false })) }) m1

/-- Every padding byte is zeroed. -/
def zeroPads (m : Mod) : Mod :=
  { m with nxt := m.lg.app.pad.foldl (fun img r => memWrite img r.1 (List.replicate r.2 0)) m.nxt,
           cur := m.lg.app.pad.foldl (fun img r => memWrite img r.1 (List.replicate r.2 0)) m.cur }

/-- Bodies of this cycle's output telegrams, in connection order (R169, R344). -/
def formBodies (m : Mod) : Mod :=
  let cs := if serving m then dueConns m else []
  let bodies := cs.foldl (fun t c => tabPut t c.num (bodyOf m c (outForced m c) (outData m c))) ([] : Tab (List Byte))
  let forced := cs.foldl (fun t c => tabSet false t c.num (outForced m c)) ([] : Tab Bool)
  updBt (fun b => { b with bodies := bodies, forced := forced }) m

/-- The main-window margin of this cycle in µs, the least among the voting lanes (R200, R202): from the lane's snapshot where no heat of
the window ran; otherwise the moment of its last heat's end is open, from the first release at phase 600 to the snapshot. -/
def mainMargin (v : Nat) (m : Mod) : Nat :=
  let snap := (voters m).foldl (fun a l => min a (14500 - phaseOf (m.ln.get l).time)) (14500 - phase m)
  if m.lg.ranMain = scn m + 1 then snap + v % (13900 - snap + 1) else snap

/-- The slack-window margin of the cycle before in µs (R202): 4,000 where neither heat nor slice nor hurdle ran; from the end of the
hurdle where one ran, open between phase 16,100 and 17,600 (R142); otherwise open. -/
def slackMargin (w : Nat) (m : Mod) : Nat :=
  if m.lg.ranSlack = scn m then w % 4001
  else if tabGet 0 m.md.fired 12 = scn m ∧ m.md.hurdleOff ≠ scn m then 2400 + w % 1501
  else 4000

/-- Window margins (R202). -/
def noteMargins (m : Mod) : Mod :=
  let (v, m1) := takeFree m
  let (w, m2) := takeFree m1
  updLg (fun g => { g with mainMar := (mainMargin v.toNat m :: g.mainMar).take 1000,
                           slkMar := if g.snapScn = 0 then g.slkMar else (slackMargin w.toNat m :: g.slkMar).take 1000 }) m2

/-- Unit 0 after the digests of a lane: the static slice is fed in pieces between the others, its context saved and restored at each switch
(R500, R502). Where it is cut is open and changes no value. -/
def digestUnit (m : Mod) (x : Lane) : CvUnit :=
  let slice := sliceBytes m.lg.app (sliceNo m)
  let first := cvuOn 2 (slice.take 8192) none
  let others := [allocBytes m, engineBytes m, Config.layoutBytes 1 (controlNats m x), m.bt.bodies.flatMap (·.2)]
  ((others.foldl (fun _ bs => cvuOn 2 bs none) first).restore first.context).feed (slice.drop 8192)

/-- A lane offers what it holds; a snapshot after 14,500 of its own station time is told with event 0x2B and counted as a late
step, and after 15,000 no offer leaves in time (R104, R107, R487). Told per lane with the lane's own SRC: a DESIGN CHOICE (log entry 54). -/
def offerLane (l : LaneId) (m : Mod) : Mod :=
  let x := m.ln.get l
  let o := offerOf m l
  let p := phaseOf x.time
  if !x.alive then m
  else if 15000 < p then updLane l (fun y => { y with late := true, ownOffer := none }) m
  else
    let m1 := updLane l (fun y => sendXNow m l xOffer (offerPayload o)
      { y with cvu := tabSet CvUnit.fresh y.cvu 0 (digestUnit m x), late := decide (14500 < p), ownOffer := some o, offerRx := y.offerRx.set l (some { fingerprint := fingerprint o, offer := o }) }) m
    onlyIf (decide (14500 < p)) (fun n => raise 0x2B { src := laneSrc l, arg0 := laneNo l } (pcEvent l 0x0A n)) m1

/-- SNAPSHOT: once the pass and the due heats are complete (R97). -/
def doSnapshot (m : Mod) : Mod :=
  if !operating m || !m.tm.taken || m.en.passScn != scn m + 1 || m.lg.snapScn == scn m + 1 || (runsApp m && !mainDone m) then m
  else
    let m1 := publishEngine (zeroPads (publish (noteMargins m)))
    let m2 := formBodies (updLg (fun g => { g with drive := driveImage m1, snapScn := scn m1 + 1 }) m1)
    let m3 := forEach allLanes offerLane (updLg (fun g => { g with digests := some (offerOf m2 (courseLane m2)) }) m2)
    { m3 with freeN := m3.freeN + 12 }

def execSnapshot (s : State) : Host.Outcome State Fault Refusal := s.run doSnapshot

end Sys2Proof.Machine
end

