-- ==== Sys2Proof/Machine/ImageCheck.lean ====
section
/-! DEFINITION. The content stage of the image header check (R530): engine tables (R213), pool prefix (R235), connection table
(R339-R343, R355), pair bindings (R465), network settings (R294, R295, R300, R379, R384, R526). A value equal to a limit passes. -/

namespace Sys2Proof.Machine

/-! ## The declared figures (R4-R6, R19, R160, R177, R180, R190): the header stage's step 7 -/

/-- Period of a cyclic task in ms; event tasks have none (R175). -/
def periodMs (d : TaskDesc) : Option Nat :=
  match d.kind with
  | .cyc5 => some 5
  | .cyc20 => some 20
  | .slow => some (20 * d.period)
  | .evMain | .evSlack => none

/-- Counts of R4 that an application declares; a count equal to its limit is accepted (R5). -/
def countsOk (d : AppDecl) : Bool :=
  decide (d.routes ≤ 4096) && decide (d.points ≤ 2048) && decide (d.signals ≤ 4096) && decide (d.sections ≤ 8192) && decide (d.crossings ≤ 128) &&
  decide (d.areas ≤ 64) && decide (d.objects ≤ 32768) && decide (d.words ≤ 262144)

/-- Section sizes and counts against the regions of R19 and the table of R160. -/
def regionsOk (d : AppDecl) : Bool :=
  let size (i : Nat) : Nat := d.secs.getD i 0
  decide (((d.tasks.filter (fun t => (periodMs t).isSome)).length) ≤ 16) && decide ((d.tasks.filter (fun t => (periodMs t).isNone)).length ≤ 16) &&
  decide ((((List.range 8).map (fun i => size (i + 1))).foldl (· + ·) 0) ≤ 16777216) && decide (d.kpool ≤ 65536) && decide (d.timers ≤ 16384) &&
  decide (d.counters ≤ 4096) && decide (d.edges ≤ 16384) && decide (size 9 ≤ 2097152) && decide (size 10 ≤ 2097152)

/-- Task numbers and priorities: numbers 0-15 for cyclic and 16-31 for event tasks, no priority twice, the shorter period the higher
priority (R171, R177). -/
def prioritiesOk (ts : List TaskDesc) : Bool :=
  ts.all (fun a =>
    decide (a.prio ≤ 31) && (if (periodMs a).isSome then decide (a.num ≤ 15) else decide (16 ≤ a.num) && decide (a.num ≤ 31)) &&
    (ts.filter (fun b => b.prio == a.prio)).length == 1 && (ts.filter (fun b => b.num == a.num)).length == 1 &&
    ts.all (fun b => match periodMs a, periodMs b with
      | some p, some q => decide (q ≤ p) || decide (a.prio < b.prio)
      | _, _ => true))

/-- A heat of the main window in the timing check: priority, cycles left, and whether it is a 5 ms heat. -/
structure Load where
  prio : Nat
  left : Nat
  short : Bool
  deriving DecidableEq, Repr

def heatLoad (d : TaskDesc) : Load := { prio := d.prio, left := d.worstHeat, short := d.kind == .cyc5 }

/-- `us` µs at 900 MHz go to the heats in the order of their priorities. -/
def runLoads (us : Nat) (hs : List Load) : List Load :=
  let one (acc : Nat × List Load) (h : Load) : Nat × List Load :=
    let n := min acc.1 h.left
    (acc.1 - n, acc.2 ++ (if h.left = n then [] else [{ h with left := h.left - n }]))
  ((sortBy (fun a b => decide (a.prio < b.prio)) hs).foldl one (900 * us, [])).2

/-- Heats are released: a running heat of lower priority is pre-empted and resumed once, at 1,500 cycles (R178). -/
def release (new hs : List Load) : List Load :=
  match sortBy (fun a b => decide (a.prio < b.prio)) hs with
  | [] => new
  | h :: r => (if new.any (fun n => decide (n.prio < h.prio)) then { h with left := h.left + 1500 } else h) :: r ++ new

def noShort (hs : List Load) : Bool := hs.all (fun h => !h.short)

/-- Every heat of the main window completes by its deadline, at 900 MHz and the declared figures: 5 ms heats released at 600, 5,600 and
10,600, the others at 1,500, the freeze work from 1,000 to 1,080 left free, the end at 14,500 (R175, R178, R180). -/
def mainFits (ts : List TaskDesc) : Bool :=
  let s5 := (ts.filter (fun d => d.kind == .cyc5)).map heatLoad
  let main := (ts.filter (fun d => d.kind == .cyc20 || d.kind == .evMain)).map heatLoad
  let a := runLoads 420 (runLoads 400 s5)
  let b := runLoads 4100 (release main a)
  let c := runLoads 5000 (release s5 b)
  let d := runLoads 3900 (release s5 c)
  noShort b && noShort c && d.isEmpty

/-- The three conditions of R180; a demand equal to a limit is accepted. -/
def timingOkDecl (ts : List TaskDesc) : Bool :=
  let slack := (ts.map (fun d => match d.kind with
    | .cyc5 | .evSlack => d.worstHeat
    | .slow => d.worstSlice
    | .cyc20 | .evMain => 0)).foldl (· + ·) 0
  mainFits ts && decide (slack ≤ 2250000) &&
  (ts.filter (fun d => d.kind == .slow)).all (fun d => decide (0 < d.slice) && decide ((d.maxInstr + d.slice - 1) / d.slice ≤ d.period))

/-- Kind 4 at step 7: R5, R19, R160, R177, R180 and R190 (R529). -/
def declOk (d : AppDecl) : Bool :=
  countsOk d && regionsOk d && prioritiesOk d.tasks && timingOkDecl d.tasks && (d.tasks.filter (·.route)).length == 1

/-- Kind 5 at step 7: R6, with the total of R4. -/
def netDeclOk (d : NetDecl) : Bool := d.stations.all (fun n => decide (n ≤ 128)) && decide (d.stations.foldl (· + ·) 0 ≤ 512)

/-! ## The variable image (R164-R166) -/

/-- Section of a variable: 0 OUT, 1 RET, 2 VAR. -/
def sectionOf (v : VarDesc) : Nat := if v.output then 0 else if v.retained then 1 else 2

/-- The task blocks: task, first address, length. -/
def taskBlocks (app : AppImage) : List (Nat × Nat × Nat) := app.tasks.flatMap (fun t => t.blocks.map (fun b => (t.num, b.1, b.2)))

/-- Sections of the variables that lie in a block. -/
def blockSections (app : AppImage) (b : Nat × Nat × Nat) : List Nat :=
  ((app.vars.filter (fun v => v.owner == b.1 && decide (b.2.1 ≤ v.addr) && decide (v.addr < b.2.1 + b.2.2))).map sectionOf).eraseDups

/-- The division into task blocks: no two overlap; each holds variables of one section, and no task has two in a section; the allocated
ranges are the blocks, in the order of their addresses (R164). -/
def blocksOk (app : AppImage) : Bool :=
  let bs := taskBlocks app
  bs.zipIdx.all (fun p => bs.zipIdx.all (fun q => p.2 == q.2 || !overlaps p.1.2.1 p.1.2.2 q.1.2.1 q.1.2.2)) &&
  bs.all (fun b => (blockSections app b).length == 1 &&
    (bs.filter (fun c => c.1 == b.1 && blockSections app c == blockSections app b)).length == 1) &&
  app.alloc == sortBy (fun a b => decide (a.1 < b.1)) (bs.map (·.2))

/-- The variable image of an application: within its 1 MiB, OUT before RET before VAR, blocks on 64-byte boundaries, each variable in a block
of its task, no VID twice, RET at most 65,536 words (R164-R166). -/
def imageLaid (app : AppImage) : Bool :=
  let blocks := taskBlocks app
  blocksOk app && blocks.all (fun b => b.2.1 % 64 == 0 && decide (b.2.1 + b.2.2 ≤ 1048576)) &&
  app.vars.all (fun v => blocks.any (fun b => b.1 == v.owner && decide (b.2.1 ≤ v.addr) && decide (v.addr + varBytes v ≤ b.2.1 + b.2.2)) &&
    (app.vars.filter (fun w => w.vid == v.vid)).length == 1 &&
    app.vars.all (fun w => decide (sectionOf w ≤ sectionOf v) || decide (v.addr < w.addr))) &&
  decide ((((app.vars.filter (fun v => sectionOf v == 1)).map varBytes).foldl (· + ·) 0) ≤ 262144)

/-! ## Engine tables (R213) -/

/-- The lists an entry can stand in: the first main entry, another main entry, the flank list, an overlap alternative. -/
inductive PoolList where
  | entrySignal | main | flank | overlap
  deriving DecidableEq, Repr

/-- Element kind that a condition asks for, and the lists it may stand in (R211). -/
def condFits (l : PoolList) (cond kind : Nat) : Bool :=
  match l, cond with
  | .entrySignal, 4 => kind == 2
  | .entrySignal, _ => false
  | .main, 1 | .main, 2 | .overlap, 1 | .overlap, 2 | .flank, 1 | .flank, 2 => kind == 1
  | .main, 3 | .overlap, 3 => kind == 3
  | .main, 5 | .flank, 5 => kind == 2
  | .main, 6 | .overlap, 6 => kind == 4
  | .main, 7 | .overlap, 7 => kind == 5
  | _, _ => false

def poolEntryOk (l : PoolList) (e : PoolEntry) : Bool :=
  condFits l e.cond e.kind && (match kindTop e.kind with
    | some top => decide (e.idx ≤ top)
    | none => false) &&
  (if l = .flank then decide (1 ≤ e.depth) && decide (e.depth ≤ 8) else e.depth == 0 && e.group == 0)

/-- No element twice in a list. -/
def noTwice : List PoolEntry → Bool
  | [] => true
  | e :: es => !(es.any (fun f => f.kind == e.kind && f.idx == e.idx)) && noTwice es

/-- No element in both lists. -/
def apart (xs ys : List PoolEntry) : Bool := xs.all (fun e => ys.all (fun f => !(f.kind == e.kind && f.idx == e.idx)))

/-- Words of a definition in the pool: H0, H1 and its entries. -/
def defSize (d : RouteDef) : Nat := 2 + (defElems d).length

/-- The definition of one valid route. -/
def defOk (app : AppImage) (r : Nat) : Bool :=
  let b := dirBase app r
  let d := routeDef app b
  let lists (l : PoolList) (es : List PoolEntry) : Bool := es.all (poolEntryOk l)
  decide (b + defSize d ≤ app.poolUsed) && d.route == r && decide (1 ≤ d.main.length) && decide (d.main.length ≤ 64) &&
  decide (d.flank.length ≤ 48) && decide (d.ovs.length ≤ 4) && d.ovs.all (fun o => decide (1 ≤ o.length) && decide (o.length ≤ 16)) &&
  lists .entrySignal (d.main.take 1) && lists .main (d.main.drop 1) && lists .flank d.flank && d.ovs.all (lists .overlap) &&
  noTwice d.main && noTwice d.flank && d.ovs.all noTwice && apart d.main d.flank &&
  d.ovs.all (fun o => apart d.main o && apart d.flank o)

/-- Routes the directory configures. -/
def validRoutes (app : AppImage) : List Nat := (app.dir.map (·.1)).filter (dirValid app)

/-- The matrix is symmetric with every diagonal bit 1, and empty beside the diagonal for a route that is not configured (R207). -/
def matrixOk (app : AppImage) : Bool :=
  let rs := app.matrix.map (·.1)
  rs.all (fun r =>
    let row := matrixRow app r
    row.getLsbD r && (dirValid app r || row == BitVec.ofNat 4096 (2 ^ r)) &&
    (List.range 4096).all (fun c => !row.getLsbD c || (matrixRow app c).getLsbD r))

/-- The four status arrays: ENUM8 arrays of 2,048, 4,096, 8,192 and 128 elements (R212). -/
def statusOk (app : AppImage) : Bool :=
  app.statusVids.length == 4 && (app.statusVids.zip [2048, 4096, 8192, 128]).all (fun p =>
    app.vars.any (fun v => v.vid == p.1 && v.ty == .enum8 && v.count == some p.2 && v.fields.isEmpty))

def engineTablesOk (app : AppImage) : Bool :=
  let rt := app.tasks.filter (·.route)
  matrixOk app && (validRoutes app).all (defOk app) && decide (app.poolUsed ≤ 520192) && statusOk app &&
  rt.length == 1 && rt.all (fun d => d.kind == .cyc20) && decide ((validRoutes app).length ≤ 4096)

/-! ## On-line change (R195, R235) -/

/-- The pool keeps the running image's entries as its leading part, and the XFER list was built against the running build. -/
def changeOk (m : Mod) (app : AppImage) : Bool :=
  let run := m.lg.app
  decide (run.poolUsed ≤ app.poolUsed) && run.pool.all (fun e => decide (run.poolUsed ≤ e.1) || tabGet 0 app.pool e.1 == e.2) &&
  app.pool.all (fun e => decide (run.poolUsed ≤ e.1) || tabGet 0 run.pool e.1 == e.2) && app.xferBase == run.build

/-! ## Connections (R339-R343, R355) -/

/-- Output and input part of a station (R294). -/
def partLens (net : NetImage) (n : Nat) : Option (Nat × Nat) := (net.stations.find? (fun d => d.num == n)).map (fun d => (d.outLen, d.inLen))

/-- The connections a far end can have: IDX, kind, DIR and PER of a station, of a CAN FD node, of a terminal; their NUM and DLEN (R340, R341,
R343, R345, R370, R390). -/
def cidOk (cs : List ConnDesc) (c : ConnDesc) : Bool :=
  let num := cidNum c.cid
  let cyclic (dir : Nat) : Bool := c.kind == 1 && cidDir c.cid == dir
  let event := c.kind == 2 && cidDir c.cid == 0
  let paired := cs.all (fun o => !(cidClass o.cid == 1 && cidNum o.cid == num && cidIdx o.cid == 0) || (o.per == c.per && o.ofs == c.ofs))
  match cidClass c.cid with
  | 0 => decide (1 ≤ num) && decide (num ≤ 512) && decide (c.dlen ≤ 224) &&
      (match cidIdx c.cid with
       | 0 => cyclic 1 && c.per == 1
       | 1 => cyclic 0 && c.per == 1
       | i => event && decide (i ≤ 7))
  | 1 => decide (1 ≤ num % 64) && decide (num ≤ 255) && decide (c.dlen ∈ [0, 16, 32]) &&
      (match cidIdx c.cid with
       | 0 => cyclic 1
       | 1 => cyclic 0 && paired
       | i => event && decide (i ≤ 7))
  | 2 => decide (num ≤ 63) && decide (c.dlen ≤ 224) && c.kind == 3 && cidDir c.cid == 0 && cidIdx c.cid == 0
  | _ => false

/-- The far end's connection in the running table, whichever way it runs (R355). -/
def sameConn (a b : W32) : Bool := cidClass a == cidClass b && cidNum a == cidNum b && cidIdx a == cidIdx b && cidNid a == cidNid b

def connOk (m : Mod) (net : NetImage) (c : ConnDesc) : Bool :=
  let lim := if c.kind = 1 then (c.per + 1) * 20 else 0
  let room := match cidClass c.cid, cidIdx c.cid, partLens net (cidNum c.cid) with
    | 0, 0, some (o, _) => decide (32 + c.dlen ≤ o)
    | 0, 1, some (_, i) => decide (32 + c.dlen ≤ i)
    | _, _, _ => true
  let told := match m.lg.app.conns.find? (fun r => sameConn r.cid c.cid) with
    | some r =>
      (r.cid == c.cid && r.kind == c.kind && r.per == c.per && r.ofs == c.ofs && r.texp == c.texp && r.dlen == c.dlen && r.layoutId == c.layoutId) ||
        decide (r.epoch < c.epoch)
    | none => true
  (c.kind == 1 || ((c.kind == 2 || c.kind == 3) && cidDir c.cid == 0)) &&
  (c.kind != 1 || (decide (1 ≤ c.per) && decide (c.per ≤ 50) && decide (c.ofs < c.per))) &&
  decide (40 ≤ c.texp) && decide (c.texp ≤ 2000) && decide (lim ≤ c.texp) && room && told &&
  decide (1 ≤ c.epoch) && decide (c.epoch + rebindsOf m (cidClass c.cid) (cidNum c.cid) ≤ 65535)

def connTableOk (m : Mod) (net : NetImage) (app : AppImage) : Bool :=
  let cs := app.conns
  let twice := cs.any (fun a => cs.any (fun b => a.num != b.num && a.cid == b.cid))
  decide (cs.length ≤ 4096) && decide ((cs.filter (fun c => cidDir c.cid == 0)).length ≤ 2047) &&
  decide ((cs.filter (fun c => c.kind == 3)).length ≤ 64) && !twice && cs.all (connOk m net) && cs.all (cidOk cs) &&
  cs.all (fun c => decide (1 ≤ cidNid c.cid) && cs.all (fun d => cidNid d.cid == cidNid c.cid)) && cs.zipIdx.all (fun p => p.1.num == p.2)

/-! ## Pair bindings (R465) -/

/-- In a provisioned pair OMAP binds the cross wires to nothing: SWI6, SWI7 are inputs 102 and 103, SWO6, SWO7 drives 62 and 63. -/
def pairBindOk (m : Mod) (app : AppImage) : Bool :=
  !m.nv.paired ||
    (!(app.objs.any (fun o => o.inb == .chan 102 || o.inb == .chan 103 || o.inb == .driveWord 62 || o.inb == .driveWord 63)) &&
     !(app.outs.any (fun o => o.2.2 == .drive 62 || o.2.2 == .drive 63)))

/-! ## Network settings -/

/-- Length of a window in µs: exclusive, arbitrating or entry. -/
def windowLen (w : WindowDesc) : Nat := if w.kind = 0 then 60 else 100

/-- A window word: a listed kind, bits [19:13] zero, and a station number in an exclusive window only (R298). -/
def wordOk (w : W32) : Bool :=
  let k := fieldOf w.toNat 30 2
  decide (k ≤ 2) && fieldOf w.toNat 13 7 == 0 && (k == 0 || fieldOf w.toNat 20 10 == 0)

/-- The words of a schedule: a number 0-7, lists for the four segments and four basic cycles only. -/
def schedShape (d : SchedDesc) : Bool :=
  decide (d.num ≤ 7) && d.words.length == 4 && d.words.all (fun s => s.length == 4 && s.all (fun b => b.all wordOk))

/-- The windows of one schedule (R300). -/
def schedOk (net : NetImage) (ws : List WindowDesc) : Bool :=
  let clash (p q : WindowDesc × Nat) : Bool :=
    p.2 != q.2 && p.1.seg == q.1.seg && p.1.bcn == q.1.bcn && overlaps p.1.off (windowLen p.1) q.1.off (windowLen q.1)
  let at_ (w : WindowDesc) : Nat := w.bcn * 5000 + w.off
  let near (p q : WindowDesc × Nat) : Bool :=
    p.2 != q.2 && p.1.kind == 1 && q.1.kind == 1 && p.1.seg == q.1.seg && decide ((at_ q.1 + 20000 - at_ p.1) % 20000 < 600)
  let ix := ws.zipIdx
  ws.all (fun w => decide (w.kind ≤ 2) && decide (w.bcn ≤ 3) && decide (100 ≤ w.off) && decide (w.off + windowLen w ≤ 5000) &&
    !(w.bcn == 2 && decide (4200 ≤ w.off) && decide (w.off < 4850)) &&
    !(w.bcn == 0 && decide (8000000 < w.off * 10000 + worstTenths net w.seg) && decide (w.off < 1000))) &&
  ix.all (fun p => ix.all (fun q => !clash p q && !near p q)) &&
  net.stations.all (fun d =>
    let mine := ws.filter (fun w => w.kind == 0 && w.station == d.num)
    mine.length == 1 && mine.all (fun w => w.seg == d.seg))

/-- Station table and schedules (R6, R8, R294, R295, R300). -/
def stationsOk (net : NetImage) : Bool :=
  net.stations.all (fun d => decide (d.seg < 4) && decide (128 * d.seg < d.num) && decide (d.num ≤ 128 * d.seg + 128) &&
    (net.stations.filter (fun e => e.num == d.num)).length == 1 && decide (1 ≤ d.pos) &&
    decide (d.pos ≤ (net.stations.filter (fun e => e.seg == d.seg)).length) &&
    (net.stations.filter (fun e => e.seg == d.seg && e.pos == d.pos)).length == 1) &&
  decide (net.stations.length ≤ 512) && decide (net.scheds.length ≤ 8) &&
  net.stations.all (fun d => decide (d.outLen ≤ 256) && decide (d.inLen ≤ 256) && decide (110 + d.outLen + d.inLen ≤ 622)) &&
  (List.range 4).all (fun i => decide ((net.stations.filter (fun d => d.seg == i)).length ≤ 128) && decide (worstTenths net i ≤ 4000000)) &&
  net.scheds.all (fun s => schedShape s && (net.scheds.filter (fun t => t.num == s.num)).length == 1 && schedOk net (schedWindows s))

/-- Node table (R378, R379, R384, R390), at the bit timing in force. -/
def nodesOk (m : Mod) (net : NetImage) : Bool :=
  (List.range 4).all (fun n =>
    let ds := net.nodes.filter (fun d => d.chan == n)
    decide (ds.length ≤ 32) && net.nodes.all (fun d => decide (d.chan ≤ 3) && decide (d.per ≤ 50)) && ds.all (fun d => decide (1 ≤ d.addr) && decide (d.addr ≤ 63) && decide (d.dlen0 ∈ [0, 16, 32]) && decide (d.dlen1 ∈ [0, 16, 32]) &&
      decide (d.events ≤ 6) && decide (d.ofs < d.per) && (ds.filter (fun e => e.addr == d.addr)).length == 1) &&
    scheduleOk ds (chanOf m n).bt (chanOf m n).dt)

/-- The schedule is in force, or announced to come into force (R328). -/
def schedInForce (m : Mod) (s : SchedDesc) : Bool := s.num == m.str.sched || (m.str.swPend && s.num == m.str.swNext)

/-- An on-line change keeps every entry, and every schedule in force, unchanged (R526). -/
def netKept (m : Mod) (net : NetImage) : Bool :=
  m.net.stations.all (fun d => net.stations.contains d) && m.net.nodes.all (fun d => net.nodes.contains d) &&
  m.net.scheds.all (fun s => !schedInForce m s || net.scheds.contains s)

def networkOk (m : Mod) (online : Bool) (net : NetImage) : Bool := stationsOk net && nodesOk m net && (!online || netKept m net)

/-- What is staged beside an image that is checked: the application, and the network settings. -/
structure Staged where
  app : Option AppImage
  hdr : Option ImgHeader
  net : Option NetImage
  deriving DecidableEq, Repr

/-- The content stage: the code of the first check that fails, 0 when all pass (R530). `copies` are the payloads that the lanes read back
from their own banks, those of one image; where they differ the code is 7, before any other: what a lane would find in a bank of its own that
differs is not asked first, a DESIGN CHOICE (log entry 57). An image whose variables break R164 to R166, which R530 lists no check for, is
refused with code 8, as log entry 57 says. The application and the network settings staged together are held against each other whichever was
staged first: the connections against the lengths of the stations (R343), code 4; an on-line change against R526, code 6. -/
def contentCode (m : Mod) (staged : Staged) (h : ImgHeader) (copies : List (List Byte)) : Nat :=
  let online := bitOf h.hfl 0
  let payload := copies.headD []
  let app := { Config.appOf payload with build := h.version, payload := payload }
  let net := staged.net.getD m.net
  if copies.any (fun c => c != payload) then 7
  else if sha256 payload ≠ h.pdig then 1
  else if h.kind = 4 then
    if !engineTablesOk app then 2
    else if online && !changeOk m app then 3
    else if !connTableOk m net app then 4
    else if !pairBindOk m app then 5
    else if online && !netKept m net then 6
    else if app.secs ≠ (Config.declOf h.decl).secs ∨ !imageLaid app then 8
    else 0
  else if h.kind = 5 then
    let new := Config.netOf payload
    if staged.app.any (fun a => !connTableOk m new a) then 4
    else if !networkOk m (staged.hdr.any (fun x => bitOf x.hfl 0)) new then 6
    else 0
  else 0

end Sys2Proof.Machine
end

