-- ==== Sys2Proof/Machine/Update.lean ====
section
/-! DEFINITION. Firmware and application update (R524-R553): sessions, the header and content stages, chunks, activation, commit,
object-controller firmware. -/

namespace Sys2Proof.Machine

/-! ## Parts and banks (R524, R525) -/

/-- Part of an image kind: 0 front end, 1 I/O controller, 2 program banks, 3 network settings. -/
def partOf (kind : Nat) : Nat :=
  match kind with
  | 1 => 0
  | 2 => 1
  | 3 | 4 => 2
  | _ => 3

/-- Number of the inactive bank of a part. -/
def inactive (m : Mod) (part : Nat) : Nat := 1 - b2n (bitOf m.nv.banks.act part)

def updBanks (f : Banks → Banks) (m : Mod) : Mod := updNv (fun n => { n with banks := f n.banks }) m

/-- Change bank `b` of a part held in the front end or the I/O controller. -/
def updPart (part b : Nat) (f : PartBank → PartBank) (m : Mod) : Mod :=
  updBanks (fun k =>
    match part, b with
    | 0, 0 => { k with fe0 := f k.fe0 }
    | 0, _ => { k with fe1 := f k.fe1 }
    | 1, 0 => { k with io0 := f k.io0 }
    | 1, _ => { k with io1 := f k.io1 }
    | _, 0 => { k with ns0 := f k.ns0 }
    | _, _ => { k with ns1 := f k.ns1 }) m

def partBank (m : Mod) (part b : Nat) : PartBank :=
  let k := m.nv.banks
  match part, b with
  | 0, 0 => k.fe0
  | 0, _ => k.fe1
  | 1, 0 => k.io0
  | 1, _ => k.io1
  | _, 0 => k.ns0
  | _, _ => k.ns1

/-- Lanes that take part in an update: the voting lanes, in RECOVERY those that run. -/
def updateLanes (m : Mod) : List LaneId := if (voters m).isEmpty then aliveLanes m else voters m

def setProg (b : Nat) (f : LaneNv → ProgBank → ProgBank) (m : Mod) : Mod :=
  let ls := updateLanes m
  updLanes (fun l x =>
    if l ∈ ls then
      { x with nv := if b = 0 then { x.nv with bank0 := f x.nv x.nv.bank0 } else { x.nv with bank1 := f x.nv x.nv.bank1 } }
    else x) m

/-- The inactive bank of a part is not usable, and what was verified in it is no longer. -/
def spoilBank (kind : Nat) (m : Mod) : Mod :=
  let p := partOf kind
  let b := inactive m p
  let m1 := if p = 2 then setProg b (fun _ x => { x with usable := false }) m else updPart p b (fun x => { x with usable := false }) m
  updBanks (fun k => { k with verified := k.verified.filter (fun e => e.1 != kind) }) m1

/-- The verified image of a kind. -/
def verifiedHdr (m : Mod) (kind : Nat) : Option ImgHeader := (m.nv.banks.verified.find? (fun p => p.1 == kind)).map (·.2)

/-- The content stage has passed: the inactive bank holds the image. A program bank gets the half that is not staged from the active
bank of the same lane, unless that half has been staged too (R525). -/
def writeBank (h : ImgHeader) (payload : List Byte) (m : Mod) : Mod :=
  let p := partOf h.kind
  let b := inactive m p
  let m1 :=
    if p = 2 then
      let other := (verifiedHdr m (7 - h.kind)).isSome
      setProg b (fun nv x =>
        let act := if b = 0 then nv.bank1 else nv.bank0
        let base := if other then x else { act with usable := x.usable }
        if h.kind = 3 then { base with fwVersion := h.version, fw := payload, sver := h.sver, smin := h.smin, usable := true }
        else { base with appBuild := h.version, payload := payload, usable := true }) m
    else updPart p b (fun _ => { version := h.version, sver := h.sver, smin := h.smin, payload := payload, usable := true }) m
  updBanks (fun k => { k with verified := k.verified.filter (fun e => e.1 != h.kind) ++ [(h.kind, h)], fail := setBit k.fail p false }) m1

/-! ## Refusals (R549, R552) -/

/-- A refused update command shows in UPDSTS; one of LEAD's host is none of SHADOW's own (R533, R549). -/
def noteRefused (a : Accepted) (code detail : Nat) (m : Mod) : Mod :=
  match a.src with
  | .lead _ => m
  | .ring _ | .service => updUp (fun u => { u with lref := code, ldet := detail % 256 }) m

def refuseUp (a : Accepted) (code detail : Nat) (m : Mod) : Mod := complete a code detail (noteRefused a code detail m)

/-- A command comes from the side that opened the session and names it. SHADOW, which is updated through its service port only, applies an
activation submitted to LEAD to the session of its own service port, whose number may differ (R466, R533, R542). -/
def ofSession (x : Session) (sub : Submission) : Bool :=
  match x.src, sub.src with
  | .service, .lead _ => sub.opc == 0xE4
  | .service, .service | .ring _, .ring _ => x.num == readLE sub.oper 0 4
  | _, _ => false

/-- The session a command names, from its own source. -/
def sessionOf (sub : Submission) (m : Mod) : Option Session := m.up.session.filter (fun x => ofSession x sub)

/-- A command keeps its session from ending as idle (R534). -/
def putSession (x : Session) (m : Mod) : Mod := updUp (fun u => { u with session := some { x with lastAt := m.clk } }) m

/-- Condition 2: an alarm is pending (R566). -/
def alarmPending (m : Mod) : Bool := m.nv.sec.pend != 0

/-- Condition 3: FIELD-LOCKED, or the owner update lock (R546, R569). In RECOVERY, FIELD-LOCKED is judged at the header. -/
def updateLocked (m : Mod) : Bool := (m.sec.lc == .fieldLocked && mode m != .recovery) || m.nv.sec.olock

/-- Condition 4: the module drives trains (R535). -/
def inService (m : Mod) : Bool := leads m && (isRun m || mode m == .maintain)

/-- Condition 8: the station of a kind 6 session. -/
def stationHeld (m : Mod) (n : Nat) : Bool :=
  admitted m n && (mode m == .commission || (farAreas m 0 n).any (fun i => m.md.areas.getLsbD i))

/-- The first of the conditions of 0xE0 that applies, 0 when none does (R552). -/
def openRefusal (m : Mod) (kind station : Nat) : Nat :=
  if m.up.session.isSome then 1
  else if alarmPending m then 2
  else if updateLocked m then 3
  else if decide (kind ≤ 3) && inService m then 4
  else if m.pw.charge < 95 then 5
  else if (kind == 4 || kind == 5) && mode m == .run2 then 6
  else if decide (kind ≤ 3) && m.nv.banks.verified.any (fun p => decide (p.1 ≤ 3) && p.1 != kind) then 7
  else if kind == 6 && !stationHeld m station then 8
  else 0

/-- A submission of LEAD's host, as SHADOW holds it. -/
def fromLead (sub : Submission) : Bool :=
  match sub.src with
  | .lead _ => true
  | .ring _ | .service => false

/-- 0xE0: open a session (R533, R535, R546, R552). -/
def openSub (a : Accepted) (sub : Submission) (m : Mod) : Mod :=
  let kind := byteAt sub.oper 0
  let stn := readLE sub.oper 2 2
  let why := openRefusal m kind stn
  if fromLead sub then refuseUp a 0x07 1 m
  else if kind = 0 ∨ 6 < kind then refuseUp a 0x03 16 m
  else if mode m == .recovery && !(kind == 1 || kind == 3 || kind == 4) then refuseUp a 0x02 (modeCode (mode m)) m
  else if why ≠ 0 then refuseUp a 0x07 why m
  else
    let n := m.up.nextNum
    let x : Session :=
      { num := n, src := sub.src, kind := kind, station := stn, lastAt := m.clk, header := none, payload := [], held := PerLane.all [],
        verified := false }
    completeWith a { cplOf a.opc a.tag 0 0 with result := bytesLE 4 n }
      (raise 0xE0 { arg1 := kind, arg2 := n } (updUp (fun u => { u with session := some x, nextNum := n % (2 ^ 32 - 1) + 1 }) m))

/-- 0xE5: close the session (R534). -/
def closeSub (a : Accepted) (sub : Submission) (m : Mod) : Mod :=
  match sessionOf sub m with
  | none => refuseUp a 0x07 1 m
  | some _ => complete a 0 0 (endSession m)

/-! ## Header stage (R527-R532) -/

/-- The fields of a header, little-endian (R527). -/
def parseHeader (b : List Byte) : ImgHeader :=
  let comp (i : Nat) : Nat × Nat × Nat := (byteAt b (80 + 12 * i), readLE b (84 + 12 * i) 4, readLE b (88 + 12 * i) 4)
  { kind := byteAt b 6, hfl := byteAt b 7, version := BitVec.ofNat 32 (readLE b 24 4), sver := readLE b 28 2, smin := readLE b 30 2,
    plen := readLE b 32 8, pdig := cut b 40 32, ockind := readLE b 72 2,
    comp := (List.range (min 8 (readLE b 74 2))).map comp, decl := cut b 176 848, raw := cut b 0 4096 }

/-- "ZL3-4096", zero-filled to 16 bytes. -/
def partName : List Byte := [0x5A, 0x4C, 0x33, 0x2D, 0x34, 0x30, 0x39, 0x36, 0, 0, 0, 0, 0, 0, 0, 0]

/-- SIG verifies under an image verification key of every lane, and VERSION is not below the floor (R528); in FIELD-LOCKED, RECOVERY
takes only the version last committed (R546). -/
def sigOk (m : Mod) (h : ImgHeader) (b : List Byte) : Bool :=
  (updateLanes m).all (fun l =>
    let k := (m.ln.get l).nv.keys
    k.ivk.zipIdx.any (fun p => p.1 && Config.imageSigOk p.2 (cut b 0 4032) (cut b 4032 64)) && decide ((tabGet 0 k.floors h.kind).toNat ≤ h.version.toNat)) &&
  !(mode m == .recovery && m.sec.lc == .fieldLocked && tabGet 0 m.nv.banks.committed h.kind != h.version)

/-- Version of each kind that runs: front end, I/O controller, lane firmware, application, network settings (R531). -/
def runningVersion (m : Mod) (kind station : Nat) : Option Nat :=
  let run (part : Nat) : Nat := b2n (bitOf m.md.runBank part)
  match kind with
  | 1 => some (partBank m 0 (run 0)).version.toNat
  | 2 => some (partBank m 1 (run 1)).version.toNat
  | 3 => some (progBank (m.ln.get (refLane m)) (runProg m)).fwVersion.toNat
  | 4 => some m.lg.app.build.toNat
  | 5 => some m.net.version.toNat
  | 6 => if (stationAt m station).adm then some (stationAt m station).fw else none
  | _ => none

/-- The running versions of a kind: of object controllers, those of every admitted station (R531). -/
def runningVersions (m : Mod) (kind : Nat) : List Nat :=
  if kind = 6 then m.net.stations.filterMap (fun d => runningVersion m 6 d.num) else (runningVersion m kind 0).toList

/-- COMP entries of the images that run; those of an object controller while its station runs the version they came with (R531). -/
def runningComps (m : Mod) : List (Nat × Nat × Nat) :=
  m.nv.banks.comps.flatMap (·.2) ++
    (m.nv.banks.ocComps.filter (fun e => runningVersion m 6 e.1 == some e.2.1.toNat)).flatMap (·.2.2)

/-- Compatibility in both directions (R531). -/
def compatOk (m : Mod) (h : ImgHeader) : Bool :=
  let within (v lo hi : Nat) : Bool := decide (lo ≤ v) && decide (v ≤ hi)
  h.comp.all (fun c => (runningVersions m c.1).all (fun v => within v c.2.1 c.2.2)) &&
  (runningComps m).all (fun c => c.1 != h.kind || within h.version.toNat c.2.1 c.2.2)

/-- Largest payload of a kind (R529 step 6). -/
def plenTop (kind : Nat) : Nat :=
  match kind with
  | 1 | 3 => 268435456
  | 2 => 16777216
  | 4 | 6 => 67108864
  | _ => 4194304

/-- A kept header of the same kind and VERSION has another PDIG (R532). -/
def conflicting (m : Mod) (h : ImgHeader) : Bool :=
  (updateLanes m).any (fun l => (m.ln.get l).nv.kept.any (fun k => k.kind == h.kind && k.version == h.version && k.pdig != h.pdig))

/-- The header stage: the first step that fails, 0 when all pass; step 5 is R532's (R529). -/
def headerStep (m : Mod) (x : Session) (b : List Byte) : Nat :=
  let h := parseHeader b
  let ocOk := h.kind != 6 || ((stationDesc m x.station).map (·.kind)) == some h.ockind
  if b.length ≠ 4096 ∨ readLE b 0 4 ≠ 0x5A33494D ∨ readLE b 4 2 ≠ 1 then 1
  else if !sigOk m h b then 2
  else if cut b 8 16 ≠ partName ∨ h.kind ≠ x.kind ∨ !ocOk then 3
  else if !compatOk m h then 4
  else if conflicting m h then 5
  else if plenTop h.kind < h.plen then 6
  else if h.kind = 4 ∧ !declOk (Config.declOf h.decl) then 7
  else if h.kind = 5 ∧ !netDeclOk (Config.netDeclOf h.decl) then 7
  else 0

/-- Each lane keeps the last 16 headers of a kind that passed step 3 (R532). -/
def keepHeader (h : ImgHeader) (m : Mod) : Mod :=
  let e : KeptHeader := { kind := h.kind, version := h.version, pdig := h.pdig }
  let keep (ks : List KeptHeader) : List KeptHeader :=
    e :: (ks.filter (fun k => k.kind == h.kind)).take 15 ++ ks.filter (fun k => k.kind != h.kind)
  let ls := updateLanes m
  updLanes (fun l x => if l ∈ ls then { x with nv := { x.nv with kept := keep x.nv.kept } } else x) m

/-- The bank holds an image of the kind and version. -/
def bankHolds (m : Mod) (h : ImgHeader) : Bool :=
  let p := partOf h.kind
  let b := inactive m p
  if p = 2 then (updateLanes m).any (fun l =>
      let x := progBank (m.ln.get l) b
      if h.kind = 3 then x.fwVersion == h.version else x.appBuild == h.version)
  else (partBank m p b).version == h.version

/-- The inactive bank that holds the earlier image of a conflict is erased (R532). -/
def eraseBank (kind : Nat) (m : Mod) : Mod :=
  let p := partOf kind
  let b := inactive m p
  let m1 := if p = 2 then setProg b (fun _ _ => ProgBank.fresh false 0 0) m else updPart p b (fun _ => PartBank.fresh false 0) m
  updBanks (fun k => { k with verified := k.verified.filter (fun e => partOf e.1 != p) }) m1

/-- A conflicting image (R532): both images go, the session ends, event 0xE6, security trigger 3. -/
def conflict (a : Accepted) (h : ImgHeader) (m : Mod) : Mod :=
  let m1 := if h.kind ≠ 6 ∧ bankHolds m h then eraseBank h.kind m else m
  noteTrig 3 (raise 0xE6 { arg1 := h.kind, arg2 := h.version.toNat } (endSession (refuseUp a 0x22 0 m1)))

/-- An image is refused: event 0xE2 (R529, R530). -/
def imageRefused (a : Accepted) (code detail kind : Nat) (m : Mod) : Mod :=
  raise 0xE2 { arg1 := kind, arg2 := detail } (refuseUp a code detail m)

/-- 0xE1: a header (R529). -/
def headerSub (a : Accepted) (sub : Submission) (m : Mod) : Mod :=
  match sessionOf sub m with
  | none => refuseUp a 0x07 1 m
  | some x =>
    let h := parseHeader sub.blob
    let step := headerStep m x sub.blob
    let m1 := putSession { x with header := none, payload := [], held := PerLane.all [], verified := false } m
    let m2 := if step = 0 ∨ 4 ≤ step then keepHeader h m1 else m1
    if step = 0 then complete a 0 0 (putSession { x with header := some h, payload := [], held := PerLane.all [], verified := false } m2)
    else if step = 5 then conflict a h m2
    else
      let m3 := imageRefused a 0x20 step x.kind m2
      if step = 2 then noteTrig 4 m3 else m3

/-! ## Payload (R525, R530, R536) -/

/-- Offset and length of a chunk: next in order, a multiple of 4 KiB from 4 to 64 KiB except the last. -/
def chunkOk (x : Session) (h : ImgHeader) (off len : Nat) : Bool :=
  off == x.payload.length && decide (1 ≤ len) && decide (len ≤ 65536) && decide (off + len ≤ h.plen) &&
    ((len % 4096 == 0 && decide (4096 ≤ len)) || off + len == h.plen)

/-- 0xE2: a chunk, written and read back in the inactive bank; of a program bank, in that of every lane that takes part. -/
def chunkSub (a : Accepted) (sub : Submission) (m : Mod) : Mod :=
  let off := readLE sub.oper 4 4
  let len := readLE sub.oper 16 4
  match sessionOf sub m with
  | none => refuseUp a 0x07 1 m
  | some x =>
    match x.header with
    | none => refuseUp a 0x07 1 (putSession x m)
    | some h =>
      if !chunkOk x h off len then refuseUp a 0x07 2 (putSession x m)
      else if m.pw.charge < 95 then refuseUp a 0x07 3 (putSession x m)
      else
        let m1 := if off = 0 ∧ h.kind ≠ 6 then spoilBank h.kind m else m
        let data := cut sub.blob 0 len
        let ls := updateLanes m
        complete a 0 0 (putSession { x with payload := x.payload ++ data, verified := false,
                                            held := x.held.mapL (fun l b => if l ∈ ls then b ++ data else b) } m1)

/-- A free environment for a restart that no command brings one with. -/
def freeEnv (m : Mod) : StartEnv × Mod := (Config.startEnv m.freeN, { m with freeN := m.freeN + 1 })

/-- In RECOVERY, once two lanes hold identical usable program banks that are not marked failed, the module restarts on them (R122, R539,
R546). -/
def leaveRecovery (m : Mod) : Mod :=
  let b := inactive m 2
  if mode m == .recovery && decide (2 ≤ (goodLanes m b).length) && !bitOf m.nv.banks.fail 2 then
    let parts := 2 :: (m.nv.banks.verified.map (fun p => partOf p.1))
    let (env, m1) := freeEnv (updBanks (fun k => { k with next := parts.foldl (fun n p => setBit n p true) k.next,
                                                          used := parts.foldl (fun n p => setBit n p false) k.used }) m)
    restart false env m1
  else m

/-- What has been verified takes its place: the bank's content, or the transfer to the object controller (R543). -/
def takeVerified (x : Session) (h : ImgHeader) (m : Mod) : Mod :=
  if h.kind = 6 then
    updUp (fun u => { u with oc := { station := x.station, state := 1, block := 0, image := h.raw ++ x.payload, version := h.version,
                                     session := x.num, actScn := 0, pdig := h.pdig, comp := h.comp, prepared := false, out := [] } }) m
  else writeBank h x.payload m

/-- What is staged and verified: the application, and the network settings (R526). -/
def stagedNow (m : Mod) : Staged :=
  { app := (verifiedHdr m 4).map (fun h =>
      let p := (progBank (m.ln.get (refLane m)) (inactive m 2)).payload
      { Config.appOf p with build := h.version, payload := p }),
    hdr := verifiedHdr m 4,
    net := (verifiedHdr m 5).map (fun _ => Config.netOf (partBank m 3 (inactive m 3)).payload) }

/-- The payload as read back: from the banks of the lanes that take part, or the one copy of a part that is not theirs (R530). -/
def bankCopies (m : Mod) (x : Session) : List (List Byte) :=
  if partOf x.kind = 2 then (updateLanes m).map (fun l => x.held.get l) else [x.payload]

/-- 0xE3: the content stage (R530). -/
def verifySub (a : Accepted) (sub : Submission) (m : Mod) : Mod :=
  match sessionOf sub m with
  | none => refuseUp a 0x07 1 m
  | some x =>
    match x.header with
    | none => refuseUp a 0x07 1 (putSession x m)
    | some h =>
      if x.payload.length ≠ h.plen then refuseUp a 0x07 1 (putSession x m)
      else
        let code := contentCode m (stagedNow m) h (bankCopies m x)
        if code ≠ 0 then imageRefused a 0x21 code x.kind (if h.kind = 6 then putSession x m else spoilBank h.kind (putSession x m))
        else
          leaveRecovery (complete a 0 0 (raise 0xE1 { arg1 := x.kind, arg2 := x.num }
            (putSession { x with verified := true } (takeVerified x h m))))

/-! ## Activation (R537, R542, R544, R545) -/

/-- The kinds that take part with the image of a session: both halves of a program bank, and network settings with their
application (R526, R537). -/
def activeKinds (m : Mod) (kind : Nat) : List Nat :=
  let prog := [3, 4].filter (fun k => k == kind || (verifiedHdr m k).isSome)
  if kind = 3 ∨ kind = 4 then prog ++ (if prog.contains 4 && (verifiedHdr m 5).isSome then [5] else [])
  else if kind = 5 then [3, 4].filter (fun k => (verifiedHdr m k).isSome) ++ [5]
  else [kind]

/-- S lies where R537 allows it. -/
def scnAllowed (m : Mod) (online : Bool) (s : Nat) : Bool :=
  (s == 0 && inHalt m && !online) ||
    (decide (scn m + (if online then 50 else 10) ≤ s) && decide (s ≤ scn m + 15000))

/-- The application's network settings version is the one that will run with it (R526). -/
def nsMatches (m : Mod) (kinds : List Nat) : Bool :=
  if kinds.contains 4 then
    let app := Config.appOf (progBank (m.ln.get (refLane m)) (inactive m 2)).payload
    app.nsVersion == (if kinds.contains 5 then (partBank m 3 (inactive m 3)).version else m.net.version)
  else true

/-- Kind and HFL[0] allow the activation named: an image built for on-line change is activated only so (R525-R527, R552). -/
def kindAllows (m : Mod) (kind : Nat) (kinds : List Nat) (online : Bool) : Bool :=
  let hfl := ((verifiedHdr m 4).map (fun h => bitOf h.hfl 0)).getD false
  if kind = 6 then !online
  else if kind = 5 && !(kinds.contains 4) then false
  else if online then kinds.contains 4 && hfl && !(kinds.contains 3)
  else !(kinds.contains 4 && hfl)

/-- Conditions 2 to 4 and 6 to 8 of 0xE0 at the activation and at phase 16,000 of S − 1 (R535). The table of 0xE4 names 2 to 6 only; R535
asks the same conditions as at 0xE0, so 7 and 8 count too: DEDUCED (log entry 63). -/
def stateForbids (m : Mod) (kinds : List Nat) (online : Bool) (station : Nat) : Bool :=
  alarmPending m || updateLocked m || (inService m && !online && kinds != [6]) || (mode m == .run2 && kinds.any (fun k => k == 4 || k == 5)) ||
    kinds.any (fun k => decide (k ≤ 3) && m.nv.banks.verified.any (fun p => decide (p.1 ≤ 3) && p.1 != k)) ||
    (kinds.contains 6 && !stationHeld m station)

/-- The on-line change is too near: LGXOLC.ABT names the refusal; what is scheduled or was applied last stands (R195, R200, R203). -/
def noteNear (online : Bool) (s : Nat) (m : Mod) : Mod :=
  if online && decide (s < scn m + 50) then updLg (fun g => { g with olcAbt := 5 }) m else m

/-- NEXT is set for every part that takes part (R537). -/
def setNext (kinds : List Nat) (m : Mod) : Mod :=
  updBanks (fun k => { k with next := kinds.foldl (fun n c => setBit n (partOf c) true) k.next,
                              used := kinds.foldl (fun n c => setBit n (partOf c) false) k.used }) m

/-- A second activation replaces the pending one, of which no event tells: the manual does not say what becomes of it. DESIGN CHOICE (log
entry 63). An on-line change replaced by a restart reads as abandoned. -/
def replaceActivation (online : Bool) (m : Mod) : Mod :=
  match m.up.act with
  | none => m
  | some a =>
    updLg (fun g => { g with olcNew := none, olcState := if a.online && !online then 3 else g.olcState })
      (updBanks (fun k => { k with next := 0, used := 0 }) m)

/-- The activation is scheduled: event 0xE3, and 0x17 for an on-line change; the session ends. -/
def schedule (x : Session) (h : ImgHeader) (kinds : List Nat) (online : Bool) (s : Nat) (m : Mod) : Mod :=
  let act : Activation := { scn := s, online := online, kinds := kinds, prepared := s == 0, hdr := h }
  let m1 := updUp (fun u => { u with act := some act, actScn := s, result := 1, reason := 0, resKind := x.kind, flane := 0 }) (replaceActivation online m)
  let m2 := if s = 0 then setNext kinds m1 else m1
  let m3 := raise 0xE3 { arg1 := x.kind, arg2 := s % 2 ^ 32 } m2
  let m4 := if online then
      raise 0x17 { arg2 := s % 2 ^ 32 } (updLg (fun g => { g with olcState := 1, olcScn := s }) m3)
    else m3
  endSession m4

/-- 0xE4: activate (R537, R543, R552). -/
def activateSub (a : Accepted) (sub : Submission) (m : Mod) : Mod :=
  let online := byteAt sub.oper 4 == 1
  let s := sub.nscn
  match sessionOf sub m with
  | none => refuseUp a 0x07 1 m
  | some x0 =>
    let kinds := activeKinds m x0.kind
    let m1 := putSession x0 m
    match x0.header with
    | none => refuseUp a 0x07 1 m1
    | some h =>
      if !x0.verified || !nsMatches m kinds then refuseUp a 0x07 1 m1
      else if 1 < byteAt sub.oper 4 then refuseUp a 0x03 20 m1
      else if !scnAllowed m online s || (x0.kind == 6 && s == 0) then refuseUp a 0x07 2 (noteNear online s m1)
      else if !kindAllows m x0.kind kinds online then refuseUp a 0x07 3 m1
      else if stateForbids m kinds online x0.station then refuseUp a 0x07 4 m1
      else if m.pw.charge < 95 then refuseUp a 0x07 5 m1
      else if x0.kind = 6 then
        complete a 0 0 (endSession (raise 0xE3 { arg1 := 6, arg2 := s % 2 ^ 32 }
          (updUp (fun u => { u with oc := { u.oc with actScn := s }, actScn := s, result := 1, reason := 0, resKind := 6, flane := 0 }) m1)))
      else complete a 0 0 (schedule x0 h kinds online s m1)

/-- An activation of object-controller firmware waits for phase 16,000 of its S − 1. -/
def ocWaits (m : Mod) : Bool := m.up.oc.state != 0 && m.up.oc.actScn != 0 && !m.up.oc.prepared

/-- At phase 16,000 of S − 1 the conditions of an object controller's activation are checked again (R535). -/
def prepareOc (m : Mod) : Mod :=
  if !ocWaits m then m
  else
    let m1 := passTo ((m.up.oc.actScn - 1) * 20000000 + 16000000) m
    if stateForbids m1 [6] false m1.up.oc.station || decide (m1.pw.charge < 95) then abandonOc 4 m1
    else updUp (fun u => { u with oc := { u.oc with prepared := true } }) m1

/-- ACTIVATION_PREPARE: at phase 16,000 of S − 1 the conditions are checked again and NEXT is set (R535, R537). Of two activations that wait,
the one with the earlier SCN is prepared. -/
def doPrepare (m : Mod) : Mod :=
  match m.up.act with
  | none => prepareOc m
  | some a =>
    if a.online || a.prepared || (ocWaits m && decide (m.up.oc.actScn < a.scn)) then prepareOc m
    else
      let m1 := passTo ((a.scn - 1) * 20000000 + 16000000) m
      if stateForbids m1 a.kinds false 0 || decide (m1.pw.charge < 95) then abandonActivation 4 m1
      else setNext a.kinds (updUp (fun u => { u with act := some { a with prepared := true } }) m1)

def execActivationPrepare (s : State) : Host.Outcome State Fault Refusal := s.run doPrepare

/-- UPDATE_RESTART: at phase 0 of S the module restarts on the staged banks, recorded as an update restart (R126, R537). -/
def doUpdateRestart (env : StartEnv) (m : Mod) : Mod :=
  match m.up.act with
  | none => m
  | some a => if a.online || !a.prepared then m else updMd (fun d => { d with updRestart := true }) (restart false env (passTo (a.scn * 20000000) m))

def execUpdateRestart (env : StartEnv) (s : State) : Host.Outcome State Fault Refusal := s.run (doUpdateRestart env)

/-- One part's trial bank becomes active when START completes on it: event 0xE4 (R539). -/
def commitPart (part : Nat) (m : Mod) : Mod :=
  if !bitOf m.md.trialBits part then m
  else
    let done := m.nv.banks.verified.filter (fun p => partOf p.1 == part)
    let note (k : Banks) (p : Nat × ImgHeader) : Banks :=
      { k with committed := tabSet 0 k.committed p.1 p.2.version, comps := k.comps.filter (fun c => c.1 != p.1) ++ [(p.1, p.2.comp)] }
    let m1 := updBanks (fun k =>
      { done.foldl note k with act := setBit k.act part (!bitOf k.act part), next := setBit k.next part false, used := setBit k.used part false,
                               verified := k.verified.filter (fun p => partOf p.1 != part) }) m
    let kind := ((done.head?).map (·.1)).getD (partKind part)
    raise 0xE4 { arg1 := kind }
      (updUp (fun u => { u with result := 2, reason := 0, resKind := kind }) (updMd (fun d => { d with trialBits := setBit d.trialBits part false }) m1))

def commitBanks (m : Mod) : Mod := forEach [0, 1, 2, 3] commitPart m

/-- SESSION_IDLE_TIMEOUT: UPDCFG.IDLE seconds without a command (R534). -/
def doIdle (m : Mod) : Mod :=
  match m.up.session with
  | none => m
  | some x => endSession (passClk (x.lastAt + fieldOf m.cfg.updcfg.toNat 0 12 * 1000000000) m)

def execSessionIdleTimeout (s : State) : Host.Outcome State Fault Refusal := s.run doIdle

/-- SERVICE_CONNECTION_LOST: a service session ends with the connection (R534). -/
def doServiceLost (m : Mod) : Mod :=
  let m1 := updSec (fun s => { s with sess := none, sessLane := none, subject := 0 }) m
  match m1.up.session with
  | some x => if x.src = .service then endSession m1 else m1
  | none => m1

def execServiceConnectionLost (s : State) : Host.Outcome State Fault Refusal := s.run doServiceLost

/-- The module's role changes: the session ends, a pending activation is abandoned (R534, R545). -/
def roleChanged (m : Mod) : Mod := abandonOc 4 (abandonActivation 4 (endSession m))

/-! ## Object-controller firmware (R322, R543, R544) -/

/-- Blocks of an image. -/
def ocBlocks (o : OcXfer) : Nat := (o.image.length + 255) / 256

/-- Bytes 160 on of an entry frame, network order. -/
def ocBytes (o : OcXfer) (fl off : Nat) (data : List Byte) : List Byte :=
  bytesBE 2 o.station ++ bytesBE 1 fl ++ [0] ++ bytesBE 4 off ++ bytesBE 4 o.session ++ bytesBE 2 data.length ++ bytesBE 2 0 ++ cut data 0 256

/-- One entry window of the station's segment: the next block of the pass, or the activation block. -/
def ocWindow (m : Mod) (o : OcXfer) : OcXfer :=
  let n := ocBlocks o
  if o.state = 1 ∨ (o.state = 2 ∧ o.block < n) then
    let data := (o.image.drop (256 * o.block)).take 256
    let next := o.block + 1
    let o1 := { o with out := ocBytes o (b2n (decide (next = n))) (256 * o.block) data, block := next }
    if o.state = 1 ∧ n ≤ next then { o1 with state := 2, block := 0 } else o1
  else if 2 ≤ o.state ∧ o.actScn ≠ 0 ∧ scn m < o.actScn then
    { o with out := ocBytes o 2 0 (bytesBE 8 o.actScn ++ o.pdig), state := 3 }
  else { o with out := [] }

/-- ENTRY_WINDOW_SEND: an entry frame leaves at the next entry window, with a block where a transfer runs on this segment (R322,
R543). -/
def doEntrySend (i : Nat) (m : Mod) : Mod :=
  if !sends m i then m
  else
    match nextWindow m i 2 (segAt m i).entrySent with
    | none => m
    | some t =>
      if !sendsAt t m i then m else
      let m1 := passTo t m
      let mine := m1.up.oc.state != 0 && ((stationDesc m1 m1.up.oc.station).map (·.seg)) == some i
      let m2 := if mine then updUp (fun u => { u with oc := ocWindow m1 u.oc }) m1 else m1
      let oc := if mine then m2.up.oc.out else []
      sendOn i sEntry (fun b => frameOut m2 i sEntry t b false 0 (entryBytes ++ oc)) (updSeg i (fun g => { g with entrySent := t + 1 }) m2)

def execEntryWindowSend (seg : Fin 4) (s : State) : Host.Outcome State Fault Refusal := s.run (doEntrySend seg.val)

/-- OC_ACTIVATION_TIMEOUT: not entered again on the new version within 600 station cycles of the activation (R544), be the transfer done or not. -/
def doOcTimeout (m : Mod) : Mod :=
  let o := m.up.oc
  if o.state ≠ 3 ∧ (o.state = 0 ∨ o.actScn = 0) then m
  else
    let m1 := passTo ((o.actScn + 600) * 20000000) m
    raise 0xE5 { arg0 := o.station, arg1 := 9, arg2 := o.session }
      (updUp (fun u => { u with oc := OcXfer.fresh, result := 3, reason := 9, resKind := 6 }) m1)

def execOcActivationTimeout (s : State) : Host.Outcome State Fault Refusal := s.run doOcTimeout

end Sys2Proof.Machine
end

