-- ==== Sys2Proof/Machine/Modes.lean ====
section
/-! DEFINITION. Modes (R21, R122-R158): the end of START, mode transitions, the loss of the front end, possession, forces, block BIST,
hurdles that give way to service. -/

namespace Sys2Proof.Machine

/-! ## Modes seen by a submission (R123, R124) -/

/-- The mode with a code (R38). -/
def modeOfCode (n : Nat) : Mode :=
  match n with
  | 0 => .halt
  | 1 => .recovery
  | 2 => .start
  | 3 => .commission
  | 4 => .run3
  | 5 => .run2
  | 6 => .shadow
  | _ => .maintain

/-- The mode against which a submission is checked: that produced by the submissions before it; SHADOW checks against LEAD's, whose
submissions it processes (R123, R466). -/
def cmdMode (m : Mod) : Mode := m.md.pendMode.getD (if mode m == .shadow then modeOfCode m.pr.pmode else mode m)

def runs (x : Mode) : Bool := x == .run3 || x == .run2

/-- The mode of a module that takes the lead (R472, R474). -/
def leadMode (m : Mod) : Mode := if m.md.areas != 0 then .maintain else runMode m

/-- A module becomes LEAD: its mode follows, events and sessions with it (R122, R472, R474). Its acknowledgement clock begins. -/
def becomeLead (m : Mod) : Mod :=
  let t := leadMode m
  let m1 := updPr (fun p => { p with role := 1, ackScn := some (scn m), noAckTold := false, stepCyc := 0, joining := false }) m
  roleChanged (raise 0x00 { arg1 := modeCode t, arg2 := modeCode (mode m) } (updMd (fun d => { d with mode := t, pendMode := none }) m1))

/-- The roles change at phase 0 of N + 1: SHADOW becomes LEAD, the former LEAD outgoing (R472). -/
def changeRoles (m : Mod) : Mod :=
  let m1 := updPr (fun p => { p with chgDue := false }) m
  if m.pr.role = 2 then becomeLead m1 else roleChanged (updPr (fun p => { p with outgoing := true }) m1)

/-- MODE_TRANSITION_EFFECT: at phase 0 after the accepting freeze the module takes the resulting mode; event 0x00 once. RUN is RUN-3
or RUN-2 by the lanes that vote then (R122-R124). An accepted changeover takes effect there too (R472). -/
def doTransition (m : Mod) : Mod :=
  let change := m.pr.chgDue
  if !serving m || (m.md.pendMode.isNone && !change) then m
  else
    let m1 := updMd (fun d => { d with pendMode := none }) (unowe 15 (toNext 15 0 m))
    let t := match m.md.pendMode with
      | some t0 => if runs t0 then runMode m1 else t0
      | none => mode m1
    let m2 :=
      if mode m1 == .shadow || t == mode m1 then m1
      else raise 0x00 { arg1 := modeCode t, arg2 := modeCode (mode m1) } (updMd (fun d => { d with mode := t }) m1)
    if change then changeRoles m2 else m2

def execModeTransitionEffect (s : State) : Host.Outcome State Fault Refusal := s.run doTransition

/-! ## The end of START (R122, R128, R133, R140, R141, R150, R539) -/

/-- Every staff-protection switch has passed its warm-up test. -/
def staffPassed (m : Mod) : Bool := m.lg.app.staff.all (fun n => m.md.wuPass.contains n)

/-- The mode START leads to (R122). -/
def startTarget (m : Mod) : Mode :=
  if m.pr.role = 2 then .shadow
  else if bitOf m.cfg.modcfg.toNat 0 || m.sec.lc == .blank || m.sec.lc == .provisioned then .commission
  else if m.md.areas != 0 then .maintain
  else runMode m

/-- Forces dropped since they were last reported: event 0x12, immediately before 0x01 (R150). -/
def tellDropped (m : Mod) : Mod :=
  let n := agreedBy m (fun l => l.nv.dropped)
  if n = 0 then m else raise 0x12 { arg2 := n } (updLanes (fun _ l => { l with nv := { l.nv with dropped := 0 } }) m)

/-- The restart kind of event 0x01: 1 warm, 2 cold; a module that joined as SHADOW, which made no restart decision, gives 2 as well: a
DESIGN CHOICE (log entry 14). -/
def restartKind (m : Mod) : Nat := if m.md.warm then 1 else 2

/-- START_COMPLETE: step 7 ends, step 8 waits for the warm-up tests at most MODCFG.WUWAIT seconds, banks on trial become active, and the module
takes its target mode (R122, R128, R539). A module that still looks for its partner does not complete (R460). -/
def doStartComplete (m : Mod) : Mod :=
  if mode m != .start || !m.tm.taken || m.pr.role == 3 then m
  else
    let m0 := startStep7 m
    let due := (m0.md.step8At.getD m0.clk) + fieldOf m0.cfg.modcfg.toNat 16 8 * 1000000000
    let m1 := if staffPassed m0 then m0 else passClk due m0
    let m2 := commitBanks m1
    if mode m2 != .start then m2
    else
      let t := startTarget m2
      let m3 := updMd (fun d => { d with mode := t, step := 0, doneAt := some m2.clk, serveAt := now m2, startedAt := now m2 })
        (updLanes (fun _ l => { l with proofAt := m2.clk, itemAt := List.replicate 8 m2.clk, opened := !l.alive && l.opened }) m2)
      raise 0x00 { arg1 := modeCode t, arg2 := modeCode .start } (raise 0x01 { arg1 := restartKind m3 } (tellDropped m3))

def execStartComplete (s : State) : Host.Outcome State Fault Refusal := s.run doStartComplete

/-- WARM_UP_OVERDUE: WUWIN minutes after START a switch that has not passed is told once (R141). -/
def doOverdue (m : Mod) : Mod :=
  match m.md.doneAt with
  | none => m
  | some t =>
    if !serving m then m
    else
      let m1 := passClk (t + max 1 (fieldOf m.cfg.modcfg.toNat 24 8) * 60000000000) m
      forEach (m1.lg.app.staff.filter (fun n => !(m1.md.wuPass.contains n) && !(m1.md.wuOver.contains n)))
        (fun n acc => raise 0x0D { arg0 := n } (updMd (fun d => { d with wuOver := d.wuOver ++ [n] }) acc)) m1

def execWarmUpOverdue (s : State) : Host.Outcome State Fault Refusal := s.run doOverdue

/-! ## The front end (R21, R473) -/

/-- FRONT_END_LIVENESS_EXCHANGE: once per basic cycle each lane checks the front end (R21). -/
def doLiveness (l : LaneId) (ok : Bool) (m : Mod) : Mod :=
  updLane l (fun x => if x.alive && !x.feLost then { x with feMiss := if ok then 0 else min 4 (x.feMiss + 1) } else x) m

def execFrontEndLivenessExchange (lane : LaneId) (ok : Bool) (s : State) : Host.Outcome State Fault Refusal := s.run (doLiveness lane ok)

/-- FRONT_END_LOST: four exchanges missed; the lane drops out every remote station, stops sealing, and notes the loss in its retain
area. A LEAD whose agreed SWI7 reads closed enters HALT with HCAUSE 6 (R21, R473). -/
def doFrontEndLost (l : LaneId) (m : Mod) : Mod :=
  let x := m.ln.get l
  if !operating m || !x.alive || x.feLost || decide (x.feMiss < 4) then m
  else
    let m1 := updLane l (fun y => { y with feLost := true, nv := { y.nv with feLossSeen := true } }) m
    if feGone m1 && m1.pr.role == 1 && serving m1 && m1.fio.image.getD 103 3 == 1 then enterHalt 6 m1 else m1

def execFrontEndLost (lane : LaneId) (s : State) : Host.Outcome State Fault Refusal := s.run (doFrontEndLost lane)

/-! ## Mode submissions (R122, R146, R151) -/

/-- A transition trigger is taken: the mode it leads to waits for phase 0. It is told, and its submission completed, at phase 16,000,
unless a HALT cause of the same station cycle comes first (R123, R124). -/
def trigger (a : Accepted) (code area : Nat) (t : Mode) (m : Mod) : Mod :=
  owe 15 (updMd (fun d => { d with pendMode := some t, trigs := d.trigs ++ [{ sub := a, code := code, area := area }],
                                   areasWas := if d.trigs.isEmpty then m.md.areas else d.areasWas }) m)

/-- A grant or return that is no trigger itself, but was checked against the mode an earlier trigger of the same freeze leads to: it stands or
falls with that trigger (R123, R124). -/
def holdMove (a : Accepted) (code area : Nat) (m : Mod) : Mod :=
  updMd (fun d => { d with trigs := d.trigs ++ [{ sub := a, code := code, area := area }] }) m

/-- The triggers of this cycle are told in their order, and their submissions completed (R123, R124, R435). -/
def settleTrigs (m : Mod) : Mod :=
  forEach m.md.trigs (fun t acc => complete t.sub 0 0 (onlyIf (t.code != 0) (raise t.code { arg0 := t.area }) acc))
    (updMd (fun d => { d with trigs := [] }) m)

/-- A trigger that is refused: event 0x05 as well (R122). -/
def refuseMove (a : Accepted) (pos : Nat) (m : Mod) : Mod := raise 0x05 {} (refuse a pos m)

/-- 0x01: go to RUN (R151). -/
def goRunSub (a : Accepted) (_ : Submission) (m : Mod) : Mod :=
  if cmdMode m != .commission then refuseMove a 1 m
  else if !m.md.forces.isEmpty then refuseMove a 2 m
  else if m.md.areas != 0 then refuseMove a 3 m
  else if m.sec.lc == .blank || m.sec.lc == .provisioned then refuseMove a 4 m
  else trigger a 0 0 (runMode m) m

/-- 0x02: HALT with HCAUSE 4, at once; its completion carries 0x08, as far as it can still be written (R45, R123, R125). -/
def haltSub (_ : Accepted) (_ : Submission) (m : Mod) : Mod := enterHalt 4 m

/-- The recorder takes nothing (R130, R514). -/
def recorderDead (m : Mod) : Bool := m.rcd.unusable

/-- 0x04: possession grant; a first possession leads from RUN to MAINTAIN (R122, R146). -/
def grantSub (a : Accepted) (sub : Submission) (m : Mod) : Mod :=
  let n := byteAt sub.oper 0
  let t := cmdMode m
  if 64 ≤ n then badOperand a 16 m
  else if !(runs t || t == .commission || t == .maintain) then refuseMove a 1 m
  else if recorderDead m then refuseMove a 2 m
  else if m.md.areas.getLsbD n then refuseMove a 3 m
  else
    let take := updMd (fun d => { d with areas := d.areas ||| BitVec.ofNat 64 (2 ^ n) })
    if runs t then take (trigger a 0x10 n .maintain m)
    else if !m.md.trigs.isEmpty then take (holdMove a 0x10 n m)
    else complete a 0 0 (raise 0x10 { arg0 := n } (take m))

/-- 0x05: possession return; the last area returned leads from MAINTAIN to RUN (R122, R150). -/
def returnSub (a : Accepted) (sub : Submission) (m : Mod) : Mod :=
  let n := byteAt sub.oper 0
  if 64 ≤ n then badOperand a 16 m
  else if !m.md.areas.getLsbD n then refuseMove a 1 m
  else if m.md.forces.any (fun f => f.area == n) then refuseMove a 2 m
  else
    let rest := m.md.areas &&& ~~~ BitVec.ofNat 64 (2 ^ n)
    let give := updMd (fun d => { d with areas := rest })
    if rest == 0 && cmdMode m == .maintain then give (trigger a 0x11 n (runMode m) m)
    else if !m.md.trigs.isEmpty then give (holdMove a 0x11 n m)
    else complete a 0 0 (raise 0x11 { arg0 := n } (give m))

/-! ## Forces (R146-R151) -/

/-- An input channel that is never forceable: KF, SWI, staff-protection switches (R147). -/
def fixedInput (m : Mod) (n : Nat) : Bool := decide (80 ≤ n) || m.lg.app.staff.contains n

/-- What a force request names: type and ENUM8 limit, area, and whether it is forceable; `none`: no such variable or object. -/
def forceTarget (m : Mod) (isObj : Bool) (ref : Nat) : Option (Ty × Nat × Option Nat × Bool) :=
  if isObj then
    (m.lg.app.objs.find? (fun o => o.ref.toNat == ref && o.inb != .unbound)).map (fun o =>
      (o.ty, o.emax, o.area, !o.staff && (match o.inb with
        | .chan n => !fixedInput m n
        | .driveWord k => decide (k < 48)
        | _ => true)))
  else
    (m.lg.app.vars.find? (fun v => v.vid == ref && plainVar v)).map (fun v =>
      (v.ty, v.emax, v.area, v.forceable && !(m.lg.app.outs.any (fun o => o.1 == ref && (match o.2.2 with
        | .drive k => decide (48 ≤ k)
        | .field _ _ _ => false)))))

/-- A value in register form is one of its type (R161, R170). -/
def forceFits (ty : Ty) (emax : Nat) (v : BitVec 64) : Bool :=
  let n := regInt { ty := ty, val := v }
  fits ty n && (ty != .enum8 || decide (v.toNat ≤ emax)) &&
    (match ty with
     | .dur | .tstamp => true
     | _ => decide (v.toNat < 2 ^ 32))

/-- 0x06: force set; it applies from the heats of this station cycle (R146-R150). -/
def forceSub (a : Accepted) (sub : Submission) (m : Mod) : Mod :=
  let kind := byteAt sub.oper 0
  let isObj := kind == 1
  let ref := readLE sub.oper 4 4
  let tag := byteAt sub.oper 8
  let val : BitVec 64 := BitVec.ofNat 64 (readLE sub.oper 16 8)
  let t := cmdMode m
  if 1 < kind then badOperand a 16 m
  else
    match forceTarget m isObj ref with
    | none => badOperand a 20 m
    | some (ty, emax, area, ok) =>
      if tyOfTag tag ≠ ty then badOperand a 24 m
      else if !forceFits ty emax val then badOperand a 32 m
      else if !(t == .commission || t == .maintain) then refuse a 1 m
      else
        match area with
        | none => refuse a 1 m
        | some n =>
          let rest := m.md.forces.filter (fun f => !(f.isObj == isObj && f.ref == ref))
          if !m.md.areas.getLsbD n then refuse a 1 m
          else if !ok then refuse a 2 m
          else if 1024 ≤ rest.length then refuse a 3 m
          else if recorderDead m then refuse a 4 m
          else
            let f : Force := { isObj := isObj, ref := ref, tag := tag, val := val, area := n }
            complete a 0 0 (raise 0x0E { arg0 := ref } (updMd (fun d => { d with forces := rest ++ [f] }) m))

/-- 0x07: force release (R151). -/
def releaseSub (a : Accepted) (sub : Submission) (m : Mod) : Mod :=
  let kind := byteAt sub.oper 0
  let ref := readLE sub.oper 4 4
  if 1 < kind then badOperand a 16 m
  else if !(m.md.forces.any (fun f => f.isObj == (kind == 1) && f.ref == ref)) then refuse a 1 m
  else
    complete a 0 0 (raise 0x0F { arg0 := ref }
      (updMd (fun d => { d with forces := d.forces.filter (fun f => !(f.isObj == (kind == 1) && f.ref == ref)) }) m))

/-- 0x0A: run one block's BIST, in COMMISSION and before FIELD; MODBIST shows what it found (R131, R156). -/
def blockBistSub (pass : Bool) (a : Accepted) (sub : Submission) (m : Mod) : Mod :=
  let b := byteAt sub.oper 0
  if 24 ≤ b then badOperand a 16 m
  else if cmdMode m != .commission || !(m.sec.lc == .blank || m.sec.lc == .provisioned) then refuse a 1 m
  else
    completeWith a { cplOf a.opc a.tag 0 0 with result := bytesLE 1 (b2n (!pass)) }
      (updMd (fun d => { d with bist := setBit d.bist b (!pass) }) m)

/-- 0x21: clear a lane's exclusion record, in COMMISSION (R111). -/
def clearExclSub (a : Accepted) (sub : Submission) (m : Mod) : Mod :=
  match laneOf? (byteAt sub.oper 0) with
  | none => badOperand a 16 m
  | some l =>
    if cmdMode m != .commission then refuse a 1 m
    else
      complete a 0 0 (raise 0x2D { arg0 := laneNo l }
        (updLanes (fun _ x => { x with nv := { x.nv with excl := x.nv.excl.set l ExclRec.fresh } }) m))

/-! ## Hurdles and service (R144, R145) -/

/-- Work due in the slack window that needs the block the hurdle lane tests next: 5 ms and event-task heats and slices of the tasks that
use it, and the verification of a critical command that waits for its freeze (R144, R175). -/
def serviceDue (m : Mod) (item : Nat) : Bool :=
  (runsApp m && m.lg.app.tasks.any (fun d => conflicts d item && slackDue m d)) || (item == 2 && m.host.waiting.any (·.crit))

/-- At phase 16,000 every lane decides from agreed state: no hurdle runs in the window in which an on-line change is built (R196); a lane's
hurdle abandoned 8 times is protected, with event 0x0A; else service wins (R144, R145). -/
def decideHurdle (m : Mod) : Mod :=
  match hurdleLane m with
  | none => m
  | some l =>
    let x := m.ln.get l
    if m.lg.olcNew.isSome then abandonHurdle l m
    else if 8 ≤ x.abandoned then
      raise 0x0A { arg0 := laneNo l }
        (updMd (fun d => { d with hurdleProt := scn m + 1, critDefer := if x.itemNext = 2 then scn m + 1 else d.critDefer, deferN := satN 15 (d.deferN + 1) }) m)
    else if serviceDue m x.itemNext then abandonHurdle l m
    else m

/-! ## Registers (R152-R158) -/

def modSts (m : Mod) : W32 :=
  pack [(m.md.hcause, 28, 4), (satN 255 (arCount m), 16, 8), (m.md.step, 8, 4), (b2n (!m.md.forces.isEmpty), 7, 1),
        (b2n (!staffPassed m), 6, 1), (b2n m.md.warm, 5, 1), (modeCode (mode m), 0, 3)]

def modRst (m : Mod) : W32 := pack [(m.md.retage, 24, 8), (m.md.coldwhy, 12, 4), (m.md.reteq, 0, 3)]

def modHrd (m : Mod) : W32 :=
  pack [(m.md.abtot, 16, 16), (m.md.deferN, 12, 4), (m.ln.c.abandoned, 8, 4), (m.ln.b.abandoned, 4, 4), (m.ln.a.abandoned, 0, 4)]

def modWu (m : Mod) : W32 :=
  pack [(satN 255 m.lg.app.staff.length, 24, 8), (satN 255 m.md.wuPass.length, 16, 8), (satN 255 m.md.wuOver.length, 8, 8)]

end Sys2Proof.Machine
end

