-- ==== Sys2Proof/Machine/OnlineChange.lean ====
section
/-! DEFINITION. The on-line change of the application (R195-R199, R236). -/

namespace Sys2Proof.Machine

/-- The staged application. -/
def stagedApp (m : Mod) : AppImage :=
  let p := progBank (m.ln.get (refLane m)) (inactive m 2)
  { Config.appOf p.payload with build := p.appBuild, payload := p.payload }

/-- Every voting lane holds the staged image, equal to the others'. -/
def stagedEqual (m : Mod) : Bool :=
  let b := inactive m 2
  let p := progBank (m.ln.get (refLane m)) b
  (verifiedHdr m 4).isSome && (voters m).all (fun l => (progBank (m.ln.get l) b).usable && sameBank (progBank (m.ln.get l) b) p)

/-- Why the change is not carried out: an ABT code of R203, 0 for none (R195). -/
def changeAbort (m : Mod) : Nat :=
  if (voters m).length < 3 then 1
  else if !(mode m == .run3 || mode m == .commission || mode m == .maintain) then 2
  else if !stagedEqual m then 3
  else if (stagedApp m).xferBase ≠ m.lg.app.build then 4
  else 0

/-- The change is abandoned: event 0x19, LGXOLC, and the activation with reason 8 (R195, R551). -/
def abandonChange (code : Nat) (m : Mod) : Mod :=
  updLg (fun g => { g with olcAbt := code }) (abandonActivation 8 (raise 0x19 { arg1 := code } m))

/-- A variable keeps its value: same type, and same length or layout (R197). The declared maximum of an ENUM8 is part of a record's layout and
of no other: DESIGN CHOICE (log entry 63). -/
def sameShape (v w : VarDesc) : Bool := v.ty == w.ty && v.count == w.count && v.fields == w.fields

/-- Variables of both images whose type, length or layout differs (R197). -/
def typeChanges (old new : AppImage) : Nat :=
  (new.vars.filter (fun v => old.vars.any (fun w => w.vid == v.vid && !sameShape v w))).length

/-- A force stays in force in the new image (R198). -/
def forceStays (m : Mod) (new : AppImage) (f : Force) : Bool :=
  let held (area : Option Nat) : Bool := match area with
    | some n => m.md.areas.getLsbD n
    | none => false
  if f.isObj then
    new.objs.any (fun o => o.ref.toNat == f.ref && o.ty == tyOfTag f.tag && held o.area)
  else new.vars.any (fun v => v.vid == f.ref && v.ty == tyOfTag f.tag && plainVar v && v.forceable && held v.area)

/-- Forces that do not carry over are dropped: event 0x1B each (R198). -/
def carryForces (new : AppImage) (m : Mod) : Mod :=
  let gone := m.md.forces.filter (fun f => !forceStays m new f)
  forEach gone (fun f acc => raise 0x1B { arg0 := f.ref } acc)
    (updLg (fun g => { g with fdrop := gone.length }) (updMd (fun d => { d with forces := d.forces.filter (forceStays m new) }) m))

/-- Incomplete slow-task heats are abandoned: event 0x1C each (R196). -/
def dropSlow (m : Mod) : Mod :=
  let ts := (m.lg.app.tasks.filter (fun d => d.kind == .slow && (tcbOf m d.num).active)).map (·.num)
  forEach ts (fun t acc => raise 0x1C { arg0 := t } acc) (updLg (fun g => { g with slowab := ts.length }) m)

/-- Commands queued for SLACK event tasks are refused with 0x0F (R196). -/
def dropSlack (m : Mod) : Mod :=
  forEach (m.lg.app.tasks.filter (fun d => d.kind == .evSlack)) (fun d acc =>
    let x := tcbOf acc d.num
    setTcb d.num { x with cmds := [], cmdsWait := [] } (endCmds (x.cmds ++ x.cmdsWait) (fun c y => complete c.sub 0x0F 0 y) acc)) m

/-- A hurdle due in the window gives way (R196). -/
def dropHurdle (m : Mod) : Mod :=
  match hurdleLane m with
  | some l => if firedNow 12 m then m else abandonHurdle l m
  | none => m

/-- The change is built: no heat, slice or hurdle runs until phase 0 of the named SCN, so the margin of this slack window is that of one in
which none ran (R196-R198, R202). -/
def buildChange (m : Mod) : Mod :=
  let new := stagedApp m
  let n := typeChanges m.lg.app new
  let m1 := carryForces new (dropSlack (dropSlow (dropHurdle m)))
  let m2 := updLg (fun g => { g with running := none, stack := [], ranSlack := 0, olcNew := some new, tchg := satN 65535 n,
                                     tcbs := g.tcbs.map (fun e => (e.1, { e.2 with active := false })) }) m1
  onlyIf (decide (0 < n)) (raise 0x1A { arg2 := n }) m2

/-- ONLINE_CHANGE_CHECK: at phase 16,000 before the named SCN the conditions of R195 come first, then those of R535 (R196, R545). -/
def doChangeCheck (m : Mod) : Mod :=
  match m.up.act with
  | none => m
  | some a =>
    let t := (a.scn - 1) * 20000000 + 16000000
    if !a.online || a.prepared || decide (t < now m) || !serving m then m
    else
      let m1 := passTo t m
      let code := changeAbort m1
      if code ≠ 0 then abandonChange code m1
      else if stateForbids m1 a.kinds true 0 || decide (m1.pw.charge < 95) then abandonActivation 4 m1
      else buildChange (updUp (fun u => { u with act := some { a with prepared := true } }) m1)

def execOnlineChangeCheck (s : State) : Host.Outcome State Fault Refusal := s.run doChangeCheck

/-! ## The change applied (R196, R197, R236) -/

/-- The image of the new application: values by VID, INIT for the rest (R197). -/
def transferImage (old new : AppImage) (cur : Memory) : Memory :=
  new.vars.foldl (fun img v =>
    match old.vars.find? (fun w => w.vid == v.vid) with
    | some w => if sameShape v w then memWrite img v.addr (memRead cur w.addr (varBytes w)) else memWrite img v.addr v.init
    | none => memWrite img v.addr v.init) []

/-- Timer, counter and edge instances by identity and kind (R197). -/
def transferInsts (old new : AppImage) (t : Tab InstState) : Tab InstState :=
  new.insts.foldl (fun acc d =>
    match old.insts.find? (fun o => o.ident == d.ident && o.kind == d.kind) with
    | some o => tabSet InstState.idle acc d.num (tabGet InstState.idle t o.num)
    | none => acc) []

/-- The old task a new one goes on being, where it was parked: the route task follows its role, any other task its number (R173, R233):
DEDUCED (log entry 58). -/
def wasParked (old : AppImage) (t : Tab Tcb) (d : TaskDesc) : Bool :=
  let parked (o : TaskDesc) : Bool := (tabGet Tcb.empty t o.num).parked
  if d.route then old.tasks.any (fun o => o.route && parked o) else old.tasks.any (fun o => !o.route && o.num == d.num && parked o)

/-- Control blocks start anew with SYS item 1 = 3; what waits for a MAIN event task waits on (R196). A task that is parked stays so until
the next restart (R173, R233). -/
def transferTasks (old new : AppImage) (t : Tab Tcb) : Tab Tcb :=
  (freshTasks new 3).map (fun e =>
    let x := tabGet Tcb.empty t e.1
    let main (app : AppImage) : Bool := app.tasks.any (fun d => d.num == e.1 && d.kind == .evMain)
    let parked := (new.tasks.find? (fun d => d.num == e.1)).any (wasParked old t)
    if main old && main new && !parked then
      (e.1, { e.2 with trigWait := x.trigWait, cmdsWait := x.cmdsWait, cmdScn := x.cmdScn, cmdN := x.cmdN })
    else (e.1, { e.2 with parked := parked }))

/-- The releases of the new application's tasks begin anew at phase 0 of the named SCN, whatever was released under their numbers before
(R196). -/
def freeReleases (m : Mod) : Mod :=
  updMd (fun d => { d with fired := d.fired.filter (fun e => !((6000 ≤ e.1 && e.1 < 6032) || (8000 ≤ e.1 && e.1 < 8032))) }) m

/-- A table by connection number, carried over by connection identity. -/
def transferConns {α : Type} (old new : AppImage) (t : Tab α) : Tab α :=
  new.conns.foldl (fun acc c =>
    match old.conns.find? (fun o => o.cid == c.cid) with
    | some o => (match tabFind t o.num with
        | some v => tabPut acc c.num v
        | none => acc)
    | none => acc) []

/-- The counts of a connection that is no more, added to those that name none: every count runs since start (R373). -/
def addCounts (miss : Nat) (b x : BtnLane) : BtnLane :=
  { x with fmtOld := x.fmtOld + b.fmt + b.fmtOld, sealfOld := x.sealfOld + b.sealf + b.sealfOld, epmisOld := x.epmisOld + b.epmis + b.epmisOld,
           dupOld := x.dupOld + b.dup + b.dupOld, lateOld := x.lateOld + b.late + b.lateOld, missOld := x.missOld + miss + b.missOld }

/-- A lane's counts over the change: by connection identity, the rest kept in sum (R373). -/
def transferBtn (old new : AppImage) (t : Tab BtnLane) : Tab BtnLane :=
  let gone := old.conns.filter (fun o => !new.conns.any (fun c => c.cid == o.cid))
  let rest := gone.foldl (fun x o => addCounts (missOf o (tabGet BtnLane.fresh t o.num)) (tabGet BtnLane.fresh t o.num) x) (tabGet BtnLane.fresh t noConn)
  tabSet BtnLane.fresh (transferConns old new t) noConn rest

/-- The definition a route will be locked with is another, or gone. -/
def defChanged (old new : AppImage) (r : Nat) : Bool := !dirValid new r || dirBase new r != dirBase old r

/-- The route engine over the change (R236). -/
def transferEngine (old new : AppImage) (m : Mod) : Mod :=
  let routes := m.en.routes.map (fun e =>
    if e.2.state ≠ 0 ∧ (!dirValid new e.1 || dirBase new e.1 != e.2.base) then (e.1, { e.2 with carried := true }) else e)
  let m1 := updEn (fun e => { e with routes := routes, cands := [], elems := clearMarks e.elems }) m
  forEach ((m1.en.pend.map (·.1)).filter (defChanged old new)) (fun r acc => endPend r 9 acc) m1

/-- The bank that held the staged image is the active one from now on; the settings go with it (R540). -/
def flipBanks (kinds : List Nat) (m : Mod) : Mod :=
  let hdrs := m.nv.banks.verified.filter (fun p => kinds.contains p.1)
  let parts := kinds.map partOf
  let note (k : Banks) (p : Nat × ImgHeader) : Banks :=
    { k with committed := tabSet 0 k.committed p.1 p.2.version, comps := k.comps.filter (fun c => c.1 != p.1) ++ [(p.1, p.2.comp)] }
  let m1 := updBanks (fun k => parts.foldl (fun b p => { b with act := setBit b.act p (!bitOf b.act p) })
    { hdrs.foldl note k with verified := k.verified.filter (fun p => !(kinds.contains p.1)) }) m
  let old := runProg m
  let move (n : LaneNv) : LaneNv := if old = 0 then { n with area1 := n.area0 } else { n with area0 := n.area1 }
  updMd (fun d => { d with runBank := parts.foldl (fun b p => setBit b p (!bitOf b p)) d.runBank })
    (updLanes (fun _ l => { l with nv := move l.nv }) m1)

/-- The network settings staged with the application come into force (R526). -/
def swapNet (kinds : List Nat) (m : Mod) : Mod :=
  if kinds.contains 5 then
    let b := partBank m 3 (b2n (bitOf m.md.runBank 3))
    { m with net := { Config.netOf b.payload with version := b.version } }
  else m

/-- ONLINE_CHANGE_APPLIED: from phase 0 of the named SCN the new application runs; event 0x18 (R196). Connections whose epoch the new
table raises begin it (R355). -/
def doChangeApplied (m : Mod) : Mod :=
  match m.up.act, m.lg.olcNew with
  | some a, some new =>
    if !a.prepared || !serving m then m
    else
      let m1 := passTo (a.scn * 20000000) m
      let old := m1.lg.app
      let img := transferImage old new m1.cur
      let was := m1
      let m2 := transferEngine old new m1
      let m3 := updLanes (fun _ l => { l with btn := transferBtn old new l.btn })
        (updBt (fun b => { b with conns := transferConns old new b.conns, outTel := transferConns old new b.outTel, outPrev := transferConns old new b.outPrev, bodies := [] }) m2)
      let m4 := { updLg (fun g => { g with app := new, insts := transferInsts old new g.insts, tcbs := transferTasks old new g.tcbs,
                                           olcState := 2, olcAt := some a.scn, olcCount := satN 255 (g.olcCount + 1), olcNew := none }) m3 with cur := img, nxt := img }
      let m5 := swapNet a.kinds (flipBanks a.kinds m4)
      let m6 := updUp (fun u => { u with act := none, result := 2, reason := 0, resKind := 4 }) m5
      let raised := new.conns.filterMap (fun c => (old.conns.find? (fun o => o.cid == c.cid && epochOf was o != epochOf m6 c)).map (fun o => (o, c)))
      raise 0x18 { arg2 := a.scn % 2 ^ 32 } (forEach raised (fun p => epochRaised p.1 p.2) (freeReleases m6))
  | _, _ => m

def execOnlineChangeApplied (s : State) : Host.Outcome State Fault Refusal := s.run doChangeApplied

/-! ## Registers (R203, R204) -/

def lgxOlc (m : Mod) : W32 := pack [(m.lg.olcCount, 24, 8), (m.lg.olcAbt, 8, 8), (m.lg.olcState, 0, 4)]
def lgxXfr (m : Mod) : W32 := pack [(m.lg.fdrop, 21, 11), (m.lg.tchg, 5, 16), (m.lg.slowab, 0, 5)]

end Sys2Proof.Machine
end

