-- ==== Sys2Proof/Machine/Security.lean ====
section
/-! DEFINITION. Lifecycle and security (R554-R575): the service port, owner commands, alarms from the key stores. -/

namespace Sys2Proof.Machine

/-! ## The service port (R560, R561, R563) -/

/-- A failed authentication counts, and the port refuses connections for 2^n seconds, at most 64; trigger 5 when the count reaches
AUTHN (R563, R564). -/
def authFailed (m : Mod) : Mod :=
  let n := satN 255 (m.sec.authf + 1)
  let m1 := updSec (fun s => { s with authf := n, backoffTo := some (m.clk + 2 ^ (min n 6) * 1000000000) }) m
  if n = m.nv.sec.authn then noteTrig 5 m1 else m1

/-- The port accepts connections: it is usable, not in its backoff period, and no session is open. -/
def portOpen (m : Mod) : Bool :=
  !bitOf m.md.bist 7 && m.sec.sess.isNone && (match m.sec.backoffTo with
    | some t => decide (t ≤ m.clk)
    | none => true)

/-- The owner root key as the lanes hold it. -/
def ownerRoot (m : Mod) : Option (List Byte) := agreedBy m (fun l => l.nv.keys.owner)

/-- The client certificate is one the port accepts (R560). -/
def certOk (m : Mod) (role : CertRole) (chain : List Byte) : Bool :=
  match role with
  | .manufacturing => m.sec.lc == .blank && (ownerRoot m).isNone && Config.mfgChainOk chain
  | _ => match ownerRoot m with
    | some root => Config.chainOk root chain
    | none => false

/-- TLS_HANDSHAKE: mutual authentication with one role; with an alarm pending no service role (R560, R563, R566). -/
def doHandshake (suiteOk : Bool) (role : CertRole) (subject : W64) (chain : List Byte) (m : Mod) : Mod :=
  if !portOpen m then m
  else if !(suiteOk && certOk m role chain) then raise 0xF8 {} (authFailed m)
  else if role = .service ∧ alarmPending m then m
  else
    raise 0xF7 { arg1 := subject.toNat % 2 ^ 32, arg2 := subject.toNat / 2 ^ 32 }
      (updSec (fun s => { s with authf := 0, backoffTo := none, sess := some role, sessLane := some (refLane m), subject := subject }) m)

def execTlsHandshake (suiteOk : Bool) (role : CertRole) (subject : W64) (chain : List Byte) (s : State) : Host.Outcome State Fault Refusal :=
  s.run (doHandshake suiteOk role subject chain)

/-- AUTH_BACKOFF_EXPIRED (R563). -/
def doBackoff (m : Mod) : Mod :=
  match m.sec.backoffTo with
  | none => m
  | some t => updSec (fun s => { s with backoffTo := none }) (passClk t m)

def execAuthBackoffExpired (s : State) : Host.Outcome State Fault Refusal := s.run doBackoff

/-! ## Alarms from the key stores (R565) -/

/-- A lane acts on trigger 0 or 2 at once and sends a security alarm frame, and the module acts with it; the other lanes act on the
frame. -/
def laneTrigger (trig : Nat) (l : LaneId) (m : Mod) : Mod :=
  let lvl := levelOf trig m
  alarm trig lvl (laneAlarm lvl l (updLane l (sendXNow m l xAlarm (alarmBytes trig lvl)) m))

/-- MESH_LOOP_BROKEN: trigger 0 (R564, R565). -/
def doMesh (l : LaneId) (m : Mod) : Mod :=
  if !(m.ln.get l).supplied || !(m.ln.get l).mesh then m else laneTrigger 0 l (updLane l (fun x => { x with mesh := false }) m)

def execMeshLoopBroken (lane : LaneId) (s : State) : Host.Outcome State Fault Refusal := s.run (doMesh lane)

/-- KEY_STORE_ENVIRONMENT: trigger 2 (R564, R565). -/
def doEnvironment (l : LaneId) (m : Mod) : Mod :=
  if !(m.ln.get l).supplied || !(m.ln.get l).envOk then m else laneTrigger 2 l (updLane l (fun x => { x with envOk := false }) m)

def execKeyStoreEnvironment (lane : LaneId) (s : State) : Host.Outcome State Fault Refusal := s.run (doEnvironment lane)

/-- SECURITY_ALARM_FRAME: a lane that receives it acts as if it had seen the trigger itself, `delay` µs after reception, at most 100
(R565). The module's own effects come once, with the first lane that acts at the level. -/
def doAlarmFrame (rcv snd : LaneId) (c : XCopies) (delay : Nat) (m : Mod) : Mod :=
  match linkOf rcv snd with
  | none => m
  | some k =>
    let m1 := heardOn rcv k c m
    match xFrameOf c with
    | none => m1
    | some f =>
      let (trig, lvl) := alarmOf f.payload
      if f.type != xAlarm || f.sender != laneNo snd || !(m.ln.get rcv).supplied || lvl == 0 then m1
      else
        let first := allLanes.all (fun l => decide ((m.ln.get l).alarmLevel < lvl))
        let m2 := laneAlarm lvl rcv (passTime (delay * 1000) m1)
        if first then alarm trig lvl m2 else m2

def execSecurityAlarmFrame (rcv snd : LaneId) (line0 line1 : List Byte) (delay : Fin 101) (s : State) : Host.Outcome State Fault Refusal :=
  s.run (doAlarmFrame rcv snd { line0 := line0, line1 := line1 } delay.val)

/-! ## Owner commands (R562, R574) -/

/-- TAG of the entry in the command block, and the command counter after it, little-endian as the channel's entries are (R11, R562). -/
def headTag (h : OwnerHead) : W32 := BitVec.ofNat 32 (readLE h.block 4 4)
def headCounter (h : OwnerHead) : Nat := readLE h.block 64 8

/-- A submission of the service channel is accepted. -/
def acceptService (opc : Nat) (tag : W32) (m : Mod) : Accepted × Mod :=
  let a : Accepted := { src := .service, opc := opc, tag := tag }
  (a, updHost (fun h => { h with open_ := h.open_ ++ [a] }) m)

/-- Completions leave at phase 16,000; in HALT and RECOVERY, where none comes, at once (R435). -/
def settleCpls (m : Mod) : Mod := if operating m then m else flushCpls m

/-- An owner command is refused: event 0xF9. -/
def refuseOwner (a : Accepted) (code pos : Nat) (m : Mod) : Mod := raise 0xF9 { arg1 := a.opc, arg2 := code } (complete a code pos m)

/-- Chain, signature and counter of an owner command, at every lane that takes part (R562). -/
def ownerOk (m : Mod) (h : OwnerHead) : Bool :=
  let chain := match ownerRoot m with
    | some root => Config.chainOk root h.chain
    | none => m.sec.lc == .blank && Config.mfgChainOk h.chain
  chain && Config.ownerSigOk h.chain h.block h.sig && (updateLanes m).all (fun l => decide ((m.ln.get l).nv.keys.counter < headCounter h))

/-- The session is one in which owner commands are valid: an owner's, or in BLANK a manufacturing certificate's. -/
def ownerSession (m : Mod) : Bool := m.sec.sess == some .owner || (m.sec.sess == some .manufacturing && m.sec.lc == .blank)

def updKeys (f : LaneId → KeyStore → KeyStore) (m : Mod) : Mod :=
  updLanes (fun l x => if x.supplied then { x with nv := { x.nv with keys := f l x.nv.keys } } else x) m

/-- An owner command is accepted at the freeze that follows, in HALT and RECOVERY, which have none, at once (R569); one that is authentic is
judged by its own conditions, and the counter is stored (R562). Without a session nothing is received; in a service session the opcode is
unknown. -/
def ownerCmd (h : OwnerHead) (opc : Nat) (run : Accepted → Mod → Mod) (m0 : Mod) : Mod :=
  if m0.sec.sess.isNone then m0
  else
    let (a, m) := acceptService opc (headTag h) (onlyIf (operating m0) toFreeze m0)
    settleCpls (
      if !ownerSession m then complete a 0x04 0 m
      else if !ownerOk m h then noteTrig 6 (authFailed (refuseOwner a 0x30 0 m))
      else run a (updKeys (fun _ k => { k with counter := headCounter h }) m))

/-- 0xF0: provision, in BLANK only (R554, R574). -/
def provisionCmd (root : List Byte) (nid : Nat) (partner : W64) (paired : Bool) (a : Accepted) (m : Mod) : Mod :=
  if m.sec.lc != .blank then refuseOwner a 0x31 1 m
  else
    complete a 0 0 (raise 0xF5 { arg1 := 1 } (updSec (fun s => { s with lc := .provisioned })
      (updNv (fun n => { n with paired := paired, partnerId := partner, sec := { n.sec with nid := nid } })
        (updKeys (fun _ k => { k with owner := some root, lifecycle := .provisioned }) m))))

def execProvision (head : OwnerHead) (root : List Byte) (nid : Nat) (partner : W64) (paired : Bool) (s : State) : Host.Outcome State Fault Refusal :=
  s.run (ownerCmd head 0xF0 (provisionCmd root nid partner paired))

/-- 0xF1: load wrapped keys; with no freeze to come, at once (R559). -/
def loadKeysCmd (es : List KeyEntry) (a : Accepted) (m : Mod) : Mod :=
  let slots := (es.foldl (fun k e => loadKey .a e k) (m.ln.get (refLane m)).nv.keys).channel.length
  if m.sec.lc == .retired || m.sec.lc == .fieldLocked then refuseOwner a 0x31 1 m
  else if es.contains .broken then refuseOwner a 0x07 2 m
  else if 2048 < slots then refuseOwner a 0x07 3 m
  else complete a 0 0 (raise 0xF6 {} (updKeys (fun l k => if operating m then es.foldl (holdKey l) k else es.foldl (fun k e => loadKey l e k) k) m))

def execLoadWrappedKeys (head : OwnerHead) (entries : List KeyEntry) (s : State) : Host.Outcome State Fault Refusal :=
  s.run (ownerCmd head 0xF1 (loadKeysCmd entries))

def lcCode : Lifecycle → Nat
  | .blank => 0
  | .provisioned => 1
  | .field => 2
  | .fieldLocked => 3
  | .retired => 4

/-- Transitions of R554 that opcode 0xF2 makes. -/
def lcMove (x t : Lifecycle) : Bool :=
  match x, t with
  | .provisioned, .field | .provisioned, .retired | .field, .fieldLocked | .field, .retired | .fieldLocked, .field | .fieldLocked, .retired => true
  | _, _ => false

/-- The conditions of R556: all three position keys and NID for FIELD; FIELD-LOCKED to FIELD in HALT or COMMISSION. -/
def lcReady (m : Mod) (t : Lifecycle) : Bool :=
  t != .field || (decide ((posKeys m).length = 3) && m.nv.sec.nid != 0 && (m.sec.lc != .fieldLocked || inHalt m || mode m == .commission))

/-- 0xF2: lifecycle transition; the first entry to FIELD blows the fuses and starts the Podium (R554-R556). -/
def lifecycleCmd (t : Lifecycle) (a : Accepted) (m : Mod) : Mod :=
  if !lcMove m.sec.lc t then refuseOwner a 0x31 1 m
  else if !lcReady m t then refuseOwner a 0x07 2 m
  else if t = .retired then alarmAll 12 (complete a 0 0 m)
  else
    let field := t == .field
    complete a 0 0 (raise 0xF5 { arg1 := lcCode t } (updSec (fun s => { s with lc := t })
      (updNv (fun n => { n with store := { n.store with field := n.store.field || field }, sec := { n.sec with feFused := n.sec.feFused || field } })
        (updKeys (fun _ k => { k with lifecycle := t, fused := k.fused || field }) m))))

def execLifecycleTransition (head : OwnerHead) (target : Lifecycle) (s : State) : Host.Outcome State Fault Refusal :=
  s.run (ownerCmd head 0xF2 (lifecycleCmd target))

/-- Certified ranges of triggers 0-12, before FIELD and from FIELD on (R564). -/
def levelRange (field : Bool) (trig : Nat) : Nat × Nat :=
  match trig with
  | 0 | 1 => if field then (3, 4) else (1, 4)
  | 2 => if field then (3, 4) else (2, 4)
  | 3 => (2, 4)
  | 4 | 5 => (1, 3)
  | 6 => if field then (2, 3) else (1, 3)
  | 7 | 8 | 9 | 10 => (1, 2)
  | 11 => (2, 3)
  | _ => (4, 4)

/-- 0xF3: alarm levels and AUTHN; a value outside its range refuses all of it (R564, R569). -/
def levelsCmd (levels : List Nat) (authn : Nat) (a : Accepted) (m : Mod) : Mod :=
  let field := m.sec.lc == .field
  let ok := levels.length == 13 && levels.zipIdx.all (fun p => decide ((levelRange field p.2).1 ≤ p.1) && decide (p.1 ≤ (levelRange field p.2).2)) &&
    decide (3 ≤ authn) && decide (authn ≤ 20)
  if m.sec.lc == .fieldLocked || m.sec.lc == .retired then refuseOwner a 0x31 1 m
  else if !ok then refuseOwner a 0x32 0 m
  else complete a 0 0 (raise 0xFA {} (updNv (fun n => { n with sec := { n.sec with levels := levels, authn := authn } }) m))

def execSetAlarmLevels (head : OwnerHead) (levels : List Nat) (authn : Nat) (s : State) : Host.Outcome State Fault Refusal :=
  s.run (ownerCmd head 0xF3 (levelsCmd levels authn))

/-- A trigger condition of a key store that is still present raises its alarm again (R568); a module in RECOVERY has run no START that
read them. -/
def stillBroken (m : Mod) : Mod :=
  let on (l : LaneId) : Bool := (m.ln.get l).alive && mode m != .recovery
  let m1 := if allLanes.any (fun l => on l && !(m.ln.get l).mesh) then alarmAll 0 m else m
  if allLanes.any (fun l => on l && !(m.ln.get l).envOk) then alarmAll 2 m1 else m1

/-- 0xF4: clear the pending alarm; the event carries the subject (R568). -/
def clearAlarmCmd (subject : W64) (a : Accepted) (m : Mod) : Mod :=
  if m.nv.sec.pend = 0 then refuseOwner a 0x07 1 m
  else if m.nv.sec.pend = 3 ∧ (posKeys m).length < 3 then refuseOwner a 0x07 2 m
  else
    stillBroken (complete a 0 0 (raise 0xF4 { arg1 := subject.toNat % 2 ^ 32, arg2 := subject.toNat / 2 ^ 32 }
      (updNv (fun n => { n with sec := { n.sec with pend := 0 } }) (updLanes (fun _ l => { l with alarmLevel := 0 }) m))))

def execClearPendingAlarm (head : OwnerHead) (s : State) : Host.Outcome State Fault Refusal :=
  s.run (ownerCmd head 0xF4 (clearAlarmCmd head.subject))

/-- 0xF5: the owner update lock (R569). -/
def lockCmd (on : Bool) (a : Accepted) (m : Mod) : Mod :=
  if m.sec.lc == .fieldLocked then refuseOwner a 0x31 1 m
  else complete a 0 0 (raise 0xFB { arg1 := b2n on } (updNv (fun n => { n with sec := { n.sec with olock := on } }) m))

def execOwnerUpdateLock (head : OwnerHead) (on : Bool) (s : State) : Host.Outcome State Fault Refusal :=
  s.run (ownerCmd head 0xF5 (lockCmd on))

/-- 0xF6: a kind's rollback floor rises to the version running; it never falls (R569). -/
def floorCmd (kind : Nat) (a : Accepted) (m : Mod) : Mod :=
  let run := BitVec.ofNat 32 (if kind = 6 then (tabGet 0 m.nv.banks.committed 6).toNat else (runningVersion m kind 0).getD 0)
  if m.sec.lc == .fieldLocked then refuseOwner a 0x31 1 m
  else if kind = 0 ∨ 6 < kind then refuseOwner a 0x07 2 m
  else
    complete a 0 0 (raise 0xFC { arg1 := kind, arg2 := run.toNat }
      (updKeys (fun _ k => { k with floors := tabSet 0 k.floors kind (if (tabGet 0 k.floors kind).toNat < run.toNat then run else tabGet 0 k.floors kind) }) m))

def execRaiseRollbackFloor (head : OwnerHead) (kind : Nat) (s : State) : Host.Outcome State Fault Refusal :=
  s.run (ownerCmd head 0xF6 (floorCmd kind))

/-- 0xF7: revoke an image verification key, signed by another valid one (R574). -/
def revokeCmd (block : List Byte) (slot signer : Nat) (sig : List Byte) (a : Accepted) (m : Mod) : Mod :=
  let ivk := (m.ln.get (refLane m)).nv.keys.ivk
  let left := ((ivk.set slot false).filter id).length
  if slot = signer ∨ !(ivk.getD signer false) ∨ !(Config.imageSigOk signer block sig) then refuseOwner a 0x07 1 m
  else if left = 0 then refuseOwner a 0x07 2 m
  else complete a 0 0 (raise 0xFD { arg1 := slot } (updKeys (fun _ k => { k with ivk := k.ivk.set slot false }) m))

def execRevokeImageVerificationKey (head : OwnerHead) (slot : Nat) (signer : Nat) (sig : List Byte) (s : State) : Host.Outcome State Fault Refusal :=
  s.run (ownerCmd head 0xF7 (revokeCmd head.block slot signer sig))

/-! ## Registers (R571-R573) -/

def secLc (m : Mod) : W32 := pack [(lcCode m.sec.lc, 28, 4), (m.nv.sec.pend, 24, 4)]
def secAlm (m : Mod) : W32 := pack [(m.nv.sec.ltrig, 28, 4), (m.nv.sec.llvl, 24, 4), (m.nv.sec.count, 0, 16)]

/-- SECLVLL (`hi` false) and SECLVLH. -/
def secLvl (m : Mod) (hi : Bool) : W32 :=
  pack ((List.range 8).map (fun i => let t := i + if hi then 8 else 0; (if t < 13 then levelOf t m else 0, 4 * i, 4)))

def secSvc (m : Mod) : W32 :=
  let sess := match m.sec.sess with
    | none => 0
    | some .owner => 2
    | some _ => 1
  pack [(m.sec.authf, 24, 8), (m.nv.sec.authn, 16, 8), (sess, 0, 2)]

def secMesh (m : Mod) : W32 :=
  pack ((allLanes.map (fun l => (b2n (m.ln.get l).envOk, 4 + laneNo l, 1))) ++ [(b2n m.sec.sealOk, 3, 1)] ++
    (allLanes.map (fun l => (b2n (m.ln.get l).mesh, laneNo l, 1))))

def secKey (m : Mod) : W32 :=
  let k := (m.ln.get (refLane m)).nv.keys
  pack ([(k.channel.length, 16, 12), (b2n k.owner.isSome, 11, 1), ((k.ivk.filter id).length, 0, 4)] ++
    (allLanes.map (fun l => (b2n (m.ln.get l).nv.keys.position.isSome, 8 + laneNo l, 1))) ++
    (allLanes.map (fun l => (b2n (m.ln.get l).nv.keys.identity, 4 + laneNo l, 1))))

/-- SECFLRk: the floor of kind k. -/
def secFlr (m : Mod) (k : Nat) : W32 := tabGet 0 (m.ln.get (refLane m)).nv.keys.floors k

end Sys2Proof.Machine
end

