-- ==== Sys2Proof/Machine/Pair.lean ====
section
/-! DEFINITION. Pair operation (R54, R194, R455-R484, R542): the partner link, forming a pair, joining, staying in step, taking over,
changing over. -/

namespace Sys2Proof.Machine

/-! ## The partner link (R456) -/

/-- Agreed SWI6 and SWI7 (R470). -/
def swi (m : Mod) (j : Nat) : BitVec 2 := m.fio.image.getD (96 + j) 3

/-- PARTNER_LINE_LOST: 20 ms without a valid frame on one line; event 0xDD (R456). -/
def doPartnerLine (line : Bool) (m : Mod) : Mod :=
  let i := b2n line
  if !m.pr.lines.getLsbD i then m
  else
    let m1 := passClk (tabGet 0 m.pr.lineAt i + 20000000) m
    raise 0xDD { src := 4, arg0 := i } (updPr (fun p => { p with lines := p.lines &&& ~~~ BitVec.ofNat 2 (2 ^ i) }) m1)

def execPartnerLineLost (line : Bool) (s : State) : Host.Outcome State Fault Refusal := s.run (doPartnerLine line)

/-- PARTNER_LINE_RESTORED: a lost line that delivers valid frames again is restored once it has done so for 1 s; the link is back with the
line (R100, R456, R462). -/
def doPartnerRestored (line : Bool) (m : Mod) : Mod :=
  let i := b2n line
  match tabFind m.pr.lineSince i with
  | none => m
  | some t =>
    if !linkFitted m || m.pr.lines.getLsbD i then m
    else
      let m1 := passClk (t + 1000000000) m
      drainForward (updPr (fun p => { p with lines := p.lines ||| BitVec.ofNat 2 (2 ^ i), lineAt := tabPut p.lineAt i m1.clk,
                                             lineSince := tabDel p.lineSince i, linkLost := false }) m1)

def execPartnerLineRestored (line : Bool) (s : State) : Host.Outcome State Fault Refusal := s.run (doPartnerRestored line)

/-- PARTNER_LINK_LOST: neither line has delivered for 20 ms (R456). A transfer in progress fails with it (R462). -/
def doPartnerLink (m : Mod) : Mod :=
  if m.pr.linkLost then m
  else
    let t := max (tabGet 0 m.pr.lineAt 0) (tabGet 0 m.pr.lineAt 1) + 20000000
    updPr (fun p => { p with linkLost := true, lines := 0, chunks := [], tail := none }) (passClk t m)

def execPartnerLinkLost (s : State) : Host.Outcome State Fault Refusal := s.run doPartnerLink

/-! ## Hellos (R455-R461, R542, R558) -/

/-- SHADOW asks for LEAD's state while it has none, and both lines deliver (R462). -/
def wantsState (m : Mod) : Bool := mode m == .shadow && m.pr.joining && !m.pr.adopted && m.pr.lines == 3

/-- The module reports timeTraceable of the source it follows (R78). -/
def traceableNow (m : Mod) : Bool :=
  match m.tm.use with
  | .following s => (srcOf m s).traceable
  | _ => false

/-- The content of the module's own hello (R457). -/
def ownHello (m : Mod) : Hello :=
  { identity := m.nv.sec.identity, rank := rankOf m, role := m.pr.role, mode := modeCode (mode m), vset := vsetOf m, inStep := m.pr.instep,
    wantsState := wantsState m, outgoing := m.pr.outgoing, scn := scn m, offset := 0, ownTimeline := m.tm.use == .own,
    traceable := traceableNow m, build := m.lg.app.build, settings := m.net.digest, swi6 := swi m 6 == 1, swi7 := swi m 7 == 1,
    kcv := m.ln.mapL (fun _ x => kcvOf x) }

/-- HELLO: at phase 0 of every basic cycle, from START step 3 (R457, R460). -/
def doHello (m : Mod) : Mod :=
  if !linkFitted m || (mode m == .start && decide (m.md.step < 3)) then m
  else
    let m1 := toBasicFrom 0 22 0 m
    updPr (fun p => { p with helloOut := some (ownHello m1) }) m1

def execHello (s : State) : Host.Outcome State Fault Refusal := s.run doHello

/-- A partner that fails R455 is refused: event 0xDB. A module that forms a pair, or leads one, then works as a single module. -/
def refusePartner (m : Mod) : Mod :=
  if m.pr.refused then m
  else
    let m1 := raise 0xDB {} (updPr (fun p => { p with found := false, refused := true }) m)
    if m1.pr.role = 1 then runAlone m1 else if m1.pr.role = 3 then roleChanged (updPr (fun p => { p with role := 0 }) m1) else m1

/-- A hello of the master is evidence of it to a far end (R304). -/
def noteEvidence (m : Mod) : Mod :=
  updStr (fun s => { s with segs := s.segs.map (fun g => if g.role == 2 then { g with evidence := some (basicOf (now m)) } else g) }) m

/-- What a hello tells of the partner; the time message is source 2 of R51. -/
def noteHello (h : Hello) (m : Mod) : Mod :=
  let m1 := updPr (fun p => { p with pmode := h.mode, pvset := h.vset.bits, prole := h.role, prank := h.rank, pOutgoing := h.outgoing,
                                     pInStep := h.inStep, pWants := h.wantsState, pSwi6 := h.swi6, pSwi7 := h.swi7, heardAt := some m.clk }) m
  let sound := [2, 3, 4, 5, 7].contains h.mode && !h.ownTimeline
  let m1 := onlyIf (decide (2 ≤ h.mode)) noteEvidence m1
  let m2 := updSrc .partner (fun x => { x with traceable := h.traceable }) (measure .partner h.offset m1)
  preferPartner (if sound || (srcOf m2 .partner).valid then setValid .partner sound m2 else m2)

/-- The steps a pair takes in every cycle, image, status and takeover decision, are owed from now on (R72, R457, R474). -/
def owePair (m : Mod) : Mod := forEach [16, 17, 18] owe m

/-- From when a step of the pair is due: since the module serves and the partner is there. -/
def pairDue (key : Nat) (m : Mod) : Nat := max m.md.startedAt ((tabFind m.md.owed key).getD 0)

/-- The first valid hello: event 0xD0, and 0xFE where the key check values differ (R485, R558). -/
def foundPartner (h : Hello) (m : Mod) : Mod :=
  if m.pr.found then m
  else
    let m1 := raise 0xD0 {} (owePair (updPr (fun p => { p with found := true, refused := false }) m))
    onlyIf (m.ln.mapL (fun _ x => kcvOf x) != h.kcv) (raise 0xFE {}) m1

/-- The rows of R460 for a partner that is heard. -/
def discover (h : Hello) (m : Mod) : Mod :=
  if m.pr.role ≠ 3 ∨ mode m != .start ∨ h.mode ≤ 1 then m
  else if h.role ≤ 1 ∨ h.outgoing then roleChanged (updPr (fun p => { p with role := 2, joining := true }) m)
  else if h.mode = 2 ∧ rankOf m = 0 then roleChanged (updPr (fun p => { p with role := 1, ackScn := some (scn m) }) m)
  else m

/-- A module that runs: LEAD becomes single when the partner reports HALT or RECOVERY; a single module leads a partner that reports
SHADOW in step and shows it on its alive wire (R461, R467). -/
def followPartner (h : Hello) (m : Mod) : Mod :=
  if m.pr.outgoing then m
  else if m.pr.role = 1 ∧ h.mode ≤ 1 ∧ !m.pr.chgo then runAlone m
  else if m.pr.role = 0 ∧ serving m ∧ h.role = 2 ∧ h.inStep ∧ swi m 7 = 1 then
    roleChanged (updPr (fun p => { p with role := 1, ackScn := some (scn m), noAckTold := false }) m)
  else m

/-- The other program bank holds the partner's build, usable in two lanes (R542). -/
def otherBankHas (b : W32) (m : Mod) : Bool :=
  let o := 1 - runProg m
  partUsable m 2 o && !bitOf m.nv.banks.fail 2 && (match (goodLanes m o).head? with
    | some l => (progBank (m.ln.get l) o).appBuild == b
    | none => false)

/-- The partner runs another build (R542): SHADOW enters HALT with HCAUSE 10 and event 0xE5, reason 7; a module in START restarts once on
its own other bank where that holds the partner's build; else the partner is refused. -/
def buildDiffers (h : Hello) (m : Mod) : Mod :=
  if m.pr.role = 2 ∧ mode m = .shadow then enterHalt 10 (fellBack 2 7 0 m)
  else if m.pr.role = 3 ∧ mode m = .start ∧ !m.pr.buildTried ∧ otherBankHas h.build m then
    let m1 := updBanks (fun k => { k with next := setBit k.next 2 true, used := setBit k.used 2 false }) (updPr (fun p => { p with buildTried := true }) m)
    let (env, m2) := freeEnv m1
    restart false env m2
  else refusePartner m

/-- HELLO_RECEIVED (R455, R457, R460, R467, R542, R558). -/
def doHelloIn (line0 line1 : LineCopy) (h : Hello) (m : Mod) : Mod :=
  let c : PartnerCopies := { line0 := line0, line1 := line1 }
  if !linkFitted m then m
  else if !copiesOk c then hearFrame c m
  else drainForward (takeHello h (hearFrame c m))
where
  /-- A hello that counts. -/
  takeHello (h : Hello) (m1 : Mod) : Mod :=
    if h.identity ≠ m1.nv.partnerId ∨ h.rank = rankOf m1 then (if operating m1 then refusePartner m1 else m1)
    else if !operating m1 then noteHello h m1
    else if h.build ≠ m1.lg.app.build then buildDiffers h (noteHello h m1)
    else if h.settings ≠ m1.net.digest then refusePartner (noteHello h m1)
    else followPartner h (discover h (foundPartner h (noteHello h m1)))

def execHelloReceived (line0 line1 : LineCopy) (hello : Hello) (s : State) : Host.Outcome State Fault Refusal :=
  s.run (doHelloIn line0 line1 hello)

/-- PRCFG fields (R481). -/
def prWait (m : Mod) : Nat := fieldOf m.cfg.prcfg.toNat 16 8
def prLone (m : Mod) : Bool := bitOf m.cfg.prcfg.toNat 1

/-- A cross wire reads closed: a partner claims to be there. -/
def claimed (m : Mod) : Bool := swi m 6 == 1 || swi m 7 == 1

/-- When the search ends: PRWAIT s after step 4 began or the partner was heard last, 10 s more for rank 1 where no wire is claimed (R460). -/
def searchEnd (m : Mod) : Nat := max m.md.step4At (m.pr.heardAt.getD 0) + (prWait m + (if rankOf m = 1 && !claimed m then 10 else 0)) * 1000000000

/-- PAIR_DISCOVERY_TIMEOUT: the partner has not been heard for as long as R460 waits. -/
def doDiscoveryEnd (m : Mod) : Mod :=
  if m.pr.role ≠ 3 ∨ mode m != .start then m
  else
    let m1 := passClk (searchEnd m) m
    if claimed m then (if m1.pr.xwRow = 9 then m1 else raise 0xD8 {} (updPr (fun p => { p with xwRow := 9 }) m1))
    else if swi m 6 == 0 && swi m 7 == 0 && prLone m1 then roleChanged (updPr (fun p => { p with role := 0 }) m1)
    else m1

def execPairDiscoveryTimeout (s : State) : Host.Outcome State Fault Refusal := s.run doDiscoveryEnd

/-! ## Same inputs, same commands (R463, R464, R466, R467) -/

/-- PARTNER_TELEGRAM: a valid copy is offered to the lane ports (R457, R463). -/
def doPartnerTel (copies : PartnerCopies) (medium seg : Nat) (tel : List Byte) (m0 : Mod) : Mod :=
  let m := hearFrame copies m0
  if !copiesOk copies ∨ !partnerUp m then m
  else mirrorCopy 6 true 3 seg tel (offerTelegram true medium seg tel (updPc (fun c => { c with rcvdPartner := c.rcvdPartner + 1 }) m))

def execPartnerTelegram (copies : PartnerCopies) (medium seg : Nat) (tel : List Byte) (s : State) : Host.Outcome State Fault Refusal :=
  s.run (doPartnerTel copies medium seg tel)

/-- Where the lanes count the entries held of a ring: LEAD's rings stand behind the module's own. -/
def ringKey : SubSrc → Nat
  | .ring q => q.val
  | .lead q => 32 + q.val
  | .service => 64

/-- Highest index held by every voting lane, per ring of LEAD's host; 0xFFFF_FFFF where none is (R466). -/
def heldAcks (m : Mod) : List Nat :=
  (List.range 32).map (fun i =>
    let ns := (voters m).map (fun l => (tabGet 0 (m.ln.get l).subIdx (32 + i)).toNat)
    (BitVec.ofNat 32 (ns.foldl min (ns.headD 0)) - 1#32).toNat)

/-- What was held at phase 15,000 of this cycle, kept before an entry that arrives after it (R466). -/
def keepHeld (m : Mod) : Mod :=
  let kept := m.pr.held15.any (fun p => p.1 == scn m)
  if phase m ≤ 15000 ∨ kept then m else updPr (fun p => { p with held15 := some (scn m, heldAcks m) }) m

/-- What was held at phase 15,000 of this cycle (R466). -/
def acksNow (m : Mod) : List Nat :=
  match m.pr.held15 with
  | some (s, xs) => if s = scn m then xs else heldAcks m
  | none => heldAcks m

/-- A consumed entry is held by every voting lane (R95, R425, R466). -/
def holdSub (sub : Submission) (m0 : Mod) : Mod :=
  let m := match sub.src with
    | .lead _ => keepHeld m0
    | .ring _ | .service => m0
  updLanes (fun _ x => if x.alive then { x with subIdx := tabSet 0 x.subIdx (ringKey sub.src) (BitVec.ofNat 32 (sub.index + 1)) } else x)
    (updHost (fun h => { h with waiting := h.waiting ++ [sub] }) m)

/-- Opcodes of the front-end ring (R437). -/
def feOpcode (opc : Nat) : Bool := opc == 0xB0 || opc == 0xB1

/-- PARTNER_SUBMISSION: SHADOW's lanes hold an entry that LEAD consumed (R466). Front-end commands are LEAD's own front end's. -/
def doPartnerSub (f : PartnerFrame Submission) (m0 : Mod) : Mod :=
  let m := hearFrame f.copies m0
  let sub := f.content
  match sub.src with
  | .ring q => if m.pr.role ≠ 2 ∨ !copiesOk f.copies ∨ !partnerUp m ∨ !operating m ∨ feOpcode sub.opc then m else holdSub { sub with src := .lead q } m
  | _ => m

def execPartnerSubmission (frame : PartnerFrame Submission) (s : State) : Host.Outcome State Fault Refusal := s.run (doPartnerSub frame)

/-- The content of a pair local image that its seals cover: the station 0 image as bytes 20-53 of a local freeze frame lay it out
(R102, R457, R458). How the other fields lie is open. -/
def imageBytes (p : PairImage) : List Byte :=
  Config.layoutBytes 4 (p.scn :: ((localBytes { inputs := p.inputs, volts := p.volts }).take 34).map (·.toNat) ++ p.grp ++ p.diag.map (·.toNat))

/-- The CID of the partner link's seals (R458). -/
def pairCid (m : Mod) : W32 := BitVec.ofNat 32 (0xC0000000 + ownNid m)

/-- Positions and seals of the two lowest sealing lanes over a frame's content (R458). -/
def twoSeals (m : Mod) (bs : List Byte) : Byte × W64 × W64 :=
  let one (l : LaneId) : W64 := match (m.ln.get l).nv.keys.position with
    | some k => sealOf k (laneNo l) (pairCid m) bs
    | none => 0
  match sealers m with
  | k :: l :: _ => (BitVec.ofNat 8 (16 * laneNo k + laneNo l), one k, one l)
  | _ => (0xFF, 0, 0)

/-- Both seals verify, from different positions, in every voting lane: each holds its own position key only, and the seals of the
others as their keys make them (R115, R458). -/
def twoSealed (m : Mod) (spos : Byte) (seal1 seal2 : W64) (bs : List Byte) : Bool :=
  let by_ (n : Nat) (x : W64) : Bool := match laneOf? n with
    | some l => (match (m.ln.get l).nv.keys.position with
        | some k => sealOf k n (pairCid m) bs == x
        | none => false)
    | none => false
  let hi := spos.toNat / 16
  let lo := spos.toNat % 16
  hi != lo && by_ hi seal1 && by_ lo seal2

/-- LEAD's image of this cycle with the seals of its two lowest sealing lanes. -/
def ownImage (m : Mod) : PairImage :=
  let p : PairImage := { scn := scn m, inputs := m.fio.image, volts := (List.range 4).map (fun g => (groupAt m g).volt),
                         grp := (List.range 4).map (fun g => (groupAt m g).grp), diag := (List.range 64).map (driveWord m), spos := 0xFF, seal1 := 0, seal2 := 0 }
  let x := twoSeals m (imageBytes p)
  { p with spos := x.1, seal1 := x.2.1, seal2 := x.2.2 }

def imageSealed (m : Mod) (p : PairImage) : Bool := twoSealed m p.spos p.seal1 p.seal2 (imageBytes p)

/-- A partner frame that arrives, if one does. -/
def hearSome (c : Option PartnerCopies) (m : Mod) : Mod :=
  match c with
  | some x => hearFrame x m
  | none => m

/-- PAIR_LOCAL_IMAGE: LEAD sends its image; SHADOW uses one of this cycle whose seals verify, else its own (R458, R464). -/
def doPairImage (image : Option (PartnerFrame PairImage)) (m0 : Mod) : Mod :=
  if !serving m0 ∨ !partnerUp m0 then m0
  else
    let m1 := hearSome (image.map (·.copies)) (toPhaseFrom (pairDue 16 m0) 16 560 m0)
    if m1.pr.role = 2 then
      let good := match image with
        | some f => if copiesOk f.copies ∧ f.content.scn = scn m1 ∧ imageSealed m1 f.content then some f.content else none
        | none => none
      updPr (fun p => { p with image := good }) m1
    else if leads m1 then updPr (fun p => { p with imageOut := some (ownImage m1) }) m1
    else m1

def execPairLocalImage (image : Option (PartnerFrame PairImage)) (s : State) : Host.Outcome State Fault Refusal := s.run (doPairImage image)

/-- LEAD_NO_ACKNOWLEDGEMENT: 50 station cycles without SHADOW's acknowledgement; event 0xD2 (R467). -/
def doNoAck (m : Mod) : Mod :=
  match m.pr.ackScn with
  | none => m
  | some s =>
    if m.pr.role ≠ 1 ∨ !serving m ∨ m.pr.outgoing ∨ m.pr.noAckTold then m
    else raise 0xD2 {} (updPr (fun p => { p with noAckTold := true }) (passTo ((s + 51) * 20000000 + 1000000) m))

def execLeadNoAcknowledgement (s : State) : Host.Outcome State Fault Refusal := s.run doNoAck

/-! ## Joining (R194, R462) -/

/-- A submission of LEAD's host, as SHADOW holds it. -/
def asLead (a : Accepted) : Accepted :=
  { a with src := match a.src with
    | .ring q => .lead q
    | x => x }

/-- Images, instances, task control blocks and engine as a transferred state spells them (R194, R462). No heat of it sees SYS item 1. -/
def rebuild (x : LeadState) (m : Mod) : Mod :=
  let cur := x.cur.foldl (fun t e => memSet t e.1 e.2) ([] : Memory)
  let nxt := x.nxt.foldl (fun t e => memSet t e.1 e.2) cur
  let cmd (c : TaskCmd) : TaskCmd := { c with sub := asLead c.sub }
  let tcbs := x.tcbs.map (fun e => (e.1, { e.2 with startKind := 0, cmds := e.2.cmds.map cmd, cmdsWait := e.2.cmdsWait.map cmd }))
  let pend := x.pend.map (fun e => (e.1, { e.2 with sub := asLead e.2.sub }))
  let m1 := { updLg (fun g => { g with tcbs := tcbs, insts := x.insts, running := none, stack := [] }) m with cur := cur, nxt := nxt }
  updEn (fun e => { e with locked := x.locked, elems := x.elems, routes := x.routes, pend := pend, cands := [],
                           pubElems := x.elems, pubRoutes := x.routes, pubPend := pend }) m1

/-- The digests of a transfer: variable image, engine state, and all that is transferred. The manual does not list them: a DESIGN CHOICE (log
entry 63). -/
def stateDigests (m : Mod) (x : LeadState) : List W64 :=
  let y := rebuild x m
  [crc64 (allocBytes y), crc64 (engineBytes y), crc64 (Config.stateBytes x)]

/-- Epoch counts that differ begin the epochs they name: each lane closes the counts of the epoch that ends (R354, R359). -/
def adoptEpochs (rebinds : Tab Nat) (m : Mod) : Mod :=
  let m1 := updLanes (fun _ l => { l with nv := { l.nv with rebinds := rebinds } }) m
  forEach (m.lg.app.conns.filter (fun c => epochOf m c != epochOf m1 c)) (fun c acc => updLanes (fun _ x => updBtn c.num (nextEpoch c) x) acc) m1

/-- The output connections on which LEAD has sent a telegram, and no others, have sent one (R346). -/
def adoptSent (sent : List Nat) (m : Mod) : Mod :=
  forEach m.lg.app.conns (fun c acc => updConnSt c.num (fun s => { s with sentAny := sent.contains c.num }) acc) m

/-- SHADOW adopts the state of cycle J, and computes from cycle J + 1 on (R462). -/
def adoptState (x : LeadState) (m : Mod) : Mod :=
  let m2 := sweepDue (rebuild x m)
  let tcbs := m2.lg.tcbs
  let subs := m2.en.pend.map (fun e => e.2.sub) ++ tcbs.flatMap (fun e => ((e.2.cmds ++ e.2.cmdsWait).filter (fun c => !c.done)).map (·.sub))
  let m3 := updMd (fun d => { d with forces := x.forces, areas := x.areas, serveAt := (m.pr.joinScn + 1) * 20000000 + 1000000 }) m2
  let m4 := updHost (fun h => { h with crit := x.crit, open_ := h.open_.filter (fun a => ofRing a.src || a.src == .service) ++ subs }) m3
  updPr (fun p => { p with adopted := true, chunks := [], tail := none }) (adoptSent x.sent (adoptEpochs x.rebinds m4))

/-- The SCN J to whose transfer a chunk that arrives now belongs; `none` between phase 900 and phase 15,400. -/
def transferScn (m : Mod) : Option Nat :=
  if 15400 ≤ phase m then some (scn m) else if phase m ≤ 900 then some (scn m - 1) else none

/-- The content of the last chunk that its seals cover: cycle, chunks, digests, and its part of the state (R457, R458). -/
def tailBytes (j total : Nat) (digests : List W64) (bs : List Byte) : List Byte :=
  Config.layoutBytes 5 (j :: total :: digests.map (·.toNat)) ++ bs

/-- Every chunk has arrived: the state is adopted where the seals verify and the lanes' own digests of the rebuilt state are those of the last
chunk (R458, R462). -/
def completeTransfer (j total : Nat) (m : Mod) : Mod :=
  let fail := updPr (fun p => { p with chunks := [], tail := none }) m
  match m.pr.tail with
  | none => fail
  | some t =>
    let x := Config.leadState (m.pr.chunks.map (·.2))
    if twoSealed m t.spos t.seal1 t.seal2 (tailBytes j total t.digests (tabGet [] m.pr.chunks (total - 1))) && stateDigests m x == t.digests then
      adoptState x m
    else fail

/-- STATE_CHUNK: a chunk arrives on one line, the odd ones on line 1; the state is adopted when every chunk has arrived, and a chunk that fails
lets the transfer begin again (R456, R458, R462). -/
def doChunk (index total : Nat) (copy : LineCopy) (line : Bool) (tail : Option StateTail) (bytes : List Byte) (m0 : Mod) : Mod :=
  let m := hearFrame { line0 := if line then .absent else copy, line1 := if line then copy else .absent } m0
  if mode m != .shadow ∨ !m.pr.joining ∨ m.pr.adopted ∨ !partnerUp m then m
  else
    let fail := updPr (fun p => { p with chunks := [], tail := none }) m
    let sound := copy == .good && decide (index < total) && line == decide (index % 2 = 1) && tail.isSome == decide (index + 1 = total)
    match transferScn m with
    | none => fail
    | some j =>
      if !sound then fail
      else
        let same := m.pr.joinScn == j
        let m1 := updPr (fun p => { p with chunks := tabPut (if same then p.chunks else []) index bytes, joinScn := j,
                                           tail := tail.or (if same then p.tail else none) }) m
        if m1.pr.chunks.length < total then m1 else completeTransfer j total m1

def execStateChunk (index total : Nat) (copy : LineCopy) (line : Bool) (tail : Option StateTail) (bytes : List Byte) (s : State) :
    Host.Outcome State Fault Refusal :=
  s.run (doChunk index total copy line tail bytes)

/-! ## Staying in step (R457, R462, R466, R469) -/

def ownStatus (m : Mod) : PairStatusFrame :=
  let o := m.lg.digests
  { scn := scn m, mode := modeCode (mode m), role := m.pr.role, vset := vsetOf m, var := (o.map (·.var)).getD 0, eng := (o.map (·.eng)).getD 0,
    remote := (o.map (·.remote)).getD 0, acks := if m.pr.role = 2 then acksNow m else [] }

/-- SHADOW is out of step and re-joins (R469). -/
def outOfStep (m : Mod) : Mod :=
  raise 0xD6 {} (updPr (fun p => { p with instep := false, adopted := false, joining := true, chunks := [], tail := none, stepCyc := 0, rejoins := satN 255 (p.rejoins + 1) }) m)

/-- SHADOW's check of LEAD's status. Only a SHADOW that holds LEAD's state is compared. -/
def checkStep (f : Option PairStatusFrame) (m : Mod) : Mod :=
  let div := m.bt.divOut != m.pr.divSeen
  let m1 := updPr (fun p => { p with divSeen := m.bt.divOut }) m
  if !m.pr.adopted then m1
  else if div then outOfStep m1
  else
    match f with
    | none => m1
    | some x =>
      let own := ownStatus m
      if x.var == own.var && x.eng == own.eng && x.remote == own.remote then
        onlyIf m.pr.joining (fun x => owe 17 (raise 0xD1 {} x)) (updPr (fun p => { p with instep := true, joining := false, stepCyc := satN 0xFFFF (p.stepCyc + 1) }) m1)
      else outOfStep m1

/-- LEAD takes SHADOW's acknowledgement. -/
def takeAck (f : Option PairStatusFrame) (m : Mod) : Mod :=
  match f with
  | some x =>
    if x.role = 2 then
      let acks := x.acks.zipIdx.foldl (fun t p => tabSet 0 t p.2 (BitVec.ofNat 32 (p.1 + 1))) ([] : Tab W32)
      updPr (fun p => { p with acks := acks, ackScn := some (scn m), noAckTold := false, stepCyc := if p.pInStep then satN 0xFFFF (p.stepCyc + 1) else 0 }) m
    else updPr (fun p => { p with stepCyc := 0 }) m
  | none => updPr (fun p => { p with stepCyc := 0 }) m

/-- The state of this cycle that LEAD sends to a partner that asks for it (R462): the next-image bytes are those of the tasks whose latest
heat is not published. -/
def ownState (m : Mod) : LeadState :=
  let held := (m.lg.app.tasks.filter (fun d => (tcbOf m d.num).active || (tcbOf m d.num).fresh)).flatMap (·.blocks)
  let x := m.ln.get (refLane m)
  { cur := m.cur, nxt := held.flatMap (fun r => (List.range r.2).map (fun i => (r.1 + i, memGet m.nxt (r.1 + i)))),
    locked := m.en.locked, elems := m.en.elems, routes := m.en.routes, pend := m.en.pend, insts := m.lg.insts, tcbs := m.lg.tcbs,
    forces := m.md.forces, areas := m.md.areas, crit := m.host.crit, rebinds := x.nv.rebinds,
    sent := (m.lg.app.conns.filter (fun c => (connSt m c.num).sentAny)).map (·.num) }

/-- The chunks of a state as spelled. -/
def chunksOf (bs : List Byte) : List (List Byte) :=
  let n := Config.chunkTop + 1
  (List.range (max 1 ((bs.length + n - 1) / n))).map (fun i => (bs.drop (n * i)).take n)

/-- The transfer of this cycle's state: chunks, and with the last one digests and two seals (R457, R458). -/
def transferOf (m : Mod) : StateOut :=
  let x := ownState m
  let cs := chunksOf (Config.stateBytes x)
  let ds := stateDigests m x
  let s := twoSeals m (tailBytes (scn m) cs.length ds (cs.getLastD []))
  { scn := scn m, state := x, chunks := cs, tail := { digests := ds, spos := s.1, seal1 := s.2.1, seal2 := s.2.2 } }

/-- LEAD, or a single module, sends its state to a partner that asks for it (R462). -/
def sendState (m : Mod) : Mod :=
  if m.pr.pWants ∧ partnerUp m ∧ leads m then { m with stateOut := some (transferOf m) } else m

/-- PAIR_STATUS at phase 15,400: both modules send, an outgoing one too; SHADOW compares (R457, R462, R469). -/
def doPairStatus (frame : Option (PartnerFrame PairStatusFrame)) (m : Mod) : Mod :=
  if !m.nv.paired ∨ !serving m then m
  else
    let m1 := hearSome (frame.map (·.copies)) (toPhaseFrom (pairDue 18 m) 18 15400 m)
    let f := match frame with
      | some x => if copiesOk x.copies ∧ partnerUp m1 ∧ x.content.scn = scn m1 then some x.content else none
      | none => none
    let m2 := sendState (updPr (fun p => { p with statusOut := some (ownStatus m1), status := f }) m1)
    if m2.pr.outgoing then m2 else if m2.pr.role = 2 then checkStep f m2 else if m2.pr.role = 1 then takeAck f m2 else m2

def execPairStatus (frame : Option (PartnerFrame PairStatusFrame)) (s : State) : Host.Outcome State Fault Refusal := s.run (doPairStatus frame)

/-! ## Takeover and changeover (R472-R475) -/

/-- SHADOW takes over: event 0xD5, then 0x00 (R474, R475). -/
def takeOver (m : Mod) : Mod := becomeLead (raise 0xD5 {} (updPr (fun p => { p with takeovers := satN 255 (p.takeovers + 1) }) m))

/-- The row of R474 that applies; 0 none. A wire that does not read open counts as closed. -/
def takeoverRow (m : Mod) : Nat :=
  let o6 := swi m 6 == 0
  let o7 := swi m 7 == 0
  let dead := decide (m.pr.pmode ≤ 1)
  let lost := m.pr.linkLost
  if o6 && o7 then (if dead || lost then 1 else if m.pr.prole ≤ 1 then 2 else 0)
  else if o6 || o7 then (if lost then 7 else 3)
  else if dead then 4
  else if lost then 5
  else 6

/-- TAKEOVER_DECISION at phase 560 of each cycle (R474). The events of a row are raised when it begins to apply. -/
def decideTakeover (m : Mod) : Mod :=
  if mode m != .shadow ∨ !m.pr.instep then m
  else
    let m1 := toPhaseFrom (pairDue 17 m) 17 560 m
    let r := takeoverRow m1
    let m2 := updPr (fun p => { p with xwRow := r, xwf := r == 3 || r == 7 }) m1
    let fresh := m1.pr.xwRow != r
    if r = 1 then takeOver m2
    else if !fresh then m2
    else if r = 2 ∨ r = 3 ∨ r = 4 then raise 0xD8 {} m2
    else if r = 7 then raise 0xD2 {} (raise 0xD8 {} m2)
    else if r = 5 then raise 0xD2 {} m2
    else m2

def execTakeoverDecision (s : State) : Host.Outcome State Fault Refusal := s.run decideTakeover

/-- The outgoing module opens every switch and enters HALT with HCAUSE 6; event 0xD4 (R472). -/
def outgoingHalt (m : Mod) : Mod :=
  enterHalt 6 (raise 0xD4 {} (updPr (fun p => { p with outgoing := false, chgo := false }) m))

/-- OUTGOING_DEADLINE: SWI6 not closed by the freeze of N + 3; event 0xD8 (R472). -/
def doOutgoingDeadline (m : Mod) : Mod :=
  if !m.pr.outgoing ∨ !serving m then m
  else
    let m1 := passTo ((m.pr.chgScn + 3) * 20000000 + 16000000) m
    outgoingHalt (onlyIf (swi m1 6 != 1) (raise 0xD8 {}) m1)

def execOutgoingDeadline (s : State) : Host.Outcome State Fault Refusal := s.run doOutgoingDeadline

/-- Days since the module last drove its local outputs, as the lanes agree them (R479). -/
def drillDays (m : Mod) : Nat := agreedBy m (fun l => l.nv.days)

/-- DRILL_DAY: one more day of station time without driving; event 0xDA while DAYS is 30 or more (R479). -/
def doDrill (m : Mod) : Mod :=
  if !m.tm.taken then m
  else
    let m1 := passTo ((now m / 86400000000000 + 1) * 86400000000000) m
    let m2 := updLanes (fun _ x => { x with nv := { x.nv with days := if drives m1 then 0 else satN 0xFFFF (x.nv.days + 1) } }) m1
    onlyIf (decide (30 ≤ drillDays m2)) (raise 0xDA {}) m2

def execDrillDay (s : State) : Host.Outcome State Fault Refusal := s.run doDrill

/-! ## Submissions (R484) -/

/-- 0xD0: changeover. SHADOW applies LEAD's command as LEAD does: what LEAD sees on its wires its hello tells (R457, R466, R472, R484). -/
def changeoverSub (a : Accepted) (_ : Submission) (m : Mod) : Mod :=
  let t := cmdMode m
  let fit := runs t || t == .maintain
  let go (x : Mod) : Mod := owe 15 (updPr (fun p => { p with chgo := true, chgDue := true, chgScn := scn m, changeovers := satN 255 (p.changeovers + 1) }) x)
  if m.pr.role = 2 then
    if !fit then refuse a 2 m
    else if !m.pr.instep ∨ m.pr.stepCyc < 50 then refuse a 3 m
    else if !m.pr.pSwi7 ∨ m.pr.pSwi6 then refuse a 4 m
    else if m.pr.chgo then refuse a 5 m
    else complete a 0 0 (go m)
  else if m.pr.role ≠ 1 ∨ m.pr.outgoing then refuse a 1 m
  else if !fit then refuse a 2 m
  else if m.pr.prole ≠ 2 ∨ m.pr.stepCyc < 50 then refuse a 3 m
  else if swi m 7 ≠ 1 ∨ swi m 6 = 1 then refuse a 4 m
  else if m.pr.chgo then refuse a 5 m
  else complete a 0 0 (raise 0xD3 {} (go m))

/-- 0xD1: re-join (R469, R484). -/
def reJoinSub (a : Accepted) (sub : Submission) (m : Mod) : Mod :=
  let forwarded := match sub.src with
    | .lead _ => true
    | _ => false
  if m.pr.role != 2 || forwarded then refuse a 1 m
  else if m.pr.joining then refuse a 2 m
  else
    complete a 0 0 (updPr (fun p => { p with joining := true, adopted := false, instep := false, chunks := [], tail := none, stepCyc := 0,
                                             rejoins := satN 255 (p.rejoins + 1) }) m)

/-! ## Registers (R480-R483) -/

/-- PRCFG (R481). -/
def prCfg (m : Mod) : W32 := pack [(fieldOf m.cfg.prcfg.toNat 24 5, 24, 5), (prWait m, 16, 8), (b2n (prLone m), 1, 1), (b2n m.nv.paired, 0, 1)]

/-- PRSTS (R482). -/
def prSts (m : Mod) : W32 :=
  pack [(m.pr.pmode, 29, 3), (m.pr.pvset, 26, 3), (m.pr.lines.toNat, 14, 2), (b2n (swi m 7 == 1), 13, 1), (b2n (swi m 6 == 1), 12, 1),
        (b2n m.pr.dual, 11, 1), (b2n m.pr.xwf, 10, 1), (b2n m.pr.chgo, 9, 1), (b2n m.pr.instep, 8, 1), (m.pr.role, 0, 2)]

/-- PRDRL (R483). -/
def prDrl (m : Mod) : W32 := pack [(b2n (decide (30 ≤ drillDays m)), 16, 1), (drillDays m, 0, 16)]

/-- PRCNT (R483). -/
def prCnt (m : Mod) : W32 := pack [(m.pr.changeovers, 24, 8), (m.pr.takeovers, 16, 8), (m.pr.rejoins, 8, 8), (m.pr.withheld, 0, 8)]

end Sys2Proof.Machine
end

