-- ==== Sys2Proof/Machine/Submit.lean ====
section
/-! DEFINITION. Submissions (R95, R182, R426-R443): taking an entry from its ring, acceptance, the checks that come before an opcode's
own, critical commands, and one command for each opcode. A submission command stands for an entry that is consumed and accepted. -/

namespace Sys2Proof.Machine

/-- What an opcode does with an accepted submission. -/
abbrev Handler := Accepted → Submission → Mod → Mod

/-! ## Taking an entry (R425-R427, R466, R467, R472) -/

/-- Entries consumed from every SQ that targets CQ `c` and not yet completed (R427). -/
def cqPending (m : Mod) (c : Nat) : Nat :=
  ((m.host.rings.filter (fun e => decide (e.1 < 32) && e.2.target % 32 + 32 == c)).map (fun e => e.2.open_)).foldl (· + ·) 0

/-- A completion slot stays reserved for one more entry of SQ `q` (R427). -/
def slotLeft (m : Mod) (q : Nat) : Bool :=
  let c := (ringOf m q).target % 32 + 32
  let r := ringOf m c
  decide (diff32 r.count r.ack + cqPending m c + 1 < ringSize r)

/-- Entries consumed from SQ `q` in this station cycle (R426). -/
def takenNow (m : Mod) (q : Nat) : Nat := if (ringOf m q).cycScn = scn m then (ringOf m q).cycN else 0

/-- SQ `q` may be consumed: ring processing runs, the ring is enabled and not faulted, at most 64 entries a cycle; the outgoing module
consumes front-end rings only (R426, R428, R472). In HALT no submission is accepted, so a front-end ring waits (R38, R434). -/
def sqOpen (m : Mod) (q : Nat) : Bool :=
  let r := ringOf m q
  ledgerUp m && r.en && !r.fault && decide (takenNow m q < 64) && (!m.pr.outgoing || r.cls) && (operating m || !r.cls)

/-- One entry of SQ `q` is consumed; RAUX counts it until its completion is written (R423-R427, R453). -/
def consume (q : Nat) (m : Mod) : Mod :=
  let n := takenNow m q + 1
  let m1 := updRing q (fun r => { r with count := r.count + 1, aux := r.aux + 1, open_ := r.open_ + 1, cycN := n, cycScn := scn m, held := 0, heldTold := false }) m
  updPc (fun c => { c with consumed := c.consumed + 1 }) (updHost (fun h => { h with head := tabSet 0 h.head q (ringOf m1 q).count }) m1)

/-- LEAD has SHADOW's acknowledgement of the station cycle before (R466, R467). -/
def ackFresh (m : Mod) : Bool :=
  match m.pr.ackScn with
  | some s => decide (scn m ≤ s + 1)
  | none => false

/-- A submission is accepted: it will be completed exactly once (R42). Once host ring memory is invalid the counts keep their values
(R453). -/
def accept (sub : Submission) (m : Mod) : Mod :=
  let m1 := updHost (fun h => { h with open_ := h.open_ ++ [acceptedOf sub sub.opc], order := h.order ++ [acceptedOf sub sub.opc],
                                       cycleSubs := (if h.cycleAt = scn m + 1 then h.cycleSubs else []) ++ [sub], cycleAt := scn m + 1 }) m
  match sub.src with
  | .ring _ => if ledgerUp m then updHost (fun h => { h with acc := h.acc + 1 }) m1 else m1
  | _ => m1

/-- Opcodes that the service channel carries, in a session of any role: an owner's may do what a service session may (R533, R560). -/
def updateOpcode (opc : Nat) : Bool := decide (0xE0 ≤ opc) && decide (opc ≤ 0xE5)

/-- A submission may be taken now: from a ring of the host, from LEAD's, or over the service channel. -/
def mayTake (m : Mod) (sub : Submission) : Bool :=
  match sub.src with
  | .ring q => operating m && sqOpen m q.val && slotLeft m q.val
  | .lead _ => operating m && !feGone m && m.pr.role == 2 && partnerUp m && !feOpcode sub.opc
  | .service => !feGone m && updateOpcode sub.opc && m.sec.sess.isSome

/-! ## The checks before an opcode's own (R433, R434, R437, R440, R562) -/

/-- The entry stood on a front-end ring. -/
def onFeRing (m : Mod) (sub : Submission) : Bool :=
  match sub.src with
  | .ring q => (ringOf m q.val).cls
  | _ => false

/-- The mode bars the submission: START accepts set-up only, SHADOW what R434 lists; a submission of LEAD's host is processed as LEAD
processes it (R38, R434, R466). -/
def modeBars (m : Mod) (sub : Submission) : Bool :=
  match sub.src with
  | .ring _ =>
    (mode m == .start && !([0x02, 0x08, 0xA0, 0xC0].contains sub.opc)) || (mode m == .shadow && !([0xA0, 0xC0, 0xD1].contains sub.opc))
  | _ => false

/-- Opcodes that trigger a transition (R122); refused in a mode for which they name none they raise event 0x05 as well. -/
def isTrigger (opc : Nat) : Bool := opc == 0x01 || opc == 0x04 || opc == 0x05

/-- The task of an application command: that of its sealed DATA where it carries a terminal telegram, for only DATA counts (R441). -/
def taskNamed (sub : Submission) : Nat := if sub.crit then byteAt (telData sub.blob) 2 else sub.task

/-- The submission has to be a critical one (R440). -/
def needsCrit (m : Mod) (sub : Submission) : Bool :=
  sub.opc == 0x04 || sub.opc == 0x05 || sub.opc == 0x81 || (sub.opc == 0x0B && (taskDesc m (taskNamed sub)).any (·.critical))

/-! ## Critical commands (R370, R371, R440-R443) -/

/-- HIFCFG.CWIN (R419). -/
def confWin (m : Mod) : Nat := fieldOf m.cfg.hifcfg.toNat 0 12

/-- OPER of a command in DATA, whose multi-byte fields are in network order, in the order of a submission (R11, R441). -/
def hostOper (opc : Nat) (bs : List Byte) : List Byte :=
  if opc = 0x81 then (cut bs 0 2).reverse ++ cut bs 2 6 ++ (cut bs 8 8).reverse ++ bs.drop 16
  else if opc = 0x0B then (List.range 10).flatMap (fun i => (cut bs (4 * i) 4).reverse)
  else bs

/-- The command as it stands in the sealed DATA. -/
def sealedSub (sub : Submission) (d : List Byte) : Submission :=
  { sub with task := byteAt d 2, nscn := readBE d 8 8, oper := hostOper sub.opc (cut d 16 40) }

/-- DATA without STEP. -/
def lessStep (d : List Byte) : List Byte := d.take 1 ++ d.drop 2

/-- A step 2 telegram: the DETAIL of the first case of R443 that fails, 0 where none does. -/
def confirmFault (m : Mod) (p : Option CritPend) (d : List Byte) (seq : Nat) : Nat :=
  match p with
  | none => 1
  | some x => if lessStep d ≠ lessStep x.data then 2 else if seq < x.seq + 25 then 3 else if x.seq + confWin m < seq then 4 else 0

/-- A critical submission: its terminal telegram is checked, and stored or confirmed; only a confirmed command is carried out. -/
def critical (f : Handler) (a : Accepted) (sub : Submission) (m : Mod) : Mod :=
  let d := telData sub.blob
  let extra := (List.range 30).find? (fun i => byteAt sub.oper (10 + i) != 0)
  if readLE sub.oper 8 2 ≠ 88 then badOperand a 24 m
  else if extra.isSome then badOperand a (26 + extra.getD 0) m
  else if sub.blob.length ≠ 88 then badOperand a 16 m
  else if byteAt d 0 ≠ sub.opc then badOperand a 0 m
  else if readBE d 4 4 ≠ sub.tag.toNat then badOperand a 4 m
  else if byteAt d 1 = 0 ∨ 2 < byteAt d 1 then badOperand a 16 m
  else
    let (k, m1) := checkTerminal sub.blob m
    let term := (k.conn.map (fun c => cidNum c.cid)).getD noArg
    if k.step ≠ 0 then complete a 0x09 k.step (raise 0xA9 { arg0 := term, arg1 := k.step } (noteTrig 10 m1))
    else if byteAt d 1 = 1 then
      let m2 := onlyIf (tabFind m1.host.crit term).isSome (raise 0xC6 { arg0 := term, arg1 := 1 }) m1
      complete a 0x01 0 (updHost (fun h => { h with crit := tabPut h.crit term { data := d, seq := k.full } }) m2)
    else
      let why := confirmFault m1 (tabFind m1.host.crit term) d k.full
      if why ≠ 0 then complete a 0x0A why m1
      else
        f a (sealedSub sub d) (raise 0xCB { arg0 := term, arg1 := sub.opc } (updHost (fun h => { h with crit := tabDel h.crit term }) m1))

/-- A refusal before an opcode's own conditions: of an update command it shows in UPDSTS as well (R549). -/
def refuseEarly (a : Accepted) (code detail : Nat) (m : Mod) : Mod := onlyIf (updateOpcode a.opc) (noteRefused a code detail) m

/-- An accepted submission is processed; `none`: an opcode that R437 does not list, or an owner command on a host ring. -/
def runSub (f : Option Handler) (a : Accepted) (sub : Submission) (m : Mod) : Mod :=
  if onFeRing m sub then
    match f with
    | none => completeNow a 0x04 0 m
    | some g =>
      if !(feOpcode sub.opc || sub.opc == 0xC0) then completeNow a 0x06 1 (refuseEarly a 0x06 1 m)
      else if sub.crit then completeNow a 0x0B 2 m
      else g a sub m
  else if feOpcode sub.opc then complete a 0x06 0 m
  else if modeBars m sub then
    complete a 0x02 (modeCode (mode m)) (refuseEarly a 0x02 (modeCode (mode m)) (onlyIf (isTrigger sub.opc) (raise 0x05 {}) m))
  else
    match f with
    | none => complete a 0x04 0 m
    | some g =>
      if needsCrit m sub then (if sub.crit then critical g a sub m else complete a 0x0B 1 m)
      else if sub.crit then complete a 0x0B 2 (refuseEarly a 0x0B 2 m)
      else g a sub m

/-- LEAD forwards an interlocking-ring entry it has consumed to SHADOW (R457, R466, R472). -/
def forwardSub (sub : Submission) (m : Mod) : Mod :=
  if m.pr.role = 1 ∧ partnerUp m ∧ !m.pr.outgoing ∧ !onFeRing m sub then updPr (fun p => { p with subOut := p.subOut ++ [sub] }) m else m

/-! ## Application commands and no operation (R182, R437) -/

/-- 0x0B: the command waits for its event task's next heat, and is a trigger of it (R181, R182). -/
def appSub (a : Accepted) (sub : Submission) (m : Mod) : Mod :=
  let x := tcbOf m sub.task
  let event := (taskDesc m sub.task).any (fun d => d.kind == .evMain || d.kind == .evSlack)
  let n := if x.cmdScn = scn m then x.cmdN else 0
  if !event then badOperand a 2 m
  else if fieldOf sub.tag.toNat 12 8 ≠ 0 then badOperand a 4 m
  else if x.parked then complete a 0x0C sub.task m
  else if 64 ≤ n then complete a 0x0D sub.task (raise 0x16 { arg0 := sub.task } m)
  else
    let words := (List.range 10).map (fun i => BitVec.ofNat 32 (readLE sub.oper (4 * i) 4))
    updTcb sub.task (fun y => { y with cmdsWait := y.cmdsWait ++ [{ sub := a, words := words, fetched := false, done := false }], trigWait := y.trigWait + 1,
                                       cmdScn := scn m, cmdN := n + 1 }) m

/-- 0xC0: no operation. -/
def nopSub (a : Accepted) (_ : Submission) (m : Mod) : Mod := completeNow a 0 0 m

/-- The handler of an opcode, for entries taken from the rings. The result of a block's BIST (0x0A) is open there. -/
def handlerOf (pass : Bool) (opc : Nat) : Option Handler :=
  match opc with
  | 0x01 => some goRunSub
  | 0x02 => some haltSub
  | 0x04 => some grantSub
  | 0x05 => some returnSub
  | 0x06 => some forceSub
  | 0x07 => some releaseSub
  | 0x08 => some routeRequestSub
  | 0x09 => some routeCancelSub
  | 0x0A => some (blockBistSub pass)
  | 0x0B => some appSub
  | 0x21 => some clearExclSub
  | 0x60 => some ackSagSub
  | 0x61 => some clearExtSub
  | 0x62 => some clearChannelSub
  | 0x63 => some discardSub
  | 0x80 => some switchSub
  | 0x81 => some rebindSub
  | 0xA0 => some readCountersSub
  | 0xB0 => some canTransmitSub
  | 0xB1 => some (canCancelSub false)
  | 0xC0 => some nopSub
  | 0xD0 => some changeoverSub
  | 0xD1 => some reJoinSub
  | 0xE0 => some openSub
  | 0xE1 => some headerSub
  | 0xE2 => some chunkSub
  | 0xE3 => some verifySub
  | 0xE4 => some activateSub
  | 0xE5 => some closeSub
  | 0xE8 => some startRead
  | 0xE9 => some stopRead
  | 0xEA => some rollCallSub
  | 0xEB => some setCountersSub
  | _ => none

/-! ## Acceptance (R95, R434, R466, R467) -/

/-- A lane that holds `count` entries of a ring holds the entry of that index; counts are compared modulo 2^32 (R424). -/
def upTo (count : W32) (index : Nat) : Bool := decide (diff32 count (BitVec.ofNat 32 (index + 1)) < 2147483648)

/-- Every list of the remote freeze names an index of the ring at or above this one (R95, R96). -/
def inLists (m : Mod) (q index : Nat) : Bool :=
  !(remoteLists m).isEmpty && (remoteLists m).all (fun p => upTo (p.rings.getD q 0xFFFFFFFF#32 + 1) index)

/-- SHADOW's own acknowledgement of the cycle before covers the entry (R466). -/
def ownAcked (m : Mod) (q index : Nat) : Bool :=
  match m.pr.statusOut with
  | some f => decide (scn m ≤ f.scn + 1) && upTo (BitVec.ofNat 32 (f.acks.getD q 0xFFFFFFFF) + 1) index
  | none => false

/-- The agreed index reaches a held submission (R95); in a pair the lower of both modules' values counts (R466, R467). What the former LEAD's
host left outstanding the new LEAD accepts as it holds it (R468). -/
def agreedIdx (m : Mod) (sub : Submission) : Bool :=
  match sub.src with
  | .ring q =>
    inLists m q.val sub.index &&
      (m.pr.role != 1 || (ackFresh m && upTo (tabGet 0 m.pr.acks q.val) sub.index))
  | .lead q =>
    (m.pr.role != 2 || ownAcked m q.val sub.index) &&
      (voters m).all (fun l => upTo (tabGet 0 (m.ln.get l).subIdx (ringKey sub.src)) sub.index)
  | .service => true

/-- Held submissions of which `ok` holds, in ring order and within a ring in index order (R433). -/
def inOrder (ok : Submission → Bool) (m : Mod) : List Submission :=
  if feGone m then [] else
  (List.range 65).flatMap (fun k => m.host.waiting.filter (fun s => ringKey s.src == k && ok s))

/-- Held submissions accepted at this freeze. -/
def toAccept (m : Mod) : List Submission := inOrder (agreedIdx m) m

/-- One accepted submission is processed, if nothing has completed it yet. -/
def runWith (f : Option Handler) (sub : Submission) (m : Mod) : Mod :=
  let a := acceptedOf sub sub.opc
  if a ∉ m.host.open_ then m else runSub f a sub m

/-- One accepted submission is processed, if nothing has completed it yet; whether a block's BIST passes is open (log entry 20). -/
def runAccepted (sub : Submission) (m : Mod) : Mod :=
  let a := acceptedOf sub sub.opc
  if a ∉ m.host.open_ then m
  else if sub.opc = 0x0A then
    let (v, m1) := takeFree m
    runSub (handlerOf (v.getLsbD 0) sub.opc) a sub m1
  else runSub (handlerOf true sub.opc) a sub m

/-- The verification of critical commands accepted at this freeze is deferred (R145). -/
def critDeferred (m : Mod) : Bool := m.md.critDefer != 0 && m.md.critDefer == scn m

/-- SUBMISSION_ACCEPTANCE: what is agreed is accepted, then processed in order by `run`, after what the freeze before deferred; what is later
waits for the next freeze (R95, R145, R433). -/
def acceptBy (ok : Submission → Bool) (run : Submission → Mod → Mod) (m : Mod) : Mod :=
  let subs := inOrder ok m
  let held (s : Submission) : Bool := critDeferred m && s.crit
  let m1 := updHost (fun h => { h with waiting := h.waiting.filter (fun s => !(ok s)), critWait := subs.filter held }) m
  forEach (m.host.critWait ++ subs.filter (fun s => !held s)) run (forEach subs accept m1)

def acceptAll (m : Mod) : Mod := acceptBy (agreedIdx m) runAccepted m

/-! ## A submission by its own command -/

/-- The doorbell names the entry, which the host has written before it (R425). -/
def ringBell (q : Nat) (m : Mod) : Mod :=
  updRing q (fun r => if r.ack = r.count then { r with ack := r.count + 1 } else r) m

/-- The entry is taken from the ring that carries it, with its telegram's copy, and forwarded to SHADOW (R426, R440, R452, R466). -/
def takeIn (sub : Submission) (m : Mod) : Mod :=
  match sub.src with
  | .ring q =>
    forwardSub sub (onlyIf (sub.crit && !sub.blob.isEmpty) (mirrorCopy 5 true 2 0 sub.blob)
      (consume q.val (ringBell q.val (updPr (fun p => { p with subOut := [] }) m))))
  | .service | .lead _ => m

/-- In a pair the partner's acknowledgement covers the entry (R466, R467). -/
def pairAgrees (m : Mod) (sub : Submission) : Bool :=
  match sub.src with
  | .ring q => m.pr.role != 1 || (ackFresh m && upTo (tabGet 0 m.pr.acks q.val) sub.index)
  | .lead q => m.pr.role != 2 || ownAcked m q.val sub.index
  | .service => true

/-- A submission command. An entry of a front-end ring is accepted and executed when it is consumed, and one of the service channel when it is
received (R398, R433, R533). An entry of an interlocking ring is consumed and held, every lane's list naming it, and accepted at the next
freeze among those that wait; where the partner has not acknowledged it, it goes on waiting (R95, R433, R466). -/
def direct (opc : Nat) (f : Handler) (sub0 : Submission) (m : Mod) : Mod :=
  let sub := { sub0 with opc := opc }
  if !mayTake m sub then m
  else if sub.src = .service then settleCpls (runSub (some f) (acceptedOf sub opc) sub (accept sub m))
  else if onFeRing m sub then runSub (some f) (acceptedOf sub opc) sub (accept sub (takeIn sub m))
  else
    let m1 := toFreeze (holdSub sub (takeIn sub m))
    acceptBy (fun s => if s = sub then pairAgrees m1 s else agreedIdx m1 s)
      (fun s => if s = sub then runWith (some f) s else runAccepted s) m1

/-! ## The commands, in the order of R437 -/

def execGoToRun (sub : Submission) (s : State) : Host.Outcome State Fault Refusal := s.run (direct 0x01 goRunSub sub)
def execHaltRequest (sub : Submission) (s : State) : Host.Outcome State Fault Refusal := s.run (direct 0x02 haltSub sub)
def execPossessionGrant (sub : Submission) (s : State) : Host.Outcome State Fault Refusal := s.run (direct 0x04 grantSub sub)
def execPossessionReturn (sub : Submission) (s : State) : Host.Outcome State Fault Refusal := s.run (direct 0x05 returnSub sub)
def execForceSet (sub : Submission) (s : State) : Host.Outcome State Fault Refusal := s.run (direct 0x06 forceSub sub)
def execForceRelease (sub : Submission) (s : State) : Host.Outcome State Fault Refusal := s.run (direct 0x07 releaseSub sub)
def execRouteRequest (sub : Submission) (s : State) : Host.Outcome State Fault Refusal := s.run (direct 0x08 routeRequestSub sub)
def execRouteCancel (sub : Submission) (s : State) : Host.Outcome State Fault Refusal := s.run (direct 0x09 routeCancelSub sub)
def execRunBlockBist (sub : Submission) (pass : Bool) (s : State) : Host.Outcome State Fault Refusal :=
  s.run (direct 0x0A (blockBistSub pass) sub)
def execApplicationCommand (sub : Submission) (s : State) : Host.Outcome State Fault Refusal := s.run (direct 0x0B appSub sub)
def execClearExclusionRecord (sub : Submission) (s : State) : Host.Outcome State Fault Refusal := s.run (direct 0x21 clearExclSub sub)
def execAcknowledgeSagLatch (sub : Submission) (s : State) : Host.Outcome State Fault Refusal := s.run (direct 0x60 ackSagSub sub)
def execClearExternalFeedLatch (sub : Submission) (s : State) : Host.Outcome State Fault Refusal := s.run (direct 0x61 clearExtSub sub)
def execClearChannelLatch (sub : Submission) (s : State) : Host.Outcome State Fault Refusal := s.run (direct 0x62 clearChannelSub sub)
def execDiscardLearnedCurrent (sub : Submission) (s : State) : Host.Outcome State Fault Refusal := s.run (direct 0x63 discardSub sub)
def execSwitchSchedule (sub : Submission) (s : State) : Host.Outcome State Fault Refusal := s.run (direct 0x80 switchSub sub)
def execRebindStationIdentity (sub : Submission) (s : State) : Host.Outcome State Fault Refusal := s.run (direct 0x81 rebindSub sub)
def execReadConnectionCounters (sub : Submission) (s : State) : Host.Outcome State Fault Refusal := s.run (direct 0xA0 readCountersSub sub)
def execHostCanTransmit (sub : Submission) (s : State) : Host.Outcome State Fault Refusal := s.run (direct 0xB0 canTransmitSub sub)
def execCancelHostTransmit (sub : Submission) (started : Bool) (s : State) : Host.Outcome State Fault Refusal :=
  s.run (direct 0xB1 (canCancelSub started) sub)
def execNoOperation (sub : Submission) (s : State) : Host.Outcome State Fault Refusal := s.run (direct 0xC0 nopSub sub)
def execChangeover (sub : Submission) (s : State) : Host.Outcome State Fault Refusal := s.run (direct 0xD0 changeoverSub sub)
def execReJoin (sub : Submission) (s : State) : Host.Outcome State Fault Refusal := s.run (direct 0xD1 reJoinSub sub)
def execOpenSession (sub : Submission) (s : State) : Host.Outcome State Fault Refusal := s.run (direct 0xE0 openSub sub)
def execHeader (sub : Submission) (s : State) : Host.Outcome State Fault Refusal := s.run (direct 0xE1 headerSub sub)
def execPayloadChunk (sub : Submission) (s : State) : Host.Outcome State Fault Refusal := s.run (direct 0xE2 chunkSub sub)
def execVerify (sub : Submission) (s : State) : Host.Outcome State Fault Refusal := s.run (direct 0xE3 verifySub sub)
def execActivate (sub : Submission) (s : State) : Host.Outcome State Fault Refusal := s.run (direct 0xE4 activateSub sub)
def execCloseSession (sub : Submission) (s : State) : Host.Outcome State Fault Refusal := s.run (direct 0xE5 closeSub sub)
def execRecorderRead (sub : Submission) (s : State) : Host.Outcome State Fault Refusal := s.run (direct 0xE8 startRead sub)
def execRecorderReadStop (sub : Submission) (s : State) : Host.Outcome State Fault Refusal := s.run (direct 0xE9 stopRead sub)
def execRollCall (sub : Submission) (s : State) : Host.Outcome State Fault Refusal := s.run (direct 0xEA rollCallSub sub)
def execSetCounters (sub : Submission) (s : State) : Host.Outcome State Fault Refusal := s.run (direct 0xEB setCountersSub sub)

end Sys2Proof.Machine
end

