-- ==== Sys2Proof/Machine/Freeze.lean ====
section
/-! DEFINITION. The freeze of phase 1,000 (R94-R96, R181, R221, R252, R362, R565) and the local outputs of phase 16,000 (R31, R134, R144,
R199, R248, R435, R468, R472). -/

namespace Sys2Proof.Machine

/-! ## Triggers (R181) -/

/-- What an edge object shows in this cycle's agreed image, a force in its place (R148, R181). -/
def edgeVal (m : Mod) (ref : W32) : Option W64 :=
  match m.lg.app.objs.find? (fun o => o.ref == ref) with
  | some o => (inputVal m o).map (fun v => ((forceOn m true ref.toNat).map (·.val)).getD v.val)
  | none => none

/-- The object has another value than in the previous cycle. -/
def edgeFired (m : Mod) (ref : W32) : Bool :=
  match edgeVal m ref, tabFind m.lg.prevIn ref.toNat with
  | some v, some w => v != w
  | _, _ => false

/-- TRIGGER_EVALUATION at phase 1,080: each input edge is one trigger of its event task; a parked task has no heat to give it to. -/
def evalTriggers (m : Mod) : Mod :=
  let edges := m.lg.app.tasks.flatMap (·.edges)
  let prev := edges.foldl (fun t r => match edgeVal m r with
    | some v => tabPut t r.toNat v
    | none => t) ([] : Tab W64)
  let event (d : TaskDesc) : Bool := (d.kind == .evMain || d.kind == .evSlack) && !(tcbOf m d.num).parked
  let one (d : TaskDesc) (acc : Mod) : Mod :=
    let n := (d.edges.filter (edgeFired m)).length
    if n = 0 then acc else updTcb d.num (fun x => { x with trigWait := x.trigWait + n }) acc
  let m1 := if runsApp m then forEach (m.lg.app.tasks.filter event) one m else m
  updLg (fun g => { g with prevIn := prev }) m1

/-! ## The freeze (R94, R221, R252, R565) -/

/-- REMOTE_FREEZE_AGREEMENT by phase 1,080: the diagnostic record, the connections, the submissions, the security triggers, the event
tasks' triggers, and the engine pass. -/
def doFreeze (m : Mod) : Mod :=
  if !operating m then m
  else
    let m1 := acceptAll (evalConns (agreeRecord (replaceKeys (toPhase 4 1080 m))))
    let m2 := evalTriggers (seenAlarms m1)
    if operating m2 && m2.tm.taken && m2.en.passScn != scn m2 + 1 then enginePass m2 else m2

def execRemoteFreezeAgreement (s : State) : Host.Outcome State Fault Refusal := s.run doFreeze

/-! ## Phase 16,000 (R31, R248, R470-R472) -/

/-- A group isolator: open until START completes, closed at the first phase 16,000 at which its group is at GRP 0 or 1 without a latch;
from then on only a latch or the loss of the I/O controller opens it (R248, R253, R268, R269, R273). -/
def setIsolator (m : Mod) (g : Group) : Group :=
  let shut := g.sag || g.ext || m.fio.iocl
  let free := g.released || (!shut && decide (g.grp ≤ 1))
  { g with isoOpen := !serving m || shut || !free, released := free }

/-- One drive channel takes its bit of the agreed image (R31, R278). -/
def setDrive (image : BitVec 64) (k : Nat) (m : Mod) : Mod :=
  let on := image.getLsbD k
  if (driveOf m k).on = on then m
  else updDrive k (fun d => { d with on := on, changedAt := scn m, offAt := if on || d.tripped then d.offAt else now m }) m

/-- The local outputs take the values of this cycle's vote (R31). -/
def applyOutputs (m : Mod) : Mod :=
  if !serving m then m
  else
    let image := if m.lg.snapScn = scn m + 1 then m.lg.drive else m.fio.applied
    let m1 := forEach (List.range 64) (setDrive image) m
    let m2 := updFio (fun f => { f with applied := image, groups := f.groups.map (setIsolator m) }) m1
    if drives m2 then updLanes (fun _ x => { x with nv := { x.nv with days := 0 } }) m2 else m2

/-- Retain records are written every 50 cycles, and once more in the cycle an on-line change named (R134, R199). -/
def retainDue (m : Mod) : Bool := m.tm.taken && (scn m % 50 == 0 || m.lg.olcAt == some (scn m))

/-- LOCAL_OUTPUTS_APPLIED at phase 16,000: outputs, retain records, the service decision, completions and events in order of acceptance
(R134, R144, R199, R431, R435, R445). The outgoing module whose SWI6 has read closed halts instead (R472). -/
def doOutputs (m : Mod) : Mod :=
  if !operating m then m
  else
    let m1 := toPhase 11 16000 m
    if m1.pr.outgoing && swi m1 6 == 1 then outgoingHalt m1
    else
      let m2 := applyOutputs m1
      let m3 := if retainDue m2 then writeRetains m2 else m2
      flushEvents (flushCpls (settleTrigs (decideHurdle m3)))

def execLocalOutputsApplied (s : State) : Host.Outcome State Fault Refusal := s.run doOutputs

end Sys2Proof.Machine
end

