-- ==== Sys2Proof/Machine/Host.lean ====
section
/-! DEFINITION. The front end's host interface at work (R40, R410-R431, R447-R451): set-up, the 1 ms poll, ring faults, invalidity, the
event FIFO, the state mirror, MSI-X, and the expiry of critical requests. -/

namespace Sys2Proof.Machine

/-! ## Set-up (R417, R418, R422) -/

/-- Enabled rings. -/
def enabledRings (m : Mod) : List (Nat × Ring) := m.host.rings.filter (fun e => e.2.en && decide (e.1 < 96))

/-- What must not overlap (R422): first byte and length. -/
def hostSpans (m : Mod) : List (Nat × Nat) :=
  (enabledRings m).flatMap (fun e =>
    [(addrOf e.2.basel e.2.baseh, entrySize e.1 * ringSize e.2), (addrOf e.2.wrdl e.2.wrdh, 4)]) ++
  [(addrOf m.host.headl m.host.headh, 128)] ++ (if m.host.mirror then [(addrOf m.host.mirl m.host.mirh, 0x81000)] else [])

/-- Two spans have a byte in common somewhere in the list. -/
def spansMeet : List (Nat × Nat) → Bool
  | [] => false
  | x :: r => r.any (fun y => decide (x.1 < y.1 + y.2) && decide (y.1 < x.1 + x.2)) || spansMeet r

/-- SETERR: the first check of R422 that fails, 0 where none does. -/
def setupError (m : Mod) : Nat :=
  let rs := enabledRings m
  if rs.any (fun e => e.2.basel.toNat % 4096 != 0 || e.2.wrdl.toNat % 4 != 0) then 1
  else if rs.any (fun e => decide (e.2.log2n < 4) || decide (12 < e.2.log2n)) then 2
  else if spansMeet (hostSpans m) then 3
  else if rs.any (fun e => decide (e.1 < 32) && !(ringOf m (e.2.target % 32 + 32)).en) then 4
  else if !(ringOf m 64).en then 5
  else if m.host.mirl.toNat % 4096 != 0 || m.host.headl.toNat % 128 != 0 then 6
  else if !m.host.busMaster then 7
  else 0

/-- HIFCTL_RUN: ring processing starts, events 0xC0 and, after a host interface reset, 0xCA; or SETERR names the first check that
failed (R40, R414, R422). The host has filled its rings with zeros before (R422). While RUN is 1 the write is discarded (R413). -/
def doRun (m : Mod) : Mod :=
  if m.host.run then discardWrite 4 m
  else
    let e := setupError m
    if e ≠ 0 then updHost (fun h => { h with seterr := e }) m
    else
      let told := m.host.resetTold
      let zero (x : Memory) (e : Nat × Ring) : Memory := memClear x (addrOf e.2.basel e.2.baseh) (entrySize e.1 * ringSize e.2)
      let m1 := updHost (fun h => { h with mem := (enabledRings m).foldl zero h.mem, run := true, valid := true, seterr := 0, invcause := 0, resetTold := false }) m
      onlyIf told (raise 0xCA { src := 4 }) (raise 0xC0 { src := 4 } m1)

def execHifctlRun (s : State) : Host.Outcome State Fault Refusal := s.run doRun

/-- HIFCTL_MIRROR (R413, R417). -/
def doMirror (on : Bool) (m : Mod) : Mod := if m.host.run then discardWrite 4 m else updHost (fun h => { h with mirror := on }) m

def execHifctlMirror (on : Bool) (s : State) : Host.Outcome State Fault Refusal := s.run (doMirror on)

/-- HIFLACC_READ: HIFLCMP and HIFLOUT are latched (R415). -/
def readAccepted (m : Mod) : Mod := updHost (fun h => { h with readData := h.acc, latCmp := h.cmp, latOut := h.acc - h.cmp }) m

def execHiflaccRead (s : State) : Host.Outcome State Fault Refusal := s.run readAccepted

/-- HIFEVP_READ: HIFEVD and HIFEVL are latched (R415). -/
def readProduced (m : Mod) : Mod := updHost (fun h => { h with readData := h.evp, latEvd := h.evd, latEvl := h.evl }) m

def execHifevpRead (s : State) : Host.Outcome State Fault Refusal := s.run readProduced

/-! ## The poll (R423-R428, R433, R440) -/

/-- The poll's moment: phase p with p mod 1,000 = 900, or the front end's own 1 ms tick before station time exists (R425). -/
def toPoll (m : Mod) : Mod :=
  if !m.tm.taken then passClk ((m.clk / 1000000 + 1) * 1000000) m
  else
    let t := now m
    let c := t / 1000000 * 1000000 + 900000
    let n := if t ≤ c then c else c + 1000000
    let n' := if n / 1000000 + 1 ≤ tabGet 0 m.md.fired 23 then n + 1000000 else n
    updMd (fun d => { d with fired := tabSet 0 d.fired 23 (n' / 1000000 + 1) }) (passTo n' m)

/-- RING_FAULTED: event 0xC3; only a host interface reset clears it (R428). -/
def faultRing (i : Nat) (m : Mod) : Mod := raise 0xC3 { src := 4, arg0 := i } (updRing i (fun r => { r with fault := true }) m)

/-- A doorbell or acknowledge word as read (R424, R428). -/
def readWord (p : Fin 96 × W32) (m : Mod) : Mod :=
  let i := p.1.val
  let r := ringOf m i
  let bad := if i < 32 then decide (ringSize r < diff32 p.2 r.count) else decide (diff32 r.count r.ack < diff32 p.2 r.ack)
  if !r.en || r.fault then m else if bad then faultRing i m else updRing i (fun x => { x with ack := p.2 }) m

/-- An entry the host has published and the front end has not consumed (R426). -/
def published (m : Mod) (q : Nat) : Bool := (ringOf m q).ack != (ringOf m q).count

/-- A front-end submission is accepted and executed when it is consumed (R398, R433). Whether the frame a cancel names has started is
open here. -/
def runFrontEnd (sub : Submission) (m : Mod) : Mod :=
  let (v, m1) := if sub.opc = 0xB1 then takeFree m else (0, m)
  let f := if sub.opc = 0xB1 then some (canCancelSub (v.getLsbD 0)) else handlerOf true sub.opc
  runSub f (acceptedOf sub sub.opc) sub (accept sub m1)

/-- One entry is consumed and offered to the lane ports; a critical submission's telegram is copied to TM5 (R426, R440, R452). -/
def takeEntry (q : Nat) (sub : Submission) (m : Mod) : Mod :=
  let m1 := consume q m
  let m2 := onlyIf (sub.crit && !sub.blob.isEmpty) (mirrorCopy 5 true 2 0 sub.blob) m1
  if (ringOf m2 q).cls then runFrontEnd sub m2 else holdSub sub (forwardSub sub m2)

/-- A submission entry as its 64 bytes spell it, little-endian (R432). -/
def subOf (e : PollEntry) : Submission :=
  { src := .ring e.sq, index := e.index, opc := byteAt e.bytes 0, crit := bitOf (byteAt e.bytes 1) 0, task := byteAt e.bytes 2,
    tag := BitVec.ofNat 32 (readLE e.bytes 4 4), nscn := readLE e.bytes 8 8, oper := cut e.bytes 16 40, blob := e.blob }

/-- The entry of SQ `q` that is next, as fetched. -/
def fetched (q : Nat) (count : W32) (entries : List Submission) : Option Submission :=
  entries.find? (fun s => ringKey s.src == q && BitVec.ofNat 32 s.index == count)

/-- Entries of one SQ are consumed while the limits of R426 and R427 allow; what is left of the poll's 256. -/
def pollSq (q : Nat) (entries : List Submission) : Nat → Mod → Nat × Mod
  | 0, m => (0, m)
  | left + 1, m =>
    if !(published m q && sqOpen m q && slotLeft m q) then (left + 1, m)
    else
      match fetched q (ringOf m q).count entries with
      | none => (left + 1, m)
      | some sub => pollSq q entries left (takeEntry q sub m)

/-- R427 holds the ring now: since when is noted. -/
def markHeld (q : Nat) (m : Mod) : Mod :=
  let blocked := published m q && sqOpen m q && !slotLeft m q
  let r := ringOf m q
  if blocked then (if r.held = 0 then setRing q { r with held := scn m + 1 } m else m)
  else if r.held = 0 then m
  else setRing q { r with held := 0 } m

/-- The head block is written after a poll that consumed an entry (R423). -/
def writeHead (m : Mod) : Mod :=
  updHost (fun h => { h with mem := memWrite h.mem (addrOf h.headl h.headh) (headBytes h.head) }) m

/-- DOORBELL_POLL: every word is read before any entry is fetched; what waited for the host to acknowledge goes on; then
the SQs from SQ0 upwards (R423, R425-R428, R430, R503). -/
def doPoll (words : List (Fin 96 × W32)) (entries : List PollEntry) (m : Mod) : Mod :=
  let m1 := toPoll m
  if !ledgerUp m1 then m1
  else
    let m2 := forEach (List.range 8) drainMirror (flushAlone (forEach words readWord (updPr (fun p => { p with subOut := [] }) m1)))
    let one (acc : Nat × Mod) (q : Nat) : Nat × Mod :=
      let (left, x) := pollSq q (entries.map subOf) acc.1 acc.2
      (left, markHeld q x)
    let (left, m3) := (List.range 32).foldl one (256, m2)
    onlyIf (decide (left < 256)) writeHead m3

def execDoorbellPoll (words : List (Fin 96 × W32)) (entries : List PollEntry) (s : State) : Host.Outcome State Fault Refusal :=
  s.run (doPoll words entries)

/-- SUBMISSION_RING_HELD: event 0xC5 in the 50th consecutive station cycle, once until the ring is consumed again (R427). -/
def doHeld (q : Nat) (m : Mod) : Mod :=
  let r := ringOf m q
  if r.held = 0 ∨ r.heldTold ∨ !ledgerUp m then m
  else
    let m1 := if m.tm.taken then passTo ((r.held + 48) * 20000000 + 900000) m else m
    raise 0xC5 { src := 4, arg0 := q } (setRing q { r with heldTold := true } m1)

def execSubmissionRingHeld (sq : Fin 32) (s : State) : Host.Outcome State Fault Refusal := s.run (doHeld sq.val)

/-! ## The link (R40, R41, R410, R431) -/

/-- INVCAUSE of a cause (R418). -/
def causeNo : InvCause → Nat
  | .completionTimeout => 1
  | .unsupportedRequest => 2
  | .completerAbort => 3
  | .poisonedTlp => 4
  | .busMasterCleared => 5

/-- The AER status bit of a cause: completion timeout, unsupported request, completer abort, poisoned TLP. PRESUMED from PCI Express (log
entry 35). -/
def aerBit : InvCause → Nat
  | .completionTimeout => 2 ^ 14
  | .unsupportedRequest => 2 ^ 20
  | .completerAbort => 2 ^ 15
  | .poisonedTlp => 2 ^ 12
  | .busMasterCleared => 0

/-- HOST_RING_MEMORY_INVALID (R40, R41). -/
def doInvalid (c : InvCause) (m : Mod) : Mod :=
  invalidate (causeNo c) (updHost (fun h => { h with busMaster := h.busMaster && c != .busMasterCleared,
                                                     pcie := { h.pcie with aer := h.pcie.aer ||| BitVec.ofNat 32 (aerBit c) } }) m)

def execHostRingMemoryInvalid (cause : InvCause) (s : State) : Host.Outcome State Fault Refusal := s.run (doInvalid cause)

/-- PCIE_LINK_DEGRADED: the link trains; narrower than x4 or slower than Gen3 it still operates, with event 0xC7 (R410, R418). -/
def doLink (speed width : Nat) (m : Mod) : Mod :=
  onlyIf (decide (speed < 3) || decide (width < 4)) (raise 0xC7 { src := 4 })
    (updHost (fun h => { h with lspeed := speed, lwidth := width }) m)

def execPcieLinkDegraded (speed width : Nat) (s : State) : Host.Outcome State Fault Refusal := s.run (doLink speed width)

/-- EVENT_FIFO_DRAIN: the loss entry, then queued events, while the ring has space (R44, R447). -/
def doDrain (eq : Nat) (m : Mod) : Mod := drainRing (m.host.fifo.length + 1) eq m

def execEventFifoDrain (eq : Fin 16) (s : State) : Host.Outcome State Fault Refusal := s.run (doDrain eq.val)

/-- MSIX_VECTOR_UNMASKED: the host writes the table entry of a vector, whatever RUN is; a pending message is sent (R411, R431). -/
def doUnmask (e : MsixWrite) (m : Mod) : Mod :=
  let v := e.vec.val
  let x := tabGet Vector32.fresh m.host.vecs v
  let m1 := updHost (fun h => { h with vecs := tabSet Vector32.fresh h.vecs v { x with masked := false, pba := false, addr := e.addr, data := e.data } }) m
  if x.pba then fireVector v m1 else m1

def execMsixVectorUnmasked (entry : MsixWrite) (s : State) : Host.Outcome State Fault Refusal := s.run (doUnmask entry)

/-! ## Critical requests that expire (R443) -/

/-- CRITICAL_PENDING_EXPIRED: not confirmed by the pending SEQ + CWIN; removed at the next freeze, event 0xC6 with reason 2. -/
def doExpireCritical (term : Nat) (m : Mod) : Mod :=
  match tabFind m.host.crit term with
  | none => m
  | some x =>
    let m1 := if m.tm.taken then passTo ((x.seq + confWin m + 1) * 20000000 + 1000000) m else m
    raise 0xC6 { arg0 := term, arg1 := 2 } (updHost (fun h => { h with crit := tabDel h.crit term }) m1)

def execCriticalPendingExpired (terminal : Nat) (s : State) : Host.Outcome State Fault Refusal := s.run (doExpireCritical terminal)

/-! ## The state mirror (R448-R451) -/

/-- The UINT32 word OMAP binds to an object, from the current image; 0 where none is bound. -/
def appWord (m : Mod) (o : ObjEntry) : Nat :=
  match o.word with
  | none => 0
  | some vid =>
    match m.lg.app.vars.find? (fun v => v.vid == vid) with
    | some v => ofLE (memRead m.cur v.addr 4)
    | none => 0

/-- A value of the object is forced (R451). -/
def objForced (m : Mod) (o : ObjEntry) : Bool :=
  m.md.forces.any (fun f =>
    if f.isObj then f.ref == o.ref.toNat else m.lg.app.vars.any (fun v => v.vid == f.ref && v.obj == some o.ref))

/-- A mirror entry from its bytes 0 to 3 and its word. -/
def mirrorEntry (b0 b1 b2 b3 word : Nat) : W64 :=
  BitVec.ofNat 64 (b0 % 256 + 256 * (b1 % 256) + 65536 * (b2 % 256) + 16777216 * (b3 % 256) + 4294967296 * (word % 4294967296))

/-- The entry of a route: STATE and OVL as R217 lays them out (R451). -/
def mirrorRoute (m : Mod) (r : Nat) : W64 :=
  let st := tabGet RouteSt.free m.en.pubRoutes r
  let state := st.state + 4 * b2n (decide (st.mrel ≠ 0)) + 8 * b2n st.carried
  let ovl := st.ovl + 4 * b2n st.noOvl
  match tabFind m.en.pubPend r with
  | some p => mirrorEntry state ovl p.blk p.prio p.tag.toNat
  | none => mirrorEntry state ovl 0xFF 0xFF (if st.state = 1 then st.ltag.toNat else 0)

/-- The entry of an element (R451). -/
def mirrorElem (m : Mod) (o : ObjEntry) (kind idx : Nat) : W64 :=
  let e : PoolEntry := { cond := 0, depth := 0, group := 0, kind := kind, idx := idx }
  mirrorEntry (statusOf m e) (estaOf (tabGet 0 m.en.pubElems (elemPos kind idx)).toNat) (b2n (objForced m o)) 0 (appWord m o)

/-- Every configured slot of a half and its entry (R448). -/
def mirrorSlots (m : Mod) : List (Nat × W64) :=
  let routes := (m.lg.app.dir.map (·.1)).filter (dirValid m.lg.app)
  let kindOf (o : ObjEntry) : Nat := fieldOf o.ref.toNat 28 4
  let elems := m.lg.app.objs.filter (fun o => decide (1 ≤ kindOf o) && decide (kindOf o ≤ 4))
  let generic := (m.lg.app.objs.filter (fun o => kindOf o == 10)).zipIdx
  routes.map (fun r => (r, mirrorRoute m r)) ++
    elems.map (fun o =>
      let i := fieldOf o.ref.toNat 0 16
      (4096 + elemPos (kindOf o) i, mirrorElem m o (kindOf o) i)) ++
    generic.map (fun p => (18560 + p.2, mirrorEntry 0 0 (b2n (objForced m p.1)) 0 (appWord m p.1)))

/-- A half rewritten in its slots below `n`. -/
def writeHalf (m : Mod) (n : Nat) (old : Tab W64) : Tab W64 :=
  ((mirrorSlots m).filter (fun p => decide (p.1 < n))).foldl (fun t p => tabSet 0 t p.1 p.2) (old.filter (fun e => decide (n ≤ e.1)))

/-- Half N mod 2 is written. -/
def putHalf (n : Nat) (m : Mod) : Mod :=
  let area := addrOf m.host.mirl m.host.mirh
  updHost (fun h =>
    if scn m % 2 = 0 then
      { h with half0 := writeHalf m n h.half0, mem := mirrorHalf (area + 0x1000) n (writeHalf m n h.half0) h.mem }
    else { h with half1 := writeHalf m n h.half1, mem := mirrorHalf (area + 0x41000) n (writeHalf m n h.half1) h.mem }) m

/-- The header (R449): STN of stations 0 to 512. -/
def putHeader (m : Mod) : Mod :=
  let mfl := b2n (decide (m.pr.role ≤ 1)) + 2 * b2n (!m.md.forces.isEmpty) + 4 * laneNo (refLane m)
  let stn := (List.range 513).foldl (fun t n => tabSet 0 t n (stnOf m n)) ([] : Tab Nat)
  updHost (fun h => { h with mscn := some (scn m), mirrorMode := modeCode (mode m), mirrorVset := (vsetOf m).bits, mirrorMfl := mfl,
                             mirrorBuild := m.lg.app.build, mirrorStn := stn,
                             mem := memWrite (memClear h.mem (addrOf h.mirl h.mirh) 1024) (addrOf h.mirl h.mirh)
                               (mirrorHead (scn m) (modeCode (mode m)) (vsetOf m).bits mfl m.lg.app.build stn) }) m

/-- The half is begun: at phase 16,000, or at once where the command comes by phase 19,000; later, in the next cycle (R450). -/
def toMirror (m : Mod) : Mod :=
  if decide (16000 ≤ phase m) && decide (phase m < 19000) && !firedNow 19 m then noteFired 19 (scn m) none m else toNext 19 16000 m

/-- STATE_MIRROR_WRITE: half N mod 2 between phase 16,000 and 19,000, then the header by phase 19,500; a half not finished by 19,000 leaves the
header as it was, with event 0xC8 at most once in 1,000 cycles. How much of it was written then is open (R450). -/
def doStateMirror (finished : Bool) (m : Mod) : Mod :=
  if !m.host.mirror || !ledgerUp m || !m.tm.taken || !operating m then m
  else
    let m1 := toMirror m
    if finished then putHeader (passTo (scn m1 * 20000000 + 19500000) (putHalf 32768 m1))
    else
      let (v, m2) := takeFree m1
      let m3 := passTo (scn m2 * 20000000 + 19000000) (putHalf (v.toNat % 32768) m2)
      let due := match m3.host.skipAt with
        | some s => decide (s + 1000 ≤ scn m3)
        | none => true
      if due then raise 0xC8 { src := 4 } (updHost (fun h => { h with skipAt := some (scn m3) }) m3) else m3

def execStateMirrorWrite (finished : Bool) (s : State) : Host.Outcome State Fault Refusal := s.run (doStateMirror finished)

end Sys2Proof.Machine
end

