-- ==== Sys2Proof/Machine/Regs.lean ====
section
/-! DEFINITION. The BAR0 window (R12, R13, R412-R421, R446): what each register reads as, and what a write does. -/

namespace Sys2Proof.Machine

/-! ## Reads of the host interface block and the rings (R415-R421, R446) -/

/-- The bank the front end runs on. -/
def feBank (m : Mod) : PartBank := partBank m 0 (b2n (bitOf m.md.runBank 0))

/-- HIFID (R416). -/
def hifId (m : Mod) : W32 :=
  let v := (feBank m).version.toNat
  pack [(1, 24, 8), (variantCode, 16, 8), (fieldOf v 24 8, 8, 8), (fieldOf v 16 8, 0, 8)]

/-- HIFSTS (R39, R418, R428). -/
def hifSts (m : Mod) : W32 :=
  pack [(m.host.seterr, 24, 8), (m.host.invcause, 16, 8), (m.host.lspeed, 12, 4), (m.host.lwidth, 8, 4), (b2n m.host.valid, 2, 1),
        (b2n (operating m && m.host.valid), 1, 1), (b2n (m.host.rings.any (fun e => e.2.fault)), 0, 1)]

/-- The host interface registers (R415). -/
def readHif (m : Mod) (off : Nat) : W32 :=
  let h := m.host
  match off with
  | 0x00 => hifId m
  | 0x04 => pack [(b2n h.mirror, 2, 1), (b2n h.run, 0, 1)]
  | 0x0C => hifSts m
  | 0x10 => m.cfg.hifcfg
  | 0x18 => h.mirl
  | 0x1C => h.mirh
  | 0x20 => h.headl
  | 0x24 => h.headh
  | 0x30 => h.acc
  | 0x34 => h.latCmp
  | 0x38 => h.latOut
  | 0x3C => h.evp
  | 0x40 => h.latEvd
  | 0x44 => h.latEvl
  | 0x48 => pack [(h.discN, 16, 16), (h.resetN, 0, 16)]
  | _ => 0

/-- RCFG (R421). -/
def ringCfg (r : Ring) : W32 :=
  pack [(b2n r.en, 31, 1), (b2n r.fault, 30, 1), (r.log2n, 20, 4), (b2n r.cls, 15, 1), (r.target, 8, 5)]

/-- A register of ring `i` (R421). -/
def readRing (m : Mod) (i off : Nat) : W32 :=
  let r := ringOf m i
  match off with
  | 0x00 => r.basel
  | 0x04 => r.baseh
  | 0x08 => r.wrdl
  | 0x0C => r.wrdh
  | 0x10 => ringCfg r
  | 0x14 => r.count
  | 0x18 => if i < 32 ∨ (64 ≤ i ∧ i < 80) ∨ 88 ≤ i then r.aux else 0
  | _ => 0

/-- Four bytes of the event routing table (R446). -/
def readRoute (m : Mod) (off : Nat) : W32 :=
  BitVec.ofNat 32 (ofLE ((List.range 4).map (fun i => tabGet 0x80 m.host.route (off + i))))

/-! ## Reads of the other blocks (R74-R604) -/

/-- The Pacer block (R74-R79). -/
def readPacer (m : Mod) (off : Nat) : W32 :=
  let ofs (l : LaneId) : W32 := BitVec.ofNat 32 (satSigned 32 (m.ln.get l).offset)
  match off with
  | 0x00 => m.cfg.pcrcfg
  | 0x04 => m.cfg.pcrsrc
  | 0x08 => m.cfg.pcrptp
  | 0x10 => pcrSts m
  | 0x20 => pcrLn m .a
  | 0x24 => pcrLn m .b
  | 0x28 => pcrLn m .c
  | 0x30 => ofs .a
  | 0x34 => ofs .b
  | 0x38 => ofs .c
  | 0x40 => BitVec.ofNat 32 (satN 0xFFFFFFFF (holdError m))
  | 0x50 => BitVec.ofNat 32 (scn m)
  | 0x54 => m.tm.scnh
  | _ => 0

/-- The vote block (R116-R120). -/
def readVote (m : Mod) (off : Nat) : W32 :=
  match off with
  | 0x00 => m.cfg.votcfg
  | 0x04 => votSts m
  | 0x10 => votX m .a
  | 0x14 => votX m .b
  | 0x18 => votX m .c
  | 0x20 => votS m .a
  | 0x24 => votS m .b
  | 0x28 => votS m .c
  | 0x30 => votCmp m
  | _ => 0

/-- PWRSTS (R601). -/
def pwrSts (m : Mod) : W32 :=
  pack [(satN 0xFFFF m.pw.vin, 16, 16), (b2n m.pw.f1, 15, 1), (b2n m.pw.f2, 14, 1), (b2n m.pw.ov1, 13, 1), (b2n m.pw.ov2, 12, 1),
        (m.pw.pace, 10, 2), ((m.pw.temp % 256).toNat, 0, 8)]

/-- PWRHUP (R602). -/
def pwrHup (m : Mod) : W32 := pack [(satN 0xFFFF m.pw.capUf, 16, 16), (satN 255 (holdUpUj m.pw.capUf / 100000), 8, 8), (b2n m.pw.heol, 0, 1)]

/-- A lane byte of AGECLK (R603). -/
def ageByte (l : Lane) : Nat := l.nv.plan % 4 + 4 * (l.step % 4) + 16 * satN 15 (l.margin / 2)

/-- AGECLK (R603). -/
def ageClk (m : Mod) : W32 :=
  pack [(b2n m.ln.c.eol, 26, 1), (b2n m.ln.b.eol, 25, 1), (b2n m.ln.a.eol, 24, 1), (ageByte m.ln.c, 16, 8), (ageByte m.ln.b, 8, 8),
        (ageByte m.ln.a, 0, 8)]

/-- AGEWEAR (R604). -/
def ageWear (m : Mod) : W32 :=
  let w (i : Nat) : Nat := satN 255 (m.pw.wear.getD i 0)
  pack [(w 0, 24, 8), (w 1, 16, 8), (w 2, 8, 8), (w 3, 0, 8)]

/-- The mode block with power and ageing (R152-R158, R600-R604). -/
def readModes (m : Mod) (off : Nat) : W32 :=
  match off with
  | 0x00 => m.cfg.modcfg
  | 0x04 => modSts m
  | 0x08 => modRst m
  | 0x0C => BitVec.ofNat 32 (m.md.bist % 16777216)
  | 0x10 => modHrd m
  | 0x14 => modWu m
  | 0x18 => pack [(m.md.forces.length, 0, 16)]
  | 0x20 => m.md.areas.extractLsb' 0 32
  | 0x24 => m.md.areas.extractLsb' 32 32
  | 0x28 => pwrSts m
  | 0x2C => pwrHup m
  | 0x30 => ageClk m
  | 0x34 => ageWear m
  | _ => 0

/-- LGXSTS (R201): BANK is the active program bank (R539). -/
def lgxSts (m : Mod) : W32 :=
  let event (d : TaskDesc) : Bool := d.kind == .evMain || d.kind == .evSlack
  pack [(m.lg.fault, 24, 8), (m.lg.ftask, 19, 5), (b2n (bitOf m.nv.banks.act 2), 16, 1), ((m.lg.app.tasks.filter event).length, 8, 5),
        ((m.lg.app.tasks.filter (fun d => !event d)).length, 0, 5)]

/-- LGXMRG (R202). -/
def lgxMrg (m : Mod) : W32 :=
  let least (xs : List Nat) : Nat := xs.foldl min 0xFFFF
  pack [(least m.lg.mainMar, 16, 16), (least m.lg.slkMar, 0, 16)]

/-- The logic block (R200-R204). -/
def readLogic (m : Mod) (off : Nat) : W32 :=
  match off with
  | 0x00 => lgxSts m
  | 0x04 => m.lg.app.build
  | 0x08 => BitVec.ofNat 32 (parkedMask m)
  | 0x0C => lgxMrg m
  | 0x10 => lgxOlc m
  | 0x14 => BitVec.ofNat 32 m.lg.olcScn
  | 0x18 => BitVec.ofNat 32 (m.lg.olcScn / 4294967296)
  | 0x1C => lgxXfr m
  | _ => 0

/-- Routes in a state. -/
def routesIn (m : Mod) (st : Nat) : Nat := (m.en.routes.filter (fun e => e.2.state == st)).length

/-- The route engine block (R238-R244). -/
def readEngine (m : Mod) (off : Nat) : W32 :=
  match off with
  | 0x00 => m.cfg.engcfg
  | 0x04 => pack [(routesIn m 1, 16, 13), (m.en.npend, 0, 13)]
  | 0x08 => pack [(m.en.ncand, 16, 13), (routesIn m 2, 0, 13)]
  | 0x0C => pack [(m.en.pdurs.foldl max 0, 16, 16), (m.en.pdurs.headD 0, 0, 16)]
  | 0x10 => pack [(m.lg.app.poolUsed, 0, 20)]
  | 0x14 => pack [(m.en.stale, 16, 16), (m.en.relref, 0, 16)]
  | 0x18 => BitVec.ofNat 32 (satN 0xFFFFFFFF m.en.expired)
  | _ => 0

/-- The field I/O block (R284-R289). -/
def readFio (m : Mod) (off : Nat) : W32 :=
  match off with
  | 0x00 => m.cfg.fiocfg
  | 0x04 => fioSts m
  | 0x08 => fioHld m false
  | 0x0C => fioHld m true
  | 0x10 => fioG m 0
  | 0x14 => fioG m 1
  | 0x18 => fioG m 2
  | 0x1C => fioG m 3
  | 0x20 => fioExt m
  | 0x24 => fioMin m
  | 0x28 => fioKf m
  | _ => 0

/-- The Stride block (R331-R336). -/
def readStride (m : Mod) (off : Nat) : W32 :=
  match off with
  | 0x00 => m.str.strcfg
  | 0x04 => strSts m
  | 0x08 => strSwa m
  | 0x0C => strEnt m
  | 0x10 => strSeg m 0
  | 0x14 => strSeg m 1
  | 0x18 => strSeg m 2
  | 0x1C => strSeg m 3
  | 0x20 => strLt m 0
  | 0x24 => strLt m 1
  | 0x28 => strLt m 2
  | 0x2C => strLt m 3
  | 0x30 => strFs m
  | 0x34 => strGun m
  | _ => 0

/-- The Baton block (R373-R375). -/
def readBaton (m : Mod) (off : Nat) : W32 :=
  match off with
  | 0x00 => btnSts m
  | 0x04 => btnInv m
  | 0x08 => btnEpo m
  | 0x0C => btnDiv m
  | 0x10 => btnDup m
  | 0x14 => btnLate m
  | 0x18 => btnMiss m
  | _ => 0

/-- The CAN FD block (R403-R407). -/
def readCan (m : Mod) (off : Nat) : W32 :=
  let n := (off - 0x10) / 16
  if off = 0 then m.can.canctl
  else if off < 0x10 ∨ 4 ≤ n then 0
  else
    match off % 16 with
    | 0x0 => (chanOf m n).btNext.getD (chanOf m n).bt
    | 0x4 => (chanOf m n).dtNext.getD (chanOf m n).dt
    | 0x8 => canSts m n
    | 0xC => canCnt m n
    | _ => 0

/-- The pair block (R480-R483). -/
def readPair (m : Mod) (off : Nat) : W32 :=
  match off with
  | 0x00 => prCfg m
  | 0x04 => prSts m
  | 0x08 => m.nv.partnerId.extractLsb' 0 32
  | 0x0C => m.nv.partnerId.extractLsb' 32 32
  | 0x10 => prDrl m
  | 0x14 => prCnt m
  | 0x18 => m.pr.adoptN
  | _ => 0

/-- VERSION of a bank of the front end, the I/O controller or the network settings; 0 for an empty or unusable bank (R547). -/
def partVersion (m : Mod) (part : Nat) (active : Bool) : W32 :=
  let p := partBank m part (if active then 1 - inactive m part else inactive m part)
  if p.usable then p.version else 0

/-- Lane firmware and application build of a program bank of the voting lanes (R547). -/
def progVersion (m : Mod) (active app : Bool) : W32 :=
  let p := progBank (m.ln.get (refLane m)) (if active then 1 - inactive m 2 else inactive m 2)
  if p.usable then (if app then p.appBuild else p.fwVersion) else 0

/-- UPDSTS (R549). -/
def updSts (m : Mod) : W32 :=
  let (kind, lock) := match m.up.session with
    | some x => (x.kind, if x.src = .service then 2 else 1)
    | none => (0, 0)
  pack [(m.pw.charge, 24, 8), (m.up.lref, 16, 8), (m.up.ldet, 8, 8), (kind, 3, 3), (b2n m.nv.sec.olock, 2, 1), (lock, 0, 2)]

/-- UPDBANK (R550). -/
def updBank (m : Mod) : W32 :=
  let k := m.nv.banks
  let ver := (List.range 4).foldl (fun n i => n + b2n (k.verified.any (fun p => p.1 ≤ 5 && partOf p.1 == i)) * 2 ^ i) 0
  pack [(b2n (m.md.trialBits != 0), 16, 1), (k.fail, 12, 4), (ver, 8, 4), (k.next, 4, 4), (k.act, 0, 4)]

/-- The update block (R547-R551). -/
def readUpdate (m : Mod) (off : Nat) : W32 :=
  match off with
  | 0x00 => m.cfg.updcfg
  | 0x04 => updSts m
  | 0x08 => updBank m
  | 0x10 => partVersion m 0 true
  | 0x14 => partVersion m 0 false
  | 0x18 => partVersion m 1 true
  | 0x1C => partVersion m 1 false
  | 0x20 => progVersion m true false
  | 0x24 => progVersion m false false
  | 0x28 => progVersion m false true
  | 0x2C => partVersion m 3 true
  | 0x30 => partVersion m 3 false
  | 0x34 => BitVec.ofNat 32 m.up.actScn
  | 0x38 => BitVec.ofNat 32 (m.up.actScn / 4294967296)
  | 0x3C => pack [(m.up.result, 24, 8), (m.up.reason, 16, 8), (m.up.resKind, 8, 8), (m.up.flane, 0, 3)]
  | 0x40 => pack [(m.up.oc.station, 22, 10), (m.up.oc.state, 20, 2), (m.up.oc.block, 0, 20)]
  | _ => 0

/-- A register of diagnostic FIFO `f` (R517, R521). -/
def readFifo (m : Mod) (f off : Nat) : W32 :=
  let x := tabGet DiagFifo.fresh m.host.dfifo f
  match off with
  | 0x0 => (fifoCounts m f).1
  | 0x4 => x.latDeliv
  | 0x8 => x.latLost
  | 0xC => pack [(satN 0xFFFF x.resets, 16, 16), (satN 0xFFFF (fifoFill m f), 0, 16)]
  | _ => 0

/-- The counters and recorder block (R517-R521). -/
def readRecorder (m : Mod) (off : Nat) : W32 :=
  let s := m.nv.store
  match off with
  | 0x00 => pack [(b2n s.podFull, 2, 1), (b2n s.field, 1, 1), (b2n m.rcd.unusable, 0, 1)]
  | 0x04 => pack [(m.rcd.ceil, 16, 16), (satN 0xFFFF m.rcd.dirty.length, 0, 16)]
  | 0x08 => BitVec.ofNat 32 s.podiumN
  | 0x0C => BitVec.ofNat 32 m.rcd.lossN
  | 0x10 => BitVec.ofNat 32 (s.next - 1)
  | 0x14 => BitVec.ofNat 32 ((s.next - 1) / 4294967296)
  | 0x18 => BitVec.ofNat 32 (m.clk / 1000000000)
  | 0x1C => BitVec.ofNat 32 s.pcyc
  | 0x20 => pack [(satN 0xFFFF m.rc.count, 16, 16), (m.rc.state, 0, 2)]
  | 0x24 => BitVec.ofNat 32 m.rc.target
  | 0x28 => BitVec.ofNat 32 (m.rc.target / 4294967296)
  | 0x30 => pack [(satN 0xFFFF m.pc.mism, 16, 16), (fieldOf m.md.bist 20 4, 0, 4)]
  | _ =>
    if 0x40 ≤ off ∧ off < 0x60 then tabGet 0 m.pc.cfg ((off - 0x40) / 4)
    else if 0x80 ≤ off ∧ off < 0x150 then readFifo m ((off - 0x80) / 16) (off % 16)
    else 0

/-- The security block (R571-R573). -/
def readSecurity (m : Mod) (off : Nat) : W32 :=
  match off with
  | 0x00 => secLc m
  | 0x04 => secAlm m
  | 0x08 => secLvl m false
  | 0x0C => secLvl m true
  | 0x10 => secMesh m
  | 0x14 => secKey m
  | 0x18 => secSvc m
  | 0x20 => m.nv.sec.identity.extractLsb' 0 32
  | 0x24 => m.nv.sec.identity.extractLsb' 32 32
  | 0x28 => kcvOf m.ln.a
  | 0x2C => kcvOf m.ln.b
  | 0x30 => kcvOf m.ln.c
  | _ => if 0x40 ≤ off ∧ off < 0x58 then secFlr m ((off - 0x40) / 4 + 1) else 0

/-- The blocks of BAR0: base, size and what they read as (R412). -/
def blocks : List (Nat × Nat × (Mod → Nat → W32)) :=
  [(0x0000, 0x100, readHif), (0x0100, 0x60, readPacer), (0x0180, 0x40, readVote), (0x01C0, 0x40, readModes), (0x0200, 0x20, readLogic),
   (0x0220, 0x20, readEngine), (0x0240, 0x40, readFio), (0x0280, 0x40, readStride), (0x02C0, 0x20, readBaton), (0x0300, 0x50, readCan),
   (0x0400, 0x100, readPair), (0x0500, 0x100, readUpdate), (0x0600, 0x200, readRecorder), (0x0800, 0x100, readSecurity),
   (0x1000, 0xC00, fun m o => readRing m (o / 32) (o % 32)), (0x2000, 0x100, readRoute)]

/-- What a read of the 32-bit word at a BAR0 offset returns; reserved offsets read 0 (R13, R412, R413). A read that latches others
is a command of its own. -/
def readBar0 (m : Mod) (off : Nat) : W32 :=
  match blocks.find? (fun b => decide (b.1 ≤ off) && decide (off < b.1 + b.2.1)) with
  | some b => b.2.2 m (off - b.1)
  | none => 0

/-! ## Writes -/

/-- A value brought into a range. -/
def clampN (lo hi v : Nat) : Nat := max lo (min hi v)

/-- What a write makes of a settings register: `none` at any other offset; `some none` where the value is discarded; reserved fields
ignore what is written (R13, R75-R77, R117, R153, R239, R285, R419, R481, R548). -/
def newSettings (off : Nat) (val : W32) (c : Settings) : Option (Option Settings) :=
  let v := val.toNat
  let f (lo w : Nat) : Nat := fieldOf v lo w
  match off with
  | 0x0010 => some (some { c with hifcfg := BitVec.ofNat 32 (clampN 250 3000 (f 0 12)) })
  | 0x0100 => some (some { c with pcrcfg := pack [(clampN 2 60 (f 8 8), 8, 8), (clampN 1 10 (f 4 4), 4, 4), (f 3 1, 3, 1)] })
  | 0x0104 => if 4 ≤ f 0 4 ∨ 4 ≤ f 4 4 ∨ 4 ≤ f 8 4 then some none else some (some { c with pcrsrc := pack [(f 0 12, 0, 12)] })
  | 0x0108 =>
    if 127 < f 16 8 ∨ 1 < f 4 4 then some none
    else some (some { c with pcrptp := pack [(f 16 8, 16, 8), (f 8 8, 8, 8), (f 4 4, 4, 4), (f 0 1, 0, 1)] })
  | 0x0180 => some (some { c with votcfg := pack [(clampN 1 90 (f 8 8), 8, 8), (max 1 (f 0 2), 0, 2)] })
  | 0x01C0 => some (some { c with modcfg := pack [(max 1 (f 24 8), 24, 8), (f 16 8, 16, 8), (f 8 3, 8, 3), (f 0 1, 0, 1)] })
  | 0x0220 => some (some { c with engcfg := pack [(clampN 50 15000 (f 0 16), 0, 16)] })
  | 0x0240 => some (some { c with fiocfg := pack [(clampN 10 250 (f 16 8), 16, 8), (clampN 20 80 (f 8 8), 8, 8), (f 0 1, 0, 1)] })
  | 0x0400 => some (some { c with prcfg := pack [(f 24 5, 24, 5), (clampN 5 120 (f 16 8), 16, 8), (f 1 1, 1, 1)] })
  | 0x0500 => some (some { c with updcfg := pack [(clampN 60 3600 (f 0 12), 0, 12)] })
  | _ => none

/-- The settings in force, stored in each lane's settings area of the running bank (R152, R540). -/
def storeSettings (c : Settings) (m : Mod) : Mod :=
  let b := runProg m
  let area (x : Lane) : SetArea := { stored := some c, version := (progBank x b).sver }
  let put (x : Lane) : Lane := if b = 0 then { x with nv := { x.nv with area0 := area x } } else { x with nv := { x.nv with area1 := area x } }
  { updLanes (fun _ x => if x.supplied && x.nv.flashOk then put x else x) m with cfg := c }

/-- STRCFG (R332). -/
def setStrCfg (val : W32) (m : Mod) : Mod :=
  let w := pack [(clampN 2 50 (fieldOf val.toNat 8 8), 8, 8), (fieldOf val.toNat 0 2, 0, 2)]
  updFe (fun f => { f with strcfg := w }) (updStr (fun s => { s with strcfg := w }) m)

/-- RWS: set in START or COMMISSION, in any other mode discarded (R12). -/
def rws (off : Nat) (f : Mod → Mod) (m : Mod) : Mod := if mode m == .start || mode m == .commission then f m else discardWrite off m

/-- A field of the ring descriptor table; RCNT, RAUX and FAULT are read-only (R421). -/
def writeRing (i off : Nat) (val : W32) (m : Mod) : Mod :=
  match off with
  | 0x00 => updRing i (fun r => { r with basel := val }) m
  | 0x04 => updRing i (fun r => { r with baseh := val }) m
  | 0x08 => updRing i (fun r => { r with wrdl := val }) m
  | 0x0C => updRing i (fun r => { r with wrdh := val }) m
  | 0x10 =>
    updRing i (fun r => { r with en := bitOf val.toNat 31, log2n := fieldOf val.toNat 20 4, cls := bitOf val.toNat 15,
                                 target := fieldOf val.toNat 8 5 }) m
  | _ => m

/-- Four bytes of the event routing table (R446). -/
def writeRoute (off : Nat) (val : W32) (m : Mod) : Mod :=
  let one (t : Tab Byte) (i : Nat) : Tab Byte := tabSet 0x80 t (off + i) (BitVec.ofNat 8 (fieldOf val.toNat (8 * i) 8) &&& 0x8F)
  updHost (fun h => { h with route := (List.range 4).foldl one h.route }) m

/-- One PCCFG register (R490, R520). -/
def writePccfg (n : Nat) (val : W32) (m : Mod) : Mod :=
  let waiting := m.pc.waiting
  let ws := (List.range 8).map (fun i => if i = n then val else tabGet 0 m.pc.cfg i)
  updPc (fun p => { p with waiting := waiting }) (applyPccfg ws m)

/-- A write with RUN 0 to the registers that are not settings of the lanes. A write to a read-only or reserved offset is ignored
(R12, R13). -/
def writePlain (off : Nat) (val : W32) (m : Mod) : Mod :=
  if off = 0x0004 then
    let m1 := doMirror (bitOf val.toNat 2) m
    if bitOf val.toNat 0 then doRun m1 else m1
  else if off = 0x0018 then updHost (fun h => { h with mirl := val }) m
  else if off = 0x001C then updHost (fun h => { h with mirh := val }) m
  else if off = 0x0020 then updHost (fun h => { h with headl := val }) m
  else if off = 0x0024 then updHost (fun h => { h with headh := val }) m
  else if off = 0x0280 then rws off (setStrCfg val) m
  else if off = 0x0300 then rws off (setCanCtl val) m
  else if 0x0310 ≤ off ∧ off < 0x0350 ∧ off % 16 ≤ 4 then doBitTiming ((off - 0x310) / 16) (off % 16 == 4) val m
  else if 0x0640 ≤ off ∧ off < 0x0660 then writePccfg ((off - 0x640) / 4) val m
  else if 0x1000 ≤ off ∧ off < 0x1C00 then writeRing ((off - 0x1000) / 32) (off % 32) val m
  else if 0x2000 ≤ off ∧ off < 0x2100 then writeRoute (off - 0x2000) val m
  else m

/-- REGISTER_WRITE: with RUN 1 every write but one to HIFRST is discarded (R413); with RUN 0 the register takes the value its own rule
makes of it. -/
def doWrite (off : Nat) (val : W32) (m : Mod) : Mod :=
  if off = 0x0008 then
    let (env, m1) := freeEnv m
    doResetRequest val env m1
  else if m.host.run then discardWrite off m
  else
    match newSettings off val m.cfg with
    | some (some c) => rws off (storeSettings c) m
    | some none => discardWrite off m
    | none => writePlain off val m

def execRegisterWrite (off : Nat) (val : W32) (s : State) : Host.Outcome State Fault Refusal := s.run (doWrite off val)

end Sys2Proof.Machine
end

