-- ==== Sys2Proof/Machine/Dispatch.lean ====
section
/-! DEFINITION. One arm per command: the direct call of its meaning. -/

namespace Sys2Proof.Machine

def exec (i : Instr) (s : State) : Host.Outcome State Fault Refusal :=
  match i with
  | .powerUp env => Sys2Proof.Machine.execPowerUp env s
  | .acquisitionTimeout => Sys2Proof.Machine.execAcquisitionTimeout s
  | .sourceTaken src time meas => Sys2Proof.Machine.execSourceTaken src time meas s
  | .pairDiscoveryTimeout => Sys2Proof.Machine.execPairDiscoveryTimeout s
  | .startComplete => Sys2Proof.Machine.execStartComplete s
  | .warmUpOverdue => Sys2Proof.Machine.execWarmUpOverdue s
  | .paceSlowed vin => Sys2Proof.Machine.execPaceSlowed vin s
  | .paceNormal vin => Sys2Proof.Machine.execPaceNormal vin s
  | .logicInputBelow16v vin => Sys2Proof.Machine.execLogicInputBelow16v vin s
  | .supplyValidRestart env => Sys2Proof.Machine.execSupplyValidRestart env s
  | .logicFeedAbsent feed mv => Sys2Proof.Machine.execLogicFeedAbsent feed mv s
  | .logicFeedRestored feed mv => Sys2Proof.Machine.execLogicFeedRestored feed mv s
  | .feedOvervoltageDisconnect feed mv => Sys2Proof.Machine.execFeedOvervoltageDisconnect feed mv s
  | .feedOvervoltageReconnect feed mv => Sys2Proof.Machine.execFeedOvervoltageReconnect feed mv s
  | .resetKey heldMs env => Sys2Proof.Machine.execResetKey heldMs env s
  | .resetRequest val env => Sys2Proof.Machine.execResetRequest val env s
  | .pcieReset => Sys2Proof.Machine.execPcieReset s
  | .automaticRestart env => Sys2Proof.Machine.execAutomaticRestart env s
  | .strideStopOnHalt => Sys2Proof.Machine.execStrideStopOnHalt s
  | .modeTransitionEffect => Sys2Proof.Machine.execModeTransitionEffect s
  | .frontEndLivenessExchange lane ok => Sys2Proof.Machine.execFrontEndLivenessExchange lane ok s
  | .frontEndLost lane => Sys2Proof.Machine.execFrontEndLost lane s
  | .ptpMessage msg => Sys2Proof.Machine.execPtpMessage msg s
  | .ptpAnnounceTimeout => Sys2Proof.Machine.execPtpAnnounceTimeout s
  | .gunSourceTimeout => Sys2Proof.Machine.execGunSourceTimeout s
  | .partnerTimeTimeout => Sys2Proof.Machine.execPartnerTimeTimeout s
  | .servoCorrection => Sys2Proof.Machine.execServoCorrection s
  | .sourceEligible10s src => Sys2Proof.Machine.execSourceEligible10s src s
  | .refusedSourceCleared src => Sys2Proof.Machine.execRefusedSourceCleared src s
  | .holdoverAlarm => Sys2Proof.Machine.execHoldoverAlarm s
  | .oscillatorDriftWindow ppb adev => Sys2Proof.Machine.execOscillatorDriftWindow ppb adev s
  | .pcrscnlRead => Sys2Proof.Machine.execPcrscnlRead s
  | .registerWrite off val => Sys2Proof.Machine.execRegisterWrite off val s
  | .comparatorMismatch lane rails => Sys2Proof.Machine.execComparatorMismatch lane rails s
  | .sramScrub lane finds => Sys2Proof.Machine.execSramScrub lane finds s
  | .comparatorProofOverdue lane => Sys2Proof.Machine.execComparatorProofOverdue lane s
  | .hurdleItemOverdue lane item => Sys2Proof.Machine.execHurdleItemOverdue lane item s
  | .hurdle obs => Sys2Proof.Machine.execHurdle obs s
  | .testRoutingClose lane active => Sys2Proof.Machine.execTestRoutingClose lane active s
  | .clockPlanLowered lane => Sys2Proof.Machine.execClockPlanLowered lane s
  | .linkLineLost link line => Sys2Proof.Machine.execLinkLineLost link line s
  | .linkLineRestored link line => Sys2Proof.Machine.execLinkLineRestored link line s
  | .localFreeze => Sys2Proof.Machine.execLocalFreeze s
  | .localFreezeFrame rcv snd line0 line1 => Sys2Proof.Machine.execLocalFreezeFrame rcv snd line0 line1 s
  | .localFreezeAgreement => Sys2Proof.Machine.execLocalFreezeAgreement s
  | .sagLatchSet g => Sys2Proof.Machine.execSagLatchSet g s
  | .minorityReport lane chan => Sys2Proof.Machine.execMinorityReport lane chan s
  | .remoteFreeze => Sys2Proof.Machine.execRemoteFreeze s
  | .remoteFreezeFrame rcv snd line0 line1 => Sys2Proof.Machine.execRemoteFreezeFrame rcv snd line0 line1 s
  | .remoteFreezeAgreement => Sys2Proof.Machine.execRemoteFreezeAgreement s
  | .pendingRequestExpired route => Sys2Proof.Machine.execPendingRequestExpired route s
  | .enginePassLate => Sys2Proof.Machine.execEnginePassLate s
  | .ioControllerLost => Sys2Proof.Machine.execIoControllerLost s
  | .taskRelease task => Sys2Proof.Machine.execTaskRelease task s
  | .slowTaskSlice task => Sys2Proof.Machine.execSlowTaskSlice task s
  | .snapshot => Sys2Proof.Machine.execSnapshot s
  | .offerFrame rcv snd line0 line1 => Sys2Proof.Machine.execOfferFrame rcv snd line0 line1 s
  | .offersClose => Sys2Proof.Machine.execOffersClose s
  | .verdictFrame rcv snd line0 line1 => Sys2Proof.Machine.execVerdictFrame rcv snd line0 line1 s
  | .verdictsClose => Sys2Proof.Machine.execVerdictsClose s
  | .confirmationFrame rcv snd line0 line1 => Sys2Proof.Machine.execConfirmationFrame rcv snd line0 line1 s
  | .confirmationsClose => Sys2Proof.Machine.execConfirmationsClose s
  | .laneFaultFrame rcv snd line0 line1 => Sys2Proof.Machine.execLaneFaultFrame rcv snd line0 line1 s
  | .securityAlarmFrame rcv snd line0 line1 delay => Sys2Proof.Machine.execSecurityAlarmFrame rcv snd line0 line1 delay s
  | .sealing => Sys2Proof.Machine.execSealing s
  | .localOutputsApplied => Sys2Proof.Machine.execLocalOutputsApplied s
  | .onlineChangeCheck => Sys2Proof.Machine.execOnlineChangeCheck s
  | .onlineChangeApplied => Sys2Proof.Machine.execOnlineChangeApplied s
  | .inputPulseSample obs test => Sys2Proof.Machine.execInputPulseSample obs test s
  | .diagnosticRecord load group ports => Sys2Proof.Machine.execDiagnosticRecord load group ports s
  | .offPulse k test => Sys2Proof.Machine.execOffPulse k test s
  | .protectiveSwitchOff k cond => Sys2Proof.Machine.execProtectiveSwitchOff k cond s
  | .openWireDetected k => Sys2Proof.Machine.execOpenWireDetected k s
  | .loadLearningComplete k => Sys2Proof.Machine.execLoadLearningComplete k s
  | .groupCurrentHigh g => Sys2Proof.Machine.execGroupCurrentHigh g s
  | .contactorCheck => Sys2Proof.Machine.execContactorCheck s
  | .gunFrameSend seg => Sys2Proof.Machine.execGunFrameSend seg s
  | .gunFrameReceive port got => Sys2Proof.Machine.execGunFrameReceive port got s
  | .gunYieldEnd seg => Sys2Proof.Machine.execGunYieldEnd seg s
  | .gunListenEnd seg => Sys2Proof.Machine.execGunListenEnd seg s
  | .segmentDark seg => Sys2Proof.Machine.execSegmentDark seg s
  | .gunTakeover seg => Sys2Proof.Machine.execGunTakeover seg s
  | .exclusiveWindowSend station => Sys2Proof.Machine.execExclusiveWindowSend station s
  | .exclusiveFrameReturn frame => Sys2Proof.Machine.execExclusiveFrameReturn frame s
  | .bidWindowSend seg => Sys2Proof.Machine.execBidWindowSend seg s
  | .bidFrameReturn frame => Sys2Proof.Machine.execBidFrameReturn frame s
  | .entryWindowSend seg => Sys2Proof.Machine.execEntryWindowSend seg s
  | .entryFrameReturn frame => Sys2Proof.Machine.execEntryFrameReturn frame s
  | .capabilityTimeout station => Sys2Proof.Machine.execCapabilityTimeout station s
  | .stationLost station => Sys2Proof.Machine.execStationLost station s
  | .measureWindow => Sys2Proof.Machine.execMeasureWindow s
  | .linkDelayRequest port turn => Sys2Proof.Machine.execLinkDelayRequest port turn s
  | .linkDelayResponse port round turn => Sys2Proof.Machine.execLinkDelayResponse port round turn s
  | .scheduleSwitchDecision => Sys2Proof.Machine.execScheduleSwitchDecision s
  | .scheduleSwitchApplied => Sys2Proof.Machine.execScheduleSwitchApplied s
  | .telegramCopyReceived lane tel medium seg => Sys2Proof.Machine.execTelegramCopyReceived lane tel medium seg s
  | .syncSlot chan => Sys2Proof.Machine.execSyncSlot chan s
  | .nodeSlot num => Sys2Proof.Machine.execNodeSlot num s
  | .vitalEntryAborted num started => Sys2Proof.Machine.execVitalEntryAborted num started s
  | .canFrameSent chan sent brs tdcv => Sys2Proof.Machine.execCanFrameSent chan sent brs tdcv s
  | .canFrameReceived chan frame => Sys2Proof.Machine.execCanFrameReceived chan frame s
  | .discoveryRequest chan => Sys2Proof.Machine.execDiscoveryRequest chan s
  | .discoveryResponse resp => Sys2Proof.Machine.execDiscoveryResponse resp s
  | .nodeLost num => Sys2Proof.Machine.execNodeLost num s
  | .hostEntryLifetimeExpired chan buf => Sys2Proof.Machine.execHostEntryLifetimeExpired chan buf s
  | .errorPassive chan tec rec => Sys2Proof.Machine.execErrorPassive chan tec rec s
  | .busOff chan => Sys2Proof.Machine.execBusOff chan s
  | .busOffRecovered chan => Sys2Proof.Machine.execBusOffRecovered chan s
  | .bitTimingWrite chan data val => Sys2Proof.Machine.execBitTimingWrite chan data val s
  | .hifctlRun => Sys2Proof.Machine.execHifctlRun s
  | .hifctlMirror on => Sys2Proof.Machine.execHifctlMirror on s
  | .hiflaccRead => Sys2Proof.Machine.execHiflaccRead s
  | .hifevpRead => Sys2Proof.Machine.execHifevpRead s
  | .fprodRead f => Sys2Proof.Machine.execFprodRead f s
  | .doorbellPoll words entries => Sys2Proof.Machine.execDoorbellPoll words entries s
  | .submissionRingHeld sq => Sys2Proof.Machine.execSubmissionRingHeld sq s
  | .hostRingMemoryInvalid cause => Sys2Proof.Machine.execHostRingMemoryInvalid cause s
  | .pcieLinkDegraded speed width => Sys2Proof.Machine.execPcieLinkDegraded speed width s
  | .eventFifoDrain eq => Sys2Proof.Machine.execEventFifoDrain eq s
  | .stateMirrorWrite finished => Sys2Proof.Machine.execStateMirrorWrite finished s
  | .criticalPendingExpired terminal => Sys2Proof.Machine.execCriticalPendingExpired terminal s
  | .hello => Sys2Proof.Machine.execHello s
  | .helloReceived line0 line1 hello => Sys2Proof.Machine.execHelloReceived line0 line1 hello s
  | .partnerTelegram crcOk medium seg tel => Sys2Proof.Machine.execPartnerTelegram crcOk medium seg tel s
  | .partnerSubmission sub => Sys2Proof.Machine.execPartnerSubmission sub s
  | .pairLocalImage image => Sys2Proof.Machine.execPairLocalImage image s
  | .pairStatus frame => Sys2Proof.Machine.execPairStatus frame s
  | .stateChunk index total copy line tail bytes => Sys2Proof.Machine.execStateChunk index total copy line tail bytes s
  | .partnerAdmissionFrame chan addr identity slot => Sys2Proof.Machine.execPartnerAdmissionFrame chan addr identity slot s
  | .partnerLinkLost => Sys2Proof.Machine.execPartnerLinkLost s
  | .partnerLineLost line => Sys2Proof.Machine.execPartnerLineLost line s
  | .leadNoAcknowledgement => Sys2Proof.Machine.execLeadNoAcknowledgement s
  | .takeoverDecision => Sys2Proof.Machine.execTakeoverDecision s
  | .outgoingDeadline => Sys2Proof.Machine.execOutgoingDeadline s
  | .drillDay => Sys2Proof.Machine.execDrillDay s
  | .rollCallLatch => Sys2Proof.Machine.execRollCallLatch s
  | .rollCallBlock unit num bytes => Sys2Proof.Machine.execRollCallBlock unit num bytes s
  | .rollCallClose => Sys2Proof.Machine.execRollCallClose s
  | .rollCallSectionWrite => Sys2Proof.Machine.execRollCallSectionWrite s
  | .rollCallCompletion => Sys2Proof.Machine.execRollCallCompletion s
  | .counterSettingApply => Sys2Proof.Machine.execCounterSettingApply s
  | .recordAccept record => Sys2Proof.Machine.execRecordAccept record s
  | .lossRecord src => Sys2Proof.Machine.execLossRecord src s
  | .recorderFlush writable mismatches => Sys2Proof.Machine.execRecorderFlush writable mismatches s
  | .recorderReadDelivery ring => Sys2Proof.Machine.execRecorderReadDelivery ring s
  | .fifoPointerMismatch f => Sys2Proof.Machine.execFifoPointerMismatch f s
  | .activationPrepare => Sys2Proof.Machine.execActivationPrepare s
  | .updateRestart env => Sys2Proof.Machine.execUpdateRestart env s
  | .sessionIdleTimeout => Sys2Proof.Machine.execSessionIdleTimeout s
  | .serviceConnectionLost => Sys2Proof.Machine.execServiceConnectionLost s
  | .ocActivationTimeout => Sys2Proof.Machine.execOcActivationTimeout s
  | .tlsHandshake suiteOk role subject chain => Sys2Proof.Machine.execTlsHandshake suiteOk role subject chain s
  | .authBackoffExpired => Sys2Proof.Machine.execAuthBackoffExpired s
  | .meshLoopBroken lane => Sys2Proof.Machine.execMeshLoopBroken lane s
  | .keyStoreEnvironment lane => Sys2Proof.Machine.execKeyStoreEnvironment lane s
  | .temperatureHigh temp => Sys2Proof.Machine.execTemperatureHigh temp s
  | .flashRefresh flash wear => Sys2Proof.Machine.execFlashRefresh flash wear s
  | .goToRun sub => Sys2Proof.Machine.execGoToRun sub s
  | .haltRequest sub => Sys2Proof.Machine.execHaltRequest sub s
  | .possessionGrant sub => Sys2Proof.Machine.execPossessionGrant sub s
  | .possessionReturn sub => Sys2Proof.Machine.execPossessionReturn sub s
  | .forceSet sub => Sys2Proof.Machine.execForceSet sub s
  | .forceRelease sub => Sys2Proof.Machine.execForceRelease sub s
  | .routeRequest sub => Sys2Proof.Machine.execRouteRequest sub s
  | .routeCancel sub => Sys2Proof.Machine.execRouteCancel sub s
  | .runBlockBist sub pass => Sys2Proof.Machine.execRunBlockBist sub pass s
  | .applicationCommand sub => Sys2Proof.Machine.execApplicationCommand sub s
  | .clearExclusionRecord sub => Sys2Proof.Machine.execClearExclusionRecord sub s
  | .acknowledgeSagLatch sub => Sys2Proof.Machine.execAcknowledgeSagLatch sub s
  | .clearExternalFeedLatch sub => Sys2Proof.Machine.execClearExternalFeedLatch sub s
  | .clearChannelLatch sub => Sys2Proof.Machine.execClearChannelLatch sub s
  | .discardLearnedCurrent sub => Sys2Proof.Machine.execDiscardLearnedCurrent sub s
  | .switchSchedule sub => Sys2Proof.Machine.execSwitchSchedule sub s
  | .rebindStationIdentity sub => Sys2Proof.Machine.execRebindStationIdentity sub s
  | .readConnectionCounters sub => Sys2Proof.Machine.execReadConnectionCounters sub s
  | .hostCanTransmit sub => Sys2Proof.Machine.execHostCanTransmit sub s
  | .cancelHostTransmit sub started => Sys2Proof.Machine.execCancelHostTransmit sub started s
  | .noOperation sub => Sys2Proof.Machine.execNoOperation sub s
  | .changeover sub => Sys2Proof.Machine.execChangeover sub s
  | .reJoin sub => Sys2Proof.Machine.execReJoin sub s
  | .openSession sub => Sys2Proof.Machine.execOpenSession sub s
  | .header sub => Sys2Proof.Machine.execHeader sub s
  | .payloadChunk sub => Sys2Proof.Machine.execPayloadChunk sub s
  | .verify sub => Sys2Proof.Machine.execVerify sub s
  | .activate sub => Sys2Proof.Machine.execActivate sub s
  | .closeSession sub => Sys2Proof.Machine.execCloseSession sub s
  | .recorderRead sub => Sys2Proof.Machine.execRecorderRead sub s
  | .recorderReadStop sub => Sys2Proof.Machine.execRecorderReadStop sub s
  | .rollCall sub => Sys2Proof.Machine.execRollCall sub s
  | .setCounters sub => Sys2Proof.Machine.execSetCounters sub s
  | .provision head root nid partner paired => Sys2Proof.Machine.execProvision head root nid partner paired s
  | .loadWrappedKeys head entries => Sys2Proof.Machine.execLoadWrappedKeys head entries s
  | .lifecycleTransition head target => Sys2Proof.Machine.execLifecycleTransition head target s
  | .setAlarmLevels head levels authn => Sys2Proof.Machine.execSetAlarmLevels head levels authn s
  | .clearPendingAlarm head => Sys2Proof.Machine.execClearPendingAlarm head s
  | .ownerUpdateLock head on => Sys2Proof.Machine.execOwnerUpdateLock head on s
  | .raiseRollbackFloor head kind => Sys2Proof.Machine.execRaiseRollbackFloor head kind s
  | .revokeImageVerificationKey head slot signer sig => Sys2Proof.Machine.execRevokeImageVerificationKey head slot signer sig s
  | .jNop => Sys2Proof.Machine.execJNop s
  | .jJmp off => Sys2Proof.Machine.execJJmp off s
  | .jJt a off => Sys2Proof.Machine.execJJt a off s
  | .jJf a off => Sys2Proof.Machine.execJJf a off s
  | .jJtab a tab => Sys2Proof.Machine.execJJtab a tab s
  | .jCall fn => Sys2Proof.Machine.execJCall fn s
  | .jRet => Sys2Proof.Machine.execJRet s
  | .jLoop a n off => Sys2Proof.Machine.execJLoop a n off s
  | .jNext => Sys2Proof.Machine.execJNext s
  | .jEnd => Sys2Proof.Machine.execJEnd s
  | .jFail n => Sys2Proof.Machine.execJFail n s
  | .jChk a n => Sys2Proof.Machine.execJChk a n s
  | .jLdi d c imm => Sys2Proof.Machine.execJLdi d c imm s
  | .jLdk d k => Sys2Proof.Machine.execJLdk d k s
  | .jMov d a => Sys2Proof.Machine.execJMov d a s
  | .jCvt d a c => Sys2Proof.Machine.execJCvt d a c s
  | .jSel d a b c => Sys2Proof.Machine.execJSel d a b c s
  | .jClr d c => Sys2Proof.Machine.execJClr d c s
  | .jObj d a c => Sys2Proof.Machine.execJObj d a c s
  | .jIdx d a => Sys2Proof.Machine.execJIdx d a s
  | .jLd d var => Sys2Proof.Machine.execJLd d var s
  | .jSt var a => Sys2Proof.Machine.execJSt var a s
  | .jLdx d a arr => Sys2Proof.Machine.execJLdx d a arr s
  | .jStx arr a b => Sys2Proof.Machine.execJStx arr a b s
  | .jLdf d c rec => Sys2Proof.Machine.execJLdf d c rec s
  | .jStf rec c a => Sys2Proof.Machine.execJStf rec c a s
  | .jLdp d var => Sys2Proof.Machine.execJLdp d var s
  | .jLen d arr => Sys2Proof.Machine.execJLen d arr s
  | .jAdd d a b => Sys2Proof.Machine.execJAdd d a b s
  | .jSub d a b => Sys2Proof.Machine.execJSub d a b s
  | .jMul d a b => Sys2Proof.Machine.execJMul d a b s
  | .jDiv d a b => Sys2Proof.Machine.execJDiv d a b s
  | .jMod d a b => Sys2Proof.Machine.execJMod d a b s
  | .jNeg d a => Sys2Proof.Machine.execJNeg d a s
  | .jAbs d a => Sys2Proof.Machine.execJAbs d a s
  | .jMin d a b => Sys2Proof.Machine.execJMin d a b s
  | .jMax d a b => Sys2Proof.Machine.execJMax d a b s
  | .jLim d a b c => Sys2Proof.Machine.execJLim d a b c s
  | .jEq d a b => Sys2Proof.Machine.execJEq d a b s
  | .jNe d a b => Sys2Proof.Machine.execJNe d a b s
  | .jLt d a b => Sys2Proof.Machine.execJLt d a b s
  | .jLe d a b => Sys2Proof.Machine.execJLe d a b s
  | .jGt d a b => Sys2Proof.Machine.execJGt d a b s
  | .jGe d a b => Sys2Proof.Machine.execJGe d a b s
  | .jAnd d a b => Sys2Proof.Machine.execJAnd d a b s
  | .jOr d a b => Sys2Proof.Machine.execJOr d a b s
  | .jXor d a b => Sys2Proof.Machine.execJXor d a b s
  | .jNot d a => Sys2Proof.Machine.execJNot d a s
  | .jBand d a b => Sys2Proof.Machine.execJBand d a b s
  | .jBor d a b => Sys2Proof.Machine.execJBor d a b s
  | .jBxor d a b => Sys2Proof.Machine.execJBxor d a b s
  | .jBnot d a => Sys2Proof.Machine.execJBnot d a s
  | .jShl d a b => Sys2Proof.Machine.execJShl d a b s
  | .jShr d a b => Sys2Proof.Machine.execJShr d a b s
  | .jBtst d a b => Sys2Proof.Machine.execJBtst d a b s
  | .jBset d a b => Sys2Proof.Machine.execJBset d a b s
  | .jBclr d a b => Sys2Proof.Machine.execJBclr d a b s
  | .jIscl d a => Sys2Proof.Machine.execJIscl d a s
  | .jIsop d a => Sys2Proof.Machine.execJIsop d a s
  | .jIsbd d a => Sys2Proof.Machine.execJIsbd d a s
  | .jAgr d a b => Sys2Proof.Machine.execJAgr d a b s
  | .jIn d a => Sys2Proof.Machine.execJIn d a s
  | .jInq d a => Sys2Proof.Machine.execJInq d a s
  | .jStn d a => Sys2Proof.Machine.execJStn d a s
  | .jFrc d var => Sys2Proof.Machine.execJFrc d var s
  | .jArea d a => Sys2Proof.Machine.execJArea d a s
  | .jGrp d a => Sys2Proof.Machine.execJGrp d a s
  | .jNow d => Sys2Proof.Machine.execJNow d s
  | .jElap d a => Sys2Proof.Machine.execJElap d a s
  | .jTon d a b t => Sys2Proof.Machine.execJTon d a b t s
  | .jTof d a b t => Sys2Proof.Machine.execJTof d a b t s
  | .jTp d a b t => Sys2Proof.Machine.execJTp d a b t s
  | .jTrs t => Sys2Proof.Machine.execJTrs t s
  | .jTrem d t => Sys2Proof.Machine.execJTrem d t s
  | .jCtu d a b t => Sys2Proof.Machine.execJCtu d a b t s
  | .jCtd d a b t => Sys2Proof.Machine.execJCtd d a b t s
  | .jCrs a t => Sys2Proof.Machine.execJCrs a t s
  | .jRtrg d a t => Sys2Proof.Machine.execJRtrg d a t s
  | .jFtrg d a t => Sys2Proof.Machine.execJFtrg d a t s
  | .jEnxt d => Sys2Proof.Machine.execJEnxt d s
  | .jEreq d a => Sys2Proof.Machine.execJEreq d a s
  | .jElck a b => Sys2Proof.Machine.execJElck a b s
  | .jEdrp a b => Sys2Proof.Machine.execJEdrp a b s
  | .jErel a b => Sys2Proof.Machine.execJErel a b s
  | .jErrl a => Sys2Proof.Machine.execJErrl a s
  | .jEsta d a => Sys2Proof.Machine.execJEsta d a s
  | .jEovl d a => Sys2Proof.Machine.execJEovl d a s
  | .jHcmd d => Sys2Proof.Machine.execJHcmd d s
  | .jHdon a b => Sys2Proof.Machine.execJHdon a b s
  | .jHevt a b => Sys2Proof.Machine.execJHevt a b s
  | .jTrg d => Sys2Proof.Machine.execJTrg d s
  | .jSys d c => Sys2Proof.Machine.execJSys d c s
  | .jRec a b => Sys2Proof.Machine.execJRec a b s
  | .jCvu d a arr => Sys2Proof.Machine.execJCvu d a arr s
  | .jConn d a => Sys2Proof.Machine.execJConn d a s
  | .jTagv d a => Sys2Proof.Machine.execJTagv d a s
  | .partnerLineRestored line => Sys2Proof.Machine.execPartnerLineRestored line s
  | .msixVectorUnmasked entry => Sys2Proof.Machine.execMsixVectorUnmasked entry s
  | .laneSupplyLost lane => Sys2Proof.Machine.execLaneSupplyLost lane s
  | .holdUpStoreExhausted => Sys2Proof.Machine.execHoldUpStoreExhausted s

end Sys2Proof.Machine
end

