-- ==== Sys2Proof/Machine/Tick.lean ====
section
/-! DEFINITION. What passes when no command waits (DESIGN CHOICE, log entry 2). -/

namespace Sys2Proof.Machine

/-- One millisecond passes on a powered module: clocks run, and messages held by the rate limit leave. -/
def idleTick (s : State) : Host.Outcome State Fault Refusal :=
  s.run (passTime 1000000)

end Sys2Proof.Machine
end

