-- ==== Sys2Proof/Machine/Panel.lean ====
section
/-! DEFINITION. The front panel (R594), what its lamps and its status display show, and the contact OKA-OKB (R577). The panel holds nothing of its own: the lowest voting
lane reports the state it shows. -/

namespace Sys2Proof.Machine

/-- The colours of the lamps. -/
inductive LampColour where
  | green | red | yellow
  deriving DecidableEq, Repr

/-- A lamp: off, steady, or flashing at 1 Hz. -/
inductive Lamp where
  | off
  | steady (c : LampColour)
  | flashing (c : LampColour)
  deriving DecidableEq, Repr

/-- The front panel. -/
structure Panel where
  run : Lamp
  halt : Lamp
  lanes : PerLane Lamp
  force : Lamp
  role : Lamp
  supply : Lamp
  /-- FG0-FG3. -/
  groups : List Lamp
  alarm : Lamp
  host : Lamp
  /-- The left digit: the mode code (R38); the right digit, `none` where it is blank. -/
  left : Option Nat
  right : Option Nat
  /-- FE alternates with the digits every second (R21). -/
  feAlternates : Bool
  deriving DecidableEq, Repr

/-- A panel that no lane drives. -/
def Panel.dark : Panel :=
  { run := .off, halt := .off, lanes := PerLane.all .off, force := .off, role := .off, supply := .off, groups := List.replicate 4 .off, alarm := .off,
    host := .off, left := none, right := none, feAlternates := false }

/-- RUN: steady in RUN-3, RUN-2 and MAINTAIN, flashing in START and COMMISSION. -/
def runLamp (x : Mode) : Lamp :=
  match x with
  | .run3 | .run2 | .maintain => .steady .green
  | .start | .commission => .flashing .green
  | .halt | .recovery | .shadow => .off

/-- HALT: steady in HALT, flashing in RECOVERY. -/
def haltLamp (x : Mode) : Lamp :=
  match x with
  | .halt => .steady .red
  | .recovery => .flashing .red
  | .start | .commission | .run3 | .run2 | .shadow | .maintain => .off

/-- LANE A, B, C: a lane that neither votes nor is excluded nor held out shows nothing (DEDUCED, log entry 51). -/
def laneLamp (m : Mod) (l : LaneId) : Lamp :=
  let x := m.ln.get l
  if !x.supplied then .off
  else if x.eol then .flashing .red
  else if x.excluded || x.heldOut then .steady .red
  else if x.alive && (vsetOf m).get l then .steady .green
  else .off

/-- ROLE (R482). -/
def roleLamp (role : Nat) : Lamp :=
  match role with
  | 1 => .steady .green
  | 2 => .steady .yellow
  | 3 => .flashing .yellow
  | _ => .off

/-- SUPPLY (R582, R583): HALT with HCAUSE 5 flashes red, whatever the feeds are. -/
def supplyLamp (m : Mod) : Lamp :=
  if inHalt m && m.md.hcause == 5 then .flashing .red
  else if m.pw.f1 && m.pw.f2 && m.pw.pace == 0 then .steady .green
  else if m.pw.f1 || m.pw.f2 then .steady .yellow
  else .off

/-- FG0-FG3 by GRP (R272): a group is taken as fitted (DEDUCED, log entry 51). -/
def groupLamp (g : Group) : Lamp :=
  match g.grp with
  | 0 => .steady .green
  | 1 => .steady .yellow
  | _ => .steady .red

/-- HOST: RUN not set, ring memory valid, ring memory invalid. -/
def hostLamp (m : Mod) : Lamp := if !m.host.run then .off else if m.host.valid then .steady .green else .flashing .green

/-- The right digit of the status display. -/
def rightDigit (m : Mod) : Option Nat :=
  match mode m with
  | .start => some m.md.step
  | .halt => some m.md.hcause
  | _ => none

/-- The relay contact OKA-OKB is closed in COMMISSION, RUN-3, RUN-2, SHADOW and MAINTAIN (R577). -/
def okContact (m : Mod) : Bool := m.powered && serving m

/-- The front panel of the module (R594): dark without a lane to drive it. -/
def panel (m : Mod) : Panel :=
  if !m.powered || allLanes.all (fun l => !(m.ln.get l).supplied) then Panel.dark
  else
    { run := runLamp (mode m), halt := haltLamp (mode m), lanes := { a := laneLamp m .a, b := laneLamp m .b, c := laneLamp m .c }
      force := if m.md.forces.isEmpty then .off else .steady .yellow, role := roleLamp m.pr.role, supply := supplyLamp m
      groups := m.fio.groups.map groupLamp, alarm := if m.nv.sec.pend == 0 then .off else .steady .red, host := hostLamp m
      left := some (modeCode (mode m)), right := rightDigit m, feAlternates := (m.ln.get (refLane m)).feLost }

end Sys2Proof.Machine
end

