-- ==== Sys2Proof/Safety.lean ====
section
/-! DEFINITION. The terms in which claims are stated: what a command does, what a safe run keeps, when a channel is energised, and
what the recorder and the host are told. -/

namespace Sys2Proof.Machine

/-! ## What a command does -/

/-- The command completes: `exec` answers a next state with the same queue, and the module satisfies `P` once the command's work is done.
What follows it in that next state is only that the messages due leave, `fireDue` (R431), which a statement of its own describes. -/
def Does (c : Instr) (s : State) (P : Mod → Prop) : Prop := ∃ m, exec c s = .next { s with m := fireDue m } ∧ P m

/-- Every address of both variable images reads as before. -/
def SameImages (m n : Mod) : Prop := ∀ a, memGet n.cur a = memGet m.cur a ∧ memGet n.nxt a = memGet m.nxt a

/-- Every address of both variable images reads as before but those of `ranges` (first address, length) in the next image. -/
def SameImagesBut (ranges : List (Nat × Nat)) (m n : Mod) : Prop :=
  (∀ a, memGet n.cur a = memGet m.cur a) ∧
    ∀ a, (∀ r ∈ ranges, a < r.1 ∨ r.1 + r.2 ≤ a) → memGet n.nxt a = memGet m.nxt a

/-! ## Safe state (R22, R23, R34) -/

/-- A lane closes its own switches of a channel in a pair: the channel is commanded on and not switched off by its test part, and the
lane drives the pair (R22, R23). -/
def laneClosesIn (m : Mod) (l : LaneId) (p : Link) (k : Nat) : Bool :=
  (driveOf m k).on && !(driveOf m k).tripped && (m.ln.get l).drivesPair p

/-- A lane closes its switches of a channel in some pair. -/
def laneCloses (m : Mod) (l : LaneId) (k : Nat) : Bool := allLinks.any (fun p => laneClosesIn m l p k)

/-- A channel is energised: in one of the three pairs both lanes close their switches, and its group's isolator conducts (R22, R248). -/
def energised (m : Mod) (k : Nat) : Bool :=
  allLinks.any (fun p => laneClosesIn m (pairLanes p).1 p k && laneClosesIn m (pairLanes p).2 p k) && isoConducts m (groupOfDrive k)

/-- No channel is energised. -/
def AllOff (m : Mod) : Prop := ∀ k, energised m k = false

/-! ## What is told (R444, R507) -/

/-- The event as R444 lays it out. -/
def eventOf (code : Nat) (x : EvArgs) (m : Mod) : Event :=
  { code := code, src := x.src, privileged := isPrivileged code, scn := scn m, arg0 := x.arg0, arg1 := x.arg1, arg2 := x.arg2 }

/-- Agreed events are formed: the module votes and two lanes run. -/
def votes (m : Mod) : Bool := operating m && decide (2 ≤ (aliveLanes m).length)

/-- The recorder takes the next record of a source: it runs, has a place, and no run of drops is open. -/
def recReady (priv : Bool) (src : Nat) (m : Mod) : Bool :=
  !m.rcd.stopped && !m.rcd.unusable && recRoom priv m && (tabFind m.rcd.drops src).isNone

/-- The record of an event (R507, R508), as accepted now. -/
def recordOf (e : Event) (m : Mod) : Dirty :=
  { record := { kind := 0, src := e.src, code := e.code, privileged := e.privileged, podium := false, rseq := tabGet 0 m.rcd.seq e.src,
                scn := e.scn, opsec := if e.privileged then satN 0xFFFFFFFF (m.clk / 1000000000) else 0,
                pcyc := if e.privileged then m.nv.store.pcyc else 0, body := eventBody e.arg0 e.arg1 e.arg2 },
    at_ := m.clk }

/-! ## Invariants of a run -/

/-- Both variable images stand in the canonical form. -/
def ImagesWf (m : Mod) : Prop := m.cur.wf = true ∧ m.nxt.wf = true

/-- The event FIFO holds at most its 1,024 items (R44). -/
def FifoBounded (m : Mod) : Prop := m.host.fifo.length ≤ 1024

/-! ## Views of the power path -/

/-- Reading of one logic feed in mV. -/
def feedMv (m : Mod) : Feed → Nat
  | .one => m.pw.feed1
  | .two => m.pw.feed2

/-- The module differs in the power path, and in what the host and the recorder were told, at most. -/
def PowerOnly (m n : Mod) : Prop := { n with pw := m.pw, host := m.host, rcd := m.rcd } = m

/-- The module differs in what the host and the recorder were told at most. -/
def ToldOnly (m n : Mod) : Prop := { n with host := m.host, rcd := m.rcd } = m

/-- Event `code` is told by the front end (SRC 4): where the recorder takes a record, it is the newest one. -/
def TellsAlone (code : Nat) (x : EvArgs) (m n : Mod) : Prop :=
  recReady (isPrivileged code) x.src m = true → n.rcd.dirty = m.rcd.dirty ++ [recordOf (eventOf code x m) m]

/-- Agreed event `code` is told: it waits, behind those that wait already, for the next phase 16,000 (R445). -/
def TellsAgreed (code : Nat) (x : EvArgs) (m n : Mod) : Prop :=
  votes m = true → n.host.evWait = m.host.evWait ++ [eventOf code x m]

/-! ## Restart -/

/-- Every lane holds its switches open. -/
def AllOpened (m : Mod) : Prop := ∀ l, (m.ln.get l).opened = true

/-- What every restart leaves (R122, R126, R150, R414): the module is powered, in START, RECOVERY or HALT; every lane holds its switches
open; forces are gone; the host interface waits for its set-up; no station time has been taken; no update session runs; both images
are empty until step 5. -/
def Restarted (m : Mod) : Prop :=
  m.powered = true ∧ (m.md.mode = .start ∨ m.md.mode = .recovery ∨ m.md.mode = .halt) ∧ AllOpened m ∧ m.md.forces = [] ∧
    m.host.run = false ∧ m.host.valid = false ∧ m.tm.taken = false ∧ m.up.session = none ∧ m.cur = [] ∧ m.nxt = []

/-- What a host interface reset leaves (R414). -/
def HostCleared (m n : Mod) : Prop :=
  n.host.run = false ∧ n.host.valid = false ∧ (∀ i, (ringOf n i).en = false) ∧ n.host.acc = 0 ∧ n.host.cmp = 0 ∧
    n.host.evp = 0 ∧ n.host.evd = 0 ∧ n.host.evl = 0 ∧ n.host.fifo = [] ∧ n.host.route = m.host.route ∧
    (∀ i, (ringOf n i).basel = (ringOf m i).basel ∧ (ringOf n i).baseh = (ringOf m i).baseh ∧ (ringOf n i).log2n = (ringOf m i).log2n ∧
      (ringOf n i).target = (ringOf m i).target) ∧
    n.md = m.md ∧ (∀ l, (n.ln.get l).opened = (m.ln.get l).opened) ∧ n.cur = m.cur ∧ n.nxt = m.nxt ∧ n.cfg = m.cfg ∧ n.fio = m.fio

/-! ## START and time -/

/-- Station time of every lane. -/
def AllAt (t : Nat) (m : Mod) : Prop := ∀ l, (m.ln.get l).time = t

/-- Agreed event `code` is told at the moment of the next state. -/
def TellsThen (code arg1 : Nat) (m n : Mod) : Prop :=
  votes m = true → ∃ e, n.host.evWait = m.host.evWait ++ [e] ∧ e.code = code ∧ e.src = 0 ∧ e.arg1 = arg1

/-- The module differs in time, in the Pacer, and in what was told, at most; each lane differs in its clock, its correction and what
time itself counts. -/
def TimeOnly (m n : Mod) : Prop :=
  { n with clk := m.clk, freeN := m.freeN, tm := m.tm, ln := m.ln, host := m.host, rcd := m.rcd } = m ∧
    ∀ l, (n.ln.get l).alive = (m.ln.get l).alive ∧ (n.ln.get l).opened = (m.ln.get l).opened ∧ (n.ln.get l).vset = (m.ln.get l).vset


/-! ## Lanes -/

/-- The module differs in one lane, and in what was told, at most. -/
def OnlyLane (l : LaneId) (m n : Mod) : Prop :=
  (∀ x, x ≠ l → n.ln.get x = m.ln.get x) ∧ { n with ln := m.ln, host := m.host, rcd := m.rcd } = m

/-- The lane has stopped itself with this stop code: it runs no more and holds its switches open (R35, R84). -/
def LaneStops (l : LaneId) (cause : Nat) (n : Mod) : Prop :=
  (n.ln.get l).stopped = cause ∧ (n.ln.get l).opened = true ∧ (n.ln.get l).alive = false ∧ ∀ k, laneCloses n l k = false


/-! ## Frames between lanes -/

/-- The frame `f` of the copies counts at a receiver: the lanes are two and both run, the sender is in the receiver's own voting set, the
first copy that passes the link check is `f`, of this type and sender, and its content is of this station cycle (R17, R93, R100, R101). -/
def Counts (type : Nat) (rcv snd : LaneId) (c : XCopies) (f : XFrame) (m : Mod) : Prop :=
  rcv ≠ snd ∧ operating m = true ∧ (m.ln.get rcv).alive = true ∧ (m.ln.get rcv).vset.get snd = true ∧ (m.ln.get snd).supplied = true ∧
    xFrameOf c = some f ∧ f.type = type ∧ f.sender = laneNo snd ∧ f.scn = scn m

/-- The receiver's own round is still open: not past the closing phase, and not closed in this station cycle (R104). -/
def InTime (key close : Nat) (rcv : LaneId) (m : Mod) : Prop := phaseOf (m.ln.get rcv).time ≤ close ∧ firedNow key m = false

/-- What no frame changes: everything but the lanes' frames and counters, the lines, AGREE, the count of check-value mismatches and what was
told; no lane's switches, voting set or running change. -/
def FrameOnly (m n : Mod) : Prop :=
  { n with ln := m.ln, md := m.md, tm := m.tm, host := m.host, rcd := m.rcd, pc := m.pc } = m ∧ n.pc = { m.pc with mism := n.pc.mism } ∧
    n.md.mode = m.md.mode ∧
    ∀ x, (n.ln.get x).opened = (m.ln.get x).opened ∧ (n.ln.get x).alive = (m.ln.get x).alive ∧ (n.ln.get x).vset = (m.ln.get x).vset


/-! ## Shape (R246, R292, R378) -/

/-- Four field groups, four Stride segments, four CAN FD channels with their stored bit timings. -/
def FourOfEach (m : Mod) : Prop :=
  m.fio.groups.length = 4 ∧ m.str.segs.length = 4 ∧ m.can.chans.length = 4 ∧ m.nv.fe0.bts.length = 4 ∧ m.nv.fe0.dts.length = 4 ∧ m.nv.fe1.bts.length = 4 ∧ m.nv.fe1.dts.length = 4


/-! ## Submissions (R42, R423-R443) -/

/-- The module at the freeze that follows an entry's consumption: taken from its ring, copied, forwarded where it is LEAD's, and held by every
lane until phase 1,000 (R95, R426, R433, R440, R466). -/
def atFreeze (opc : Nat) (sub : Submission) (m : Mod) : Mod :=
  toFreeze (holdSub { sub with opc := opc } (takeIn { sub with opc := opc } m))

/-- The module once that freeze has accepted the entry, the only one that waits: what its opcode's own meaning starts from (R42, R95, R433). -/
def taken (opc : Nat) (sub : Submission) (m : Mod) : Mod :=
  accept { sub with opc := opc } (updHost (fun h => { h with waiting := [], critWait := [] }) (atFreeze opc sub m))

/-- The module once an entry of a front-end ring is consumed, which accepts it at once (R398, R433). -/
def takenAtOnce (opc : Nat) (sub : Submission) (m : Mod) : Mod :=
  accept { sub with opc := opc } (takeIn { sub with opc := opc } m)

/-- What taking one entry of ring `q` does: the ring's counts and head word advance, the submission is in work and in order, HIFLACC counts it
while the Ledger runs; besides that time, the entry on its way to SHADOW, the lanes' lists and what a full mirror ring tells differ. -/
def TakesOne (q : Fin 32) (opc : Nat) (sub : Submission) (m n : Mod) : Prop :=
  n.host.open_ = m.host.open_ ++ [acceptedOf sub opc] ∧ n.host.order = m.host.order ++ [acceptedOf sub opc] ∧
    n.host.cplWait = m.host.cplWait ∧ n.host.waiting = m.host.waiting ∧ n.host.critWait = m.host.critWait ∧
    n.host.cmp = m.host.cmp ∧ n.host.acc = (if ledgerUp m then m.host.acc + 1 else m.host.acc) ∧
    (ringOf n q.val).count = (ringOf m q.val).count + 1 ∧ (ringOf n q.val).aux = (ringOf m q.val).aux + 1 ∧
    tabGet 0 n.host.head q.val = (ringOf m q.val).count + 1 ∧
    n.pc = { m.pc with consumed := m.pc.consumed + 1 } ∧ n.pr = { m.pr with subOut := n.pr.subOut } ∧
    (∀ l, (n.ln.get l).alive = (m.ln.get l).alive ∧ (n.ln.get l).opened = (m.ln.get l).opened ∧ (n.ln.get l).nv = (m.ln.get l).nv) ∧
    { n with clk := m.clk, freeN := m.freeN, ln := m.ln, host := m.host, rcd := m.rcd, pc := m.pc, pr := m.pr } = m ∧
    (sub.crit = false → n.rcd = m.rcd ∧ n.host.evWait = m.host.evWait ∧ n.host.fifo = m.host.fifo)

/-- An entry of opcode `opc` may be taken from ring `q`, which is no front-end ring, while no other waits; at the freeze the partner, where there
is one, has acknowledged it, and a critical one is not deferred (R95, R145, R426, R466). -/
def Enters (q : Fin 32) (opc : Nat) (crit : Bool) (sub : Submission) (m : Mod) : Prop :=
  sub.src = .ring q ∧ sub.crit = crit ∧ mayTake m { sub with opc := opc } = true ∧ (ringOf m q.val).cls = false ∧ m.host.waiting = [] ∧
    m.host.critWait = [] ∧ pairAgrees (atFreeze opc sub m) { sub with opc := opc } = true ∧
    (crit = true → critDeferred (atFreeze opc sub m) = false)

/-- It enters, the mode admits it, and it is critical exactly where R440 has it so. -/
def Admits (q : Fin 32) (opc : Nat) (crit : Bool) (sub : Submission) (m : Mod) : Prop :=
  Enters q opc crit sub m ∧ needsCrit (taken opc sub m) { sub with opc := opc } = crit ∧
    modeBars (taken opc sub m) { sub with opc := opc } = false

/-- The critical submission confirms the step 1 that its terminal has sent (R441-R443). -/
def Confirms (opc : Nat) (sub : Submission) (m : Mod) : Prop :=
  let d := telData sub.blob
  let k := checkTerminal sub.blob (taken opc sub m)
  readLE sub.oper 8 2 = 88 ∧ (∀ i, i < 30 → byteAt sub.oper (10 + i) = 0) ∧ sub.blob.length = 88 ∧ byteAt d 0 = opc ∧
    readBE d 4 4 = sub.tag.toNat ∧ byteAt d 1 = 2 ∧ k.1.step = 0 ∧
    confirmFault k.2 (tabFind k.2.host.crit ((k.1.conn.map (fun c => cidNum c.cid)).getD noArg)) d k.1.full = 0

/-- OPER of the command that the terminal has sealed. -/
def sealedOper (opc : Nat) (sub : Submission) : List Byte := (sealedSub { sub with opc := opc } (telData sub.blob)).oper

/-- The submission's completion waits, behind those that wait already, for the next phase 16,000 (R435). -/
def Completes (opc code detail : Nat) (sub : Submission) (m n : Mod) : Prop :=
  n.host.cplWait = m.host.cplWait ++ [(sub.src, cplOf opc sub.tag code detail)]


/-! ## JIC (R160-R191, R606-R609) -/

/-- A heat of task `t` with declaration `d` runs and has an instruction left, in its heat and in its slice (R172, R179). -/
def InHeat (t : Nat) (d : TaskDesc) (m : Mod) : Prop :=
  m.lg.running = some t ∧ taskDesc m t = some d ∧ (tcbOf m t).instrs < d.maxInstr ∧ (d.kind ≠ .slow ∨ 2 ≤ (tcbOf m t).sliceLeft)

/-- Where the instruction stands at the heat's address, its command completes with `P`: the CODE section holds it there, or holds no word
there at all (log entry 31). -/
def DoesAt (t : Nat) (i : Instr) (s : State) (P : Mod → Prop) : Prop :=
  codeGives s.m.lg.app (tcbOf s.m t).pc i = true → Does i s P

/-- A register of task `t`. -/
def regAt (m : Mod) (t : Nat) (r : Rg) : Reg := (tcbOf m t).regs[r.toNat]'r.isLt

/-- A register of task `t` holds the number `v` of type `ty`. -/
def Holds (m : Mod) (t : Nat) (r : Rg) (ty : Ty) (v : Int) : Prop := (regAt m t r).ty = ty ∧ ty ≠ .none ∧ regInt (regAt m t r) = v

/-- A register of task `t` holds a reference R162 admits, of one of the kinds, to the object of this kind and index. -/
def Refers (m : Mod) (t : Nat) (r : Rg) (kind idx : Nat) : Prop :=
  ∃ v : Nat, Holds m t r .obj v ∧ v ≠ nullRef ∧ refOk m.lg.app v = true ∧ fieldOf v 28 4 = kind ∧ fieldOf v 0 16 = idx

/-- What an instruction leaves alone: all but the logic part and the counts of the lanes' performance counters; of the tasks, all but
`t`. -/
def LogicOnly (t : Nat) (m n : Mod) : Prop :=
  { n with lg := m.lg, ln := m.ln } = m ∧ n.lg = { m.lg with tcbs := n.lg.tcbs, insts := n.lg.insts } ∧ (∀ j, j ≠ t → tcbOf n j = tcbOf m j) ∧
    ∀ l, (n.ln.get l).alive = (m.ln.get l).alive ∧ (n.ln.get l).opened = (m.ln.get l).opened ∧ (n.ln.get l).nv = (m.ln.get l).nv

/-- The task's control block after one instruction that continues at word `pc`: its registers aside, it is as before. -/
def Steps (t pc : Nat) (m n : Mod) : Prop :=
  tcbOf n t = { tcbOf m t with pc := pc, instrs := (tcbOf m t).instrs + 1, sliceLeft := (tcbOf m t).sliceLeft - 1, regs := (tcbOf n t).regs }

/-- An instruction that writes no register and continues at `pc`. -/
def Continues (t pc : Nat) (m n : Mod) : Prop :=
  LogicOnly t m n ∧ n.lg.insts = m.lg.insts ∧ Steps t pc m n ∧ ∀ r, regAt n t r = regAt m t r

/-- An instruction of `words` words whose one effect is the result `x` in register `d`. -/
def Results (t words : Nat) (d : Rg) (x : Reg) (m n : Mod) : Prop :=
  LogicOnly t m n ∧ n.lg.insts = m.lg.insts ∧ Steps t ((tcbOf m t).pc + words) m n ∧ regAt n t d = x ∧ ∀ r, r ≠ d → regAt n t r = regAt m t r

/-- An instruction that stores `bytes` at `addr` in the next image. -/
def StoresAt (t addr : Nat) (bytes : List Byte) (m n : Mod) : Prop :=
  { n with lg := m.lg, ln := m.ln, nxt := m.nxt } = m ∧ SameImagesBut [(addr, bytes.length)] m n ∧
    (∀ i, i < bytes.length → memGet n.nxt (addr + i) = bytes.getD i 0) ∧ Steps t ((tcbOf m t).pc + 2) m n ∧
    (∀ r, regAt n t r = regAt m t r) ∧ (∀ j, j ≠ t → tcbOf n j = tcbOf m j) ∧ n.lg.insts = m.lg.insts

/-- An instruction that gives instance `k` the state `x`, and writes no register but `d`. -/
def Evaluates (t k : Nat) (x : InstState) (d : Rg) (m n : Mod) : Prop :=
  LogicOnly t m n ∧ tabGet InstState.idle n.lg.insts k = x ∧ (∀ j, j ≠ k → tabGet InstState.idle n.lg.insts j = tabGet InstState.idle m.lg.insts j) ∧
    Steps t ((tcbOf m t).pc + 2) m n ∧ ∀ r, r ≠ d → regAt n t r = regAt m t r

/-- The task is parked with a fault code, and the heat it interrupted runs on (R172, R173, R178). -/
def Parks (t code : Nat) (m n : Mod) : Prop :=
  (tcbOf n t).parked = true ∧ (tcbOf n t).active = false ∧ n.lg.fault = code ∧ n.lg.ftask = t ∧ n.lg.running = m.lg.stack.head? ∧
    (∀ j, j ≠ t → tcbOf n j = tcbOf m j) ∧ n.md = m.md ∧ n.cur = m.cur ∧ n.fio = m.fio

end Sys2Proof.Machine
end

