-- ==== Sys2Proof/Certificates/Slice0/Obligations.lean ====
section
/-! DEFINITION. The statements for the provers: what each command does, what it leaves alone, and what every step keeps. -/

open Sys2Proof Sys2Proof.Machine

/-! ## Power path (R582, R583, R597) -/

/-- PACE_SLOWED, PACE_NORMAL (R583): the lanes' clock steps and their counters of the change, the reading, the event. LOGIC_FEED_ABSENT,
LOGIC_FEED_RESTORED, FEED_OVERVOLTAGE_DISCONNECT, FEED_OVERVOLTAGE_RECONNECT (R582): the reading is kept, the flag follows, the event is told
once. Nothing else changes.
Readings: log entry 21. -/
def Obligations.PowerPath : Prop :=
  (∀ (s : State) (vin : Nat), s.m.powered = true →
      (vin < 20000 → s.m.pw.pace = 0 → Does (.paceSlowed vin) s (fun m =>
        m.pw = { s.m.pw with pace := 1, vin := vin } ∧
        (∀ l, { m.ln.get l with pcs := (s.m.ln.get l).pcs } = { s.m.ln.get l with step := max (s.m.ln.get l).nv.plan 3 }) ∧
        { m with pw := s.m.pw, ln := s.m.ln, host := s.m.host, rcd := s.m.rcd } = s.m ∧ TellsAlone 0x30 { src := 4 } s.m m)) ∧
      (21000 ≤ vin → s.m.pw.pace = 1 → Does (.paceNormal vin) s (fun m =>
        m.pw = { s.m.pw with pace := 0, vin := vin } ∧
        (∀ l, { m.ln.get l with pcs := (s.m.ln.get l).pcs } = { s.m.ln.get l with step := (s.m.ln.get l).nv.plan }) ∧
        { m with pw := s.m.pw, ln := s.m.ln, host := s.m.host, rcd := s.m.rcd } = s.m ∧ TellsAlone 0x31 { src := 4 } s.m m))) ∧
  (∀ (s : State) (f : Feed) (mv : Nat), s.m.powered = true →
      (mv < 16000 → Does (.logicFeedAbsent f mv) s (fun m =>
        feedPresent m f = false ∧ feedMv m f = mv ∧ m.pw.vin = max m.pw.feed1 m.pw.feed2 ∧ PowerOnly s.m m ∧
        (feedPresent s.m f = true → TellsAlone 0x32 { src := 4, arg0 := feedNo f } s.m m) ∧
        (feedPresent s.m f = false → m.rcd = s.m.rcd ∧ m.host = s.m.host))) ∧
      (18000 ≤ mv → Does (.logicFeedRestored f mv) s (fun m =>
        feedPresent m f = true ∧ feedMv m f = mv ∧ m.pw.vin = max m.pw.feed1 m.pw.feed2 ∧ PowerOnly s.m m ∧
        (feedPresent s.m f = false → TellsAlone 0x33 { src := 4, arg0 := feedNo f } s.m m) ∧
        (feedPresent s.m f = true → m.rcd = s.m.rcd ∧ m.host = s.m.host))) ∧
      (36000 < mv → Does (.feedOvervoltageDisconnect f mv) s (fun m =>
        feedOv m f = true ∧ feedMv m f = mv ∧ PowerOnly s.m m ∧
        (feedOv s.m f = false → TellsAlone 0x34 { src := 4, arg0 := feedNo f } s.m m))) ∧
      (mv ≤ 30000 → Does (.feedOvervoltageReconnect f mv) s (fun m =>
        feedOv m f = false ∧ feedMv m f = mv ∧ PowerOnly s.m m ∧ m.rcd = s.m.rcd ∧ m.host = s.m.host)))

/-! ## Loss of supply, and restart (R35, R37, R46, R122, R126, R127, R583, R595) -/

/-- LOGIC_INPUT_BELOW_16V (R24, R583, R512), LANE_SUPPLY_LOST (R37), HOLD_UP_STORE_EXHAUSTED (R46): the safe state, what it records,
and what survives.
Readings: log entry 3. -/
def Obligations.LossOfSupply : Prop :=
  ∀ (s : State) (vin : Nat) (l : LaneId), s.m.powered = true →
    (vin < 16000 → operating s.m = true → Does (.logicInputBelow16v vin) s (fun m =>
      m.md.mode = .halt ∧ m.md.hcause = 5 ∧ m.md.forces = [] ∧ AllOpened m ∧ AllOff m ∧ m.pw = { s.m.pw with pace := 2, vin := vin } ∧
      m.rcd.stopped = true ∧ SameImages s.m m ∧ m.clk = s.m.clk)) ∧
    Does (.laneSupplyLost l) s (fun m =>
      (m.ln.get l).supplied = false ∧ (m.ln.get l).opened = true ∧ (∀ x, x ≠ l → m.ln.get x = s.m.ln.get x) ∧
      (∀ k, laneCloses m l k = false) ∧ { m with ln := s.m.ln } = s.m) ∧
    (s.m.pw.f1 = false → s.m.pw.f2 = false → Does .holdUpStoreExhausted s (fun m =>
      m.powered = false ∧ m.nv = s.m.nv ∧ (∀ x, (m.ln.get x).nv = (s.m.ln.get x).nv) ∧ m.rcd.dirty = [] ∧ m.cur = [] ∧ m.nxt = [] ∧
      AllOpened m ∧ m.clk = s.m.clk))

/-- POWER_UP, SUPPLY_VALID_RESTART, RESET_KEY, RESET_REQUEST in HALT, RECOVERY and START, AUTOMATIC_RESTART, UPDATE_RESTART: each
restarts the module where its conditions hold (R122, R126, R127, R414, R537, R583, R595).
Readings: log entries 8, 14. -/
def Obligations.RestartsBeginAnew : Prop :=
  ∀ (s : State) (env : StartEnv) (held : Nat),
    (s.m.powered = false → Does (.powerUp env) s Restarted) ∧
    (s.m.powered = true →
      (s.m.md.mode = .halt → s.m.md.hcause = 5 → Does (.supplyValidRestart env) s Restarted) ∧
      (3000 ≤ held → Does (.resetKey held env) s Restarted) ∧
      (s.m.md.mode = .halt ∨ s.m.md.mode = .recovery ∨ s.m.md.mode = .start →
        Does (.resetRequest 0xA55A#32 env) s Restarted) ∧
      (s.m.md.mode = .halt → s.m.md.hcause ∈ [1, 3, 9, 10] → arMax s.m ≠ 0 →
        arCount (passClk (s.m.md.haltAt + 200000000) s.m) < arMax s.m → Does (.automaticRestart env) s Restarted) ∧
      (∀ a, s.m.up.act = some a → a.online = false → a.prepared = true → Does (.updateRestart env) s Restarted))

/-- RESET_REQUEST outside HALT, RECOVERY and START, and PCIE_RESET in every mode, act as a host interface reset (R410, R414): RUN and
the ring enables clear, memory is invalid, every Ledger count is zero; the mode, the lanes' switches and both images stay.
Readings: log entries 10, 35. -/
def Obligations.HostInterfaceReset : Prop :=
  ∀ (s : State) (env : StartEnv), s.m.powered = true →
    Does .pcieReset s (HostCleared s.m) ∧
    (serving s.m = true → Does (.resetRequest 0xA55A#32 env) s (HostCleared s.m)) ∧
    (∀ val, val ≠ 0xA55A#32 → Does (.resetRequest val env) s (fun m => m = s.m))

/-! ## START and the front end (R21, R57, R58, R122, R124, R128, R141, R327, R460, R473) -/

/-- SOURCE_TAKEN: a source that is valid and the first such in PCRSRC order, with R53 and R54 applied, later than the floor sets station time in every lane in one
step, each lane starting with the frequency correction it stored, and START goes on to step 6; one at or below the floor is absent for the
rest of the run; one that is not valid, or not the first valid one, is not taken (R57, R59, R68, R128).
Readings: log entries 14, 15. -/
def Obligations.SourceTaken : Prop :=
  ∀ (s : State) (src : Src) (time : Nat) (meas : SrcMeas), s.m.powered = true → acquiring s.m = true →
    ((srcOf s.m src).valid = true → firstSource s.m src = true → (∀ f, s.m.tm.floor = some f → f < time) → Does (.sourceTaken src time meas) s (fun m =>
      m.tm.taken = true ∧ m.tm.use = .following src ∧ AllAt time m ∧ m.md.step = 6 ∧ m.md.mode = .start ∧ m.clk = s.m.clk ∧
      (∀ l, (m.ln.get l).freq = freqOf (s.m.ln.get l).nv.drift ∧ (m.ln.get l).corr = 0) ∧ m.nv = s.m.nv ∧ m.cfg = s.m.cfg)) ∧
    (∀ f, (srcOf s.m src).valid = true → firstSource s.m src = true → s.m.tm.floor = some f → time ≤ f → Does (.sourceTaken src time meas) s (fun m =>
      m.tm.taken = false ∧ (srcOf m src).absent = true ∧ (srcOf m src).valid = false ∧ (srcOf m src).refused = (srcOf s.m src).refused ∧ m.md = s.m.md ∧ m.ln = s.m.ln ∧
      SameImages s.m m ∧ TellsAgreed 0x45 { arg1 := srcCode src } s.m m)) ∧
    ((srcOf s.m src).valid = false ∨ firstSource s.m src = false → Does (.sourceTaken src time meas) s (fun m => m = s.m))

/-- ACQUISITION_TIMEOUT: with OWNOK and a floor the own timeline of a module that does not join as SHADOW starts at the floor plus 10 s,
rounded up to a station cycle boundary; else START keeps waiting (R58, R59). PAIR_DISCOVERY_TIMEOUT: with no partner heard, both cross wires open and PRLONE set, the module runs
as single; with a cross wire closed it keeps searching (R460).
Readings: log entries 3, 14. -/
def Obligations.StartTimeouts : Prop :=
  ∀ (s : State), s.m.powered = true →
    (∀ f, acquiring s.m = true → ownOk s.m = true → s.m.pr.role ≠ 2 → s.m.tm.floor = some f → Does .acquisitionTimeout s (fun m =>
      m.tm.taken = true ∧ m.tm.use = .own ∧ AllAt (ownStart f) m ∧ m.md.step = 6 ∧ m.md.mode = .start)) ∧
    (acquiring s.m = true → ownOk s.m = false ∨ s.m.pr.role = 2 ∨ s.m.tm.floor = none → Does .acquisitionTimeout s (fun m =>
      m.tm.taken = false ∧ m.md.step = 4 ∧ m.md.mode = .start ∧ m.tm.alarmed = true ∧
      m.clk = max s.m.clk (s.m.md.step4At + acqTo s.m * 1000000000) ∧ SameImages s.m m)) ∧
    (s.m.pr.role = 3 → s.m.md.mode = .start → s.m.pr.found = false → swi s.m 6 = 0 → swi s.m 7 = 0 → prLone s.m = true →
      Does .pairDiscoveryTimeout s (fun m => m.pr = { s.m.pr with role := 0 } ∧ m.md = s.m.md ∧ m.up.session = none ∧ m.up.act = none ∧
        { m.nv with banks := s.m.nv.banks } = s.m.nv ∧ (s.m.up.act = none → m.nv = s.m.nv) ∧ SameImages s.m m)) ∧
    (s.m.pr.role = 3 → s.m.md.mode = .start → s.m.pr.found = false → swi s.m 6 = 1 ∨ swi s.m 7 = 1 →
      Does .pairDiscoveryTimeout s (fun m => m.pr.role = 3 ∧ m.md = s.m.md ∧ SameImages s.m m))

/-- START_COMPLETE of a module whose warm-up tests have passed, whose contactors all show dropped and which starts no trial: it takes its
target mode, and the start is told (R122, R128); one whose tests have not passed waits WUWAIT seconds from the start of step 8 (R140). WARM_UP_OVERDUE notes every switch that has not passed (R141).
Readings: log entries 3, 14. -/
def Obligations.EndOfStart : Prop :=
  ∀ (s : State), s.m.powered = true →
    (s.m.md.mode = .start → s.m.tm.taken = true → s.m.pr.role ≠ 3 → staffPassed s.m = true → s.m.md.trialBits = 0 →
      (∀ j, j < 8 → s.m.fio.image.getD (80 + 2 * j) 3 ≠ 0 ∧ s.m.fio.image.getD (81 + 2 * j) 3 ≠ 0) →
      Does .startComplete s (fun m =>
        m.md.mode = startTarget s.m ∧ m.md.step = 0 ∧ m.md.doneAt = some s.m.clk ∧ m.md.serveAt = now s.m ∧ m.clk = s.m.clk ∧
        (∀ l, (m.ln.get l).proofAt = s.m.clk ∧ ((s.m.ln.get l).alive = true → (m.ln.get l).opened = false)) ∧ SameImages s.m m)) ∧
    (∀ t, s.m.md.mode = .start → s.m.tm.taken = true → s.m.pr.role ≠ 3 → staffPassed s.m = false → s.m.md.trialBits = 0 →
      s.m.md.step = 8 → s.m.md.step8At = some t → Does .startComplete s (fun m =>
        m.md.mode = startTarget s.m ∧ m.md.step = 0 ∧ m.clk = max s.m.clk (t + fieldOf s.m.cfg.modcfg.toNat 16 8 * 1000000000) ∧
        m.md.doneAt = some m.clk ∧ SameImages s.m m)) ∧
    (∀ t n, s.m.md.doneAt = some t → serving s.m = true → n ∈ s.m.lg.app.staff → n ∉ s.m.md.wuPass →
      Does .warmUpOverdue s (fun m => n ∈ m.md.wuOver ∧ m.md.mode = s.m.md.mode ∧ m.md.wuPass = s.m.md.wuPass ∧ SameImages s.m m))

/-- MODE_TRANSITION_EFFECT takes the accepted mode at phase 0 (R122-R124); STRIDE_STOP_ON_HALT ends all transmission (R36, R327);
FRONT_END_LIVENESS_EXCHANGE counts misses, and FRONT_END_LOST drops the lane's remote stations after four (R21, R473).
Readings: log entry 3. -/
def Obligations.ModesAndFrontEnd : Prop :=
  ∀ (s : State) (l : LaneId), s.m.powered = true →
    (∀ t, serving s.m = true → s.m.md.pendMode = some t → runs t = false → s.m.pr.chgDue = false → s.m.md.mode ≠ .shadow → t ≠ s.m.md.mode →
      Does .modeTransitionEffect s (fun m => m.md.mode = t ∧ m.md.pendMode = none ∧ m.nv = s.m.nv ∧ m.cfg = s.m.cfg ∧ SameImages s.m m)) ∧
    (operating s.m = false → Does .strideStopOnHalt s (fun m =>
      (∀ g ∈ m.str.segs, g.stopped = true) ∧ m.bt.outTel = [] ∧ m.bt.outPrev = [] ∧ m.md.mode = s.m.md.mode ∧ SameImages s.m m)) ∧
    ((s.m.ln.get l).alive = true → (s.m.ln.get l).feLost = false →
      Does (.frontEndLivenessExchange l true) s (fun m => (m.ln.get l).feMiss = 0 ∧ (∀ x, x ≠ l → m.ln.get x = s.m.ln.get x) ∧
        { m with ln := s.m.ln } = s.m) ∧
      Does (.frontEndLivenessExchange l false) s (fun m => (m.ln.get l).feMiss = min 4 ((s.m.ln.get l).feMiss + 1) ∧
        (∀ x, x ≠ l → m.ln.get x = s.m.ln.get x) ∧ { m with ln := s.m.ln } = s.m)) ∧
    (operating s.m = true → (s.m.ln.get l).alive = true → (s.m.ln.get l).feLost = false → 4 ≤ (s.m.ln.get l).feMiss → s.m.pr.role ≠ 1 →
      Does (.frontEndLost l) s (fun m => (m.ln.get l).feLost = true ∧ (m.ln.get l).nv.feLossSeen = true ∧
        (∀ x, x ≠ l → m.ln.get x = s.m.ln.get x) ∧ { m with ln := s.m.ln } = s.m))

/-! ## Station time (R51, R55, R57, R60, R61, R64, R68, R69, R74) -/

/-- PCRSCNL_READ returns SCN[31:0] and latches SCN[63:32] (R74). PTP_MESSAGE: an Announce of a first grandmaster of the transport
and domain set is kept; a message of another transport or domain has no effect; a Sync at a rate outside −4 to 0 has none; the path delay
follows the mechanism set, request–response or peer (R51, R52, R77).
Readings: log entries 16, 22. -/
def Obligations.ScnReadAndPtp : Prop :=
  ∀ (s : State), s.m.powered = true →
    Does .pcrscnlRead s (fun m =>
      m.host = { s.m.host with readData := BitVec.ofNat 32 (scn s.m) } ∧ m.tm = { s.m.tm with scnh := BitVec.ofNat 32 (scn s.m / 2 ^ 32) } ∧
      { m with host := s.m.host, tm := s.m.tm } = s.m) ∧
    (∀ h gm, s.m.tm.ptp.absent = false → s.m.tm.ptpPort.gm = none → ptpMine s.m h = true → -3 ≤ h.logInterval → h.logInterval ≤ 2 →
      Does (.ptpMessage (.announce h gm)) s (fun m =>
        m.tm.ptpPort.gm = some gm ∧ m.tm.ptpPort.logAnnounce = h.logInterval ∧ m.tm.ptpPort.annAt = some s.m.clk ∧
        m.tm.ptp.traceable = gm.traceable ∧ m.tm.ptp.valid = false ∧ m.clk = s.m.clk ∧ TimeOnly s.m m)) ∧
    (∀ h gm o r, ptpMine s.m h = false → Does (.ptpMessage (.announce h gm)) s (fun m => m = s.m) ∧ Does (.ptpMessage (.sync h o r)) s (fun m => m = s.m)) ∧
    (∀ h o r, syncRate h = false → Does (.ptpMessage (.sync h o r)) s (fun m => m = s.m)) ∧
    (∀ h o r, s.m.tm.ptp.absent = false → ptpMine s.m h = true → syncRate h = true → Does (.ptpMessage (.sync h (some o) r)) s (fun m =>
        m.tm.ptpPort.window = ((s.m.tm.ptpPort.delay - (r - o)) :: s.m.tm.ptpPort.window).take 16 ∧ TimeOnly s.m m)) ∧
    (∀ h t1 t2 t3 t4, s.m.tm.ptp.absent = false → ptpMine s.m h = true →
      (ptpPeerDelay s.m = true → Does (.ptpMessage (.pdelayResp h t1 t2 t3 t4)) s (fun m =>
        m = updPort (fun p => { p with delay := ((t4 - t1) - (t3 - t2)) / 2 }) s.m)) ∧
      (∀ x, ptpPeerDelay s.m = false → s.m.tm.ptpPort.msDiff = some x → Does (.ptpMessage (.delayResp h t1 t2)) s (fun m =>
        m = updPort (fun p => { p with delay := (x + (t2 - t1)) / 2 }) s.m)))

/-- PTP_ANNOUNCE_TIMEOUT, GUN_SOURCE_TIMEOUT, PARTNER_TIME_TIMEOUT: the silent source becomes invalid when its limit has passed, and it
is no longer followed (R51, R63).
Readings: log entry 3. -/
def Obligations.SilentSources : Prop :=
  ∀ (s : State) (t : Nat), s.m.powered = true →
    (s.m.tm.ptpPort.annAt = some t → Does .ptpAnnounceTimeout s (fun m =>
      m.tm.ptp.valid = false ∧ m.tm.ptpPort.annAt = none ∧ m.tm.ptpPort.gm = none ∧ m.tm.ptpPort.window = [] ∧ m.tm.use ≠ .following .ptp ∧
      m.clk = max s.m.clk (t + announceLimit s.m.tm.ptpPort.logAnnounce) ∧ TimeOnly s.m m)) ∧
    (s.m.tm.gun.heardAt = some t → Does .gunSourceTimeout s (fun m =>
      m.tm.gun.valid = false ∧ m.tm.gun.heardAt = none ∧ m.tm.use ≠ .following .gun ∧ m.clk = max s.m.clk (t + 10000000) ∧
      TimeOnly s.m m)) ∧
    (s.m.tm.partner.heardAt = some t → Does .partnerTimeTimeout s (fun m =>
      m.tm.partner.valid = false ∧ m.tm.partner.heardAt = none ∧ m.tm.use ≠ .following .partner ∧ m.clk = max s.m.clk (t + 20000000) ∧
      TimeOnly s.m m))

/-- SERVO_CORRECTION uses up the offsets once a second, corrects from the source in use, and refuses a source beyond 1 ms; while it is refused,
an offset beyond 1 ms begins its 10 s anew (R60, R61).
SOURCE_ELIGIBLE_10S ends holdover, REFUSED_SOURCE_CLEARED lifts the refusal, each 10 s after its condition began (R55, R61, R65).
Readings: log entry 3. -/
def Obligations.ServoAndSources : Prop :=
  ∀ (s : State) (src : Src) (t : Nat) (d : Int), s.m.powered = true →
    (s.m.tm.taken = true → Does .servoCorrection s (fun m =>
      m.clk = max s.m.clk (s.m.tm.servoAt + 1000000000) ∧ m.tm.servoAt = m.clk ∧
      m.tm.ptp.offs = [] ∧ m.tm.partner.offs = [] ∧ m.tm.gun.offs = [] ∧ TimeOnly s.m m)) ∧
    (s.m.tm.taken = true → s.m.tm.use = .following .ptp → s.m.tm.ref = none → s.m.tm.partner.offs = [] → s.m.tm.gun.offs = [] →
      s.m.tm.ptp.valid = true → s.m.tm.ptp.refused = false → median s.m.tm.ptp.offs = some d → -1000000 ≤ d → d ≤ 1000000 →
      Does .servoCorrection s (fun m => (m.ln.get (refLane m)).corr = d ∧ m.tm.use = .following .ptp)) ∧
    (s.m.tm.taken = true → s.m.tm.partner.offs = [] → s.m.tm.gun.offs = [] → s.m.tm.ptp.valid = true → s.m.tm.ptp.refused = false →
      median s.m.tm.ptp.offs = some d → 1000000 < d ∨ d < -1000000 → Does .servoCorrection s (fun m =>
        m.tm.ptp.refused = true ∧ m.tm.use ≠ .following .ptp ∧ m.tm.refusedN = satN 255 (s.m.tm.refusedN + 1))) ∧
    (s.m.tm.taken = true → s.m.tm.partner.offs = [] → s.m.tm.gun.offs = [] → s.m.tm.ptp.refused = true →
      median s.m.tm.ptp.offs = some d → 1000000 < d ∨ d < -1000000 → Does .servoCorrection s (fun m =>
        m.tm.ptp.refused = true ∧ m.tm.ptp.clearAt = none ∧ m.tm.use = s.m.tm.use ∧ m.tm.refusedN = s.m.tm.refusedN)) ∧
    ((srcOf s.m src).eligAt = some t → eligible s.m src = true → s.m.tm.taken = true → inHold s.m = true →
      Does (.sourceEligible10s src) s (fun m =>
        m.tm.use = .following src ∧ m.tm.ref = none ∧ m.clk = max s.m.clk (t + 10000000000) ∧ TimeOnly s.m m ∧
        TellsThen 0x42 (srcCode src) s.m m)) ∧
    ((srcOf s.m src).refused = true → (srcOf s.m src).clearAt = some t → (srcOf s.m src).absent = false →
      Does (.refusedSourceCleared src) s (fun m =>
        (srcOf m src).refused = false ∧ (srcOf m src).clearAt = none ∧ m.clk = max s.m.clk (t + 10000000000) ∧ TimeOnly s.m m))

/-- HOLDOVER_ALARM is told once in a holdover (R64). OSCILLATOR_DRIFT_WINDOW: while a source is followed each running lane learns its
drift and corrects its frequency by it, within 50 ppm; beyond 10 ppm DRIFTLIM is set, beyond 25 ppm the photo finish is to exclude the lane (R60, R68, R69); otherwise nothing happens.
Readings: log entry 3. -/
def Obligations.HoldoverAndDrift : Prop :=
  ∀ (s : State) (ppb : PerLane Int) (adev : PerLane Nat) (src : Src) (l : LaneId), s.m.powered = true →
    (inHold s.m = true → s.m.tm.alarmed = false → Does .holdoverAlarm s (fun m =>
      m.tm = { s.m.tm with alarmed := true } ∧ TimeOnly s.m m ∧ TellsThen 0x44 0 s.m m)) ∧
    (s.m.tm.use = .following src → (s.m.ln.get l).alive = true → Does (.oscillatorDriftWindow ppb adev) s (fun m =>
      (m.ln.get l).nv.drift = ppb.get l ∧ (m.ln.get l).nv.allan = adev.get l ∧ (m.ln.get l).freq = freqOf (ppb.get l) ∧
      (m.ln.get l).driftLim = decide (10000 < (ppb.get l).natAbs) ∧
      (25000 < (ppb.get l).natAbs → (m.ln.get l).exclCause = 13) ∧ ((ppb.get l).natAbs ≤ 25000 → (m.ln.get l).exclCause = (s.m.ln.get l).exclCause) ∧
      { m with ln := s.m.ln, host := s.m.host, rcd := s.m.rcd } = s.m)) ∧
    (inHold s.m = true → Does (.oscillatorDriftWindow ppb adev) s (fun m => m = s.m))

/-! ## Inside a lane (R83, R84, R86-R89, R100, R142-R144, R590) -/

/-- COMPARATOR_MISMATCH (R83, R87), SRAM_SCRUB (R86), COMPARATOR_PROOF_OVERDUE (R89), TEST_ROUTING_CLOSE (R88), HURDLE_ITEM_OVERDUE
(R143) of a running lane: the lane stops itself and opens its switches, or the finding is corrected, counted or told; no other lane
and nothing else changes.
Readings: log entry 3. -/
def Obligations.LaneSelfTests : Prop :=
  ∀ (s : State) (l : LaneId) (rails : BitVec 2) (n : Nat) (item : Fin 8), s.m.powered = true → (s.m.ln.get l).alive = true →
    (rails ≠ 1 → (s.m.ln.get l).testRoute = false → Does (.comparatorMismatch l rails) s (fun m => LaneStops l 1 m ∧ OnlyLane l s.m m)) ∧
    (rails ≠ 1 → (s.m.ln.get l).testRoute = true → Does (.comparatorMismatch l rails) s (fun m =>
      m.ln.get l = { s.m.ln.get l with testLatch := true } ∧ OnlyLane l s.m m)) ∧
    (rails = 1 → Does (.comparatorMismatch l rails) s (fun m => m = s.m)) ∧
    Does (.sramScrub l [.single n]) s (fun m =>
      m.ln.get l = pcCount s.m.pc.cfg 0x0C 1 1 (s.m.ln.get l) ∧ (m.ln.get l).alive = true ∧ OnlyLane l s.m m) ∧
    Does (.sramScrub l [.doubleAllocated n]) s (fun m => LaneStops l 14 m ∧ OnlyLane l s.m m) ∧
    Does (.sramScrub l [.doubleUnallocated n]) s (fun m => ToldOnly s.m m ∧ TellsAlone 0x29 { src := laneSrc l, arg0 := laneNo l } s.m m) ∧
    (serving s.m = true → Does (.comparatorProofOverdue l) s (fun m =>
      LaneStops l 2 m ∧ OnlyLane l (passClk ((s.m.ln.get l).proofAt + 1000000001) s.m) m)) ∧
    Does (.testRoutingClose l true) s (fun m => LaneStops l 2 m ∧ OnlyLane l s.m m) ∧
    Does (.testRoutingClose l false) s (fun m =>
      m.ln.get l = { s.m.ln.get l with testRoute := false, testLatch := false } ∧ OnlyLane l s.m m) ∧
    (serving s.m = true → Does (.hurdleItemOverdue l item) s (fun m =>
      LaneStops l 3 m ∧ OnlyLane l (passClk ((s.m.ln.get l).itemAt.getD item.val 0 + 10000000001) s.m) m ∧
      TellsAlone 0x0B { src := laneSrc l, arg0 := laneNo l, arg1 := item.val } (passClk ((s.m.ln.get l).itemAt.getD item.val 0 + 10000000001) s.m) m))

/-- HURDLE of the lane whose turn it is at phase 16,100, first in the station cycle after START completes: with every kind of injection made
and caught and the item passed, proof and item are timed anew and the rotation moves on; an injection not caught stops the lane, and so
does a failed item (R87, R89, R142, R143). An abandoned hurdle runs nothing (R144).
Readings: log entries 3, 37. -/
def Obligations.HurdleOfALane : Prop :=
  ∀ (s : State) (obs : HurdleObs) (t : Mod) (l : LaneId), s.m.powered = true → serving s.m = true → 
    t = toPhaseFrom (scnOf s.m.md.startedAt * 20000000 + 20000000) 12 16100 s.m →
    hurdleLane t = some l → (t.ln.get l).alive = true →
    (hurdleIsOff t = false → comparatorProven obs.injections = true → obs.itemPass = true → (t.ln.get l).itemNext < 7 →
      Does (.hurdle obs) s (fun m =>
        (m.ln.get l).proofAt = t.clk ∧ (m.ln.get l).itemNext = (t.ln.get l).itemNext + 1 ∧
        (m.ln.get l).itemAt = (t.ln.get l).itemAt.set (t.ln.get l).itemNext t.clk ∧ (m.ln.get l).testRoute = true ∧ (m.ln.get l).abandoned = 0 ∧
        (m.ln.get l).alive = true ∧ (m.ln.get l).opened = (t.ln.get l).opened ∧ OnlyLane l t m)) ∧
    (hurdleIsOff t = false → comparatorProven obs.injections = true → obs.itemPass = false → (t.ln.get l).itemNext < 7 →
      Does (.hurdle obs) s (fun m => LaneStops l 3 m ∧ OnlyLane l t m)) ∧
    (hurdleIsOff t = false → comparatorProven obs.injections = false →
      Does (.hurdle obs) s (fun m => LaneStops l 2 m ∧ OnlyLane l t m)) ∧
    (hurdleIsOff t = false → comparatorProven obs.injections = true → obs.itemPass = true → (t.ln.get l).itemNext = 7 →
      8 ≤ obs.margin → Does (.hurdle obs) s (fun m =>
        (m.ln.get l).itemNext = 0 ∧ (m.ln.get l).margin = obs.margin ∧ (m.ln.get l).lowReads = 0 ∧ (m.ln.get l).lowerDue = false ∧
        (m.ln.get l).alive = true ∧ OnlyLane l t m)) ∧
    (hurdleIsOff t = false → comparatorProven obs.injections = true → (t.ln.get l).itemNext = 7 → (t.ln.get l).nv.plan = 3 →
      obs.margin < 4 → Does (.hurdle obs) s (fun m => LaneStops l 3 m ∧ OnlyLane l t m)) ∧
    (hurdleIsOff t = true → Does (.hurdle obs) s (fun m => m = t))

/-- CLOCK_PLAN_LOWERED (R590): one step down at phase 0. LINK_LINE_LOST and LINK_LINE_RESTORED (R100): a line is lost after
20 ms of silence, with the event of the line or of the whole link; a lost line comes back after 1 s of valid frames, and not before it
delivers them.
Readings: log entry 3. -/
def Obligations.PlanAndLines : Prop :=
  ∀ (s : State) (l : LaneId) (k : Link) (line : Bool) (t : Mod), s.m.powered = true →
    ((s.m.ln.get l).alive = true → (s.m.ln.get l).lowerDue = true → (s.m.ln.get l).nv.plan < 3 → t = unowe (100 + laneNo l) (toNext (100 + laneNo l) 0 s.m) →
      Does (.clockPlanLowered l) s (fun m =>
        (m.ln.get l).nv.plan = (s.m.ln.get l).nv.plan + 1 ∧ (m.ln.get l).step = max ((s.m.ln.get l).nv.plan + 1) (t.ln.get l).step ∧
        (m.ln.get l).lowerDue = false ∧ (m.ln.get l).lowReads = 0 ∧ OnlyLane l t m ∧
        TellsAlone 0x35 { src := laneSrc l, arg0 := laneNo l, arg1 := (s.m.ln.get l).nv.plan + 1 } t m)) ∧
    (lineUp s.m (lineNo k line) = true → lineUp s.m (lineNo k (!line)) = true → t = passClk (tabGet 0 s.m.md.lineAt (lineNo k line) + 20000000) s.m →
      (lineSilent t (lineNo k (!line)) = false → Does (.linkLineLost k line) s (fun m =>
        lineUp m (lineNo k line) = false ∧ (∀ j, j < 6 → j ≠ lineNo k line → lineUp m j = lineUp s.m j) ∧ m.ln = t.ln ∧ SameImages s.m m ∧
        TellsAgreed 0x25 { arg0 := linkNo k, arg1 := b2n line } t m)) ∧
      (lineSilent t (lineNo k (!line)) = true → Does (.linkLineLost k line) s (fun m =>
        lineUp m (lineNo k line) = false ∧ lineUp m (lineNo k (!line)) = false ∧ m.ln = t.ln ∧ SameImages s.m m ∧
        TellsAgreed 0x26 { arg0 := linkNo k } t m))) ∧
    (∀ u, tabFind s.m.md.lineSince (lineNo k line) = some u → lineUp s.m (lineNo k line) = false → t = passClk (u + 1000000000) s.m →
      Does (.linkLineRestored k line) s (fun m =>
        lineUp m (lineNo k line) = true ∧ (∀ j, j < 6 → j ≠ lineNo k line → lineUp m j = lineUp s.m j) ∧
        tabFind m.md.lineSince (lineNo k line) = none ∧ u + 1000000000 ≤ m.clk ∧ { m with md := t.md } = t ∧ m.md.mode = s.m.md.mode)) ∧
    (tabFind s.m.md.lineSince (lineNo k line) = none → Does (.linkLineRestored k line) s (fun m => m = s.m))

/-! ## The photo finish (R93-R108, R84, R565) -/

/-- LOCAL_FREEZE_FRAME, REMOTE_FREEZE_FRAME, OFFER_FRAME, VERDICT_FRAME, CONFIRMATION_FRAME, LANE_FAULT_FRAME: a frame that counts and is
in time is held under its sender, read from its bytes (R93, R94, R100-R102, R104, R105, R107). What a lane forms is read back as it was
formed: header, link check and every payload (R17, R98, R101, R102).
Readings: log entry 4. -/
def Obligations.FramesAreHeld : Prop :=
  (∀ (s : State) (rcv snd : LaneId) (c : XCopies) (f : XFrame), s.m.powered = true →
    (Counts xLocal rcv snd c f s.m → InTime 2 560 rcv s.m → Does (.localFreezeFrame rcv snd c.line0 c.line1) s (fun m =>
      (m.ln.get rcv).localRx.get snd = some (localOf f.payload) ∧ FrameOnly s.m m)) ∧
    (Counts xRemote rcv snd c f s.m → InTime 4 1080 rcv s.m → Does (.remoteFreezeFrame rcv snd c.line0 c.line1) s (fun m =>
      (m.ln.get rcv).remoteRx.get snd = some (remoteOf f.payload) ∧ FrameOnly s.m m)) ∧
    (Counts xOffer rcv snd c f s.m → InTime 7 15000 rcv s.m → Does (.offerFrame rcv snd c.line0 c.line1) s (fun m =>
      (m.ln.get rcv).offerRx.get snd = some { fingerprint := fingerprint (offerOfFrame f), offer := offerOfFrame f } ∧ FrameOnly s.m m)) ∧
    (Counts xVerdict rcv snd c f s.m → InTime 8 15200 rcv s.m → Does (.verdictFrame rcv snd c.line0 c.line1) s (fun m =>
      (m.ln.get rcv).verdictRx.get snd = some (verdictOf f.payload) ∧ FrameOnly s.m m)) ∧
    (Counts xConfirm rcv snd c f s.m → InTime 9 15400 rcv s.m → Does (.confirmationFrame rcv snd c.line0 c.line1) s (fun m =>
      (m.ln.get rcv).confirmRx.get snd = some (confirmOf f.payload) ∧ FrameOnly s.m m)) ∧
    (Counts xFault rcv snd c f s.m → Does (.laneFaultFrame rcv snd c.line0 c.line1) s (fun m =>
      (m.ln.get rcv).faultRx.get snd = some (faultOf f.payload) ∧ FrameOnly s.m m))) ∧
  (∀ f : XFrame, f.type < 256 → f.sender < 256 → f.scn < 2 ^ 64 → f.stime < 2 ^ 64 → xParse f.bytes = some f) ∧
  (∀ p : LocalPayload, p.inputs.length = 104 → p.volts.length = 4 → (∀ v ∈ p.volts, v < 65536) → localOf (localBytes p) = p) ∧
  (∀ p : RemotePayload, p.seqs.length < 65536 → p.rings.length = 32 → remoteOf (remoteBytes p) = p) ∧
  (∀ (o : Offer) (f : XFrame), f.mode = o.mode → f.flags = o.flags → f.payload = offerPayload o → offerOfFrame f = o) ∧
  (∀ v : Verdict, verdictOf (verdictBytes v) = v) ∧ (∀ k : Confirm, confirmOf (confirmBytes k) = k)

/-- A frame whose both copies fail the link check, one whose sender is not in the receiver's voting set or has lost its supply, one that
names another sender, and one of another station cycle, is held by no lane (R17, R93, R100, R101).
Readings: log entry 4. -/
def Obligations.FramesLeftOut : Prop :=
  ∀ (s : State) (rcv snd : LaneId) (c : XCopies), s.m.powered = true →
    xFrameOf c = none ∨ (s.m.ln.get rcv).vset.get snd = false ∨ (s.m.ln.get snd).supplied = false ∨
      (∃ f, xFrameOf c = some f ∧ (f.sender ≠ laneNo snd ∨ f.scn ≠ scn s.m)) →
    Does (.localFreezeFrame rcv snd c.line0 c.line1) s (fun m => (∀ x, (m.ln.get x).localRx = (s.m.ln.get x).localRx) ∧ FrameOnly s.m m) ∧
    Does (.remoteFreezeFrame rcv snd c.line0 c.line1) s (fun m => (∀ x, (m.ln.get x).remoteRx = (s.m.ln.get x).remoteRx) ∧ FrameOnly s.m m) ∧
    Does (.offerFrame rcv snd c.line0 c.line1) s (fun m => (∀ x, (m.ln.get x).offerRx = (s.m.ln.get x).offerRx) ∧ FrameOnly s.m m) ∧
    Does (.verdictFrame rcv snd c.line0 c.line1) s (fun m => (∀ x, (m.ln.get x).verdictRx = (s.m.ln.get x).verdictRx) ∧ FrameOnly s.m m) ∧
    Does (.confirmationFrame rcv snd c.line0 c.line1) s (fun m => (∀ x, (m.ln.get x).confirmRx = (s.m.ln.get x).confirmRx) ∧ FrameOnly s.m m) ∧
    Does (.laneFaultFrame rcv snd c.line0 c.line1) s (fun m => (∀ x, (m.ln.get x).faultRx = (s.m.ln.get x).faultRx) ∧ FrameOnly s.m m)

/-- OFFERS_CLOSE at 15,000 and VERDICTS_CLOSE at 15,200: each running lane with an offer says which offers it holds; each running lane
decides the largest set of lanes with one fingerprint and marks HALT below two (R104, R105). LOCAL_FREEZE at 500 and REMOTE_FREEZE at
1,000: each running lane fixes its own reading, pulse-mode wires decoded, and lists what it holds (R93, R94, R281). Each sends its frame
(R101, R102).
Readings: log entries 3, 4. -/
def Obligations.RoundsOfTheFinish : Prop :=
  ∀ (s : State) (l : LaneId), s.m.powered = true →
    (∀ t w, t = toPhase 7 15000 s.m →
      w = { prints := (viewOf l (t.ln.get l)).mapL (fun _ p => p.getD 0), received := (viewOf l (t.ln.get l)).mapL (fun _ p => p.isSome) } →
      Does .offersClose s (fun m =>
      { m with ln := t.ln } = t ∧
      ((t.ln.get l).alive = true → (t.ln.get l).ownOffer.isSome = true →
        m.ln.get l =
          sendX t l xVerdict (verdictBytes w) { t.ln.get l with verdictRx := (t.ln.get l).verdictRx.set l (some w) }) ∧
      ((t.ln.get l).alive = false ∨ (t.ln.get l).ownOffer = none → m.ln.get l = t.ln.get l))) ∧
    (∀ t g k, t = toPhase 8 15200 s.m → k = { set := g, haltMark := decide (g.count < 2) } →
      g = bestSet ((PerLane.all ()).mapL (fun y _ => okPrint l (t.ln.get l) (t.ln.mapL (fun _ x => x.exclCause != 0)) y)) →
      Does .verdictsClose s (fun m =>
        { m with ln := t.ln } = t ∧
        ((t.ln.get l).alive = true →
          m.ln.get l =
            sendX t l xConfirm (confirmBytes k)
              { t.ln.get l with ownSet := g, ownHalt := decide (g.count < 2), confirmRx := (t.ln.get l).confirmRx.set l (some k) }) ∧
        ((t.ln.get l).alive = false → m.ln.get l = t.ln.get l))) ∧
    (∀ t p, t = decodeWires (toPhase 1 500 s.m) →
      p = { inputs := readingOf t (t.ln.get l), volts := (List.range 4).map (fun g => (t.ln.get l).volts.getD g 0) } → operating s.m = true → Does .localFreeze s (fun m =>
      { m with ln := t.ln, tm := t.tm } = t ∧
      ((t.ln.get l).alive = true → m.ln.get l = sendX t l xLocal (localBytes p) { t.ln.get l with
          localRx := (PerLane.all none).set l (some p), remoteRx := PerLane.all none, tdiff := PerLane.all 0, volts := [] }) ∧
      ((t.ln.get l).alive = false → m.ln.get l = t.ln.get l))) ∧
    (∀ t, t = toPhase 3 1000 s.m → operating s.m = true → Does .remoteFreeze s (fun m =>
      { m with ln := t.ln } = t ∧
      ((t.ln.get l).alive = true → (m.ln.get l).remoteRx.get l = some (remotePayload t l (t.ln.get l)) ∧
        tabFind (m.ln.get l).sent xRemote = tabFind (sendX t l xRemote (remoteBytes (remotePayload t l (t.ln.get l))) (t.ln.get l)).sent xRemote ∧
        ∀ x, x ≠ l → (m.ln.get l).remoteRx.get x = (t.ln.get l).remoteRx.get x) ∧
      ((t.ln.get l).alive = false → m.ln.get l = t.ln.get l)))

/-- CONFIRMATIONS_CLOSE at 15,400 (R105-R108): where every running lane concludes the same set and that set is the running lanes, nothing is
excluded and no switch moves; where no lane concludes a set, the module enters HALT with HCAUSE 1, or 9 after a failed hurdle, and every
switch opens; where two of three lanes conclude that the third is out, it is excluded, opens its switches, and the two go on with their switches held open in the pairs they share with it (R23).
Readings: log entries 3, 4, 18. -/
def Obligations.TheFinalSet : Prop :=
  ∀ (s : State) (t : Mod), s.m.powered = true → operating s.m = true → s.m.tm.taken = true → t = toPhase 9 15400 s.m →
    (∀ g, 1 ≤ (aliveLanes t).length → (∀ l, g.get l = (t.ln.get l).alive) →
      (∀ l, (t.ln.get l).alive = true → (t.ln.get l).vset = g ∧ finalOf l (t.ln.get l) = some g) →
      Does .confirmationsClose s (fun m =>
        SameImages t m ∧ m.fio = t.fio ∧ operating m = true ∧
        ∀ l, (m.ln.get l).vset = (t.ln.get l).vset ∧ (m.ln.get l).opened = (t.ln.get l).opened ∧ (m.ln.get l).alive = (t.ln.get l).alive ∧
          (m.ln.get l).ownOffer = none ∧ (m.ln.get l).offerRx = PerLane.all none)) ∧
    ((∀ l, (t.ln.get l).alive = true → finalOf l (t.ln.get l) = none) → (∀ l, (t.ln.get l).stopped ≠ 3) →
      Does .confirmationsClose s (fun m => m.md.mode = .halt ∧ m.md.hcause = 1 ∧ AllOpened m ∧ AllOff m ∧ SameImages t m)) ∧
    (∀ g z, (∀ l, (t.ln.get l).alive = true ∧ (t.ln.get l).vset = PerLane.all true) → g.get z = false →
      (∀ l, l ≠ z → g.get l = true ∧ finalOf l (t.ln.get l) = some g) → finalOf z (t.ln.get z) = none →
      Does .confirmationsClose s (fun m =>
        (m.ln.get z).excluded = true ∧ (m.ln.get z).opened = true ∧ (m.ln.get z).alive = false ∧ operating m = true ∧ SameImages t m ∧
        ∀ l, l ≠ z → (m.ln.get l).vset = g ∧ (m.ln.get l).opened = (t.ln.get l).opened ∧ (m.ln.get l).alive = true ∧
          (m.ln.get l).openPairs = sharedPairs l z ++ (t.ln.get l).openPairs))

/-! ## Freezes, snapshot, outputs, tasks (R91, R93-R97, R112, R113, R169, R175-R179, R195-R198, R220, R245, R248, R252, R565) -/

/-- LOCAL_FREEZE_AGREEMENT forms the agreed station 0 image from the frames each lane holds (R93); REMOTE_FREEZE_AGREEMENT takes the
diagnostic record all voting lanes hold, or counts its age, and runs the engine pass (R94, R221, R252); SNAPSHOT forms the drive image, and
every running lane that is in time offers the state it computed: offers differ at most in the control digest, where a lane agreed other
inputs, in the phase of the snapshot, and, of a lane that took another choice of remote inputs, in what it computed on it (R93, R96, R97,
R102, R107).
Readings: log entries 3, 4, 17, 63. -/
def Obligations.AgreementAndSnapshot : Prop :=
  ∀ (s : State) (l : LaneId) (t : Mod), s.m.powered = true → operating s.m = true →
    (t = toPhase 2 560 s.m → (t.ln.get l).alive = true → Does .localFreezeAgreement s (fun m =>
      (m.ln.get l).image = (List.range 104).map (fun n =>
        agreeState ((allLanes.filterMap (fun y => if (t.ln.get l).vset.get y then (t.ln.get l).localRx.get y else none)).map
          (fun p => p.inputs.getD n 3))) ∧
      (m.ln.get l).gvolt = (List.range 4).map (fun g =>
        agreeVolt ((allLanes.filterMap (fun y => if (t.ln.get l).vset.get y then (t.ln.get l).localRx.get y else none)).map
          (fun p => p.volts.getD g 0))) ∧
      m.fio.image = agreedBy (updLanes (fun _ x => agreeLane x) t) (·.image) ∧ m.fio.imageAt = scn t + 1)) ∧
    (t = toPhase 4 1080 s.m → s.m.host.waiting = [] → s.m.host.critWait = [] →
      (commonRecord t = none → Does .remoteFreezeAgreement s (fun m => m.fio.agreed = s.m.fio.agreed ∧ m.fio.age = satN 255 (s.m.fio.age + 1))) ∧
      (∀ r, commonRecord t = some r → s.m.fio.agreed.map (·.seq) ≠ some r.seq → Does .remoteFreezeAgreement s (fun m =>
        m.fio.agreed = some r ∧ m.fio.age = 0))) ∧
    (s.m.tm.taken = true → s.m.en.passScn = scn s.m + 1 → s.m.lg.snapScn ≠ scn s.m + 1 → runsApp s.m = false ∨ mainDone s.m = true →
      Does .snapshot s (fun m =>
        m.lg.snapScn = scn s.m + 1 ∧ m.md = s.m.md ∧ m.clk = s.m.clk ∧
        ∃ o, m.lg.digests = some o ∧ (ownCourse s.m (courseLane s.m) = false → o.drive = m.lg.drive) ∧
          ((s.m.ln.get l).alive = true → phaseOf (s.m.ln.get l).time ≤ 15000 → ∃ p,
            (m.ln.get l).ownOffer = some p ∧ (m.ln.get l).offerRx.get l = some { fingerprint := fingerprint p, offer := p } ∧
            p = { o with var := p.var, eng := p.eng, remote := p.remote, drive := p.drive, ctrl := p.ctrl,
                         snap := BitVec.ofNat 32 (phaseOf (s.m.ln.get l).time) } ∧
            (ownCourse s.m l = false → p.var = o.var ∧ p.eng = o.eng ∧ p.remote = o.remote ∧ p.drive = m.lg.drive ∧
              ((s.m.ln.get l).image = (s.m.ln.get (courseLane s.m)).image → (s.m.ln.get l).gvolt = (s.m.ln.get (courseLane s.m)).gvolt →
                (s.m.ln.get l).gLow = (s.m.ln.get (courseLane s.m)).gLow → p.ctrl = o.ctrl))) ∧
          ((s.m.ln.get l).alive = true → 15000 < phaseOf (s.m.ln.get l).time → (m.ln.get l).ownOffer = none)))

/-- SEALING from 15,500: every body formed at the snapshot is sealed by two lanes, what was sealed in the cycle before still goes out until
its windows are over, and no telegram is sealed by fewer than two lanes, by a module that may not seal, or in a SHADOW out of step (R31,
R112, R113, R469). LOCAL_OUTPUTS_APPLIED at 16,000: every drive takes its bit of the image voted in this cycle, and every isolator its
rule (R31, R248); the outgoing module whose SWI6 reads closed opens every switch and halts (R472). SECURITY_ALARM_FRAME: the receiver
acts as if it had seen the trigger, the module with the first lane that does (R557, R565-R567).
Readings: log entries 3, 18, 19. -/
def Obligations.SealingAndOutputs : Prop :=
  ∀ (s : State) (t : Mod), s.m.powered = true →
    (maySeal s.m = false → Does .sealing s (fun m => m = s.m)) ∧
    (maySeal s.m = true → t = toPhase 10 15500 s.m →
      (s.m.md.mode = .shadow → s.m.pr.instep = false ∨ statusHeld t = false → Does .sealing s (fun m =>
        m.bt.outTel = [] ∧ m.bt.outPrev = t.bt.outTel)) ∧
      (s.m.md.mode ≠ .shadow → ∀ p q rest n body, sealers t = p :: q :: rest → (t.bt.bodies.map (·.1)).Nodup → (n, body) ∈ t.bt.bodies →
        Does .sealing s (fun m => m.bt.outPrev = t.bt.outTel ∧ m.md = t.md ∧ m.fio = t.fio ∧ SameImages s.m m ∧ ∃ x sp sq, tabFind m.bt.outTel n = some x ∧ x.seq = scn t + 1 ∧ x.body = body ∧
          x.tel = telOf body (16 * laneNo p + laneNo q) sp sq)) ∧
      (s.m.md.mode ≠ .shadow → (sealers t).length < 2 → Does .sealing s (fun m =>
        m.bt.outTel = [] ∧ m.bt.outPrev = t.bt.outTel ∧ m.bt.unsent = t.bt.unsent + t.bt.bodies.length ∧ m.md = t.md ∧ m.fio = t.fio ∧ SameImages s.m m))) ∧
    (serving s.m = true → t = toPhase 11 16000 s.m → t.pr.outgoing = false ∨ swi t 6 ≠ 1 →
      ∀ image, image = (if t.lg.snapScn = scn t + 1 then t.lg.drive else t.fio.applied) →
      Does .localOutputsApplied s (fun m =>
        m.fio.applied = image ∧ (∀ k, k < 64 → (driveOf m k).on = image.getLsbD k) ∧ m.fio.groups = t.fio.groups.map (setIsolator t) ∧
        m.md.mode = s.m.md.mode ∧ m.md.trigs = [] ∧ SameImages s.m m)) ∧
    (serving s.m = true → t = toPhase 11 16000 s.m → t.pr.outgoing = true → swi t 6 = 1 → Does .localOutputsApplied s (fun m =>
        m.md.mode = .halt ∧ m.md.hcause = 6 ∧ AllOpened m ∧ AllOff m ∧ SameImages s.m m)) ∧
    (∀ rcv snd c f trig lvl w, rcv ≠ snd → xFrameOf c = some f → f.type = xAlarm → f.sender = laneNo snd → alarmOf f.payload = (trig, lvl) → 1 ≤ lvl →
      (s.m.ln.get rcv).supplied = true → Does (.securityAlarmFrame rcv snd c.line0 c.line1 w) s (fun m =>
        (m.ln.get rcv).alarmLevel = max (s.m.ln.get rcv).alarmLevel lvl ∧ (m.ln.get rcv).nv.keys = eraseKeys lvl (s.m.ln.get rcv).nv.keys ∧
        (∀ x, x ≠ rcv → (m.ln.get x).nv.keys = (s.m.ln.get x).nv.keys ∧ (m.ln.get x).alarmLevel = (s.m.ln.get x).alarmLevel) ∧ SameImages s.m m ∧
        ((∃ l, lvl ≤ (s.m.ln.get l).alarmLevel) → m.nv = s.m.nv ∧ m.md.mode = s.m.md.mode) ∧
        ((∀ l, (s.m.ln.get l).alarmLevel < lvl) → m.nv.sec.ltrig = trig ∧ m.nv.sec.llvl = lvl ∧
          (lvl ≤ 2 → m.md.mode = s.m.md.mode) ∧
          (3 ≤ lvl → operating s.m = true → s.m.nv.sec.pend ≤ lvl → m.md.mode = .halt ∧ m.md.hcause = 7 ∧ AllOpened m)))) ∧
    (∀ rcv snd c w, xFrameOf c = none → Does (.securityAlarmFrame rcv snd c.line0 c.line1 w) s (fun m =>
        FrameOnly s.m m ∧ ∀ x, (m.ln.get x).nv.keys = (s.m.ln.get x).nv.keys ∧ (m.ln.get x).alarmLevel = (s.m.ln.get x).alarmLevel))

/-- TASK_RELEASE and SLOW_TASK_SLICE (R91, R145, R175, R179): a released heat starts at its entry with its nominal time; a slice runs unless a
protected hurdle defers it. PENDING_REQUEST_EXPIRED (R220). ENGINE_PASS_LATE is told where ENXT waits at phase 1,500 (R245).
Readings: log entry 3. -/
def Obligations.TasksAndPass : Prop :=
  ∀ (s : State) (k : Fin 32) (d : TaskDesc) (r : Fin 4096) (t : Mod), s.m.powered = true →
    (taskDesc s.m k.val = some d → d.kind = .cyc20 → mayRelease s.m d = true → t = toRelease d s.m → Does (.taskRelease k) s (fun m =>
      (tcbOf m d.num).active = true ∧ (tcbOf m d.num).pc = d.entry ∧ (tcbOf m d.num).nominal = scn t * 20000000 + 1500000 ∧
      (tcbOf m d.num).trig = (tcbOf s.m d.num).trigWait ∧ (tcbOf m d.num).cmds = (tcbOf s.m d.num).cmdsWait ∧
      (m.lg.running = some d.num ∨ d.num ∈ m.lg.stack) ∧ m.md.mode = s.m.md.mode ∧ SameImages s.m m)) ∧
    (taskDesc s.m k.val = some d → mayRelease s.m d = false → Does (.taskRelease k) s (fun m => m = s.m)) ∧
    (taskDesc s.m k.val = some d → d.kind = .slow → runsApp s.m = true → (tcbOf s.m k.val).parked = false → (tcbOf s.m k.val).active = true →
      t = toPhaseFrom s.m.md.serveAt (8000 + k.val) 16000 s.m →
      (deferred t d = false → Does (.slowTaskSlice k) s (fun m =>
        (tcbOf m k.val).sliceLeft = d.slice ∧ (tcbOf m k.val).pc = (tcbOf s.m k.val).pc ∧ (m.lg.running = some k.val ∨ k.val ∈ m.lg.stack) ∧
        m.clk = t.clk ∧ SameImages s.m m)) ∧
      (deferred t d = true → Does (.slowTaskSlice k) s (fun m => m = t))) ∧
    (∀ p, pendOf s.m r.val = some p → Does (.pendingRequestExpired r) s (fun m =>
      pendOf m r.val = none ∧ m.en.expired = satN 0xFFFFFFFF (s.m.en.expired + 1) ∧ m.en.locked = s.m.en.locked ∧ SameImages s.m m)) ∧
    (serving s.m = true → t = (if s.m.tm.taken && decide (phase s.m < 1500) then passTo (scn s.m * 20000000 + 1500000) s.m else s.m) →
      t.en.passScn ≠ scn t + 1 →
      (enxtNext t = true → 1500 ≤ phase t → t.en.lateTold ≠ scn t + 1 → Does .enginePassLate s (fun m =>
        m.en = { t.en with lateTold := scn t + 1 } ∧ TellsAgreed 0x1F {} t m ∧ SameImages s.m m)) ∧
      (enxtNext t = false → Does .enginePassLate s (fun m => m = t)))

/-- ONLINE_CHANGE_CHECK at 16,000 before the named SCN abandons the change where a condition of R195 fails, with event 0x19 and its code,
or where the module's state forbids it, and else builds it; no heat runs then. ONLINE_CHANGE_APPLIED: from phase 0 of the SCN the new application runs on the transferred image, in the same mode
(R195-R198).
Readings: log entries 3, 34. -/
def Obligations.OnlineChangeRuns : Prop :=
  ∀ (s : State) (a : Activation) (t : Mod), s.m.powered = true → serving s.m = true → s.m.up.act = some a →
    (a.online = true → a.prepared = false → now s.m ≤ (a.scn - 1) * 20000000 + 16000000 → t = passTo ((a.scn - 1) * 20000000 + 16000000) s.m →
      (∀ c, changeAbort t = c → c ≠ 0 → Does .onlineChangeCheck s (fun m =>
        m.lg.olcState = 3 ∧ m.lg.olcAbt = c ∧ m.up.act = none ∧ m.lg.app = s.m.lg.app ∧ m.md.mode = s.m.md.mode ∧
        (votes t = true → m.host.evWait = t.host.evWait ++
          [eventOf 0x19 { arg1 := c } t, eventOf 0xE5 { arg1 := 8, arg2 := a.kinds.headD 0 } t]))) ∧
      (changeAbort t = 0 → (stateForbids t a.kinds true 0 || decide (t.pw.charge < 95)) = true → Does .onlineChangeCheck s (fun m =>
        m.lg.olcState = 3 ∧ m.lg.olcAbt = 0 ∧ m.up.act = none ∧ m.lg.app = s.m.lg.app ∧ m.md.mode = s.m.md.mode)) ∧
      ((stateForbids t a.kinds true 0 || decide (t.pw.charge < 95)) = false → changeAbort t = 0 → Does .onlineChangeCheck s (fun m =>
        m.lg.olcNew.isSome = true ∧ m.lg.running = none ∧ m.lg.stack = [] ∧ m.up.act = some { a with prepared := true } ∧
        m.lg.app = s.m.lg.app ∧ m.md.mode = s.m.md.mode))) ∧
    (∀ new, a.prepared = true → s.m.lg.olcNew = some new → Does .onlineChangeApplied s (fun m =>
      m.lg.app = new ∧ m.cur = transferImage s.m.lg.app new s.m.cur ∧ m.nxt = m.cur ∧ m.lg.olcNew = none ∧ m.lg.olcState = 2 ∧
      m.up.act = none ∧ m.up.result = 2 ∧ m.md.mode = s.m.md.mode))

/-! ## Field I/O (R250-R278) -/

/-- SAG_LATCH_SET (R273), MINORITY_REPORT (R258), IO_CONTROLLER_LOST (R253), OPEN_WIRE_DETECTED (R264), LOAD_LEARNING_COMPLETE (R265),
GROUP_CURRENT_HIGH (R276): each when its count is reached and its diagnostics are not suspended (R263, R275); what it sets, tells and holds off; nothing else
changes.
Readings: log entry 3. -/
def Obligations.FieldReports : Prop :=
  ∀ (s : State) (g : Fin 4) (l : LaneId) (n : Fin 104) (k : Fin 64), s.m.powered = true →
    (6 ≤ (groupAt s.m g.val).lowN → (groupAt s.m g.val).sag = false → Does (.sagLatchSet g) s (fun m =>
      groupAt m g.val = { groupAt s.m g.val with sag := true, grp := 3 } ∧ (∀ j, groupOfDrive j = g.val → heldOff m j = true) ∧
      { m with fio := s.m.fio, host := s.m.host, rcd := s.m.rcd } = s.m ∧ TellsAgreed 0x62 { arg0 := g.val } s.m m)) ∧
    (∀ key, key = laneNo l * 128 + n.val → fieldOf s.m.cfg.fiocfg.toNat 16 8 ≤ tabGet 0 s.m.fio.minN key → tabGet false s.m.fio.minTold key = false →
      Does (.minorityReport l n) s (fun m =>
        tabGet false m.fio.minTold key = true ∧ m.fio.mtot = satN 0xFFFF (s.m.fio.mtot + 1) ∧ m.fio.mchn = n.val ∧ m.fio.mlane = 2 ^ laneNo l ∧
        m.fio.image = s.m.fio.image ∧ { m with fio := s.m.fio, host := s.m.host, rcd := s.m.rcd } = s.m ∧
        TellsAgreed 0x6B { arg0 := n.val, arg1 := laneNo l } s.m m)) ∧
    (5 ≤ s.m.fio.age → s.m.fio.iocl = false → operating s.m = true → Does .ioControllerLost s (fun m =>
      m.fio = { s.m.fio with iocl := true } ∧ (∀ j, heldOff m j = true) ∧ { m with fio := s.m.fio, host := s.m.host, rcd := s.m.rcd } = s.m ∧
      TellsAgreed 0x6F {} s.m m)) ∧
    (3 ≤ (driveOf s.m k.val).lowN → (driveOf s.m k.val).openWire = false → suspended (groupAt s.m (groupOfDrive k.val)) = false → Does (.openWireDetected k) s (fun m =>
      driveOf m k.val = { driveOf s.m k.val with openWire := true } ∧ (∀ j, heldOff m j = heldOff s.m j) ∧
      { m with fio := s.m.fio, host := s.m.host, rcd := s.m.rcd } = s.m ∧ TellsAgreed 0x6A { arg0 := k.val } s.m m)) ∧
    (suspended (groupAt s.m (groupOfDrive k.val)) = true → Does (.openWireDetected k) s (fun m => m = s.m)) ∧
    (learning s.m k.val ((s.m.fio.agreed.map (·.flags)).getD 0) = false → Does (.loadLearningComplete k) s (fun m => m = s.m)) ∧
    (50 ≤ (driveOf s.m k.val).learnN → learning s.m k.val ((s.m.fio.agreed.map (·.flags)).getD 0) = true → Does (.loadLearningComplete k) s (fun m =>
      (∀ x, tabGet 0 (m.ln.get x).nv.loads k.val = (driveOf s.m k.val).learnSum / (driveOf s.m k.val).learnN ∧
        (∀ j, j ≠ k.val → tabGet 0 (m.ln.get x).nv.loads j = tabGet 0 (s.m.ln.get x).nv.loads j) ∧ (m.ln.get x).opened = (s.m.ln.get x).opened) ∧
      (driveOf m k.val).learnN = 0 ∧ { m with fio := s.m.fio, ln := s.m.ln } = s.m)) ∧
    (50 ≤ (groupAt s.m g.val).hiCur → (groupAt s.m g.val).hiCurTold = false → Does (.groupCurrentHigh g) s (fun m =>
      groupAt m g.val = { groupAt s.m g.val with hiCurTold := true } ∧ { m with fio := s.m.fio, host := s.m.host, rcd := s.m.rcd } = s.m ∧
      TellsAgreed 0x6E { arg0 := g.val } s.m m))

/-- INPUT_PULSE_SAMPLE (R254, R255): each supplied lane decodes every loop from its own readings, and every output is read (R267).
DIAGNOSTIC_RECORD (R251): the record that the I/O controller forms of this cycle stands first at every lane that gets it; one that fails
its CRC is no record. OFF_PULSE (R260, R261, R267): a channel that is on is tested by the alternating set, and a channel that is off and
falls with it names it.
PROTECTIVE_SWITCH_OFF (R250): the channel is off. CONTACTOR_CHECK (R277, R278): from the image of the sixth
freeze after a change on, a feedback that does not follow its drive is latched and holds the drive off.
Readings: log entry 3. -/
def Obligations.SamplingAndPulses : Prop :=
  ∀ (s : State) (l : LaneId) (t : Mod), s.m.powered = true →
    (∀ obs test, (s.m.ln.get l).supplied = true → t = (if s.m.tm.taken then fireAt 16 1000000 500000 none s.m else s.m) →
      Does (.inputPulseSample obs test) s (fun m =>
        (∀ n, n < 104 → (m.ln.get l).sample.getD n 3 = decodeLoop (loopOf s.m (obs.get l) n) ((obs.get l).volts.getD (groupOfIn n) 0)) ∧
        (∀ k, k < 64 → k < test.outMv.length → driveOf m k = readOutput (now t) (test.outMv.getD k 0) (driveOf s.m k)) ∧
        (∀ x, (m.ln.get x).opened = (s.m.ln.get x).opened) ∧ m.fio.image = s.m.fio.image ∧
        { m with ln := t.ln, fio := t.fio, pc := t.pc } = t)) ∧
    (∀ (obs : DiagObs) ports, operating s.m = true → bitOf s.m.md.bist 4 = false → t = toNext 14 700 s.m → Does (.diagnosticRecord obs.load obs.group ports) s (fun m =>
      (ports.get l = none → (t.ln.get l).alive = true →
        m.fio.recLanes.get l = some (diagRecord t obs) ∧ (diagRecord t obs).seq = BitVec.ofNat 32 (scn t) ∧
        m.fio.recPrev.get l = t.fio.recLanes.get l) ∧
      (∀ bs r, ports.get l = some bs → diagIn bs = some r → (t.ln.get l).alive = true →
        m.fio.recLanes.get l = some r ∧ m.fio.recPrev.get l = t.fio.recLanes.get l) ∧
      (∀ bs, ports.get l = some bs → diagIn bs = none → m.fio.recLanes.get l = t.fio.recLanes.get l ∧ m.fio.recPrev.get l = t.fio.recPrev.get l) ∧
      (∀ k, (driveOf m k).obs = (driveOf t k).late ∧ (driveOf m k).late = 0) ∧ m.fio.agreed = s.m.fio.agreed ∧ m.ln = t.ln ∧ SameImages s.m m)) ∧
    (∀ k test, operating s.m = true → t = toNext (1000 + k.val) (200 + 300 * k.val) s.m →
      ((driveOf t k.val).on = true → (driveOf t k.val).tripped = false → t.pw.pace = 0 → Does (.offPulse k test) s (fun m =>
        (driveOf m k.val).pulsedAt = some (scn t) ∧ (driveOf m k.val).lowSide = (scn t % 2 == 1) ∧ (driveOf m k.val).on = true ∧
        (driveOf m k.val).obs = (driveOf t k.val).obs ||| BitVec.ofNat 16 (2 ^ 14 + (if test.conducts then 4 else 0) + (if test.fell then 0 else 8)) ∧
        (∀ j ∈ test.falls, j ≠ k → allOpen (driveOf t j.val) = true → (driveOf t j.val).high = true →
          fieldOf (driveOf m j.val).obs.toNat 5 7 = 1 + 2 * k.val) ∧
        m.ln = t.ln ∧ SameImages s.m m)) ∧
      (allOpen (driveOf t k.val) = true → Does (.offPulse k test) s (fun m => m = t))) ∧
    (∀ k c, Does (.protectiveSwitchOff k c) s (fun m =>
      (driveOf m k.val).tripped = true ∧ energised m k.val = false ∧ (∀ j, j ≠ k.val → driveOf m j = driveOf s.m j) ∧
      { m with fio := s.m.fio, pc := s.m.pc } = s.m)) ∧
    (∀ j : Fin 8, serving s.m = true → s.m.md.mode ≠ .shadow → suspended (groupAt s.m 2) = false → (driveOf s.m (48 + j.val)).on = true →
      (driveOf s.m (48 + j.val)).changedAt + 7 ≤ s.m.fio.imageAt →
      s.m.fio.image.getD (80 + 2 * j.val) 3 ≠ 0 ∨ s.m.fio.image.getD (81 + 2 * j.val) 3 ≠ 0 →
      Does .contactorCheck s (fun m => (driveOf m (48 + j.val)).feedback = true ∧ heldOff m (48 + j.val) = true ∧ m.ln = s.m.ln ∧
        m.md = s.m.md ∧ SameImages s.m m)) ∧
    (suspended (groupAt s.m 2) = true → Does .contactorCheck s (fun m => m = s.m))

/-! ## Stride and the receipt of telegrams (R297-R329, R358-R360, R367) -/

/-- GUN_FRAME_SEND, GUN_FRAME_RECEIVE, GUN_YIELD_END, GUN_LISTEN_END, SEGMENT_DARK, GUN_TAKEOVER: mastership of a segment and its gun
frames (R301-R304, R319, R321, R324-R327), as bytes; no output and no image changes.
Readings: log entries 3, 47, 56. -/
def Obligations.GunMastership : Prop :=
  ∀ (s : State) (i : Fin 4) (t : Mod), s.m.powered = true → FourOfEach s.m →
    (sends s.m i.val = true → (segAt s.m i.val).role = 1 → t = toBasic (300 + i.val) 0 s.m → Does (.gunFrameSend i) s (fun m =>
      (segAt m i.val).gunSent = some (basicOf (now t)) ∧ (segAt m i.val).gunCopy = false ∧
      (∀ b, usesEnd t i.val b = true → tabFind (segAt m i.val).out (2 * sGun + b2n b) =
        some (frameOut t i.val sGun (basicOf (now t) * 5000000) b false 0 (gunBytes (gunPayload t i.val false)))) ∧
      (∀ j, j ≠ i.val → segAt m j = segAt t j) ∧ m.ln = t.ln ∧ m.fio = s.m.fio ∧ SameImages s.m m)) ∧
    (sends s.m i.val = false → Does (.gunFrameSend i) s (fun m => m = s.m)) ∧
    (∀ f : RingFrame, usesEnd s.m f.port.seg.val (sideB f.port.side) = true →
      (fcsGood f.bytes = false → Does (.gunFrameReceive f.port { rx := f.rx, bytes := f.bytes }) s (fun m =>
        m = updStr (fun x => { x with fcserr := satN 0xFFFF (x.fcserr + 1) }) s.m)) ∧
      (fcsGood f.bytes = true → sRead f.bytes = none → Does (.gunFrameReceive f.port { rx := f.rx, bytes := f.bytes }) s (fun m => m = s.m)) ∧
      (∀ x g, fcsGood f.bytes = true → sRead f.bytes = some x → x.kind = sGun → g = gunOf x.payload → g.mid ≠ s.m.nv.sec.identity →
        (operating s.m = true → s.m.nv.paired = false ∨ g.mid ≠ s.m.nv.partnerId → Does (.gunFrameReceive f.port { rx := f.rx, bytes := f.bytes }) s (fun m =>
          m.str = { s.m.str with foreignN := satN 255 (s.m.str.foreignN + 1) } ∧ 7 ∈ m.sec.seen ∧ m.ln = s.m.ln ∧ m.fio = s.m.fio ∧ m.tm = s.m.tm)) ∧
        (s.m.nv.paired = true → g.mid = s.m.nv.partnerId → x.fromB ≠ sideB f.port.side → Does (.gunFrameReceive f.port { rx := f.rx, bytes := f.bytes }) s (fun m =>
          (segAt m f.port.seg.val).evidence = some (basicOf (now s.m)) ∧ (s.m.tm.gun.absent = false → m.tm.gun.valid = true) ∧
          (g.first = true → (segAt m f.port.seg.val).coldScn = some g.scn) ∧
          (x.looped = false → (segAt m f.port.seg.val).broken = false) ∧
          (∀ d, linkDelayAt s.m f.port = some d → (segAt m f.port.seg.val).gunDelay = some (g.delay + d)) ∧ m.fio = s.m.fio ∧ SameImages s.m m)) ∧
        (s.m.nv.paired = true → g.mid = s.m.nv.partnerId → x.fromB = sideB f.port.side → Does (.gunFrameReceive f.port { rx := f.rx, bytes := f.bytes }) s (fun m =>
          (x.looped = true → (segAt m f.port.seg.val).broken = true) ∧
          (segAt m f.port.seg.val).evidence = (segAt s.m f.port.seg.val).evidence ∧ m.tm = s.m.tm ∧ m.fio = s.m.fio ∧ SameImages s.m m)))) ∧
    (∀ e, (segAt s.m i.val).yieldTo = some e → Does (.gunYieldEnd i) s (fun m =>
      (segAt m i.val).yieldTo = none ∧ (segAt m i.val).role = 3 ∧ (segAt m i.val).evidence = none ∧ (segAt m i.val).darkAt = max s.m.clk e)) ∧
    ((segAt s.m i.val).role = 3 → (segAt s.m i.val).yieldTo = none → operating s.m = true → s.m.tm.taken = true →
      ((segAt s.m i.val).evidence.isSome = true → Does (.gunListenEnd i) s (fun m => (segAt m i.val).role = 2 ∧ SameImages s.m m)) ∧
      ((segAt s.m i.val).evidence = none → bitOf s.m.str.strcfg.toNat 1 = true →
        t = toNext (200 + i.val) 0 (passClk ((segAt s.m i.val).darkAt + 20000000) s.m) → Does (.gunListenEnd i) s (fun m =>
          (segAt m i.val).role = 1 ∧ (segAt m i.val).coldScn = some (scn t) ∧ m.tm.use ≠ .following .gun ∧
          (t.tm.use ≠ .following .gun → TellsAlone 0x80 { src := 4, arg0 := i.val } t m) ∧ SameImages s.m m))) ∧
    ((segAt s.m i.val).role = 3 → (segAt s.m i.val).darkTold = false → bitOf s.m.str.strcfg.toNat 1 = false →
      (segAt s.m i.val).evidence = none → operating s.m = true → Does (.segmentDark i) s (fun m =>
        (segAt m i.val).darkTold = true ∧ (segAt m i.val).role = 3 ∧
        TellsAlone 0x90 { src := 4, arg0 := i.val } (passClk ((segAt s.m i.val).darkAt + 1000000000) s.m) m)) ∧
    ((segAt s.m i.val).role = 2 → operating s.m = true → Does (.gunTakeover i) s (fun m =>
      (segAt m i.val).role = 1 ∧ (segAt m i.val).evidence = none ∧ m.str.take = satN 255 (s.m.str.take + 1) ∧
      m.tm.use ≠ .following .gun ∧ (∀ j, j ≠ i.val → (segAt m j).role = (segAt s.m j).role) ∧ SameImages s.m m))

/-- EXCLUSIVE_WINDOW_SEND, EXCLUSIVE_FRAME_RETURN, BID_WINDOW_SEND, BID_FRAME_RETURN (R306-R316): what leaves in a window, and what a
returned frame leaves behind; one that is not expected is a false start.
Readings: log entries 3, 47, 56. -/
def Obligations.StrideWindows : Prop :=
  ∀ (s : State) (t : Mod), s.m.powered = true → FourOfEach s.m →
    (∀ n d w, stationDesc s.m n = some d → (windowsOf s.m d.seg).find? (fun w => w.kind == 0 && w.station == n) = some w → sends s.m d.seg = true →
      t = toNext (2000 + n) (w.bcn * 5000 + w.off) s.m → Does (.exclusiveWindowSend n) s (fun m =>
        (stationAt m n).sentAt = some (scn t * 20000000 + (w.bcn * 5000 + w.off) * 1000) ∧
        (∀ o, admitted t n = true → outFor t 0 n = some o → o.tel.length ≤ d.outLen → (stationAt m n).sentTel = o.tel) ∧
        (admitted t n = false ∨ outFor t 0 n = none → (stationAt m n).sentTel = []) ∧ (stationAt m n).sentTel.length ≤ d.outLen ∧
        (∀ b, usesEnd t d.seg b = true → tabFind (segAt m d.seg).out (2 * sExclusive + b2n b) =
          some (frameOut t d.seg sExclusive (scn t * 20000000 + (w.bcn * 5000 + w.off) * 1000) b (admitted t n) n
            (exBytes d.outLen d.inLen (stationAt m n).sentTel))) ∧
        (∀ j, j ≠ n → stationAt m j = stationAt t j) ∧ m.ln = t.ln ∧ m.bt = t.bt ∧ SameImages s.m m)) ∧
    (∀ f : RingFrame, usesEnd s.m f.port.seg.val (sideB f.port.side) = true →
      (fcsGood f.bytes = false → Does (.exclusiveFrameReturn f) s (fun m =>
        m = updStr (fun x => { x with fcserr := satN 0xFFFF (x.fcserr + 1) }) s.m)) ∧
      (∀ h d x, fcsGood f.bytes = true → sRead f.bytes = some h → h.kind = sExclusive → stationDesc s.m h.stn = some d →
        x = exOf d.outLen d.inLen h.payload →
        (expected s.m (stationAt s.m h.stn).sentAt f h = true → h.payload.length = 76 + d.outLen + d.inLen → x.ilen ≤ d.inLen →
          (stationAt s.m h.stn).adm = true → Does (.exclusiveFrameReturn f) s (fun m =>
            (stationAt m h.stn).seenScn = scn s.m ∧ (stationAt m h.stn).restrictive = x.restrictive ∧
            (∀ j, j ≠ h.stn → stationAt m j = stationAt s.m j) ∧ m.ln = s.m.ln ∧
            (0 < x.ilen → m.str.offered.head? = some x.input) ∧ (x.ilen = 0 → m.str.offered = s.m.str.offered) ∧ SameImages s.m m)) ∧
        (expected s.m (stationAt s.m h.stn).sentAt f h = true → h.payload.length ≠ 76 + d.outLen + d.inLen ∨ d.inLen < x.ilen →
          Does (.exclusiveFrameReturn f) s (fun m => m.str = s.m.str ∧ m.ln = s.m.ln ∧ m.host = s.m.host)) ∧
        (expected s.m (stationAt s.m h.stn).sentAt f h = false → Does (.exclusiveFrameReturn f) s (fun m =>
          m.str.fsend = satN 0xFFFF (s.m.str.fsend + 1) ∧ (stationAt m h.stn).seenScn = (stationAt s.m h.stn).seenScn ∧
          m.str.offered = s.m.str.offered ∧ m.ln = s.m.ln)))) ∧
    (∀ (i : Fin 4) at_, sends s.m i.val = true → nextWindow s.m i.val 1 (segAt s.m i.val).bidSent = some at_ → sendsAt at_ s.m i.val = true → t = passTo at_ s.m →
      Does (.bidWindowSend i) s (fun m =>
        (segAt m i.val).bid = 0xFFFFFFFF#32 ∧ (segAt m i.val).gotMsg = false ∧ (segAt m i.val).bidSent = at_ + 1 ∧
        ((segAt s.m i.val).bid = 0xFFFFFFFF#32 ∨ transitBad s.m i.val = true → (segAt m i.val).grant = 0) ∧
        ((segAt s.m i.val).bid ≠ 0xFFFFFFFF#32 → transitBad s.m i.val = false →
          (segAt m i.val).grant = fieldOf (segAt s.m i.val).bid.toNat 19 10 ∧ (segAt m i.val).grantMid = fieldOf (segAt s.m i.val).bid.toNat 0 16) ∧
        (segAt m i.val).ackStn = (if (segAt s.m i.val).gotMsg then (segAt s.m i.val).grant else 0) ∧
        (segAt m i.val).ackMid = (if (segAt s.m i.val).gotMsg then (segAt s.m i.val).grantMid else 0) ∧
        (∀ b, usesEnd t i.val b = true → tabFind (segAt m i.val).out (2 * sBid + b2n b) = some (frameOut t i.val sBid at_ b false 0
          (bidBytes (segAt m i.val).grant (segAt m i.val).grantMid (segAt m i.val).ackStn (segAt m i.val).ackMid))) ∧ m.ln = t.ln ∧ SameImages s.m m)) ∧
    (∀ f h x, usesEnd s.m f.port.seg.val (sideB f.port.side) = true → fcsGood f.bytes = true → sRead f.bytes = some h → h.kind = sBid →
      x = bidOf h.payload →
      (expected s.m (lastSent (segAt s.m f.port.seg.val).bidSent) f h = true → Does (.bidFrameReturn f) s (fun m =>
        (segAt m f.port.seg.val).bid.toNat = min x.bid.toNat (segAt s.m f.port.seg.val).bid.toNat ∧
        ((segAt s.m f.port.seg.val).grant ≠ 0 → 1 ≤ x.mlen → x.mlen ≤ 256 →
          (segAt m f.port.seg.val).gotMsg = true ∧ m.str.offered.head? = some x.msg) ∧
        ((segAt s.m f.port.seg.val).grant = 0 → m.str.offered = s.m.str.offered) ∧ m.ln = s.m.ln ∧ SameImages s.m m)) ∧
      (expected s.m (lastSent (segAt s.m f.port.seg.val).bidSent) f h = false → Does (.bidFrameReturn f) s (fun m =>
        m.str.fsend = satN 0xFFFF (s.m.str.fsend + 1) ∧ (segAt m f.port.seg.val).bid = (segAt s.m f.port.seg.val).bid ∧
        m.str.offered = s.m.str.offered ∧ m.ln = s.m.ln)))

/-- ENTRY_WINDOW_SEND, ENTRY_FRAME_RETURN, CAPABILITY_TIMEOUT, STATION_LOST (R318, R322, R323, R543): an entry frame leaves at its window;
a claim is admitted or refused; a station without its record, or silent, loses its admission.
Readings: log entries 3, 47, 56. -/
def Obligations.StationEntry : Prop :=
  ∀ (s : State) (n : Nat), s.m.powered = true → FourOfEach s.m →
    (∀ (i : Fin 4) at_, sends s.m i.val = true → nextWindow s.m i.val 2 (segAt s.m i.val).entrySent = some at_ → sendsAt at_ s.m i.val = true → Does (.entryWindowSend i) s (fun m =>
      (segAt m i.val).entrySent = at_ + 1 ∧
      (s.m.up.oc.state = 0 → ∀ b, usesEnd s.m i.val b = true → tabFind (segAt m i.val).out (2 * sEntry + b2n b) =
        some (frameOut s.m i.val sEntry at_ b false 0 entryBytes)) ∧
      (∀ j, j ≠ i.val → segAt m j = segAt s.m j) ∧ m.str.stations = s.m.str.stations ∧ SameImages s.m m)) ∧
    (∀ f h, usesEnd s.m f.port.seg.val (sideB f.port.side) = true → fcsGood f.bytes = true → sRead f.bytes = some h → h.kind = sEntry →
      expected s.m (lastSent (segAt s.m f.port.seg.val).entrySent) f h = false → Does (.entryFrameReturn f) s (fun m =>
        m.str.fsend = satN 0xFFFF (s.m.str.fsend + 1) ∧ (stationAt m n).adm = (stationAt s.m n).adm ∧ m.ln = s.m.ln)) ∧
    (∀ f h e (d : StationDesc), usesEnd s.m f.port.seg.val (sideB f.port.side) = true → fcsGood f.bytes = true → sRead f.bytes = some h →
      h.kind = sEntry → expected s.m (lastSent (segAt s.m f.port.seg.val).entrySent) f h = true →
      (entrySlots h.payload).filter (fun x => x.identity != BitVec.ofNat 64 (2 ^ 64 - 1)) = [e] →
      stationDesc s.m e.claimed = some d → d.identity = e.identity → d.seg = f.port.seg.val → d.num = e.claimed →
      d.pos = (if h.fromB then (segStations s.m f.port.seg.val).length + 1 - e.hops else e.hops) → (stationAt s.m e.claimed).adm = false → Does (.entryFrameReturn f) s (fun m =>
        (stationAt m e.claimed).adm = true ∧ (stationAt m e.claimed).admScn = scn s.m + 1 ∧ (stationAt m e.claimed).identity = e.identity ∧
        (stationAt m e.claimed).capDone = false ∧ (stationAt m e.claimed).fw = e.firmware.toNat ∧ (∀ j, j ≠ e.claimed → stationAt m j = stationAt s.m j) ∧ m.ln = s.m.ln ∧ SameImages s.m m)) ∧
    (∀ f h e, usesEnd s.m f.port.seg.val (sideB f.port.side) = true → fcsGood f.bytes = true → sRead f.bytes = some h → h.kind = sEntry →
      expected s.m (lastSent (segAt s.m f.port.seg.val).entrySent) f h = true →
      (entrySlots h.payload).filter (fun x => x.identity != BitVec.ofNat 64 (2 ^ 64 - 1)) = [e] →
      stationDesc s.m e.claimed = none → s.m.net.stations.any (fun d => ((stationDesc s.m d.num).map (·.identity)) == some e.identity) = false → Does (.entryFrameReturn f) s (fun m =>
        m.str.refusedN = satN 255 (s.m.str.refusedN + 1) ∧ m.str.reason = 1 ∧ m.str.refStn = e.claimed ∧ m.str.stations = s.m.str.stations ∧
        m.ln = s.m.ln ∧ SameImages s.m m)) ∧
    ((stationAt s.m n).adm = true → (stationAt s.m n).capDone = false → Does (.capabilityTimeout n) s (fun m =>
      (stationAt m n).adm = false ∧ m.str.reason = 4 ∧ m.str.refStn = n ∧ (∀ j, j ≠ n → stationAt m j = stationAt s.m j) ∧ SameImages s.m m)) ∧
    ((stationAt s.m n).adm = true → Does (.stationLost n) s (fun m =>
      (stationAt m n).adm = false ∧ (∀ j, j ≠ n → stationAt m j = stationAt s.m j) ∧
      TellsAlone 0x87 { src := 4, arg0 := n } (passTo ((max (stationAt s.m n).seenScn ((stationAt s.m n).admScn - 1) + lostCyc s.m + 1) * 20000000) s.m) m ∧
      SameImages s.m m))

/-- MEASURE_WINDOW (R319, R580): link delay requests leave, and the diagnostics of the SFP modules are read. LINK_DELAY_REQUEST,
LINK_DELAY_RESPONSE (R319), SCHEDULE_SWITCH_DECISION, SCHEDULE_SWITCH_APPLIED (R329).
Readings: log entries 3, 47, 56. -/
def Obligations.LinksAndSchedules : Prop :=
  ∀ (s : State) (p : Port) (t : Mod), s.m.powered = true → FourOfEach s.m →
    (∀ i, i < 4 → s.m.tm.taken = true → mayStride (now s.m) s.m = true → t = toPhase 21 14700 s.m → Does .measureWindow s (fun m =>
      (endSends (scn t * 20000000 + 14700000) t i = true → (segAt m i).measAt = some (scn t * 20000000 + 14700000) ∧
        ∀ b, usesEnd t i b = true → tabFind (segAt m i).out (2 * sDelayReq + b2n b) =
          some (frameOut t i sDelayReq (scn t * 20000000 + 14700000) b false 0 (delayReqBytes (scn t * 20000000 + 14700000)))) ∧
      (∀ k, k < 8 → tabFind m.str.diag k = some (portRecord t k (Config.sfpDiagnostics k t.freeN))) ∧
      (endSends (scn t * 20000000 + 14700000) t i = false → segAt m i = segAt t i) ∧ m.ln = t.ln ∧ SameImages s.m m)) ∧
    (∀ rx bytes x, usesEnd s.m p.seg.val (sideB p.side) = true → fcsGood bytes = true → sRead bytes = some x → x.kind = sDelayReq →
      endSends (now s.m) s.m p.seg.val = true → Does (.linkDelayRequest p { rx := rx, bytes := bytes }) s (fun m =>
        (segAt m p.seg.val).answers = (segAt s.m p.seg.val).answers + 1 ∧ (segAt m p.seg.val).answerTurn ≤ 5000 ∧
        (∃ o, tabFind (segAt m p.seg.val).out (2 * sDelayRsp + b2n (sideB p.side)) = some o ∧
          o = frameOut s.m p.seg.val sDelayRsp (rx + (segAt m p.seg.val).answerTurn) (sideB p.side) false 0
            (delayRspBytes (segAt m p.seg.val).answerTurn)) ∧
        { m with str := s.m.str, pc := s.m.pc, freeN := s.m.freeN } = s.m)) ∧
    (∀ rx bytes x t1 d, p.side = .b → usesEnd s.m p.seg.val true = true → fcsGood bytes = true → sRead bytes = some x → x.kind = sDelayRsp →
      (segAt s.m p.seg.val).measAt = some t1 → d = (rx - t1 - delayRspOf x.payload) / 2 →
      Does (.linkDelayResponse p rx bytes) s (fun m =>
        (segAt m p.seg.val).delaysB = (d :: (segAt s.m p.seg.val).delaysB).take 8 ∧
        (segAt m p.seg.val).medB = medianNat ((d :: (segAt s.m p.seg.val).delaysB).take 8) ∧
        (segAt m p.seg.val).delaysA = (segAt s.m p.seg.val).delaysA ∧ m.ln = s.m.ln ∧ SameImages s.m m)) ∧
    (operating s.m = true → s.m.str.swPend = true → s.m.str.swConf = false → t = passTo ((s.m.str.swScn - 1) * 20000000 + 1000000) s.m →
      ((∀ e ∈ s.m.str.stations, admThroughout e.2 (s.m.str.swScn - 2) = true → e.2.ackScn = some (s.m.str.swScn - 2)) →
        Does .scheduleSwitchDecision s (fun m => m = updStr (fun x => { x with swConf := true }) t)) ∧
      ((∃ e ∈ s.m.str.stations, admThroughout e.2 (s.m.str.swScn - 2) = true ∧ e.2.ackScn ≠ some (s.m.str.swScn - 2)) →
        Does .scheduleSwitchDecision s (fun m =>
          m.str.swPend = false ∧ m.str.aband = satN 255 (s.m.str.aband + 1) ∧ m.str.sched = s.m.str.sched ∧ m.str.swSub = none ∧ SameImages s.m m))) ∧
    (operating s.m = true → s.m.str.swPend = true → s.m.str.swConf = true → Does .scheduleSwitchApplied s (fun m =>
      m.str.sched = s.m.str.swNext ∧ m.str.swPend = false ∧ m.str.swConf = false ∧ m.str.applied = satN 255 (s.m.str.applied + 1) ∧ SameImages s.m m))

/-- TELEGRAM_COPY_RECEIVED (R358-R360, R367): a lane counts each copy in exactly one class by the first step that fails; a copy that passes
every step becomes the newest it holds. No other lane changes.
Readings: log entry 25. -/
def Obligations.TelegramsAreCounted : Prop :=
  ∀ (s : State) (l : LaneId) (tel : List Byte) (medium seg n : Nat) (k : TelCheck), s.m.powered = true → operating s.m = true →
    (s.m.ln.get l).alive = true → (s.m.ln.get l).feLost = false → k = checkTel s.m (s.m.ln.get l) (s.m.ln.get l).time false tel →
    n = (k.conn.map (·.num)).getD noConn →
    (k.step = 0 → Does (.telegramCopyReceived l tel medium seg) s (fun m =>
      (btnOf (m.ln.get l) n).recv = (btnOf (s.m.ln.get l) n).recv + 1 ∧ (btnOf (m.ln.get l) n).newest = some { seq := k.full, tel := tel } ∧
      (btnOf (m.ln.get l) n).prev = (btnOf (s.m.ln.get l) n).newest ∧ (btnOf (m.ln.get l) n).top = some k.full ∧
      (btnOf (m.ln.get l) n).dup = (btnOf (s.m.ln.get l) n).dup ∧ (btnOf (m.ln.get l) n).late = (btnOf (s.m.ln.get l) n).late ∧
      (∀ x, x ≠ l → m.ln.get x = s.m.ln.get x) ∧ m.bt = s.m.bt ∧ SameImages s.m m)) ∧
    (k.step = 4 → Does (.telegramCopyReceived l tel medium seg) s (fun m =>
      (btnOf (m.ln.get l) n).sealf = (btnOf (s.m.ln.get l) n).sealf + 1 ∧ (btnOf (m.ln.get l) n).newest = (btnOf (s.m.ln.get l) n).newest ∧
      (∀ x, x ≠ l → m.ln.get x = s.m.ln.get x) ∧ SameImages s.m m)) ∧
    (k.step = 5 → Does (.telegramCopyReceived l tel medium seg) s (fun m =>
      (btnOf (m.ln.get l) n).epmis = (btnOf (s.m.ln.get l) n).epmis + 1 ∧ (btnOf (m.ln.get l) n).newest = (btnOf (s.m.ln.get l) n).newest ∧
      (∀ x, x ≠ l → m.ln.get x = s.m.ln.get x) ∧ SameImages s.m m)) ∧
    (k.step = 7 → Does (.telegramCopyReceived l tel medium seg) s (fun m =>
      (btnOf (m.ln.get l) n).dup = (btnOf (s.m.ln.get l) n).dup + 1 ∧ (btnOf (m.ln.get l) n).recv = (btnOf (s.m.ln.get l) n).recv ∧
      (∀ x, x ≠ l → m.ln.get x = s.m.ln.get x) ∧ SameImages s.m m)) ∧
    (k.step = 8 ∨ k.step = 9 → Does (.telegramCopyReceived l tel medium seg) s (fun m =>
      (btnOf (m.ln.get l) n).late = (btnOf (s.m.ln.get l) n).late + 1 ∧ (btnOf (m.ln.get l) n).newest = (btnOf (s.m.ln.get l) n).newest ∧
      (∀ x, x ≠ l → m.ln.get x = s.m.ln.get x) ∧ SameImages s.m m))

/-! ## CAN FD (R378-R402) -/

/-- SYNC_SLOT (R388): the sync frame and its bytes. NODE_SLOT and VITAL_ENTRY_ABORTED (R385, R396), CAN_FRAME_SENT (R396, R399), HOST_ENTRY_LIFETIME_EXPIRED (R399),
BIT_TIMING_WRITE (R380, R413).
Readings: log entries 3, 27, 59. -/
def Obligations.CanSending : Prop :=
  ∀ (s : State) (n : Fin 4) (t : Mod), s.m.powered = true → FourOfEach s.m →
    (canSends s.m n.val = true → t = toBasic (4000 + n.val) 0 s.m → Does (.syncSlot n) s (fun m =>
      (∃ d, d < 1000 * syncUs (chanOf t n.val).bt (chanOf t n.val).dt ∧ (chanOf m n.val).syncSent = some (now t + d)) ∧
      (∃ f, (chanOf m n.val).syncOut = some f ∧ f.ident = rankOf t ∧ f.fd = true ∧ f.bytes.length = 32 ∧ readBE f.bytes 0 8 = scn t % 2 ^ 64 ∧
        readBE f.bytes 8 8 = ((chanOf t n.val).syncSent.getD 0) % 2 ^ 64 ∧ byteAt f.bytes 16 = bcn t + 4 * rankOf t + 8 * b2n (leads t) ∧
        byteAt f.bytes 17 = modeCode (mode t)) ∧
      (∀ j, j ≠ n.val → chanOf m j = chanOf t j) ∧ m.ln = t.ln ∧ SameImages s.m m)) ∧
    (canSends s.m n.val = false → Does (.syncSlot n) s (fun m => m = s.m)) ∧
    (∀ num d o, nodeDesc s.m num = some d → d.chan = n.val → canSends s.m n.val = true → t = toNext (5000 + num) d.slot s.m →
      nodeServed t num = true → scn t % d.per = d.ofs → outFor t 1 num = some o → Does (.nodeSlot num) s (fun m =>
        (chanOf m n.val).vital.getLast? = some { num := num, ident := 0x40 + 64 * rankOf t + d.addr, tel := o.tel, scn := scn t, started := false } ∧ m.ln = t.ln ∧ SameImages s.m m)) ∧
    (∀ num d v, nodeDesc s.m num = some d → d.chan = n.val → (chanOf s.m n.val).vital.find? (fun e => e.num == num) = some v → v.started = false →
      Does (.vitalEntryAborted num false) s (fun m =>
        (∀ e ∈ (chanOf m n.val).vital, e.num ≠ num) ∧ (chanOf m n.val).abort_ = satN 255 ((chanOf s.m n.val).abort_ + 1) ∧ SameImages s.m m) ∧
      Does (.vitalEntryAborted num true) s (fun m =>
        (∀ e ∈ (chanOf m n.val).vital, e.num = num → e.started = true) ∧ (chanOf m n.val).abort_ = (chanOf s.m n.val).abort_ ∧ SameImages s.m m)) ∧
    (∀ num brs tdcv, chanUp s.m n.val = true → (chanOf s.m n.val).vital.any (fun v => v.num == num) = true →
      Does (.canFrameSent n (.vital num) brs tdcv) s (fun m =>
        (∀ e ∈ (chanOf m n.val).vital, e.num ≠ num) ∧ (chanOf m n.val).tec = (chanOf s.m n.val).tec - 1 ∧
        tabGet 0 m.pc.sentCan n.val = tabGet 0 s.m.pc.sentCan n.val + 1 ∧ m.ln = s.m.ln ∧ SameImages s.m m)) ∧
    (∀ (b : Fin 16) brs tdcv, chanUp s.m n.val = true → (hostTx s.m n.val b.val).state = 1 ∨ (hostTx s.m n.val b.val).state = 2 →
      Does (.canFrameSent n (.hostBuf b.val) brs tdcv) s (fun m =>
        (hostTx m n.val b.val).state ≠ 1 ∧ (hostTx m n.val b.val).state ≠ 2 ∧ (chanOf m n.val).tec = (chanOf s.m n.val).tec - 1 ∧ SameImages s.m m)) ∧
    (∀ b : Fin 16, (hostTx s.m n.val b.val).state = 1 ∨ (hostTx s.m n.val b.val).state = 2 →
      Does (.hostEntryLifetimeExpired n b) s (fun m =>
        ((hostTx m n.val b.val).state = 3 ∨ (hostTx m n.val b.val).state = 0) ∧ m.clk = max s.m.clk (hostTx s.m n.val b.val).deadline ∧
        (∀ j, j ≠ b.val → (hostTx m n.val j).state = (hostTx s.m n.val j).state) ∧ SameImages s.m m)) ∧
    (∀ val, s.m.host.run = false → timingOk (chanNodes s.m n.val) val ((chanOf s.m n.val).dtNext.getD (chanOf s.m n.val).dt) = true →
      (s.m.md.mode = .start → Does (.bitTimingWrite n false val) s (fun m =>
        (chanOf m n.val).bt = val ∧ (feSettings m).bts[n.val]? = some ((chanOf m n.val).btNext.getD val) ∧ m.host = s.m.host ∧ m.ln = s.m.ln)) ∧
      (s.m.md.mode = .commission → Does (.bitTimingWrite n false val) s (fun m =>
        (chanOf m n.val).bt = (chanOf s.m n.val).bt ∧ (chanOf m n.val).btNext = some val ∧ (feSettings m).bts[n.val]? = some val ∧ m.host = s.m.host))) ∧
    (∀ data val, s.m.host.run = true → Does (.bitTimingWrite n data val) s (fun m =>
      m.can = s.m.can ∧ m.nv = s.m.nv ∧ m.host.discN = satN 0xFFFF (s.m.host.discN + 1)))

/-- CAN_FRAME_RECEIVED (R378, R382, R392), DISCOVERY_REQUEST, DISCOVERY_RESPONSE, PARTNER_ADMISSION_FRAME, NODE_LOST (R393, R394),
ERROR_PASSIVE, BUS_OFF, BUS_OFF_RECOVERED (R401).
Readings: log entries 3, 46, 59. -/
def Obligations.CanReceivingAndNodes : Prop :=
  ∀ (s : State) (n : Fin 4) (num : Nat) (d : NodeDesc), s.m.powered = true → FourOfEach s.m →
    (∀ f : CanFrame, chanUp s.m n.val = true → f.res = true → Does (.canFrameReceived n f) s (fun m =>
      (chanOf m n.val).errors = (chanOf s.m n.val).errors + 1 ∧ (chanOf m n.val).integ = some s.m.clk ∧ chanUp m n.val = false ∧ (∀ j, j ≠ n.val → chanOf m j = chanOf s.m j) ∧ { m with can := s.m.can } = s.m)) ∧
    (∀ (f : CanFrame) a, chanUp s.m n.val = true → f.res = false → f.extended = false → f.remote = false → f.fd = true →
      nodeDesc s.m (nodeNum n.val a) = some d →
      (classOf f.ident = .input a ∧ f.bytes.length = 32 + d.dlen1) ∨ (classOf f.ident = .event a ∧ f.bytes.length ∈ [32, 48, 64]) → Does (.canFrameReceived n f) s (fun m =>
        m.str.offered.head? = some f.bytes ∧ (chanOf m n.val).discarded = (chanOf s.m n.val).discarded ∧
        tabGet 0 m.pc.rcvdCan n.val = tabGet 0 s.m.pc.rcvdCan n.val + 1 ∧ m.ln = s.m.ln ∧ SameImages s.m m)) ∧
    (∀ f : CanFrame, chanUp s.m n.val = true → f.res = false → f.extended = true ∨ f.remote = true ∨ classOf f.ident = .zl3 → Does (.canFrameReceived n f) s (fun m =>
        m.str.offered = s.m.str.offered ∧ (chanOf m n.val).discarded = (chanOf s.m n.val).discarded + 1 ∧ m.ln = s.m.ln ∧ SameImages s.m m)) ∧
    (canSends s.m n.val = true → leads s.m = true → Does (.discoveryRequest n) s (fun m =>
      (chanOf m n.val).discAt = some (scn m) ∧
      (∃ f, (chanOf m n.val).discOut = some f ∧ f.ident = 0x7F0 + rankOf s.m ∧ f.fd = true ∧ f.bytes.length = 8) ∧
      m.can.nodes = s.m.can.nodes ∧ SameImages s.m m)) ∧
    (∀ f, discOf f = none → Does (.discoveryResponse { chan := n, frame := f }) s (fun m => m = s.m)) ∧
    (∀ f r, discOf f = some r → num = nodeNum n.val r.address → canSends s.m n.val = true → leads s.m = true →
      (discRefusal s.m n.val r = 0 → Does (.discoveryResponse { chan := n, frame := f }) s (fun m =>
        (chanOf m n.val).admitOut = some (admitFrame s.m num r) ∧ (nodeAt m num).adm = true ∧ (nodeAt m num).admScn = scn s.m + 1 ∧ (nodeAt m num).identity = r.identity ∧
        (∀ j, j ≠ num → nodeAt m j = nodeAt s.m j) ∧ m.ln = s.m.ln ∧ SameImages s.m m)) ∧
      (discRefusal s.m n.val r ≠ 0 → Does (.discoveryResponse { chan := n, frame := f }) s (fun m =>
        (nodeAt m num).adm = (nodeAt s.m num).adm ∧ (∀ j, j ≠ num → nodeAt m j = nodeAt s.m j) ∧
        TellsAlone 0xB1 { src := 4, arg0 := num, arg1 := discRefusal s.m n.val r, arg2 := r.identity.toNat % 2 ^ 32 } s.m m))) ∧
    (∀ addr identity slot h, num = nodeNum n.val addr → h = hearFrame slot.copies s.m → nodeDesc h num = some d → h.pr.role = 2 →
      partnerUp h = true → copiesOk slot.copies = true →
      (d.slot = slot.content → Does (.partnerAdmissionFrame n addr identity slot) s (fun m =>
        (nodeAt m num).adm = true ∧ (nodeAt m num).identity = identity ∧ { m with can := h.can } = h)) ∧
      (d.slot ≠ slot.content → Does (.partnerAdmissionFrame n addr identity slot) s (fun m => m = h))) ∧
    (nodeDesc s.m num = some d → (nodeAt s.m num).adm = true → Does (.nodeLost num) s (fun m =>
      (nodeAt m num).adm = false ∧ (∀ j, j ≠ num → nodeAt m j = nodeAt s.m j) ∧
      TellsAlone 0xB2 { src := 4, arg0 := num } (passTo ((nodeGood s.m num + cLost s.m * d.per + 1) * 20000000) s.m) m ∧ SameImages s.m m)) ∧
    (∀ tec rec_, chanUp s.m n.val = true → (chanOf s.m n.val).state = 0 → 127 < tec ∨ 127 < rec_ → Does (.errorPassive n tec rec_) s (fun m =>
      (chanOf m n.val).state = 1 ∧ (∀ j, j ≠ n.val → chanOf m j = chanOf s.m j) ∧ TellsAlone 0xB3 { src := 4, arg0 := n.val } s.m m)) ∧
    (chanUp s.m n.val = true → Does (.busOff n) s (fun m =>
      (chanOf m n.val).state = 2 ∧ (chanOf m n.val).vital = [] ∧ (∀ b, (hostTx m n.val b).state ≠ 1 ∧ (hostTx m n.val b).state ≠ 2) ∧
      (∀ j, j ≠ n.val → (chanOf m j).state = (chanOf s.m j).state ∧ (chanOf m j).vital = (chanOf s.m j).vital) ∧ m.ln = s.m.ln ∧ SameImages s.m m)) ∧
    ((chanOf s.m n.val).state = 2 → Does (.busOffRecovered n) s (fun m =>
      (chanOf m n.val).state = 0 ∧ (chanOf m n.val).tec = 0 ∧ (chanOf m n.val).rec_ = 0 ∧ TellsAlone 0xB5 { src := 4, arg0 := n.val } s.m m))

/-! ## The host interface (R13, R40-R44, R411-R431, R443-R451) -/

/-- REGISTER_WRITE: with RUN 1 every write but one to HIFRST is discarded and told; with RUN 0 a ring descriptor takes its fields, and a
settings register takes what its rule makes of the value, stored in every supplied lane, in START and COMMISSION only (R12, R13, R413,
R421).
Readings: log entry 16. -/
def Obligations.RegisterWrites : Prop :=
  ∀ (s : State) (off : Nat) (val : W32), s.m.powered = true →
    (s.m.host.run = true → off ≠ 0x0008 → Does (.registerWrite off val) s (fun m =>
      m.host.discN = satN 0xFFFF (s.m.host.discN + 1) ∧ ToldOnly s.m m ∧ TellsAlone 0xC2 { src := 4, arg2 := off } s.m m)) ∧
    (∀ i, i < 96 → s.m.host.run = false →
      (off = 0x1000 + 32 * i → Does (.registerWrite off val) s (fun m =>
        ringOf m i = { ringOf s.m i with basel := val } ∧ (∀ j, j ≠ i → ringOf m j = ringOf s.m j) ∧ { m with host := s.m.host } = s.m)) ∧
      (off = 0x1000 + 32 * i + 16 → Does (.registerWrite off val) s (fun m =>
        ringOf m i = { ringOf s.m i with en := bitOf val.toNat 31, log2n := fieldOf val.toNat 20 4, cls := bitOf val.toNat 15,
                                         target := fieldOf val.toNat 8 5 } ∧
        (∀ j, j ≠ i → ringOf m j = ringOf s.m j) ∧ { m with host := s.m.host } = s.m)) ∧
      (off = 0x1000 + 32 * i + 20 → Does (.registerWrite off val) s (fun m => m = s.m))) ∧
    (∀ c, s.m.host.run = false → newSettings off val s.m.cfg = some (some c) →
      (s.m.md.mode = .start ∨ s.m.md.mode = .commission → Does (.registerWrite off val) s (fun m =>
        m.cfg = c ∧ (∀ l, (s.m.ln.get l).supplied = true → (s.m.ln.get l).nv.flashOk = true →
          (if runProg s.m = 0 then (m.ln.get l).nv.area0.stored else (m.ln.get l).nv.area1.stored) = some c) ∧
        { m with cfg := s.m.cfg, ln := s.m.ln } = s.m)) ∧
      (s.m.md.mode ≠ .start → s.m.md.mode ≠ .commission → Does (.registerWrite off val) s (fun m =>
        m.cfg = s.m.cfg ∧ m.ln = s.m.ln ∧ m.host.discN = satN 0xFFFF (s.m.host.discN + 1))))

/-- HIFCTL_RUN (R422), HIFCTL_MIRROR (R417), HIFLACC_READ and HIFEVP_READ (R415), FPROD_READ (R517), PCIE_LINK_DEGRADED (R410),
HOST_RING_MEMORY_INVALID (R40, R41): the counts stand and are recorded. MSIX_VECTOR_UNMASKED (R431).
Readings: log entries 16, 35, 62. -/
def Obligations.SetUpAndReads : Prop :=
  ∀ (s : State), s.m.powered = true →
    (s.m.host.run = false → setupError s.m = 0 → Does .hifctlRun s (fun m =>
      m.host.run = true ∧ m.host.valid = true ∧ m.host.seterr = 0 ∧ ToldOnly s.m m ∧
      (s.m.host.resetTold = false → TellsAlone 0xC0 { src := 4 } s.m m))) ∧
    (s.m.host.run = false → setupError s.m ≠ 0 → Does .hifctlRun s (fun m =>
      m = updHost (fun h => { h with seterr := setupError s.m }) s.m)) ∧
    (∀ on, s.m.host.run = false → Does (.hifctlMirror on) s (fun m => m = updHost (fun h => { h with mirror := on }) s.m)) ∧
    Does .hiflaccRead s (fun m =>
      m = updHost (fun h => { h with readData := h.acc, latCmp := h.cmp, latOut := h.acc - h.cmp }) s.m) ∧
    Does .hifevpRead s (fun m => m = updHost (fun h => { h with readData := h.evp, latEvd := h.evd, latEvl := h.evl }) s.m) ∧
    (∀ f : Fin 13, Does (.fprodRead f) s (fun m =>
      m.host.readData = (fifoCounts s.m f.val).1 ∧ (tabGet DiagFifo.fresh m.host.dfifo f.val).latDeliv = (fifoCounts s.m f.val).2.1 ∧
      (tabGet DiagFifo.fresh m.host.dfifo f.val).latLost = (fifoCounts s.m f.val).2.2 ∧ { m with host := s.m.host } = s.m)) ∧
    (∀ speed width, Does (.pcieLinkDegraded speed width) s (fun m =>
      m.host.lspeed = speed ∧ m.host.lwidth = width ∧ ToldOnly s.m m ∧
      (speed < 3 ∨ width < 4 → TellsAlone 0xC7 { src := 4 } s.m m) ∧ (3 ≤ speed → 4 ≤ width → m.rcd = s.m.rcd))) ∧
    (∀ c, s.m.host.valid = true → Does (.hostRingMemoryInvalid c) s (fun m =>
      m.host.valid = false ∧ m.host.invcause = causeNo c ∧ m.host.acc = s.m.host.acc ∧ m.host.cmp = s.m.host.cmp ∧
      m.host.waiting = s.m.host.waiting ∧ m.host.open_ = s.m.host.open_ ∧
      (s.m.rcd.stopped = false → s.m.rcd.unusable = false → m.nv.store.ledgers = ledgerCounts s.m :: s.m.nv.store.ledgers) ∧
      { m.nv with store := { m.nv.store with ledgers := s.m.nv.store.ledgers } } = s.m.nv ∧
      { m with host := s.m.host, rcd := s.m.rcd, nv := s.m.nv } = s.m)) ∧
    (∀ e : MsixWrite, Does (.msixVectorUnmasked e) s (fun m =>
      (tabGet Vector32.fresh m.host.vecs e.vec.val).masked = false ∧ (tabGet Vector32.fresh m.host.vecs e.vec.val).pba = false ∧
      (tabGet Vector32.fresh m.host.vecs e.vec.val).addr = e.addr ∧ (tabGet Vector32.fresh m.host.vecs e.vec.val).data = e.data ∧
      ((tabGet Vector32.fresh s.m.host.vecs e.vec.val).pba = true → (tabGet Vector32.fresh m.host.vecs e.vec.val).due = true) ∧
      { m with host := s.m.host } = s.m))

/-- DOORBELL_POLL: a doorbell or an acknowledgement is taken, a bad one faults its ring, and a published entry is consumed
and read from its 64 bytes (R424-R428, R432); SUBMISSION_RING_HELD (R427), EVENT_FIFO_DRAIN (R44, R447), STATE_MIRROR_WRITE (R448-R450), CRITICAL_PENDING_EXPIRED (R443).
Readings: log entries 3, 44, 45. -/
def Obligations.RingsAtWork : Prop :=
  ∀ (s : State) (t : Mod), s.m.powered = true →
    (t = toPoll s.m → ledgerUp s.m = false → ∀ ws es, Does (.doorbellPoll ws es) s (fun m => m = t)) ∧
    (t = toPoll s.m → ledgerUp s.m = true → ∀ (i : Fin 96) w, (ringOf t i.val).en = true → (ringOf t i.val).fault = false →
      (32 ≤ i.val → diff32 w (ringOf t i.val).ack ≤ diff32 (ringOf t i.val).count (ringOf t i.val).ack →
        Does (.doorbellPoll [(i, w)] []) s (fun m => (ringOf m i.val).ack = w ∧ (ringOf m i.val).fault = false ∧
          (ringOf m i.val).count = (ringOf t i.val).count ∧ m.ln = t.ln ∧ SameImages s.m m)) ∧
      (32 ≤ i.val → diff32 (ringOf t i.val).count (ringOf t i.val).ack < diff32 w (ringOf t i.val).ack →
        Does (.doorbellPoll [(i, w)] []) s (fun m => (ringOf m i.val).fault = true ∧ (ringOf m i.val).ack = (ringOf t i.val).ack ∧ m.ln = t.ln)) ∧
      (i.val < 32 → ringSize (ringOf t i.val) < diff32 w (ringOf t i.val).count →
        Does (.doorbellPoll [(i, w)] []) s (fun m => (ringOf m i.val).fault = true ∧ (ringOf m i.val).count = (ringOf t i.val).count)) ∧
      (i.val < 32 → diff32 w (ringOf t i.val).count ≤ ringSize (ringOf t i.val) →
        Does (.doorbellPoll [(i, w)] []) s (fun m => (ringOf m i.val).ack = w ∧ (ringOf m i.val).count = (ringOf t i.val).count))) ∧
    (t = toPoll s.m → ledgerUp s.m = true → ∀ (q : Fin 32) (e : PollEntry), e.sq = q → BitVec.ofNat 32 e.index = (ringOf t q.val).count →
      published t q.val = true → sqOpen t q.val = true → slotLeft t q.val = true → (ringOf t q.val).cls = false →
        Does (.doorbellPoll [] [e]) s (fun m => (ringOf m q.val).count = (ringOf t q.val).count + 1 ∧ subOf e ∈ m.host.waiting ∧
          m.pc.consumed = t.pc.consumed + 1 ∧ m.md.mode = s.m.md.mode ∧ SameImages s.m m)) ∧
    (∀ q : Fin 32, (ringOf s.m q.val).held ≠ 0 → (ringOf s.m q.val).heldTold = false → ledgerUp s.m = true → Does (.submissionRingHeld q) s (fun m =>
      (ringOf m q.val).heldTold = true ∧ (ringOf m q.val).count = (ringOf s.m q.val).count ∧ SameImages s.m m)) ∧
    (∀ (eq : Fin 16) e, s.m.host.fifo = [e] → e.eq = eq.val → tabFind s.m.host.lossQ eq.val = none → ringRoom s.m (64 + eq.val) = true →
      Does (.eventFifoDrain eq) s (fun m => m.host.fifo = [] ∧ (ringOf m (64 + eq.val)).count = (ringOf s.m (64 + eq.val)).count + 1 ∧
        { m with host := s.m.host } = s.m)) ∧
    (∀ eq : Fin 16, ringRoom s.m (64 + eq.val) = false → Does (.eventFifoDrain eq) s (fun m => m = s.m)) ∧
    (s.m.host.mirror = true → ledgerUp s.m = true → s.m.tm.taken = true → operating s.m = true →
      (t = passTo (scn (toMirror s.m) * 20000000 + 19500000) (toMirror s.m) → Does (.stateMirrorWrite true) s (fun m =>
        m.host.mscn = some (scn t) ∧ m.host.mirrorMode = modeCode (mode t) ∧ m.host.mirrorVset = (vsetOf t).bits ∧ m.ln = t.ln ∧ SameImages s.m m)) ∧
      Does (.stateMirrorWrite false) s (fun m => m.host.mscn = s.m.host.mscn ∧ m.host.mirrorMode = s.m.host.mirrorMode ∧ SameImages s.m m)) ∧
    (∀ term x, tabFind s.m.host.crit term = some x → Does (.criticalPendingExpired term) s (fun m =>
      tabFind m.host.crit term = none ∧ (∀ j, j ≠ term → tabFind m.host.crit j = tabFind s.m.host.crit j) ∧ m.md.mode = s.m.md.mode ∧ SameImages s.m m))

/-! ## Pair operation (R54, R194, R455-R484) -/

/-- HELLO sends the module's own report at phase 0 of the basic cycle, from START step 3; HELLO_RECEIVED forms a pair with a module of the right identity,
the other rank, the same build and the same settings, and refuses one of another identity or the same rank (R455, R457, R460);
PARTNER_LINE_LOST, PARTNER_LINE_RESTORED after 1 s of valid frames, PARTNER_LINK_LOST (R100, R456, R462); PARTNER_TELEGRAM (R463); PARTNER_SUBMISSION (R466).
Readings: log entries 3, 36, 62. -/
def Obligations.PartnerLink : Prop :=
  ∀ (s : State) (t k : Mod) (line : Bool) (c : PartnerCopies) (h : Hello), s.m.powered = true → k = hearFrame c s.m →
    (linkFitted s.m = true → s.m.md.mode ≠ .start ∨ 3 ≤ s.m.md.step → t = toBasicFrom 0 22 0 s.m → Does .hello s (fun m =>
      m.pr.helloOut = some (ownHello t) ∧ { m with pr := t.pr } = t ∧ m.pr.role = s.m.pr.role)) ∧
    (s.m.md.mode = .start → s.m.md.step < 3 → Does .hello s (fun m => m = s.m)) ∧
    (copiesOk c = false → Does (.helloReceived c.line0 c.line1 h) s (fun m => m = k)) ∧
    (linkFitted s.m = true → copiesOk c = true → h.identity = s.m.nv.partnerId → h.rank ≠ rankOf s.m → operating s.m = true →
      h.build = s.m.lg.app.build → h.settings = s.m.net.digest → Does (.helloReceived c.line0 c.line1 h) s (fun m =>
        m.pr.found = true ∧ m.pr.pmode = h.mode ∧ m.pr.prole = h.role ∧ m.pr.prank = h.rank ∧ m.fio = s.m.fio ∧ SameImages s.m m ∧
        (s.m.pr.role = 3 → s.m.md.mode = .start → 2 ≤ h.mode → h.role ≤ 1 → m.pr.role = 2 ∧ m.pr.joining = true) ∧
        (∀ l, (m.ln.get l).opened = (s.m.ln.get l).opened))) ∧
    (linkFitted s.m = true → copiesOk c = true → h.identity ≠ s.m.nv.partnerId ∨ h.rank = rankOf s.m → operating s.m = true →
      s.m.pr.refused = false → s.m.pr.role ≠ 1 → Does (.helloReceived c.line0 c.line1 h) s (fun m =>
        m.pr.refused = true ∧ m.pr.found = false ∧ m.pr.role = (if s.m.pr.role = 3 then 0 else s.m.pr.role) ∧
        (s.m.pr.role ≠ 3 → { m with pr := k.pr, host := k.host, rcd := k.rcd } = k ∧ TellsAgreed 0xDB {} k m) ∧
        m.md = s.m.md ∧ m.fio = s.m.fio ∧ m.ln = s.m.ln ∧ SameImages s.m m)) ∧
    (s.m.pr.lines.getLsbD (b2n line) = true → t = passClk (tabGet 0 s.m.pr.lineAt (b2n line) + 20000000) s.m →
      Does (.partnerLineLost line) s (fun m =>
        m.pr.lines.getLsbD (b2n line) = false ∧ m.pr.lines.getLsbD (1 - b2n line) = s.m.pr.lines.getLsbD (1 - b2n line) ∧
        m.pr.role = s.m.pr.role ∧ { m with pr := t.pr, host := t.host, rcd := t.rcd } = t ∧ TellsAlone 0xDD { src := 4, arg0 := b2n line } t m)) ∧
    (∀ t0, linkFitted s.m = true → s.m.pr.lines.getLsbD (b2n line) = false → tabFind s.m.pr.lineSince (b2n line) = some t0 →
      t = passClk (t0 + 1000000000) s.m → Does (.partnerLineRestored line) s (fun m =>
      m.pr.lines.getLsbD (b2n line) = true ∧ m.pr.lines.getLsbD (1 - b2n line) = s.m.pr.lines.getLsbD (1 - b2n line) ∧
      m.pr.linkLost = false ∧ m.pr.role = s.m.pr.role ∧ m.md = t.md ∧ m.ln = t.ln ∧ m.fio = s.m.fio ∧ SameImages s.m m)) ∧
    (tabFind s.m.pr.lineSince (b2n line) = none → Does (.partnerLineRestored line) s (fun m => m = s.m)) ∧
    (s.m.pr.linkLost = false → Does .partnerLinkLost s (fun m =>
      m.pr.linkLost = true ∧ m.pr.lines = 0 ∧ m.pr.chunks = [] ∧ m.pr.role = s.m.pr.role ∧ m.md = s.m.md ∧ m.fio = s.m.fio ∧ SameImages s.m m ∧
      ∀ l, (m.ln.get l).opened = (s.m.ln.get l).opened)) ∧
    (∀ med seg tel, copiesOk c = false ∨ partnerUp k = false → Does (.partnerTelegram c med seg tel) s (fun m => m = k)) ∧
    (∀ med seg tel, copiesOk c = true → partnerUp k = true → Does (.partnerTelegram c med seg tel) s (fun m =>
      m.str.offered = (tel :: s.m.str.offered).take 256 ∧ m.pc.rcvdPartner = s.m.pc.rcvdPartner + 1 ∧ m.pc.fwdPartner = s.m.pc.fwdPartner ∧
      m.ln = s.m.ln ∧ m.bt = s.m.bt ∧ m.md = s.m.md ∧ m.fio = s.m.fio ∧ SameImages s.m m)) ∧
    (∀ (q : Fin 32) sub, sub.src = .ring q → s.m.pr.role = 2 → copiesOk c = true → partnerUp k = true → operating s.m = true →
      feOpcode sub.opc = false → Does (.partnerSubmission { copies := c, content := sub }) s (fun m =>
        m.host.waiting = s.m.host.waiting ++ [{ sub with src := .lead q }] ∧
        (∀ l, (s.m.ln.get l).alive = true → tabGet 0 (m.ln.get l).subIdx (32 + q.val) = BitVec.ofNat 32 (sub.index + 1)) ∧
        (∀ l, (m.ln.get l).opened = (s.m.ln.get l).opened) ∧ { m with ln := k.ln, host := k.host, pr := k.pr } = k)) ∧
    (∀ sub, s.m.pr.role ≠ 2 → Does (.partnerSubmission { copies := c, content := sub }) s (fun m => m = k))

/-- PAIR_LOCAL_IMAGE, PAIR_STATUS, STATE_CHUNK, LEAD_NO_ACKNOWLEDGEMENT (R458, R462, R464, R467, R469): SHADOW takes LEAD's image only
where it is of this cycle and sealed, is in step exactly where the digests agree, and adopts a state only when it is whole; a partner that asks is sent the state.
Readings: log entry 36. -/
def Obligations.PairInStep : Prop :=
  ∀ (s : State) (t k : Mod), s.m.powered = true →
    (serving s.m = true → partnerUp s.m = true → t = toPhaseFrom (pairDue 16 s.m) 16 560 s.m →
      (∀ image, k = hearSome (image.map (·.copies)) t → s.m.pr.role = 2 → Does (.pairLocalImage image) s (fun m =>
        { m with pr := k.pr } = k ∧ m.pr.role = 2 ∧
        (∀ f, image = some f → copiesOk f.copies = true → f.content.scn = scn k → imageSealed k f.content = true → m.pr.image = some f.content) ∧
        (∀ f, image = some f → copiesOk f.copies = false ∨ f.content.scn ≠ scn k ∨ imageSealed k f.content = false → m.pr.image = none) ∧
        (image = none → m.pr.image = none))) ∧
      (∀ image, k = hearSome (image.map (·.copies)) t → s.m.pr.role ≠ 2 → leads s.m = true → Does (.pairLocalImage image) s (fun m =>
        m.pr.imageOut = some (ownImage k) ∧ { m with pr := k.pr } = k))) ∧
    (s.m.nv.paired = true → serving s.m = true → s.m.pr.outgoing = false → t = toPhaseFrom (pairDue 18 s.m) 18 15400 s.m →
      (∀ f, k = hearSome (f.map (·.copies)) t → Does (.pairStatus f) s (fun m => m.pr.statusOut = some (ownStatus k) ∧
        (s.m.pr.pWants = true → partnerUp k = true → s.m.pr.role ≤ 1 → m.stateOut = some (transferOf k)) ∧ m.ln = k.ln ∧ m.fio = s.m.fio ∧
        SameImages s.m m)) ∧
      (∀ f, k = hearFrame f.copies t → s.m.pr.role = 2 → copiesOk f.copies = true → partnerUp k = true → f.content.scn = scn k →
        s.m.pr.adopted = true → s.m.bt.divOut = s.m.pr.divSeen →
        (f.content.var = (ownStatus k).var → f.content.eng = (ownStatus k).eng → f.content.remote = (ownStatus k).remote →
          Does (.pairStatus (some f)) s (fun m => m.pr.instep = true ∧ m.pr.joining = false ∧ m.pr.adopted = true ∧
            (s.m.pr.joining = true → TellsAgreed 0xD1 {} k m))) ∧
        (f.content.var ≠ (ownStatus k).var ∨ f.content.eng ≠ (ownStatus k).eng ∨ f.content.remote ≠ (ownStatus k).remote →
          Does (.pairStatus (some f)) s (fun m => m.pr.instep = false ∧ m.pr.joining = true ∧ m.pr.adopted = false ∧
            m.pr.rejoins = satN 255 (s.m.pr.rejoins + 1) ∧ TellsAgreed 0xD6 {} k m))) ∧
      (∀ f, k = hearFrame f.copies t → s.m.pr.role = 1 → copiesOk f.copies = true → partnerUp k = true → f.content.scn = scn k → f.content.role = 2 →
        Does (.pairStatus (some f)) s (fun m =>
          m.pr.ackScn = some (scn k) ∧ m.pr.noAckTold = false ∧ m.pr.role = 1 ∧ m.md.mode = s.m.md.mode))) ∧
    (∀ idx total copy line tail bytes j x, k = hearFrame { line0 := if line then .absent else copy, line1 := if line then copy else .absent } s.m →
      s.m.md.mode = .shadow → s.m.pr.joining = true → s.m.pr.adopted = false → partnerUp k = true → transferScn k = some j →
      x = Config.leadState ((tabPut k.pr.chunks idx bytes).map (·.2)) →
      (copy = .good → idx < total → line = decide (idx % 2 = 1) → tail.isSome = decide (idx + 1 = total) → k.pr.joinScn = j →
        ((tabPut k.pr.chunks idx bytes).length < total → Does (.stateChunk idx total copy line tail bytes) s (fun m =>
          m.pr.chunks = tabPut k.pr.chunks idx bytes ∧ { m with pr := k.pr } = k ∧ m.pr.adopted = false)) ∧
        (∀ e, total ≤ (tabPut k.pr.chunks idx bytes).length → tail.or k.pr.tail = some e →
          (twoSealed k e.spos e.seal1 e.seal2 (tailBytes j total e.digests (tabGet [] (tabPut k.pr.chunks idx bytes) (total - 1))) = true →
            stateDigests k x = e.digests → Does (.stateChunk idx total copy line tail bytes) s (fun m =>
              m.pr.adopted = true ∧ m.pr.chunks = [] ∧ m.pr.tail = none ∧ m.md.mode = .shadow ∧ m.fio = s.m.fio ∧ m.en.routes = x.routes ∧
              m.md.forces = x.forces ∧ m.md.areas = x.areas ∧ ∀ l, (m.ln.get l).opened = (s.m.ln.get l).opened)) ∧
          (twoSealed k e.spos e.seal1 e.seal2 (tailBytes j total e.digests (tabGet [] (tabPut k.pr.chunks idx bytes) (total - 1))) = false ∨
            stateDigests k x ≠ e.digests → Does (.stateChunk idx total copy line tail bytes) s (fun m =>
              m.pr.adopted = false ∧ m.pr.chunks = [] ∧ m.pr.tail = none ∧ { m with pr := k.pr } = k)))) ∧
      (copy ≠ .good ∨ total ≤ idx ∨ line ≠ decide (idx % 2 = 1) ∨ tail.isSome ≠ decide (idx + 1 = total) →
        Does (.stateChunk idx total copy line tail bytes) s (fun m => m = updPr (fun p => { p with chunks := [], tail := none }) k))) ∧
    (∀ n, s.m.pr.ackScn = some n → s.m.pr.role = 1 → serving s.m = true → s.m.pr.outgoing = false → s.m.pr.noAckTold = false →
      t = passTo ((n + 51) * 20000000 + 1000000) s.m → Does .leadNoAcknowledgement s (fun m =>
        m.pr.noAckTold = true ∧ m.pr.role = 1 ∧ { m with pr := t.pr, host := t.host, rcd := t.rcd } = t ∧ TellsAgreed 0xD2 {} t m))

/-- TAKEOVER_DECISION: SHADOW in step becomes LEAD exactly where row 1 of R474 applies; in another row it stays SHADOW.
OUTGOING_DEADLINE: the outgoing module opens every switch and halts with cause 6 (R472). DRILL_DAY counts the days without driving (R479).
Readings: log entries 3, 36. -/
def Obligations.Takeover : Prop :=
  ∀ (s : State) (t : Mod), s.m.powered = true →
    (s.m.md.mode = .shadow → s.m.pr.instep = true → t = toPhaseFrom (pairDue 17 s.m) 17 560 s.m →
      (swi t 6 = 0 → swi t 7 = 0 → t.pr.pmode ≤ 1 ∨ t.pr.linkLost = true → Does .takeoverDecision s (fun m =>
        m.pr.role = 1 ∧ m.md.mode = leadMode t ∧ m.pr.takeovers = satN 255 (s.m.pr.takeovers + 1) ∧ m.ln = t.ln ∧ SameImages s.m m ∧
        (votes t = true → ∃ e, e ∈ m.host.evWait ∧ e.code = 0xD5))) ∧
      (swi t 6 ≠ 0 ∨ swi t 7 ≠ 0 ∨ (2 ≤ t.pr.pmode ∧ t.pr.linkLost = false) → Does .takeoverDecision s (fun m =>
        m.pr.role = s.m.pr.role ∧ m.md.mode = .shadow ∧ m.pr.takeovers = s.m.pr.takeovers ∧ m.ln = t.ln ∧ SameImages s.m m))) ∧
    (s.m.pr.outgoing = true → serving s.m = true → Does .outgoingDeadline s (fun m =>
      m.md.mode = .halt ∧ m.md.hcause = 6 ∧ AllOpened m ∧ AllOff m ∧ m.pr.outgoing = false ∧ m.pr.chgo = false)) ∧
    (s.m.tm.taken = true → t = passTo ((now s.m / 86400000000000 + 1) * 86400000000000) s.m → Does .drillDay s (fun m =>
      (∀ l, (m.ln.get l).nv.days = (if drives t then 0 else satN 0xFFFF ((s.m.ln.get l).nv.days + 1)) ∧
        (m.ln.get l).opened = (s.m.ln.get l).opened) ∧ m.fio = s.m.fio ∧ m.pr = s.m.pr ∧ SameImages s.m m ∧
      (30 ≤ drillDays m → TellsThen 0xDA 0 s.m m)))

/-! ## Recorder, roll call, counters (R486-R523) -/

/-- RECORD_ACCEPT (R507, R510, R511), LOSS_RECORD (R508, R511), RECORDER_FLUSH (R506, R512, R514), RECORDER_READ_DELIVERY (R515, R516),
FIFO_POINTER_MISMATCH (R505).
Readings: log entries 3, 24, 38. -/
def Obligations.RecorderAtWork : Prop :=
  ∀ (s : State) (t : Mod), s.m.powered = true →
    (∀ r, r.src = 0 ∨ r.src = 7 → (aliveLanes s.m).length < 2 → Does (.recordAccept r) s (fun m => m = s.m)) ∧
    (∀ r, (r.src ≠ 0 ∧ r.src ≠ 7) ∨ 2 ≤ (aliveLanes s.m).length → s.m.rcd.stopped = false → s.m.rcd.unusable = false →
      tabFind s.m.rcd.drops r.src = none →
      (recRoom (r.privileged || decide (2 ≤ r.kind)) s.m = true → Does (.recordAccept r) s (fun m =>
        (∃ d, m.rcd.dirty = s.m.rcd.dirty ++ [d] ∧ d.at_ = s.m.clk ∧ d.record.kind = r.kind ∧ d.record.src = r.src ∧
          d.record.code = (if r.kind = 0 then r.code else 0) ∧ d.record.rseq = tabGet 0 s.m.rcd.seq r.src ∧ d.record.scn = r.scn ∧
          d.record.body = r.body ∧ d.record.privileged = (r.privileged || decide (2 ≤ r.kind))) ∧
        tabGet 0 m.rcd.seq r.src = tabGet 0 s.m.rcd.seq r.src + 1 ∧ m.rcd.acceptedN = s.m.rcd.acceptedN + 1 ∧ { m with rcd := s.m.rcd } = s.m)) ∧
      (recRoom (r.privileged || decide (2 ≤ r.kind)) s.m = false → Does (.recordAccept r) s (fun m =>
        m.rcd.dirty = s.m.rcd.dirty ∧ tabFind m.rcd.drops r.src = some (tabGet 0 s.m.rcd.seq r.src, 1) ∧
        tabGet 0 m.rcd.seq r.src = tabGet 0 s.m.rcd.seq r.src + 1 ∧ m.rcd.droppedN = s.m.rcd.droppedN + 1 ∧ { m with rcd := s.m.rcd } = s.m))) ∧
    (∀ src : Fin 9, tabFind s.m.rcd.drops src.val = none → Does (.lossRecord src) s (fun m => m = s.m)) ∧
    (∀ (src : Fin 9) x, tabFind s.m.rcd.drops src.val = some x → s.m.rcd.dirty.length + 6 ≤ s.m.rcd.ceil → s.m.rcd.stopped = false →
      s.m.rcd.unusable = false → Does (.lossRecord src) s (fun m =>
        tabFind m.rcd.drops src.val = none ∧ (∃ ds, m.rcd.dirty = s.m.rcd.dirty ++ ds) ∧ ToldOnly s.m m)) ∧
    (∀ (src : Fin 9) x, tabFind s.m.rcd.drops src.val = some x → (∀ k, k ≠ src.val → tabFind s.m.rcd.drops k = none) →
      s.m.rcd.dirty.length + 2 ≤ s.m.rcd.ceil → s.m.rcd.stopped = false →
      s.m.rcd.unusable = false → Does (.lossRecord src) s (fun m =>
        tabFind m.rcd.drops src.val = none ∧ m.rcd.lossN = satN 0xFFFFFFFF (s.m.rcd.lossN + 1) ∧ ToldOnly s.m m ∧
        ∃ d e, m.rcd.dirty = s.m.rcd.dirty ++ [d, e] ∧ d.record.kind = 2 ∧ d.record.body = lossBody src.val 1 x.1 x.2 ∧
          e.record.kind = 0 ∧ e.record.code = 0xE8)) ∧
    (s.m.rcd.dirty = [] → ∀ w k, Does (.recorderFlush w k) s (fun m => m = s.m)) ∧
    (s.m.rcd.dirty ≠ [] → s.m.rcd.unusable = false → t = passClk (flushAt s.m) s.m →
      (s.m.nv.store.broken = false → s.m.nv.store.field = false → Does (.recorderFlush true 0) s (fun m =>
        m.rcd.dirty = [] ∧ m.nv.store.next = s.m.nv.store.next + s.m.rcd.dirty.length ∧ m.nv.store.podiumN = s.m.nv.store.podiumN ∧
        { m with rcd := t.rcd, nv := t.nv, pc := t.pc, freeN := t.freeN } = t)) ∧
      (s.m.nv.store.broken = false → s.m.nv.store.field = false → feUnits s.m 12 ≠ [] → Does (.recorderFlush true 1) s (fun m =>
        m.nv.store.next = s.m.nv.store.next + s.m.rcd.dirty.length ∧ m.pc.mism = satN 0xFFFF (t.pc.mism + 1) ∧ m.md = t.md ∧
        m.fio = s.m.fio ∧ SameImages s.m m)) ∧
      (∀ k, Does (.recorderFlush false k) s (fun m => m.rcd.unusable = true ∧ m.nv.store.broken = true ∧ m.nv.store.recs = s.m.nv.store.recs ∧
        { m with rcd := t.rcd, nv := t.nv, host := t.host } = t))) ∧
    (∀ (ring : Fin 8) r, tabFind s.m.rcd.reads ring.val = some r →
      ((ringOf s.m (80 + ring.val)).fault = true → Does (.recorderReadDelivery ring) s (fun m =>
        tabFind m.rcd.reads ring.val = none ∧ tabGet [] m.rcd.ends ring.val = tabGet [] s.m.rcd.ends ring.val ++ [endEntry r 4] ∧
        { m with rcd := s.m.rcd } = s.m)) ∧
      ((ringOf s.m (80 + ring.val)).fault = false → ringRoom s.m (80 + ring.val) = false →
        Does (.recorderReadDelivery ring) s (fun m => m = s.m)) ∧
      (ringRoom s.m (80 + ring.val) = true → (ringOf s.m (80 + ring.val)).log2n ≤ 15 → tabGet [] s.m.rcd.ends ring.val = [] →
        diff32 (ringOf s.m (80 + ring.val)).count (ringOf s.m (80 + ring.val)).ack + 1 = ringSize (ringOf s.m (80 + ring.val)) →
        (∀ idx rec fresh, r.mode = 2 ∨ r.left ≠ 0 → (readable s.m r).find? (fun e => selects r e.2.1) = some (idx, rec, fresh) →
          Does (.recorderReadDelivery ring) s (fun m =>
            tabFind m.rcd.reads ring.val = some { r with start := idx + 1, left := r.left - 1, delivered := r.delivered + 1, moved := false } ∧
            (ringOf m (80 + ring.val)).count = (ringOf s.m (80 + ring.val)).count + 1 ∧ m.nv = s.m.nv ∧ m.rcd.dirty = s.m.rcd.dirty)) ∧
        (r.mode ≠ 2 → r.left = 0 → Does (.recorderReadDelivery ring) s (fun m =>
          tabFind m.rcd.reads ring.val = none ∧ tabGet [] m.rcd.ends ring.val = [] ∧
          (ringOf m (80 + ring.val)).count = (ringOf s.m (80 + ring.val)).count + 1 ∧ m.nv = s.m.nv)))) ∧
    (∀ f : Fin 13, Does (.fifoPointerMismatch f) s (fun m =>
      (tabGet DiagFifo.fresh m.host.dfifo f.val).resets = satN 0xFFFF ((tabGet DiagFifo.fresh s.m.host.dfifo f.val).resets + 1) ∧
      ToldOnly s.m m ∧ TellsAlone 0xED { src := 4, arg0 := f.val } s.m m ∧
      (f.val = 0 → m.host.evl = s.m.host.evl + BitVec.ofNat 32 s.m.host.fifo.length)))

/-- ROLL_CALL_LATCH, ROLL_CALL_BLOCK, ROLL_CALL_CLOSE, ROLL_CALL_SECTION_WRITE, ROLL_CALL_COMPLETION (R492-R498),
COUNTER_SETTING_APPLY (R490).
Readings: log entries 3, 39. -/
def Obligations.RollCall : Prop :=
  ∀ (s : State) (t : Mod), s.m.powered = true →
    (s.m.rc.state = 1 → Does .rollCallLatch s (fun m =>
      m.rc.state = 2 ∧ m.rc.target = s.m.rc.target ∧ m.rc.units = unitTable s.m ∧
      (∀ l, (s.m.ln.get l).alive = true → (m.ln.get l).latchTime ≤ (m.ln.get l).time ∧ (m.ln.get l).opened = (s.m.ln.get l).opened) ∧
      (s.m.tm.taken = true → (∀ l, (s.m.ln.get l).corr = 0) → ∀ l, (s.m.ln.get l).alive = true →
        (m.ln.get l).latchTime = max (s.m.rc.target * 20000000) (s.m.ln.get l).time) ∧
      { m with ln := s.m.ln, rc := s.m.rc, clk := s.m.clk, freeN := s.m.freeN } = s.m)) ∧
    (s.m.rc.state ≠ 1 → Does .rollCallLatch s (fun m => m = s.m)) ∧
    (∀ u num bytes, blockIn u num bytes = none → Does (.rollCallBlock u num bytes) s (fun m => m = s.m)) ∧
    (∀ u num bytes b, blockIn u num bytes = some b → s.m.rc.state ≠ 2 → Does (.rollCallBlock u num bytes) s (fun m =>
      m.rc.late = s.m.rc.late + 1 ∧ m.rc.units = s.m.rc.units ∧ { m with rc := s.m.rc } = s.m)) ∧
    (∀ l num bytes e b, s.m.rc.state = 2 → num ≤ 15 → tabFind s.m.rc.own (16 * laneNo l + num) = some b →
      tabFind s.m.rc.units (laneNo l) = some e → e.latched = true → Does (.rollCallBlock (.lane l) num bytes) s (fun m =>
        tabFind m.rc.units (laneNo l) = some { e with blocks := tabPut e.blocks num b } ∧
        (∀ j, j ≠ laneNo l → tabFind m.rc.units j = tabFind s.m.rc.units j) ∧ m.rc.late = s.m.rc.late ∧ { m with rc := s.m.rc } = s.m)) ∧
    (∀ u n num bytes e b, u = .station n ∨ u = .node n → blockIn u num bytes = some b → s.m.rc.state = 2 →
      tabFind s.m.rc.units (unitNo u) = some e →
      (e.latched = true → readBE b.2 0 4 = s.m.rc.target % 2 ^ 32 → b.1 ≤ 15 → Does (.rollCallBlock u num bytes) s (fun m =>
        tabFind m.rc.units (unitNo u) = some { e with blocks := tabPut e.blocks b.1 (cut b.2 0 64) } ∧ m.rc.late = s.m.rc.late ∧
        { m with rc := s.m.rc } = s.m)) ∧
      (e.latched = false ∧ b.1 ≤ 15 ∨ readBE b.2 0 4 ≠ s.m.rc.target % 2 ^ 32 → Does (.rollCallBlock u num bytes) s (fun m =>
        m.rc.units = s.m.rc.units ∧ m.rc.late = s.m.rc.late + 1 ∧ { m with rc := s.m.rc } = s.m))) ∧
    (s.m.rc.state = 2 → t = passTo ((s.m.rc.target + 24) * 20000000) s.m → Does .rollCallClose s (fun m =>
      m.rc.state = 3 ∧ m.rc.closed = true ∧ m.rc.units = s.m.rc.units ∧ { m with rc := t.rc } = t)) ∧
    (s.m.rc.state = 3 → s.m.rc.sectionDone = false → Does .rollCallSectionWrite s (fun m =>
      m.rc.header = [s.m.rc.units.length, unitsIn s.m 1, unitsIn s.m 2, unitsIn s.m 3, unitsIn s.m 4] ∧
      m.rc.sectionDone = decide ((rankOf s.m + 1) * 0xC5000 ≤ s.m.rc.size) ∧ m.rc.units = s.m.rc.units ∧ { m with rc := s.m.rc, host := s.m.host } = s.m)) ∧
    (∀ a, s.m.rc.state = 3 → s.m.rc.sub = some a → a ∈ s.m.host.open_ → feOnly a.opc = false → leftToNewLead s.m a = false → t = passTo ((s.m.rc.target + 24) * 20000000 + 16000000) s.m →
      Does .rollCallCompletion s (fun m =>
        m.rc.state = 0 ∧ m.rc.sub = none ∧ m.rc.count = satN 0xFFFF (s.m.rc.count + 1) ∧
        m.host.cplWait = s.m.host.cplWait ++ [(a.src, cplOf a.opc a.tag 0 0)] ∧ m.host.open_ = s.m.host.open_.erase a ∧
        { m with rc := t.rc, host := t.host, rcd := t.rcd } = t ∧
        TellsAlone 0xEA { src := 4, arg0 := unitsIn s.m 1, arg1 := unitsIn s.m 3 } t m)) ∧
    (∀ ws n, s.m.pc.waiting = some (ws, n) → ws.length = 8 → t = passTo ((n + 1) * 20000000) s.m → Does .counterSettingApply s (fun m =>
      m.pc.waiting = none ∧ (∀ i, i < 8 → tabGet 0 m.pc.cfg i = ws.getD i 0) ∧
      (∀ l c, c < 32 → tabGet 0 (m.ln.get l).pcs c = (if pcByte m.pc.cfg c = pcByte s.m.pc.cfg c then tabGet 0 (t.ln.get l).pcs c else 0)) ∧
      { m with ln := t.ln, pc := t.pc } = t)) ∧
    (s.m.pc.waiting = none → Does .counterSettingApply s (fun m => m = s.m))

/-! ## Update sessions and security (R533-R574) -/

/-- ACTIVATION_PREPARE (R535, R537), SESSION_IDLE_TIMEOUT and SERVICE_CONNECTION_LOST (R534), OC_ACTIVATION_TIMEOUT (R544).
Readings: log entries 3, 41. -/
def Obligations.UpdateDeadlines : Prop :=
  ∀ (s : State) (t : Mod), s.m.powered = true →
    (∀ a, s.m.up.act = some a → a.online = false → a.prepared = false → ocWaits s.m = false ∨ a.scn ≤ s.m.up.oc.actScn → t = passTo ((a.scn - 1) * 20000000 + 16000000) s.m →
      (stateForbids t a.kinds false 0 = true ∨ t.pw.charge < 95 → Does .activationPrepare s (fun m =>
        m.up.act = none ∧ m.up.result = 3 ∧ m.up.reason = 4 ∧ m.nv.banks.next = 0 ∧ m.nv.banks.act = s.m.nv.banks.act ∧ m.ln = t.ln ∧
        m.md = s.m.md ∧ m.fio = s.m.fio ∧ SameImages s.m m)) ∧
      (stateForbids t a.kinds false 0 = false → 95 ≤ t.pw.charge → Does .activationPrepare s (fun m =>
        m.up.act = some { a with prepared := true } ∧ (∀ k ∈ a.kinds, bitOf m.nv.banks.next (partOf k) = true ∧ bitOf m.nv.banks.used (partOf k) = false) ∧
        m.nv.banks.act = s.m.nv.banks.act ∧ { m with up := t.up, nv := t.nv } = t))) ∧
    (s.m.up.act = none → ocWaits s.m = false → Does .activationPrepare s (fun m => m = s.m)) ∧
    (s.m.up.act = none → ocWaits s.m = true → t = passTo ((s.m.up.oc.actScn - 1) * 20000000 + 16000000) s.m → scn t < s.m.up.oc.actScn →
      (stateForbids t [6] false t.up.oc.station = false → 95 ≤ t.pw.charge → Does .activationPrepare s (fun m =>
        m.up.oc = { t.up.oc with prepared := true } ∧ { m with up := t.up } = t)) ∧
      (stateForbids t [6] false t.up.oc.station = true ∨ t.pw.charge < 95 → Does .activationPrepare s (fun m =>
        m.up.oc = OcXfer.fresh ∧ m.up.result = 3 ∧ m.up.reason = 4 ∧ { m with up := t.up, host := t.host, rcd := t.rcd } = t ∧
        TellsAgreed 0xE5 { arg0 := t.up.oc.station, arg1 := 4, arg2 := t.up.oc.session } t m))) ∧
    (∀ x, s.m.up.session = some x → t = passClk (x.lastAt + fieldOf s.m.cfg.updcfg.toNat 0 12 * 1000000000) s.m →
      Does .sessionIdleTimeout s (fun m => m.up.session = none ∧ m.up.act = s.m.up.act ∧ { m with up := t.up, host := t.host, rcd := t.rcd } = t ∧
        TellsAgreed 0xEB { arg0 := noArg, arg1 := x.kind, arg2 := x.num } t m)) ∧
    (s.m.up.session = none → Does .sessionIdleTimeout s (fun m => m = s.m)) ∧
    Does .serviceConnectionLost s (fun m =>
      m.sec.sess = none ∧ m.sec.sessLane = none ∧ m.sec.subject = 0 ∧ m.sec.lc = s.m.sec.lc ∧
      (∀ x, s.m.up.session = some x → m.up.session = (if x.src = .service then none else some x)) ∧
      { m with sec := s.m.sec, up := s.m.up, host := s.m.host, rcd := s.m.rcd } = s.m) ∧
    (s.m.up.oc.state = 3 ∨ (s.m.up.oc.state ≠ 0 ∧ s.m.up.oc.actScn ≠ 0) → t = passTo ((s.m.up.oc.actScn + 600) * 20000000) s.m → Does .ocActivationTimeout s (fun m =>
      m.up.oc = OcXfer.fresh ∧ m.up.result = 3 ∧ m.up.reason = 9 ∧ m.up.resKind = 6 ∧ m.up.session = s.m.up.session ∧
      { m with up := t.up, host := t.host, rcd := t.rcd } = t ∧
      TellsAgreed 0xE5 { arg0 := s.m.up.oc.station, arg1 := 9, arg2 := s.m.up.oc.session } t m)) ∧
    (s.m.up.oc.state = 0 ∨ (s.m.up.oc.state ≠ 3 ∧ s.m.up.oc.actScn = 0) → Does .ocActivationTimeout s (fun m => m = s.m))

/-- TLS_HANDSHAKE and AUTH_BACKOFF_EXPIRED (R560, R563, R566), MESH_LOOP_BROKEN and KEY_STORE_ENVIRONMENT (R557, R564-R567),
FLASH_REFRESH (R592).
Readings: log entries 3, 18, 42. -/
def Obligations.PortAndKeyStores : Prop :=
  ∀ (s : State) (t : Mod), s.m.powered = true →
    (∀ ok role subj chain,
      (portOpen s.m = false → Does (.tlsHandshake ok role subj chain) s (fun m => m = s.m)) ∧
      (portOpen s.m = true → ok = true → certOk s.m role chain = true → role ≠ .service ∨ s.m.nv.sec.pend = 0 →
        Does (.tlsHandshake ok role subj chain) s (fun m =>
          m.sec.sess = some role ∧ m.sec.authf = 0 ∧ m.sec.backoffTo = none ∧ m.sec.subject = subj ∧
          { m with sec := s.m.sec, host := s.m.host, rcd := s.m.rcd } = s.m ∧
          TellsAgreed 0xF7 { arg1 := subj.toNat % 2 ^ 32, arg2 := subj.toNat / 2 ^ 32 } s.m m)) ∧
      (portOpen s.m = true → ok = true → certOk s.m role chain = true → role = .service → s.m.nv.sec.pend ≠ 0 →
        Does (.tlsHandshake ok role subj chain) s (fun m => m = s.m)) ∧
      (portOpen s.m = true → ok = false ∨ certOk s.m role chain = false → operating s.m = true →
        Does (.tlsHandshake ok role subj chain) s (fun m =>
          m.sec.sess = none ∧ m.sec.authf = satN 255 (s.m.sec.authf + 1) ∧
          m.sec.backoffTo = some (s.m.clk + 2 ^ (min (satN 255 (s.m.sec.authf + 1)) 6) * 1000000000) ∧
          (satN 255 (s.m.sec.authf + 1) = s.m.nv.sec.authn → 5 ∈ m.sec.seen) ∧
          { m with sec := s.m.sec, host := s.m.host, rcd := s.m.rcd } = s.m ∧ TellsAgreed 0xF8 {} s.m m))) ∧
    (∀ t0, s.m.sec.backoffTo = some t0 → t = passClk t0 s.m → Does .authBackoffExpired s (fun m =>
      m.sec.backoffTo = none ∧ t0 ≤ m.clk ∧ m.sec.authf = s.m.sec.authf ∧ { m with sec := t.sec } = t)) ∧
    (∀ l v, v = levelOf 0 s.m → (s.m.ln.get l).supplied = true → (s.m.ln.get l).mesh = true → Does (.meshLoopBroken l) s (fun m =>
      (m.ln.get l).mesh = false ∧ (m.ln.get l).nv.keys = eraseKeys v (s.m.ln.get l).nv.keys ∧
      (m.ln.get l).alarmLevel = max (s.m.ln.get l).alarmLevel v ∧ (∀ x, x ≠ l → (m.ln.get x).nv.keys = (s.m.ln.get x).nv.keys) ∧
      m.nv.sec.ltrig = 0 ∧ m.nv.sec.llvl = v ∧
      m.nv.sec.pend = (if v < s.m.nv.sec.pend ∨ v < 2 then s.m.nv.sec.pend else max s.m.nv.sec.pend (min v 3)) ∧
      (3 ≤ v → s.m.nv.sec.pend ≤ v → operating s.m = true → m.md.mode = .halt ∧ m.md.hcause = 7 ∧ AllOff m ∧ m.sec.sess = none) ∧
      (v < 3 → m.md = s.m.md ∧ m.fio = s.m.fio ∧ SameImages s.m m))) ∧
    (∀ l v, v = levelOf 2 s.m → (s.m.ln.get l).supplied = true → (s.m.ln.get l).envOk = true → Does (.keyStoreEnvironment l) s (fun m =>
      (m.ln.get l).envOk = false ∧ (m.ln.get l).nv.keys = eraseKeys v (s.m.ln.get l).nv.keys ∧
      (m.ln.get l).alarmLevel = max (s.m.ln.get l).alarmLevel v ∧ (∀ x, x ≠ l → (m.ln.get x).nv.keys = (s.m.ln.get x).nv.keys) ∧
      m.nv.sec.ltrig = 2 ∧ m.nv.sec.llvl = v ∧
      (3 ≤ v → s.m.nv.sec.pend ≤ v → operating s.m = true → m.md.mode = .halt ∧ m.md.hcause = 7 ∧ AllOff m ∧ m.sec.sess = none) ∧
      (v < 3 → m.md = s.m.md ∧ m.fio = s.m.fio ∧ SameImages s.m m))) ∧
    (∀ l, (s.m.ln.get l).supplied = false → Does (.meshLoopBroken l) s (fun m => m = s.m) ∧ Does (.keyStoreEnvironment l) s (fun m => m = s.m)) ∧
    (∀ f wear, Does (.flashRefresh f wear) s (fun m =>
      m.pw.wear = s.m.pw.wear.set (flashNo f) wear ∧
      m.pw.band = s.m.pw.band.set (flashNo f) (max (wearBand wear) (s.m.pw.band.getD (flashNo f) 0)) ∧
      { m with pw := s.m.pw, host := s.m.host, rcd := s.m.rcd } = s.m ∧
      (s.m.pw.band.getD (flashNo f) 0 < wearBand wear → TellsAlone 0x38
        { src := if flashNo f < 3 then flashNo f + 1 else 4, arg0 := flashNo f, arg1 := wear } s.m m) ∧
      (wearBand wear ≤ s.m.pw.band.getD (flashNo f) 0 → wearBand wear ≠ 3 → m.rcd = s.m.rcd)))

/-! ## Submissions (R182, R230-R237, R425-R443) -/

/-- 0x01 GO TO RUN, 0x02 HALT, 0x04 POSSESSION GRANT and 0x05 POSSESSION RETURN once confirmed, 0x06 FORCE SET, 0x07 FORCE RELEASE
(R122-R125, R140-R148, R437, R440-R443): what each sets, and how it completes. A trigger of a transition is told and completes at phase
16,000 (R123, R124); one that names no transition is refused and told by event 0x05 (R122).
Readings: log entries 11, 12, 48. -/
def Obligations.ModeCommands : Prop :=
  ∀ (s : State) (q : Fin 32) (sub : Submission) (n : Nat) (b : Mod), s.m.powered = true →
    (Admits q 0x01 false sub s.m → b = taken 0x01 sub s.m → cmdMode b = .commission →
      (b.md.forces = [] → b.md.areas = 0 → b.sec.lc ≠ .blank → b.sec.lc ≠ .provisioned → Does (.goToRun sub) s (fun m =>
        m.md = { b.md with pendMode := some (runMode b), trigs := b.md.trigs ++ [{ sub := acceptedOf sub 0x01, code := 0, area := 0 }],
                             areasWas := if b.md.trigs.isEmpty then 0 else b.md.areasWas,
                           owed := m.md.owed } ∧ m.host.cplWait = b.host.cplWait ∧
        { m with host := b.host, md := b.md } = b)) ∧
      (b.md.forces ≠ [] → Does (.goToRun sub) s (fun m =>
        m.md = b.md ∧ Completes 0x01 0x07 2 sub b m ∧ TellsAgreed 0x05 {} b m ∧ m.ln = b.ln ∧ SameImages b m))) ∧
    (Enters q 0x01 false sub s.m → b = taken 0x01 sub s.m → modeBars b { sub with opc := 0x01 } = true → Does (.goToRun sub) s (fun m =>
        m.md = b.md ∧ Completes 0x01 0x02 (modeCode (mode b)) sub b m ∧ TellsAgreed 0x05 {} b m ∧ m.ln = b.ln ∧ SameImages b m)) ∧
    (Admits q 0x02 false sub s.m → b = taken 0x02 sub s.m → Does (.haltRequest sub) s (fun m =>
      m.md.mode = .halt ∧ m.md.hcause = 4 ∧ AllOpened m ∧ AllOff m ∧ m.md.forces = [])) ∧
    (Admits q 0x04 true sub s.m → b = taken 0x04 sub s.m → Confirms 0x04 sub s.m → n = byteAt (sealedOper 0x04 sub) 0 → n < 64 →
      cmdMode b = .run3 ∨ cmdMode b = .run2 ∨ cmdMode b = .commission ∨ cmdMode b = .maintain → recorderDead b = false →
      b.md.areas.getLsbD n = false → Does (.possessionGrant sub) s (fun m =>
        m.md.areas = b.md.areas ||| BitVec.ofNat 64 (2 ^ n) ∧ m.md.areas.getLsbD n = true ∧ m.md.forces = b.md.forces ∧
        (cmdMode b = .run3 ∨ cmdMode b = .run2 → m.md.pendMode = some .maintain ∧ m.host.cplWait = b.host.cplWait ∧
          m.md.trigs = b.md.trigs ++ [{ sub := acceptedOf sub 0x04, code := 0x10, area := n }]) ∧
        (cmdMode b = .commission ∨ cmdMode b = .maintain → m.md.pendMode = b.md.pendMode ∧
          (b.md.trigs = [] → m.md.trigs = [] ∧ Completes 0x04 0 0 sub b m) ∧
          (b.md.trigs ≠ [] → m.host.cplWait = b.host.cplWait ∧
            m.md.trigs = b.md.trigs ++ [{ sub := acceptedOf sub 0x04, code := 0x10, area := n }])) ∧ m.fio = b.fio ∧ SameImages b m)) ∧
    (Admits q 0x05 true sub s.m → b = taken 0x05 sub s.m → Confirms 0x05 sub s.m → n = byteAt (sealedOper 0x05 sub) 0 → n < 64 → b.md.areas.getLsbD n = true →
      (b.md.forces.any (fun f => f.area == n) = false → Does (.possessionReturn sub) s (fun m =>
        m.md.areas = b.md.areas &&& ~~~ BitVec.ofNat 64 (2 ^ n) ∧ m.md.areas.getLsbD n = false ∧ m.md.forces = b.md.forces ∧
        (m.md.areas = 0 → cmdMode b = .maintain → m.md.pendMode = some (runMode b) ∧ m.host.cplWait = b.host.cplWait ∧
          m.md.trigs = b.md.trigs ++ [{ sub := acceptedOf sub 0x05, code := 0x11, area := n }]) ∧
        (m.md.areas ≠ 0 ∨ cmdMode b ≠ .maintain → m.md.pendMode = b.md.pendMode ∧
          (b.md.trigs = [] → m.md.trigs = [] ∧ Completes 0x05 0 0 sub b m) ∧
          (b.md.trigs ≠ [] → m.host.cplWait = b.host.cplWait ∧
            m.md.trigs = b.md.trigs ++ [{ sub := acceptedOf sub 0x05, code := 0x11, area := n }])) ∧ m.fio = b.fio ∧ SameImages b m)) ∧
      (b.md.forces.any (fun f => f.area == n) = true → Does (.possessionReturn sub) s (fun m =>
        m.md.areas = b.md.areas ∧ Completes 0x05 0x07 2 sub b m))) ∧
    (∀ ty emax, Admits q 0x06 false sub s.m → b = taken 0x06 sub s.m → byteAt sub.oper 0 ≤ 1 →
      forceTarget b (byteAt sub.oper 0 == 1) (readLE sub.oper 4 4) = some (ty, emax, some n, true) → tyOfTag (byteAt sub.oper 8) = ty →
      forceFits ty emax (BitVec.ofNat 64 (readLE sub.oper 16 8)) = true → cmdMode b = .commission ∨ cmdMode b = .maintain →
      (b.md.areas.getLsbD n = true → b.md.forces.length < 1024 → recorderDead b = false → Does (.forceSet sub) s (fun m =>
        m.md.forces = b.md.forces.filter (fun f => !(f.isObj == (byteAt sub.oper 0 == 1) && f.ref == readLE sub.oper 4 4)) ++
          [{ isObj := byteAt sub.oper 0 == 1, ref := readLE sub.oper 4 4, tag := byteAt sub.oper 8,
             val := BitVec.ofNat 64 (readLE sub.oper 16 8), area := n }] ∧
        m.md.areas = b.md.areas ∧ Completes 0x06 0 0 sub b m ∧ TellsAgreed 0x0E { arg0 := readLE sub.oper 4 4 } b m ∧
        { m with host := b.host, md := b.md, rcd := b.rcd } = b)) ∧
      (b.md.areas.getLsbD n = false → Does (.forceSet sub) s (fun m =>
        Completes 0x06 0x07 1 sub b m ∧ { m with host := b.host } = b))) ∧
    (Admits q 0x07 false sub s.m → b = taken 0x07 sub s.m → byteAt sub.oper 0 ≤ 1 →
      (b.md.forces.any (fun f => f.isObj == (byteAt sub.oper 0 == 1) && f.ref == readLE sub.oper 4 4) = true →
        Does (.forceRelease sub) s (fun m =>
          m.md.forces = b.md.forces.filter (fun f => !(f.isObj == (byteAt sub.oper 0 == 1) && f.ref == readLE sub.oper 4 4)) ∧
          Completes 0x07 0 0 sub b m ∧ TellsAgreed 0x0F { arg0 := readLE sub.oper 4 4 } b m ∧
          { m with host := b.host, md := b.md, rcd := b.rcd } = b)) ∧
      (b.md.forces.any (fun f => f.isObj == (byteAt sub.oper 0 == 1) && f.ref == readLE sub.oper 4 4) = false →
        Does (.forceRelease sub) s (fun m => Completes 0x07 0x07 1 sub b m ∧ { m with host := b.host } = b)))

/-- 0x08 ROUTE REQUEST, 0x09 ROUTE CANCEL, 0x0A RUN BLOCK BIST, 0x0B APPLICATION COMMAND, 0x21 CLEAR EXCLUSION RECORD (R120, R131, R182,
R211-R218, R437).
Readings: log entries 11, 12, 43. -/
def Obligations.RouteAndTaskCommands : Prop :=
  ∀ (s : State) (q : Fin 32) (sub : Submission) (b : Mod), s.m.powered = true →
    (Admits q 0x08 false sub s.m → b = taken 0x08 sub s.m → fieldOf sub.tag.toNat 12 8 = 0 → byteAt sub.oper 0 ≤ 7 →
      (requestRefusal b sub.tag = 0 → Does (.routeRequest sub) s (fun m =>
        pendOf m (tagRoute sub.tag) = some { tag := sub.tag, prio := byteAt sub.oper 0, blk := 0, arrival := scn b % 2 ^ 32,
                                             sub := acceptedOf sub 0x08 } ∧
        routeSt m (tagRoute sub.tag) = { routeSt b (tagRoute sub.tag) with lgen := tagGen sub.tag } ∧
        (∀ r, r ≠ tagRoute sub.tag → pendOf m r = pendOf b r ∧ routeSt m r = routeSt b r) ∧ m.host.cplWait = b.host.cplWait ∧
        { m with host := b.host, en := b.en } = b)) ∧
      (requestRefusal b sub.tag ≠ 0 → Does (.routeRequest sub) s (fun m =>
        Completes 0x08 0x10 (requestRefusal b sub.tag) sub b m ∧ { m with host := b.host } = b))) ∧
    (∀ r tag, Admits q 0x09 false sub s.m → b = taken 0x09 sub s.m → tag = BitVec.ofNat 32 (readLE sub.oper 0 4) → r = tagRoute tag →
      (∀ p, pendOf b r = some p → p.tag = tag → p.sub ∈ b.host.open_ → p.sub.opc = 0x08 → Does (.routeCancel sub) s (fun m =>
        pendOf m r = none ∧ m.host.cplWait = b.host.cplWait ++ [(p.sub.src, cplOf p.sub.opc p.sub.tag 0x10 4), (sub.src, cplOf 0x09 sub.tag 0 0)] ∧
        (∀ j, j ≠ r → pendOf m j = pendOf b j) ∧ { m with host := b.host, en := b.en } = b)) ∧
      ((∀ p, pendOf b r = some p → p.tag ≠ tag) → Does (.routeCancel sub) s (fun m =>
        (∀ j, pendOf m j = pendOf b j) ∧ m.en.stale = satN 0xFFFF (b.en.stale + 1) ∧ Completes 0x09 0x12 0 sub b m ∧
        TellsAgreed 0x1E { arg0 := r, arg2 := tag.toNat } b m))) ∧
    (∀ pass, Admits q 0x0A false sub s.m → b = taken 0x0A sub s.m → byteAt sub.oper 0 < 24 → cmdMode b = .commission →
      (b.sec.lc = .blank ∨ b.sec.lc = .provisioned → Does (.runBlockBist sub pass) s (fun m =>
        m.md = { b.md with bist := setBit b.md.bist (byteAt sub.oper 0) (!pass) } ∧
        m.host.cplWait = b.host.cplWait ++ [(sub.src, { cplOf 0x0A sub.tag 0 0 with result := bytesLE 1 (b2n (!pass)) })] ∧
        { m with host := b.host, md := b.md } = b)) ∧
      (b.sec.lc ≠ .blank → b.sec.lc ≠ .provisioned → Does (.runBlockBist sub pass) s (fun m =>
        Completes 0x0A 0x07 1 sub b m ∧ { m with host := b.host } = b))) ∧
    (∀ d k, Admits q 0x0B false sub s.m → b = taken 0x0B sub s.m → taskDesc b sub.task = some d → d.kind = .evMain ∨ d.kind = .evSlack →
      fieldOf sub.tag.toNat 12 8 = 0 → (tcbOf b sub.task).parked = false →
      k = (if (tcbOf b sub.task).cmdScn = scn b then (tcbOf b sub.task).cmdN else 0) →
      (k < 64 → Does (.applicationCommand sub) s (fun m =>
        (tcbOf m sub.task).cmdsWait = (tcbOf b sub.task).cmdsWait ++ [{
          sub := acceptedOf sub 0x0B, words := (List.range 10).map (fun i => BitVec.ofNat 32 (readLE sub.oper (4 * i) 4)),
          fetched := false, done := false }] ∧
        (tcbOf m sub.task).trigWait = (tcbOf b sub.task).trigWait + 1 ∧ (∀ t, t ≠ sub.task → tcbOf m t = tcbOf b t) ∧
        m.host.cplWait = b.host.cplWait ∧ { m with host := b.host, lg := b.lg } = b)) ∧
      (64 ≤ k → Does (.applicationCommand sub) s (fun m =>
        Completes 0x0B 0x0D sub.task sub b m ∧ TellsAgreed 0x16 { arg0 := sub.task } b m ∧ m.lg = b.lg))) ∧
    (∀ d t, Admits q 0x0B true sub s.m → Confirms 0x0B sub s.m → b = taken 0x0B sub s.m → t = byteAt (telData sub.blob) 2 →
      taskDesc b t = some d → d.kind = .evMain ∨ d.kind = .evSlack → fieldOf sub.tag.toNat 12 8 = 0 → (tcbOf b t).parked = false →
      ((tcbOf b t).cmdScn = scn b → (tcbOf b t).cmdN < 64) → Does (.applicationCommand sub) s (fun m =>
        (tcbOf m t).cmdsWait = (tcbOf b t).cmdsWait ++ [{
          sub := acceptedOf sub 0x0B, words := (List.range 10).map (fun i => BitVec.ofNat 32 (readLE (sealedOper 0x0B sub) (4 * i) 4)),
          fetched := false, done := false }] ∧
        (tcbOf m t).trigWait = (tcbOf b t).trigWait + 1 ∧ (∀ j, j ≠ t → tcbOf m j = tcbOf b j) ∧ m.host.cplWait = b.host.cplWait ∧
        m.md = b.md ∧ m.fio = b.fio ∧ SameImages b m)) ∧
    (∀ l, Admits q 0x21 false sub s.m → b = taken 0x21 sub s.m → laneOf? (byteAt sub.oper 0) = some l →
      (cmdMode b = .commission → Does (.clearExclusionRecord sub) s (fun m =>
        (∀ x, (m.ln.get x).nv.excl.get l = ExclRec.fresh ∧ (∀ y, y ≠ l → (m.ln.get x).nv.excl.get y = (b.ln.get x).nv.excl.get y) ∧
          (m.ln.get x).opened = (b.ln.get x).opened ∧ (m.ln.get x).excluded = (b.ln.get x).excluded) ∧
        Completes 0x21 0 0 sub b m ∧ TellsAgreed 0x2D { arg0 := laneNo l } b m ∧ m.md = b.md ∧ m.fio = b.fio ∧ SameImages b m)) ∧
      (cmdMode b ≠ .commission → Does (.clearExclusionRecord sub) s (fun m =>
        Completes 0x21 0x07 1 sub b m ∧ { m with host := b.host } = b)))

/-- 0x60 ACKNOWLEDGE SAG LATCH, 0x61 CLEAR EXTERNAL FEED LATCH, 0x62 CLEAR CHANNEL LATCH, 0x63 DISCARD LEARNED CURRENT (R265, R270-R280),
0x80 SWITCH SCHEDULE (R308), 0x81 REBIND STATION IDENTITY once confirmed (R354), 0xA0 READ CONNECTION COUNTERS (R374).
Readings: log entries 11, 12, 28. -/
def Obligations.FieldAndNetworkCommands : Prop :=
  ∀ (s : State) (q : Fin 32) (sub : Submission) (k : Nat) (b : Mod), s.m.powered = true → k = byteAt sub.oper 0 →
    (Admits q 0x60 false sub s.m → b = taken 0x60 sub s.m → k < 4 →
      ((groupAt b k).sag = true → 50 ≤ (groupAt b k).highN → Does (.acknowledgeSagLatch sub) s (fun m =>
        (groupAt m k).sag = false ∧ (groupAt m k).ext = (groupAt b k).ext ∧ (∀ j, j ≠ k → groupAt m j = groupAt b j) ∧
        m.fio.drives = b.fio.drives ∧ Completes 0x60 0 0 sub b m ∧
        ((groupAt m k).grp ≠ 1 ∨ (groupAt b k).grp = 1 → TellsAgreed 0x63 { arg0 := k } b m) ∧
        { m with host := b.host, fio := b.fio, rcd := b.rcd } = b)) ∧
      ((groupAt b k).sag = true → (groupAt b k).highN < 50 → Does (.acknowledgeSagLatch sub) s (fun m =>
        m.fio = b.fio ∧ Completes 0x60 0x07 2 sub b m))) ∧
    (Admits q 0x61 false sub s.m → b = taken 0x61 sub s.m → k < 4 → (groupAt b k).ext = true →
      ((drivesOf k).any (fun j => (driveOf b j).feed) = false →
        (k = 2 → ∀ j, j < 8 → (driveOf b (48 + j)).on = true ∨ (b.fio.image.getD (80 + 2 * j) 3 ≠ 0 ∧ b.fio.image.getD (81 + 2 * j) 3 ≠ 0)) →
        Does (.clearExternalFeedLatch sub) s (fun m =>
        (groupAt m k).ext = false ∧ (groupAt m k).sag = (groupAt b k).sag ∧ (∀ j ∈ drivesOf k, (driveOf m j).missN = 0) ∧
        (∀ j, j ∉ drivesOf k → driveOf m j = driveOf b j) ∧ (groupAt m k).released = true ∧ Completes 0x61 0 0 sub b m ∧
        ((groupAt m k).grp ≠ 1 ∨ (groupAt b k).grp = 1 → TellsAgreed 0x65 { arg0 := k } b m) ∧
        ((groupAt m k).grp = 1 → (groupAt b k).grp ≠ 1 → votes b = true → ∃ e f, m.host.evWait = b.host.evWait ++ [e, f] ∧
          e.code = 0x60 ∧ f.code = 0x65 ∧ e.arg0 = k) ∧
        { m with host := b.host, fio := b.fio, rcd := b.rcd } = b)) ∧
      ((drivesOf k).any (fun j => (driveOf b j).feed) = true → Does (.clearExternalFeedLatch sub) s (fun m =>
        m.fio = b.fio ∧ Completes 0x61 0x07 2 sub b m))) ∧
    (Admits q 0x62 false sub s.m → b = taken 0x62 sub s.m → k < 64 →
      ((driveOf b k).overload = true ∨ (driveOf b k).overtemp = true ∨ (driveOf b k).feedback = true → (driveOf b k).proof = false →
        (groupAt b (groupOfDrive k)).sag = false → (groupAt b (groupOfDrive k)).ext = false → Does (.clearChannelLatch sub) s (fun m =>
          driveOf m k = { driveOf b k with overload := false, overtemp := false, feedback := false, tripped := false } ∧
          (∀ j, j ≠ k → driveOf m j = driveOf b j) ∧ m.fio.groups = b.fio.groups ∧ Completes 0x62 0 0 sub b m ∧
          TellsAgreed 0x70 { arg0 := k } b m ∧ { m with host := b.host, fio := b.fio, rcd := b.rcd } = b)) ∧
      ((driveOf b k).proof = true → Does (.clearChannelLatch sub) s (fun m => m.fio = b.fio ∧ Completes 0x62 0x07 2 sub b m))) ∧
    (Admits q 0x63 false sub s.m → b = taken 0x63 sub s.m → k < 64 → bitOf b.cfg.fiocfg.toNat 0 = true → Does (.discardLearnedCurrent sub) s (fun m =>
      (∀ l, tabGet 0 (m.ln.get l).nv.loads k = 0 ∧ (∀ j, j ≠ k → tabGet 0 (m.ln.get l).nv.loads j = tabGet 0 (b.ln.get l).nv.loads j) ∧
        (m.ln.get l).opened = (b.ln.get l).opened) ∧
      (driveOf m k).learnN = 0 ∧ (∀ j, j ≠ k → driveOf m j = driveOf b j) ∧ Completes 0x63 0 0 sub b m ∧ m.md = b.md ∧ SameImages b m)) ∧
    (Admits q 0x80 false sub s.m → b = taken 0x80 sub s.m → k < 8 → b.net.scheds.any (fun x => x.num == k) = true → k ≠ b.str.sched → b.str.swPend = false →
      (scn b + 10 ≤ sub.nscn → Does (.switchSchedule sub) s (fun m =>
        m.str.swPend = true ∧ m.str.swNext = k ∧ m.str.swScn = sub.nscn ∧ m.str.swSub = some (acceptedOf sub 0x80) ∧ m.str.sched = b.str.sched ∧
        m.host.cplWait = b.host.cplWait ∧ TellsAlone 0x89 { src := 4, arg1 := k, arg2 := sub.nscn % 2 ^ 32 } b m ∧
        { m with host := b.host, str := b.str, rcd := b.rcd } = b)) ∧
      (sub.nscn < scn b + 10 → ringRoom b ((ringOf b q.val).target % 32 + 32) = true → Does (.switchSchedule sub) s (fun m =>
        m.host.cmp = b.host.cmp + 1 ∧ { m with host := b.host } = b)) ∧
      (sub.nscn < scn b + 10 → ringRoom b ((ringOf b q.val).target % 32 + 32) = false → Does (.switchSchedule sub) s (fun m =>
        Completes 0x80 0x05 (if sub.nscn < scn b then 1 else 0) sub b m ∧ { m with host := b.host } = b))) ∧
    (∀ num cls ident, Admits q 0x81 true sub s.m → b = taken 0x81 sub s.m → Confirms 0x81 sub s.m → num = readLE (sealedOper 0x81 sub) 0 2 →
      cls = byteAt (sealedOper 0x81 sub) 2 → ident = BitVec.ofNat 64 (readLE (sealedOper 0x81 sub) 8 8) → cls < 2 →
      (boundOf b cls num).isSome = true → b.md.mode = .commission → farAdmitted b cls num = false →
      boundElsewhere b cls num (if ident = 0 then (tableOf b cls num).getD 0 else ident) = false →
      (farConns b cls num).any (fun c => decide (65535 < epochOf b c + 1)) = false → Does (.rebindStationIdentity sub) s (fun m =>
        tabFind (feSettings m).bound (num + 0x1000 * cls) = (if ident = 0 then none else some ident) ∧
        (∀ l, tabGet 0 (m.ln.get l).nv.rebinds (farKey cls num) = tabGet 0 (b.ln.get l).nv.rebinds (farKey cls num) + 1 ∧
          (m.ln.get l).opened = (b.ln.get l).opened) ∧
        Completes 0x81 0 0 sub b m ∧ (votes b = true → (m.host.evWait.getLast?).map (·.code) = some 0x8F) ∧ m.md = b.md ∧ m.fio = b.fio ∧ SameImages b m)) ∧
    (∀ d, Admits q 0xA0 false sub s.m → b = taken 0xA0 sub s.m → (inConns b).find? (fun c => c.num == readLE sub.oper 0 2) = some d →
      Does (.readConnectionCounters sub) s (fun m =>
        (∃ c, m.host.cplWait = b.host.cplWait ++ [(sub.src, c)] ∧ c.tag = sub.tag ∧ c.opc = 0xA0 ∧ c.code = 0 ∧ c.detail = epochOf b d ∧
          c.result.take 8 = bytesLE 4 (btnOf (b.ln.get (refLane b)) d.num).recv ++ bytesLE 4 (btnOf (b.ln.get (refLane b)) d.num).dup) ∧
        { m with host := b.host } = b)) ∧
    (Admits q 0xA0 false sub s.m → b = taken 0xA0 sub s.m → (inConns b).find? (fun c => c.num == readLE sub.oper 0 2) = none →
      Does (.readConnectionCounters sub) s (fun m => Completes 0xA0 0x07 1 sub b m ∧ { m with host := b.host } = b))

/-- 0xB0 HOST CAN TRANSMIT and 0xB1 CANCEL HOST TRANSMIT on a front-end ring (R397, R399), 0xC0 NO OPERATION, 0xD0 CHANGEOVER (R472), 0xD1
RE-JOIN (R469), 0xE8 RECORDER READ and 0xE9 STOP (R515), 0xEA ROLL CALL (R491), 0xEB SET COUNTERS (R490).
Readings: log entries 11, 12, 20, 36, 62. -/
def Obligations.HostAndPairCommands : Prop :=
  ∀ (s : State) (q : Fin 32) (sub : Submission) (n buf : Nat) (b : Mod), s.m.powered = true →
    (FourOfEach b → sub.src = .ring q → sub.crit = false → (ringOf s.m q.val).cls = true → n = byteAt sub.oper 0 → buf = byteAt sub.oper 1 →
      n < 4 → buf < 16 →
      (mayTake s.m { sub with opc := 0xB0 } = true → b = takenAtOnce 0xB0 sub s.m → 1 ≤ readLE sub.oper 16 2 → readLE sub.oper 16 2 ≤ 1000 →
        bufferFree b (hostTx b n buf) = true →
        formatOk (readLE sub.oper 4 2) (byteAt sub.oper 6) (bitOf (byteAt sub.oper 3) 0) (bitOf (byteAt sub.oper 3) 1) = true →
        byteAt sub.oper 2 ≠ 0 → byteAt sub.oper 2 ≠ (hostTx b n buf).lastGen → (chanOf b n).state ≠ 3 → Does (.hostCanTransmit sub) s (fun m =>
          (hostTx m n buf).state = 1 ∧ (hostTx m n buf).gen = byteAt sub.oper 2 ∧ (hostTx m n buf).ident = readLE sub.oper 4 2 ∧
          (hostTx m n buf).data = cut sub.blob 0 (byteAt sub.oper 6) ∧ (hostTx m n buf).deadline = b.clk + readLE sub.oper 16 2 * 1000000 ∧
          (∀ i, i ≠ buf → hostTx m n i = hostTx b n i) ∧ { m with can := b.can } = b)) ∧
      (∀ h, mayTake s.m { sub with opc := 0xB1 } = true → b = takenAtOnce 0xB1 sub s.m → h = hostTx b n buf → h.state = 1 → h.gen = byteAt sub.oper 2 →
        (∀ i, 32 ≤ i → i < 64 → ringRoom b i = true ∧ diff32 (ringOf b i).count (ringOf b i).ack + 1 < ringSize (ringOf b i)) →
        (({ src := .ring (Fin.ofNat 32 h.sq), opc := 0xB0, tag := h.tag } : Accepted) ∈ b.host.open_ → Does (.cancelHostTransmit sub false) s (fun m =>
          (hostTx m n buf).state = 3 ∧ m.host.cmp = b.host.cmp + 2 ∧ (∀ i, i ≠ buf → (hostTx m n i).state = (hostTx b n i).state) ∧
          { m with host := b.host, can := b.can } = b)) ∧
        (h.queuedAt < b.clk → Does (.cancelHostTransmit sub true) s (fun m =>
          (hostTx m n buf).state = 2 ∧ (hostTx m n buf).gen = h.gen ∧ m.host.cmp = b.host.cmp + 1 ∧ { m with host := b.host, can := b.can } = b)))) ∧
    (∀ c, (sub.src = .ring q → sub.crit = false → (ringOf s.m q.val).cls = true → mayTake s.m { sub with opc := 0xC0 } = true →
        b = takenAtOnce 0xC0 sub s.m → c = (ringOf b q.val).target % 32 + 32 →
        (ringRoom b c = true → Does (.noOperation sub) s (fun m =>
          (ringOf m c).count = (ringOf b c).count + 1 ∧ m.host.cmp = b.host.cmp + 1 ∧ m.host.acc = b.host.acc ∧ m.host.cplWait = b.host.cplWait ∧
          m.host.open_ = b.host.open_.erase (acceptedOf sub 0xC0) ∧ { m with host := b.host } = b)) ∧
        (ringRoom b c = false → Does (.noOperation sub) s (fun m => Completes 0xC0 0 0 sub b m ∧ m.host.cmp = b.host.cmp ∧ { m with host := b.host } = b))) ∧
      (Admits q 0xC0 false sub s.m → b = taken 0xC0 sub s.m → c = (ringOf b q.val).target % 32 + 32 →
        (ringRoom b c = true → Does (.noOperation sub) s (fun m =>
          (ringOf m c).count = (ringOf b c).count + 1 ∧ m.host.cmp = b.host.cmp + 1 ∧ m.host.acc = b.host.acc ∧ m.host.cplWait = b.host.cplWait ∧
          m.host.open_ = b.host.open_.erase (acceptedOf sub 0xC0) ∧ { m with host := b.host } = b)) ∧
        (ringRoom b c = false → Does (.noOperation sub) s (fun m => Completes 0xC0 0 0 sub b m ∧ m.host.cmp = b.host.cmp ∧ { m with host := b.host } = b)))) ∧
    (mayTake s.m { sub with opc := 0xC0 } = false → Does (.noOperation sub) s (fun m => m = s.m)) ∧
    (Admits q 0xD0 false sub s.m → b = taken 0xD0 sub s.m → b.pr.role = 1 → b.pr.outgoing = false → cmdMode b = .run3 ∨ cmdMode b = .run2 ∨ cmdMode b = .maintain →
      b.pr.prole = 2 → 50 ≤ b.pr.stepCyc →
      (swi b 7 = 1 → swi b 6 ≠ 1 → b.pr.chgo = false → Does (.changeover sub) s (fun m =>
        m.pr = { b.pr with chgo := true, chgDue := true, chgScn := scn b, changeovers := satN 255 (b.pr.changeovers + 1) } ∧
        m.md = { b.md with owed := m.md.owed } ∧
        Completes 0xD0 0 0 sub b m ∧ TellsAgreed 0xD3 {} b m ∧ { m with host := b.host, pr := b.pr, md := b.md, rcd := b.rcd } = b)) ∧
      (swi b 7 ≠ 1 ∨ swi b 6 = 1 → Does (.changeover sub) s (fun m => Completes 0xD0 0x07 4 sub b m ∧ { m with host := b.host } = b))) ∧
    (Admits q 0xD1 false sub s.m → b = taken 0xD1 sub s.m →
      (b.pr.role = 2 → b.pr.joining = false → Does (.reJoin sub) s (fun m =>
        m.pr.joining = true ∧ m.pr.adopted = false ∧ m.pr.instep = false ∧ m.pr.rejoins = satN 255 (b.pr.rejoins + 1) ∧
        Completes 0xD1 0 0 sub b m ∧ { m with host := b.host, pr := b.pr } = b)) ∧
      (b.pr.role ≠ 2 → Does (.reJoin sub) s (fun m => Completes 0xD1 0x07 1 sub b m ∧ { m with host := b.host } = b))) ∧
    (Admits q 0xE8 false sub s.m → b = taken 0xE8 sub s.m → byteAt sub.oper 0 ≤ 7 → byteAt sub.oper 1 = 2 → readLE sub.oper 2 2 ≠ 0 → Does (.recorderRead sub) s (fun m =>
      tabFind m.rcd.reads (byteAt sub.oper 0) = some
        { mode := 2, mask := readLE sub.oper 2 2, privOnly := bitOf (byteAt sub.oper 4) 0,
          start := b.nv.store.next + b.rcd.dirty.length, left := readLE sub.oper 16 4, delivered := 0, tag := sub.tag, moved := false } ∧
      m.rcd.dirty = b.rcd.dirty ∧ Completes 0xE8 0 0 sub b m ∧ { m with host := b.host, rcd := b.rcd } = b)) ∧
    (∀ r, Admits q 0xE9 false sub s.m → b = taken 0xE9 sub s.m → byteAt sub.oper 0 ≤ 7 → tabFind b.rcd.reads (byteAt sub.oper 0) = some r → Does (.recorderReadStop sub) s (fun m =>
      tabFind m.rcd.reads (byteAt sub.oper 0) = none ∧
      tabGet [] m.rcd.ends (byteAt sub.oper 0) = tabGet [] b.rcd.ends (byteAt sub.oper 0) ++ [endEntry r 1] ∧
      Completes 0xE9 0 0 sub b m ∧ { m with host := b.host, rcd := b.rcd } = b)) ∧
    (Admits q 0xEA false sub s.m → b = taken 0xEA sub s.m →
      (scn b + 4 ≤ sub.nscn → sub.nscn ≤ scn b + 3000 → b.rc.state = 0 → readLE sub.oper 0 8 % 4096 = 0 → 0xC5000 ≤ readLE sub.oper 8 4 →
        Does (.rollCall sub) s (fun m =>
          m.rc.state = 1 ∧ m.rc.target = sub.nscn ∧ m.rc.sub = some (acceptedOf sub 0xEA) ∧ m.rc.size = readLE sub.oper 8 4 ∧ m.rc.count = b.rc.count ∧
          m.host.cplWait = b.host.cplWait ∧ { m with host := b.host, rc := b.rc } = b)) ∧
      (sub.nscn ≤ scn b → Does (.rollCall sub) s (fun m => m.rc = b.rc ∧ Completes 0xEA 0x05 1 sub b m))) ∧
    (∀ ws, Admits q 0xEB false sub s.m → b = taken 0xEB sub s.m → ws = (List.range 8).map (fun i => BitVec.ofNat 32 (readLE sub.oper (4 * i) 4)) →
      (ws.all pcWordOk = true → Does (.setCounters sub) s (fun m =>
        m.pc = { b.pc with waiting := some (ws, scn b) } ∧ Completes 0xEB 0 0 sub b m ∧ { m with host := b.host, pc := b.pc } = b)) ∧
      (ws.all pcWordOk = false → Does (.setCounters sub) s (fun m =>
        Completes 0xEB 0x07 1 sub b m ∧ { m with host := b.host } = b)))

/-- 0xE0 OPEN SESSION, 0xE1 HEADER, 0xE2 PAYLOAD CHUNK, 0xE3 VERIFY, 0xE4 ACTIVATE, 0xE5 CLOSE SESSION (R529-R537, R552).
Readings: log entries 11, 41, 57. -/
def Obligations.UpdateSession : Prop :=
  ∀ (s : State) (q : Fin 32) (sub : Submission) (b : Mod), s.m.powered = true →
    (Admits q 0xE0 false sub s.m → b = taken 0xE0 sub s.m → 1 ≤ byteAt sub.oper 0 → byteAt sub.oper 0 ≤ 6 →
      (openRefusal b (byteAt sub.oper 0) (readLE sub.oper 2 2) = 0 → Does (.openSession sub) s (fun m =>
        m.up.session = some { num := b.up.nextNum, src := sub.src, kind := byteAt sub.oper 0, station := readLE sub.oper 2 2, lastAt := b.clk,
                              header := none, payload := [], held := PerLane.all [], verified := false } ∧
        m.up.nextNum = b.up.nextNum % (2 ^ 32 - 1) + 1 ∧
        m.host.cplWait = b.host.cplWait ++ [(sub.src, { cplOf 0xE0 sub.tag 0 0 with result := bytesLE 4 b.up.nextNum })] ∧
        TellsAgreed 0xE0 { arg1 := byteAt sub.oper 0, arg2 := b.up.nextNum } b m ∧
        { m with host := b.host, up := b.up, rcd := b.rcd } = b)) ∧
      (openRefusal b (byteAt sub.oper 0) (readLE sub.oper 2 2) ≠ 0 → Does (.openSession sub) s (fun m =>
        m.up.session = b.up.session ∧ m.up.lref = 7 ∧ Completes 0xE0 0x07 (openRefusal b (byteAt sub.oper 0) (readLE sub.oper 2 2)) sub b m ∧
        { m with host := b.host, up := b.up } = b))) ∧
    (∀ x, sessionOf sub b = some x →
      (Admits q 0xE1 false sub s.m → b = taken 0xE1 sub s.m → headerStep b x sub.blob = 0 → Does (.header sub) s (fun m =>
        m.up.session = some { x with header := some (parseHeader sub.blob), payload := [], held := PerLane.all [], verified := false, lastAt := b.clk } ∧
        Completes 0xE1 0 0 sub b m ∧ m.nv.banks = b.nv.banks ∧ m.md = b.md ∧ m.fio = b.fio ∧ SameImages b m)) ∧
      (Admits q 0xE1 false sub s.m → b = taken 0xE1 sub s.m → headerStep b x sub.blob ≠ 0 → headerStep b x sub.blob ≠ 5 → Does (.header sub) s (fun m =>
        m.up.session = some { x with header := none, payload := [], held := PerLane.all [], verified := false, lastAt := b.clk } ∧
        Completes 0xE1 0x20 (headerStep b x sub.blob) sub b m ∧ m.nv.banks = b.nv.banks ∧ m.md = b.md ∧
        TellsAgreed 0xE2 { arg1 := x.kind, arg2 := headerStep b x sub.blob } b m)) ∧
      (∀ h, Admits q 0xE2 false sub s.m → b = taken 0xE2 sub s.m → x.header = some h → 95 ≤ b.pw.charge →
        (chunkOk x h (readLE sub.oper 4 4) (readLE sub.oper 16 4) = true → Does (.payloadChunk sub) s (fun m =>
          m.up.session = some { x with payload := x.payload ++ cut sub.blob 0 (readLE sub.oper 16 4), verified := false, lastAt := b.clk,
                                       held := x.held.mapL (fun l bs => if l ∈ updateLanes b then bs ++ cut sub.blob 0 (readLE sub.oper 16 4) else bs) } ∧
          Completes 0xE2 0 0 sub b m ∧ m.nv.banks.act = b.nv.banks.act ∧ m.md = b.md ∧ m.fio = b.fio ∧ SameImages b m)) ∧
        (chunkOk x h (readLE sub.oper 4 4) (readLE sub.oper 16 4) = false → Does (.payloadChunk sub) s (fun m =>
          m.up.session = some { x with lastAt := b.clk } ∧ Completes 0xE2 0x07 2 sub b m ∧ m.nv = b.nv ∧ m.ln = b.ln))) ∧
      (∀ h code, Admits q 0xE3 false sub s.m → b = taken 0xE3 sub s.m → x.header = some h → x.payload.length = h.plen → h.kind ≠ 6 → code = contentCode b (stagedNow b) h (bankCopies b x) →
        (code = 0 → Does (.verify sub) s (fun m =>
          m.up.session = some { x with verified := true, lastAt := b.clk } ∧ verifiedHdr m h.kind = some h ∧ Completes 0xE3 0 0 sub b m ∧
          TellsAgreed 0xE1 { arg1 := x.kind, arg2 := x.num } b m ∧ m.nv.banks.act = b.nv.banks.act ∧ m.md = b.md ∧ SameImages b m)) ∧
        (code ≠ 0 → Does (.verify sub) s (fun m =>
          verifiedHdr m h.kind = none ∧ Completes 0xE3 0x21 (code) sub b m ∧ m.nv.banks.act = b.nv.banks.act ∧
          TellsAgreed 0xE2 { arg1 := x.kind, arg2 := code } b m ∧ m.md = b.md ∧ SameImages b m))) ∧
      (∀ h kinds, Admits q 0xE4 false sub s.m → b = taken 0xE4 sub s.m → x.header = some h → x.verified = true → kinds = activeKinds b x.kind → nsMatches b kinds = true →
        byteAt sub.oper 4 = 0 → sub.nscn ≠ 0 → scnAllowed b false sub.nscn = true → kindAllows b x.kind kinds false = true →
        stateForbids b kinds false x.station = false → 95 ≤ b.pw.charge → x.kind ≠ 6 → Does (.activate sub) s (fun m =>
          m.up.act = some { scn := sub.nscn, online := false, kinds := kinds, prepared := false, hdr := h } ∧ m.up.session = none ∧
          m.up.result = 1 ∧ Completes 0xE4 0 0 sub b m ∧
          m.nv = (if b.up.act.isSome then { b.nv with banks := { b.nv.banks with next := 0, used := 0 } } else b.nv) ∧ m.ln = b.ln ∧ m.md = b.md ∧ m.fio = b.fio ∧ SameImages b m)) ∧
      (Admits q 0xE5 false sub s.m → b = taken 0xE5 sub s.m → Does (.closeSession sub) s (fun m =>
        m.up.session = none ∧ m.up.act = b.up.act ∧ Completes 0xE5 0 0 sub b m ∧
        { m with host := b.host, up := b.up, rcd := b.rcd } = b))) ∧
    (sessionOf sub b = none → Admits q 0xE5 false sub s.m → b = taken 0xE5 sub s.m → Does (.closeSession sub) s (fun m =>
      m.up.session = b.up.session ∧ Completes 0xE5 0x07 1 sub b m))

/-! ## Owner commands (R554-R574) -/

/-- An owner command that is authentic, in an owner's session, is accepted at the next freeze, stores its counter and has its effect; one that is not counts as a failed
authentication and changes nothing else (R554-R562, R568, R569, R574).
Readings: log entries 42, 62. -/
def Obligations.OwnerCommands : Prop :=
  ∀ (s : State) (h : OwnerHead) (t : Mod), s.m.powered = true → t = toFreeze s.m → ownerSession s.m = true → operating s.m = true →
    (ownerOk s.m h = false → ∀ on, Does (.ownerUpdateLock h on) s (fun m =>
      m.nv.sec.olock = s.m.nv.sec.olock ∧ m.sec.authf = satN 255 (s.m.sec.authf + 1) ∧ 6 ∈ m.sec.seen ∧ m.ln = t.ln ∧ m.clk = t.clk ∧ m.md = s.m.md ∧
      m.host.cplWait = s.m.host.cplWait ++ [(.service, cplOf 0xF5 (headTag h) 0x30 0)])) ∧
    (ownerOk s.m h = true →
      (∀ root nid partner paired, s.m.sec.lc = .blank → Does (.provision h root nid partner paired) s (fun m =>
        m.sec.lc = .provisioned ∧ m.nv.paired = paired ∧ m.nv.partnerId = partner ∧ m.nv.sec.nid = nid ∧
        (∀ l, (s.m.ln.get l).supplied = true → (m.ln.get l).nv.keys =
          { (s.m.ln.get l).nv.keys with counter := headCounter h, owner := some root, lifecycle := .provisioned }) ∧
        m.host.cplWait = s.m.host.cplWait ++ [(.service, cplOf 0xF0 (headTag h) 0 0)] ∧ TellsAgreed 0xF5 { arg1 := 1 } t m ∧ m.md = s.m.md ∧ SameImages s.m m)) ∧
      (∀ root nid partner paired, s.m.sec.lc ≠ .blank → Does (.provision h root nid partner paired) s (fun m =>
        m.sec = s.m.sec ∧ m.nv = s.m.nv ∧ m.host.cplWait = s.m.host.cplWait ++ [(.service, cplOf 0xF0 (headTag h) 0x31 1)] ∧
        TellsAgreed 0xF9 { arg1 := 0xF0, arg2 := 0x31 } t m)) ∧
      (∀ p l key, s.m.sec.lc ≠ .retired → s.m.sec.lc ≠ .fieldLocked → (s.m.ln.get (refLane s.m)).nv.keys.channel.length ≤ 2048 →
        (s.m.ln.get l).supplied = true → Does (.loadWrappedKeys h [.position p key]) s (fun m =>
          (m.ln.get l).nv.keys.position = (if p = l ∧ (s.m.ln.get l).nv.keys.position = none then some key else (s.m.ln.get l).nv.keys.position) ∧
          (p = l → (s.m.ln.get l).nv.keys.position.isSome = true → (m.ln.get l).nv.keys.next = (s.m.ln.get l).nv.keys.next ++ [.position p key]) ∧
          (m.ln.get l).nv.keys.channel = (s.m.ln.get l).nv.keys.channel ∧ (m.ln.get l).opened = (s.m.ln.get l).opened ∧
          m.host.cplWait = s.m.host.cplWait ++ [(.service, cplOf 0xF1 (headTag h) 0 0)] ∧ m.nv = s.m.nv ∧ m.md = s.m.md)) ∧
      (∀ x, lcMove s.m.sec.lc x = true → x ≠ .retired → lcReady s.m x = true → Does (.lifecycleTransition h x) s (fun m =>
        m.sec.lc = x ∧ m.nv.store.field = (s.m.nv.store.field || x == .field) ∧
        (∀ l, (s.m.ln.get l).supplied = true → (m.ln.get l).nv.keys.lifecycle = x ∧
          (m.ln.get l).nv.keys.fused = ((s.m.ln.get l).nv.keys.fused || x == .field) ∧ (m.ln.get l).nv.keys.position = (s.m.ln.get l).nv.keys.position) ∧
        m.host.cplWait = s.m.host.cplWait ++ [(.service, cplOf 0xF2 (headTag h) 0 0)] ∧ TellsAgreed 0xF5 { arg1 := lcCode x } t m ∧ m.md = s.m.md)) ∧
      (∀ x, lcMove s.m.sec.lc x = false → Does (.lifecycleTransition h x) s (fun m =>
        m.sec.lc = s.m.sec.lc ∧ m.nv = s.m.nv ∧ m.host.cplWait = s.m.host.cplWait ++ [(.service, cplOf 0xF2 (headTag h) 0x31 1)])) ∧
      (∀ levels authn, s.m.sec.lc ≠ .fieldLocked → s.m.sec.lc ≠ .retired → levels.length = 13 → 3 ≤ authn → authn ≤ 20 →
        (levels.zipIdx.all (fun p => decide ((levelRange (s.m.sec.lc == .field) p.2).1 ≤ p.1) && decide (p.1 ≤ (levelRange (s.m.sec.lc == .field) p.2).2)) = true →
          Does (.setAlarmLevels h levels authn) s (fun m => m.nv.sec = { s.m.nv.sec with levels := levels, authn := authn } ∧
            m.host.cplWait = s.m.host.cplWait ++ [(.service, cplOf 0xF3 (headTag h) 0 0)] ∧ TellsAgreed 0xFA {} t m ∧ m.sec = s.m.sec ∧ m.md = s.m.md)) ∧
        (levels.zipIdx.all (fun p => decide ((levelRange (s.m.sec.lc == .field) p.2).1 ≤ p.1) && decide (p.1 ≤ (levelRange (s.m.sec.lc == .field) p.2).2)) = false →
          Does (.setAlarmLevels h levels authn) s (fun m => m.nv = s.m.nv ∧
            m.host.cplWait = s.m.host.cplWait ++ [(.service, cplOf 0xF3 (headTag h) 0x32 0)]))) ∧
      (s.m.nv.sec.pend ≠ 0 → (s.m.nv.sec.pend = 3 → (posKeys s.m).length = 3) → (∀ l, (s.m.ln.get l).mesh = true ∧ (s.m.ln.get l).envOk = true) →
        Does (.clearPendingAlarm h) s (fun m => m.nv.sec = { s.m.nv.sec with pend := 0 } ∧ (∀ l, (m.ln.get l).alarmLevel = 0) ∧
          m.host.cplWait = s.m.host.cplWait ++ [(.service, cplOf 0xF4 (headTag h) 0 0)] ∧ m.sec = s.m.sec ∧ m.md = s.m.md ∧
          TellsAgreed 0xF4 { arg1 := h.subject.toNat % 2 ^ 32, arg2 := h.subject.toNat / 2 ^ 32 } t m)) ∧
      (s.m.nv.sec.pend = 0 → Does (.clearPendingAlarm h) s (fun m => m.nv = s.m.nv ∧
        m.host.cplWait = s.m.host.cplWait ++ [(.service, cplOf 0xF4 (headTag h) 0x07 1)])) ∧
      (∀ on, s.m.sec.lc ≠ .fieldLocked → Does (.ownerUpdateLock h on) s (fun m => m.nv.sec = { s.m.nv.sec with olock := on } ∧
        (∀ l, (s.m.ln.get l).supplied = true → (m.ln.get l).nv.keys = { (s.m.ln.get l).nv.keys with counter := headCounter h }) ∧
        m.host.cplWait = s.m.host.cplWait ++ [(.service, cplOf 0xF5 (headTag h) 0 0)] ∧ TellsAgreed 0xFB { arg1 := b2n on } t m ∧ m.md = s.m.md)) ∧
      (∀ l v, s.m.sec.lc ≠ .fieldLocked → (s.m.ln.get l).supplied = true → runningVersion s.m 5 0 = some v → v < 2 ^ 32 →
        Does (.raiseRollbackFloor h 5) s (fun m =>
          (tabGet 0 (m.ln.get l).nv.keys.floors 5).toNat = max (tabGet 0 (s.m.ln.get l).nv.keys.floors 5).toNat v ∧
          m.host.cplWait = s.m.host.cplWait ++ [(.service, cplOf 0xF6 (headTag h) 0 0)] ∧ TellsAgreed 0xFC { arg1 := 5, arg2 := v } t m ∧ m.nv = s.m.nv)) ∧
      (∀ slot signer sig ivk, ivk = (s.m.ln.get (refLane s.m)).nv.keys.ivk →
        (slot ≠ signer → ivk.getD signer false = true → Config.imageSigOk signer h.block sig = true → ((ivk.set slot false).filter id).length ≠ 0 →
          Does (.revokeImageVerificationKey h slot signer sig) s (fun m =>
            (∀ l, (s.m.ln.get l).supplied = true → (m.ln.get l).nv.keys.ivk = (s.m.ln.get l).nv.keys.ivk.set slot false) ∧
            m.host.cplWait = s.m.host.cplWait ++ [(.service, cplOf 0xF7 (headTag h) 0 0)] ∧ TellsAgreed 0xFD { arg1 := slot } t m ∧ m.nv = s.m.nv)) ∧
        (Does (.revokeImageVerificationKey h signer signer sig) s (fun m =>
          (∀ l, (m.ln.get l).nv.keys.ivk = (s.m.ln.get l).nv.keys.ivk) ∧ m.host.cplWait = s.m.host.cplWait ++ [(.service, cplOf 0xF7 (headTag h) 0x07 1)]))))

/-! ## JIC (R160-R191, R224-R231, R606-R609) -/

/-- JIC control flow, 0x00-0x0B (R172, R174, R607, R608): where each continues, what it opens and closes, and with which fault it parks; a heat whose address
holds an illegal opcode is parked with fault 1 and what the code holds there decides the instruction.
Readings: log entry 31. -/
def Obligations.JicControlFlow : Prop :=
  ∀ (s : State) (t : Nat) (d : TaskDesc) (x : Tcb) (a : Rg) (w : W32), s.m.powered = true → InHeat t d s.m → x = tcbOf s.m t →
    DoesAt t .jNop s (Continues t (x.pc + 1) s.m) ∧ DoesAt t (.jJmp w) s (Continues t w.toNat s.m) ∧
    (∀ b : Bool, Holds s.m t a .bool (b2n b) →
      DoesAt t (.jJt a w) s (Continues t (if b then w.toNat else x.pc + 2) s.m) ∧ DoesAt t (.jJf a w) s (Continues t (if b then x.pc + 2 else w.toNat) s.m) ∧
      DoesAt t (.jChk a w) s (fun m => if b then Continues t (x.pc + 2) s.m m else Parks t fApp s.m m)) ∧
    ((regAt s.m t a).ty ≠ .bool → DoesAt t (.jJt a w) s (Parks t fType s.m) ∧ DoesAt t (.jJf a w) s (Parks t fType s.m) ∧ DoesAt t (.jChk a w) s (Parks t fType s.m)) ∧
    (∀ es i, es = s.m.lg.app.jtabs.getD w.toNat [] → Holds s.m t a .int32 i →
      (0 ≤ i → i < es.length → DoesAt t (.jJtab a w) s (Continues t (es.getD i.toNat 0) s.m)) ∧
      (i < 0 ∨ (es.length : Int) ≤ i → DoesAt t (.jJtab a w) s (Parks t fBound s.m))) ∧
    (x.calls.length < 16 → DoesAt t (.jCall w) s (fun m => LogicOnly t s.m m ∧
      tcbOf m t = { x with calls := { ret := x.pc + 2, depth := x.loops.length } :: x.calls, pc := w.toNat, instrs := x.instrs + 1,
                           sliceLeft := x.sliceLeft - 1 })) ∧
    (16 ≤ x.calls.length → DoesAt t (.jCall w) s (Parks t fDepth s.m)) ∧
    (∀ c cs, x.calls = c :: cs → DoesAt t .jRet s (fun m => LogicOnly t s.m m ∧
      tcbOf m t = { x with calls := cs, pc := c.ret, loops := x.loops.drop (x.loops.length - c.depth), instrs := x.instrs + 1,
                           sliceLeft := x.sliceLeft - 1 })) ∧
    (x.calls = [] → DoesAt t .jRet s (Parks t fBound s.m)) ∧
    (∀ (n off : W16) i, Holds s.m t a .int32 i →
      (i = 0 → DoesAt t (.jLoop a n off) s (Continues t (x.pc + off.toNat) s.m)) ∧
      (0 < i → i ≤ n.toNat → x.loops.length < 16 → DoesAt t (.jLoop a n off) s (fun m => LogicOnly t s.m m ∧
        tcbOf m t = { x with loops := { start := x.pc + 2, fin := x.pc + off.toNat, count := i.toNat } :: x.loops, pc := x.pc + 2,
                             instrs := x.instrs + 1, sliceLeft := x.sliceLeft - 1 })) ∧
      (i < 0 ∨ (n.toNat : Int) < i → DoesAt t (.jLoop a n off) s (Parks t fLoop s.m))) ∧
    (∀ l ls, x.loops = l :: ls →
      (1 < l.count → DoesAt t .jNext s (fun m => LogicOnly t s.m m ∧
        tcbOf m t = { x with loops := { l with count := l.count - 1 } :: ls, pc := l.start, instrs := x.instrs + 1, sliceLeft := x.sliceLeft - 1 })) ∧
      (l.count ≤ 1 → DoesAt t .jNext s (fun m => LogicOnly t s.m m ∧
        tcbOf m t = { x with loops := ls, pc := l.fin, instrs := x.instrs + 1, sliceLeft := x.sliceLeft - 1 }))) ∧
    (x.loops = [] → DoesAt t .jNext s (Parks t fBound s.m)) ∧
    (x.cmds = [] → DoesAt t .jEnd s (fun m =>
      tcbOf m t = clearTcb x ∧ (∀ j, j ≠ t → tcbOf m j = tcbOf s.m j) ∧ m.lg.running = s.m.lg.stack.head? ∧ m.host = s.m.host ∧
      { m with lg := s.m.lg, ln := s.m.ln } = s.m)) ∧
    DoesAt t (.jFail w) s (Parks t fApp s.m) ∧
    (codeAt s.m.lg.app x.pc = .illegal → ∀ i ∈ [Instr.jNop, .jJmp w, .jJt a w, .jJf a w, .jJtab a w, .jCall w, .jRet, .jLoop a 1 2, .jNext, .jEnd,
        .jFail w, .jChk a w], Does i s (Parks t fIllegal s.m)) ∧
    (∀ k i, codeAt s.m.lg.app x.pc = .instr k → i ∈ [Instr.jNop, .jJmp w, .jJt a w, .jRet, .jNext, .jEnd, .jFail w] → i ≠ k → Does i s (fun m => m = s.m))

/-- JIC values and variables, 0x0C-0x1B (R92, R161-R163, R167, R174, R188, R607, R609): what each loads, and that a store goes to the
variable's place in the next image and to the owner's variables only.
Readings: log entries 29, 31. -/
def Obligations.JicValues : Prop :=
  ∀ (s : State) (t : Nat) (e : TaskDesc) (a b c d : Rg) (w : W32), s.m.powered = true → InHeat t e s.m →
    (∀ ty v, ty = tyOfTag c.toNat → ty ≠ .none →
      (v = (if ty = .int16 ∨ ty = .int32 ∨ ty = .dur ∨ ty = .tstamp then w.toInt else (w.toNat : Int)) →
        (fits ty v = true → ty ≠ .obj ∨ refOk s.m.lg.app v.toNat = true → DoesAt t (.jLdi d c w) s (Results t 2 d (regOf ty v) s.m)) ∧
        (fits ty v = false → DoesAt t (.jLdi d c w) s (Parks t fOverflow s.m))) ∧
      ((regAt s.m t a).ty ≠ .none → v = regInt (regAt s.m t a) →
        (fits ty v = true → ty ≠ .obj ∨ refOk s.m.lg.app v.toNat = true → DoesAt t (.jCvt d a c) s (Results t 1 d (regOf ty v) s.m)) ∧
        (fits ty v = false → DoesAt t (.jCvt d a c) s (Parks t fOverflow s.m))) ∧
      DoesAt t (.jClr d c) s (Results t 1 d (regOf ty (initVal ty)) s.m)) ∧
    (∀ ty v, s.m.lg.app.kpool[w.toNat]? = some (ty, v) → ty ≠ .none → DoesAt t (.jLdk d w) s (Results t 2 d { ty := ty, val := v } s.m)) ∧
    (s.m.lg.app.kpool[w.toNat]? = none → DoesAt t (.jLdk d w) s (Parks t fBound s.m)) ∧
    ((regAt s.m t a).ty ≠ .none → DoesAt t (.jMov d a) s (Results t 1 d (regAt s.m t a) s.m)) ∧
    ((regAt s.m t a).ty = .none → DoesAt t (.jMov d a) s (Parks t fType s.m)) ∧
    (∀ p : Bool, Holds s.m t a .bool (b2n p) → (regAt s.m t b).ty ≠ .none → (regAt s.m t b).ty = (regAt s.m t c).ty →
      DoesAt t (.jSel d a b c) s (Results t 1 d (if p then regAt s.m t b else regAt s.m t c) s.m)) ∧
    (∀ i, Holds s.m t a .int32 i →
      (objIn s.m.lg.app c.toNat i = true → DoesAt t (.jObj d a c) s (Results t 1 d (regOf .obj (c.toNat * 2 ^ 28 + i)) s.m)) ∧
      (objIn s.m.lg.app c.toNat i = false → DoesAt t (.jObj d a c) s (Parks t fObj s.m))) ∧
    (∀ i : Nat, Holds s.m t a .obj i →
      (i ≠ nullRef → DoesAt t (.jIdx d a) s (Results t 1 d (regOf .int32 (fieldOf i 0 16)) s.m)) ∧
      (i = nullRef → DoesAt t (.jIdx d a) s (Parks t fObj s.m))) ∧
    (∀ v img, s.m.lg.app.vars.find? (fun x => x.vid == w.toNat) = some v → img = (if v.owner = t then s.m.nxt else s.m.cur) →
      (forceOn s.m false v.vid = none →
        (plainVar v = true → ∀ x, decodeVal v.ty v.emax (ofLE (memRead img v.addr (tyBytes v.ty))) = .ok x → DoesAt t (.jLd d w) s (Results t 2 d x s.m)) ∧
        (plainVar v = true → ∀ x, decodeVal v.ty v.emax (ofLE (memRead s.m.cur v.addr (tyBytes v.ty))) = .ok x →
          DoesAt t (.jLdp d w) s (Results t 2 d x s.m)) ∧
        (∀ n i x, v.count = some n → v.fields = [] → Holds s.m t a .int32 i → 0 ≤ i → i < n →
          decodeVal v.ty v.emax (ofLE (memRead img (v.addr + i.toNat * tyBytes v.ty) (tyBytes v.ty))) = .ok x →
          DoesAt t (.jLdx d a w) s (Results t 2 d x s.m)) ∧
        (∀ f x, v.count = none → v.fields[c.toNat]? = some f → decodeVal f.ty f.emax (ofLE (memRead img (v.addr + f.off) (tyBytes f.ty))) = .ok x →
          DoesAt t (.jLdf d c w) s (Results t 2 d x s.m))) ∧
      (∀ f, forceOn s.m false v.vid = some f → plainVar v = true → DoesAt t (.jLd d w) s (Results t 2 d { ty := v.ty, val := f.val } s.m)) ∧
      (∀ n i, v.count = some n → v.fields = [] → Holds s.m t a .int32 i → i < 0 ∨ (n : Int) ≤ i → DoesAt t (.jLdx d a w) s (Parks t fBound s.m)) ∧
      (∀ n, v.count = some n → v.fields = [] → DoesAt t (.jLen d w) s (Results t 2 d (regOf .int32 n) s.m)) ∧
      (v.owner = t →
        (plainVar v = true → (regAt s.m t a).ty = v.ty → v.ty ≠ .none → (v.ty = .enum8 → (regAt s.m t a).val.toNat ≤ v.emax) →
          DoesAt t (.jSt w a) s (StoresAt t v.addr (bytesLE (tyBytes v.ty) (regAt s.m t a).val.toNat) s.m)) ∧
        (∀ n i, v.count = some n → v.fields = [] → Holds s.m t a .int32 i → 0 ≤ i → i < n → (regAt s.m t b).ty = v.ty → v.ty ≠ .none →
          (v.ty = .enum8 → (regAt s.m t b).val.toNat ≤ v.emax) →
          DoesAt t (.jStx w a b) s (StoresAt t (v.addr + i.toNat * tyBytes v.ty) (bytesLE (tyBytes v.ty) (regAt s.m t b).val.toNat) s.m)) ∧
        (∀ f, v.count = none → v.fields[c.toNat]? = some f → (regAt s.m t a).ty = f.ty → f.ty ≠ .none →
          (f.ty = .enum8 → (regAt s.m t a).val.toNat ≤ f.emax) →
          DoesAt t (.jStf w c a) s (StoresAt t (v.addr + f.off) (bytesLE (tyBytes f.ty) (regAt s.m t a).val.toNat) s.m))) ∧
      (v.owner ≠ t → DoesAt t (.jSt w a) s (Parks t fOwner s.m) ∧ DoesAt t (.jStx w a b) s (Parks t fOwner s.m) ∧ DoesAt t (.jStf w c a) s (Parks t fOwner s.m)))

/-- JIC arithmetic, comparison, logic, bits and STATE4, 0x1C-0x3C (R163, R174, R606, R607): the exact result where it fits its type, and the
fault otherwise.
Readings: log entry 31. -/
def Obligations.JicArithmetic : Prop :=
  ∀ (s : State) (t : Nat) (e : TaskDesc) (a b c d : Rg), s.m.powered = true → InHeat t e s.m →
    (∀ ty x y, Holds s.m t a ty x → Holds s.m t b ty y →
      (arithTy ty = true →
        (fits ty (x + y) = true → DoesAt t (.jAdd d a b) s (Results t 1 d (regOf ty (x + y)) s.m)) ∧
        (fits ty (x + y) = false → DoesAt t (.jAdd d a b) s (Parks t fOverflow s.m)) ∧
        (fits ty (x - y) = true → DoesAt t (.jSub d a b) s (Results t 1 d (regOf ty (x - y)) s.m)) ∧
        (fits ty (x - y) = false → DoesAt t (.jSub d a b) s (Parks t fOverflow s.m)) ∧
        (fits ty (x * y) = true → DoesAt t (.jMul d a b) s (Results t 1 d (regOf ty (x * y)) s.m)) ∧
        (fits ty (x * y) = false → DoesAt t (.jMul d a b) s (Parks t fOverflow s.m)) ∧
        (y ≠ 0 → fits ty (Int.tdiv x y) = true → DoesAt t (.jDiv d a b) s (Results t 1 d (regOf ty (Int.tdiv x y)) s.m)) ∧
        (y ≠ 0 → fits ty (Int.tdiv x y) = false → DoesAt t (.jDiv d a b) s (Parks t fOverflow s.m)) ∧
        (y ≠ 0 → fits ty (Int.tmod x y) = true → DoesAt t (.jMod d a b) s (Results t 1 d (regOf ty (Int.tmod x y)) s.m)) ∧
        (y = 0 → DoesAt t (.jDiv d a b) s (Parks t fDiv s.m) ∧ DoesAt t (.jMod d a b) s (Parks t fDiv s.m))) ∧
      (orderTy ty = true → fits ty x = true → fits ty y = true →
        DoesAt t (.jMin d a b) s (Results t 1 d (regOf ty (min x y)) s.m) ∧ DoesAt t (.jMax d a b) s (Results t 1 d (regOf ty (max x y)) s.m) ∧
        (∀ z, Holds s.m t c ty z → fits ty z = true →
          (y ≤ z → DoesAt t (.jLim d a b c) s (Results t 1 d (regOf ty (max y (min x z))) s.m)) ∧
          (z < y → DoesAt t (.jLim d a b c) s (Parks t fBound s.m)))) ∧
      (orderTy ty = true →
        DoesAt t (.jLt d a b) s (Results t 1 d (boolReg (decide (x < y))) s.m) ∧ DoesAt t (.jLe d a b) s (Results t 1 d (boolReg (decide (x ≤ y))) s.m) ∧
        DoesAt t (.jGt d a b) s (Results t 1 d (boolReg (decide (y < x))) s.m) ∧ DoesAt t (.jGe d a b) s (Results t 1 d (boolReg (decide (y ≤ x))) s.m)) ∧
      DoesAt t (.jEq d a b) s (Results t 1 d (boolReg (decide (x = y))) s.m) ∧ DoesAt t (.jNe d a b) s (Results t 1 d (boolReg (decide (x ≠ y))) s.m) ∧
      (ty = .state4 → fits .state4 x = true → DoesAt t (.jAgr d a b) s (Results t 1 d (regOf .state4 (if x = y then x else 3)) s.m))) ∧
    ((regAt s.m t a).ty ≠ (regAt s.m t b).ty → DoesAt t (.jMul d a b) s (Parks t fType s.m) ∧ DoesAt t (.jDiv d a b) s (Parks t fType s.m) ∧
      DoesAt t (.jLt d a b) s (Parks t fType s.m) ∧ DoesAt t (.jEq d a b) s (Parks t fType s.m)) ∧
    (∀ x y, Holds s.m t a .tstamp x →
      (Holds s.m t b .dur y → fits .tstamp (x + y) = true → DoesAt t (.jAdd d a b) s (Results t 1 d (regOf .tstamp (x + y)) s.m)) ∧
      (Holds s.m t b .dur y → fits .tstamp (x - y) = true → DoesAt t (.jSub d a b) s (Results t 1 d (regOf .tstamp (x - y)) s.m)) ∧
      (Holds s.m t b .tstamp y → fits .dur (x - y) = true → DoesAt t (.jSub d a b) s (Results t 1 d (regOf .dur (x - y)) s.m))) ∧
    (∀ ty x, Holds s.m t a ty x → negTy ty = true →
      (fits ty (-x) = true → DoesAt t (.jNeg d a) s (Results t 1 d (regOf ty (-x)) s.m)) ∧
      (fits ty (-x) = false → DoesAt t (.jNeg d a) s (Parks t fOverflow s.m)) ∧
      (fits ty (x.natAbs : Int) = true → DoesAt t (.jAbs d a) s (Results t 1 d (regOf ty (x.natAbs : Int)) s.m))) ∧
    (∀ p q : Bool, Holds s.m t a .bool (b2n p) → DoesAt t (.jNot d a) s (Results t 1 d (boolReg (!p)) s.m) ∧
      (Holds s.m t b .bool (b2n q) → DoesAt t (.jAnd d a b) s (Results t 1 d (boolReg (p && q)) s.m) ∧
        DoesAt t (.jOr d a b) s (Results t 1 d (boolReg (p || q)) s.m) ∧ DoesAt t (.jXor d a b) s (Results t 1 d (boolReg (p ^^ q)) s.m))) ∧
    (∀ u v : W32, Holds s.m t a .uint32 (u.toNat : Int) →
      DoesAt t (.jBnot d a) s (Results t 1 d (regOf .uint32 (~~~ u).toNat) s.m) ∧
      (Holds s.m t b .uint32 (v.toNat : Int) →
        DoesAt t (.jBand d a b) s (Results t 1 d (regOf .uint32 (u &&& v).toNat) s.m) ∧
        DoesAt t (.jBor d a b) s (Results t 1 d (regOf .uint32 (u ||| v).toNat) s.m) ∧
        DoesAt t (.jBxor d a b) s (Results t 1 d (regOf .uint32 (u ^^^ v).toNat) s.m)) ∧
      (∀ k : Nat, Holds s.m t b .int32 k →
        (k < 32 → DoesAt t (.jShl d a b) s (Results t 1 d (regOf .uint32 (u <<< k).toNat) s.m) ∧
          DoesAt t (.jShr d a b) s (Results t 1 d (regOf .uint32 (u >>> k).toNat) s.m) ∧
          DoesAt t (.jBtst d a b) s (Results t 1 d (boolReg (u.getLsbD k)) s.m) ∧
          DoesAt t (.jBset d a b) s (fun m => ∃ z : W32, Results t 1 d (regOf .uint32 z.toNat) s.m m ∧ z.getLsbD k = true ∧ ∀ i, i ≠ k → z.getLsbD i = u.getLsbD i) ∧
          DoesAt t (.jBclr d a b) s (fun m => ∃ z : W32, Results t 1 d (regOf .uint32 z.toNat) s.m m ∧ z.getLsbD k = false ∧ ∀ i, i ≠ k → z.getLsbD i = u.getLsbD i)) ∧
        (32 ≤ k → DoesAt t (.jShl d a b) s (Parks t fBound s.m) ∧ DoesAt t (.jShr d a b) s (Parks t fBound s.m) ∧ DoesAt t (.jBtst d a b) s (Parks t fBound s.m)))) ∧
    (∀ x, Holds s.m t a .state4 x → DoesAt t (.jIscl d a) s (Results t 1 d (boolReg (decide (x = 1))) s.m) ∧
      DoesAt t (.jIsop d a) s (Results t 1 d (boolReg (decide (x = 0))) s.m) ∧ DoesAt t (.jIsbd d a) s (Results t 1 d (boolReg (decide (2 ≤ x))) s.m))

/-- JIC inputs and module state, 0x3D-0x44, and instances, 0x45-0x4E (R140, R174, R183-R188, R607): the value of an input with its force, the
timers' output and state, and whose instances a task may evaluate.
Readings: log entry 31. -/
def Obligations.JicInputsAndTimers : Prop :=
  ∀ (s : State) (t : Nat) (e : TaskDesc) (a b d : Rg) (w : W32), s.m.powered = true → InHeat t e s.m →
    (∀ (v : Nat) o i, Holds s.m t a .obj v → s.m.lg.app.objs.find? (fun x => x.ref.toNat == v) = some o → e.kind ≠ .slow → inputVal s.m o = some i →
      DoesAt t (.jIn d a) s (Results t 1 d { ty := i.ty, val := ((forceOn s.m true v).map (·.val)).getD i.val } s.m) ∧
      DoesAt t (.jInq d a) s (Results t 1 d (regOf .uint32 (putField i.quality 1 1 (b2n (forceOn s.m true v).isSome) : Nat)) s.m)) ∧
    (∀ n, Refers s.m t a 6 n → DoesAt t (.jStn d a) s (Results t 1 d (regOf .enum8 (stnOf s.m n)) s.m)) ∧
    (∀ v, s.m.lg.app.vars.find? (fun x => x.vid == w.toNat) = some v → v.obj = none →
      DoesAt t (.jFrc d w) s (Results t 2 d (boolReg (forceOn s.m false v.vid).isSome) s.m)) ∧
    (∀ n, Refers s.m t a 5 n → DoesAt t (.jArea d a) s (Results t 1 d (boolReg (s.m.md.areas.getLsbD n)) s.m)) ∧
    (∀ g : Nat, Holds s.m t a .int32 g →
      (g < 4 → DoesAt t (.jGrp d a) s (Results t 1 d (regOf .enum8 (grpSeen s.m g)) s.m)) ∧ (4 ≤ g → DoesAt t (.jGrp d a) s (Parks t fBound s.m))) ∧
    DoesAt t (.jNow d) s (Results t 1 d (regOf .tstamp (tcbOf s.m t).nominal) s.m) ∧
    (∀ v, Holds s.m t a .tstamp v →
      (v ≤ (tcbOf s.m t).nominal → fits .dur ((tcbOf s.m t).nominal - v) = true →
        DoesAt t (.jElap d a) s (Results t 1 d (regOf .dur ((tcbOf s.m t).nominal - v)) s.m)) ∧
      (((tcbOf s.m t).nominal : Int) < v → DoesAt t (.jElap d a) s (Parks t fBound s.m))) ∧
    (∀ i x, s.m.lg.app.insts.find? (fun k => k.num == w.toNat && k.kind == .timer) = some i → x = tabGet InstState.idle s.m.lg.insts w.toNat →
      (i.task = t → ∀ (p : Nat) (q : Bool), Holds s.m t a .bool (b2n q) → Holds s.m t b .dur p → p ≤ 604800000000000 →
        DoesAt t (.jTon d a b w) s (fun m => Evaluates t w.toNat (tonAt (tcbOf s.m t).nominal p q x).2 d s.m m ∧
          regAt m t d = boolReg (tonAt (tcbOf s.m t).nominal p q x).1 ∧ (q = false → regAt m t d = boolReg false)) ∧
        DoesAt t (.jTof d a b w) s (fun m => Evaluates t w.toNat (tofAt (tcbOf s.m t).nominal p q x).2 d s.m m ∧
          regAt m t d = boolReg (tofAt (tcbOf s.m t).nominal p q x).1 ∧ (q = true → regAt m t d = boolReg true)) ∧
        DoesAt t (.jTp d a b w) s (fun m => Evaluates t w.toNat (tpAt (tcbOf s.m t).nominal p q x).2 d s.m m ∧
          regAt m t d = boolReg (tpAt (tcbOf s.m t).nominal p q x).1)) ∧
      (i.task = t → DoesAt t (.jTrs w) s (fun m => Evaluates t w.toNat { x with running := false, start := 0, due := 0 } d s.m m ∧ regAt m t d = regAt s.m t d)) ∧
      (i.task = t → x.running = false → DoesAt t (.jTrem d w) s (Results t 2 d (regOf .dur 0) s.m)) ∧
      (i.task ≠ t → DoesAt t (.jTon d a b w) s (Parks t fOwner s.m) ∧ DoesAt t (.jTrs w) s (Parks t fOwner s.m) ∧ DoesAt t (.jTrem d w) s (Parks t fOwner s.m))) ∧
    (∀ i x, s.m.lg.app.insts.find? (fun k => k.num == w.toNat && k.kind == .counter) = some i → i.task = t → x = tabGet InstState.idle s.m.lg.insts w.toNat →
      (∀ (p : Int) (q : Bool) n, Holds s.m t a .bool (b2n q) → Holds s.m t b .int32 p →
        (n = (if q = true ∧ x.prev = some false then satI32 (x.count + 1) else x.count) →
          DoesAt t (.jCtu d a b w) s (fun m => Evaluates t w.toNat { x with prev := some q, count := n } d s.m m ∧ regAt m t d = boolReg (decide (p ≤ n)))) ∧
        (n = (if q = true ∧ x.prev = some false then satI32 (x.count - 1) else x.count) →
          DoesAt t (.jCtd d a b w) s (fun m => Evaluates t w.toNat { x with prev := some q, count := n } d s.m m ∧ regAt m t d = boolReg (decide (n ≤ p))))) ∧
      (∀ v, Holds s.m t a .int32 v → DoesAt t (.jCrs a w) s (fun m => Evaluates t w.toNat { x with count := v } d s.m m ∧ regAt m t d = regAt s.m t d))) ∧
    (∀ i x (q : Bool), s.m.lg.app.insts.find? (fun k => k.num == w.toNat && k.kind == .edge) = some i → i.task = t → x = tabGet InstState.idle s.m.lg.insts w.toNat →
      Holds s.m t a .bool (b2n q) →
      DoesAt t (.jRtrg d a w) s (fun m => Evaluates t w.toNat { x with prev := some q } d s.m m ∧ regAt m t d = boolReg (q && x.prev == some false)) ∧
      DoesAt t (.jFtrg d a w) s (fun m => Evaluates t w.toNat { x with prev := some q } d s.m m ∧ regAt m t d = boolReg (!q && x.prev == some true)))

/-- JIC commands, events, records and check values, 0x57-0x5E (R181, R182, R191, R499, R508), and the route engine's opcodes, 0x4F-0x56 and
0x5F (R189, R224-R231): what they read, commit, refuse and release, and that only the route task may.
Readings: log entries 31, 50. -/
def Obligations.JicCommandsAndRoutes : Prop :=
  ∀ (s : State) (t : Nat) (e : TaskDesc) (x : Tcb) (a b d : Rg) (w : W32), s.m.powered = true → InHeat t e s.m → x = tcbOf s.m t →
    (x.cmds.findIdx? (fun c => !c.fetched) = none → d.toNat ≤ 53 → DoesAt t (.jHcmd d) s (Results t 1 d (regOf .reqtag 0) s.m)) ∧
    (∀ i c, x.cmds.findIdx? (fun c => !c.fetched) = some i → x.cmds[i]? = some c → d.toNat ≤ 53 → DoesAt t (.jHcmd d) s (fun m => LogicOnly t s.m m ∧
      regAt m t d = { ty := .reqtag, val := c.sub.tag.zeroExtend 64 } ∧
      (∀ k, k < 10 → regAt m t (BitVec.ofNat 6 (d.toNat + 1 + k)) = { ty := .uint32, val := (c.words.getD k 0).zeroExtend 64 }) ∧
      (tcbOf m t).cmds[i]? = some { c with fetched := true } ∧ (tcbOf m t).cmds.length = x.cmds.length ∧ (tcbOf m t).pc = x.pc + 1)) ∧
    (53 < d.toNat → DoesAt t (.jHcmd d) s (Parks t fBound s.m)) ∧
    (∀ i c (v code : Nat), Holds s.m t a .reqtag v → Holds s.m t b .int32 code → code < 65536 →
      x.cmds.findIdx? (fun c => !c.done && (c.sub.tag.toNat : Int) == v) = some i → x.cmds[i]? = some c → c.sub ∈ s.m.host.open_ → DoesAt t (.jHdon a b) s (fun m =>
        m.host.cplWait = s.m.host.cplWait ++ [(c.sub.src, cplOf c.sub.opc c.sub.tag 0x16 code)] ∧ (tcbOf m t).cmds[i]? = some { c with done := true } ∧
        (tcbOf m t).pc = x.pc + 1 ∧ (∀ r, regAt m t r = regAt s.m t r) ∧ { m with lg := s.m.lg, ln := s.m.ln, host := s.m.host } = s.m)) ∧
    ((regAt s.m t a).ty = .uint32 → (regAt s.m t b).ty = .uint32 →
      DoesAt t (.jHevt a b) s (fun m => Steps t (x.pc + 1) s.m m ∧ { m with lg := s.m.lg, ln := s.m.ln, host := s.m.host, rcd := s.m.rcd } = s.m ∧
        TellsAgreed 0x13 { arg0 := t, arg1 := (regAt s.m t a).val.toNat % 2 ^ 32, arg2 := (regAt s.m t b).val.toNat % 2 ^ 32 } s.m m) ∧
      (2 ≤ (aliveLanes s.m).length → recReady false 7 s.m = true → DoesAt t (.jRec a b) s (fun m => Steps t (x.pc + 1) s.m m ∧
        (∃ r, m.rcd.dirty = s.m.rcd.dirty ++ [r] ∧ r.record.kind = 1 ∧ r.record.src = 7 ∧ r.record.scn = scn s.m ∧
          r.record.body = bytesLE 4 ((regAt s.m t a).val.toNat % 2 ^ 32) ++ bytesLE 4 ((regAt s.m t b).val.toNat % 2 ^ 32) ++ bytesLE 4 t ++
            bytesLE 4 s.m.lg.app.build.toNat) ∧
        { m with lg := s.m.lg, ln := s.m.ln, rcd := s.m.rcd } = s.m))) ∧
    DoesAt t (.jTrg d) s (Results t 1 d (regOf .uint32 x.trig) s.m) ∧
    DoesAt t (.jSys d 0) s (Results t 1 d (regOf .enum8 (b2n (mode s.m != .commission))) s.m) ∧
    DoesAt t (.jSys d 2) s (Results t 1 d (regOf .uint32 (x.relScn % 2 ^ 32 : Nat)) s.m) ∧
    DoesAt t (.jSys d 5) s (Results t 1 d (boolReg (!s.m.md.forces.isEmpty)) s.m) ∧
    DoesAt t (.jSys d 6) s (Results t 1 d (regOf .uint32 s.m.lg.app.build.toNat) s.m) ∧
    (7 < b.toNat → DoesAt t (.jSys d b) s (Parks t fBound s.m)) ∧
    (∀ (p n : Nat) v r, Holds s.m t a .int32 p → p < 4 → s.m.lg.app.vars.find? (fun y => y.vid == w.toNat) = some v → v.count = some n → v.fields = [] →
      r = cvuFinal p ((memRead (if v.owner = t then s.m.nxt else s.m.cur) v.addr (n * tyBytes v.ty)).foldl (cvuByte p) (cvuInit p)) →
      (p ≠ 2 → DoesAt t (.jCvu d a w) s (Results t 2 d (regOf .uint32 (r.toNat % 2 ^ 32 : Nat)) s.m)) ∧
      (p = 2 → d.toNat < 63 → DoesAt t (.jCvu d a w) s (fun m => LogicOnly t s.m m ∧ Steps t (x.pc + 2) s.m m ∧
        regAt m t d = regOf .uint32 (r.toNat % 2 ^ 32 : Nat) ∧ regAt m t (d + 1) = regOf .uint32 (r.toNat / 2 ^ 32 : Nat))) ∧
      (p = 2 → d.toNat = 63 → DoesAt t (.jCvu d a w) s (Parks t fBound s.m))) ∧
    (∀ n c, Refers s.m t a 9 n → (inConns s.m).find? (fun y => y.num == n && y.kind != 3) = some c →
      DoesAt t (.jConn d a) s (Results t 1 d (regOf .enum8 (connSt s.m n).state) s.m)) ∧
    (e.route = false → DoesAt t (.jEnxt d) s (Parks t fOwner s.m) ∧ DoesAt t (.jEreq d a) s (Parks t fOwner s.m) ∧ DoesAt t (.jElck a b) s (Parks t fOwner s.m) ∧
      DoesAt t (.jEdrp a b) s (Parks t fOwner s.m) ∧ DoesAt t (.jErel a b) s (Parks t fOwner s.m) ∧ DoesAt t (.jErrl a) s (Parks t fOwner s.m)) ∧
    (e.route = true → s.m.en.passScn = scn s.m + 1 →
      (∀ c i, (s.m.en.cands.zipIdx.drop x.cursor).find? (fun p => !p.1.gone) = some (c, i) → DoesAt t (.jEnxt d) s (fun m => LogicOnly t s.m m ∧
        regAt m t d = regOf .obj c.route ∧ (tcbOf m t).cursor = i + 1 ∧ (∀ r, r ≠ d → regAt m t r = regAt s.m t r))) ∧
      ((s.m.en.cands.zipIdx.drop x.cursor).find? (fun p => !p.1.gone) = none → DoesAt t (.jEnxt d) s (Results t 1 d (regOf .obj nullRef) s.m))) ∧
    (∀ r, Refers s.m t a 0 r → e.route = true →
      (pendOf s.m r = none → d.toNat ≤ 61 → DoesAt t (.jEreq d a) s (Results t 1 d (regOf .reqtag 0) s.m)) ∧
      (∀ p, pendOf s.m r = some p → d.toNat ≤ 61 → DoesAt t (.jEreq d a) s (fun m => LogicOnly t s.m m ∧
        regAt m t d = { ty := .reqtag, val := p.tag.zeroExtend 64 } ∧ regAt m t (d + 1) = regOf .enum8 p.prio ∧
        regAt m t (d + 2) = regOf .uint32 (p.arrival % 2 ^ 32 : Nat) ∧ (tcbOf m t).pc = x.pc + 1)) ∧
      (∀ c, Holds s.m t b .int32 0 → candOfRoute s.m r = some c → (routeDef s.m.lg.app (dirBase s.m.lg.app r)).ovs = [] →
        DoesAt t (.jElck a b) s (fun m => (routeSt m r).state = 1 ∧ (routeSt m r).lscn = BitVec.ofNat 32 (scn s.m) ∧
          (routeSt m r).ltag = ((pendOf s.m r).map (·.tag)).getD 0 ∧ m.en.locked.getLsbD r = true ∧ pendOf m r = none ∧ candOfRoute m r = none ∧
          (tcbOf m t).pc = x.pc + 1 ∧ m.md = s.m.md ∧ SameImages s.m m)) ∧
      (Holds s.m t b .int32 0 → candOfRoute s.m r = none → DoesAt t (.jElck a b) s (Parks t fBound s.m)) ∧
      (∀ p (code : Nat), Holds s.m t b .int32 code → 16 ≤ code → code < 256 → pendOf s.m r = some p → p.sub ∈ s.m.host.open_ → DoesAt t (.jEdrp a b) s (fun m =>
        pendOf m r = none ∧ m.host.cplWait = s.m.host.cplWait ++ [(p.sub.src, cplOf p.sub.opc p.sub.tag 0x10 code)] ∧ candOfRoute m r = none ∧
        (tcbOf m t).pc = x.pc + 1 ∧ { m with lg := s.m.lg, ln := s.m.ln, en := s.m.en, host := s.m.host } = s.m)) ∧
      (∀ kind idx, kind ∈ [1, 2, 3, 4, 5] → Refers s.m t b kind idx → (routeSt s.m r).state = 1 → entryAtDanger s.m r = true →
        findElem (heldDef s.m r).main kind idx = some 0 → (routeSt s.m r).mrel.getLsbD 0 = false → 2 ≤ (heldDef s.m r).main.length →
        (routeSt s.m r).mrel.getLsbD 1 = false → DoesAt t (.jErel a b) s (fun m => (routeSt m r).mrel.getLsbD 0 = true ∧ (routeSt m r).state = 1 ∧
          (tcbOf m t).pc = x.pc + 1 ∧ { m with lg := s.m.lg, ln := s.m.ln, en := s.m.en } = s.m)) ∧
      ((routeSt s.m r).state = 1 → (entryAtDanger s.m r = true → DoesAt t (.jErrl a) s (fun m =>
          routeSt m r = { RouteSt.free with lgen := (routeSt s.m r).lgen } ∧ m.en.locked.getLsbD r = false ∧ (tcbOf m t).pc = x.pc + 1 ∧
          { m with lg := s.m.lg, ln := s.m.ln, en := s.m.en } = s.m)) ∧
        (entryAtDanger s.m r = false → DoesAt t (.jErrl a) s (fun m => m.en = { s.m.en with relref := satN 0xFFFF (s.m.en.relref + 1) })))) ∧
    (∀ kind idx, kind ∈ [1, 2, 3, 4, 5] → Refers s.m t a kind idx →
      DoesAt t (.jEsta d a) s (Results t 1 d (regOf .enum8 (estaOf (tabGet 0 (if e.route then s.m.en.elems else s.m.en.pubElems) (elemPos kind idx)).toNat)) s.m)) ∧
    (∀ r, Refers s.m t a 0 r → DoesAt t (.jEovl d a) s (Results t 1 d (regOf .enum8 (if e.route then eovlLive s.m r else eovlPub s.m r)) s.m)) ∧
    (∀ v : W32, Holds s.m t a .reqtag (v.toNat : Int) → DoesAt t (.jTagv d a) s (Results t 1 d (boolReg (tagLive e.route s.m v)) s.m))

/-! ## Single rules (R189, R597) -/

/-- R189: only the route task executes ELCK, EDRP, EREL and ERRL; in any other task they are an ownership fault, and the engine's state
has one writer. -/
def Obligations.OnlyTheRouteTaskCommits : Prop :=
  ∀ (s : State) (t : Nat) (d : TaskDesc) (a b : Rg), s.m.powered = true → InHeat t d s.m → d.route = false →
    DoesAt t (.jElck a b) s (fun m => Parks t fOwner s.m m ∧ m.en = s.m.en) ∧ DoesAt t (.jEdrp a b) s (fun m => Parks t fOwner s.m m ∧ m.en = s.m.en) ∧
    DoesAt t (.jErel a b) s (fun m => Parks t fOwner s.m m ∧ m.en = s.m.en) ∧ DoesAt t (.jErrl a) s (fun m => Parks t fOwner s.m m ∧ m.en = s.m.en)

/-- R597: a reading above 70 °C raises event 0x3A once, until the reading has fallen to 67 °C or below; there is no other action on
temperature. -/
def Obligations.TemperatureIsToldOnce : Prop :=
  ∀ (s : State) (t : Int), s.m.powered = true → Does (.temperatureHigh t) s (fun m =>
    m.pw.temp = t ∧ { m with pw := { m.pw with temp := s.m.pw.temp, tempTold := s.m.pw.tempTold }, host := s.m.host, rcd := s.m.rcd } = s.m ∧
    (70 < t → m.pw.tempTold = true) ∧ (t ≤ 67 → m.pw.tempTold = false) ∧ (67 < t → t ≤ 70 → m.pw.tempTold = s.m.pw.tempTold) ∧
    (70 < t → s.m.pw.tempTold = false → ∃ x : EvArgs, x.src ≠ 0 ∧ TellsAlone 0x3A x s.m m) ∧
    (t ≤ 70 ∨ s.m.pw.tempTold = true → m.host = s.m.host ∧ m.rcd = s.m.rcd))

/-! ## The queue, reset, invariants -/

/-- A step runs the command at the front with the queue's rest; with nothing waiting a powered module lets 1 ms pass (DESIGN CHOICE, log
entry 2). No command stops the machine or touches the queue, and an unpowered module answers to POWER_UP only (R583).
Readings: log entry 2. -/
def Obligations.StepTakesTheFront : Prop :=
  (∀ (c : Instr) (rest : List Instr) (s : State), s.pending = c :: rest → step s = exec c { s with pending := rest }) ∧
  (∀ s : State, s.pending = [] → ∃ m, step s = .next { s with m := m } ∧ (s.m.powered = false → m = s.m) ∧
    (s.m.powered = true → m.clk = s.m.clk + 1000000 ∧ m.md = s.m.md ∧ m.fio = s.m.fio ∧ SameImages s.m m)) ∧
  (∀ (c : Instr) (s : State), ∃ m, exec c s = .next { s with m := m }) ∧
  (∀ (c : Instr) (s : State), s.m.powered = false → (∀ e, c ≠ .powerUp e) → exec c s = .next s)

/-- An entry of a host ring: consumed, it is counted and reserves its completion, and nothing else of the module changes but time, which passes to
the freeze for an entry of an interlocking ring; there, the only one that waits, it is accepted (R42, R95, R424-R427, R433, R453). What its
opcode then does starts from that module. After a command's work the MSI-X messages that are due leave (R431): an unmasked vector sends its
message once 1,000 µs have passed since its last one; every other vector, and all else, stays. Every command of a powered module ends so.
Readings: log entry 64. -/
def Obligations.EntriesAndMessages : Prop :=
  (∀ (m : Mod) (q : Fin 32) (opc : Nat) (sub : Submission), sub.src = .ring q → TakesOne q opc sub m (takenAtOnce opc sub m)) ∧
  (∀ (m : Mod) (q : Fin 32) (opc : Nat) (sub : Submission), sub.src = .ring q → m.host.waiting = [] → m.host.critWait = [] →
    TakesOne q opc sub m (taken opc sub m)) ∧
  (∀ (m : Mod) (v : Nat) (x : Vector32), x = tabGet Vector32.fresh m.host.vecs v →
    (x.due = true → x.masked = false → (∀ t, x.lastAt = some t → t + 1000000 ≤ hostTime m) →
      tabGet Vector32.fresh (fireDue m).host.vecs v = { x with due := false, lastAt := some (hostTime m), sent := x.sent + 1 }) ∧
    (x.due = false ∨ x.masked = true ∨ (∃ t, x.lastAt = some t ∧ hostTime m < t + 1000000) → tabGet Vector32.fresh (fireDue m).host.vecs v = x)) ∧
  (∀ m : Mod, { fireDue m with host := { (fireDue m).host with vecs := m.host.vecs } } = m) ∧
  (∀ (c : Instr) (s : State), s.m.powered = true → Does c s (fun _ => True))

/-- After reset: no command waits, the supply is absent, nothing is energised, the registers read as the manual's reset columns have them,
and the invariants hold (R44, R240, R246, R292, R378, R414, R419, R446, R548). The values the manual leaves open are those of the log.
Readings: log entry 9. -/
def Obligations.AfterReset : Prop :=
  State.reset.pending = [] ∧ State.reset.m.powered = false ∧ AllOff State.reset.m ∧ ImagesWf State.reset.m ∧ FifoBounded State.reset.m ∧
    FourOfEach State.reset.m ∧ State.reset.m.host.run = false ∧ State.reset.m.host.valid = false ∧ (∀ i, (ringOf State.reset.m i).en = false) ∧
    (∀ c, tabGet 0x80 State.reset.m.host.route c = 0x80) ∧ State.reset.m.cfg.updcfg = 600#32 ∧ State.reset.m.cfg.hifcfg = 1500#32 ∧
    State.reset.m.md.forces = [] ∧ State.reset.m.lg.running = none ∧ (∀ a, memGet State.reset.m.cur a = 0 ∧ memGet State.reset.m.nxt a = 0)

/-- Both variable images stay in the canonical form in every step. -/
def Obligations.ImagesStayCanonical : Prop :=
  ∀ s s' : State, ImagesWf s.m → step s = .next s' → ImagesWf s'.m

/-- The block keeps its four groups, segments and channels, and the event FIFO its 1,024 items, in every step (R44, R246, R292, R378). -/
def Obligations.ShapesAndBoundsStay : Prop :=
  ∀ s s' : State, FourOfEach s.m → FifoBounded s.m → step s = .next s' → FourOfEach s'.m ∧ FifoBounded s'.m
end

