-- ==== Sys2Proof/Laws/State.lean ====
section
/-! SUPPORT. One lemma per field per update of the module, and what running a command leaves alone: the queue. -/

namespace Sys2Proof.Machine

variable (m : Mod)

/-! `updHost` changes the field `host` and no other. -/

@[simp] theorem updHost_powered (f : HostIf → HostIf) : (updHost f m).powered = m.powered := (rfl)
@[simp] theorem updHost_clk (f : HostIf → HostIf) : (updHost f m).clk = m.clk := (rfl)
@[simp] theorem updHost_freeN (f : HostIf → HostIf) : (updHost f m).freeN = m.freeN := (rfl)
@[simp] theorem updHost_nv (f : HostIf → HostIf) : (updHost f m).nv = m.nv := (rfl)
@[simp] theorem updHost_cfg (f : HostIf → HostIf) : (updHost f m).cfg = m.cfg := (rfl)
@[simp] theorem updHost_tm (f : HostIf → HostIf) : (updHost f m).tm = m.tm := (rfl)
@[simp] theorem updHost_ln (f : HostIf → HostIf) : (updHost f m).ln = m.ln := (rfl)
@[simp] theorem updHost_md (f : HostIf → HostIf) : (updHost f m).md = m.md := (rfl)
@[simp] theorem updHost_pw (f : HostIf → HostIf) : (updHost f m).pw = m.pw := (rfl)
@[simp] theorem updHost_lg (f : HostIf → HostIf) : (updHost f m).lg = m.lg := (rfl)
@[simp] theorem updHost_cur (f : HostIf → HostIf) : (updHost f m).cur = m.cur := (rfl)
@[simp] theorem updHost_nxt (f : HostIf → HostIf) : (updHost f m).nxt = m.nxt := (rfl)
@[simp] theorem updHost_en (f : HostIf → HostIf) : (updHost f m).en = m.en := (rfl)
@[simp] theorem updHost_fio (f : HostIf → HostIf) : (updHost f m).fio = m.fio := (rfl)
@[simp] theorem updHost_bt (f : HostIf → HostIf) : (updHost f m).bt = m.bt := (rfl)
@[simp] theorem updHost_str (f : HostIf → HostIf) : (updHost f m).str = m.str := (rfl)
@[simp] theorem updHost_can (f : HostIf → HostIf) : (updHost f m).can = m.can := (rfl)
@[simp] theorem updHost_net (f : HostIf → HostIf) : (updHost f m).net = m.net := (rfl)
@[simp] theorem updHost_host (f : HostIf → HostIf) : (updHost f m).host = f m.host := (rfl)
@[simp] theorem updHost_rcd (f : HostIf → HostIf) : (updHost f m).rcd = m.rcd := (rfl)
@[simp] theorem updHost_rc (f : HostIf → HostIf) : (updHost f m).rc = m.rc := (rfl)
@[simp] theorem updHost_pc (f : HostIf → HostIf) : (updHost f m).pc = m.pc := (rfl)
@[simp] theorem updHost_up (f : HostIf → HostIf) : (updHost f m).up = m.up := (rfl)
@[simp] theorem updHost_sec (f : HostIf → HostIf) : (updHost f m).sec = m.sec := (rfl)
@[simp] theorem updHost_pr (f : HostIf → HostIf) : (updHost f m).pr = m.pr := (rfl)
@[simp] theorem updHost_stateOut (f : HostIf → HostIf) : (updHost f m).stateOut = m.stateOut := (rfl)

/-! `updMd` changes the field `md` and no other. -/

@[simp] theorem updMd_powered (f : Modes → Modes) : (updMd f m).powered = m.powered := (rfl)
@[simp] theorem updMd_clk (f : Modes → Modes) : (updMd f m).clk = m.clk := (rfl)
@[simp] theorem updMd_freeN (f : Modes → Modes) : (updMd f m).freeN = m.freeN := (rfl)
@[simp] theorem updMd_nv (f : Modes → Modes) : (updMd f m).nv = m.nv := (rfl)
@[simp] theorem updMd_cfg (f : Modes → Modes) : (updMd f m).cfg = m.cfg := (rfl)
@[simp] theorem updMd_tm (f : Modes → Modes) : (updMd f m).tm = m.tm := (rfl)
@[simp] theorem updMd_ln (f : Modes → Modes) : (updMd f m).ln = m.ln := (rfl)
@[simp] theorem updMd_md (f : Modes → Modes) : (updMd f m).md = f m.md := (rfl)
@[simp] theorem updMd_pw (f : Modes → Modes) : (updMd f m).pw = m.pw := (rfl)
@[simp] theorem updMd_lg (f : Modes → Modes) : (updMd f m).lg = m.lg := (rfl)
@[simp] theorem updMd_cur (f : Modes → Modes) : (updMd f m).cur = m.cur := (rfl)
@[simp] theorem updMd_nxt (f : Modes → Modes) : (updMd f m).nxt = m.nxt := (rfl)
@[simp] theorem updMd_en (f : Modes → Modes) : (updMd f m).en = m.en := (rfl)
@[simp] theorem updMd_fio (f : Modes → Modes) : (updMd f m).fio = m.fio := (rfl)
@[simp] theorem updMd_bt (f : Modes → Modes) : (updMd f m).bt = m.bt := (rfl)
@[simp] theorem updMd_str (f : Modes → Modes) : (updMd f m).str = m.str := (rfl)
@[simp] theorem updMd_can (f : Modes → Modes) : (updMd f m).can = m.can := (rfl)
@[simp] theorem updMd_net (f : Modes → Modes) : (updMd f m).net = m.net := (rfl)
@[simp] theorem updMd_host (f : Modes → Modes) : (updMd f m).host = m.host := (rfl)
@[simp] theorem updMd_rcd (f : Modes → Modes) : (updMd f m).rcd = m.rcd := (rfl)
@[simp] theorem updMd_rc (f : Modes → Modes) : (updMd f m).rc = m.rc := (rfl)
@[simp] theorem updMd_pc (f : Modes → Modes) : (updMd f m).pc = m.pc := (rfl)
@[simp] theorem updMd_up (f : Modes → Modes) : (updMd f m).up = m.up := (rfl)
@[simp] theorem updMd_sec (f : Modes → Modes) : (updMd f m).sec = m.sec := (rfl)
@[simp] theorem updMd_pr (f : Modes → Modes) : (updMd f m).pr = m.pr := (rfl)
@[simp] theorem updMd_stateOut (f : Modes → Modes) : (updMd f m).stateOut = m.stateOut := (rfl)

/-! `updTm` changes the field `tm` and no other. -/

@[simp] theorem updTm_powered (f : Pacer → Pacer) : (updTm f m).powered = m.powered := (rfl)
@[simp] theorem updTm_clk (f : Pacer → Pacer) : (updTm f m).clk = m.clk := (rfl)
@[simp] theorem updTm_freeN (f : Pacer → Pacer) : (updTm f m).freeN = m.freeN := (rfl)
@[simp] theorem updTm_nv (f : Pacer → Pacer) : (updTm f m).nv = m.nv := (rfl)
@[simp] theorem updTm_cfg (f : Pacer → Pacer) : (updTm f m).cfg = m.cfg := (rfl)
@[simp] theorem updTm_tm (f : Pacer → Pacer) : (updTm f m).tm = f m.tm := (rfl)
@[simp] theorem updTm_ln (f : Pacer → Pacer) : (updTm f m).ln = m.ln := (rfl)
@[simp] theorem updTm_md (f : Pacer → Pacer) : (updTm f m).md = m.md := (rfl)
@[simp] theorem updTm_pw (f : Pacer → Pacer) : (updTm f m).pw = m.pw := (rfl)
@[simp] theorem updTm_lg (f : Pacer → Pacer) : (updTm f m).lg = m.lg := (rfl)
@[simp] theorem updTm_cur (f : Pacer → Pacer) : (updTm f m).cur = m.cur := (rfl)
@[simp] theorem updTm_nxt (f : Pacer → Pacer) : (updTm f m).nxt = m.nxt := (rfl)
@[simp] theorem updTm_en (f : Pacer → Pacer) : (updTm f m).en = m.en := (rfl)
@[simp] theorem updTm_fio (f : Pacer → Pacer) : (updTm f m).fio = m.fio := (rfl)
@[simp] theorem updTm_bt (f : Pacer → Pacer) : (updTm f m).bt = m.bt := (rfl)
@[simp] theorem updTm_str (f : Pacer → Pacer) : (updTm f m).str = m.str := (rfl)
@[simp] theorem updTm_can (f : Pacer → Pacer) : (updTm f m).can = m.can := (rfl)
@[simp] theorem updTm_net (f : Pacer → Pacer) : (updTm f m).net = m.net := (rfl)
@[simp] theorem updTm_host (f : Pacer → Pacer) : (updTm f m).host = m.host := (rfl)
@[simp] theorem updTm_rcd (f : Pacer → Pacer) : (updTm f m).rcd = m.rcd := (rfl)
@[simp] theorem updTm_rc (f : Pacer → Pacer) : (updTm f m).rc = m.rc := (rfl)
@[simp] theorem updTm_pc (f : Pacer → Pacer) : (updTm f m).pc = m.pc := (rfl)
@[simp] theorem updTm_up (f : Pacer → Pacer) : (updTm f m).up = m.up := (rfl)
@[simp] theorem updTm_sec (f : Pacer → Pacer) : (updTm f m).sec = m.sec := (rfl)
@[simp] theorem updTm_pr (f : Pacer → Pacer) : (updTm f m).pr = m.pr := (rfl)
@[simp] theorem updTm_stateOut (f : Pacer → Pacer) : (updTm f m).stateOut = m.stateOut := (rfl)

/-! `updRcd` changes the field `rcd` and no other. -/

@[simp] theorem updRcd_powered (f : Recorder → Recorder) : (updRcd f m).powered = m.powered := (rfl)
@[simp] theorem updRcd_clk (f : Recorder → Recorder) : (updRcd f m).clk = m.clk := (rfl)
@[simp] theorem updRcd_freeN (f : Recorder → Recorder) : (updRcd f m).freeN = m.freeN := (rfl)
@[simp] theorem updRcd_nv (f : Recorder → Recorder) : (updRcd f m).nv = m.nv := (rfl)
@[simp] theorem updRcd_cfg (f : Recorder → Recorder) : (updRcd f m).cfg = m.cfg := (rfl)
@[simp] theorem updRcd_tm (f : Recorder → Recorder) : (updRcd f m).tm = m.tm := (rfl)
@[simp] theorem updRcd_ln (f : Recorder → Recorder) : (updRcd f m).ln = m.ln := (rfl)
@[simp] theorem updRcd_md (f : Recorder → Recorder) : (updRcd f m).md = m.md := (rfl)
@[simp] theorem updRcd_pw (f : Recorder → Recorder) : (updRcd f m).pw = m.pw := (rfl)
@[simp] theorem updRcd_lg (f : Recorder → Recorder) : (updRcd f m).lg = m.lg := (rfl)
@[simp] theorem updRcd_cur (f : Recorder → Recorder) : (updRcd f m).cur = m.cur := (rfl)
@[simp] theorem updRcd_nxt (f : Recorder → Recorder) : (updRcd f m).nxt = m.nxt := (rfl)
@[simp] theorem updRcd_en (f : Recorder → Recorder) : (updRcd f m).en = m.en := (rfl)
@[simp] theorem updRcd_fio (f : Recorder → Recorder) : (updRcd f m).fio = m.fio := (rfl)
@[simp] theorem updRcd_bt (f : Recorder → Recorder) : (updRcd f m).bt = m.bt := (rfl)
@[simp] theorem updRcd_str (f : Recorder → Recorder) : (updRcd f m).str = m.str := (rfl)
@[simp] theorem updRcd_can (f : Recorder → Recorder) : (updRcd f m).can = m.can := (rfl)
@[simp] theorem updRcd_net (f : Recorder → Recorder) : (updRcd f m).net = m.net := (rfl)
@[simp] theorem updRcd_host (f : Recorder → Recorder) : (updRcd f m).host = m.host := (rfl)
@[simp] theorem updRcd_rcd (f : Recorder → Recorder) : (updRcd f m).rcd = f m.rcd := (rfl)
@[simp] theorem updRcd_rc (f : Recorder → Recorder) : (updRcd f m).rc = m.rc := (rfl)
@[simp] theorem updRcd_pc (f : Recorder → Recorder) : (updRcd f m).pc = m.pc := (rfl)
@[simp] theorem updRcd_up (f : Recorder → Recorder) : (updRcd f m).up = m.up := (rfl)
@[simp] theorem updRcd_sec (f : Recorder → Recorder) : (updRcd f m).sec = m.sec := (rfl)
@[simp] theorem updRcd_pr (f : Recorder → Recorder) : (updRcd f m).pr = m.pr := (rfl)
@[simp] theorem updRcd_stateOut (f : Recorder → Recorder) : (updRcd f m).stateOut = m.stateOut := (rfl)

/-! `updNv` changes the field `nv` and no other. -/

@[simp] theorem updNv_powered (f : Nv → Nv) : (updNv f m).powered = m.powered := (rfl)
@[simp] theorem updNv_clk (f : Nv → Nv) : (updNv f m).clk = m.clk := (rfl)
@[simp] theorem updNv_freeN (f : Nv → Nv) : (updNv f m).freeN = m.freeN := (rfl)
@[simp] theorem updNv_nv (f : Nv → Nv) : (updNv f m).nv = f m.nv := (rfl)
@[simp] theorem updNv_cfg (f : Nv → Nv) : (updNv f m).cfg = m.cfg := (rfl)
@[simp] theorem updNv_tm (f : Nv → Nv) : (updNv f m).tm = m.tm := (rfl)
@[simp] theorem updNv_ln (f : Nv → Nv) : (updNv f m).ln = m.ln := (rfl)
@[simp] theorem updNv_md (f : Nv → Nv) : (updNv f m).md = m.md := (rfl)
@[simp] theorem updNv_pw (f : Nv → Nv) : (updNv f m).pw = m.pw := (rfl)
@[simp] theorem updNv_lg (f : Nv → Nv) : (updNv f m).lg = m.lg := (rfl)
@[simp] theorem updNv_cur (f : Nv → Nv) : (updNv f m).cur = m.cur := (rfl)
@[simp] theorem updNv_nxt (f : Nv → Nv) : (updNv f m).nxt = m.nxt := (rfl)
@[simp] theorem updNv_en (f : Nv → Nv) : (updNv f m).en = m.en := (rfl)
@[simp] theorem updNv_fio (f : Nv → Nv) : (updNv f m).fio = m.fio := (rfl)
@[simp] theorem updNv_bt (f : Nv → Nv) : (updNv f m).bt = m.bt := (rfl)
@[simp] theorem updNv_str (f : Nv → Nv) : (updNv f m).str = m.str := (rfl)
@[simp] theorem updNv_can (f : Nv → Nv) : (updNv f m).can = m.can := (rfl)
@[simp] theorem updNv_net (f : Nv → Nv) : (updNv f m).net = m.net := (rfl)
@[simp] theorem updNv_host (f : Nv → Nv) : (updNv f m).host = m.host := (rfl)
@[simp] theorem updNv_rcd (f : Nv → Nv) : (updNv f m).rcd = m.rcd := (rfl)
@[simp] theorem updNv_rc (f : Nv → Nv) : (updNv f m).rc = m.rc := (rfl)
@[simp] theorem updNv_pc (f : Nv → Nv) : (updNv f m).pc = m.pc := (rfl)
@[simp] theorem updNv_up (f : Nv → Nv) : (updNv f m).up = m.up := (rfl)
@[simp] theorem updNv_sec (f : Nv → Nv) : (updNv f m).sec = m.sec := (rfl)
@[simp] theorem updNv_pr (f : Nv → Nv) : (updNv f m).pr = m.pr := (rfl)
@[simp] theorem updNv_stateOut (f : Nv → Nv) : (updNv f m).stateOut = m.stateOut := (rfl)

/-! `updPr` changes the field `pr` and no other. -/

@[simp] theorem updPr_powered (f : Pair → Pair) : (updPr f m).powered = m.powered := (rfl)
@[simp] theorem updPr_clk (f : Pair → Pair) : (updPr f m).clk = m.clk := (rfl)
@[simp] theorem updPr_freeN (f : Pair → Pair) : (updPr f m).freeN = m.freeN := (rfl)
@[simp] theorem updPr_nv (f : Pair → Pair) : (updPr f m).nv = m.nv := (rfl)
@[simp] theorem updPr_cfg (f : Pair → Pair) : (updPr f m).cfg = m.cfg := (rfl)
@[simp] theorem updPr_tm (f : Pair → Pair) : (updPr f m).tm = m.tm := (rfl)
@[simp] theorem updPr_ln (f : Pair → Pair) : (updPr f m).ln = m.ln := (rfl)
@[simp] theorem updPr_md (f : Pair → Pair) : (updPr f m).md = m.md := (rfl)
@[simp] theorem updPr_pw (f : Pair → Pair) : (updPr f m).pw = m.pw := (rfl)
@[simp] theorem updPr_lg (f : Pair → Pair) : (updPr f m).lg = m.lg := (rfl)
@[simp] theorem updPr_cur (f : Pair → Pair) : (updPr f m).cur = m.cur := (rfl)
@[simp] theorem updPr_nxt (f : Pair → Pair) : (updPr f m).nxt = m.nxt := (rfl)
@[simp] theorem updPr_en (f : Pair → Pair) : (updPr f m).en = m.en := (rfl)
@[simp] theorem updPr_fio (f : Pair → Pair) : (updPr f m).fio = m.fio := (rfl)
@[simp] theorem updPr_bt (f : Pair → Pair) : (updPr f m).bt = m.bt := (rfl)
@[simp] theorem updPr_str (f : Pair → Pair) : (updPr f m).str = m.str := (rfl)
@[simp] theorem updPr_can (f : Pair → Pair) : (updPr f m).can = m.can := (rfl)
@[simp] theorem updPr_net (f : Pair → Pair) : (updPr f m).net = m.net := (rfl)
@[simp] theorem updPr_host (f : Pair → Pair) : (updPr f m).host = m.host := (rfl)
@[simp] theorem updPr_rcd (f : Pair → Pair) : (updPr f m).rcd = m.rcd := (rfl)
@[simp] theorem updPr_rc (f : Pair → Pair) : (updPr f m).rc = m.rc := (rfl)
@[simp] theorem updPr_pc (f : Pair → Pair) : (updPr f m).pc = m.pc := (rfl)
@[simp] theorem updPr_up (f : Pair → Pair) : (updPr f m).up = m.up := (rfl)
@[simp] theorem updPr_sec (f : Pair → Pair) : (updPr f m).sec = m.sec := (rfl)
@[simp] theorem updPr_pr (f : Pair → Pair) : (updPr f m).pr = f m.pr := (rfl)
@[simp] theorem updPr_stateOut (f : Pair → Pair) : (updPr f m).stateOut = m.stateOut := (rfl)

/-! `updUp` changes the field `up` and no other. -/

@[simp] theorem updUp_powered (f : Update → Update) : (updUp f m).powered = m.powered := (rfl)
@[simp] theorem updUp_clk (f : Update → Update) : (updUp f m).clk = m.clk := (rfl)
@[simp] theorem updUp_freeN (f : Update → Update) : (updUp f m).freeN = m.freeN := (rfl)
@[simp] theorem updUp_nv (f : Update → Update) : (updUp f m).nv = m.nv := (rfl)
@[simp] theorem updUp_cfg (f : Update → Update) : (updUp f m).cfg = m.cfg := (rfl)
@[simp] theorem updUp_tm (f : Update → Update) : (updUp f m).tm = m.tm := (rfl)
@[simp] theorem updUp_ln (f : Update → Update) : (updUp f m).ln = m.ln := (rfl)
@[simp] theorem updUp_md (f : Update → Update) : (updUp f m).md = m.md := (rfl)
@[simp] theorem updUp_pw (f : Update → Update) : (updUp f m).pw = m.pw := (rfl)
@[simp] theorem updUp_lg (f : Update → Update) : (updUp f m).lg = m.lg := (rfl)
@[simp] theorem updUp_cur (f : Update → Update) : (updUp f m).cur = m.cur := (rfl)
@[simp] theorem updUp_nxt (f : Update → Update) : (updUp f m).nxt = m.nxt := (rfl)
@[simp] theorem updUp_en (f : Update → Update) : (updUp f m).en = m.en := (rfl)
@[simp] theorem updUp_fio (f : Update → Update) : (updUp f m).fio = m.fio := (rfl)
@[simp] theorem updUp_bt (f : Update → Update) : (updUp f m).bt = m.bt := (rfl)
@[simp] theorem updUp_str (f : Update → Update) : (updUp f m).str = m.str := (rfl)
@[simp] theorem updUp_can (f : Update → Update) : (updUp f m).can = m.can := (rfl)
@[simp] theorem updUp_net (f : Update → Update) : (updUp f m).net = m.net := (rfl)
@[simp] theorem updUp_host (f : Update → Update) : (updUp f m).host = m.host := (rfl)
@[simp] theorem updUp_rcd (f : Update → Update) : (updUp f m).rcd = m.rcd := (rfl)
@[simp] theorem updUp_rc (f : Update → Update) : (updUp f m).rc = m.rc := (rfl)
@[simp] theorem updUp_pc (f : Update → Update) : (updUp f m).pc = m.pc := (rfl)
@[simp] theorem updUp_up (f : Update → Update) : (updUp f m).up = f m.up := (rfl)
@[simp] theorem updUp_sec (f : Update → Update) : (updUp f m).sec = m.sec := (rfl)
@[simp] theorem updUp_pr (f : Update → Update) : (updUp f m).pr = m.pr := (rfl)
@[simp] theorem updUp_stateOut (f : Update → Update) : (updUp f m).stateOut = m.stateOut := (rfl)

/-! `updSec` changes the field `sec` and no other. -/

@[simp] theorem updSec_powered (f : SecVol → SecVol) : (updSec f m).powered = m.powered := (rfl)
@[simp] theorem updSec_clk (f : SecVol → SecVol) : (updSec f m).clk = m.clk := (rfl)
@[simp] theorem updSec_freeN (f : SecVol → SecVol) : (updSec f m).freeN = m.freeN := (rfl)
@[simp] theorem updSec_nv (f : SecVol → SecVol) : (updSec f m).nv = m.nv := (rfl)
@[simp] theorem updSec_cfg (f : SecVol → SecVol) : (updSec f m).cfg = m.cfg := (rfl)
@[simp] theorem updSec_tm (f : SecVol → SecVol) : (updSec f m).tm = m.tm := (rfl)
@[simp] theorem updSec_ln (f : SecVol → SecVol) : (updSec f m).ln = m.ln := (rfl)
@[simp] theorem updSec_md (f : SecVol → SecVol) : (updSec f m).md = m.md := (rfl)
@[simp] theorem updSec_pw (f : SecVol → SecVol) : (updSec f m).pw = m.pw := (rfl)
@[simp] theorem updSec_lg (f : SecVol → SecVol) : (updSec f m).lg = m.lg := (rfl)
@[simp] theorem updSec_cur (f : SecVol → SecVol) : (updSec f m).cur = m.cur := (rfl)
@[simp] theorem updSec_nxt (f : SecVol → SecVol) : (updSec f m).nxt = m.nxt := (rfl)
@[simp] theorem updSec_en (f : SecVol → SecVol) : (updSec f m).en = m.en := (rfl)
@[simp] theorem updSec_fio (f : SecVol → SecVol) : (updSec f m).fio = m.fio := (rfl)
@[simp] theorem updSec_bt (f : SecVol → SecVol) : (updSec f m).bt = m.bt := (rfl)
@[simp] theorem updSec_str (f : SecVol → SecVol) : (updSec f m).str = m.str := (rfl)
@[simp] theorem updSec_can (f : SecVol → SecVol) : (updSec f m).can = m.can := (rfl)
@[simp] theorem updSec_net (f : SecVol → SecVol) : (updSec f m).net = m.net := (rfl)
@[simp] theorem updSec_host (f : SecVol → SecVol) : (updSec f m).host = m.host := (rfl)
@[simp] theorem updSec_rcd (f : SecVol → SecVol) : (updSec f m).rcd = m.rcd := (rfl)
@[simp] theorem updSec_rc (f : SecVol → SecVol) : (updSec f m).rc = m.rc := (rfl)
@[simp] theorem updSec_pc (f : SecVol → SecVol) : (updSec f m).pc = m.pc := (rfl)
@[simp] theorem updSec_up (f : SecVol → SecVol) : (updSec f m).up = m.up := (rfl)
@[simp] theorem updSec_sec (f : SecVol → SecVol) : (updSec f m).sec = f m.sec := (rfl)
@[simp] theorem updSec_pr (f : SecVol → SecVol) : (updSec f m).pr = m.pr := (rfl)
@[simp] theorem updSec_stateOut (f : SecVol → SecVol) : (updSec f m).stateOut = m.stateOut := (rfl)

/-! `updFio` changes the field `fio` and no other. -/

@[simp] theorem updFio_powered (f : Fio → Fio) : (updFio f m).powered = m.powered := (rfl)
@[simp] theorem updFio_clk (f : Fio → Fio) : (updFio f m).clk = m.clk := (rfl)
@[simp] theorem updFio_freeN (f : Fio → Fio) : (updFio f m).freeN = m.freeN := (rfl)
@[simp] theorem updFio_nv (f : Fio → Fio) : (updFio f m).nv = m.nv := (rfl)
@[simp] theorem updFio_cfg (f : Fio → Fio) : (updFio f m).cfg = m.cfg := (rfl)
@[simp] theorem updFio_tm (f : Fio → Fio) : (updFio f m).tm = m.tm := (rfl)
@[simp] theorem updFio_ln (f : Fio → Fio) : (updFio f m).ln = m.ln := (rfl)
@[simp] theorem updFio_md (f : Fio → Fio) : (updFio f m).md = m.md := (rfl)
@[simp] theorem updFio_pw (f : Fio → Fio) : (updFio f m).pw = m.pw := (rfl)
@[simp] theorem updFio_lg (f : Fio → Fio) : (updFio f m).lg = m.lg := (rfl)
@[simp] theorem updFio_cur (f : Fio → Fio) : (updFio f m).cur = m.cur := (rfl)
@[simp] theorem updFio_nxt (f : Fio → Fio) : (updFio f m).nxt = m.nxt := (rfl)
@[simp] theorem updFio_en (f : Fio → Fio) : (updFio f m).en = m.en := (rfl)
@[simp] theorem updFio_fio (f : Fio → Fio) : (updFio f m).fio = f m.fio := (rfl)
@[simp] theorem updFio_bt (f : Fio → Fio) : (updFio f m).bt = m.bt := (rfl)
@[simp] theorem updFio_str (f : Fio → Fio) : (updFio f m).str = m.str := (rfl)
@[simp] theorem updFio_can (f : Fio → Fio) : (updFio f m).can = m.can := (rfl)
@[simp] theorem updFio_net (f : Fio → Fio) : (updFio f m).net = m.net := (rfl)
@[simp] theorem updFio_host (f : Fio → Fio) : (updFio f m).host = m.host := (rfl)
@[simp] theorem updFio_rcd (f : Fio → Fio) : (updFio f m).rcd = m.rcd := (rfl)
@[simp] theorem updFio_rc (f : Fio → Fio) : (updFio f m).rc = m.rc := (rfl)
@[simp] theorem updFio_pc (f : Fio → Fio) : (updFio f m).pc = m.pc := (rfl)
@[simp] theorem updFio_up (f : Fio → Fio) : (updFio f m).up = m.up := (rfl)
@[simp] theorem updFio_sec (f : Fio → Fio) : (updFio f m).sec = m.sec := (rfl)
@[simp] theorem updFio_pr (f : Fio → Fio) : (updFio f m).pr = m.pr := (rfl)
@[simp] theorem updFio_stateOut (f : Fio → Fio) : (updFio f m).stateOut = m.stateOut := (rfl)

/-! `updLg` changes the field `lg` and no other. -/

@[simp] theorem updLg_powered (f : Logic → Logic) : (updLg f m).powered = m.powered := (rfl)
@[simp] theorem updLg_clk (f : Logic → Logic) : (updLg f m).clk = m.clk := (rfl)
@[simp] theorem updLg_freeN (f : Logic → Logic) : (updLg f m).freeN = m.freeN := (rfl)
@[simp] theorem updLg_nv (f : Logic → Logic) : (updLg f m).nv = m.nv := (rfl)
@[simp] theorem updLg_cfg (f : Logic → Logic) : (updLg f m).cfg = m.cfg := (rfl)
@[simp] theorem updLg_tm (f : Logic → Logic) : (updLg f m).tm = m.tm := (rfl)
@[simp] theorem updLg_ln (f : Logic → Logic) : (updLg f m).ln = m.ln := (rfl)
@[simp] theorem updLg_md (f : Logic → Logic) : (updLg f m).md = m.md := (rfl)
@[simp] theorem updLg_pw (f : Logic → Logic) : (updLg f m).pw = m.pw := (rfl)
@[simp] theorem updLg_lg (f : Logic → Logic) : (updLg f m).lg = f m.lg := (rfl)
@[simp] theorem updLg_cur (f : Logic → Logic) : (updLg f m).cur = m.cur := (rfl)
@[simp] theorem updLg_nxt (f : Logic → Logic) : (updLg f m).nxt = m.nxt := (rfl)
@[simp] theorem updLg_en (f : Logic → Logic) : (updLg f m).en = m.en := (rfl)
@[simp] theorem updLg_fio (f : Logic → Logic) : (updLg f m).fio = m.fio := (rfl)
@[simp] theorem updLg_bt (f : Logic → Logic) : (updLg f m).bt = m.bt := (rfl)
@[simp] theorem updLg_str (f : Logic → Logic) : (updLg f m).str = m.str := (rfl)
@[simp] theorem updLg_can (f : Logic → Logic) : (updLg f m).can = m.can := (rfl)
@[simp] theorem updLg_net (f : Logic → Logic) : (updLg f m).net = m.net := (rfl)
@[simp] theorem updLg_host (f : Logic → Logic) : (updLg f m).host = m.host := (rfl)
@[simp] theorem updLg_rcd (f : Logic → Logic) : (updLg f m).rcd = m.rcd := (rfl)
@[simp] theorem updLg_rc (f : Logic → Logic) : (updLg f m).rc = m.rc := (rfl)
@[simp] theorem updLg_pc (f : Logic → Logic) : (updLg f m).pc = m.pc := (rfl)
@[simp] theorem updLg_up (f : Logic → Logic) : (updLg f m).up = m.up := (rfl)
@[simp] theorem updLg_sec (f : Logic → Logic) : (updLg f m).sec = m.sec := (rfl)
@[simp] theorem updLg_pr (f : Logic → Logic) : (updLg f m).pr = m.pr := (rfl)
@[simp] theorem updLg_stateOut (f : Logic → Logic) : (updLg f m).stateOut = m.stateOut := (rfl)

/-! `updEn` changes the field `en` and no other. -/

@[simp] theorem updEn_powered (f : Engine → Engine) : (updEn f m).powered = m.powered := (rfl)
@[simp] theorem updEn_clk (f : Engine → Engine) : (updEn f m).clk = m.clk := (rfl)
@[simp] theorem updEn_freeN (f : Engine → Engine) : (updEn f m).freeN = m.freeN := (rfl)
@[simp] theorem updEn_nv (f : Engine → Engine) : (updEn f m).nv = m.nv := (rfl)
@[simp] theorem updEn_cfg (f : Engine → Engine) : (updEn f m).cfg = m.cfg := (rfl)
@[simp] theorem updEn_tm (f : Engine → Engine) : (updEn f m).tm = m.tm := (rfl)
@[simp] theorem updEn_ln (f : Engine → Engine) : (updEn f m).ln = m.ln := (rfl)
@[simp] theorem updEn_md (f : Engine → Engine) : (updEn f m).md = m.md := (rfl)
@[simp] theorem updEn_pw (f : Engine → Engine) : (updEn f m).pw = m.pw := (rfl)
@[simp] theorem updEn_lg (f : Engine → Engine) : (updEn f m).lg = m.lg := (rfl)
@[simp] theorem updEn_cur (f : Engine → Engine) : (updEn f m).cur = m.cur := (rfl)
@[simp] theorem updEn_nxt (f : Engine → Engine) : (updEn f m).nxt = m.nxt := (rfl)
@[simp] theorem updEn_en (f : Engine → Engine) : (updEn f m).en = f m.en := (rfl)
@[simp] theorem updEn_fio (f : Engine → Engine) : (updEn f m).fio = m.fio := (rfl)
@[simp] theorem updEn_bt (f : Engine → Engine) : (updEn f m).bt = m.bt := (rfl)
@[simp] theorem updEn_str (f : Engine → Engine) : (updEn f m).str = m.str := (rfl)
@[simp] theorem updEn_can (f : Engine → Engine) : (updEn f m).can = m.can := (rfl)
@[simp] theorem updEn_net (f : Engine → Engine) : (updEn f m).net = m.net := (rfl)
@[simp] theorem updEn_host (f : Engine → Engine) : (updEn f m).host = m.host := (rfl)
@[simp] theorem updEn_rcd (f : Engine → Engine) : (updEn f m).rcd = m.rcd := (rfl)
@[simp] theorem updEn_rc (f : Engine → Engine) : (updEn f m).rc = m.rc := (rfl)
@[simp] theorem updEn_pc (f : Engine → Engine) : (updEn f m).pc = m.pc := (rfl)
@[simp] theorem updEn_up (f : Engine → Engine) : (updEn f m).up = m.up := (rfl)
@[simp] theorem updEn_sec (f : Engine → Engine) : (updEn f m).sec = m.sec := (rfl)
@[simp] theorem updEn_pr (f : Engine → Engine) : (updEn f m).pr = m.pr := (rfl)
@[simp] theorem updEn_stateOut (f : Engine → Engine) : (updEn f m).stateOut = m.stateOut := (rfl)

/-! `updPw` changes the field `pw` and no other. -/

@[simp] theorem updPw_powered (f : Power → Power) : (updPw f m).powered = m.powered := (rfl)
@[simp] theorem updPw_clk (f : Power → Power) : (updPw f m).clk = m.clk := (rfl)
@[simp] theorem updPw_freeN (f : Power → Power) : (updPw f m).freeN = m.freeN := (rfl)
@[simp] theorem updPw_nv (f : Power → Power) : (updPw f m).nv = m.nv := (rfl)
@[simp] theorem updPw_cfg (f : Power → Power) : (updPw f m).cfg = m.cfg := (rfl)
@[simp] theorem updPw_tm (f : Power → Power) : (updPw f m).tm = m.tm := (rfl)
@[simp] theorem updPw_ln (f : Power → Power) : (updPw f m).ln = m.ln := (rfl)
@[simp] theorem updPw_md (f : Power → Power) : (updPw f m).md = m.md := (rfl)
@[simp] theorem updPw_pw (f : Power → Power) : (updPw f m).pw = f m.pw := (rfl)
@[simp] theorem updPw_lg (f : Power → Power) : (updPw f m).lg = m.lg := (rfl)
@[simp] theorem updPw_cur (f : Power → Power) : (updPw f m).cur = m.cur := (rfl)
@[simp] theorem updPw_nxt (f : Power → Power) : (updPw f m).nxt = m.nxt := (rfl)
@[simp] theorem updPw_en (f : Power → Power) : (updPw f m).en = m.en := (rfl)
@[simp] theorem updPw_fio (f : Power → Power) : (updPw f m).fio = m.fio := (rfl)
@[simp] theorem updPw_bt (f : Power → Power) : (updPw f m).bt = m.bt := (rfl)
@[simp] theorem updPw_str (f : Power → Power) : (updPw f m).str = m.str := (rfl)
@[simp] theorem updPw_can (f : Power → Power) : (updPw f m).can = m.can := (rfl)
@[simp] theorem updPw_net (f : Power → Power) : (updPw f m).net = m.net := (rfl)
@[simp] theorem updPw_host (f : Power → Power) : (updPw f m).host = m.host := (rfl)
@[simp] theorem updPw_rcd (f : Power → Power) : (updPw f m).rcd = m.rcd := (rfl)
@[simp] theorem updPw_rc (f : Power → Power) : (updPw f m).rc = m.rc := (rfl)
@[simp] theorem updPw_pc (f : Power → Power) : (updPw f m).pc = m.pc := (rfl)
@[simp] theorem updPw_up (f : Power → Power) : (updPw f m).up = m.up := (rfl)
@[simp] theorem updPw_sec (f : Power → Power) : (updPw f m).sec = m.sec := (rfl)
@[simp] theorem updPw_pr (f : Power → Power) : (updPw f m).pr = m.pr := (rfl)
@[simp] theorem updPw_stateOut (f : Power → Power) : (updPw f m).stateOut = m.stateOut := (rfl)

/-! `updStr` changes the field `str` and no other. -/

@[simp] theorem updStr_powered (f : Stride → Stride) : (updStr f m).powered = m.powered := (rfl)
@[simp] theorem updStr_clk (f : Stride → Stride) : (updStr f m).clk = m.clk := (rfl)
@[simp] theorem updStr_freeN (f : Stride → Stride) : (updStr f m).freeN = m.freeN := (rfl)
@[simp] theorem updStr_nv (f : Stride → Stride) : (updStr f m).nv = m.nv := (rfl)
@[simp] theorem updStr_cfg (f : Stride → Stride) : (updStr f m).cfg = m.cfg := (rfl)
@[simp] theorem updStr_tm (f : Stride → Stride) : (updStr f m).tm = m.tm := (rfl)
@[simp] theorem updStr_ln (f : Stride → Stride) : (updStr f m).ln = m.ln := (rfl)
@[simp] theorem updStr_md (f : Stride → Stride) : (updStr f m).md = m.md := (rfl)
@[simp] theorem updStr_pw (f : Stride → Stride) : (updStr f m).pw = m.pw := (rfl)
@[simp] theorem updStr_lg (f : Stride → Stride) : (updStr f m).lg = m.lg := (rfl)
@[simp] theorem updStr_cur (f : Stride → Stride) : (updStr f m).cur = m.cur := (rfl)
@[simp] theorem updStr_nxt (f : Stride → Stride) : (updStr f m).nxt = m.nxt := (rfl)
@[simp] theorem updStr_en (f : Stride → Stride) : (updStr f m).en = m.en := (rfl)
@[simp] theorem updStr_fio (f : Stride → Stride) : (updStr f m).fio = m.fio := (rfl)
@[simp] theorem updStr_bt (f : Stride → Stride) : (updStr f m).bt = m.bt := (rfl)
@[simp] theorem updStr_str (f : Stride → Stride) : (updStr f m).str = f m.str := (rfl)
@[simp] theorem updStr_can (f : Stride → Stride) : (updStr f m).can = m.can := (rfl)
@[simp] theorem updStr_net (f : Stride → Stride) : (updStr f m).net = m.net := (rfl)
@[simp] theorem updStr_host (f : Stride → Stride) : (updStr f m).host = m.host := (rfl)
@[simp] theorem updStr_rcd (f : Stride → Stride) : (updStr f m).rcd = m.rcd := (rfl)
@[simp] theorem updStr_rc (f : Stride → Stride) : (updStr f m).rc = m.rc := (rfl)
@[simp] theorem updStr_pc (f : Stride → Stride) : (updStr f m).pc = m.pc := (rfl)
@[simp] theorem updStr_up (f : Stride → Stride) : (updStr f m).up = m.up := (rfl)
@[simp] theorem updStr_sec (f : Stride → Stride) : (updStr f m).sec = m.sec := (rfl)
@[simp] theorem updStr_pr (f : Stride → Stride) : (updStr f m).pr = m.pr := (rfl)
@[simp] theorem updStr_stateOut (f : Stride → Stride) : (updStr f m).stateOut = m.stateOut := (rfl)

/-! `updCan` changes the field `can` and no other. -/

@[simp] theorem updCan_powered (f : Can → Can) : (updCan f m).powered = m.powered := (rfl)
@[simp] theorem updCan_clk (f : Can → Can) : (updCan f m).clk = m.clk := (rfl)
@[simp] theorem updCan_freeN (f : Can → Can) : (updCan f m).freeN = m.freeN := (rfl)
@[simp] theorem updCan_nv (f : Can → Can) : (updCan f m).nv = m.nv := (rfl)
@[simp] theorem updCan_cfg (f : Can → Can) : (updCan f m).cfg = m.cfg := (rfl)
@[simp] theorem updCan_tm (f : Can → Can) : (updCan f m).tm = m.tm := (rfl)
@[simp] theorem updCan_ln (f : Can → Can) : (updCan f m).ln = m.ln := (rfl)
@[simp] theorem updCan_md (f : Can → Can) : (updCan f m).md = m.md := (rfl)
@[simp] theorem updCan_pw (f : Can → Can) : (updCan f m).pw = m.pw := (rfl)
@[simp] theorem updCan_lg (f : Can → Can) : (updCan f m).lg = m.lg := (rfl)
@[simp] theorem updCan_cur (f : Can → Can) : (updCan f m).cur = m.cur := (rfl)
@[simp] theorem updCan_nxt (f : Can → Can) : (updCan f m).nxt = m.nxt := (rfl)
@[simp] theorem updCan_en (f : Can → Can) : (updCan f m).en = m.en := (rfl)
@[simp] theorem updCan_fio (f : Can → Can) : (updCan f m).fio = m.fio := (rfl)
@[simp] theorem updCan_bt (f : Can → Can) : (updCan f m).bt = m.bt := (rfl)
@[simp] theorem updCan_str (f : Can → Can) : (updCan f m).str = m.str := (rfl)
@[simp] theorem updCan_can (f : Can → Can) : (updCan f m).can = f m.can := (rfl)
@[simp] theorem updCan_net (f : Can → Can) : (updCan f m).net = m.net := (rfl)
@[simp] theorem updCan_host (f : Can → Can) : (updCan f m).host = m.host := (rfl)
@[simp] theorem updCan_rcd (f : Can → Can) : (updCan f m).rcd = m.rcd := (rfl)
@[simp] theorem updCan_rc (f : Can → Can) : (updCan f m).rc = m.rc := (rfl)
@[simp] theorem updCan_pc (f : Can → Can) : (updCan f m).pc = m.pc := (rfl)
@[simp] theorem updCan_up (f : Can → Can) : (updCan f m).up = m.up := (rfl)
@[simp] theorem updCan_sec (f : Can → Can) : (updCan f m).sec = m.sec := (rfl)
@[simp] theorem updCan_pr (f : Can → Can) : (updCan f m).pr = m.pr := (rfl)
@[simp] theorem updCan_stateOut (f : Can → Can) : (updCan f m).stateOut = m.stateOut := (rfl)

/-! `updBt` changes the field `bt` and no other. -/

@[simp] theorem updBt_powered (f : Baton → Baton) : (updBt f m).powered = m.powered := (rfl)
@[simp] theorem updBt_clk (f : Baton → Baton) : (updBt f m).clk = m.clk := (rfl)
@[simp] theorem updBt_freeN (f : Baton → Baton) : (updBt f m).freeN = m.freeN := (rfl)
@[simp] theorem updBt_nv (f : Baton → Baton) : (updBt f m).nv = m.nv := (rfl)
@[simp] theorem updBt_cfg (f : Baton → Baton) : (updBt f m).cfg = m.cfg := (rfl)
@[simp] theorem updBt_tm (f : Baton → Baton) : (updBt f m).tm = m.tm := (rfl)
@[simp] theorem updBt_ln (f : Baton → Baton) : (updBt f m).ln = m.ln := (rfl)
@[simp] theorem updBt_md (f : Baton → Baton) : (updBt f m).md = m.md := (rfl)
@[simp] theorem updBt_pw (f : Baton → Baton) : (updBt f m).pw = m.pw := (rfl)
@[simp] theorem updBt_lg (f : Baton → Baton) : (updBt f m).lg = m.lg := (rfl)
@[simp] theorem updBt_cur (f : Baton → Baton) : (updBt f m).cur = m.cur := (rfl)
@[simp] theorem updBt_nxt (f : Baton → Baton) : (updBt f m).nxt = m.nxt := (rfl)
@[simp] theorem updBt_en (f : Baton → Baton) : (updBt f m).en = m.en := (rfl)
@[simp] theorem updBt_fio (f : Baton → Baton) : (updBt f m).fio = m.fio := (rfl)
@[simp] theorem updBt_bt (f : Baton → Baton) : (updBt f m).bt = f m.bt := (rfl)
@[simp] theorem updBt_str (f : Baton → Baton) : (updBt f m).str = m.str := (rfl)
@[simp] theorem updBt_can (f : Baton → Baton) : (updBt f m).can = m.can := (rfl)
@[simp] theorem updBt_net (f : Baton → Baton) : (updBt f m).net = m.net := (rfl)
@[simp] theorem updBt_host (f : Baton → Baton) : (updBt f m).host = m.host := (rfl)
@[simp] theorem updBt_rcd (f : Baton → Baton) : (updBt f m).rcd = m.rcd := (rfl)
@[simp] theorem updBt_rc (f : Baton → Baton) : (updBt f m).rc = m.rc := (rfl)
@[simp] theorem updBt_pc (f : Baton → Baton) : (updBt f m).pc = m.pc := (rfl)
@[simp] theorem updBt_up (f : Baton → Baton) : (updBt f m).up = m.up := (rfl)
@[simp] theorem updBt_sec (f : Baton → Baton) : (updBt f m).sec = m.sec := (rfl)
@[simp] theorem updBt_pr (f : Baton → Baton) : (updBt f m).pr = m.pr := (rfl)
@[simp] theorem updBt_stateOut (f : Baton → Baton) : (updBt f m).stateOut = m.stateOut := (rfl)

/-! `updRc` changes the field `rc` and no other. -/

@[simp] theorem updRc_powered (f : RollCall → RollCall) : (updRc f m).powered = m.powered := (rfl)
@[simp] theorem updRc_clk (f : RollCall → RollCall) : (updRc f m).clk = m.clk := (rfl)
@[simp] theorem updRc_freeN (f : RollCall → RollCall) : (updRc f m).freeN = m.freeN := (rfl)
@[simp] theorem updRc_nv (f : RollCall → RollCall) : (updRc f m).nv = m.nv := (rfl)
@[simp] theorem updRc_cfg (f : RollCall → RollCall) : (updRc f m).cfg = m.cfg := (rfl)
@[simp] theorem updRc_tm (f : RollCall → RollCall) : (updRc f m).tm = m.tm := (rfl)
@[simp] theorem updRc_ln (f : RollCall → RollCall) : (updRc f m).ln = m.ln := (rfl)
@[simp] theorem updRc_md (f : RollCall → RollCall) : (updRc f m).md = m.md := (rfl)
@[simp] theorem updRc_pw (f : RollCall → RollCall) : (updRc f m).pw = m.pw := (rfl)
@[simp] theorem updRc_lg (f : RollCall → RollCall) : (updRc f m).lg = m.lg := (rfl)
@[simp] theorem updRc_cur (f : RollCall → RollCall) : (updRc f m).cur = m.cur := (rfl)
@[simp] theorem updRc_nxt (f : RollCall → RollCall) : (updRc f m).nxt = m.nxt := (rfl)
@[simp] theorem updRc_en (f : RollCall → RollCall) : (updRc f m).en = m.en := (rfl)
@[simp] theorem updRc_fio (f : RollCall → RollCall) : (updRc f m).fio = m.fio := (rfl)
@[simp] theorem updRc_bt (f : RollCall → RollCall) : (updRc f m).bt = m.bt := (rfl)
@[simp] theorem updRc_str (f : RollCall → RollCall) : (updRc f m).str = m.str := (rfl)
@[simp] theorem updRc_can (f : RollCall → RollCall) : (updRc f m).can = m.can := (rfl)
@[simp] theorem updRc_net (f : RollCall → RollCall) : (updRc f m).net = m.net := (rfl)
@[simp] theorem updRc_host (f : RollCall → RollCall) : (updRc f m).host = m.host := (rfl)
@[simp] theorem updRc_rcd (f : RollCall → RollCall) : (updRc f m).rcd = m.rcd := (rfl)
@[simp] theorem updRc_rc (f : RollCall → RollCall) : (updRc f m).rc = f m.rc := (rfl)
@[simp] theorem updRc_pc (f : RollCall → RollCall) : (updRc f m).pc = m.pc := (rfl)
@[simp] theorem updRc_up (f : RollCall → RollCall) : (updRc f m).up = m.up := (rfl)
@[simp] theorem updRc_sec (f : RollCall → RollCall) : (updRc f m).sec = m.sec := (rfl)
@[simp] theorem updRc_pr (f : RollCall → RollCall) : (updRc f m).pr = m.pr := (rfl)
@[simp] theorem updRc_stateOut (f : RollCall → RollCall) : (updRc f m).stateOut = m.stateOut := (rfl)

/-! `updPc` changes the field `pc` and no other. -/

@[simp] theorem updPc_powered (f : Counters → Counters) : (updPc f m).powered = m.powered := (rfl)
@[simp] theorem updPc_clk (f : Counters → Counters) : (updPc f m).clk = m.clk := (rfl)
@[simp] theorem updPc_freeN (f : Counters → Counters) : (updPc f m).freeN = m.freeN := (rfl)
@[simp] theorem updPc_nv (f : Counters → Counters) : (updPc f m).nv = m.nv := (rfl)
@[simp] theorem updPc_cfg (f : Counters → Counters) : (updPc f m).cfg = m.cfg := (rfl)
@[simp] theorem updPc_tm (f : Counters → Counters) : (updPc f m).tm = m.tm := (rfl)
@[simp] theorem updPc_ln (f : Counters → Counters) : (updPc f m).ln = m.ln := (rfl)
@[simp] theorem updPc_md (f : Counters → Counters) : (updPc f m).md = m.md := (rfl)
@[simp] theorem updPc_pw (f : Counters → Counters) : (updPc f m).pw = m.pw := (rfl)
@[simp] theorem updPc_lg (f : Counters → Counters) : (updPc f m).lg = m.lg := (rfl)
@[simp] theorem updPc_cur (f : Counters → Counters) : (updPc f m).cur = m.cur := (rfl)
@[simp] theorem updPc_nxt (f : Counters → Counters) : (updPc f m).nxt = m.nxt := (rfl)
@[simp] theorem updPc_en (f : Counters → Counters) : (updPc f m).en = m.en := (rfl)
@[simp] theorem updPc_fio (f : Counters → Counters) : (updPc f m).fio = m.fio := (rfl)
@[simp] theorem updPc_bt (f : Counters → Counters) : (updPc f m).bt = m.bt := (rfl)
@[simp] theorem updPc_str (f : Counters → Counters) : (updPc f m).str = m.str := (rfl)
@[simp] theorem updPc_can (f : Counters → Counters) : (updPc f m).can = m.can := (rfl)
@[simp] theorem updPc_net (f : Counters → Counters) : (updPc f m).net = m.net := (rfl)
@[simp] theorem updPc_host (f : Counters → Counters) : (updPc f m).host = m.host := (rfl)
@[simp] theorem updPc_rcd (f : Counters → Counters) : (updPc f m).rcd = m.rcd := (rfl)
@[simp] theorem updPc_rc (f : Counters → Counters) : (updPc f m).rc = m.rc := (rfl)
@[simp] theorem updPc_pc (f : Counters → Counters) : (updPc f m).pc = f m.pc := (rfl)
@[simp] theorem updPc_up (f : Counters → Counters) : (updPc f m).up = m.up := (rfl)
@[simp] theorem updPc_sec (f : Counters → Counters) : (updPc f m).sec = m.sec := (rfl)
@[simp] theorem updPc_pr (f : Counters → Counters) : (updPc f m).pr = m.pr := (rfl)
@[simp] theorem updPc_stateOut (f : Counters → Counters) : (updPc f m).stateOut = m.stateOut := (rfl)

/-! The two updates of lanes. -/

@[simp] theorem updLane_powered (l : LaneId) (f : Lane → Lane) : (updLane l f m).powered = m.powered := (rfl)
@[simp] theorem updLane_clk (l : LaneId) (f : Lane → Lane) : (updLane l f m).clk = m.clk := (rfl)
@[simp] theorem updLane_freeN (l : LaneId) (f : Lane → Lane) : (updLane l f m).freeN = m.freeN := (rfl)
@[simp] theorem updLane_nv (l : LaneId) (f : Lane → Lane) : (updLane l f m).nv = m.nv := (rfl)
@[simp] theorem updLane_cfg (l : LaneId) (f : Lane → Lane) : (updLane l f m).cfg = m.cfg := (rfl)
@[simp] theorem updLane_tm (l : LaneId) (f : Lane → Lane) : (updLane l f m).tm = m.tm := (rfl)
@[simp] theorem updLane_ln (l : LaneId) (f : Lane → Lane) : (updLane l f m).ln = m.ln.modify l f := (rfl)
@[simp] theorem updLane_md (l : LaneId) (f : Lane → Lane) : (updLane l f m).md = m.md := (rfl)
@[simp] theorem updLane_pw (l : LaneId) (f : Lane → Lane) : (updLane l f m).pw = m.pw := (rfl)
@[simp] theorem updLane_lg (l : LaneId) (f : Lane → Lane) : (updLane l f m).lg = m.lg := (rfl)
@[simp] theorem updLane_cur (l : LaneId) (f : Lane → Lane) : (updLane l f m).cur = m.cur := (rfl)
@[simp] theorem updLane_nxt (l : LaneId) (f : Lane → Lane) : (updLane l f m).nxt = m.nxt := (rfl)
@[simp] theorem updLane_en (l : LaneId) (f : Lane → Lane) : (updLane l f m).en = m.en := (rfl)
@[simp] theorem updLane_fio (l : LaneId) (f : Lane → Lane) : (updLane l f m).fio = m.fio := (rfl)
@[simp] theorem updLane_bt (l : LaneId) (f : Lane → Lane) : (updLane l f m).bt = m.bt := (rfl)
@[simp] theorem updLane_str (l : LaneId) (f : Lane → Lane) : (updLane l f m).str = m.str := (rfl)
@[simp] theorem updLane_can (l : LaneId) (f : Lane → Lane) : (updLane l f m).can = m.can := (rfl)
@[simp] theorem updLane_net (l : LaneId) (f : Lane → Lane) : (updLane l f m).net = m.net := (rfl)
@[simp] theorem updLane_host (l : LaneId) (f : Lane → Lane) : (updLane l f m).host = m.host := (rfl)
@[simp] theorem updLane_rcd (l : LaneId) (f : Lane → Lane) : (updLane l f m).rcd = m.rcd := (rfl)
@[simp] theorem updLane_rc (l : LaneId) (f : Lane → Lane) : (updLane l f m).rc = m.rc := (rfl)
@[simp] theorem updLane_pc (l : LaneId) (f : Lane → Lane) : (updLane l f m).pc = m.pc := (rfl)
@[simp] theorem updLane_up (l : LaneId) (f : Lane → Lane) : (updLane l f m).up = m.up := (rfl)
@[simp] theorem updLane_sec (l : LaneId) (f : Lane → Lane) : (updLane l f m).sec = m.sec := (rfl)
@[simp] theorem updLane_pr (l : LaneId) (f : Lane → Lane) : (updLane l f m).pr = m.pr := (rfl)
@[simp] theorem updLane_stateOut (l : LaneId) (f : Lane → Lane) : (updLane l f m).stateOut = m.stateOut := (rfl)
@[simp] theorem updLanes_powered (f : LaneId → Lane → Lane) : (updLanes f m).powered = m.powered := (rfl)
@[simp] theorem updLanes_clk (f : LaneId → Lane → Lane) : (updLanes f m).clk = m.clk := (rfl)
@[simp] theorem updLanes_freeN (f : LaneId → Lane → Lane) : (updLanes f m).freeN = m.freeN := (rfl)
@[simp] theorem updLanes_nv (f : LaneId → Lane → Lane) : (updLanes f m).nv = m.nv := (rfl)
@[simp] theorem updLanes_cfg (f : LaneId → Lane → Lane) : (updLanes f m).cfg = m.cfg := (rfl)
@[simp] theorem updLanes_tm (f : LaneId → Lane → Lane) : (updLanes f m).tm = m.tm := (rfl)
@[simp] theorem updLanes_ln (f : LaneId → Lane → Lane) : (updLanes f m).ln = m.ln.mapL f := (rfl)
@[simp] theorem updLanes_md (f : LaneId → Lane → Lane) : (updLanes f m).md = m.md := (rfl)
@[simp] theorem updLanes_pw (f : LaneId → Lane → Lane) : (updLanes f m).pw = m.pw := (rfl)
@[simp] theorem updLanes_lg (f : LaneId → Lane → Lane) : (updLanes f m).lg = m.lg := (rfl)
@[simp] theorem updLanes_cur (f : LaneId → Lane → Lane) : (updLanes f m).cur = m.cur := (rfl)
@[simp] theorem updLanes_nxt (f : LaneId → Lane → Lane) : (updLanes f m).nxt = m.nxt := (rfl)
@[simp] theorem updLanes_en (f : LaneId → Lane → Lane) : (updLanes f m).en = m.en := (rfl)
@[simp] theorem updLanes_fio (f : LaneId → Lane → Lane) : (updLanes f m).fio = m.fio := (rfl)
@[simp] theorem updLanes_bt (f : LaneId → Lane → Lane) : (updLanes f m).bt = m.bt := (rfl)
@[simp] theorem updLanes_str (f : LaneId → Lane → Lane) : (updLanes f m).str = m.str := (rfl)
@[simp] theorem updLanes_can (f : LaneId → Lane → Lane) : (updLanes f m).can = m.can := (rfl)
@[simp] theorem updLanes_net (f : LaneId → Lane → Lane) : (updLanes f m).net = m.net := (rfl)
@[simp] theorem updLanes_host (f : LaneId → Lane → Lane) : (updLanes f m).host = m.host := (rfl)
@[simp] theorem updLanes_rcd (f : LaneId → Lane → Lane) : (updLanes f m).rcd = m.rcd := (rfl)
@[simp] theorem updLanes_rc (f : LaneId → Lane → Lane) : (updLanes f m).rc = m.rc := (rfl)
@[simp] theorem updLanes_pc (f : LaneId → Lane → Lane) : (updLanes f m).pc = m.pc := (rfl)
@[simp] theorem updLanes_up (f : LaneId → Lane → Lane) : (updLanes f m).up = m.up := (rfl)
@[simp] theorem updLanes_sec (f : LaneId → Lane → Lane) : (updLanes f m).sec = m.sec := (rfl)
@[simp] theorem updLanes_pr (f : LaneId → Lane → Lane) : (updLanes f m).pr = m.pr := (rfl)
@[simp] theorem updLanes_stateOut (f : LaneId → Lane → Lane) : (updLanes f m).stateOut = m.stateOut := (rfl)

/-! A command on a powered and on an unpowered module. -/

theorem State.run_powered (f : Mod → Mod) (s : State) (h : s.m.powered = true) : s.run f = .next { s with m := fireDue (f s.m) } := by
  simp [State.run, h]

theorem State.run_unpowered (f : Mod → Mod) (s : State) (h : s.m.powered = false) : s.run f = .next s := by
  simp [State.run, h]

/-- A command answers a next state, and the queue of that state is the queue it was given. -/
theorem State.run_next (f : Mod → Mod) (s : State) : ∃ m, s.run f = .next { s with m := m } := ⟨_, rfl⟩

end Sys2Proof.Machine

namespace Sys2Proof

/-! Values of one lane. -/

@[simp] theorem PerLane.get_set {α : Type} (p : PerLane α) (l : LaneId) (v : α) : (p.set l v).get l = v := by cases l <;> rfl

@[simp] theorem PerLane.get_modify {α : Type} (p : PerLane α) (l : LaneId) (f : α → α) : (p.modify l f).get l = f (p.get l) := by
  cases l <;> rfl

theorem PerLane.get_set_ne {α : Type} (p : PerLane α) (l x : LaneId) (v : α) (h : x ≠ l) : (p.set l v).get x = p.get x := by
  cases l <;> cases x <;> first | rfl | exact absurd rfl h

theorem PerLane.get_modify_ne {α : Type} (p : PerLane α) (l x : LaneId) (f : α → α) (h : x ≠ l) :
    (p.modify l f).get x = p.get x := PerLane.get_set_ne p l x _ h

@[simp] theorem PerLane.get_mapL {α β : Type} (p : PerLane α) (f : LaneId → α → β) (l : LaneId) :
    (p.mapL f).get l = f l (p.get l) := by cases l <;> rfl

@[simp] theorem PerLane.get_all {α : Type} (v : α) (l : LaneId) : (PerLane.all v).get l = v := by cases l <;> rfl

end Sys2Proof
end

