-- ==== Sys2Proof/Laws/Ops.lean ====
section
/-! SUPPORT. What the shared operations can change: said once for each (all of the module but named parts stays), and then one
lemma per field they leave alone. -/

namespace Sys2Proof.Machine

variable (m : Mod)

@[simp] theorem onlyIf_true (f : Mod → Mod) : onlyIf true f m = f m := rfl
@[simp] theorem onlyIf_false (f : Mod → Mod) : onlyIf false f m = m := rfl
@[simp] theorem forEach_nil {α : Type} (f : α → Mod → Mod) : forEach [] f m = m := rfl
@[simp] theorem forEach_cons {α : Type} (x : α) (xs : List α) (f : α → Mod → Mod) :
    forEach (x :: xs) f m = forEach xs f (f x m) := rfl

/-- What each item keeps, a fold over items keeps. -/
theorem forEach_keeps {α β : Type} (g : Mod → β) (xs : List α) (f : α → Mod → Mod) (h : ∀ x n, g (f x n) = g n) :
    g (forEach xs f m) = g m := by
  induction xs generalizing m with
  | nil => rfl
  | cons x r ih => exact (ih (f x m)).trans (h x m)

theorem onlyIf_keeps {β : Type} (g : Mod → β) (c : Bool) (f : Mod → Mod) (h : g (f m) = g m) : g (onlyIf c f m) = g m := by
  cases c
  · rfl
  · exact h

/-- All but the host interface. -/
def Mod.noHost (m : Mod) : Mod := { m with host := HostIf.fresh }
/-- All but the recorder. -/
def Mod.noRcd (m : Mod) : Mod := { m with rcd := Recorder.fresh }
/-- All but the host interface and the recorder. -/
def Mod.noHR (m : Mod) : Mod := { m with host := HostIf.fresh, rcd := Recorder.fresh }
/-- All but the host interface, the pair's state and CAN FD: what writing a completion can change. -/
def Mod.noHP (m : Mod) : Mod := { m with host := HostIf.fresh, pr := Pair.fresh, can := ⟨0, [], []⟩ }
/-- All but the modes. -/
def Mod.noMd (m : Mod) : Mod := { m with md := Modes.fresh }
/-- All but the lanes. -/
def Mod.noLn (m : Mod) : Mod := { m with ln := PerLane.all (Lane.fresh (LaneNv.fresh 0 0)) }
/-- All but the lanes and the free values taken. -/
def Mod.noLf (m : Mod) : Mod := { m with freeN := 0, ln := PerLane.all (Lane.fresh (LaneNv.fresh 0 0)) }
/-- All but the clocks, the lanes and the free values taken. -/
def Mod.noTime (m : Mod) : Mod := { m with clk := 0, freeN := 0, ln := PerLane.all (Lane.fresh (LaneNv.fresh 0 0)) }
/-- All but the clocks, the lanes, the free values taken and the modes. -/
def Mod.noTimeMd (m : Mod) : Mod :=
  { m with clk := 0, freeN := 0, ln := PerLane.all (Lane.fresh (LaneNv.fresh 0 0)), md := Modes.fresh }

theorem noHost_noHR {a b : Mod} (h : a.noHost = b.noHost) : a.noHR = b.noHR := congrArg Mod.noRcd h
theorem noRcd_noHR {a b : Mod} (h : a.noRcd = b.noRcd) : a.noHR = b.noHR := congrArg Mod.noHost h
theorem noHost_noHP {a b : Mod} (h : a.noHost = b.noHost) : a.noHP = b.noHP :=
  congrArg (fun n : Mod => { n with pr := Pair.fresh, can := ⟨0, [], []⟩ }) h
theorem noTime_noTimeMd {a b : Mod} (h : a.noTime = b.noTime) : a.noTimeMd = b.noTimeMd :=
  congrArg (fun n : Mod => { n with md := Modes.fresh }) h
theorem noMd_noTimeMd {a b : Mod} (h : a.noMd = b.noMd) : a.noTimeMd = b.noTimeMd :=
  congrArg (fun n : Mod => { n with clk := 0, freeN := 0, ln := PerLane.all (Lane.fresh (LaneNv.fresh 0 0)) }) h
theorem noLn_noTimeMd {a b : Mod} (h : a.noLn = b.noLn) : a.noTimeMd = b.noTimeMd :=
  congrArg (fun n : Mod => { n with clk := 0, freeN := 0, md := Modes.fresh }) h
theorem noLf_noTime {a b : Mod} (h : a.noLf = b.noLf) : a.noTime = b.noTime :=
  congrArg (fun n : Mod => { n with clk := 0 }) h

@[simp] theorem updHost_noHost (f : HostIf → HostIf) : (updHost f m).noHost = m.noHost := rfl
@[simp] theorem updHost_noHR (f : HostIf → HostIf) : (updHost f m).noHR = m.noHR := rfl
@[simp] theorem updHost_noHP (f : HostIf → HostIf) : (updHost f m).noHP = m.noHP := rfl
@[simp] theorem updPr_noHP (f : Pair → Pair) : (updPr f m).noHP = m.noHP := rfl
@[simp] theorem updCan_noHP (f : Can → Can) : (updCan f m).noHP = m.noHP := rfl
@[simp] theorem updRcd_noRcd (f : Recorder → Recorder) : (updRcd f m).noRcd = m.noRcd := rfl
@[simp] theorem updRcd_noHR (f : Recorder → Recorder) : (updRcd f m).noHR = m.noHR := rfl
@[simp] theorem updMd_noTimeMd (f : Modes → Modes) : (updMd f m).noTimeMd = m.noTimeMd := rfl

/-! Two modules that agree but for some parts agree in each other part. -/

theorem noHost_powered {a b : Mod} (h : a.noHost = b.noHost) : a.powered = b.powered := (congrArg Mod.powered h :)
theorem noHost_clk {a b : Mod} (h : a.noHost = b.noHost) : a.clk = b.clk := (congrArg Mod.clk h :)
theorem noHost_freeN {a b : Mod} (h : a.noHost = b.noHost) : a.freeN = b.freeN := (congrArg Mod.freeN h :)
theorem noHost_nv {a b : Mod} (h : a.noHost = b.noHost) : a.nv = b.nv := (congrArg Mod.nv h :)
theorem noHost_cfg {a b : Mod} (h : a.noHost = b.noHost) : a.cfg = b.cfg := (congrArg Mod.cfg h :)
theorem noHost_tm {a b : Mod} (h : a.noHost = b.noHost) : a.tm = b.tm := (congrArg Mod.tm h :)
theorem noHost_ln {a b : Mod} (h : a.noHost = b.noHost) : a.ln = b.ln := (congrArg Mod.ln h :)
theorem noHost_md {a b : Mod} (h : a.noHost = b.noHost) : a.md = b.md := (congrArg Mod.md h :)
theorem noHost_pw {a b : Mod} (h : a.noHost = b.noHost) : a.pw = b.pw := (congrArg Mod.pw h :)
theorem noHost_lg {a b : Mod} (h : a.noHost = b.noHost) : a.lg = b.lg := (congrArg Mod.lg h :)
theorem noHost_cur {a b : Mod} (h : a.noHost = b.noHost) : a.cur = b.cur := (congrArg Mod.cur h :)
theorem noHost_nxt {a b : Mod} (h : a.noHost = b.noHost) : a.nxt = b.nxt := (congrArg Mod.nxt h :)
theorem noHost_en {a b : Mod} (h : a.noHost = b.noHost) : a.en = b.en := (congrArg Mod.en h :)
theorem noHost_fio {a b : Mod} (h : a.noHost = b.noHost) : a.fio = b.fio := (congrArg Mod.fio h :)
theorem noHost_bt {a b : Mod} (h : a.noHost = b.noHost) : a.bt = b.bt := (congrArg Mod.bt h :)
theorem noHost_str {a b : Mod} (h : a.noHost = b.noHost) : a.str = b.str := (congrArg Mod.str h :)
theorem noHost_can {a b : Mod} (h : a.noHost = b.noHost) : a.can = b.can := (congrArg Mod.can h :)
theorem noHost_net {a b : Mod} (h : a.noHost = b.noHost) : a.net = b.net := (congrArg Mod.net h :)
theorem noHost_rcd {a b : Mod} (h : a.noHost = b.noHost) : a.rcd = b.rcd := (congrArg Mod.rcd h :)
theorem noHost_rc {a b : Mod} (h : a.noHost = b.noHost) : a.rc = b.rc := (congrArg Mod.rc h :)
theorem noHost_pc {a b : Mod} (h : a.noHost = b.noHost) : a.pc = b.pc := (congrArg Mod.pc h :)
theorem noHost_up {a b : Mod} (h : a.noHost = b.noHost) : a.up = b.up := (congrArg Mod.up h :)
theorem noHost_sec {a b : Mod} (h : a.noHost = b.noHost) : a.sec = b.sec := (congrArg Mod.sec h :)
theorem noHost_pr {a b : Mod} (h : a.noHost = b.noHost) : a.pr = b.pr := (congrArg Mod.pr h :)
theorem noHost_stateOut {a b : Mod} (h : a.noHost = b.noHost) : a.stateOut = b.stateOut := (congrArg Mod.stateOut h :)
theorem noRcd_powered {a b : Mod} (h : a.noRcd = b.noRcd) : a.powered = b.powered := (congrArg Mod.powered h :)
theorem noRcd_clk {a b : Mod} (h : a.noRcd = b.noRcd) : a.clk = b.clk := (congrArg Mod.clk h :)
theorem noRcd_freeN {a b : Mod} (h : a.noRcd = b.noRcd) : a.freeN = b.freeN := (congrArg Mod.freeN h :)
theorem noRcd_nv {a b : Mod} (h : a.noRcd = b.noRcd) : a.nv = b.nv := (congrArg Mod.nv h :)
theorem noRcd_cfg {a b : Mod} (h : a.noRcd = b.noRcd) : a.cfg = b.cfg := (congrArg Mod.cfg h :)
theorem noRcd_tm {a b : Mod} (h : a.noRcd = b.noRcd) : a.tm = b.tm := (congrArg Mod.tm h :)
theorem noRcd_ln {a b : Mod} (h : a.noRcd = b.noRcd) : a.ln = b.ln := (congrArg Mod.ln h :)
theorem noRcd_md {a b : Mod} (h : a.noRcd = b.noRcd) : a.md = b.md := (congrArg Mod.md h :)
theorem noRcd_pw {a b : Mod} (h : a.noRcd = b.noRcd) : a.pw = b.pw := (congrArg Mod.pw h :)
theorem noRcd_lg {a b : Mod} (h : a.noRcd = b.noRcd) : a.lg = b.lg := (congrArg Mod.lg h :)
theorem noRcd_cur {a b : Mod} (h : a.noRcd = b.noRcd) : a.cur = b.cur := (congrArg Mod.cur h :)
theorem noRcd_nxt {a b : Mod} (h : a.noRcd = b.noRcd) : a.nxt = b.nxt := (congrArg Mod.nxt h :)
theorem noRcd_en {a b : Mod} (h : a.noRcd = b.noRcd) : a.en = b.en := (congrArg Mod.en h :)
theorem noRcd_fio {a b : Mod} (h : a.noRcd = b.noRcd) : a.fio = b.fio := (congrArg Mod.fio h :)
theorem noRcd_bt {a b : Mod} (h : a.noRcd = b.noRcd) : a.bt = b.bt := (congrArg Mod.bt h :)
theorem noRcd_str {a b : Mod} (h : a.noRcd = b.noRcd) : a.str = b.str := (congrArg Mod.str h :)
theorem noRcd_can {a b : Mod} (h : a.noRcd = b.noRcd) : a.can = b.can := (congrArg Mod.can h :)
theorem noRcd_net {a b : Mod} (h : a.noRcd = b.noRcd) : a.net = b.net := (congrArg Mod.net h :)
theorem noRcd_host {a b : Mod} (h : a.noRcd = b.noRcd) : a.host = b.host := (congrArg Mod.host h :)
theorem noRcd_rc {a b : Mod} (h : a.noRcd = b.noRcd) : a.rc = b.rc := (congrArg Mod.rc h :)
theorem noRcd_pc {a b : Mod} (h : a.noRcd = b.noRcd) : a.pc = b.pc := (congrArg Mod.pc h :)
theorem noRcd_up {a b : Mod} (h : a.noRcd = b.noRcd) : a.up = b.up := (congrArg Mod.up h :)
theorem noRcd_sec {a b : Mod} (h : a.noRcd = b.noRcd) : a.sec = b.sec := (congrArg Mod.sec h :)
theorem noRcd_pr {a b : Mod} (h : a.noRcd = b.noRcd) : a.pr = b.pr := (congrArg Mod.pr h :)
theorem noRcd_stateOut {a b : Mod} (h : a.noRcd = b.noRcd) : a.stateOut = b.stateOut := (congrArg Mod.stateOut h :)
theorem noHR_powered {a b : Mod} (h : a.noHR = b.noHR) : a.powered = b.powered := (congrArg Mod.powered h :)
theorem noHR_clk {a b : Mod} (h : a.noHR = b.noHR) : a.clk = b.clk := (congrArg Mod.clk h :)
theorem noHR_freeN {a b : Mod} (h : a.noHR = b.noHR) : a.freeN = b.freeN := (congrArg Mod.freeN h :)
theorem noHR_nv {a b : Mod} (h : a.noHR = b.noHR) : a.nv = b.nv := (congrArg Mod.nv h :)
theorem noHR_cfg {a b : Mod} (h : a.noHR = b.noHR) : a.cfg = b.cfg := (congrArg Mod.cfg h :)
theorem noHR_tm {a b : Mod} (h : a.noHR = b.noHR) : a.tm = b.tm := (congrArg Mod.tm h :)
theorem noHR_ln {a b : Mod} (h : a.noHR = b.noHR) : a.ln = b.ln := (congrArg Mod.ln h :)
theorem noHR_md {a b : Mod} (h : a.noHR = b.noHR) : a.md = b.md := (congrArg Mod.md h :)
theorem noHR_pw {a b : Mod} (h : a.noHR = b.noHR) : a.pw = b.pw := (congrArg Mod.pw h :)
theorem noHR_lg {a b : Mod} (h : a.noHR = b.noHR) : a.lg = b.lg := (congrArg Mod.lg h :)
theorem noHR_cur {a b : Mod} (h : a.noHR = b.noHR) : a.cur = b.cur := (congrArg Mod.cur h :)
theorem noHR_nxt {a b : Mod} (h : a.noHR = b.noHR) : a.nxt = b.nxt := (congrArg Mod.nxt h :)
theorem noHR_en {a b : Mod} (h : a.noHR = b.noHR) : a.en = b.en := (congrArg Mod.en h :)
theorem noHR_fio {a b : Mod} (h : a.noHR = b.noHR) : a.fio = b.fio := (congrArg Mod.fio h :)
theorem noHR_bt {a b : Mod} (h : a.noHR = b.noHR) : a.bt = b.bt := (congrArg Mod.bt h :)
theorem noHR_str {a b : Mod} (h : a.noHR = b.noHR) : a.str = b.str := (congrArg Mod.str h :)
theorem noHR_can {a b : Mod} (h : a.noHR = b.noHR) : a.can = b.can := (congrArg Mod.can h :)
theorem noHR_net {a b : Mod} (h : a.noHR = b.noHR) : a.net = b.net := (congrArg Mod.net h :)
theorem noHR_rc {a b : Mod} (h : a.noHR = b.noHR) : a.rc = b.rc := (congrArg Mod.rc h :)
theorem noHR_pc {a b : Mod} (h : a.noHR = b.noHR) : a.pc = b.pc := (congrArg Mod.pc h :)
theorem noHR_up {a b : Mod} (h : a.noHR = b.noHR) : a.up = b.up := (congrArg Mod.up h :)
theorem noHR_sec {a b : Mod} (h : a.noHR = b.noHR) : a.sec = b.sec := (congrArg Mod.sec h :)
theorem noHR_pr {a b : Mod} (h : a.noHR = b.noHR) : a.pr = b.pr := (congrArg Mod.pr h :)
theorem noHR_stateOut {a b : Mod} (h : a.noHR = b.noHR) : a.stateOut = b.stateOut := (congrArg Mod.stateOut h :)
theorem noHP_powered {a b : Mod} (h : a.noHP = b.noHP) : a.powered = b.powered := (congrArg Mod.powered h :)
theorem noHP_clk {a b : Mod} (h : a.noHP = b.noHP) : a.clk = b.clk := (congrArg Mod.clk h :)
theorem noHP_freeN {a b : Mod} (h : a.noHP = b.noHP) : a.freeN = b.freeN := (congrArg Mod.freeN h :)
theorem noHP_nv {a b : Mod} (h : a.noHP = b.noHP) : a.nv = b.nv := (congrArg Mod.nv h :)
theorem noHP_cfg {a b : Mod} (h : a.noHP = b.noHP) : a.cfg = b.cfg := (congrArg Mod.cfg h :)
theorem noHP_tm {a b : Mod} (h : a.noHP = b.noHP) : a.tm = b.tm := (congrArg Mod.tm h :)
theorem noHP_ln {a b : Mod} (h : a.noHP = b.noHP) : a.ln = b.ln := (congrArg Mod.ln h :)
theorem noHP_md {a b : Mod} (h : a.noHP = b.noHP) : a.md = b.md := (congrArg Mod.md h :)
theorem noHP_pw {a b : Mod} (h : a.noHP = b.noHP) : a.pw = b.pw := (congrArg Mod.pw h :)
theorem noHP_lg {a b : Mod} (h : a.noHP = b.noHP) : a.lg = b.lg := (congrArg Mod.lg h :)
theorem noHP_cur {a b : Mod} (h : a.noHP = b.noHP) : a.cur = b.cur := (congrArg Mod.cur h :)
theorem noHP_nxt {a b : Mod} (h : a.noHP = b.noHP) : a.nxt = b.nxt := (congrArg Mod.nxt h :)
theorem noHP_en {a b : Mod} (h : a.noHP = b.noHP) : a.en = b.en := (congrArg Mod.en h :)
theorem noHP_fio {a b : Mod} (h : a.noHP = b.noHP) : a.fio = b.fio := (congrArg Mod.fio h :)
theorem noHP_bt {a b : Mod} (h : a.noHP = b.noHP) : a.bt = b.bt := (congrArg Mod.bt h :)
theorem noHP_str {a b : Mod} (h : a.noHP = b.noHP) : a.str = b.str := (congrArg Mod.str h :)
theorem noHP_net {a b : Mod} (h : a.noHP = b.noHP) : a.net = b.net := (congrArg Mod.net h :)
theorem noHP_rcd {a b : Mod} (h : a.noHP = b.noHP) : a.rcd = b.rcd := (congrArg Mod.rcd h :)
theorem noHP_rc {a b : Mod} (h : a.noHP = b.noHP) : a.rc = b.rc := (congrArg Mod.rc h :)
theorem noHP_pc {a b : Mod} (h : a.noHP = b.noHP) : a.pc = b.pc := (congrArg Mod.pc h :)
theorem noHP_up {a b : Mod} (h : a.noHP = b.noHP) : a.up = b.up := (congrArg Mod.up h :)
theorem noHP_sec {a b : Mod} (h : a.noHP = b.noHP) : a.sec = b.sec := (congrArg Mod.sec h :)
theorem noHP_stateOut {a b : Mod} (h : a.noHP = b.noHP) : a.stateOut = b.stateOut := (congrArg Mod.stateOut h :)
theorem noLn_powered {a b : Mod} (h : a.noLn = b.noLn) : a.powered = b.powered := (congrArg Mod.powered h :)
theorem noLn_clk {a b : Mod} (h : a.noLn = b.noLn) : a.clk = b.clk := (congrArg Mod.clk h :)
theorem noLn_freeN {a b : Mod} (h : a.noLn = b.noLn) : a.freeN = b.freeN := (congrArg Mod.freeN h :)
theorem noLn_nv {a b : Mod} (h : a.noLn = b.noLn) : a.nv = b.nv := (congrArg Mod.nv h :)
theorem noLn_cfg {a b : Mod} (h : a.noLn = b.noLn) : a.cfg = b.cfg := (congrArg Mod.cfg h :)
theorem noLn_tm {a b : Mod} (h : a.noLn = b.noLn) : a.tm = b.tm := (congrArg Mod.tm h :)
theorem noLn_md {a b : Mod} (h : a.noLn = b.noLn) : a.md = b.md := (congrArg Mod.md h :)
theorem noLn_pw {a b : Mod} (h : a.noLn = b.noLn) : a.pw = b.pw := (congrArg Mod.pw h :)
theorem noLn_lg {a b : Mod} (h : a.noLn = b.noLn) : a.lg = b.lg := (congrArg Mod.lg h :)
theorem noLn_cur {a b : Mod} (h : a.noLn = b.noLn) : a.cur = b.cur := (congrArg Mod.cur h :)
theorem noLn_nxt {a b : Mod} (h : a.noLn = b.noLn) : a.nxt = b.nxt := (congrArg Mod.nxt h :)
theorem noLn_en {a b : Mod} (h : a.noLn = b.noLn) : a.en = b.en := (congrArg Mod.en h :)
theorem noLn_fio {a b : Mod} (h : a.noLn = b.noLn) : a.fio = b.fio := (congrArg Mod.fio h :)
theorem noLn_bt {a b : Mod} (h : a.noLn = b.noLn) : a.bt = b.bt := (congrArg Mod.bt h :)
theorem noLn_str {a b : Mod} (h : a.noLn = b.noLn) : a.str = b.str := (congrArg Mod.str h :)
theorem noLn_can {a b : Mod} (h : a.noLn = b.noLn) : a.can = b.can := (congrArg Mod.can h :)
theorem noLn_net {a b : Mod} (h : a.noLn = b.noLn) : a.net = b.net := (congrArg Mod.net h :)
theorem noLn_host {a b : Mod} (h : a.noLn = b.noLn) : a.host = b.host := (congrArg Mod.host h :)
theorem noLn_rcd {a b : Mod} (h : a.noLn = b.noLn) : a.rcd = b.rcd := (congrArg Mod.rcd h :)
theorem noLn_rc {a b : Mod} (h : a.noLn = b.noLn) : a.rc = b.rc := (congrArg Mod.rc h :)
theorem noLn_pc {a b : Mod} (h : a.noLn = b.noLn) : a.pc = b.pc := (congrArg Mod.pc h :)
theorem noLn_up {a b : Mod} (h : a.noLn = b.noLn) : a.up = b.up := (congrArg Mod.up h :)
theorem noLn_sec {a b : Mod} (h : a.noLn = b.noLn) : a.sec = b.sec := (congrArg Mod.sec h :)
theorem noLn_pr {a b : Mod} (h : a.noLn = b.noLn) : a.pr = b.pr := (congrArg Mod.pr h :)
theorem noLn_stateOut {a b : Mod} (h : a.noLn = b.noLn) : a.stateOut = b.stateOut := (congrArg Mod.stateOut h :)
theorem noLf_powered {a b : Mod} (h : a.noLf = b.noLf) : a.powered = b.powered := (congrArg Mod.powered h :)
theorem noLf_clk {a b : Mod} (h : a.noLf = b.noLf) : a.clk = b.clk := (congrArg Mod.clk h :)
theorem noLf_nv {a b : Mod} (h : a.noLf = b.noLf) : a.nv = b.nv := (congrArg Mod.nv h :)
theorem noLf_cfg {a b : Mod} (h : a.noLf = b.noLf) : a.cfg = b.cfg := (congrArg Mod.cfg h :)
theorem noLf_tm {a b : Mod} (h : a.noLf = b.noLf) : a.tm = b.tm := (congrArg Mod.tm h :)
theorem noLf_md {a b : Mod} (h : a.noLf = b.noLf) : a.md = b.md := (congrArg Mod.md h :)
theorem noLf_pw {a b : Mod} (h : a.noLf = b.noLf) : a.pw = b.pw := (congrArg Mod.pw h :)
theorem noLf_lg {a b : Mod} (h : a.noLf = b.noLf) : a.lg = b.lg := (congrArg Mod.lg h :)
theorem noLf_cur {a b : Mod} (h : a.noLf = b.noLf) : a.cur = b.cur := (congrArg Mod.cur h :)
theorem noLf_nxt {a b : Mod} (h : a.noLf = b.noLf) : a.nxt = b.nxt := (congrArg Mod.nxt h :)
theorem noLf_en {a b : Mod} (h : a.noLf = b.noLf) : a.en = b.en := (congrArg Mod.en h :)
theorem noLf_fio {a b : Mod} (h : a.noLf = b.noLf) : a.fio = b.fio := (congrArg Mod.fio h :)
theorem noLf_bt {a b : Mod} (h : a.noLf = b.noLf) : a.bt = b.bt := (congrArg Mod.bt h :)
theorem noLf_str {a b : Mod} (h : a.noLf = b.noLf) : a.str = b.str := (congrArg Mod.str h :)
theorem noLf_can {a b : Mod} (h : a.noLf = b.noLf) : a.can = b.can := (congrArg Mod.can h :)
theorem noLf_net {a b : Mod} (h : a.noLf = b.noLf) : a.net = b.net := (congrArg Mod.net h :)
theorem noLf_host {a b : Mod} (h : a.noLf = b.noLf) : a.host = b.host := (congrArg Mod.host h :)
theorem noLf_rcd {a b : Mod} (h : a.noLf = b.noLf) : a.rcd = b.rcd := (congrArg Mod.rcd h :)
theorem noLf_rc {a b : Mod} (h : a.noLf = b.noLf) : a.rc = b.rc := (congrArg Mod.rc h :)
theorem noLf_pc {a b : Mod} (h : a.noLf = b.noLf) : a.pc = b.pc := (congrArg Mod.pc h :)
theorem noLf_up {a b : Mod} (h : a.noLf = b.noLf) : a.up = b.up := (congrArg Mod.up h :)
theorem noLf_sec {a b : Mod} (h : a.noLf = b.noLf) : a.sec = b.sec := (congrArg Mod.sec h :)
theorem noLf_pr {a b : Mod} (h : a.noLf = b.noLf) : a.pr = b.pr := (congrArg Mod.pr h :)
theorem noLf_stateOut {a b : Mod} (h : a.noLf = b.noLf) : a.stateOut = b.stateOut := (congrArg Mod.stateOut h :)
theorem noTime_powered {a b : Mod} (h : a.noTime = b.noTime) : a.powered = b.powered := (congrArg Mod.powered h :)
theorem noTime_nv {a b : Mod} (h : a.noTime = b.noTime) : a.nv = b.nv := (congrArg Mod.nv h :)
theorem noTime_cfg {a b : Mod} (h : a.noTime = b.noTime) : a.cfg = b.cfg := (congrArg Mod.cfg h :)
theorem noTime_tm {a b : Mod} (h : a.noTime = b.noTime) : a.tm = b.tm := (congrArg Mod.tm h :)
theorem noTime_md {a b : Mod} (h : a.noTime = b.noTime) : a.md = b.md := (congrArg Mod.md h :)
theorem noTime_pw {a b : Mod} (h : a.noTime = b.noTime) : a.pw = b.pw := (congrArg Mod.pw h :)
theorem noTime_lg {a b : Mod} (h : a.noTime = b.noTime) : a.lg = b.lg := (congrArg Mod.lg h :)
theorem noTime_cur {a b : Mod} (h : a.noTime = b.noTime) : a.cur = b.cur := (congrArg Mod.cur h :)
theorem noTime_nxt {a b : Mod} (h : a.noTime = b.noTime) : a.nxt = b.nxt := (congrArg Mod.nxt h :)
theorem noTime_en {a b : Mod} (h : a.noTime = b.noTime) : a.en = b.en := (congrArg Mod.en h :)
theorem noTime_fio {a b : Mod} (h : a.noTime = b.noTime) : a.fio = b.fio := (congrArg Mod.fio h :)
theorem noTime_bt {a b : Mod} (h : a.noTime = b.noTime) : a.bt = b.bt := (congrArg Mod.bt h :)
theorem noTime_str {a b : Mod} (h : a.noTime = b.noTime) : a.str = b.str := (congrArg Mod.str h :)
theorem noTime_can {a b : Mod} (h : a.noTime = b.noTime) : a.can = b.can := (congrArg Mod.can h :)
theorem noTime_net {a b : Mod} (h : a.noTime = b.noTime) : a.net = b.net := (congrArg Mod.net h :)
theorem noTime_host {a b : Mod} (h : a.noTime = b.noTime) : a.host = b.host := (congrArg Mod.host h :)
theorem noTime_rcd {a b : Mod} (h : a.noTime = b.noTime) : a.rcd = b.rcd := (congrArg Mod.rcd h :)
theorem noTime_rc {a b : Mod} (h : a.noTime = b.noTime) : a.rc = b.rc := (congrArg Mod.rc h :)
theorem noTime_pc {a b : Mod} (h : a.noTime = b.noTime) : a.pc = b.pc := (congrArg Mod.pc h :)
theorem noTime_up {a b : Mod} (h : a.noTime = b.noTime) : a.up = b.up := (congrArg Mod.up h :)
theorem noTime_sec {a b : Mod} (h : a.noTime = b.noTime) : a.sec = b.sec := (congrArg Mod.sec h :)
theorem noTime_pr {a b : Mod} (h : a.noTime = b.noTime) : a.pr = b.pr := (congrArg Mod.pr h :)
theorem noTime_stateOut {a b : Mod} (h : a.noTime = b.noTime) : a.stateOut = b.stateOut := (congrArg Mod.stateOut h :)
theorem noTimeMd_powered {a b : Mod} (h : a.noTimeMd = b.noTimeMd) : a.powered = b.powered := (congrArg Mod.powered h :)
theorem noTimeMd_nv {a b : Mod} (h : a.noTimeMd = b.noTimeMd) : a.nv = b.nv := (congrArg Mod.nv h :)
theorem noTimeMd_cfg {a b : Mod} (h : a.noTimeMd = b.noTimeMd) : a.cfg = b.cfg := (congrArg Mod.cfg h :)
theorem noTimeMd_tm {a b : Mod} (h : a.noTimeMd = b.noTimeMd) : a.tm = b.tm := (congrArg Mod.tm h :)
theorem noTimeMd_pw {a b : Mod} (h : a.noTimeMd = b.noTimeMd) : a.pw = b.pw := (congrArg Mod.pw h :)
theorem noTimeMd_lg {a b : Mod} (h : a.noTimeMd = b.noTimeMd) : a.lg = b.lg := (congrArg Mod.lg h :)
theorem noTimeMd_cur {a b : Mod} (h : a.noTimeMd = b.noTimeMd) : a.cur = b.cur := (congrArg Mod.cur h :)
theorem noTimeMd_nxt {a b : Mod} (h : a.noTimeMd = b.noTimeMd) : a.nxt = b.nxt := (congrArg Mod.nxt h :)
theorem noTimeMd_en {a b : Mod} (h : a.noTimeMd = b.noTimeMd) : a.en = b.en := (congrArg Mod.en h :)
theorem noTimeMd_fio {a b : Mod} (h : a.noTimeMd = b.noTimeMd) : a.fio = b.fio := (congrArg Mod.fio h :)
theorem noTimeMd_bt {a b : Mod} (h : a.noTimeMd = b.noTimeMd) : a.bt = b.bt := (congrArg Mod.bt h :)
theorem noTimeMd_str {a b : Mod} (h : a.noTimeMd = b.noTimeMd) : a.str = b.str := (congrArg Mod.str h :)
theorem noTimeMd_can {a b : Mod} (h : a.noTimeMd = b.noTimeMd) : a.can = b.can := (congrArg Mod.can h :)
theorem noTimeMd_net {a b : Mod} (h : a.noTimeMd = b.noTimeMd) : a.net = b.net := (congrArg Mod.net h :)
theorem noTimeMd_host {a b : Mod} (h : a.noTimeMd = b.noTimeMd) : a.host = b.host := (congrArg Mod.host h :)
theorem noTimeMd_rcd {a b : Mod} (h : a.noTimeMd = b.noTimeMd) : a.rcd = b.rcd := (congrArg Mod.rcd h :)
theorem noTimeMd_rc {a b : Mod} (h : a.noTimeMd = b.noTimeMd) : a.rc = b.rc := (congrArg Mod.rc h :)
theorem noTimeMd_pc {a b : Mod} (h : a.noTimeMd = b.noTimeMd) : a.pc = b.pc := (congrArg Mod.pc h :)
theorem noTimeMd_up {a b : Mod} (h : a.noTimeMd = b.noTimeMd) : a.up = b.up := (congrArg Mod.up h :)
theorem noTimeMd_sec {a b : Mod} (h : a.noTimeMd = b.noTimeMd) : a.sec = b.sec := (congrArg Mod.sec h :)
theorem noTimeMd_pr {a b : Mod} (h : a.noTimeMd = b.noTimeMd) : a.pr = b.pr := (congrArg Mod.pr h :)
theorem noTimeMd_stateOut {a b : Mod} (h : a.noTimeMd = b.noTimeMd) : a.stateOut = b.stateOut := (congrArg Mod.stateOut h :)
theorem noMd_powered {a b : Mod} (h : a.noMd = b.noMd) : a.powered = b.powered := (congrArg Mod.powered h :)
theorem noMd_clk {a b : Mod} (h : a.noMd = b.noMd) : a.clk = b.clk := (congrArg Mod.clk h :)
theorem noMd_freeN {a b : Mod} (h : a.noMd = b.noMd) : a.freeN = b.freeN := (congrArg Mod.freeN h :)
theorem noMd_nv {a b : Mod} (h : a.noMd = b.noMd) : a.nv = b.nv := (congrArg Mod.nv h :)
theorem noMd_cfg {a b : Mod} (h : a.noMd = b.noMd) : a.cfg = b.cfg := (congrArg Mod.cfg h :)
theorem noMd_tm {a b : Mod} (h : a.noMd = b.noMd) : a.tm = b.tm := (congrArg Mod.tm h :)
theorem noMd_ln {a b : Mod} (h : a.noMd = b.noMd) : a.ln = b.ln := (congrArg Mod.ln h :)
theorem noMd_pw {a b : Mod} (h : a.noMd = b.noMd) : a.pw = b.pw := (congrArg Mod.pw h :)
theorem noMd_lg {a b : Mod} (h : a.noMd = b.noMd) : a.lg = b.lg := (congrArg Mod.lg h :)
theorem noMd_cur {a b : Mod} (h : a.noMd = b.noMd) : a.cur = b.cur := (congrArg Mod.cur h :)
theorem noMd_nxt {a b : Mod} (h : a.noMd = b.noMd) : a.nxt = b.nxt := (congrArg Mod.nxt h :)
theorem noMd_en {a b : Mod} (h : a.noMd = b.noMd) : a.en = b.en := (congrArg Mod.en h :)
theorem noMd_fio {a b : Mod} (h : a.noMd = b.noMd) : a.fio = b.fio := (congrArg Mod.fio h :)
theorem noMd_bt {a b : Mod} (h : a.noMd = b.noMd) : a.bt = b.bt := (congrArg Mod.bt h :)
theorem noMd_str {a b : Mod} (h : a.noMd = b.noMd) : a.str = b.str := (congrArg Mod.str h :)
theorem noMd_can {a b : Mod} (h : a.noMd = b.noMd) : a.can = b.can := (congrArg Mod.can h :)
theorem noMd_net {a b : Mod} (h : a.noMd = b.noMd) : a.net = b.net := (congrArg Mod.net h :)
theorem noMd_host {a b : Mod} (h : a.noMd = b.noMd) : a.host = b.host := (congrArg Mod.host h :)
theorem noMd_rcd {a b : Mod} (h : a.noMd = b.noMd) : a.rcd = b.rcd := (congrArg Mod.rcd h :)
theorem noMd_rc {a b : Mod} (h : a.noMd = b.noMd) : a.rc = b.rc := (congrArg Mod.rc h :)
theorem noMd_pc {a b : Mod} (h : a.noMd = b.noMd) : a.pc = b.pc := (congrArg Mod.pc h :)
theorem noMd_up {a b : Mod} (h : a.noMd = b.noMd) : a.up = b.up := (congrArg Mod.up h :)
theorem noMd_sec {a b : Mod} (h : a.noMd = b.noMd) : a.sec = b.sec := (congrArg Mod.sec h :)
theorem noMd_pr {a b : Mod} (h : a.noMd = b.noMd) : a.pr = b.pr := (congrArg Mod.pr h :)
theorem noMd_stateOut {a b : Mod} (h : a.noMd = b.noMd) : a.stateOut = b.stateOut := (congrArg Mod.stateOut h :)

@[simp] theorem setRing_noHost (i : Nat) (r : Ring) : (setRing i r m).noHost = m.noHost := rfl
@[simp] theorem setRing_noHR (i : Nat) (r : Ring) : (setRing i r m).noHR = m.noHR := noHost_noHR (setRing_noHost m i r)
@[simp] theorem setRing_noHP (i : Nat) (r : Ring) : (setRing i r m).noHP = m.noHP := noHost_noHP (setRing_noHost m i r)
@[simp] theorem setRing_powered (i : Nat) (r : Ring) : (setRing i r m).powered = m.powered := noHost_powered (setRing_noHost m i r)
@[simp] theorem setRing_clk (i : Nat) (r : Ring) : (setRing i r m).clk = m.clk := noHost_clk (setRing_noHost m i r)
@[simp] theorem setRing_freeN (i : Nat) (r : Ring) : (setRing i r m).freeN = m.freeN := noHost_freeN (setRing_noHost m i r)
@[simp] theorem setRing_nv (i : Nat) (r : Ring) : (setRing i r m).nv = m.nv := noHost_nv (setRing_noHost m i r)
@[simp] theorem setRing_cfg (i : Nat) (r : Ring) : (setRing i r m).cfg = m.cfg := noHost_cfg (setRing_noHost m i r)
@[simp] theorem setRing_tm (i : Nat) (r : Ring) : (setRing i r m).tm = m.tm := noHost_tm (setRing_noHost m i r)
@[simp] theorem setRing_ln (i : Nat) (r : Ring) : (setRing i r m).ln = m.ln := noHost_ln (setRing_noHost m i r)
@[simp] theorem setRing_md (i : Nat) (r : Ring) : (setRing i r m).md = m.md := noHost_md (setRing_noHost m i r)
@[simp] theorem setRing_pw (i : Nat) (r : Ring) : (setRing i r m).pw = m.pw := noHost_pw (setRing_noHost m i r)
@[simp] theorem setRing_lg (i : Nat) (r : Ring) : (setRing i r m).lg = m.lg := noHost_lg (setRing_noHost m i r)
@[simp] theorem setRing_cur (i : Nat) (r : Ring) : (setRing i r m).cur = m.cur := noHost_cur (setRing_noHost m i r)
@[simp] theorem setRing_nxt (i : Nat) (r : Ring) : (setRing i r m).nxt = m.nxt := noHost_nxt (setRing_noHost m i r)
@[simp] theorem setRing_en (i : Nat) (r : Ring) : (setRing i r m).en = m.en := noHost_en (setRing_noHost m i r)
@[simp] theorem setRing_fio (i : Nat) (r : Ring) : (setRing i r m).fio = m.fio := noHost_fio (setRing_noHost m i r)
@[simp] theorem setRing_bt (i : Nat) (r : Ring) : (setRing i r m).bt = m.bt := noHost_bt (setRing_noHost m i r)
@[simp] theorem setRing_str (i : Nat) (r : Ring) : (setRing i r m).str = m.str := noHost_str (setRing_noHost m i r)
@[simp] theorem setRing_can (i : Nat) (r : Ring) : (setRing i r m).can = m.can := noHost_can (setRing_noHost m i r)
@[simp] theorem setRing_net (i : Nat) (r : Ring) : (setRing i r m).net = m.net := noHost_net (setRing_noHost m i r)
@[simp] theorem setRing_rcd (i : Nat) (r : Ring) : (setRing i r m).rcd = m.rcd := noHost_rcd (setRing_noHost m i r)
@[simp] theorem setRing_rc (i : Nat) (r : Ring) : (setRing i r m).rc = m.rc := noHost_rc (setRing_noHost m i r)
@[simp] theorem setRing_pc (i : Nat) (r : Ring) : (setRing i r m).pc = m.pc := noHost_pc (setRing_noHost m i r)
@[simp] theorem setRing_up (i : Nat) (r : Ring) : (setRing i r m).up = m.up := noHost_up (setRing_noHost m i r)
@[simp] theorem setRing_sec (i : Nat) (r : Ring) : (setRing i r m).sec = m.sec := noHost_sec (setRing_noHost m i r)
@[simp] theorem setRing_pr (i : Nat) (r : Ring) : (setRing i r m).pr = m.pr := noHost_pr (setRing_noHost m i r)
@[simp] theorem setRing_stateOut (i : Nat) (r : Ring) : (setRing i r m).stateOut = m.stateOut := noHost_stateOut (setRing_noHost m i r)

@[simp] theorem updRing_noHost (i : Nat) (f : Ring → Ring) : (updRing i f m).noHost = m.noHost := setRing_noHost m i _
@[simp] theorem updRing_noHR (i : Nat) (f : Ring → Ring) : (updRing i f m).noHR = m.noHR := noHost_noHR (updRing_noHost m i f)
@[simp] theorem updRing_noHP (i : Nat) (f : Ring → Ring) : (updRing i f m).noHP = m.noHP := noHost_noHP (updRing_noHost m i f)
@[simp] theorem updRing_powered (i : Nat) (f : Ring → Ring) : (updRing i f m).powered = m.powered := noHost_powered (updRing_noHost m i f)
@[simp] theorem updRing_clk (i : Nat) (f : Ring → Ring) : (updRing i f m).clk = m.clk := noHost_clk (updRing_noHost m i f)
@[simp] theorem updRing_freeN (i : Nat) (f : Ring → Ring) : (updRing i f m).freeN = m.freeN := noHost_freeN (updRing_noHost m i f)
@[simp] theorem updRing_nv (i : Nat) (f : Ring → Ring) : (updRing i f m).nv = m.nv := noHost_nv (updRing_noHost m i f)
@[simp] theorem updRing_cfg (i : Nat) (f : Ring → Ring) : (updRing i f m).cfg = m.cfg := noHost_cfg (updRing_noHost m i f)
@[simp] theorem updRing_tm (i : Nat) (f : Ring → Ring) : (updRing i f m).tm = m.tm := noHost_tm (updRing_noHost m i f)
@[simp] theorem updRing_ln (i : Nat) (f : Ring → Ring) : (updRing i f m).ln = m.ln := noHost_ln (updRing_noHost m i f)
@[simp] theorem updRing_md (i : Nat) (f : Ring → Ring) : (updRing i f m).md = m.md := noHost_md (updRing_noHost m i f)
@[simp] theorem updRing_pw (i : Nat) (f : Ring → Ring) : (updRing i f m).pw = m.pw := noHost_pw (updRing_noHost m i f)
@[simp] theorem updRing_lg (i : Nat) (f : Ring → Ring) : (updRing i f m).lg = m.lg := noHost_lg (updRing_noHost m i f)
@[simp] theorem updRing_cur (i : Nat) (f : Ring → Ring) : (updRing i f m).cur = m.cur := noHost_cur (updRing_noHost m i f)
@[simp] theorem updRing_nxt (i : Nat) (f : Ring → Ring) : (updRing i f m).nxt = m.nxt := noHost_nxt (updRing_noHost m i f)
@[simp] theorem updRing_en (i : Nat) (f : Ring → Ring) : (updRing i f m).en = m.en := noHost_en (updRing_noHost m i f)
@[simp] theorem updRing_fio (i : Nat) (f : Ring → Ring) : (updRing i f m).fio = m.fio := noHost_fio (updRing_noHost m i f)
@[simp] theorem updRing_bt (i : Nat) (f : Ring → Ring) : (updRing i f m).bt = m.bt := noHost_bt (updRing_noHost m i f)
@[simp] theorem updRing_str (i : Nat) (f : Ring → Ring) : (updRing i f m).str = m.str := noHost_str (updRing_noHost m i f)
@[simp] theorem updRing_can (i : Nat) (f : Ring → Ring) : (updRing i f m).can = m.can := noHost_can (updRing_noHost m i f)
@[simp] theorem updRing_net (i : Nat) (f : Ring → Ring) : (updRing i f m).net = m.net := noHost_net (updRing_noHost m i f)
@[simp] theorem updRing_rcd (i : Nat) (f : Ring → Ring) : (updRing i f m).rcd = m.rcd := noHost_rcd (updRing_noHost m i f)
@[simp] theorem updRing_rc (i : Nat) (f : Ring → Ring) : (updRing i f m).rc = m.rc := noHost_rc (updRing_noHost m i f)
@[simp] theorem updRing_pc (i : Nat) (f : Ring → Ring) : (updRing i f m).pc = m.pc := noHost_pc (updRing_noHost m i f)
@[simp] theorem updRing_up (i : Nat) (f : Ring → Ring) : (updRing i f m).up = m.up := noHost_up (updRing_noHost m i f)
@[simp] theorem updRing_sec (i : Nat) (f : Ring → Ring) : (updRing i f m).sec = m.sec := noHost_sec (updRing_noHost m i f)
@[simp] theorem updRing_pr (i : Nat) (f : Ring → Ring) : (updRing i f m).pr = m.pr := noHost_pr (updRing_noHost m i f)
@[simp] theorem updRing_stateOut (i : Nat) (f : Ring → Ring) : (updRing i f m).stateOut = m.stateOut := noHost_stateOut (updRing_noHost m i f)

@[simp] theorem putSlot_noHost (i : Nat) (mk : Bool → RingEntry) : (putSlot i mk m).noHost = m.noHost := setRing_noHost _ i _
@[simp] theorem putSlot_noHR (i : Nat) (mk : Bool → RingEntry) : (putSlot i mk m).noHR = m.noHR := noHost_noHR (putSlot_noHost m i mk)
@[simp] theorem putSlot_noHP (i : Nat) (mk : Bool → RingEntry) : (putSlot i mk m).noHP = m.noHP := noHost_noHP (putSlot_noHost m i mk)
@[simp] theorem putSlot_powered (i : Nat) (mk : Bool → RingEntry) : (putSlot i mk m).powered = m.powered := noHost_powered (putSlot_noHost m i mk)
@[simp] theorem putSlot_clk (i : Nat) (mk : Bool → RingEntry) : (putSlot i mk m).clk = m.clk := noHost_clk (putSlot_noHost m i mk)
@[simp] theorem putSlot_freeN (i : Nat) (mk : Bool → RingEntry) : (putSlot i mk m).freeN = m.freeN := noHost_freeN (putSlot_noHost m i mk)
@[simp] theorem putSlot_nv (i : Nat) (mk : Bool → RingEntry) : (putSlot i mk m).nv = m.nv := noHost_nv (putSlot_noHost m i mk)
@[simp] theorem putSlot_cfg (i : Nat) (mk : Bool → RingEntry) : (putSlot i mk m).cfg = m.cfg := noHost_cfg (putSlot_noHost m i mk)
@[simp] theorem putSlot_tm (i : Nat) (mk : Bool → RingEntry) : (putSlot i mk m).tm = m.tm := noHost_tm (putSlot_noHost m i mk)
@[simp] theorem putSlot_ln (i : Nat) (mk : Bool → RingEntry) : (putSlot i mk m).ln = m.ln := noHost_ln (putSlot_noHost m i mk)
@[simp] theorem putSlot_md (i : Nat) (mk : Bool → RingEntry) : (putSlot i mk m).md = m.md := noHost_md (putSlot_noHost m i mk)
@[simp] theorem putSlot_pw (i : Nat) (mk : Bool → RingEntry) : (putSlot i mk m).pw = m.pw := noHost_pw (putSlot_noHost m i mk)
@[simp] theorem putSlot_lg (i : Nat) (mk : Bool → RingEntry) : (putSlot i mk m).lg = m.lg := noHost_lg (putSlot_noHost m i mk)
@[simp] theorem putSlot_cur (i : Nat) (mk : Bool → RingEntry) : (putSlot i mk m).cur = m.cur := noHost_cur (putSlot_noHost m i mk)
@[simp] theorem putSlot_nxt (i : Nat) (mk : Bool → RingEntry) : (putSlot i mk m).nxt = m.nxt := noHost_nxt (putSlot_noHost m i mk)
@[simp] theorem putSlot_en (i : Nat) (mk : Bool → RingEntry) : (putSlot i mk m).en = m.en := noHost_en (putSlot_noHost m i mk)
@[simp] theorem putSlot_fio (i : Nat) (mk : Bool → RingEntry) : (putSlot i mk m).fio = m.fio := noHost_fio (putSlot_noHost m i mk)
@[simp] theorem putSlot_bt (i : Nat) (mk : Bool → RingEntry) : (putSlot i mk m).bt = m.bt := noHost_bt (putSlot_noHost m i mk)
@[simp] theorem putSlot_str (i : Nat) (mk : Bool → RingEntry) : (putSlot i mk m).str = m.str := noHost_str (putSlot_noHost m i mk)
@[simp] theorem putSlot_can (i : Nat) (mk : Bool → RingEntry) : (putSlot i mk m).can = m.can := noHost_can (putSlot_noHost m i mk)
@[simp] theorem putSlot_net (i : Nat) (mk : Bool → RingEntry) : (putSlot i mk m).net = m.net := noHost_net (putSlot_noHost m i mk)
@[simp] theorem putSlot_rcd (i : Nat) (mk : Bool → RingEntry) : (putSlot i mk m).rcd = m.rcd := noHost_rcd (putSlot_noHost m i mk)
@[simp] theorem putSlot_rc (i : Nat) (mk : Bool → RingEntry) : (putSlot i mk m).rc = m.rc := noHost_rc (putSlot_noHost m i mk)
@[simp] theorem putSlot_pc (i : Nat) (mk : Bool → RingEntry) : (putSlot i mk m).pc = m.pc := noHost_pc (putSlot_noHost m i mk)
@[simp] theorem putSlot_up (i : Nat) (mk : Bool → RingEntry) : (putSlot i mk m).up = m.up := noHost_up (putSlot_noHost m i mk)
@[simp] theorem putSlot_sec (i : Nat) (mk : Bool → RingEntry) : (putSlot i mk m).sec = m.sec := noHost_sec (putSlot_noHost m i mk)
@[simp] theorem putSlot_pr (i : Nat) (mk : Bool → RingEntry) : (putSlot i mk m).pr = m.pr := noHost_pr (putSlot_noHost m i mk)
@[simp] theorem putSlot_stateOut (i : Nat) (mk : Bool → RingEntry) : (putSlot i mk m).stateOut = m.stateOut := noHost_stateOut (putSlot_noHost m i mk)

@[simp] theorem fireVector_noHost (v : Nat) : (fireVector v m).noHost = m.noHost := rfl
@[simp] theorem fireVector_noHR (v : Nat) : (fireVector v m).noHR = m.noHR := noHost_noHR (fireVector_noHost m v)
@[simp] theorem fireVector_noHP (v : Nat) : (fireVector v m).noHP = m.noHP := noHost_noHP (fireVector_noHost m v)
@[simp] theorem fireVector_powered (v : Nat) : (fireVector v m).powered = m.powered := noHost_powered (fireVector_noHost m v)
@[simp] theorem fireVector_clk (v : Nat) : (fireVector v m).clk = m.clk := noHost_clk (fireVector_noHost m v)
@[simp] theorem fireVector_freeN (v : Nat) : (fireVector v m).freeN = m.freeN := noHost_freeN (fireVector_noHost m v)
@[simp] theorem fireVector_nv (v : Nat) : (fireVector v m).nv = m.nv := noHost_nv (fireVector_noHost m v)
@[simp] theorem fireVector_cfg (v : Nat) : (fireVector v m).cfg = m.cfg := noHost_cfg (fireVector_noHost m v)
@[simp] theorem fireVector_tm (v : Nat) : (fireVector v m).tm = m.tm := noHost_tm (fireVector_noHost m v)
@[simp] theorem fireVector_ln (v : Nat) : (fireVector v m).ln = m.ln := noHost_ln (fireVector_noHost m v)
@[simp] theorem fireVector_md (v : Nat) : (fireVector v m).md = m.md := noHost_md (fireVector_noHost m v)
@[simp] theorem fireVector_pw (v : Nat) : (fireVector v m).pw = m.pw := noHost_pw (fireVector_noHost m v)
@[simp] theorem fireVector_lg (v : Nat) : (fireVector v m).lg = m.lg := noHost_lg (fireVector_noHost m v)
@[simp] theorem fireVector_cur (v : Nat) : (fireVector v m).cur = m.cur := noHost_cur (fireVector_noHost m v)
@[simp] theorem fireVector_nxt (v : Nat) : (fireVector v m).nxt = m.nxt := noHost_nxt (fireVector_noHost m v)
@[simp] theorem fireVector_en (v : Nat) : (fireVector v m).en = m.en := noHost_en (fireVector_noHost m v)
@[simp] theorem fireVector_fio (v : Nat) : (fireVector v m).fio = m.fio := noHost_fio (fireVector_noHost m v)
@[simp] theorem fireVector_bt (v : Nat) : (fireVector v m).bt = m.bt := noHost_bt (fireVector_noHost m v)
@[simp] theorem fireVector_str (v : Nat) : (fireVector v m).str = m.str := noHost_str (fireVector_noHost m v)
@[simp] theorem fireVector_can (v : Nat) : (fireVector v m).can = m.can := noHost_can (fireVector_noHost m v)
@[simp] theorem fireVector_net (v : Nat) : (fireVector v m).net = m.net := noHost_net (fireVector_noHost m v)
@[simp] theorem fireVector_rcd (v : Nat) : (fireVector v m).rcd = m.rcd := noHost_rcd (fireVector_noHost m v)
@[simp] theorem fireVector_rc (v : Nat) : (fireVector v m).rc = m.rc := noHost_rc (fireVector_noHost m v)
@[simp] theorem fireVector_pc (v : Nat) : (fireVector v m).pc = m.pc := noHost_pc (fireVector_noHost m v)
@[simp] theorem fireVector_up (v : Nat) : (fireVector v m).up = m.up := noHost_up (fireVector_noHost m v)
@[simp] theorem fireVector_sec (v : Nat) : (fireVector v m).sec = m.sec := noHost_sec (fireVector_noHost m v)
@[simp] theorem fireVector_pr (v : Nat) : (fireVector v m).pr = m.pr := noHost_pr (fireVector_noHost m v)
@[simp] theorem fireVector_stateOut (v : Nat) : (fireVector v m).stateOut = m.stateOut := noHost_stateOut (fireVector_noHost m v)

@[simp] theorem ringWrite_noHost (i : Nat) (mk : Bool → RingEntry) : (ringWrite i mk m).noHost = m.noHost := (fireVector_noHost _ _).trans (putSlot_noHost m i mk)
@[simp] theorem ringWrite_noHR (i : Nat) (mk : Bool → RingEntry) : (ringWrite i mk m).noHR = m.noHR := noHost_noHR (ringWrite_noHost m i mk)
@[simp] theorem ringWrite_noHP (i : Nat) (mk : Bool → RingEntry) : (ringWrite i mk m).noHP = m.noHP := noHost_noHP (ringWrite_noHost m i mk)
@[simp] theorem ringWrite_powered (i : Nat) (mk : Bool → RingEntry) : (ringWrite i mk m).powered = m.powered := noHost_powered (ringWrite_noHost m i mk)
@[simp] theorem ringWrite_clk (i : Nat) (mk : Bool → RingEntry) : (ringWrite i mk m).clk = m.clk := noHost_clk (ringWrite_noHost m i mk)
@[simp] theorem ringWrite_freeN (i : Nat) (mk : Bool → RingEntry) : (ringWrite i mk m).freeN = m.freeN := noHost_freeN (ringWrite_noHost m i mk)
@[simp] theorem ringWrite_nv (i : Nat) (mk : Bool → RingEntry) : (ringWrite i mk m).nv = m.nv := noHost_nv (ringWrite_noHost m i mk)
@[simp] theorem ringWrite_cfg (i : Nat) (mk : Bool → RingEntry) : (ringWrite i mk m).cfg = m.cfg := noHost_cfg (ringWrite_noHost m i mk)
@[simp] theorem ringWrite_tm (i : Nat) (mk : Bool → RingEntry) : (ringWrite i mk m).tm = m.tm := noHost_tm (ringWrite_noHost m i mk)
@[simp] theorem ringWrite_ln (i : Nat) (mk : Bool → RingEntry) : (ringWrite i mk m).ln = m.ln := noHost_ln (ringWrite_noHost m i mk)
@[simp] theorem ringWrite_md (i : Nat) (mk : Bool → RingEntry) : (ringWrite i mk m).md = m.md := noHost_md (ringWrite_noHost m i mk)
@[simp] theorem ringWrite_pw (i : Nat) (mk : Bool → RingEntry) : (ringWrite i mk m).pw = m.pw := noHost_pw (ringWrite_noHost m i mk)
@[simp] theorem ringWrite_lg (i : Nat) (mk : Bool → RingEntry) : (ringWrite i mk m).lg = m.lg := noHost_lg (ringWrite_noHost m i mk)
@[simp] theorem ringWrite_cur (i : Nat) (mk : Bool → RingEntry) : (ringWrite i mk m).cur = m.cur := noHost_cur (ringWrite_noHost m i mk)
@[simp] theorem ringWrite_nxt (i : Nat) (mk : Bool → RingEntry) : (ringWrite i mk m).nxt = m.nxt := noHost_nxt (ringWrite_noHost m i mk)
@[simp] theorem ringWrite_en (i : Nat) (mk : Bool → RingEntry) : (ringWrite i mk m).en = m.en := noHost_en (ringWrite_noHost m i mk)
@[simp] theorem ringWrite_fio (i : Nat) (mk : Bool → RingEntry) : (ringWrite i mk m).fio = m.fio := noHost_fio (ringWrite_noHost m i mk)
@[simp] theorem ringWrite_bt (i : Nat) (mk : Bool → RingEntry) : (ringWrite i mk m).bt = m.bt := noHost_bt (ringWrite_noHost m i mk)
@[simp] theorem ringWrite_str (i : Nat) (mk : Bool → RingEntry) : (ringWrite i mk m).str = m.str := noHost_str (ringWrite_noHost m i mk)
@[simp] theorem ringWrite_can (i : Nat) (mk : Bool → RingEntry) : (ringWrite i mk m).can = m.can := noHost_can (ringWrite_noHost m i mk)
@[simp] theorem ringWrite_net (i : Nat) (mk : Bool → RingEntry) : (ringWrite i mk m).net = m.net := noHost_net (ringWrite_noHost m i mk)
@[simp] theorem ringWrite_rcd (i : Nat) (mk : Bool → RingEntry) : (ringWrite i mk m).rcd = m.rcd := noHost_rcd (ringWrite_noHost m i mk)
@[simp] theorem ringWrite_rc (i : Nat) (mk : Bool → RingEntry) : (ringWrite i mk m).rc = m.rc := noHost_rc (ringWrite_noHost m i mk)
@[simp] theorem ringWrite_pc (i : Nat) (mk : Bool → RingEntry) : (ringWrite i mk m).pc = m.pc := noHost_pc (ringWrite_noHost m i mk)
@[simp] theorem ringWrite_up (i : Nat) (mk : Bool → RingEntry) : (ringWrite i mk m).up = m.up := noHost_up (ringWrite_noHost m i mk)
@[simp] theorem ringWrite_sec (i : Nat) (mk : Bool → RingEntry) : (ringWrite i mk m).sec = m.sec := noHost_sec (ringWrite_noHost m i mk)
@[simp] theorem ringWrite_pr (i : Nat) (mk : Bool → RingEntry) : (ringWrite i mk m).pr = m.pr := noHost_pr (ringWrite_noHost m i mk)
@[simp] theorem ringWrite_stateOut (i : Nat) (mk : Bool → RingEntry) : (ringWrite i mk m).stateOut = m.stateOut := noHost_stateOut (ringWrite_noHost m i mk)

@[simp] theorem fireDue_noHost : (fireDue m).noHost = m.noHost := by
  unfold fireDue; split
  · rfl
  · exact updHost_noHost m _
@[simp] theorem fireDue_noHR : (fireDue m).noHR = m.noHR := noHost_noHR (fireDue_noHost m)
@[simp] theorem fireDue_noHP : (fireDue m).noHP = m.noHP := noHost_noHP (fireDue_noHost m)
@[simp] theorem fireDue_powered : (fireDue m).powered = m.powered := noHost_powered (fireDue_noHost m)
@[simp] theorem fireDue_clk : (fireDue m).clk = m.clk := noHost_clk (fireDue_noHost m)
@[simp] theorem fireDue_freeN : (fireDue m).freeN = m.freeN := noHost_freeN (fireDue_noHost m)
@[simp] theorem fireDue_nv : (fireDue m).nv = m.nv := noHost_nv (fireDue_noHost m)
@[simp] theorem fireDue_cfg : (fireDue m).cfg = m.cfg := noHost_cfg (fireDue_noHost m)
@[simp] theorem fireDue_tm : (fireDue m).tm = m.tm := noHost_tm (fireDue_noHost m)
@[simp] theorem fireDue_ln : (fireDue m).ln = m.ln := noHost_ln (fireDue_noHost m)
@[simp] theorem fireDue_md : (fireDue m).md = m.md := noHost_md (fireDue_noHost m)
@[simp] theorem fireDue_pw : (fireDue m).pw = m.pw := noHost_pw (fireDue_noHost m)
@[simp] theorem fireDue_lg : (fireDue m).lg = m.lg := noHost_lg (fireDue_noHost m)
@[simp] theorem fireDue_cur : (fireDue m).cur = m.cur := noHost_cur (fireDue_noHost m)
@[simp] theorem fireDue_nxt : (fireDue m).nxt = m.nxt := noHost_nxt (fireDue_noHost m)
@[simp] theorem fireDue_en : (fireDue m).en = m.en := noHost_en (fireDue_noHost m)
@[simp] theorem fireDue_fio : (fireDue m).fio = m.fio := noHost_fio (fireDue_noHost m)
@[simp] theorem fireDue_bt : (fireDue m).bt = m.bt := noHost_bt (fireDue_noHost m)
@[simp] theorem fireDue_str : (fireDue m).str = m.str := noHost_str (fireDue_noHost m)
@[simp] theorem fireDue_can : (fireDue m).can = m.can := noHost_can (fireDue_noHost m)
@[simp] theorem fireDue_net : (fireDue m).net = m.net := noHost_net (fireDue_noHost m)
@[simp] theorem fireDue_rcd : (fireDue m).rcd = m.rcd := noHost_rcd (fireDue_noHost m)
@[simp] theorem fireDue_rc : (fireDue m).rc = m.rc := noHost_rc (fireDue_noHost m)
@[simp] theorem fireDue_pc : (fireDue m).pc = m.pc := noHost_pc (fireDue_noHost m)
@[simp] theorem fireDue_up : (fireDue m).up = m.up := noHost_up (fireDue_noHost m)
@[simp] theorem fireDue_sec : (fireDue m).sec = m.sec := noHost_sec (fireDue_noHost m)
@[simp] theorem fireDue_pr : (fireDue m).pr = m.pr := noHost_pr (fireDue_noHost m)
@[simp] theorem fireDue_stateOut : (fireDue m).stateOut = m.stateOut := noHost_stateOut (fireDue_noHost m)

@[simp] theorem writeEvent_noHost (q : QEvent) : (writeEvent q m).noHost = m.noHost := (updHost_noHost _ _).trans (ringWrite_noHost m _ _)
@[simp] theorem writeEvent_noHR (q : QEvent) : (writeEvent q m).noHR = m.noHR := noHost_noHR (writeEvent_noHost m q)
@[simp] theorem writeEvent_noHP (q : QEvent) : (writeEvent q m).noHP = m.noHP := noHost_noHP (writeEvent_noHost m q)
@[simp] theorem writeEvent_powered (q : QEvent) : (writeEvent q m).powered = m.powered := noHost_powered (writeEvent_noHost m q)
@[simp] theorem writeEvent_clk (q : QEvent) : (writeEvent q m).clk = m.clk := noHost_clk (writeEvent_noHost m q)
@[simp] theorem writeEvent_freeN (q : QEvent) : (writeEvent q m).freeN = m.freeN := noHost_freeN (writeEvent_noHost m q)
@[simp] theorem writeEvent_nv (q : QEvent) : (writeEvent q m).nv = m.nv := noHost_nv (writeEvent_noHost m q)
@[simp] theorem writeEvent_cfg (q : QEvent) : (writeEvent q m).cfg = m.cfg := noHost_cfg (writeEvent_noHost m q)
@[simp] theorem writeEvent_tm (q : QEvent) : (writeEvent q m).tm = m.tm := noHost_tm (writeEvent_noHost m q)
@[simp] theorem writeEvent_ln (q : QEvent) : (writeEvent q m).ln = m.ln := noHost_ln (writeEvent_noHost m q)
@[simp] theorem writeEvent_md (q : QEvent) : (writeEvent q m).md = m.md := noHost_md (writeEvent_noHost m q)
@[simp] theorem writeEvent_pw (q : QEvent) : (writeEvent q m).pw = m.pw := noHost_pw (writeEvent_noHost m q)
@[simp] theorem writeEvent_lg (q : QEvent) : (writeEvent q m).lg = m.lg := noHost_lg (writeEvent_noHost m q)
@[simp] theorem writeEvent_cur (q : QEvent) : (writeEvent q m).cur = m.cur := noHost_cur (writeEvent_noHost m q)
@[simp] theorem writeEvent_nxt (q : QEvent) : (writeEvent q m).nxt = m.nxt := noHost_nxt (writeEvent_noHost m q)
@[simp] theorem writeEvent_en (q : QEvent) : (writeEvent q m).en = m.en := noHost_en (writeEvent_noHost m q)
@[simp] theorem writeEvent_fio (q : QEvent) : (writeEvent q m).fio = m.fio := noHost_fio (writeEvent_noHost m q)
@[simp] theorem writeEvent_bt (q : QEvent) : (writeEvent q m).bt = m.bt := noHost_bt (writeEvent_noHost m q)
@[simp] theorem writeEvent_str (q : QEvent) : (writeEvent q m).str = m.str := noHost_str (writeEvent_noHost m q)
@[simp] theorem writeEvent_can (q : QEvent) : (writeEvent q m).can = m.can := noHost_can (writeEvent_noHost m q)
@[simp] theorem writeEvent_net (q : QEvent) : (writeEvent q m).net = m.net := noHost_net (writeEvent_noHost m q)
@[simp] theorem writeEvent_rcd (q : QEvent) : (writeEvent q m).rcd = m.rcd := noHost_rcd (writeEvent_noHost m q)
@[simp] theorem writeEvent_rc (q : QEvent) : (writeEvent q m).rc = m.rc := noHost_rc (writeEvent_noHost m q)
@[simp] theorem writeEvent_pc (q : QEvent) : (writeEvent q m).pc = m.pc := noHost_pc (writeEvent_noHost m q)
@[simp] theorem writeEvent_up (q : QEvent) : (writeEvent q m).up = m.up := noHost_up (writeEvent_noHost m q)
@[simp] theorem writeEvent_sec (q : QEvent) : (writeEvent q m).sec = m.sec := noHost_sec (writeEvent_noHost m q)
@[simp] theorem writeEvent_pr (q : QEvent) : (writeEvent q m).pr = m.pr := noHost_pr (writeEvent_noHost m q)
@[simp] theorem writeEvent_stateOut (q : QEvent) : (writeEvent q m).stateOut = m.stateOut := noHost_stateOut (writeEvent_noHost m q)

@[simp] theorem fifoPush_noHost (q : QEvent) : (fifoPush q m).noHost = m.noHost := by
  unfold fifoPush; split
  · split <;> simp
  · simp
@[simp] theorem fifoPush_noHR (q : QEvent) : (fifoPush q m).noHR = m.noHR := noHost_noHR (fifoPush_noHost m q)
@[simp] theorem fifoPush_noHP (q : QEvent) : (fifoPush q m).noHP = m.noHP := noHost_noHP (fifoPush_noHost m q)
@[simp] theorem fifoPush_powered (q : QEvent) : (fifoPush q m).powered = m.powered := noHost_powered (fifoPush_noHost m q)
@[simp] theorem fifoPush_clk (q : QEvent) : (fifoPush q m).clk = m.clk := noHost_clk (fifoPush_noHost m q)
@[simp] theorem fifoPush_freeN (q : QEvent) : (fifoPush q m).freeN = m.freeN := noHost_freeN (fifoPush_noHost m q)
@[simp] theorem fifoPush_nv (q : QEvent) : (fifoPush q m).nv = m.nv := noHost_nv (fifoPush_noHost m q)
@[simp] theorem fifoPush_cfg (q : QEvent) : (fifoPush q m).cfg = m.cfg := noHost_cfg (fifoPush_noHost m q)
@[simp] theorem fifoPush_tm (q : QEvent) : (fifoPush q m).tm = m.tm := noHost_tm (fifoPush_noHost m q)
@[simp] theorem fifoPush_ln (q : QEvent) : (fifoPush q m).ln = m.ln := noHost_ln (fifoPush_noHost m q)
@[simp] theorem fifoPush_md (q : QEvent) : (fifoPush q m).md = m.md := noHost_md (fifoPush_noHost m q)
@[simp] theorem fifoPush_pw (q : QEvent) : (fifoPush q m).pw = m.pw := noHost_pw (fifoPush_noHost m q)
@[simp] theorem fifoPush_lg (q : QEvent) : (fifoPush q m).lg = m.lg := noHost_lg (fifoPush_noHost m q)
@[simp] theorem fifoPush_cur (q : QEvent) : (fifoPush q m).cur = m.cur := noHost_cur (fifoPush_noHost m q)
@[simp] theorem fifoPush_nxt (q : QEvent) : (fifoPush q m).nxt = m.nxt := noHost_nxt (fifoPush_noHost m q)
@[simp] theorem fifoPush_en (q : QEvent) : (fifoPush q m).en = m.en := noHost_en (fifoPush_noHost m q)
@[simp] theorem fifoPush_fio (q : QEvent) : (fifoPush q m).fio = m.fio := noHost_fio (fifoPush_noHost m q)
@[simp] theorem fifoPush_bt (q : QEvent) : (fifoPush q m).bt = m.bt := noHost_bt (fifoPush_noHost m q)
@[simp] theorem fifoPush_str (q : QEvent) : (fifoPush q m).str = m.str := noHost_str (fifoPush_noHost m q)
@[simp] theorem fifoPush_can (q : QEvent) : (fifoPush q m).can = m.can := noHost_can (fifoPush_noHost m q)
@[simp] theorem fifoPush_net (q : QEvent) : (fifoPush q m).net = m.net := noHost_net (fifoPush_noHost m q)
@[simp] theorem fifoPush_rcd (q : QEvent) : (fifoPush q m).rcd = m.rcd := noHost_rcd (fifoPush_noHost m q)
@[simp] theorem fifoPush_rc (q : QEvent) : (fifoPush q m).rc = m.rc := noHost_rc (fifoPush_noHost m q)
@[simp] theorem fifoPush_pc (q : QEvent) : (fifoPush q m).pc = m.pc := noHost_pc (fifoPush_noHost m q)
@[simp] theorem fifoPush_up (q : QEvent) : (fifoPush q m).up = m.up := noHost_up (fifoPush_noHost m q)
@[simp] theorem fifoPush_sec (q : QEvent) : (fifoPush q m).sec = m.sec := noHost_sec (fifoPush_noHost m q)
@[simp] theorem fifoPush_pr (q : QEvent) : (fifoPush q m).pr = m.pr := noHost_pr (fifoPush_noHost m q)
@[simp] theorem fifoPush_stateOut (q : QEvent) : (fifoPush q m).stateOut = m.stateOut := noHost_stateOut (fifoPush_noHost m q)

@[simp] theorem produce_noHost (e : Event) : (produce e m).noHost = m.noHost := by
  unfold produce; split
  · rfl
  · dsimp only; split <;> simp
@[simp] theorem produce_noHR (e : Event) : (produce e m).noHR = m.noHR := noHost_noHR (produce_noHost m e)
@[simp] theorem produce_noHP (e : Event) : (produce e m).noHP = m.noHP := noHost_noHP (produce_noHost m e)
@[simp] theorem produce_powered (e : Event) : (produce e m).powered = m.powered := noHost_powered (produce_noHost m e)
@[simp] theorem produce_clk (e : Event) : (produce e m).clk = m.clk := noHost_clk (produce_noHost m e)
@[simp] theorem produce_freeN (e : Event) : (produce e m).freeN = m.freeN := noHost_freeN (produce_noHost m e)
@[simp] theorem produce_nv (e : Event) : (produce e m).nv = m.nv := noHost_nv (produce_noHost m e)
@[simp] theorem produce_cfg (e : Event) : (produce e m).cfg = m.cfg := noHost_cfg (produce_noHost m e)
@[simp] theorem produce_tm (e : Event) : (produce e m).tm = m.tm := noHost_tm (produce_noHost m e)
@[simp] theorem produce_ln (e : Event) : (produce e m).ln = m.ln := noHost_ln (produce_noHost m e)
@[simp] theorem produce_md (e : Event) : (produce e m).md = m.md := noHost_md (produce_noHost m e)
@[simp] theorem produce_pw (e : Event) : (produce e m).pw = m.pw := noHost_pw (produce_noHost m e)
@[simp] theorem produce_lg (e : Event) : (produce e m).lg = m.lg := noHost_lg (produce_noHost m e)
@[simp] theorem produce_cur (e : Event) : (produce e m).cur = m.cur := noHost_cur (produce_noHost m e)
@[simp] theorem produce_nxt (e : Event) : (produce e m).nxt = m.nxt := noHost_nxt (produce_noHost m e)
@[simp] theorem produce_en (e : Event) : (produce e m).en = m.en := noHost_en (produce_noHost m e)
@[simp] theorem produce_fio (e : Event) : (produce e m).fio = m.fio := noHost_fio (produce_noHost m e)
@[simp] theorem produce_bt (e : Event) : (produce e m).bt = m.bt := noHost_bt (produce_noHost m e)
@[simp] theorem produce_str (e : Event) : (produce e m).str = m.str := noHost_str (produce_noHost m e)
@[simp] theorem produce_can (e : Event) : (produce e m).can = m.can := noHost_can (produce_noHost m e)
@[simp] theorem produce_net (e : Event) : (produce e m).net = m.net := noHost_net (produce_noHost m e)
@[simp] theorem produce_rcd (e : Event) : (produce e m).rcd = m.rcd := noHost_rcd (produce_noHost m e)
@[simp] theorem produce_rc (e : Event) : (produce e m).rc = m.rc := noHost_rc (produce_noHost m e)
@[simp] theorem produce_pc (e : Event) : (produce e m).pc = m.pc := noHost_pc (produce_noHost m e)
@[simp] theorem produce_up (e : Event) : (produce e m).up = m.up := noHost_up (produce_noHost m e)
@[simp] theorem produce_sec (e : Event) : (produce e m).sec = m.sec := noHost_sec (produce_noHost m e)
@[simp] theorem produce_pr (e : Event) : (produce e m).pr = m.pr := noHost_pr (produce_noHost m e)
@[simp] theorem produce_stateOut (e : Event) : (produce e m).stateOut = m.stateOut := noHost_stateOut (produce_noHost m e)

@[simp] theorem closeAccepted_noHost (a : Accepted) : (closeAccepted a m).noHost = m.noHost := rfl
@[simp] theorem closeAccepted_noHR (a : Accepted) : (closeAccepted a m).noHR = m.noHR := noHost_noHR (closeAccepted_noHost m a)
@[simp] theorem closeAccepted_noHP (a : Accepted) : (closeAccepted a m).noHP = m.noHP := noHost_noHP (closeAccepted_noHost m a)
@[simp] theorem closeAccepted_powered (a : Accepted) : (closeAccepted a m).powered = m.powered := noHost_powered (closeAccepted_noHost m a)
@[simp] theorem closeAccepted_clk (a : Accepted) : (closeAccepted a m).clk = m.clk := noHost_clk (closeAccepted_noHost m a)
@[simp] theorem closeAccepted_freeN (a : Accepted) : (closeAccepted a m).freeN = m.freeN := noHost_freeN (closeAccepted_noHost m a)
@[simp] theorem closeAccepted_nv (a : Accepted) : (closeAccepted a m).nv = m.nv := noHost_nv (closeAccepted_noHost m a)
@[simp] theorem closeAccepted_cfg (a : Accepted) : (closeAccepted a m).cfg = m.cfg := noHost_cfg (closeAccepted_noHost m a)
@[simp] theorem closeAccepted_tm (a : Accepted) : (closeAccepted a m).tm = m.tm := noHost_tm (closeAccepted_noHost m a)
@[simp] theorem closeAccepted_ln (a : Accepted) : (closeAccepted a m).ln = m.ln := noHost_ln (closeAccepted_noHost m a)
@[simp] theorem closeAccepted_md (a : Accepted) : (closeAccepted a m).md = m.md := noHost_md (closeAccepted_noHost m a)
@[simp] theorem closeAccepted_pw (a : Accepted) : (closeAccepted a m).pw = m.pw := noHost_pw (closeAccepted_noHost m a)
@[simp] theorem closeAccepted_lg (a : Accepted) : (closeAccepted a m).lg = m.lg := noHost_lg (closeAccepted_noHost m a)
@[simp] theorem closeAccepted_cur (a : Accepted) : (closeAccepted a m).cur = m.cur := noHost_cur (closeAccepted_noHost m a)
@[simp] theorem closeAccepted_nxt (a : Accepted) : (closeAccepted a m).nxt = m.nxt := noHost_nxt (closeAccepted_noHost m a)
@[simp] theorem closeAccepted_en (a : Accepted) : (closeAccepted a m).en = m.en := noHost_en (closeAccepted_noHost m a)
@[simp] theorem closeAccepted_fio (a : Accepted) : (closeAccepted a m).fio = m.fio := noHost_fio (closeAccepted_noHost m a)
@[simp] theorem closeAccepted_bt (a : Accepted) : (closeAccepted a m).bt = m.bt := noHost_bt (closeAccepted_noHost m a)
@[simp] theorem closeAccepted_str (a : Accepted) : (closeAccepted a m).str = m.str := noHost_str (closeAccepted_noHost m a)
@[simp] theorem closeAccepted_can (a : Accepted) : (closeAccepted a m).can = m.can := noHost_can (closeAccepted_noHost m a)
@[simp] theorem closeAccepted_net (a : Accepted) : (closeAccepted a m).net = m.net := noHost_net (closeAccepted_noHost m a)
@[simp] theorem closeAccepted_rcd (a : Accepted) : (closeAccepted a m).rcd = m.rcd := noHost_rcd (closeAccepted_noHost m a)
@[simp] theorem closeAccepted_rc (a : Accepted) : (closeAccepted a m).rc = m.rc := noHost_rc (closeAccepted_noHost m a)
@[simp] theorem closeAccepted_pc (a : Accepted) : (closeAccepted a m).pc = m.pc := noHost_pc (closeAccepted_noHost m a)
@[simp] theorem closeAccepted_up (a : Accepted) : (closeAccepted a m).up = m.up := noHost_up (closeAccepted_noHost m a)
@[simp] theorem closeAccepted_sec (a : Accepted) : (closeAccepted a m).sec = m.sec := noHost_sec (closeAccepted_noHost m a)
@[simp] theorem closeAccepted_pr (a : Accepted) : (closeAccepted a m).pr = m.pr := noHost_pr (closeAccepted_noHost m a)
@[simp] theorem closeAccepted_stateOut (a : Accepted) : (closeAccepted a m).stateOut = m.stateOut := noHost_stateOut (closeAccepted_noHost m a)

@[simp] theorem recAccept_noRcd (kind src code : Nat) (priv : Bool) (scnAt : Nat) (body : List Byte) : (recAccept kind src code priv scnAt body m).noRcd = m.noRcd := by
  unfold recAccept; split
  · rfl
  · dsimp only; split <;> simp
@[simp] theorem recAccept_noHR (kind src code : Nat) (priv : Bool) (scnAt : Nat) (body : List Byte) : (recAccept kind src code priv scnAt body m).noHR = m.noHR := noRcd_noHR (recAccept_noRcd m kind src code priv scnAt body)
@[simp] theorem recAccept_powered (kind src code : Nat) (priv : Bool) (scnAt : Nat) (body : List Byte) : (recAccept kind src code priv scnAt body m).powered = m.powered := noRcd_powered (recAccept_noRcd m kind src code priv scnAt body)
@[simp] theorem recAccept_clk (kind src code : Nat) (priv : Bool) (scnAt : Nat) (body : List Byte) : (recAccept kind src code priv scnAt body m).clk = m.clk := noRcd_clk (recAccept_noRcd m kind src code priv scnAt body)
@[simp] theorem recAccept_freeN (kind src code : Nat) (priv : Bool) (scnAt : Nat) (body : List Byte) : (recAccept kind src code priv scnAt body m).freeN = m.freeN := noRcd_freeN (recAccept_noRcd m kind src code priv scnAt body)
@[simp] theorem recAccept_nv (kind src code : Nat) (priv : Bool) (scnAt : Nat) (body : List Byte) : (recAccept kind src code priv scnAt body m).nv = m.nv := noRcd_nv (recAccept_noRcd m kind src code priv scnAt body)
@[simp] theorem recAccept_cfg (kind src code : Nat) (priv : Bool) (scnAt : Nat) (body : List Byte) : (recAccept kind src code priv scnAt body m).cfg = m.cfg := noRcd_cfg (recAccept_noRcd m kind src code priv scnAt body)
@[simp] theorem recAccept_tm (kind src code : Nat) (priv : Bool) (scnAt : Nat) (body : List Byte) : (recAccept kind src code priv scnAt body m).tm = m.tm := noRcd_tm (recAccept_noRcd m kind src code priv scnAt body)
@[simp] theorem recAccept_ln (kind src code : Nat) (priv : Bool) (scnAt : Nat) (body : List Byte) : (recAccept kind src code priv scnAt body m).ln = m.ln := noRcd_ln (recAccept_noRcd m kind src code priv scnAt body)
@[simp] theorem recAccept_md (kind src code : Nat) (priv : Bool) (scnAt : Nat) (body : List Byte) : (recAccept kind src code priv scnAt body m).md = m.md := noRcd_md (recAccept_noRcd m kind src code priv scnAt body)
@[simp] theorem recAccept_pw (kind src code : Nat) (priv : Bool) (scnAt : Nat) (body : List Byte) : (recAccept kind src code priv scnAt body m).pw = m.pw := noRcd_pw (recAccept_noRcd m kind src code priv scnAt body)
@[simp] theorem recAccept_lg (kind src code : Nat) (priv : Bool) (scnAt : Nat) (body : List Byte) : (recAccept kind src code priv scnAt body m).lg = m.lg := noRcd_lg (recAccept_noRcd m kind src code priv scnAt body)
@[simp] theorem recAccept_cur (kind src code : Nat) (priv : Bool) (scnAt : Nat) (body : List Byte) : (recAccept kind src code priv scnAt body m).cur = m.cur := noRcd_cur (recAccept_noRcd m kind src code priv scnAt body)
@[simp] theorem recAccept_nxt (kind src code : Nat) (priv : Bool) (scnAt : Nat) (body : List Byte) : (recAccept kind src code priv scnAt body m).nxt = m.nxt := noRcd_nxt (recAccept_noRcd m kind src code priv scnAt body)
@[simp] theorem recAccept_en (kind src code : Nat) (priv : Bool) (scnAt : Nat) (body : List Byte) : (recAccept kind src code priv scnAt body m).en = m.en := noRcd_en (recAccept_noRcd m kind src code priv scnAt body)
@[simp] theorem recAccept_fio (kind src code : Nat) (priv : Bool) (scnAt : Nat) (body : List Byte) : (recAccept kind src code priv scnAt body m).fio = m.fio := noRcd_fio (recAccept_noRcd m kind src code priv scnAt body)
@[simp] theorem recAccept_bt (kind src code : Nat) (priv : Bool) (scnAt : Nat) (body : List Byte) : (recAccept kind src code priv scnAt body m).bt = m.bt := noRcd_bt (recAccept_noRcd m kind src code priv scnAt body)
@[simp] theorem recAccept_str (kind src code : Nat) (priv : Bool) (scnAt : Nat) (body : List Byte) : (recAccept kind src code priv scnAt body m).str = m.str := noRcd_str (recAccept_noRcd m kind src code priv scnAt body)
@[simp] theorem recAccept_can (kind src code : Nat) (priv : Bool) (scnAt : Nat) (body : List Byte) : (recAccept kind src code priv scnAt body m).can = m.can := noRcd_can (recAccept_noRcd m kind src code priv scnAt body)
@[simp] theorem recAccept_net (kind src code : Nat) (priv : Bool) (scnAt : Nat) (body : List Byte) : (recAccept kind src code priv scnAt body m).net = m.net := noRcd_net (recAccept_noRcd m kind src code priv scnAt body)
@[simp] theorem recAccept_host (kind src code : Nat) (priv : Bool) (scnAt : Nat) (body : List Byte) : (recAccept kind src code priv scnAt body m).host = m.host := noRcd_host (recAccept_noRcd m kind src code priv scnAt body)
@[simp] theorem recAccept_rc (kind src code : Nat) (priv : Bool) (scnAt : Nat) (body : List Byte) : (recAccept kind src code priv scnAt body m).rc = m.rc := noRcd_rc (recAccept_noRcd m kind src code priv scnAt body)
@[simp] theorem recAccept_pc (kind src code : Nat) (priv : Bool) (scnAt : Nat) (body : List Byte) : (recAccept kind src code priv scnAt body m).pc = m.pc := noRcd_pc (recAccept_noRcd m kind src code priv scnAt body)
@[simp] theorem recAccept_up (kind src code : Nat) (priv : Bool) (scnAt : Nat) (body : List Byte) : (recAccept kind src code priv scnAt body m).up = m.up := noRcd_up (recAccept_noRcd m kind src code priv scnAt body)
@[simp] theorem recAccept_sec (kind src code : Nat) (priv : Bool) (scnAt : Nat) (body : List Byte) : (recAccept kind src code priv scnAt body m).sec = m.sec := noRcd_sec (recAccept_noRcd m kind src code priv scnAt body)
@[simp] theorem recAccept_pr (kind src code : Nat) (priv : Bool) (scnAt : Nat) (body : List Byte) : (recAccept kind src code priv scnAt body m).pr = m.pr := noRcd_pr (recAccept_noRcd m kind src code priv scnAt body)
@[simp] theorem recAccept_stateOut (kind src code : Nat) (priv : Bool) (scnAt : Nat) (body : List Byte) : (recAccept kind src code priv scnAt body m).stateOut = m.stateOut := noRcd_stateOut (recAccept_noRcd m kind src code priv scnAt body)

@[simp] theorem raiseRaw_noHR (e : Event) : (raiseRaw e m).noHR = m.noHR := by
  unfold raiseRaw; dsimp only; split <;> simp
@[simp] theorem raiseRaw_powered (e : Event) : (raiseRaw e m).powered = m.powered := noHR_powered (raiseRaw_noHR m e)
@[simp] theorem raiseRaw_clk (e : Event) : (raiseRaw e m).clk = m.clk := noHR_clk (raiseRaw_noHR m e)
@[simp] theorem raiseRaw_freeN (e : Event) : (raiseRaw e m).freeN = m.freeN := noHR_freeN (raiseRaw_noHR m e)
@[simp] theorem raiseRaw_nv (e : Event) : (raiseRaw e m).nv = m.nv := noHR_nv (raiseRaw_noHR m e)
@[simp] theorem raiseRaw_cfg (e : Event) : (raiseRaw e m).cfg = m.cfg := noHR_cfg (raiseRaw_noHR m e)
@[simp] theorem raiseRaw_tm (e : Event) : (raiseRaw e m).tm = m.tm := noHR_tm (raiseRaw_noHR m e)
@[simp] theorem raiseRaw_ln (e : Event) : (raiseRaw e m).ln = m.ln := noHR_ln (raiseRaw_noHR m e)
@[simp] theorem raiseRaw_md (e : Event) : (raiseRaw e m).md = m.md := noHR_md (raiseRaw_noHR m e)
@[simp] theorem raiseRaw_pw (e : Event) : (raiseRaw e m).pw = m.pw := noHR_pw (raiseRaw_noHR m e)
@[simp] theorem raiseRaw_lg (e : Event) : (raiseRaw e m).lg = m.lg := noHR_lg (raiseRaw_noHR m e)
@[simp] theorem raiseRaw_cur (e : Event) : (raiseRaw e m).cur = m.cur := noHR_cur (raiseRaw_noHR m e)
@[simp] theorem raiseRaw_nxt (e : Event) : (raiseRaw e m).nxt = m.nxt := noHR_nxt (raiseRaw_noHR m e)
@[simp] theorem raiseRaw_en (e : Event) : (raiseRaw e m).en = m.en := noHR_en (raiseRaw_noHR m e)
@[simp] theorem raiseRaw_fio (e : Event) : (raiseRaw e m).fio = m.fio := noHR_fio (raiseRaw_noHR m e)
@[simp] theorem raiseRaw_bt (e : Event) : (raiseRaw e m).bt = m.bt := noHR_bt (raiseRaw_noHR m e)
@[simp] theorem raiseRaw_str (e : Event) : (raiseRaw e m).str = m.str := noHR_str (raiseRaw_noHR m e)
@[simp] theorem raiseRaw_can (e : Event) : (raiseRaw e m).can = m.can := noHR_can (raiseRaw_noHR m e)
@[simp] theorem raiseRaw_net (e : Event) : (raiseRaw e m).net = m.net := noHR_net (raiseRaw_noHR m e)
@[simp] theorem raiseRaw_rc (e : Event) : (raiseRaw e m).rc = m.rc := noHR_rc (raiseRaw_noHR m e)
@[simp] theorem raiseRaw_pc (e : Event) : (raiseRaw e m).pc = m.pc := noHR_pc (raiseRaw_noHR m e)
@[simp] theorem raiseRaw_up (e : Event) : (raiseRaw e m).up = m.up := noHR_up (raiseRaw_noHR m e)
@[simp] theorem raiseRaw_sec (e : Event) : (raiseRaw e m).sec = m.sec := noHR_sec (raiseRaw_noHR m e)
@[simp] theorem raiseRaw_pr (e : Event) : (raiseRaw e m).pr = m.pr := noHR_pr (raiseRaw_noHR m e)
@[simp] theorem raiseRaw_stateOut (e : Event) : (raiseRaw e m).stateOut = m.stateOut := noHR_stateOut (raiseRaw_noHR m e)

@[simp] theorem writeLoss_noRcd (src : Nat) (run : W32 × Nat) : (writeLoss src run m).noRcd = m.noRcd := by
  unfold writeLoss; simp
@[simp] theorem writeLoss_noHR (src : Nat) (run : W32 × Nat) : (writeLoss src run m).noHR = m.noHR := noRcd_noHR (writeLoss_noRcd m src run)
@[simp] theorem writeLoss_powered (src : Nat) (run : W32 × Nat) : (writeLoss src run m).powered = m.powered := noRcd_powered (writeLoss_noRcd m src run)
@[simp] theorem writeLoss_clk (src : Nat) (run : W32 × Nat) : (writeLoss src run m).clk = m.clk := noRcd_clk (writeLoss_noRcd m src run)
@[simp] theorem writeLoss_freeN (src : Nat) (run : W32 × Nat) : (writeLoss src run m).freeN = m.freeN := noRcd_freeN (writeLoss_noRcd m src run)
@[simp] theorem writeLoss_nv (src : Nat) (run : W32 × Nat) : (writeLoss src run m).nv = m.nv := noRcd_nv (writeLoss_noRcd m src run)
@[simp] theorem writeLoss_cfg (src : Nat) (run : W32 × Nat) : (writeLoss src run m).cfg = m.cfg := noRcd_cfg (writeLoss_noRcd m src run)
@[simp] theorem writeLoss_tm (src : Nat) (run : W32 × Nat) : (writeLoss src run m).tm = m.tm := noRcd_tm (writeLoss_noRcd m src run)
@[simp] theorem writeLoss_ln (src : Nat) (run : W32 × Nat) : (writeLoss src run m).ln = m.ln := noRcd_ln (writeLoss_noRcd m src run)
@[simp] theorem writeLoss_md (src : Nat) (run : W32 × Nat) : (writeLoss src run m).md = m.md := noRcd_md (writeLoss_noRcd m src run)
@[simp] theorem writeLoss_pw (src : Nat) (run : W32 × Nat) : (writeLoss src run m).pw = m.pw := noRcd_pw (writeLoss_noRcd m src run)
@[simp] theorem writeLoss_lg (src : Nat) (run : W32 × Nat) : (writeLoss src run m).lg = m.lg := noRcd_lg (writeLoss_noRcd m src run)
@[simp] theorem writeLoss_cur (src : Nat) (run : W32 × Nat) : (writeLoss src run m).cur = m.cur := noRcd_cur (writeLoss_noRcd m src run)
@[simp] theorem writeLoss_nxt (src : Nat) (run : W32 × Nat) : (writeLoss src run m).nxt = m.nxt := noRcd_nxt (writeLoss_noRcd m src run)
@[simp] theorem writeLoss_en (src : Nat) (run : W32 × Nat) : (writeLoss src run m).en = m.en := noRcd_en (writeLoss_noRcd m src run)
@[simp] theorem writeLoss_fio (src : Nat) (run : W32 × Nat) : (writeLoss src run m).fio = m.fio := noRcd_fio (writeLoss_noRcd m src run)
@[simp] theorem writeLoss_bt (src : Nat) (run : W32 × Nat) : (writeLoss src run m).bt = m.bt := noRcd_bt (writeLoss_noRcd m src run)
@[simp] theorem writeLoss_str (src : Nat) (run : W32 × Nat) : (writeLoss src run m).str = m.str := noRcd_str (writeLoss_noRcd m src run)
@[simp] theorem writeLoss_can (src : Nat) (run : W32 × Nat) : (writeLoss src run m).can = m.can := noRcd_can (writeLoss_noRcd m src run)
@[simp] theorem writeLoss_net (src : Nat) (run : W32 × Nat) : (writeLoss src run m).net = m.net := noRcd_net (writeLoss_noRcd m src run)
@[simp] theorem writeLoss_host (src : Nat) (run : W32 × Nat) : (writeLoss src run m).host = m.host := noRcd_host (writeLoss_noRcd m src run)
@[simp] theorem writeLoss_rc (src : Nat) (run : W32 × Nat) : (writeLoss src run m).rc = m.rc := noRcd_rc (writeLoss_noRcd m src run)
@[simp] theorem writeLoss_pc (src : Nat) (run : W32 × Nat) : (writeLoss src run m).pc = m.pc := noRcd_pc (writeLoss_noRcd m src run)
@[simp] theorem writeLoss_up (src : Nat) (run : W32 × Nat) : (writeLoss src run m).up = m.up := noRcd_up (writeLoss_noRcd m src run)
@[simp] theorem writeLoss_sec (src : Nat) (run : W32 × Nat) : (writeLoss src run m).sec = m.sec := noRcd_sec (writeLoss_noRcd m src run)
@[simp] theorem writeLoss_pr (src : Nat) (run : W32 × Nat) : (writeLoss src run m).pr = m.pr := noRcd_pr (writeLoss_noRcd m src run)
@[simp] theorem writeLoss_stateOut (src : Nat) (run : W32 × Nat) : (writeLoss src run m).stateOut = m.stateOut := noRcd_stateOut (writeLoss_noRcd m src run)

@[simp] theorem tellLoss_noHR (src : Nat) (run : W32 × Nat) : (tellLoss src run m).noHR = m.noHR := by
  unfold tellLoss; split <;> simp
@[simp] theorem tellLoss_powered (src : Nat) (run : W32 × Nat) : (tellLoss src run m).powered = m.powered := noHR_powered (tellLoss_noHR m src run)
@[simp] theorem tellLoss_clk (src : Nat) (run : W32 × Nat) : (tellLoss src run m).clk = m.clk := noHR_clk (tellLoss_noHR m src run)
@[simp] theorem tellLoss_freeN (src : Nat) (run : W32 × Nat) : (tellLoss src run m).freeN = m.freeN := noHR_freeN (tellLoss_noHR m src run)
@[simp] theorem tellLoss_nv (src : Nat) (run : W32 × Nat) : (tellLoss src run m).nv = m.nv := noHR_nv (tellLoss_noHR m src run)
@[simp] theorem tellLoss_cfg (src : Nat) (run : W32 × Nat) : (tellLoss src run m).cfg = m.cfg := noHR_cfg (tellLoss_noHR m src run)
@[simp] theorem tellLoss_tm (src : Nat) (run : W32 × Nat) : (tellLoss src run m).tm = m.tm := noHR_tm (tellLoss_noHR m src run)
@[simp] theorem tellLoss_ln (src : Nat) (run : W32 × Nat) : (tellLoss src run m).ln = m.ln := noHR_ln (tellLoss_noHR m src run)
@[simp] theorem tellLoss_md (src : Nat) (run : W32 × Nat) : (tellLoss src run m).md = m.md := noHR_md (tellLoss_noHR m src run)
@[simp] theorem tellLoss_pw (src : Nat) (run : W32 × Nat) : (tellLoss src run m).pw = m.pw := noHR_pw (tellLoss_noHR m src run)
@[simp] theorem tellLoss_lg (src : Nat) (run : W32 × Nat) : (tellLoss src run m).lg = m.lg := noHR_lg (tellLoss_noHR m src run)
@[simp] theorem tellLoss_cur (src : Nat) (run : W32 × Nat) : (tellLoss src run m).cur = m.cur := noHR_cur (tellLoss_noHR m src run)
@[simp] theorem tellLoss_nxt (src : Nat) (run : W32 × Nat) : (tellLoss src run m).nxt = m.nxt := noHR_nxt (tellLoss_noHR m src run)
@[simp] theorem tellLoss_en (src : Nat) (run : W32 × Nat) : (tellLoss src run m).en = m.en := noHR_en (tellLoss_noHR m src run)
@[simp] theorem tellLoss_fio (src : Nat) (run : W32 × Nat) : (tellLoss src run m).fio = m.fio := noHR_fio (tellLoss_noHR m src run)
@[simp] theorem tellLoss_bt (src : Nat) (run : W32 × Nat) : (tellLoss src run m).bt = m.bt := noHR_bt (tellLoss_noHR m src run)
@[simp] theorem tellLoss_str (src : Nat) (run : W32 × Nat) : (tellLoss src run m).str = m.str := noHR_str (tellLoss_noHR m src run)
@[simp] theorem tellLoss_can (src : Nat) (run : W32 × Nat) : (tellLoss src run m).can = m.can := noHR_can (tellLoss_noHR m src run)
@[simp] theorem tellLoss_net (src : Nat) (run : W32 × Nat) : (tellLoss src run m).net = m.net := noHR_net (tellLoss_noHR m src run)
@[simp] theorem tellLoss_rc (src : Nat) (run : W32 × Nat) : (tellLoss src run m).rc = m.rc := noHR_rc (tellLoss_noHR m src run)
@[simp] theorem tellLoss_pc (src : Nat) (run : W32 × Nat) : (tellLoss src run m).pc = m.pc := noHR_pc (tellLoss_noHR m src run)
@[simp] theorem tellLoss_up (src : Nat) (run : W32 × Nat) : (tellLoss src run m).up = m.up := noHR_up (tellLoss_noHR m src run)
@[simp] theorem tellLoss_sec (src : Nat) (run : W32 × Nat) : (tellLoss src run m).sec = m.sec := noHR_sec (tellLoss_noHR m src run)
@[simp] theorem tellLoss_pr (src : Nat) (run : W32 × Nat) : (tellLoss src run m).pr = m.pr := noHR_pr (tellLoss_noHR m src run)
@[simp] theorem tellLoss_stateOut (src : Nat) (run : W32 × Nat) : (tellLoss src run m).stateOut = m.stateOut := noHR_stateOut (tellLoss_noHR m src run)

@[simp] theorem closeRun_noHR (priv : Bool) (src : Nat) : (closeRun priv src m).noHR = m.noHR := by
  unfold closeRun; split
  · rfl
  · dsimp only; split
    · rfl
    · exact (forEach_keeps _ Mod.noHR _ _ (fun p n => tellLoss_noHR n _ _)).trans (forEach_keeps _ Mod.noHR _ _ (fun p n => writeLoss_noHR n _ _))
@[simp] theorem closeRun_powered (priv : Bool) (src : Nat) : (closeRun priv src m).powered = m.powered := noHR_powered (closeRun_noHR m priv src)
@[simp] theorem closeRun_clk (priv : Bool) (src : Nat) : (closeRun priv src m).clk = m.clk := noHR_clk (closeRun_noHR m priv src)
@[simp] theorem closeRun_freeN (priv : Bool) (src : Nat) : (closeRun priv src m).freeN = m.freeN := noHR_freeN (closeRun_noHR m priv src)
@[simp] theorem closeRun_nv (priv : Bool) (src : Nat) : (closeRun priv src m).nv = m.nv := noHR_nv (closeRun_noHR m priv src)
@[simp] theorem closeRun_cfg (priv : Bool) (src : Nat) : (closeRun priv src m).cfg = m.cfg := noHR_cfg (closeRun_noHR m priv src)
@[simp] theorem closeRun_tm (priv : Bool) (src : Nat) : (closeRun priv src m).tm = m.tm := noHR_tm (closeRun_noHR m priv src)
@[simp] theorem closeRun_ln (priv : Bool) (src : Nat) : (closeRun priv src m).ln = m.ln := noHR_ln (closeRun_noHR m priv src)
@[simp] theorem closeRun_md (priv : Bool) (src : Nat) : (closeRun priv src m).md = m.md := noHR_md (closeRun_noHR m priv src)
@[simp] theorem closeRun_pw (priv : Bool) (src : Nat) : (closeRun priv src m).pw = m.pw := noHR_pw (closeRun_noHR m priv src)
@[simp] theorem closeRun_lg (priv : Bool) (src : Nat) : (closeRun priv src m).lg = m.lg := noHR_lg (closeRun_noHR m priv src)
@[simp] theorem closeRun_cur (priv : Bool) (src : Nat) : (closeRun priv src m).cur = m.cur := noHR_cur (closeRun_noHR m priv src)
@[simp] theorem closeRun_nxt (priv : Bool) (src : Nat) : (closeRun priv src m).nxt = m.nxt := noHR_nxt (closeRun_noHR m priv src)
@[simp] theorem closeRun_en (priv : Bool) (src : Nat) : (closeRun priv src m).en = m.en := noHR_en (closeRun_noHR m priv src)
@[simp] theorem closeRun_fio (priv : Bool) (src : Nat) : (closeRun priv src m).fio = m.fio := noHR_fio (closeRun_noHR m priv src)
@[simp] theorem closeRun_bt (priv : Bool) (src : Nat) : (closeRun priv src m).bt = m.bt := noHR_bt (closeRun_noHR m priv src)
@[simp] theorem closeRun_str (priv : Bool) (src : Nat) : (closeRun priv src m).str = m.str := noHR_str (closeRun_noHR m priv src)
@[simp] theorem closeRun_can (priv : Bool) (src : Nat) : (closeRun priv src m).can = m.can := noHR_can (closeRun_noHR m priv src)
@[simp] theorem closeRun_net (priv : Bool) (src : Nat) : (closeRun priv src m).net = m.net := noHR_net (closeRun_noHR m priv src)
@[simp] theorem closeRun_rc (priv : Bool) (src : Nat) : (closeRun priv src m).rc = m.rc := noHR_rc (closeRun_noHR m priv src)
@[simp] theorem closeRun_pc (priv : Bool) (src : Nat) : (closeRun priv src m).pc = m.pc := noHR_pc (closeRun_noHR m priv src)
@[simp] theorem closeRun_up (priv : Bool) (src : Nat) : (closeRun priv src m).up = m.up := noHR_up (closeRun_noHR m priv src)
@[simp] theorem closeRun_sec (priv : Bool) (src : Nat) : (closeRun priv src m).sec = m.sec := noHR_sec (closeRun_noHR m priv src)
@[simp] theorem closeRun_pr (priv : Bool) (src : Nat) : (closeRun priv src m).pr = m.pr := noHR_pr (closeRun_noHR m priv src)
@[simp] theorem closeRun_stateOut (priv : Bool) (src : Nat) : (closeRun priv src m).stateOut = m.stateOut := noHR_stateOut (closeRun_noHR m priv src)

@[simp] theorem raise_noHR (code : Nat) (x : EvArgs) : (raise code x m).noHR = m.noHR := by
  unfold raise; split
  · rfl
  · simp
@[simp] theorem raise_powered (code : Nat) (x : EvArgs) : (raise code x m).powered = m.powered := noHR_powered (raise_noHR m code x)
@[simp] theorem raise_clk (code : Nat) (x : EvArgs) : (raise code x m).clk = m.clk := noHR_clk (raise_noHR m code x)
@[simp] theorem raise_freeN (code : Nat) (x : EvArgs) : (raise code x m).freeN = m.freeN := noHR_freeN (raise_noHR m code x)
@[simp] theorem raise_nv (code : Nat) (x : EvArgs) : (raise code x m).nv = m.nv := noHR_nv (raise_noHR m code x)
@[simp] theorem raise_cfg (code : Nat) (x : EvArgs) : (raise code x m).cfg = m.cfg := noHR_cfg (raise_noHR m code x)
@[simp] theorem raise_tm (code : Nat) (x : EvArgs) : (raise code x m).tm = m.tm := noHR_tm (raise_noHR m code x)
@[simp] theorem raise_ln (code : Nat) (x : EvArgs) : (raise code x m).ln = m.ln := noHR_ln (raise_noHR m code x)
@[simp] theorem raise_md (code : Nat) (x : EvArgs) : (raise code x m).md = m.md := noHR_md (raise_noHR m code x)
@[simp] theorem raise_pw (code : Nat) (x : EvArgs) : (raise code x m).pw = m.pw := noHR_pw (raise_noHR m code x)
@[simp] theorem raise_lg (code : Nat) (x : EvArgs) : (raise code x m).lg = m.lg := noHR_lg (raise_noHR m code x)
@[simp] theorem raise_cur (code : Nat) (x : EvArgs) : (raise code x m).cur = m.cur := noHR_cur (raise_noHR m code x)
@[simp] theorem raise_nxt (code : Nat) (x : EvArgs) : (raise code x m).nxt = m.nxt := noHR_nxt (raise_noHR m code x)
@[simp] theorem raise_en (code : Nat) (x : EvArgs) : (raise code x m).en = m.en := noHR_en (raise_noHR m code x)
@[simp] theorem raise_fio (code : Nat) (x : EvArgs) : (raise code x m).fio = m.fio := noHR_fio (raise_noHR m code x)
@[simp] theorem raise_bt (code : Nat) (x : EvArgs) : (raise code x m).bt = m.bt := noHR_bt (raise_noHR m code x)
@[simp] theorem raise_str (code : Nat) (x : EvArgs) : (raise code x m).str = m.str := noHR_str (raise_noHR m code x)
@[simp] theorem raise_can (code : Nat) (x : EvArgs) : (raise code x m).can = m.can := noHR_can (raise_noHR m code x)
@[simp] theorem raise_net (code : Nat) (x : EvArgs) : (raise code x m).net = m.net := noHR_net (raise_noHR m code x)
@[simp] theorem raise_rc (code : Nat) (x : EvArgs) : (raise code x m).rc = m.rc := noHR_rc (raise_noHR m code x)
@[simp] theorem raise_pc (code : Nat) (x : EvArgs) : (raise code x m).pc = m.pc := noHR_pc (raise_noHR m code x)
@[simp] theorem raise_up (code : Nat) (x : EvArgs) : (raise code x m).up = m.up := noHR_up (raise_noHR m code x)
@[simp] theorem raise_sec (code : Nat) (x : EvArgs) : (raise code x m).sec = m.sec := noHR_sec (raise_noHR m code x)
@[simp] theorem raise_pr (code : Nat) (x : EvArgs) : (raise code x m).pr = m.pr := noHR_pr (raise_noHR m code x)
@[simp] theorem raise_stateOut (code : Nat) (x : EvArgs) : (raise code x m).stateOut = m.stateOut := noHR_stateOut (raise_noHR m code x)

@[simp] theorem drainRing_noHR (fuel eq : Nat) : (drainRing fuel eq m).noHR = m.noHR := by
  induction fuel generalizing m with
  | zero => rfl
  | succ n ih =>
    unfold drainRing; split
    · rfl
    · split
      · simp [ih]
      · split
        · rfl
        · simp [ih]
@[simp] theorem drainRing_powered (fuel eq : Nat) : (drainRing fuel eq m).powered = m.powered := noHR_powered (drainRing_noHR m fuel eq)
@[simp] theorem drainRing_clk (fuel eq : Nat) : (drainRing fuel eq m).clk = m.clk := noHR_clk (drainRing_noHR m fuel eq)
@[simp] theorem drainRing_freeN (fuel eq : Nat) : (drainRing fuel eq m).freeN = m.freeN := noHR_freeN (drainRing_noHR m fuel eq)
@[simp] theorem drainRing_nv (fuel eq : Nat) : (drainRing fuel eq m).nv = m.nv := noHR_nv (drainRing_noHR m fuel eq)
@[simp] theorem drainRing_cfg (fuel eq : Nat) : (drainRing fuel eq m).cfg = m.cfg := noHR_cfg (drainRing_noHR m fuel eq)
@[simp] theorem drainRing_tm (fuel eq : Nat) : (drainRing fuel eq m).tm = m.tm := noHR_tm (drainRing_noHR m fuel eq)
@[simp] theorem drainRing_ln (fuel eq : Nat) : (drainRing fuel eq m).ln = m.ln := noHR_ln (drainRing_noHR m fuel eq)
@[simp] theorem drainRing_md (fuel eq : Nat) : (drainRing fuel eq m).md = m.md := noHR_md (drainRing_noHR m fuel eq)
@[simp] theorem drainRing_pw (fuel eq : Nat) : (drainRing fuel eq m).pw = m.pw := noHR_pw (drainRing_noHR m fuel eq)
@[simp] theorem drainRing_lg (fuel eq : Nat) : (drainRing fuel eq m).lg = m.lg := noHR_lg (drainRing_noHR m fuel eq)
@[simp] theorem drainRing_cur (fuel eq : Nat) : (drainRing fuel eq m).cur = m.cur := noHR_cur (drainRing_noHR m fuel eq)
@[simp] theorem drainRing_nxt (fuel eq : Nat) : (drainRing fuel eq m).nxt = m.nxt := noHR_nxt (drainRing_noHR m fuel eq)
@[simp] theorem drainRing_en (fuel eq : Nat) : (drainRing fuel eq m).en = m.en := noHR_en (drainRing_noHR m fuel eq)
@[simp] theorem drainRing_fio (fuel eq : Nat) : (drainRing fuel eq m).fio = m.fio := noHR_fio (drainRing_noHR m fuel eq)
@[simp] theorem drainRing_bt (fuel eq : Nat) : (drainRing fuel eq m).bt = m.bt := noHR_bt (drainRing_noHR m fuel eq)
@[simp] theorem drainRing_str (fuel eq : Nat) : (drainRing fuel eq m).str = m.str := noHR_str (drainRing_noHR m fuel eq)
@[simp] theorem drainRing_can (fuel eq : Nat) : (drainRing fuel eq m).can = m.can := noHR_can (drainRing_noHR m fuel eq)
@[simp] theorem drainRing_net (fuel eq : Nat) : (drainRing fuel eq m).net = m.net := noHR_net (drainRing_noHR m fuel eq)
@[simp] theorem drainRing_rc (fuel eq : Nat) : (drainRing fuel eq m).rc = m.rc := noHR_rc (drainRing_noHR m fuel eq)
@[simp] theorem drainRing_pc (fuel eq : Nat) : (drainRing fuel eq m).pc = m.pc := noHR_pc (drainRing_noHR m fuel eq)
@[simp] theorem drainRing_up (fuel eq : Nat) : (drainRing fuel eq m).up = m.up := noHR_up (drainRing_noHR m fuel eq)
@[simp] theorem drainRing_sec (fuel eq : Nat) : (drainRing fuel eq m).sec = m.sec := noHR_sec (drainRing_noHR m fuel eq)
@[simp] theorem drainRing_pr (fuel eq : Nat) : (drainRing fuel eq m).pr = m.pr := noHR_pr (drainRing_noHR m fuel eq)
@[simp] theorem drainRing_stateOut (fuel eq : Nat) : (drainRing fuel eq m).stateOut = m.stateOut := noHR_stateOut (drainRing_noHR m fuel eq)

@[simp] theorem flushEvents_noHost : (flushEvents m).noHost = m.noHost := (forEach_keeps _ Mod.noHost _ _ (fun e n => produce_noHost n e)).trans rfl
@[simp] theorem flushEvents_noHR : (flushEvents m).noHR = m.noHR := noHost_noHR (flushEvents_noHost m)
@[simp] theorem flushEvents_noHP : (flushEvents m).noHP = m.noHP := noHost_noHP (flushEvents_noHost m)
@[simp] theorem flushEvents_powered : (flushEvents m).powered = m.powered := noHost_powered (flushEvents_noHost m)
@[simp] theorem flushEvents_clk : (flushEvents m).clk = m.clk := noHost_clk (flushEvents_noHost m)
@[simp] theorem flushEvents_freeN : (flushEvents m).freeN = m.freeN := noHost_freeN (flushEvents_noHost m)
@[simp] theorem flushEvents_nv : (flushEvents m).nv = m.nv := noHost_nv (flushEvents_noHost m)
@[simp] theorem flushEvents_cfg : (flushEvents m).cfg = m.cfg := noHost_cfg (flushEvents_noHost m)
@[simp] theorem flushEvents_tm : (flushEvents m).tm = m.tm := noHost_tm (flushEvents_noHost m)
@[simp] theorem flushEvents_ln : (flushEvents m).ln = m.ln := noHost_ln (flushEvents_noHost m)
@[simp] theorem flushEvents_md : (flushEvents m).md = m.md := noHost_md (flushEvents_noHost m)
@[simp] theorem flushEvents_pw : (flushEvents m).pw = m.pw := noHost_pw (flushEvents_noHost m)
@[simp] theorem flushEvents_lg : (flushEvents m).lg = m.lg := noHost_lg (flushEvents_noHost m)
@[simp] theorem flushEvents_cur : (flushEvents m).cur = m.cur := noHost_cur (flushEvents_noHost m)
@[simp] theorem flushEvents_nxt : (flushEvents m).nxt = m.nxt := noHost_nxt (flushEvents_noHost m)
@[simp] theorem flushEvents_en : (flushEvents m).en = m.en := noHost_en (flushEvents_noHost m)
@[simp] theorem flushEvents_fio : (flushEvents m).fio = m.fio := noHost_fio (flushEvents_noHost m)
@[simp] theorem flushEvents_bt : (flushEvents m).bt = m.bt := noHost_bt (flushEvents_noHost m)
@[simp] theorem flushEvents_str : (flushEvents m).str = m.str := noHost_str (flushEvents_noHost m)
@[simp] theorem flushEvents_can : (flushEvents m).can = m.can := noHost_can (flushEvents_noHost m)
@[simp] theorem flushEvents_net : (flushEvents m).net = m.net := noHost_net (flushEvents_noHost m)
@[simp] theorem flushEvents_rcd : (flushEvents m).rcd = m.rcd := noHost_rcd (flushEvents_noHost m)
@[simp] theorem flushEvents_rc : (flushEvents m).rc = m.rc := noHost_rc (flushEvents_noHost m)
@[simp] theorem flushEvents_pc : (flushEvents m).pc = m.pc := noHost_pc (flushEvents_noHost m)
@[simp] theorem flushEvents_up : (flushEvents m).up = m.up := noHost_up (flushEvents_noHost m)
@[simp] theorem flushEvents_sec : (flushEvents m).sec = m.sec := noHost_sec (flushEvents_noHost m)
@[simp] theorem flushEvents_pr : (flushEvents m).pr = m.pr := noHost_pr (flushEvents_noHost m)
@[simp] theorem flushEvents_stateOut : (flushEvents m).stateOut = m.stateOut := noHost_stateOut (flushEvents_noHost m)

@[simp] theorem outOfOrder_noHost (src : SubSrc) (c : Cpl) : (outOfOrder src c m).noHost = m.noHost := rfl
@[simp] theorem outOfOrder_noHR (src : SubSrc) (c : Cpl) : (outOfOrder src c m).noHR = m.noHR := noHost_noHR (outOfOrder_noHost m src c)
@[simp] theorem outOfOrder_noHP (src : SubSrc) (c : Cpl) : (outOfOrder src c m).noHP = m.noHP := noHost_noHP (outOfOrder_noHost m src c)
@[simp] theorem outOfOrder_powered (src : SubSrc) (c : Cpl) : (outOfOrder src c m).powered = m.powered := noHost_powered (outOfOrder_noHost m src c)
@[simp] theorem outOfOrder_clk (src : SubSrc) (c : Cpl) : (outOfOrder src c m).clk = m.clk := noHost_clk (outOfOrder_noHost m src c)
@[simp] theorem outOfOrder_freeN (src : SubSrc) (c : Cpl) : (outOfOrder src c m).freeN = m.freeN := noHost_freeN (outOfOrder_noHost m src c)
@[simp] theorem outOfOrder_nv (src : SubSrc) (c : Cpl) : (outOfOrder src c m).nv = m.nv := noHost_nv (outOfOrder_noHost m src c)
@[simp] theorem outOfOrder_cfg (src : SubSrc) (c : Cpl) : (outOfOrder src c m).cfg = m.cfg := noHost_cfg (outOfOrder_noHost m src c)
@[simp] theorem outOfOrder_tm (src : SubSrc) (c : Cpl) : (outOfOrder src c m).tm = m.tm := noHost_tm (outOfOrder_noHost m src c)
@[simp] theorem outOfOrder_ln (src : SubSrc) (c : Cpl) : (outOfOrder src c m).ln = m.ln := noHost_ln (outOfOrder_noHost m src c)
@[simp] theorem outOfOrder_md (src : SubSrc) (c : Cpl) : (outOfOrder src c m).md = m.md := noHost_md (outOfOrder_noHost m src c)
@[simp] theorem outOfOrder_pw (src : SubSrc) (c : Cpl) : (outOfOrder src c m).pw = m.pw := noHost_pw (outOfOrder_noHost m src c)
@[simp] theorem outOfOrder_lg (src : SubSrc) (c : Cpl) : (outOfOrder src c m).lg = m.lg := noHost_lg (outOfOrder_noHost m src c)
@[simp] theorem outOfOrder_cur (src : SubSrc) (c : Cpl) : (outOfOrder src c m).cur = m.cur := noHost_cur (outOfOrder_noHost m src c)
@[simp] theorem outOfOrder_nxt (src : SubSrc) (c : Cpl) : (outOfOrder src c m).nxt = m.nxt := noHost_nxt (outOfOrder_noHost m src c)
@[simp] theorem outOfOrder_en (src : SubSrc) (c : Cpl) : (outOfOrder src c m).en = m.en := noHost_en (outOfOrder_noHost m src c)
@[simp] theorem outOfOrder_fio (src : SubSrc) (c : Cpl) : (outOfOrder src c m).fio = m.fio := noHost_fio (outOfOrder_noHost m src c)
@[simp] theorem outOfOrder_bt (src : SubSrc) (c : Cpl) : (outOfOrder src c m).bt = m.bt := noHost_bt (outOfOrder_noHost m src c)
@[simp] theorem outOfOrder_str (src : SubSrc) (c : Cpl) : (outOfOrder src c m).str = m.str := noHost_str (outOfOrder_noHost m src c)
@[simp] theorem outOfOrder_can (src : SubSrc) (c : Cpl) : (outOfOrder src c m).can = m.can := noHost_can (outOfOrder_noHost m src c)
@[simp] theorem outOfOrder_net (src : SubSrc) (c : Cpl) : (outOfOrder src c m).net = m.net := noHost_net (outOfOrder_noHost m src c)
@[simp] theorem outOfOrder_rcd (src : SubSrc) (c : Cpl) : (outOfOrder src c m).rcd = m.rcd := noHost_rcd (outOfOrder_noHost m src c)
@[simp] theorem outOfOrder_rc (src : SubSrc) (c : Cpl) : (outOfOrder src c m).rc = m.rc := noHost_rc (outOfOrder_noHost m src c)
@[simp] theorem outOfOrder_pc (src : SubSrc) (c : Cpl) : (outOfOrder src c m).pc = m.pc := noHost_pc (outOfOrder_noHost m src c)
@[simp] theorem outOfOrder_up (src : SubSrc) (c : Cpl) : (outOfOrder src c m).up = m.up := noHost_up (outOfOrder_noHost m src c)
@[simp] theorem outOfOrder_sec (src : SubSrc) (c : Cpl) : (outOfOrder src c m).sec = m.sec := noHost_sec (outOfOrder_noHost m src c)
@[simp] theorem outOfOrder_pr (src : SubSrc) (c : Cpl) : (outOfOrder src c m).pr = m.pr := noHost_pr (outOfOrder_noHost m src c)
@[simp] theorem outOfOrder_stateOut (src : SubSrc) (c : Cpl) : (outOfOrder src c m).stateOut = m.stateOut := noHost_stateOut (outOfOrder_noHost m src c)

@[simp] theorem waitCpl_noHost (src : SubSrc) (c : Cpl) : (waitCpl src c m).noHost = m.noHost := rfl
@[simp] theorem waitCpl_noHR (src : SubSrc) (c : Cpl) : (waitCpl src c m).noHR = m.noHR := noHost_noHR (waitCpl_noHost m src c)
@[simp] theorem waitCpl_noHP (src : SubSrc) (c : Cpl) : (waitCpl src c m).noHP = m.noHP := noHost_noHP (waitCpl_noHost m src c)
@[simp] theorem waitCpl_powered (src : SubSrc) (c : Cpl) : (waitCpl src c m).powered = m.powered := noHost_powered (waitCpl_noHost m src c)
@[simp] theorem waitCpl_clk (src : SubSrc) (c : Cpl) : (waitCpl src c m).clk = m.clk := noHost_clk (waitCpl_noHost m src c)
@[simp] theorem waitCpl_freeN (src : SubSrc) (c : Cpl) : (waitCpl src c m).freeN = m.freeN := noHost_freeN (waitCpl_noHost m src c)
@[simp] theorem waitCpl_nv (src : SubSrc) (c : Cpl) : (waitCpl src c m).nv = m.nv := noHost_nv (waitCpl_noHost m src c)
@[simp] theorem waitCpl_cfg (src : SubSrc) (c : Cpl) : (waitCpl src c m).cfg = m.cfg := noHost_cfg (waitCpl_noHost m src c)
@[simp] theorem waitCpl_tm (src : SubSrc) (c : Cpl) : (waitCpl src c m).tm = m.tm := noHost_tm (waitCpl_noHost m src c)
@[simp] theorem waitCpl_ln (src : SubSrc) (c : Cpl) : (waitCpl src c m).ln = m.ln := noHost_ln (waitCpl_noHost m src c)
@[simp] theorem waitCpl_md (src : SubSrc) (c : Cpl) : (waitCpl src c m).md = m.md := noHost_md (waitCpl_noHost m src c)
@[simp] theorem waitCpl_pw (src : SubSrc) (c : Cpl) : (waitCpl src c m).pw = m.pw := noHost_pw (waitCpl_noHost m src c)
@[simp] theorem waitCpl_lg (src : SubSrc) (c : Cpl) : (waitCpl src c m).lg = m.lg := noHost_lg (waitCpl_noHost m src c)
@[simp] theorem waitCpl_cur (src : SubSrc) (c : Cpl) : (waitCpl src c m).cur = m.cur := noHost_cur (waitCpl_noHost m src c)
@[simp] theorem waitCpl_nxt (src : SubSrc) (c : Cpl) : (waitCpl src c m).nxt = m.nxt := noHost_nxt (waitCpl_noHost m src c)
@[simp] theorem waitCpl_en (src : SubSrc) (c : Cpl) : (waitCpl src c m).en = m.en := noHost_en (waitCpl_noHost m src c)
@[simp] theorem waitCpl_fio (src : SubSrc) (c : Cpl) : (waitCpl src c m).fio = m.fio := noHost_fio (waitCpl_noHost m src c)
@[simp] theorem waitCpl_bt (src : SubSrc) (c : Cpl) : (waitCpl src c m).bt = m.bt := noHost_bt (waitCpl_noHost m src c)
@[simp] theorem waitCpl_str (src : SubSrc) (c : Cpl) : (waitCpl src c m).str = m.str := noHost_str (waitCpl_noHost m src c)
@[simp] theorem waitCpl_can (src : SubSrc) (c : Cpl) : (waitCpl src c m).can = m.can := noHost_can (waitCpl_noHost m src c)
@[simp] theorem waitCpl_net (src : SubSrc) (c : Cpl) : (waitCpl src c m).net = m.net := noHost_net (waitCpl_noHost m src c)
@[simp] theorem waitCpl_rcd (src : SubSrc) (c : Cpl) : (waitCpl src c m).rcd = m.rcd := noHost_rcd (waitCpl_noHost m src c)
@[simp] theorem waitCpl_rc (src : SubSrc) (c : Cpl) : (waitCpl src c m).rc = m.rc := noHost_rc (waitCpl_noHost m src c)
@[simp] theorem waitCpl_pc (src : SubSrc) (c : Cpl) : (waitCpl src c m).pc = m.pc := noHost_pc (waitCpl_noHost m src c)
@[simp] theorem waitCpl_up (src : SubSrc) (c : Cpl) : (waitCpl src c m).up = m.up := noHost_up (waitCpl_noHost m src c)
@[simp] theorem waitCpl_sec (src : SubSrc) (c : Cpl) : (waitCpl src c m).sec = m.sec := noHost_sec (waitCpl_noHost m src c)
@[simp] theorem waitCpl_pr (src : SubSrc) (c : Cpl) : (waitCpl src c m).pr = m.pr := noHost_pr (waitCpl_noHost m src c)
@[simp] theorem waitCpl_stateOut (src : SubSrc) (c : Cpl) : (waitCpl src c m).stateOut = m.stateOut := noHost_stateOut (waitCpl_noHost m src c)

@[simp] theorem noteCanCpl_noHP (sq : Nat) (c : Cpl) (n : W32) : (noteCanCpl sq c n m).noHP = m.noHP := by
  unfold noteCanCpl; split <;> rfl
@[simp] theorem noteCanCpl_powered (sq : Nat) (c : Cpl) (n : W32) : (noteCanCpl sq c n m).powered = m.powered := noHP_powered (noteCanCpl_noHP m sq c n)
@[simp] theorem noteCanCpl_clk (sq : Nat) (c : Cpl) (n : W32) : (noteCanCpl sq c n m).clk = m.clk := noHP_clk (noteCanCpl_noHP m sq c n)
@[simp] theorem noteCanCpl_freeN (sq : Nat) (c : Cpl) (n : W32) : (noteCanCpl sq c n m).freeN = m.freeN := noHP_freeN (noteCanCpl_noHP m sq c n)
@[simp] theorem noteCanCpl_nv (sq : Nat) (c : Cpl) (n : W32) : (noteCanCpl sq c n m).nv = m.nv := noHP_nv (noteCanCpl_noHP m sq c n)
@[simp] theorem noteCanCpl_cfg (sq : Nat) (c : Cpl) (n : W32) : (noteCanCpl sq c n m).cfg = m.cfg := noHP_cfg (noteCanCpl_noHP m sq c n)
@[simp] theorem noteCanCpl_tm (sq : Nat) (c : Cpl) (n : W32) : (noteCanCpl sq c n m).tm = m.tm := noHP_tm (noteCanCpl_noHP m sq c n)
@[simp] theorem noteCanCpl_ln (sq : Nat) (c : Cpl) (n : W32) : (noteCanCpl sq c n m).ln = m.ln := noHP_ln (noteCanCpl_noHP m sq c n)
@[simp] theorem noteCanCpl_md (sq : Nat) (c : Cpl) (n : W32) : (noteCanCpl sq c n m).md = m.md := noHP_md (noteCanCpl_noHP m sq c n)
@[simp] theorem noteCanCpl_pw (sq : Nat) (c : Cpl) (n : W32) : (noteCanCpl sq c n m).pw = m.pw := noHP_pw (noteCanCpl_noHP m sq c n)
@[simp] theorem noteCanCpl_lg (sq : Nat) (c : Cpl) (n : W32) : (noteCanCpl sq c n m).lg = m.lg := noHP_lg (noteCanCpl_noHP m sq c n)
@[simp] theorem noteCanCpl_cur (sq : Nat) (c : Cpl) (n : W32) : (noteCanCpl sq c n m).cur = m.cur := noHP_cur (noteCanCpl_noHP m sq c n)
@[simp] theorem noteCanCpl_nxt (sq : Nat) (c : Cpl) (n : W32) : (noteCanCpl sq c n m).nxt = m.nxt := noHP_nxt (noteCanCpl_noHP m sq c n)
@[simp] theorem noteCanCpl_en (sq : Nat) (c : Cpl) (n : W32) : (noteCanCpl sq c n m).en = m.en := noHP_en (noteCanCpl_noHP m sq c n)
@[simp] theorem noteCanCpl_fio (sq : Nat) (c : Cpl) (n : W32) : (noteCanCpl sq c n m).fio = m.fio := noHP_fio (noteCanCpl_noHP m sq c n)
@[simp] theorem noteCanCpl_bt (sq : Nat) (c : Cpl) (n : W32) : (noteCanCpl sq c n m).bt = m.bt := noHP_bt (noteCanCpl_noHP m sq c n)
@[simp] theorem noteCanCpl_str (sq : Nat) (c : Cpl) (n : W32) : (noteCanCpl sq c n m).str = m.str := noHP_str (noteCanCpl_noHP m sq c n)
@[simp] theorem noteCanCpl_net (sq : Nat) (c : Cpl) (n : W32) : (noteCanCpl sq c n m).net = m.net := noHP_net (noteCanCpl_noHP m sq c n)
@[simp] theorem noteCanCpl_rcd (sq : Nat) (c : Cpl) (n : W32) : (noteCanCpl sq c n m).rcd = m.rcd := noHP_rcd (noteCanCpl_noHP m sq c n)
@[simp] theorem noteCanCpl_rc (sq : Nat) (c : Cpl) (n : W32) : (noteCanCpl sq c n m).rc = m.rc := noHP_rc (noteCanCpl_noHP m sq c n)
@[simp] theorem noteCanCpl_pc (sq : Nat) (c : Cpl) (n : W32) : (noteCanCpl sq c n m).pc = m.pc := noHP_pc (noteCanCpl_noHP m sq c n)
@[simp] theorem noteCanCpl_up (sq : Nat) (c : Cpl) (n : W32) : (noteCanCpl sq c n m).up = m.up := noHP_up (noteCanCpl_noHP m sq c n)
@[simp] theorem noteCanCpl_sec (sq : Nat) (c : Cpl) (n : W32) : (noteCanCpl sq c n m).sec = m.sec := noHP_sec (noteCanCpl_noHP m sq c n)
@[simp] theorem noteCanCpl_stateOut (sq : Nat) (c : Cpl) (n : W32) : (noteCanCpl sq c n m).stateOut = m.stateOut := noHP_stateOut (noteCanCpl_noHP m sq c n)

@[simp] theorem writeCpl_noHP (src : SubSrc) (c : Cpl) : (writeCpl src c m).noHP = m.noHP := by
  unfold writeCpl; split
  · simp
  · (repeat' split) <;> simp
  · dsimp only; (repeat' split) <;> simp
@[simp] theorem writeCpl_powered (src : SubSrc) (c : Cpl) : (writeCpl src c m).powered = m.powered := noHP_powered (writeCpl_noHP m src c)
@[simp] theorem writeCpl_clk (src : SubSrc) (c : Cpl) : (writeCpl src c m).clk = m.clk := noHP_clk (writeCpl_noHP m src c)
@[simp] theorem writeCpl_freeN (src : SubSrc) (c : Cpl) : (writeCpl src c m).freeN = m.freeN := noHP_freeN (writeCpl_noHP m src c)
@[simp] theorem writeCpl_nv (src : SubSrc) (c : Cpl) : (writeCpl src c m).nv = m.nv := noHP_nv (writeCpl_noHP m src c)
@[simp] theorem writeCpl_cfg (src : SubSrc) (c : Cpl) : (writeCpl src c m).cfg = m.cfg := noHP_cfg (writeCpl_noHP m src c)
@[simp] theorem writeCpl_tm (src : SubSrc) (c : Cpl) : (writeCpl src c m).tm = m.tm := noHP_tm (writeCpl_noHP m src c)
@[simp] theorem writeCpl_ln (src : SubSrc) (c : Cpl) : (writeCpl src c m).ln = m.ln := noHP_ln (writeCpl_noHP m src c)
@[simp] theorem writeCpl_md (src : SubSrc) (c : Cpl) : (writeCpl src c m).md = m.md := noHP_md (writeCpl_noHP m src c)
@[simp] theorem writeCpl_pw (src : SubSrc) (c : Cpl) : (writeCpl src c m).pw = m.pw := noHP_pw (writeCpl_noHP m src c)
@[simp] theorem writeCpl_lg (src : SubSrc) (c : Cpl) : (writeCpl src c m).lg = m.lg := noHP_lg (writeCpl_noHP m src c)
@[simp] theorem writeCpl_cur (src : SubSrc) (c : Cpl) : (writeCpl src c m).cur = m.cur := noHP_cur (writeCpl_noHP m src c)
@[simp] theorem writeCpl_nxt (src : SubSrc) (c : Cpl) : (writeCpl src c m).nxt = m.nxt := noHP_nxt (writeCpl_noHP m src c)
@[simp] theorem writeCpl_en (src : SubSrc) (c : Cpl) : (writeCpl src c m).en = m.en := noHP_en (writeCpl_noHP m src c)
@[simp] theorem writeCpl_fio (src : SubSrc) (c : Cpl) : (writeCpl src c m).fio = m.fio := noHP_fio (writeCpl_noHP m src c)
@[simp] theorem writeCpl_bt (src : SubSrc) (c : Cpl) : (writeCpl src c m).bt = m.bt := noHP_bt (writeCpl_noHP m src c)
@[simp] theorem writeCpl_str (src : SubSrc) (c : Cpl) : (writeCpl src c m).str = m.str := noHP_str (writeCpl_noHP m src c)
@[simp] theorem writeCpl_net (src : SubSrc) (c : Cpl) : (writeCpl src c m).net = m.net := noHP_net (writeCpl_noHP m src c)
@[simp] theorem writeCpl_rcd (src : SubSrc) (c : Cpl) : (writeCpl src c m).rcd = m.rcd := noHP_rcd (writeCpl_noHP m src c)
@[simp] theorem writeCpl_rc (src : SubSrc) (c : Cpl) : (writeCpl src c m).rc = m.rc := noHP_rc (writeCpl_noHP m src c)
@[simp] theorem writeCpl_pc (src : SubSrc) (c : Cpl) : (writeCpl src c m).pc = m.pc := noHP_pc (writeCpl_noHP m src c)
@[simp] theorem writeCpl_up (src : SubSrc) (c : Cpl) : (writeCpl src c m).up = m.up := noHP_up (writeCpl_noHP m src c)
@[simp] theorem writeCpl_sec (src : SubSrc) (c : Cpl) : (writeCpl src c m).sec = m.sec := noHP_sec (writeCpl_noHP m src c)
@[simp] theorem writeCpl_stateOut (src : SubSrc) (c : Cpl) : (writeCpl src c m).stateOut = m.stateOut := noHP_stateOut (writeCpl_noHP m src c)

@[simp] theorem completeWith_noHP (a : Accepted) (c : Cpl) : (completeWith a c m).noHP = m.noHP := by
  unfold completeWith; split
  · split <;> simp
  · rfl
@[simp] theorem completeWith_powered (a : Accepted) (c : Cpl) : (completeWith a c m).powered = m.powered := noHP_powered (completeWith_noHP m a c)
@[simp] theorem completeWith_clk (a : Accepted) (c : Cpl) : (completeWith a c m).clk = m.clk := noHP_clk (completeWith_noHP m a c)
@[simp] theorem completeWith_freeN (a : Accepted) (c : Cpl) : (completeWith a c m).freeN = m.freeN := noHP_freeN (completeWith_noHP m a c)
@[simp] theorem completeWith_nv (a : Accepted) (c : Cpl) : (completeWith a c m).nv = m.nv := noHP_nv (completeWith_noHP m a c)
@[simp] theorem completeWith_cfg (a : Accepted) (c : Cpl) : (completeWith a c m).cfg = m.cfg := noHP_cfg (completeWith_noHP m a c)
@[simp] theorem completeWith_tm (a : Accepted) (c : Cpl) : (completeWith a c m).tm = m.tm := noHP_tm (completeWith_noHP m a c)
@[simp] theorem completeWith_ln (a : Accepted) (c : Cpl) : (completeWith a c m).ln = m.ln := noHP_ln (completeWith_noHP m a c)
@[simp] theorem completeWith_md (a : Accepted) (c : Cpl) : (completeWith a c m).md = m.md := noHP_md (completeWith_noHP m a c)
@[simp] theorem completeWith_pw (a : Accepted) (c : Cpl) : (completeWith a c m).pw = m.pw := noHP_pw (completeWith_noHP m a c)
@[simp] theorem completeWith_lg (a : Accepted) (c : Cpl) : (completeWith a c m).lg = m.lg := noHP_lg (completeWith_noHP m a c)
@[simp] theorem completeWith_cur (a : Accepted) (c : Cpl) : (completeWith a c m).cur = m.cur := noHP_cur (completeWith_noHP m a c)
@[simp] theorem completeWith_nxt (a : Accepted) (c : Cpl) : (completeWith a c m).nxt = m.nxt := noHP_nxt (completeWith_noHP m a c)
@[simp] theorem completeWith_en (a : Accepted) (c : Cpl) : (completeWith a c m).en = m.en := noHP_en (completeWith_noHP m a c)
@[simp] theorem completeWith_fio (a : Accepted) (c : Cpl) : (completeWith a c m).fio = m.fio := noHP_fio (completeWith_noHP m a c)
@[simp] theorem completeWith_bt (a : Accepted) (c : Cpl) : (completeWith a c m).bt = m.bt := noHP_bt (completeWith_noHP m a c)
@[simp] theorem completeWith_str (a : Accepted) (c : Cpl) : (completeWith a c m).str = m.str := noHP_str (completeWith_noHP m a c)
@[simp] theorem completeWith_net (a : Accepted) (c : Cpl) : (completeWith a c m).net = m.net := noHP_net (completeWith_noHP m a c)
@[simp] theorem completeWith_rcd (a : Accepted) (c : Cpl) : (completeWith a c m).rcd = m.rcd := noHP_rcd (completeWith_noHP m a c)
@[simp] theorem completeWith_rc (a : Accepted) (c : Cpl) : (completeWith a c m).rc = m.rc := noHP_rc (completeWith_noHP m a c)
@[simp] theorem completeWith_pc (a : Accepted) (c : Cpl) : (completeWith a c m).pc = m.pc := noHP_pc (completeWith_noHP m a c)
@[simp] theorem completeWith_up (a : Accepted) (c : Cpl) : (completeWith a c m).up = m.up := noHP_up (completeWith_noHP m a c)
@[simp] theorem completeWith_sec (a : Accepted) (c : Cpl) : (completeWith a c m).sec = m.sec := noHP_sec (completeWith_noHP m a c)
@[simp] theorem completeWith_stateOut (a : Accepted) (c : Cpl) : (completeWith a c m).stateOut = m.stateOut := noHP_stateOut (completeWith_noHP m a c)

@[simp] theorem complete_noHP (a : Accepted) (code detail : Nat) : (complete a code detail m).noHP = m.noHP := completeWith_noHP m a _
@[simp] theorem complete_powered (a : Accepted) (code detail : Nat) : (complete a code detail m).powered = m.powered := noHP_powered (complete_noHP m a code detail)
@[simp] theorem complete_clk (a : Accepted) (code detail : Nat) : (complete a code detail m).clk = m.clk := noHP_clk (complete_noHP m a code detail)
@[simp] theorem complete_freeN (a : Accepted) (code detail : Nat) : (complete a code detail m).freeN = m.freeN := noHP_freeN (complete_noHP m a code detail)
@[simp] theorem complete_nv (a : Accepted) (code detail : Nat) : (complete a code detail m).nv = m.nv := noHP_nv (complete_noHP m a code detail)
@[simp] theorem complete_cfg (a : Accepted) (code detail : Nat) : (complete a code detail m).cfg = m.cfg := noHP_cfg (complete_noHP m a code detail)
@[simp] theorem complete_tm (a : Accepted) (code detail : Nat) : (complete a code detail m).tm = m.tm := noHP_tm (complete_noHP m a code detail)
@[simp] theorem complete_ln (a : Accepted) (code detail : Nat) : (complete a code detail m).ln = m.ln := noHP_ln (complete_noHP m a code detail)
@[simp] theorem complete_md (a : Accepted) (code detail : Nat) : (complete a code detail m).md = m.md := noHP_md (complete_noHP m a code detail)
@[simp] theorem complete_pw (a : Accepted) (code detail : Nat) : (complete a code detail m).pw = m.pw := noHP_pw (complete_noHP m a code detail)
@[simp] theorem complete_lg (a : Accepted) (code detail : Nat) : (complete a code detail m).lg = m.lg := noHP_lg (complete_noHP m a code detail)
@[simp] theorem complete_cur (a : Accepted) (code detail : Nat) : (complete a code detail m).cur = m.cur := noHP_cur (complete_noHP m a code detail)
@[simp] theorem complete_nxt (a : Accepted) (code detail : Nat) : (complete a code detail m).nxt = m.nxt := noHP_nxt (complete_noHP m a code detail)
@[simp] theorem complete_en (a : Accepted) (code detail : Nat) : (complete a code detail m).en = m.en := noHP_en (complete_noHP m a code detail)
@[simp] theorem complete_fio (a : Accepted) (code detail : Nat) : (complete a code detail m).fio = m.fio := noHP_fio (complete_noHP m a code detail)
@[simp] theorem complete_bt (a : Accepted) (code detail : Nat) : (complete a code detail m).bt = m.bt := noHP_bt (complete_noHP m a code detail)
@[simp] theorem complete_str (a : Accepted) (code detail : Nat) : (complete a code detail m).str = m.str := noHP_str (complete_noHP m a code detail)
@[simp] theorem complete_net (a : Accepted) (code detail : Nat) : (complete a code detail m).net = m.net := noHP_net (complete_noHP m a code detail)
@[simp] theorem complete_rcd (a : Accepted) (code detail : Nat) : (complete a code detail m).rcd = m.rcd := noHP_rcd (complete_noHP m a code detail)
@[simp] theorem complete_rc (a : Accepted) (code detail : Nat) : (complete a code detail m).rc = m.rc := noHP_rc (complete_noHP m a code detail)
@[simp] theorem complete_pc (a : Accepted) (code detail : Nat) : (complete a code detail m).pc = m.pc := noHP_pc (complete_noHP m a code detail)
@[simp] theorem complete_up (a : Accepted) (code detail : Nat) : (complete a code detail m).up = m.up := noHP_up (complete_noHP m a code detail)
@[simp] theorem complete_sec (a : Accepted) (code detail : Nat) : (complete a code detail m).sec = m.sec := noHP_sec (complete_noHP m a code detail)
@[simp] theorem complete_stateOut (a : Accepted) (code detail : Nat) : (complete a code detail m).stateOut = m.stateOut := noHP_stateOut (complete_noHP m a code detail)

@[simp] theorem completeNow_noHP (a : Accepted) (code detail : Nat) : (completeNow a code detail m).noHP = m.noHP := by
  unfold completeNow; split
  · simp
  · rfl
@[simp] theorem completeNow_powered (a : Accepted) (code detail : Nat) : (completeNow a code detail m).powered = m.powered := noHP_powered (completeNow_noHP m a code detail)
@[simp] theorem completeNow_clk (a : Accepted) (code detail : Nat) : (completeNow a code detail m).clk = m.clk := noHP_clk (completeNow_noHP m a code detail)
@[simp] theorem completeNow_freeN (a : Accepted) (code detail : Nat) : (completeNow a code detail m).freeN = m.freeN := noHP_freeN (completeNow_noHP m a code detail)
@[simp] theorem completeNow_nv (a : Accepted) (code detail : Nat) : (completeNow a code detail m).nv = m.nv := noHP_nv (completeNow_noHP m a code detail)
@[simp] theorem completeNow_cfg (a : Accepted) (code detail : Nat) : (completeNow a code detail m).cfg = m.cfg := noHP_cfg (completeNow_noHP m a code detail)
@[simp] theorem completeNow_tm (a : Accepted) (code detail : Nat) : (completeNow a code detail m).tm = m.tm := noHP_tm (completeNow_noHP m a code detail)
@[simp] theorem completeNow_ln (a : Accepted) (code detail : Nat) : (completeNow a code detail m).ln = m.ln := noHP_ln (completeNow_noHP m a code detail)
@[simp] theorem completeNow_md (a : Accepted) (code detail : Nat) : (completeNow a code detail m).md = m.md := noHP_md (completeNow_noHP m a code detail)
@[simp] theorem completeNow_pw (a : Accepted) (code detail : Nat) : (completeNow a code detail m).pw = m.pw := noHP_pw (completeNow_noHP m a code detail)
@[simp] theorem completeNow_lg (a : Accepted) (code detail : Nat) : (completeNow a code detail m).lg = m.lg := noHP_lg (completeNow_noHP m a code detail)
@[simp] theorem completeNow_cur (a : Accepted) (code detail : Nat) : (completeNow a code detail m).cur = m.cur := noHP_cur (completeNow_noHP m a code detail)
@[simp] theorem completeNow_nxt (a : Accepted) (code detail : Nat) : (completeNow a code detail m).nxt = m.nxt := noHP_nxt (completeNow_noHP m a code detail)
@[simp] theorem completeNow_en (a : Accepted) (code detail : Nat) : (completeNow a code detail m).en = m.en := noHP_en (completeNow_noHP m a code detail)
@[simp] theorem completeNow_fio (a : Accepted) (code detail : Nat) : (completeNow a code detail m).fio = m.fio := noHP_fio (completeNow_noHP m a code detail)
@[simp] theorem completeNow_bt (a : Accepted) (code detail : Nat) : (completeNow a code detail m).bt = m.bt := noHP_bt (completeNow_noHP m a code detail)
@[simp] theorem completeNow_str (a : Accepted) (code detail : Nat) : (completeNow a code detail m).str = m.str := noHP_str (completeNow_noHP m a code detail)
@[simp] theorem completeNow_net (a : Accepted) (code detail : Nat) : (completeNow a code detail m).net = m.net := noHP_net (completeNow_noHP m a code detail)
@[simp] theorem completeNow_rcd (a : Accepted) (code detail : Nat) : (completeNow a code detail m).rcd = m.rcd := noHP_rcd (completeNow_noHP m a code detail)
@[simp] theorem completeNow_rc (a : Accepted) (code detail : Nat) : (completeNow a code detail m).rc = m.rc := noHP_rc (completeNow_noHP m a code detail)
@[simp] theorem completeNow_pc (a : Accepted) (code detail : Nat) : (completeNow a code detail m).pc = m.pc := noHP_pc (completeNow_noHP m a code detail)
@[simp] theorem completeNow_up (a : Accepted) (code detail : Nat) : (completeNow a code detail m).up = m.up := noHP_up (completeNow_noHP m a code detail)
@[simp] theorem completeNow_sec (a : Accepted) (code detail : Nat) : (completeNow a code detail m).sec = m.sec := noHP_sec (completeNow_noHP m a code detail)
@[simp] theorem completeNow_stateOut (a : Accepted) (code detail : Nat) : (completeNow a code detail m).stateOut = m.stateOut := noHP_stateOut (completeNow_noHP m a code detail)

/-! What the lanes complete changes the host interface alone. -/

theorem complete_noHost (a : Accepted) (code detail : Nat) (h : feOnly a.opc = false) : (complete a code detail m).noHost = m.noHost := by
  unfold complete completeWith; split
  · simp [h]
  · rfl

@[simp] theorem flushCpls_noHP : (flushCpls m).noHP = m.noHP := by
  refine (forEach_keeps _ Mod.noHP _ _ (fun p n => ?_)).trans rfl
  split <;> (repeat' split) <;> simp
@[simp] theorem flushCpls_powered : (flushCpls m).powered = m.powered := noHP_powered (flushCpls_noHP m)
@[simp] theorem flushCpls_clk : (flushCpls m).clk = m.clk := noHP_clk (flushCpls_noHP m)
@[simp] theorem flushCpls_freeN : (flushCpls m).freeN = m.freeN := noHP_freeN (flushCpls_noHP m)
@[simp] theorem flushCpls_nv : (flushCpls m).nv = m.nv := noHP_nv (flushCpls_noHP m)
@[simp] theorem flushCpls_cfg : (flushCpls m).cfg = m.cfg := noHP_cfg (flushCpls_noHP m)
@[simp] theorem flushCpls_tm : (flushCpls m).tm = m.tm := noHP_tm (flushCpls_noHP m)
@[simp] theorem flushCpls_ln : (flushCpls m).ln = m.ln := noHP_ln (flushCpls_noHP m)
@[simp] theorem flushCpls_md : (flushCpls m).md = m.md := noHP_md (flushCpls_noHP m)
@[simp] theorem flushCpls_pw : (flushCpls m).pw = m.pw := noHP_pw (flushCpls_noHP m)
@[simp] theorem flushCpls_lg : (flushCpls m).lg = m.lg := noHP_lg (flushCpls_noHP m)
@[simp] theorem flushCpls_cur : (flushCpls m).cur = m.cur := noHP_cur (flushCpls_noHP m)
@[simp] theorem flushCpls_nxt : (flushCpls m).nxt = m.nxt := noHP_nxt (flushCpls_noHP m)
@[simp] theorem flushCpls_en : (flushCpls m).en = m.en := noHP_en (flushCpls_noHP m)
@[simp] theorem flushCpls_fio : (flushCpls m).fio = m.fio := noHP_fio (flushCpls_noHP m)
@[simp] theorem flushCpls_bt : (flushCpls m).bt = m.bt := noHP_bt (flushCpls_noHP m)
@[simp] theorem flushCpls_str : (flushCpls m).str = m.str := noHP_str (flushCpls_noHP m)
@[simp] theorem flushCpls_net : (flushCpls m).net = m.net := noHP_net (flushCpls_noHP m)
@[simp] theorem flushCpls_rcd : (flushCpls m).rcd = m.rcd := noHP_rcd (flushCpls_noHP m)
@[simp] theorem flushCpls_rc : (flushCpls m).rc = m.rc := noHP_rc (flushCpls_noHP m)
@[simp] theorem flushCpls_pc : (flushCpls m).pc = m.pc := noHP_pc (flushCpls_noHP m)
@[simp] theorem flushCpls_up : (flushCpls m).up = m.up := noHP_up (flushCpls_noHP m)
@[simp] theorem flushCpls_sec : (flushCpls m).sec = m.sec := noHP_sec (flushCpls_noHP m)
@[simp] theorem flushCpls_stateOut : (flushCpls m).stateOut = m.stateOut := noHP_stateOut (flushCpls_noHP m)

@[simp] theorem pcEvent_noLn (l : LaneId) (code : Nat) : (pcEvent l code m).noLn = m.noLn := rfl
@[simp] theorem pcEvent_powered (l : LaneId) (code : Nat) : (pcEvent l code m).powered = m.powered := noLn_powered (pcEvent_noLn m l code)
@[simp] theorem pcEvent_clk (l : LaneId) (code : Nat) : (pcEvent l code m).clk = m.clk := noLn_clk (pcEvent_noLn m l code)
@[simp] theorem pcEvent_freeN (l : LaneId) (code : Nat) : (pcEvent l code m).freeN = m.freeN := noLn_freeN (pcEvent_noLn m l code)
@[simp] theorem pcEvent_nv (l : LaneId) (code : Nat) : (pcEvent l code m).nv = m.nv := noLn_nv (pcEvent_noLn m l code)
@[simp] theorem pcEvent_cfg (l : LaneId) (code : Nat) : (pcEvent l code m).cfg = m.cfg := noLn_cfg (pcEvent_noLn m l code)
@[simp] theorem pcEvent_tm (l : LaneId) (code : Nat) : (pcEvent l code m).tm = m.tm := noLn_tm (pcEvent_noLn m l code)
@[simp] theorem pcEvent_md (l : LaneId) (code : Nat) : (pcEvent l code m).md = m.md := noLn_md (pcEvent_noLn m l code)
@[simp] theorem pcEvent_pw (l : LaneId) (code : Nat) : (pcEvent l code m).pw = m.pw := noLn_pw (pcEvent_noLn m l code)
@[simp] theorem pcEvent_lg (l : LaneId) (code : Nat) : (pcEvent l code m).lg = m.lg := noLn_lg (pcEvent_noLn m l code)
@[simp] theorem pcEvent_cur (l : LaneId) (code : Nat) : (pcEvent l code m).cur = m.cur := noLn_cur (pcEvent_noLn m l code)
@[simp] theorem pcEvent_nxt (l : LaneId) (code : Nat) : (pcEvent l code m).nxt = m.nxt := noLn_nxt (pcEvent_noLn m l code)
@[simp] theorem pcEvent_en (l : LaneId) (code : Nat) : (pcEvent l code m).en = m.en := noLn_en (pcEvent_noLn m l code)
@[simp] theorem pcEvent_fio (l : LaneId) (code : Nat) : (pcEvent l code m).fio = m.fio := noLn_fio (pcEvent_noLn m l code)
@[simp] theorem pcEvent_bt (l : LaneId) (code : Nat) : (pcEvent l code m).bt = m.bt := noLn_bt (pcEvent_noLn m l code)
@[simp] theorem pcEvent_str (l : LaneId) (code : Nat) : (pcEvent l code m).str = m.str := noLn_str (pcEvent_noLn m l code)
@[simp] theorem pcEvent_can (l : LaneId) (code : Nat) : (pcEvent l code m).can = m.can := noLn_can (pcEvent_noLn m l code)
@[simp] theorem pcEvent_net (l : LaneId) (code : Nat) : (pcEvent l code m).net = m.net := noLn_net (pcEvent_noLn m l code)
@[simp] theorem pcEvent_host (l : LaneId) (code : Nat) : (pcEvent l code m).host = m.host := noLn_host (pcEvent_noLn m l code)
@[simp] theorem pcEvent_rcd (l : LaneId) (code : Nat) : (pcEvent l code m).rcd = m.rcd := noLn_rcd (pcEvent_noLn m l code)
@[simp] theorem pcEvent_rc (l : LaneId) (code : Nat) : (pcEvent l code m).rc = m.rc := noLn_rc (pcEvent_noLn m l code)
@[simp] theorem pcEvent_pc (l : LaneId) (code : Nat) : (pcEvent l code m).pc = m.pc := noLn_pc (pcEvent_noLn m l code)
@[simp] theorem pcEvent_up (l : LaneId) (code : Nat) : (pcEvent l code m).up = m.up := noLn_up (pcEvent_noLn m l code)
@[simp] theorem pcEvent_sec (l : LaneId) (code : Nat) : (pcEvent l code m).sec = m.sec := noLn_sec (pcEvent_noLn m l code)
@[simp] theorem pcEvent_pr (l : LaneId) (code : Nat) : (pcEvent l code m).pr = m.pr := noLn_pr (pcEvent_noLn m l code)
@[simp] theorem pcEvent_stateOut (l : LaneId) (code : Nat) : (pcEvent l code m).stateOut = m.stateOut := noLn_stateOut (pcEvent_noLn m l code)

@[simp] theorem pcAll_noLn (code : Nat) : (pcAll code m).noLn = m.noLn := by
  unfold pcAll; split <;> rfl
@[simp] theorem pcAll_powered (code : Nat) : (pcAll code m).powered = m.powered := noLn_powered (pcAll_noLn m code)
@[simp] theorem pcAll_clk (code : Nat) : (pcAll code m).clk = m.clk := noLn_clk (pcAll_noLn m code)
@[simp] theorem pcAll_freeN (code : Nat) : (pcAll code m).freeN = m.freeN := noLn_freeN (pcAll_noLn m code)
@[simp] theorem pcAll_nv (code : Nat) : (pcAll code m).nv = m.nv := noLn_nv (pcAll_noLn m code)
@[simp] theorem pcAll_cfg (code : Nat) : (pcAll code m).cfg = m.cfg := noLn_cfg (pcAll_noLn m code)
@[simp] theorem pcAll_tm (code : Nat) : (pcAll code m).tm = m.tm := noLn_tm (pcAll_noLn m code)
@[simp] theorem pcAll_md (code : Nat) : (pcAll code m).md = m.md := noLn_md (pcAll_noLn m code)
@[simp] theorem pcAll_pw (code : Nat) : (pcAll code m).pw = m.pw := noLn_pw (pcAll_noLn m code)
@[simp] theorem pcAll_lg (code : Nat) : (pcAll code m).lg = m.lg := noLn_lg (pcAll_noLn m code)
@[simp] theorem pcAll_cur (code : Nat) : (pcAll code m).cur = m.cur := noLn_cur (pcAll_noLn m code)
@[simp] theorem pcAll_nxt (code : Nat) : (pcAll code m).nxt = m.nxt := noLn_nxt (pcAll_noLn m code)
@[simp] theorem pcAll_en (code : Nat) : (pcAll code m).en = m.en := noLn_en (pcAll_noLn m code)
@[simp] theorem pcAll_fio (code : Nat) : (pcAll code m).fio = m.fio := noLn_fio (pcAll_noLn m code)
@[simp] theorem pcAll_bt (code : Nat) : (pcAll code m).bt = m.bt := noLn_bt (pcAll_noLn m code)
@[simp] theorem pcAll_str (code : Nat) : (pcAll code m).str = m.str := noLn_str (pcAll_noLn m code)
@[simp] theorem pcAll_can (code : Nat) : (pcAll code m).can = m.can := noLn_can (pcAll_noLn m code)
@[simp] theorem pcAll_net (code : Nat) : (pcAll code m).net = m.net := noLn_net (pcAll_noLn m code)
@[simp] theorem pcAll_host (code : Nat) : (pcAll code m).host = m.host := noLn_host (pcAll_noLn m code)
@[simp] theorem pcAll_rcd (code : Nat) : (pcAll code m).rcd = m.rcd := noLn_rcd (pcAll_noLn m code)
@[simp] theorem pcAll_rc (code : Nat) : (pcAll code m).rc = m.rc := noLn_rc (pcAll_noLn m code)
@[simp] theorem pcAll_pc (code : Nat) : (pcAll code m).pc = m.pc := noLn_pc (pcAll_noLn m code)
@[simp] theorem pcAll_up (code : Nat) : (pcAll code m).up = m.up := noLn_up (pcAll_noLn m code)
@[simp] theorem pcAll_sec (code : Nat) : (pcAll code m).sec = m.sec := noLn_sec (pcAll_noLn m code)
@[simp] theorem pcAll_pr (code : Nat) : (pcAll code m).pr = m.pr := noLn_pr (pcAll_noLn m code)
@[simp] theorem pcAll_stateOut (code : Nat) : (pcAll code m).stateOut = m.stateOut := noLn_stateOut (pcAll_noLn m code)

@[simp] theorem passCounters_noLf (d : Nat) (r : Int) : (passCounters d r m).noLf = m.noLf := by
  unfold passCounters; split <;> rfl
@[simp] theorem passCounters_noTime (d : Nat) (r : Int) : (passCounters d r m).noTime = m.noTime := noLf_noTime (passCounters_noLf m d r)
@[simp] theorem passCounters_powered (d : Nat) (r : Int) : (passCounters d r m).powered = m.powered := noLf_powered (passCounters_noLf m d r)
@[simp] theorem passCounters_clk (d : Nat) (r : Int) : (passCounters d r m).clk = m.clk := noLf_clk (passCounters_noLf m d r)
@[simp] theorem passCounters_nv (d : Nat) (r : Int) : (passCounters d r m).nv = m.nv := noLf_nv (passCounters_noLf m d r)
@[simp] theorem passCounters_cfg (d : Nat) (r : Int) : (passCounters d r m).cfg = m.cfg := noLf_cfg (passCounters_noLf m d r)
@[simp] theorem passCounters_tm (d : Nat) (r : Int) : (passCounters d r m).tm = m.tm := noLf_tm (passCounters_noLf m d r)
@[simp] theorem passCounters_md (d : Nat) (r : Int) : (passCounters d r m).md = m.md := noLf_md (passCounters_noLf m d r)
@[simp] theorem passCounters_pw (d : Nat) (r : Int) : (passCounters d r m).pw = m.pw := noLf_pw (passCounters_noLf m d r)
@[simp] theorem passCounters_lg (d : Nat) (r : Int) : (passCounters d r m).lg = m.lg := noLf_lg (passCounters_noLf m d r)
@[simp] theorem passCounters_cur (d : Nat) (r : Int) : (passCounters d r m).cur = m.cur := noLf_cur (passCounters_noLf m d r)
@[simp] theorem passCounters_nxt (d : Nat) (r : Int) : (passCounters d r m).nxt = m.nxt := noLf_nxt (passCounters_noLf m d r)
@[simp] theorem passCounters_en (d : Nat) (r : Int) : (passCounters d r m).en = m.en := noLf_en (passCounters_noLf m d r)
@[simp] theorem passCounters_fio (d : Nat) (r : Int) : (passCounters d r m).fio = m.fio := noLf_fio (passCounters_noLf m d r)
@[simp] theorem passCounters_bt (d : Nat) (r : Int) : (passCounters d r m).bt = m.bt := noLf_bt (passCounters_noLf m d r)
@[simp] theorem passCounters_str (d : Nat) (r : Int) : (passCounters d r m).str = m.str := noLf_str (passCounters_noLf m d r)
@[simp] theorem passCounters_can (d : Nat) (r : Int) : (passCounters d r m).can = m.can := noLf_can (passCounters_noLf m d r)
@[simp] theorem passCounters_net (d : Nat) (r : Int) : (passCounters d r m).net = m.net := noLf_net (passCounters_noLf m d r)
@[simp] theorem passCounters_host (d : Nat) (r : Int) : (passCounters d r m).host = m.host := noLf_host (passCounters_noLf m d r)
@[simp] theorem passCounters_rcd (d : Nat) (r : Int) : (passCounters d r m).rcd = m.rcd := noLf_rcd (passCounters_noLf m d r)
@[simp] theorem passCounters_rc (d : Nat) (r : Int) : (passCounters d r m).rc = m.rc := noLf_rc (passCounters_noLf m d r)
@[simp] theorem passCounters_pc (d : Nat) (r : Int) : (passCounters d r m).pc = m.pc := noLf_pc (passCounters_noLf m d r)
@[simp] theorem passCounters_up (d : Nat) (r : Int) : (passCounters d r m).up = m.up := noLf_up (passCounters_noLf m d r)
@[simp] theorem passCounters_sec (d : Nat) (r : Int) : (passCounters d r m).sec = m.sec := noLf_sec (passCounters_noLf m d r)
@[simp] theorem passCounters_pr (d : Nat) (r : Int) : (passCounters d r m).pr = m.pr := noLf_pr (passCounters_noLf m d r)
@[simp] theorem passCounters_stateOut (d : Nat) (r : Int) : (passCounters d r m).stateOut = m.stateOut := noLf_stateOut (passCounters_noLf m d r)

@[simp] theorem passTime_noTime (d : Nat) : (passTime d m).noTime = m.noTime := (show _ = (passCounters d _ m).noTime from rfl).trans (passCounters_noTime m d _)
@[simp] theorem passTime_noTimeMd (d : Nat) : (passTime d m).noTimeMd = m.noTimeMd := noTime_noTimeMd (passTime_noTime m d)
@[simp] theorem passTime_powered (d : Nat) : (passTime d m).powered = m.powered := noTime_powered (passTime_noTime m d)
@[simp] theorem passTime_nv (d : Nat) : (passTime d m).nv = m.nv := noTime_nv (passTime_noTime m d)
@[simp] theorem passTime_cfg (d : Nat) : (passTime d m).cfg = m.cfg := noTime_cfg (passTime_noTime m d)
@[simp] theorem passTime_tm (d : Nat) : (passTime d m).tm = m.tm := noTime_tm (passTime_noTime m d)
@[simp] theorem passTime_md (d : Nat) : (passTime d m).md = m.md := noTime_md (passTime_noTime m d)
@[simp] theorem passTime_pw (d : Nat) : (passTime d m).pw = m.pw := noTime_pw (passTime_noTime m d)
@[simp] theorem passTime_lg (d : Nat) : (passTime d m).lg = m.lg := noTime_lg (passTime_noTime m d)
@[simp] theorem passTime_cur (d : Nat) : (passTime d m).cur = m.cur := noTime_cur (passTime_noTime m d)
@[simp] theorem passTime_nxt (d : Nat) : (passTime d m).nxt = m.nxt := noTime_nxt (passTime_noTime m d)
@[simp] theorem passTime_en (d : Nat) : (passTime d m).en = m.en := noTime_en (passTime_noTime m d)
@[simp] theorem passTime_fio (d : Nat) : (passTime d m).fio = m.fio := noTime_fio (passTime_noTime m d)
@[simp] theorem passTime_bt (d : Nat) : (passTime d m).bt = m.bt := noTime_bt (passTime_noTime m d)
@[simp] theorem passTime_str (d : Nat) : (passTime d m).str = m.str := noTime_str (passTime_noTime m d)
@[simp] theorem passTime_can (d : Nat) : (passTime d m).can = m.can := noTime_can (passTime_noTime m d)
@[simp] theorem passTime_net (d : Nat) : (passTime d m).net = m.net := noTime_net (passTime_noTime m d)
@[simp] theorem passTime_host (d : Nat) : (passTime d m).host = m.host := noTime_host (passTime_noTime m d)
@[simp] theorem passTime_rcd (d : Nat) : (passTime d m).rcd = m.rcd := noTime_rcd (passTime_noTime m d)
@[simp] theorem passTime_rc (d : Nat) : (passTime d m).rc = m.rc := noTime_rc (passTime_noTime m d)
@[simp] theorem passTime_pc (d : Nat) : (passTime d m).pc = m.pc := noTime_pc (passTime_noTime m d)
@[simp] theorem passTime_up (d : Nat) : (passTime d m).up = m.up := noTime_up (passTime_noTime m d)
@[simp] theorem passTime_sec (d : Nat) : (passTime d m).sec = m.sec := noTime_sec (passTime_noTime m d)
@[simp] theorem passTime_pr (d : Nat) : (passTime d m).pr = m.pr := noTime_pr (passTime_noTime m d)
@[simp] theorem passTime_stateOut (d : Nat) : (passTime d m).stateOut = m.stateOut := noTime_stateOut (passTime_noTime m d)

@[simp] theorem passTo_noTime (t : Nat) : (passTo t m).noTime = m.noTime := passTime_noTime m _
@[simp] theorem passTo_noTimeMd (t : Nat) : (passTo t m).noTimeMd = m.noTimeMd := noTime_noTimeMd (passTo_noTime m t)
@[simp] theorem passTo_powered (t : Nat) : (passTo t m).powered = m.powered := noTime_powered (passTo_noTime m t)
@[simp] theorem passTo_nv (t : Nat) : (passTo t m).nv = m.nv := noTime_nv (passTo_noTime m t)
@[simp] theorem passTo_cfg (t : Nat) : (passTo t m).cfg = m.cfg := noTime_cfg (passTo_noTime m t)
@[simp] theorem passTo_tm (t : Nat) : (passTo t m).tm = m.tm := noTime_tm (passTo_noTime m t)
@[simp] theorem passTo_md (t : Nat) : (passTo t m).md = m.md := noTime_md (passTo_noTime m t)
@[simp] theorem passTo_pw (t : Nat) : (passTo t m).pw = m.pw := noTime_pw (passTo_noTime m t)
@[simp] theorem passTo_lg (t : Nat) : (passTo t m).lg = m.lg := noTime_lg (passTo_noTime m t)
@[simp] theorem passTo_cur (t : Nat) : (passTo t m).cur = m.cur := noTime_cur (passTo_noTime m t)
@[simp] theorem passTo_nxt (t : Nat) : (passTo t m).nxt = m.nxt := noTime_nxt (passTo_noTime m t)
@[simp] theorem passTo_en (t : Nat) : (passTo t m).en = m.en := noTime_en (passTo_noTime m t)
@[simp] theorem passTo_fio (t : Nat) : (passTo t m).fio = m.fio := noTime_fio (passTo_noTime m t)
@[simp] theorem passTo_bt (t : Nat) : (passTo t m).bt = m.bt := noTime_bt (passTo_noTime m t)
@[simp] theorem passTo_str (t : Nat) : (passTo t m).str = m.str := noTime_str (passTo_noTime m t)
@[simp] theorem passTo_can (t : Nat) : (passTo t m).can = m.can := noTime_can (passTo_noTime m t)
@[simp] theorem passTo_net (t : Nat) : (passTo t m).net = m.net := noTime_net (passTo_noTime m t)
@[simp] theorem passTo_host (t : Nat) : (passTo t m).host = m.host := noTime_host (passTo_noTime m t)
@[simp] theorem passTo_rcd (t : Nat) : (passTo t m).rcd = m.rcd := noTime_rcd (passTo_noTime m t)
@[simp] theorem passTo_rc (t : Nat) : (passTo t m).rc = m.rc := noTime_rc (passTo_noTime m t)
@[simp] theorem passTo_pc (t : Nat) : (passTo t m).pc = m.pc := noTime_pc (passTo_noTime m t)
@[simp] theorem passTo_up (t : Nat) : (passTo t m).up = m.up := noTime_up (passTo_noTime m t)
@[simp] theorem passTo_sec (t : Nat) : (passTo t m).sec = m.sec := noTime_sec (passTo_noTime m t)
@[simp] theorem passTo_pr (t : Nat) : (passTo t m).pr = m.pr := noTime_pr (passTo_noTime m t)
@[simp] theorem passTo_stateOut (t : Nat) : (passTo t m).stateOut = m.stateOut := noTime_stateOut (passTo_noTime m t)

@[simp] theorem passClk_noTime (t : Nat) : (passClk t m).noTime = m.noTime := passTime_noTime m _
@[simp] theorem passClk_noTimeMd (t : Nat) : (passClk t m).noTimeMd = m.noTimeMd := noTime_noTimeMd (passClk_noTime m t)
@[simp] theorem passClk_powered (t : Nat) : (passClk t m).powered = m.powered := noTime_powered (passClk_noTime m t)
@[simp] theorem passClk_nv (t : Nat) : (passClk t m).nv = m.nv := noTime_nv (passClk_noTime m t)
@[simp] theorem passClk_cfg (t : Nat) : (passClk t m).cfg = m.cfg := noTime_cfg (passClk_noTime m t)
@[simp] theorem passClk_tm (t : Nat) : (passClk t m).tm = m.tm := noTime_tm (passClk_noTime m t)
@[simp] theorem passClk_md (t : Nat) : (passClk t m).md = m.md := noTime_md (passClk_noTime m t)
@[simp] theorem passClk_pw (t : Nat) : (passClk t m).pw = m.pw := noTime_pw (passClk_noTime m t)
@[simp] theorem passClk_lg (t : Nat) : (passClk t m).lg = m.lg := noTime_lg (passClk_noTime m t)
@[simp] theorem passClk_cur (t : Nat) : (passClk t m).cur = m.cur := noTime_cur (passClk_noTime m t)
@[simp] theorem passClk_nxt (t : Nat) : (passClk t m).nxt = m.nxt := noTime_nxt (passClk_noTime m t)
@[simp] theorem passClk_en (t : Nat) : (passClk t m).en = m.en := noTime_en (passClk_noTime m t)
@[simp] theorem passClk_fio (t : Nat) : (passClk t m).fio = m.fio := noTime_fio (passClk_noTime m t)
@[simp] theorem passClk_bt (t : Nat) : (passClk t m).bt = m.bt := noTime_bt (passClk_noTime m t)
@[simp] theorem passClk_str (t : Nat) : (passClk t m).str = m.str := noTime_str (passClk_noTime m t)
@[simp] theorem passClk_can (t : Nat) : (passClk t m).can = m.can := noTime_can (passClk_noTime m t)
@[simp] theorem passClk_net (t : Nat) : (passClk t m).net = m.net := noTime_net (passClk_noTime m t)
@[simp] theorem passClk_host (t : Nat) : (passClk t m).host = m.host := noTime_host (passClk_noTime m t)
@[simp] theorem passClk_rcd (t : Nat) : (passClk t m).rcd = m.rcd := noTime_rcd (passClk_noTime m t)
@[simp] theorem passClk_rc (t : Nat) : (passClk t m).rc = m.rc := noTime_rc (passClk_noTime m t)
@[simp] theorem passClk_pc (t : Nat) : (passClk t m).pc = m.pc := noTime_pc (passClk_noTime m t)
@[simp] theorem passClk_up (t : Nat) : (passClk t m).up = m.up := noTime_up (passClk_noTime m t)
@[simp] theorem passClk_sec (t : Nat) : (passClk t m).sec = m.sec := noTime_sec (passClk_noTime m t)
@[simp] theorem passClk_pr (t : Nat) : (passClk t m).pr = m.pr := noTime_pr (passClk_noTime m t)
@[simp] theorem passClk_stateOut (t : Nat) : (passClk t m).stateOut = m.stateOut := noTime_stateOut (passClk_noTime m t)

@[simp] theorem passAll_noTime (t : Nat) : (passAll t m).noTime = m.noTime := passTime_noTime m _
@[simp] theorem passAll_noTimeMd (t : Nat) : (passAll t m).noTimeMd = m.noTimeMd := noTime_noTimeMd (passAll_noTime m t)
@[simp] theorem passAll_powered (t : Nat) : (passAll t m).powered = m.powered := noTime_powered (passAll_noTime m t)
@[simp] theorem passAll_nv (t : Nat) : (passAll t m).nv = m.nv := noTime_nv (passAll_noTime m t)
@[simp] theorem passAll_cfg (t : Nat) : (passAll t m).cfg = m.cfg := noTime_cfg (passAll_noTime m t)
@[simp] theorem passAll_tm (t : Nat) : (passAll t m).tm = m.tm := noTime_tm (passAll_noTime m t)
@[simp] theorem passAll_md (t : Nat) : (passAll t m).md = m.md := noTime_md (passAll_noTime m t)
@[simp] theorem passAll_pw (t : Nat) : (passAll t m).pw = m.pw := noTime_pw (passAll_noTime m t)
@[simp] theorem passAll_lg (t : Nat) : (passAll t m).lg = m.lg := noTime_lg (passAll_noTime m t)
@[simp] theorem passAll_cur (t : Nat) : (passAll t m).cur = m.cur := noTime_cur (passAll_noTime m t)
@[simp] theorem passAll_nxt (t : Nat) : (passAll t m).nxt = m.nxt := noTime_nxt (passAll_noTime m t)
@[simp] theorem passAll_en (t : Nat) : (passAll t m).en = m.en := noTime_en (passAll_noTime m t)
@[simp] theorem passAll_fio (t : Nat) : (passAll t m).fio = m.fio := noTime_fio (passAll_noTime m t)
@[simp] theorem passAll_bt (t : Nat) : (passAll t m).bt = m.bt := noTime_bt (passAll_noTime m t)
@[simp] theorem passAll_str (t : Nat) : (passAll t m).str = m.str := noTime_str (passAll_noTime m t)
@[simp] theorem passAll_can (t : Nat) : (passAll t m).can = m.can := noTime_can (passAll_noTime m t)
@[simp] theorem passAll_net (t : Nat) : (passAll t m).net = m.net := noTime_net (passAll_noTime m t)
@[simp] theorem passAll_host (t : Nat) : (passAll t m).host = m.host := noTime_host (passAll_noTime m t)
@[simp] theorem passAll_rcd (t : Nat) : (passAll t m).rcd = m.rcd := noTime_rcd (passAll_noTime m t)
@[simp] theorem passAll_rc (t : Nat) : (passAll t m).rc = m.rc := noTime_rc (passAll_noTime m t)
@[simp] theorem passAll_pc (t : Nat) : (passAll t m).pc = m.pc := noTime_pc (passAll_noTime m t)
@[simp] theorem passAll_up (t : Nat) : (passAll t m).up = m.up := noTime_up (passAll_noTime m t)
@[simp] theorem passAll_sec (t : Nat) : (passAll t m).sec = m.sec := noTime_sec (passAll_noTime m t)
@[simp] theorem passAll_pr (t : Nat) : (passAll t m).pr = m.pr := noTime_pr (passAll_noTime m t)
@[simp] theorem passAll_stateOut (t : Nat) : (passAll t m).stateOut = m.stateOut := noTime_stateOut (passAll_noTime m t)

@[simp] theorem fireLate_noLn : (fireLate m).noLn = m.noLn := pcAll_noLn m _
@[simp] theorem fireLate_noTimeMd : (fireLate m).noTimeMd = m.noTimeMd := noLn_noTimeMd (fireLate_noLn m)
@[simp] theorem fireLate_powered : (fireLate m).powered = m.powered := noLn_powered (fireLate_noLn m)
@[simp] theorem fireLate_clk : (fireLate m).clk = m.clk := noLn_clk (fireLate_noLn m)
@[simp] theorem fireLate_freeN : (fireLate m).freeN = m.freeN := noLn_freeN (fireLate_noLn m)
@[simp] theorem fireLate_nv : (fireLate m).nv = m.nv := noLn_nv (fireLate_noLn m)
@[simp] theorem fireLate_cfg : (fireLate m).cfg = m.cfg := noLn_cfg (fireLate_noLn m)
@[simp] theorem fireLate_tm : (fireLate m).tm = m.tm := noLn_tm (fireLate_noLn m)
@[simp] theorem fireLate_md : (fireLate m).md = m.md := noLn_md (fireLate_noLn m)
@[simp] theorem fireLate_pw : (fireLate m).pw = m.pw := noLn_pw (fireLate_noLn m)
@[simp] theorem fireLate_lg : (fireLate m).lg = m.lg := noLn_lg (fireLate_noLn m)
@[simp] theorem fireLate_cur : (fireLate m).cur = m.cur := noLn_cur (fireLate_noLn m)
@[simp] theorem fireLate_nxt : (fireLate m).nxt = m.nxt := noLn_nxt (fireLate_noLn m)
@[simp] theorem fireLate_en : (fireLate m).en = m.en := noLn_en (fireLate_noLn m)
@[simp] theorem fireLate_fio : (fireLate m).fio = m.fio := noLn_fio (fireLate_noLn m)
@[simp] theorem fireLate_bt : (fireLate m).bt = m.bt := noLn_bt (fireLate_noLn m)
@[simp] theorem fireLate_str : (fireLate m).str = m.str := noLn_str (fireLate_noLn m)
@[simp] theorem fireLate_can : (fireLate m).can = m.can := noLn_can (fireLate_noLn m)
@[simp] theorem fireLate_net : (fireLate m).net = m.net := noLn_net (fireLate_noLn m)
@[simp] theorem fireLate_host : (fireLate m).host = m.host := noLn_host (fireLate_noLn m)
@[simp] theorem fireLate_rcd : (fireLate m).rcd = m.rcd := noLn_rcd (fireLate_noLn m)
@[simp] theorem fireLate_rc : (fireLate m).rc = m.rc := noLn_rc (fireLate_noLn m)
@[simp] theorem fireLate_pc : (fireLate m).pc = m.pc := noLn_pc (fireLate_noLn m)
@[simp] theorem fireLate_up : (fireLate m).up = m.up := noLn_up (fireLate_noLn m)
@[simp] theorem fireLate_sec : (fireLate m).sec = m.sec := noLn_sec (fireLate_noLn m)
@[simp] theorem fireLate_pr : (fireLate m).pr = m.pr := noLn_pr (fireLate_noLn m)
@[simp] theorem fireLate_stateOut : (fireLate m).stateOut = m.stateOut := noLn_stateOut (fireLate_noLn m)

@[simp] theorem noteFired_noMd (key k : Nat) (t : Option Nat) : (noteFired key k t m).noMd = m.noMd := rfl
@[simp] theorem noteFired_noTimeMd (key k : Nat) (t : Option Nat) : (noteFired key k t m).noTimeMd = m.noTimeMd := noMd_noTimeMd (noteFired_noMd m key k t)
@[simp] theorem noteFired_powered (key k : Nat) (t : Option Nat) : (noteFired key k t m).powered = m.powered := noMd_powered (noteFired_noMd m key k t)
@[simp] theorem noteFired_clk (key k : Nat) (t : Option Nat) : (noteFired key k t m).clk = m.clk := noMd_clk (noteFired_noMd m key k t)
@[simp] theorem noteFired_freeN (key k : Nat) (t : Option Nat) : (noteFired key k t m).freeN = m.freeN := noMd_freeN (noteFired_noMd m key k t)
@[simp] theorem noteFired_nv (key k : Nat) (t : Option Nat) : (noteFired key k t m).nv = m.nv := noMd_nv (noteFired_noMd m key k t)
@[simp] theorem noteFired_cfg (key k : Nat) (t : Option Nat) : (noteFired key k t m).cfg = m.cfg := noMd_cfg (noteFired_noMd m key k t)
@[simp] theorem noteFired_tm (key k : Nat) (t : Option Nat) : (noteFired key k t m).tm = m.tm := noMd_tm (noteFired_noMd m key k t)
@[simp] theorem noteFired_ln (key k : Nat) (t : Option Nat) : (noteFired key k t m).ln = m.ln := noMd_ln (noteFired_noMd m key k t)
@[simp] theorem noteFired_pw (key k : Nat) (t : Option Nat) : (noteFired key k t m).pw = m.pw := noMd_pw (noteFired_noMd m key k t)
@[simp] theorem noteFired_lg (key k : Nat) (t : Option Nat) : (noteFired key k t m).lg = m.lg := noMd_lg (noteFired_noMd m key k t)
@[simp] theorem noteFired_cur (key k : Nat) (t : Option Nat) : (noteFired key k t m).cur = m.cur := noMd_cur (noteFired_noMd m key k t)
@[simp] theorem noteFired_nxt (key k : Nat) (t : Option Nat) : (noteFired key k t m).nxt = m.nxt := noMd_nxt (noteFired_noMd m key k t)
@[simp] theorem noteFired_en (key k : Nat) (t : Option Nat) : (noteFired key k t m).en = m.en := noMd_en (noteFired_noMd m key k t)
@[simp] theorem noteFired_fio (key k : Nat) (t : Option Nat) : (noteFired key k t m).fio = m.fio := noMd_fio (noteFired_noMd m key k t)
@[simp] theorem noteFired_bt (key k : Nat) (t : Option Nat) : (noteFired key k t m).bt = m.bt := noMd_bt (noteFired_noMd m key k t)
@[simp] theorem noteFired_str (key k : Nat) (t : Option Nat) : (noteFired key k t m).str = m.str := noMd_str (noteFired_noMd m key k t)
@[simp] theorem noteFired_can (key k : Nat) (t : Option Nat) : (noteFired key k t m).can = m.can := noMd_can (noteFired_noMd m key k t)
@[simp] theorem noteFired_net (key k : Nat) (t : Option Nat) : (noteFired key k t m).net = m.net := noMd_net (noteFired_noMd m key k t)
@[simp] theorem noteFired_host (key k : Nat) (t : Option Nat) : (noteFired key k t m).host = m.host := noMd_host (noteFired_noMd m key k t)
@[simp] theorem noteFired_rcd (key k : Nat) (t : Option Nat) : (noteFired key k t m).rcd = m.rcd := noMd_rcd (noteFired_noMd m key k t)
@[simp] theorem noteFired_rc (key k : Nat) (t : Option Nat) : (noteFired key k t m).rc = m.rc := noMd_rc (noteFired_noMd m key k t)
@[simp] theorem noteFired_pc (key k : Nat) (t : Option Nat) : (noteFired key k t m).pc = m.pc := noMd_pc (noteFired_noMd m key k t)
@[simp] theorem noteFired_up (key k : Nat) (t : Option Nat) : (noteFired key k t m).up = m.up := noMd_up (noteFired_noMd m key k t)
@[simp] theorem noteFired_sec (key k : Nat) (t : Option Nat) : (noteFired key k t m).sec = m.sec := noMd_sec (noteFired_noMd m key k t)
@[simp] theorem noteFired_pr (key k : Nat) (t : Option Nat) : (noteFired key k t m).pr = m.pr := noMd_pr (noteFired_noMd m key k t)
@[simp] theorem noteFired_stateOut (key k : Nat) (t : Option Nat) : (noteFired key k t m).stateOut = m.stateOut := noMd_stateOut (noteFired_noMd m key k t)

@[simp] theorem fireAt_noTimeMd (key len off : Nat) (due : Option Nat) : (fireAt key len off due m).noTimeMd = m.noTimeMd := by
  unfold fireAt; dsimp only; (repeat' split) <;> simp
@[simp] theorem fireAt_powered (key len off : Nat) (due : Option Nat) : (fireAt key len off due m).powered = m.powered := noTimeMd_powered (fireAt_noTimeMd m key len off due)
@[simp] theorem fireAt_nv (key len off : Nat) (due : Option Nat) : (fireAt key len off due m).nv = m.nv := noTimeMd_nv (fireAt_noTimeMd m key len off due)
@[simp] theorem fireAt_cfg (key len off : Nat) (due : Option Nat) : (fireAt key len off due m).cfg = m.cfg := noTimeMd_cfg (fireAt_noTimeMd m key len off due)
@[simp] theorem fireAt_tm (key len off : Nat) (due : Option Nat) : (fireAt key len off due m).tm = m.tm := noTimeMd_tm (fireAt_noTimeMd m key len off due)
@[simp] theorem fireAt_pw (key len off : Nat) (due : Option Nat) : (fireAt key len off due m).pw = m.pw := noTimeMd_pw (fireAt_noTimeMd m key len off due)
@[simp] theorem fireAt_lg (key len off : Nat) (due : Option Nat) : (fireAt key len off due m).lg = m.lg := noTimeMd_lg (fireAt_noTimeMd m key len off due)
@[simp] theorem fireAt_cur (key len off : Nat) (due : Option Nat) : (fireAt key len off due m).cur = m.cur := noTimeMd_cur (fireAt_noTimeMd m key len off due)
@[simp] theorem fireAt_nxt (key len off : Nat) (due : Option Nat) : (fireAt key len off due m).nxt = m.nxt := noTimeMd_nxt (fireAt_noTimeMd m key len off due)
@[simp] theorem fireAt_en (key len off : Nat) (due : Option Nat) : (fireAt key len off due m).en = m.en := noTimeMd_en (fireAt_noTimeMd m key len off due)
@[simp] theorem fireAt_fio (key len off : Nat) (due : Option Nat) : (fireAt key len off due m).fio = m.fio := noTimeMd_fio (fireAt_noTimeMd m key len off due)
@[simp] theorem fireAt_bt (key len off : Nat) (due : Option Nat) : (fireAt key len off due m).bt = m.bt := noTimeMd_bt (fireAt_noTimeMd m key len off due)
@[simp] theorem fireAt_str (key len off : Nat) (due : Option Nat) : (fireAt key len off due m).str = m.str := noTimeMd_str (fireAt_noTimeMd m key len off due)
@[simp] theorem fireAt_can (key len off : Nat) (due : Option Nat) : (fireAt key len off due m).can = m.can := noTimeMd_can (fireAt_noTimeMd m key len off due)
@[simp] theorem fireAt_net (key len off : Nat) (due : Option Nat) : (fireAt key len off due m).net = m.net := noTimeMd_net (fireAt_noTimeMd m key len off due)
@[simp] theorem fireAt_host (key len off : Nat) (due : Option Nat) : (fireAt key len off due m).host = m.host := noTimeMd_host (fireAt_noTimeMd m key len off due)
@[simp] theorem fireAt_rcd (key len off : Nat) (due : Option Nat) : (fireAt key len off due m).rcd = m.rcd := noTimeMd_rcd (fireAt_noTimeMd m key len off due)
@[simp] theorem fireAt_rc (key len off : Nat) (due : Option Nat) : (fireAt key len off due m).rc = m.rc := noTimeMd_rc (fireAt_noTimeMd m key len off due)
@[simp] theorem fireAt_pc (key len off : Nat) (due : Option Nat) : (fireAt key len off due m).pc = m.pc := noTimeMd_pc (fireAt_noTimeMd m key len off due)
@[simp] theorem fireAt_up (key len off : Nat) (due : Option Nat) : (fireAt key len off due m).up = m.up := noTimeMd_up (fireAt_noTimeMd m key len off due)
@[simp] theorem fireAt_sec (key len off : Nat) (due : Option Nat) : (fireAt key len off due m).sec = m.sec := noTimeMd_sec (fireAt_noTimeMd m key len off due)
@[simp] theorem fireAt_pr (key len off : Nat) (due : Option Nat) : (fireAt key len off due m).pr = m.pr := noTimeMd_pr (fireAt_noTimeMd m key len off due)
@[simp] theorem fireAt_stateOut (key len off : Nat) (due : Option Nat) : (fireAt key len off due m).stateOut = m.stateOut := noTimeMd_stateOut (fireAt_noTimeMd m key len off due)

@[simp] theorem toPhase_noTimeMd (key p : Nat) : (toPhase key p m).noTimeMd = m.noTimeMd := by
  unfold toPhase; split <;> simp
@[simp] theorem toPhase_powered (key p : Nat) : (toPhase key p m).powered = m.powered := noTimeMd_powered (toPhase_noTimeMd m key p)
@[simp] theorem toPhase_nv (key p : Nat) : (toPhase key p m).nv = m.nv := noTimeMd_nv (toPhase_noTimeMd m key p)
@[simp] theorem toPhase_cfg (key p : Nat) : (toPhase key p m).cfg = m.cfg := noTimeMd_cfg (toPhase_noTimeMd m key p)
@[simp] theorem toPhase_tm (key p : Nat) : (toPhase key p m).tm = m.tm := noTimeMd_tm (toPhase_noTimeMd m key p)
@[simp] theorem toPhase_pw (key p : Nat) : (toPhase key p m).pw = m.pw := noTimeMd_pw (toPhase_noTimeMd m key p)
@[simp] theorem toPhase_lg (key p : Nat) : (toPhase key p m).lg = m.lg := noTimeMd_lg (toPhase_noTimeMd m key p)
@[simp] theorem toPhase_cur (key p : Nat) : (toPhase key p m).cur = m.cur := noTimeMd_cur (toPhase_noTimeMd m key p)
@[simp] theorem toPhase_nxt (key p : Nat) : (toPhase key p m).nxt = m.nxt := noTimeMd_nxt (toPhase_noTimeMd m key p)
@[simp] theorem toPhase_en (key p : Nat) : (toPhase key p m).en = m.en := noTimeMd_en (toPhase_noTimeMd m key p)
@[simp] theorem toPhase_fio (key p : Nat) : (toPhase key p m).fio = m.fio := noTimeMd_fio (toPhase_noTimeMd m key p)
@[simp] theorem toPhase_bt (key p : Nat) : (toPhase key p m).bt = m.bt := noTimeMd_bt (toPhase_noTimeMd m key p)
@[simp] theorem toPhase_str (key p : Nat) : (toPhase key p m).str = m.str := noTimeMd_str (toPhase_noTimeMd m key p)
@[simp] theorem toPhase_can (key p : Nat) : (toPhase key p m).can = m.can := noTimeMd_can (toPhase_noTimeMd m key p)
@[simp] theorem toPhase_net (key p : Nat) : (toPhase key p m).net = m.net := noTimeMd_net (toPhase_noTimeMd m key p)
@[simp] theorem toPhase_host (key p : Nat) : (toPhase key p m).host = m.host := noTimeMd_host (toPhase_noTimeMd m key p)
@[simp] theorem toPhase_rcd (key p : Nat) : (toPhase key p m).rcd = m.rcd := noTimeMd_rcd (toPhase_noTimeMd m key p)
@[simp] theorem toPhase_rc (key p : Nat) : (toPhase key p m).rc = m.rc := noTimeMd_rc (toPhase_noTimeMd m key p)
@[simp] theorem toPhase_pc (key p : Nat) : (toPhase key p m).pc = m.pc := noTimeMd_pc (toPhase_noTimeMd m key p)
@[simp] theorem toPhase_up (key p : Nat) : (toPhase key p m).up = m.up := noTimeMd_up (toPhase_noTimeMd m key p)
@[simp] theorem toPhase_sec (key p : Nat) : (toPhase key p m).sec = m.sec := noTimeMd_sec (toPhase_noTimeMd m key p)
@[simp] theorem toPhase_pr (key p : Nat) : (toPhase key p m).pr = m.pr := noTimeMd_pr (toPhase_noTimeMd m key p)
@[simp] theorem toPhase_stateOut (key p : Nat) : (toPhase key p m).stateOut = m.stateOut := noTimeMd_stateOut (toPhase_noTimeMd m key p)

@[simp] theorem toPhaseFrom_noTimeMd (due key p : Nat) : (toPhaseFrom due key p m).noTimeMd = m.noTimeMd := by
  unfold toPhaseFrom; split <;> simp
@[simp] theorem toPhaseFrom_powered (due key p : Nat) : (toPhaseFrom due key p m).powered = m.powered := noTimeMd_powered (toPhaseFrom_noTimeMd m due key p)
@[simp] theorem toPhaseFrom_nv (due key p : Nat) : (toPhaseFrom due key p m).nv = m.nv := noTimeMd_nv (toPhaseFrom_noTimeMd m due key p)
@[simp] theorem toPhaseFrom_cfg (due key p : Nat) : (toPhaseFrom due key p m).cfg = m.cfg := noTimeMd_cfg (toPhaseFrom_noTimeMd m due key p)
@[simp] theorem toPhaseFrom_tm (due key p : Nat) : (toPhaseFrom due key p m).tm = m.tm := noTimeMd_tm (toPhaseFrom_noTimeMd m due key p)
@[simp] theorem toPhaseFrom_pw (due key p : Nat) : (toPhaseFrom due key p m).pw = m.pw := noTimeMd_pw (toPhaseFrom_noTimeMd m due key p)
@[simp] theorem toPhaseFrom_lg (due key p : Nat) : (toPhaseFrom due key p m).lg = m.lg := noTimeMd_lg (toPhaseFrom_noTimeMd m due key p)
@[simp] theorem toPhaseFrom_cur (due key p : Nat) : (toPhaseFrom due key p m).cur = m.cur := noTimeMd_cur (toPhaseFrom_noTimeMd m due key p)
@[simp] theorem toPhaseFrom_nxt (due key p : Nat) : (toPhaseFrom due key p m).nxt = m.nxt := noTimeMd_nxt (toPhaseFrom_noTimeMd m due key p)
@[simp] theorem toPhaseFrom_en (due key p : Nat) : (toPhaseFrom due key p m).en = m.en := noTimeMd_en (toPhaseFrom_noTimeMd m due key p)
@[simp] theorem toPhaseFrom_fio (due key p : Nat) : (toPhaseFrom due key p m).fio = m.fio := noTimeMd_fio (toPhaseFrom_noTimeMd m due key p)
@[simp] theorem toPhaseFrom_bt (due key p : Nat) : (toPhaseFrom due key p m).bt = m.bt := noTimeMd_bt (toPhaseFrom_noTimeMd m due key p)
@[simp] theorem toPhaseFrom_str (due key p : Nat) : (toPhaseFrom due key p m).str = m.str := noTimeMd_str (toPhaseFrom_noTimeMd m due key p)
@[simp] theorem toPhaseFrom_can (due key p : Nat) : (toPhaseFrom due key p m).can = m.can := noTimeMd_can (toPhaseFrom_noTimeMd m due key p)
@[simp] theorem toPhaseFrom_net (due key p : Nat) : (toPhaseFrom due key p m).net = m.net := noTimeMd_net (toPhaseFrom_noTimeMd m due key p)
@[simp] theorem toPhaseFrom_host (due key p : Nat) : (toPhaseFrom due key p m).host = m.host := noTimeMd_host (toPhaseFrom_noTimeMd m due key p)
@[simp] theorem toPhaseFrom_rcd (due key p : Nat) : (toPhaseFrom due key p m).rcd = m.rcd := noTimeMd_rcd (toPhaseFrom_noTimeMd m due key p)
@[simp] theorem toPhaseFrom_rc (due key p : Nat) : (toPhaseFrom due key p m).rc = m.rc := noTimeMd_rc (toPhaseFrom_noTimeMd m due key p)
@[simp] theorem toPhaseFrom_pc (due key p : Nat) : (toPhaseFrom due key p m).pc = m.pc := noTimeMd_pc (toPhaseFrom_noTimeMd m due key p)
@[simp] theorem toPhaseFrom_up (due key p : Nat) : (toPhaseFrom due key p m).up = m.up := noTimeMd_up (toPhaseFrom_noTimeMd m due key p)
@[simp] theorem toPhaseFrom_sec (due key p : Nat) : (toPhaseFrom due key p m).sec = m.sec := noTimeMd_sec (toPhaseFrom_noTimeMd m due key p)
@[simp] theorem toPhaseFrom_pr (due key p : Nat) : (toPhaseFrom due key p m).pr = m.pr := noTimeMd_pr (toPhaseFrom_noTimeMd m due key p)
@[simp] theorem toPhaseFrom_stateOut (due key p : Nat) : (toPhaseFrom due key p m).stateOut = m.stateOut := noTimeMd_stateOut (toPhaseFrom_noTimeMd m due key p)

@[simp] theorem toNext_noTimeMd (key p : Nat) : (toNext key p m).noTimeMd = m.noTimeMd := by
  unfold toNext; split <;> simp
@[simp] theorem toNext_powered (key p : Nat) : (toNext key p m).powered = m.powered := noTimeMd_powered (toNext_noTimeMd m key p)
@[simp] theorem toNext_nv (key p : Nat) : (toNext key p m).nv = m.nv := noTimeMd_nv (toNext_noTimeMd m key p)
@[simp] theorem toNext_cfg (key p : Nat) : (toNext key p m).cfg = m.cfg := noTimeMd_cfg (toNext_noTimeMd m key p)
@[simp] theorem toNext_tm (key p : Nat) : (toNext key p m).tm = m.tm := noTimeMd_tm (toNext_noTimeMd m key p)
@[simp] theorem toNext_pw (key p : Nat) : (toNext key p m).pw = m.pw := noTimeMd_pw (toNext_noTimeMd m key p)
@[simp] theorem toNext_lg (key p : Nat) : (toNext key p m).lg = m.lg := noTimeMd_lg (toNext_noTimeMd m key p)
@[simp] theorem toNext_cur (key p : Nat) : (toNext key p m).cur = m.cur := noTimeMd_cur (toNext_noTimeMd m key p)
@[simp] theorem toNext_nxt (key p : Nat) : (toNext key p m).nxt = m.nxt := noTimeMd_nxt (toNext_noTimeMd m key p)
@[simp] theorem toNext_en (key p : Nat) : (toNext key p m).en = m.en := noTimeMd_en (toNext_noTimeMd m key p)
@[simp] theorem toNext_fio (key p : Nat) : (toNext key p m).fio = m.fio := noTimeMd_fio (toNext_noTimeMd m key p)
@[simp] theorem toNext_bt (key p : Nat) : (toNext key p m).bt = m.bt := noTimeMd_bt (toNext_noTimeMd m key p)
@[simp] theorem toNext_str (key p : Nat) : (toNext key p m).str = m.str := noTimeMd_str (toNext_noTimeMd m key p)
@[simp] theorem toNext_can (key p : Nat) : (toNext key p m).can = m.can := noTimeMd_can (toNext_noTimeMd m key p)
@[simp] theorem toNext_net (key p : Nat) : (toNext key p m).net = m.net := noTimeMd_net (toNext_noTimeMd m key p)
@[simp] theorem toNext_host (key p : Nat) : (toNext key p m).host = m.host := noTimeMd_host (toNext_noTimeMd m key p)
@[simp] theorem toNext_rcd (key p : Nat) : (toNext key p m).rcd = m.rcd := noTimeMd_rcd (toNext_noTimeMd m key p)
@[simp] theorem toNext_rc (key p : Nat) : (toNext key p m).rc = m.rc := noTimeMd_rc (toNext_noTimeMd m key p)
@[simp] theorem toNext_pc (key p : Nat) : (toNext key p m).pc = m.pc := noTimeMd_pc (toNext_noTimeMd m key p)
@[simp] theorem toNext_up (key p : Nat) : (toNext key p m).up = m.up := noTimeMd_up (toNext_noTimeMd m key p)
@[simp] theorem toNext_sec (key p : Nat) : (toNext key p m).sec = m.sec := noTimeMd_sec (toNext_noTimeMd m key p)
@[simp] theorem toNext_pr (key p : Nat) : (toNext key p m).pr = m.pr := noTimeMd_pr (toNext_noTimeMd m key p)
@[simp] theorem toNext_stateOut (key p : Nat) : (toNext key p m).stateOut = m.stateOut := noTimeMd_stateOut (toNext_noTimeMd m key p)

@[simp] theorem toBasicFrom_noTimeMd (due key off : Nat) : (toBasicFrom due key off m).noTimeMd = m.noTimeMd := by
  unfold toBasicFrom; split <;> simp
@[simp] theorem toBasicFrom_powered (due key off : Nat) : (toBasicFrom due key off m).powered = m.powered := noTimeMd_powered (toBasicFrom_noTimeMd m due key off)
@[simp] theorem toBasicFrom_nv (due key off : Nat) : (toBasicFrom due key off m).nv = m.nv := noTimeMd_nv (toBasicFrom_noTimeMd m due key off)
@[simp] theorem toBasicFrom_cfg (due key off : Nat) : (toBasicFrom due key off m).cfg = m.cfg := noTimeMd_cfg (toBasicFrom_noTimeMd m due key off)
@[simp] theorem toBasicFrom_tm (due key off : Nat) : (toBasicFrom due key off m).tm = m.tm := noTimeMd_tm (toBasicFrom_noTimeMd m due key off)
@[simp] theorem toBasicFrom_pw (due key off : Nat) : (toBasicFrom due key off m).pw = m.pw := noTimeMd_pw (toBasicFrom_noTimeMd m due key off)
@[simp] theorem toBasicFrom_lg (due key off : Nat) : (toBasicFrom due key off m).lg = m.lg := noTimeMd_lg (toBasicFrom_noTimeMd m due key off)
@[simp] theorem toBasicFrom_cur (due key off : Nat) : (toBasicFrom due key off m).cur = m.cur := noTimeMd_cur (toBasicFrom_noTimeMd m due key off)
@[simp] theorem toBasicFrom_nxt (due key off : Nat) : (toBasicFrom due key off m).nxt = m.nxt := noTimeMd_nxt (toBasicFrom_noTimeMd m due key off)
@[simp] theorem toBasicFrom_en (due key off : Nat) : (toBasicFrom due key off m).en = m.en := noTimeMd_en (toBasicFrom_noTimeMd m due key off)
@[simp] theorem toBasicFrom_fio (due key off : Nat) : (toBasicFrom due key off m).fio = m.fio := noTimeMd_fio (toBasicFrom_noTimeMd m due key off)
@[simp] theorem toBasicFrom_bt (due key off : Nat) : (toBasicFrom due key off m).bt = m.bt := noTimeMd_bt (toBasicFrom_noTimeMd m due key off)
@[simp] theorem toBasicFrom_str (due key off : Nat) : (toBasicFrom due key off m).str = m.str := noTimeMd_str (toBasicFrom_noTimeMd m due key off)
@[simp] theorem toBasicFrom_can (due key off : Nat) : (toBasicFrom due key off m).can = m.can := noTimeMd_can (toBasicFrom_noTimeMd m due key off)
@[simp] theorem toBasicFrom_net (due key off : Nat) : (toBasicFrom due key off m).net = m.net := noTimeMd_net (toBasicFrom_noTimeMd m due key off)
@[simp] theorem toBasicFrom_host (due key off : Nat) : (toBasicFrom due key off m).host = m.host := noTimeMd_host (toBasicFrom_noTimeMd m due key off)
@[simp] theorem toBasicFrom_rcd (due key off : Nat) : (toBasicFrom due key off m).rcd = m.rcd := noTimeMd_rcd (toBasicFrom_noTimeMd m due key off)
@[simp] theorem toBasicFrom_rc (due key off : Nat) : (toBasicFrom due key off m).rc = m.rc := noTimeMd_rc (toBasicFrom_noTimeMd m due key off)
@[simp] theorem toBasicFrom_pc (due key off : Nat) : (toBasicFrom due key off m).pc = m.pc := noTimeMd_pc (toBasicFrom_noTimeMd m due key off)
@[simp] theorem toBasicFrom_up (due key off : Nat) : (toBasicFrom due key off m).up = m.up := noTimeMd_up (toBasicFrom_noTimeMd m due key off)
@[simp] theorem toBasicFrom_sec (due key off : Nat) : (toBasicFrom due key off m).sec = m.sec := noTimeMd_sec (toBasicFrom_noTimeMd m due key off)
@[simp] theorem toBasicFrom_pr (due key off : Nat) : (toBasicFrom due key off m).pr = m.pr := noTimeMd_pr (toBasicFrom_noTimeMd m due key off)
@[simp] theorem toBasicFrom_stateOut (due key off : Nat) : (toBasicFrom due key off m).stateOut = m.stateOut := noTimeMd_stateOut (toBasicFrom_noTimeMd m due key off)

@[simp] theorem toBasic_noTimeMd (key off : Nat) : (toBasic key off m).noTimeMd = m.noTimeMd := by
  unfold toBasic; split <;> simp
@[simp] theorem toBasic_powered (key off : Nat) : (toBasic key off m).powered = m.powered := noTimeMd_powered (toBasic_noTimeMd m key off)
@[simp] theorem toBasic_nv (key off : Nat) : (toBasic key off m).nv = m.nv := noTimeMd_nv (toBasic_noTimeMd m key off)
@[simp] theorem toBasic_cfg (key off : Nat) : (toBasic key off m).cfg = m.cfg := noTimeMd_cfg (toBasic_noTimeMd m key off)
@[simp] theorem toBasic_tm (key off : Nat) : (toBasic key off m).tm = m.tm := noTimeMd_tm (toBasic_noTimeMd m key off)
@[simp] theorem toBasic_pw (key off : Nat) : (toBasic key off m).pw = m.pw := noTimeMd_pw (toBasic_noTimeMd m key off)
@[simp] theorem toBasic_lg (key off : Nat) : (toBasic key off m).lg = m.lg := noTimeMd_lg (toBasic_noTimeMd m key off)
@[simp] theorem toBasic_cur (key off : Nat) : (toBasic key off m).cur = m.cur := noTimeMd_cur (toBasic_noTimeMd m key off)
@[simp] theorem toBasic_nxt (key off : Nat) : (toBasic key off m).nxt = m.nxt := noTimeMd_nxt (toBasic_noTimeMd m key off)
@[simp] theorem toBasic_en (key off : Nat) : (toBasic key off m).en = m.en := noTimeMd_en (toBasic_noTimeMd m key off)
@[simp] theorem toBasic_fio (key off : Nat) : (toBasic key off m).fio = m.fio := noTimeMd_fio (toBasic_noTimeMd m key off)
@[simp] theorem toBasic_bt (key off : Nat) : (toBasic key off m).bt = m.bt := noTimeMd_bt (toBasic_noTimeMd m key off)
@[simp] theorem toBasic_str (key off : Nat) : (toBasic key off m).str = m.str := noTimeMd_str (toBasic_noTimeMd m key off)
@[simp] theorem toBasic_can (key off : Nat) : (toBasic key off m).can = m.can := noTimeMd_can (toBasic_noTimeMd m key off)
@[simp] theorem toBasic_net (key off : Nat) : (toBasic key off m).net = m.net := noTimeMd_net (toBasic_noTimeMd m key off)
@[simp] theorem toBasic_host (key off : Nat) : (toBasic key off m).host = m.host := noTimeMd_host (toBasic_noTimeMd m key off)
@[simp] theorem toBasic_rcd (key off : Nat) : (toBasic key off m).rcd = m.rcd := noTimeMd_rcd (toBasic_noTimeMd m key off)
@[simp] theorem toBasic_rc (key off : Nat) : (toBasic key off m).rc = m.rc := noTimeMd_rc (toBasic_noTimeMd m key off)
@[simp] theorem toBasic_pc (key off : Nat) : (toBasic key off m).pc = m.pc := noTimeMd_pc (toBasic_noTimeMd m key off)
@[simp] theorem toBasic_up (key off : Nat) : (toBasic key off m).up = m.up := noTimeMd_up (toBasic_noTimeMd m key off)
@[simp] theorem toBasic_sec (key off : Nat) : (toBasic key off m).sec = m.sec := noTimeMd_sec (toBasic_noTimeMd m key off)
@[simp] theorem toBasic_pr (key off : Nat) : (toBasic key off m).pr = m.pr := noTimeMd_pr (toBasic_noTimeMd m key off)
@[simp] theorem toBasic_stateOut (key off : Nat) : (toBasic key off m).stateOut = m.stateOut := noTimeMd_stateOut (toBasic_noTimeMd m key off)

/-! Time moves no field of the modes but the record of what has fired. -/

@[simp] theorem fireAt_md_mode (key len off : Nat) (due : Option Nat) : (fireAt key len off due m).md.mode = m.md.mode := by
  unfold fireAt; dsimp only; (repeat' split) <;> simp [noteFired]
@[simp] theorem fireAt_md_hcause (key len off : Nat) (due : Option Nat) : (fireAt key len off due m).md.hcause = m.md.hcause := by
  unfold fireAt; dsimp only; (repeat' split) <;> simp [noteFired]
@[simp] theorem fireAt_md_step (key len off : Nat) (due : Option Nat) : (fireAt key len off due m).md.step = m.md.step := by
  unfold fireAt; dsimp only; (repeat' split) <;> simp [noteFired]
@[simp] theorem fireAt_md_warm (key len off : Nat) (due : Option Nat) : (fireAt key len off due m).md.warm = m.md.warm := by
  unfold fireAt; dsimp only; (repeat' split) <;> simp [noteFired]
@[simp] theorem fireAt_md_retage (key len off : Nat) (due : Option Nat) : (fireAt key len off due m).md.retage = m.md.retage := by
  unfold fireAt; dsimp only; (repeat' split) <;> simp [noteFired]
@[simp] theorem fireAt_md_coldwhy (key len off : Nat) (due : Option Nat) : (fireAt key len off due m).md.coldwhy = m.md.coldwhy := by
  unfold fireAt; dsimp only; (repeat' split) <;> simp [noteFired]
@[simp] theorem fireAt_md_reteq (key len off : Nat) (due : Option Nat) : (fireAt key len off due m).md.reteq = m.md.reteq := by
  unfold fireAt; dsimp only; (repeat' split) <;> simp [noteFired]
@[simp] theorem fireAt_md_bist (key len off : Nat) (due : Option Nat) : (fireAt key len off due m).md.bist = m.md.bist := by
  unfold fireAt; dsimp only; (repeat' split) <;> simp [noteFired]
@[simp] theorem fireAt_md_couplers (key len off : Nat) (due : Option Nat) : (fireAt key len off due m).md.couplers = m.md.couplers := by
  unfold fireAt; dsimp only; (repeat' split) <;> simp [noteFired]
@[simp] theorem fireAt_md_pendMode (key len off : Nat) (due : Option Nat) : (fireAt key len off due m).md.pendMode = m.md.pendMode := by
  unfold fireAt; dsimp only; (repeat' split) <;> simp [noteFired]
@[simp] theorem fireAt_md_trigs (key len off : Nat) (due : Option Nat) : (fireAt key len off due m).md.trigs = m.md.trigs := by
  unfold fireAt; dsimp only; (repeat' split) <;> simp [noteFired]
@[simp] theorem fireAt_md_areasWas (key len off : Nat) (due : Option Nat) : (fireAt key len off due m).md.areasWas = m.md.areasWas := by
  unfold fireAt; dsimp only; (repeat' split) <;> simp [noteFired]
@[simp] theorem fireAt_md_haltAt (key len off : Nat) (due : Option Nat) : (fireAt key len off due m).md.haltAt = m.md.haltAt := by
  unfold fireAt; dsimp only; (repeat' split) <;> simp [noteFired]
@[simp] theorem fireAt_md_arTold (key len off : Nat) (due : Option Nat) : (fireAt key len off due m).md.arTold = m.md.arTold := by
  unfold fireAt; dsimp only; (repeat' split) <;> simp [noteFired]
@[simp] theorem fireAt_md_haltOpen (key len off : Nat) (due : Option Nat) : (fireAt key len off due m).md.haltOpen = m.md.haltOpen := by
  unfold fireAt; dsimp only; (repeat' split) <;> simp [noteFired]
@[simp] theorem fireAt_md_haltv (key len off : Nat) (due : Option Nat) : (fireAt key len off due m).md.haltv = m.md.haltv := by
  unfold fireAt; dsimp only; (repeat' split) <;> simp [noteFired]
@[simp] theorem fireAt_md_splits (key len off : Nat) (due : Option Nat) : (fireAt key len off due m).md.splits = m.md.splits := by
  unfold fireAt; dsimp only; (repeat' split) <;> simp [noteFired]
@[simp] theorem fireAt_md_abtot (key len off : Nat) (due : Option Nat) : (fireAt key len off due m).md.abtot = m.md.abtot := by
  unfold fireAt; dsimp only; (repeat' split) <;> simp [noteFired]
@[simp] theorem fireAt_md_deferN (key len off : Nat) (due : Option Nat) : (fireAt key len off due m).md.deferN = m.md.deferN := by
  unfold fireAt; dsimp only; (repeat' split) <;> simp [noteFired]
@[simp] theorem fireAt_md_hurdleOff (key len off : Nat) (due : Option Nat) : (fireAt key len off due m).md.hurdleOff = m.md.hurdleOff := by
  unfold fireAt; dsimp only; (repeat' split) <;> simp [noteFired]
@[simp] theorem fireAt_md_hurdleProt (key len off : Nat) (due : Option Nat) : (fireAt key len off due m).md.hurdleProt = m.md.hurdleProt := by
  unfold fireAt; dsimp only; (repeat' split) <;> simp [noteFired]
@[simp] theorem fireAt_md_critDefer (key len off : Nat) (due : Option Nat) : (fireAt key len off due m).md.critDefer = m.md.critDefer := by
  unfold fireAt; dsimp only; (repeat' split) <;> simp [noteFired]
@[simp] theorem fireAt_md_wuPass (key len off : Nat) (due : Option Nat) : (fireAt key len off due m).md.wuPass = m.md.wuPass := by
  unfold fireAt; dsimp only; (repeat' split) <;> simp [noteFired]
@[simp] theorem fireAt_md_wuOver (key len off : Nat) (due : Option Nat) : (fireAt key len off due m).md.wuOver = m.md.wuOver := by
  unfold fireAt; dsimp only; (repeat' split) <;> simp [noteFired]
@[simp] theorem fireAt_md_step4At (key len off : Nat) (due : Option Nat) : (fireAt key len off due m).md.step4At = m.md.step4At := by
  unfold fireAt; dsimp only; (repeat' split) <;> simp [noteFired]
@[simp] theorem fireAt_md_runBank (key len off : Nat) (due : Option Nat) : (fireAt key len off due m).md.runBank = m.md.runBank := by
  unfold fireAt; dsimp only; (repeat' split) <;> simp [noteFired]
@[simp] theorem fireAt_md_updRestart (key len off : Nat) (due : Option Nat) : (fireAt key len off due m).md.updRestart = m.md.updRestart := by
  unfold fireAt; dsimp only; (repeat' split) <;> simp [noteFired]
@[simp] theorem fireAt_md_trialBits (key len off : Nat) (due : Option Nat) : (fireAt key len off due m).md.trialBits = m.md.trialBits := by
  unfold fireAt; dsimp only; (repeat' split) <;> simp [noteFired]
@[simp] theorem fireAt_md_step5At (key len off : Nat) (due : Option Nat) : (fireAt key len off due m).md.step5At = m.md.step5At := by
  unfold fireAt; dsimp only; (repeat' split) <;> simp [noteFired]
@[simp] theorem fireAt_md_step8At (key len off : Nat) (due : Option Nat) : (fireAt key len off due m).md.step8At = m.md.step8At := by
  unfold fireAt; dsimp only; (repeat' split) <;> simp [noteFired]
@[simp] theorem fireAt_md_doneAt (key len off : Nat) (due : Option Nat) : (fireAt key len off due m).md.doneAt = m.md.doneAt := by
  unfold fireAt; dsimp only; (repeat' split) <;> simp [noteFired]
@[simp] theorem fireAt_md_serveAt (key len off : Nat) (due : Option Nat) : (fireAt key len off due m).md.serveAt = m.md.serveAt := by
  unfold fireAt; dsimp only; (repeat' split) <;> simp [noteFired]
@[simp] theorem fireAt_md_startedAt (key len off : Nat) (due : Option Nat) : (fireAt key len off due m).md.startedAt = m.md.startedAt := by
  unfold fireAt; dsimp only; (repeat' split) <;> simp [noteFired]
@[simp] theorem fireAt_md_areas (key len off : Nat) (due : Option Nat) : (fireAt key len off due m).md.areas = m.md.areas := by
  unfold fireAt; dsimp only; (repeat' split) <;> simp [noteFired]
@[simp] theorem fireAt_md_forces (key len off : Nat) (due : Option Nat) : (fireAt key len off due m).md.forces = m.md.forces := by
  unfold fireAt; dsimp only; (repeat' split) <;> simp [noteFired]
@[simp] theorem fireAt_md_lines (key len off : Nat) (due : Option Nat) : (fireAt key len off due m).md.lines = m.md.lines := by
  unfold fireAt; dsimp only; (repeat' split) <;> simp [noteFired]
@[simp] theorem fireAt_md_lineAt (key len off : Nat) (due : Option Nat) : (fireAt key len off due m).md.lineAt = m.md.lineAt := by
  unfold fireAt; dsimp only; (repeat' split) <;> simp [noteFired]
@[simp] theorem fireAt_md_lineSince (key len off : Nat) (due : Option Nat) : (fireAt key len off due m).md.lineSince = m.md.lineSince := by
  unfold fireAt; dsimp only; (repeat' split) <;> simp [noteFired]
@[simp] theorem fireAt_md_linkDelay (key len off : Nat) (due : Option Nat) : (fireAt key len off due m).md.linkDelay = m.md.linkDelay := by
  unfold fireAt; dsimp only; (repeat' split) <;> simp [noteFired]
@[simp] theorem fireAt_md_firstAt (key len off : Nat) (due : Option Nat) : (fireAt key len off due m).md.firstAt = m.md.firstAt := by
  unfold fireAt; dsimp only; (repeat' split) <;> simp [noteFired]
@[simp] theorem fireAt_md_owed (key len off : Nat) (due : Option Nat) : (fireAt key len off due m).md.owed = m.md.owed := by
  unfold fireAt; dsimp only; (repeat' split) <;> simp [noteFired]
@[simp] theorem toPhase_md_mode (key p : Nat) : (toPhase key p m).md.mode = m.md.mode := by
  unfold toPhase; split <;> simp
@[simp] theorem toPhase_md_hcause (key p : Nat) : (toPhase key p m).md.hcause = m.md.hcause := by
  unfold toPhase; split <;> simp
@[simp] theorem toPhase_md_step (key p : Nat) : (toPhase key p m).md.step = m.md.step := by
  unfold toPhase; split <;> simp
@[simp] theorem toPhase_md_warm (key p : Nat) : (toPhase key p m).md.warm = m.md.warm := by
  unfold toPhase; split <;> simp
@[simp] theorem toPhase_md_retage (key p : Nat) : (toPhase key p m).md.retage = m.md.retage := by
  unfold toPhase; split <;> simp
@[simp] theorem toPhase_md_coldwhy (key p : Nat) : (toPhase key p m).md.coldwhy = m.md.coldwhy := by
  unfold toPhase; split <;> simp
@[simp] theorem toPhase_md_reteq (key p : Nat) : (toPhase key p m).md.reteq = m.md.reteq := by
  unfold toPhase; split <;> simp
@[simp] theorem toPhase_md_bist (key p : Nat) : (toPhase key p m).md.bist = m.md.bist := by
  unfold toPhase; split <;> simp
@[simp] theorem toPhase_md_couplers (key p : Nat) : (toPhase key p m).md.couplers = m.md.couplers := by
  unfold toPhase; split <;> simp
@[simp] theorem toPhase_md_pendMode (key p : Nat) : (toPhase key p m).md.pendMode = m.md.pendMode := by
  unfold toPhase; split <;> simp
@[simp] theorem toPhase_md_trigs (key p : Nat) : (toPhase key p m).md.trigs = m.md.trigs := by
  unfold toPhase; split <;> simp
@[simp] theorem toPhase_md_areasWas (key p : Nat) : (toPhase key p m).md.areasWas = m.md.areasWas := by
  unfold toPhase; split <;> simp
@[simp] theorem toPhase_md_haltAt (key p : Nat) : (toPhase key p m).md.haltAt = m.md.haltAt := by
  unfold toPhase; split <;> simp
@[simp] theorem toPhase_md_arTold (key p : Nat) : (toPhase key p m).md.arTold = m.md.arTold := by
  unfold toPhase; split <;> simp
@[simp] theorem toPhase_md_haltOpen (key p : Nat) : (toPhase key p m).md.haltOpen = m.md.haltOpen := by
  unfold toPhase; split <;> simp
@[simp] theorem toPhase_md_haltv (key p : Nat) : (toPhase key p m).md.haltv = m.md.haltv := by
  unfold toPhase; split <;> simp
@[simp] theorem toPhase_md_splits (key p : Nat) : (toPhase key p m).md.splits = m.md.splits := by
  unfold toPhase; split <;> simp
@[simp] theorem toPhase_md_abtot (key p : Nat) : (toPhase key p m).md.abtot = m.md.abtot := by
  unfold toPhase; split <;> simp
@[simp] theorem toPhase_md_deferN (key p : Nat) : (toPhase key p m).md.deferN = m.md.deferN := by
  unfold toPhase; split <;> simp
@[simp] theorem toPhase_md_hurdleOff (key p : Nat) : (toPhase key p m).md.hurdleOff = m.md.hurdleOff := by
  unfold toPhase; split <;> simp
@[simp] theorem toPhase_md_hurdleProt (key p : Nat) : (toPhase key p m).md.hurdleProt = m.md.hurdleProt := by
  unfold toPhase; split <;> simp
@[simp] theorem toPhase_md_critDefer (key p : Nat) : (toPhase key p m).md.critDefer = m.md.critDefer := by
  unfold toPhase; split <;> simp
@[simp] theorem toPhase_md_wuPass (key p : Nat) : (toPhase key p m).md.wuPass = m.md.wuPass := by
  unfold toPhase; split <;> simp
@[simp] theorem toPhase_md_wuOver (key p : Nat) : (toPhase key p m).md.wuOver = m.md.wuOver := by
  unfold toPhase; split <;> simp
@[simp] theorem toPhase_md_step4At (key p : Nat) : (toPhase key p m).md.step4At = m.md.step4At := by
  unfold toPhase; split <;> simp
@[simp] theorem toPhase_md_runBank (key p : Nat) : (toPhase key p m).md.runBank = m.md.runBank := by
  unfold toPhase; split <;> simp
@[simp] theorem toPhase_md_updRestart (key p : Nat) : (toPhase key p m).md.updRestart = m.md.updRestart := by
  unfold toPhase; split <;> simp
@[simp] theorem toPhase_md_trialBits (key p : Nat) : (toPhase key p m).md.trialBits = m.md.trialBits := by
  unfold toPhase; split <;> simp
@[simp] theorem toPhase_md_step5At (key p : Nat) : (toPhase key p m).md.step5At = m.md.step5At := by
  unfold toPhase; split <;> simp
@[simp] theorem toPhase_md_step8At (key p : Nat) : (toPhase key p m).md.step8At = m.md.step8At := by
  unfold toPhase; split <;> simp
@[simp] theorem toPhase_md_doneAt (key p : Nat) : (toPhase key p m).md.doneAt = m.md.doneAt := by
  unfold toPhase; split <;> simp
@[simp] theorem toPhase_md_serveAt (key p : Nat) : (toPhase key p m).md.serveAt = m.md.serveAt := by
  unfold toPhase; split <;> simp
@[simp] theorem toPhase_md_startedAt (key p : Nat) : (toPhase key p m).md.startedAt = m.md.startedAt := by
  unfold toPhase; split <;> simp
@[simp] theorem toPhase_md_areas (key p : Nat) : (toPhase key p m).md.areas = m.md.areas := by
  unfold toPhase; split <;> simp
@[simp] theorem toPhase_md_forces (key p : Nat) : (toPhase key p m).md.forces = m.md.forces := by
  unfold toPhase; split <;> simp
@[simp] theorem toPhase_md_lines (key p : Nat) : (toPhase key p m).md.lines = m.md.lines := by
  unfold toPhase; split <;> simp
@[simp] theorem toPhase_md_lineAt (key p : Nat) : (toPhase key p m).md.lineAt = m.md.lineAt := by
  unfold toPhase; split <;> simp
@[simp] theorem toPhase_md_lineSince (key p : Nat) : (toPhase key p m).md.lineSince = m.md.lineSince := by
  unfold toPhase; split <;> simp
@[simp] theorem toPhase_md_linkDelay (key p : Nat) : (toPhase key p m).md.linkDelay = m.md.linkDelay := by
  unfold toPhase; split <;> simp
@[simp] theorem toPhase_md_firstAt (key p : Nat) : (toPhase key p m).md.firstAt = m.md.firstAt := by
  unfold toPhase; split <;> simp
@[simp] theorem toPhase_md_owed (key p : Nat) : (toPhase key p m).md.owed = m.md.owed := by
  unfold toPhase; split <;> simp
@[simp] theorem toPhaseFrom_md_mode (due key p : Nat) : (toPhaseFrom due key p m).md.mode = m.md.mode := by
  unfold toPhaseFrom; split <;> simp
@[simp] theorem toPhaseFrom_md_hcause (due key p : Nat) : (toPhaseFrom due key p m).md.hcause = m.md.hcause := by
  unfold toPhaseFrom; split <;> simp
@[simp] theorem toPhaseFrom_md_step (due key p : Nat) : (toPhaseFrom due key p m).md.step = m.md.step := by
  unfold toPhaseFrom; split <;> simp
@[simp] theorem toPhaseFrom_md_warm (due key p : Nat) : (toPhaseFrom due key p m).md.warm = m.md.warm := by
  unfold toPhaseFrom; split <;> simp
@[simp] theorem toPhaseFrom_md_retage (due key p : Nat) : (toPhaseFrom due key p m).md.retage = m.md.retage := by
  unfold toPhaseFrom; split <;> simp
@[simp] theorem toPhaseFrom_md_coldwhy (due key p : Nat) : (toPhaseFrom due key p m).md.coldwhy = m.md.coldwhy := by
  unfold toPhaseFrom; split <;> simp
@[simp] theorem toPhaseFrom_md_reteq (due key p : Nat) : (toPhaseFrom due key p m).md.reteq = m.md.reteq := by
  unfold toPhaseFrom; split <;> simp
@[simp] theorem toPhaseFrom_md_bist (due key p : Nat) : (toPhaseFrom due key p m).md.bist = m.md.bist := by
  unfold toPhaseFrom; split <;> simp
@[simp] theorem toPhaseFrom_md_couplers (due key p : Nat) : (toPhaseFrom due key p m).md.couplers = m.md.couplers := by
  unfold toPhaseFrom; split <;> simp
@[simp] theorem toPhaseFrom_md_pendMode (due key p : Nat) : (toPhaseFrom due key p m).md.pendMode = m.md.pendMode := by
  unfold toPhaseFrom; split <;> simp
@[simp] theorem toPhaseFrom_md_trigs (due key p : Nat) : (toPhaseFrom due key p m).md.trigs = m.md.trigs := by
  unfold toPhaseFrom; split <;> simp
@[simp] theorem toPhaseFrom_md_areasWas (due key p : Nat) : (toPhaseFrom due key p m).md.areasWas = m.md.areasWas := by
  unfold toPhaseFrom; split <;> simp
@[simp] theorem toPhaseFrom_md_haltAt (due key p : Nat) : (toPhaseFrom due key p m).md.haltAt = m.md.haltAt := by
  unfold toPhaseFrom; split <;> simp
@[simp] theorem toPhaseFrom_md_arTold (due key p : Nat) : (toPhaseFrom due key p m).md.arTold = m.md.arTold := by
  unfold toPhaseFrom; split <;> simp
@[simp] theorem toPhaseFrom_md_haltOpen (due key p : Nat) : (toPhaseFrom due key p m).md.haltOpen = m.md.haltOpen := by
  unfold toPhaseFrom; split <;> simp
@[simp] theorem toPhaseFrom_md_haltv (due key p : Nat) : (toPhaseFrom due key p m).md.haltv = m.md.haltv := by
  unfold toPhaseFrom; split <;> simp
@[simp] theorem toPhaseFrom_md_splits (due key p : Nat) : (toPhaseFrom due key p m).md.splits = m.md.splits := by
  unfold toPhaseFrom; split <;> simp
@[simp] theorem toPhaseFrom_md_abtot (due key p : Nat) : (toPhaseFrom due key p m).md.abtot = m.md.abtot := by
  unfold toPhaseFrom; split <;> simp
@[simp] theorem toPhaseFrom_md_deferN (due key p : Nat) : (toPhaseFrom due key p m).md.deferN = m.md.deferN := by
  unfold toPhaseFrom; split <;> simp
@[simp] theorem toPhaseFrom_md_hurdleOff (due key p : Nat) : (toPhaseFrom due key p m).md.hurdleOff = m.md.hurdleOff := by
  unfold toPhaseFrom; split <;> simp
@[simp] theorem toPhaseFrom_md_hurdleProt (due key p : Nat) : (toPhaseFrom due key p m).md.hurdleProt = m.md.hurdleProt := by
  unfold toPhaseFrom; split <;> simp
@[simp] theorem toPhaseFrom_md_critDefer (due key p : Nat) : (toPhaseFrom due key p m).md.critDefer = m.md.critDefer := by
  unfold toPhaseFrom; split <;> simp
@[simp] theorem toPhaseFrom_md_wuPass (due key p : Nat) : (toPhaseFrom due key p m).md.wuPass = m.md.wuPass := by
  unfold toPhaseFrom; split <;> simp
@[simp] theorem toPhaseFrom_md_wuOver (due key p : Nat) : (toPhaseFrom due key p m).md.wuOver = m.md.wuOver := by
  unfold toPhaseFrom; split <;> simp
@[simp] theorem toPhaseFrom_md_step4At (due key p : Nat) : (toPhaseFrom due key p m).md.step4At = m.md.step4At := by
  unfold toPhaseFrom; split <;> simp
@[simp] theorem toPhaseFrom_md_runBank (due key p : Nat) : (toPhaseFrom due key p m).md.runBank = m.md.runBank := by
  unfold toPhaseFrom; split <;> simp
@[simp] theorem toPhaseFrom_md_updRestart (due key p : Nat) : (toPhaseFrom due key p m).md.updRestart = m.md.updRestart := by
  unfold toPhaseFrom; split <;> simp
@[simp] theorem toPhaseFrom_md_trialBits (due key p : Nat) : (toPhaseFrom due key p m).md.trialBits = m.md.trialBits := by
  unfold toPhaseFrom; split <;> simp
@[simp] theorem toPhaseFrom_md_step5At (due key p : Nat) : (toPhaseFrom due key p m).md.step5At = m.md.step5At := by
  unfold toPhaseFrom; split <;> simp
@[simp] theorem toPhaseFrom_md_step8At (due key p : Nat) : (toPhaseFrom due key p m).md.step8At = m.md.step8At := by
  unfold toPhaseFrom; split <;> simp
@[simp] theorem toPhaseFrom_md_doneAt (due key p : Nat) : (toPhaseFrom due key p m).md.doneAt = m.md.doneAt := by
  unfold toPhaseFrom; split <;> simp
@[simp] theorem toPhaseFrom_md_serveAt (due key p : Nat) : (toPhaseFrom due key p m).md.serveAt = m.md.serveAt := by
  unfold toPhaseFrom; split <;> simp
@[simp] theorem toPhaseFrom_md_startedAt (due key p : Nat) : (toPhaseFrom due key p m).md.startedAt = m.md.startedAt := by
  unfold toPhaseFrom; split <;> simp
@[simp] theorem toPhaseFrom_md_areas (due key p : Nat) : (toPhaseFrom due key p m).md.areas = m.md.areas := by
  unfold toPhaseFrom; split <;> simp
@[simp] theorem toPhaseFrom_md_forces (due key p : Nat) : (toPhaseFrom due key p m).md.forces = m.md.forces := by
  unfold toPhaseFrom; split <;> simp
@[simp] theorem toPhaseFrom_md_lines (due key p : Nat) : (toPhaseFrom due key p m).md.lines = m.md.lines := by
  unfold toPhaseFrom; split <;> simp
@[simp] theorem toPhaseFrom_md_lineAt (due key p : Nat) : (toPhaseFrom due key p m).md.lineAt = m.md.lineAt := by
  unfold toPhaseFrom; split <;> simp
@[simp] theorem toPhaseFrom_md_lineSince (due key p : Nat) : (toPhaseFrom due key p m).md.lineSince = m.md.lineSince := by
  unfold toPhaseFrom; split <;> simp
@[simp] theorem toPhaseFrom_md_linkDelay (due key p : Nat) : (toPhaseFrom due key p m).md.linkDelay = m.md.linkDelay := by
  unfold toPhaseFrom; split <;> simp
@[simp] theorem toPhaseFrom_md_firstAt (due key p : Nat) : (toPhaseFrom due key p m).md.firstAt = m.md.firstAt := by
  unfold toPhaseFrom; split <;> simp
@[simp] theorem toPhaseFrom_md_owed (due key p : Nat) : (toPhaseFrom due key p m).md.owed = m.md.owed := by
  unfold toPhaseFrom; split <;> simp
@[simp] theorem toNext_md_mode (key p : Nat) : (toNext key p m).md.mode = m.md.mode := by
  unfold toNext; split <;> simp
@[simp] theorem toNext_md_hcause (key p : Nat) : (toNext key p m).md.hcause = m.md.hcause := by
  unfold toNext; split <;> simp
@[simp] theorem toNext_md_step (key p : Nat) : (toNext key p m).md.step = m.md.step := by
  unfold toNext; split <;> simp
@[simp] theorem toNext_md_warm (key p : Nat) : (toNext key p m).md.warm = m.md.warm := by
  unfold toNext; split <;> simp
@[simp] theorem toNext_md_retage (key p : Nat) : (toNext key p m).md.retage = m.md.retage := by
  unfold toNext; split <;> simp
@[simp] theorem toNext_md_coldwhy (key p : Nat) : (toNext key p m).md.coldwhy = m.md.coldwhy := by
  unfold toNext; split <;> simp
@[simp] theorem toNext_md_reteq (key p : Nat) : (toNext key p m).md.reteq = m.md.reteq := by
  unfold toNext; split <;> simp
@[simp] theorem toNext_md_bist (key p : Nat) : (toNext key p m).md.bist = m.md.bist := by
  unfold toNext; split <;> simp
@[simp] theorem toNext_md_couplers (key p : Nat) : (toNext key p m).md.couplers = m.md.couplers := by
  unfold toNext; split <;> simp
@[simp] theorem toNext_md_pendMode (key p : Nat) : (toNext key p m).md.pendMode = m.md.pendMode := by
  unfold toNext; split <;> simp
@[simp] theorem toNext_md_trigs (key p : Nat) : (toNext key p m).md.trigs = m.md.trigs := by
  unfold toNext; split <;> simp
@[simp] theorem toNext_md_areasWas (key p : Nat) : (toNext key p m).md.areasWas = m.md.areasWas := by
  unfold toNext; split <;> simp
@[simp] theorem toNext_md_haltAt (key p : Nat) : (toNext key p m).md.haltAt = m.md.haltAt := by
  unfold toNext; split <;> simp
@[simp] theorem toNext_md_arTold (key p : Nat) : (toNext key p m).md.arTold = m.md.arTold := by
  unfold toNext; split <;> simp
@[simp] theorem toNext_md_haltOpen (key p : Nat) : (toNext key p m).md.haltOpen = m.md.haltOpen := by
  unfold toNext; split <;> simp
@[simp] theorem toNext_md_haltv (key p : Nat) : (toNext key p m).md.haltv = m.md.haltv := by
  unfold toNext; split <;> simp
@[simp] theorem toNext_md_splits (key p : Nat) : (toNext key p m).md.splits = m.md.splits := by
  unfold toNext; split <;> simp
@[simp] theorem toNext_md_abtot (key p : Nat) : (toNext key p m).md.abtot = m.md.abtot := by
  unfold toNext; split <;> simp
@[simp] theorem toNext_md_deferN (key p : Nat) : (toNext key p m).md.deferN = m.md.deferN := by
  unfold toNext; split <;> simp
@[simp] theorem toNext_md_hurdleOff (key p : Nat) : (toNext key p m).md.hurdleOff = m.md.hurdleOff := by
  unfold toNext; split <;> simp
@[simp] theorem toNext_md_hurdleProt (key p : Nat) : (toNext key p m).md.hurdleProt = m.md.hurdleProt := by
  unfold toNext; split <;> simp
@[simp] theorem toNext_md_critDefer (key p : Nat) : (toNext key p m).md.critDefer = m.md.critDefer := by
  unfold toNext; split <;> simp
@[simp] theorem toNext_md_wuPass (key p : Nat) : (toNext key p m).md.wuPass = m.md.wuPass := by
  unfold toNext; split <;> simp
@[simp] theorem toNext_md_wuOver (key p : Nat) : (toNext key p m).md.wuOver = m.md.wuOver := by
  unfold toNext; split <;> simp
@[simp] theorem toNext_md_step4At (key p : Nat) : (toNext key p m).md.step4At = m.md.step4At := by
  unfold toNext; split <;> simp
@[simp] theorem toNext_md_runBank (key p : Nat) : (toNext key p m).md.runBank = m.md.runBank := by
  unfold toNext; split <;> simp
@[simp] theorem toNext_md_updRestart (key p : Nat) : (toNext key p m).md.updRestart = m.md.updRestart := by
  unfold toNext; split <;> simp
@[simp] theorem toNext_md_trialBits (key p : Nat) : (toNext key p m).md.trialBits = m.md.trialBits := by
  unfold toNext; split <;> simp
@[simp] theorem toNext_md_step5At (key p : Nat) : (toNext key p m).md.step5At = m.md.step5At := by
  unfold toNext; split <;> simp
@[simp] theorem toNext_md_step8At (key p : Nat) : (toNext key p m).md.step8At = m.md.step8At := by
  unfold toNext; split <;> simp
@[simp] theorem toNext_md_doneAt (key p : Nat) : (toNext key p m).md.doneAt = m.md.doneAt := by
  unfold toNext; split <;> simp
@[simp] theorem toNext_md_serveAt (key p : Nat) : (toNext key p m).md.serveAt = m.md.serveAt := by
  unfold toNext; split <;> simp
@[simp] theorem toNext_md_startedAt (key p : Nat) : (toNext key p m).md.startedAt = m.md.startedAt := by
  unfold toNext; split <;> simp
@[simp] theorem toNext_md_areas (key p : Nat) : (toNext key p m).md.areas = m.md.areas := by
  unfold toNext; split <;> simp
@[simp] theorem toNext_md_forces (key p : Nat) : (toNext key p m).md.forces = m.md.forces := by
  unfold toNext; split <;> simp
@[simp] theorem toNext_md_lines (key p : Nat) : (toNext key p m).md.lines = m.md.lines := by
  unfold toNext; split <;> simp
@[simp] theorem toNext_md_lineAt (key p : Nat) : (toNext key p m).md.lineAt = m.md.lineAt := by
  unfold toNext; split <;> simp
@[simp] theorem toNext_md_lineSince (key p : Nat) : (toNext key p m).md.lineSince = m.md.lineSince := by
  unfold toNext; split <;> simp
@[simp] theorem toNext_md_linkDelay (key p : Nat) : (toNext key p m).md.linkDelay = m.md.linkDelay := by
  unfold toNext; split <;> simp
@[simp] theorem toNext_md_firstAt (key p : Nat) : (toNext key p m).md.firstAt = m.md.firstAt := by
  unfold toNext; split <;> simp
@[simp] theorem toNext_md_owed (key p : Nat) : (toNext key p m).md.owed = m.md.owed := by
  unfold toNext; split <;> simp
@[simp] theorem toBasicFrom_md_mode (due key off : Nat) : (toBasicFrom due key off m).md.mode = m.md.mode := by
  unfold toBasicFrom; split <;> simp
@[simp] theorem toBasicFrom_md_hcause (due key off : Nat) : (toBasicFrom due key off m).md.hcause = m.md.hcause := by
  unfold toBasicFrom; split <;> simp
@[simp] theorem toBasicFrom_md_step (due key off : Nat) : (toBasicFrom due key off m).md.step = m.md.step := by
  unfold toBasicFrom; split <;> simp
@[simp] theorem toBasicFrom_md_warm (due key off : Nat) : (toBasicFrom due key off m).md.warm = m.md.warm := by
  unfold toBasicFrom; split <;> simp
@[simp] theorem toBasicFrom_md_retage (due key off : Nat) : (toBasicFrom due key off m).md.retage = m.md.retage := by
  unfold toBasicFrom; split <;> simp
@[simp] theorem toBasicFrom_md_coldwhy (due key off : Nat) : (toBasicFrom due key off m).md.coldwhy = m.md.coldwhy := by
  unfold toBasicFrom; split <;> simp
@[simp] theorem toBasicFrom_md_reteq (due key off : Nat) : (toBasicFrom due key off m).md.reteq = m.md.reteq := by
  unfold toBasicFrom; split <;> simp
@[simp] theorem toBasicFrom_md_bist (due key off : Nat) : (toBasicFrom due key off m).md.bist = m.md.bist := by
  unfold toBasicFrom; split <;> simp
@[simp] theorem toBasicFrom_md_couplers (due key off : Nat) : (toBasicFrom due key off m).md.couplers = m.md.couplers := by
  unfold toBasicFrom; split <;> simp
@[simp] theorem toBasicFrom_md_pendMode (due key off : Nat) : (toBasicFrom due key off m).md.pendMode = m.md.pendMode := by
  unfold toBasicFrom; split <;> simp
@[simp] theorem toBasicFrom_md_trigs (due key off : Nat) : (toBasicFrom due key off m).md.trigs = m.md.trigs := by
  unfold toBasicFrom; split <;> simp
@[simp] theorem toBasicFrom_md_areasWas (due key off : Nat) : (toBasicFrom due key off m).md.areasWas = m.md.areasWas := by
  unfold toBasicFrom; split <;> simp
@[simp] theorem toBasicFrom_md_haltAt (due key off : Nat) : (toBasicFrom due key off m).md.haltAt = m.md.haltAt := by
  unfold toBasicFrom; split <;> simp
@[simp] theorem toBasicFrom_md_arTold (due key off : Nat) : (toBasicFrom due key off m).md.arTold = m.md.arTold := by
  unfold toBasicFrom; split <;> simp
@[simp] theorem toBasicFrom_md_haltOpen (due key off : Nat) : (toBasicFrom due key off m).md.haltOpen = m.md.haltOpen := by
  unfold toBasicFrom; split <;> simp
@[simp] theorem toBasicFrom_md_haltv (due key off : Nat) : (toBasicFrom due key off m).md.haltv = m.md.haltv := by
  unfold toBasicFrom; split <;> simp
@[simp] theorem toBasicFrom_md_splits (due key off : Nat) : (toBasicFrom due key off m).md.splits = m.md.splits := by
  unfold toBasicFrom; split <;> simp
@[simp] theorem toBasicFrom_md_abtot (due key off : Nat) : (toBasicFrom due key off m).md.abtot = m.md.abtot := by
  unfold toBasicFrom; split <;> simp
@[simp] theorem toBasicFrom_md_deferN (due key off : Nat) : (toBasicFrom due key off m).md.deferN = m.md.deferN := by
  unfold toBasicFrom; split <;> simp
@[simp] theorem toBasicFrom_md_hurdleOff (due key off : Nat) : (toBasicFrom due key off m).md.hurdleOff = m.md.hurdleOff := by
  unfold toBasicFrom; split <;> simp
@[simp] theorem toBasicFrom_md_hurdleProt (due key off : Nat) : (toBasicFrom due key off m).md.hurdleProt = m.md.hurdleProt := by
  unfold toBasicFrom; split <;> simp
@[simp] theorem toBasicFrom_md_critDefer (due key off : Nat) : (toBasicFrom due key off m).md.critDefer = m.md.critDefer := by
  unfold toBasicFrom; split <;> simp
@[simp] theorem toBasicFrom_md_wuPass (due key off : Nat) : (toBasicFrom due key off m).md.wuPass = m.md.wuPass := by
  unfold toBasicFrom; split <;> simp
@[simp] theorem toBasicFrom_md_wuOver (due key off : Nat) : (toBasicFrom due key off m).md.wuOver = m.md.wuOver := by
  unfold toBasicFrom; split <;> simp
@[simp] theorem toBasicFrom_md_step4At (due key off : Nat) : (toBasicFrom due key off m).md.step4At = m.md.step4At := by
  unfold toBasicFrom; split <;> simp
@[simp] theorem toBasicFrom_md_runBank (due key off : Nat) : (toBasicFrom due key off m).md.runBank = m.md.runBank := by
  unfold toBasicFrom; split <;> simp
@[simp] theorem toBasicFrom_md_updRestart (due key off : Nat) : (toBasicFrom due key off m).md.updRestart = m.md.updRestart := by
  unfold toBasicFrom; split <;> simp
@[simp] theorem toBasicFrom_md_trialBits (due key off : Nat) : (toBasicFrom due key off m).md.trialBits = m.md.trialBits := by
  unfold toBasicFrom; split <;> simp
@[simp] theorem toBasicFrom_md_step5At (due key off : Nat) : (toBasicFrom due key off m).md.step5At = m.md.step5At := by
  unfold toBasicFrom; split <;> simp
@[simp] theorem toBasicFrom_md_step8At (due key off : Nat) : (toBasicFrom due key off m).md.step8At = m.md.step8At := by
  unfold toBasicFrom; split <;> simp
@[simp] theorem toBasicFrom_md_doneAt (due key off : Nat) : (toBasicFrom due key off m).md.doneAt = m.md.doneAt := by
  unfold toBasicFrom; split <;> simp
@[simp] theorem toBasicFrom_md_serveAt (due key off : Nat) : (toBasicFrom due key off m).md.serveAt = m.md.serveAt := by
  unfold toBasicFrom; split <;> simp
@[simp] theorem toBasicFrom_md_startedAt (due key off : Nat) : (toBasicFrom due key off m).md.startedAt = m.md.startedAt := by
  unfold toBasicFrom; split <;> simp
@[simp] theorem toBasicFrom_md_areas (due key off : Nat) : (toBasicFrom due key off m).md.areas = m.md.areas := by
  unfold toBasicFrom; split <;> simp
@[simp] theorem toBasicFrom_md_forces (due key off : Nat) : (toBasicFrom due key off m).md.forces = m.md.forces := by
  unfold toBasicFrom; split <;> simp
@[simp] theorem toBasicFrom_md_lines (due key off : Nat) : (toBasicFrom due key off m).md.lines = m.md.lines := by
  unfold toBasicFrom; split <;> simp
@[simp] theorem toBasicFrom_md_lineAt (due key off : Nat) : (toBasicFrom due key off m).md.lineAt = m.md.lineAt := by
  unfold toBasicFrom; split <;> simp
@[simp] theorem toBasicFrom_md_lineSince (due key off : Nat) : (toBasicFrom due key off m).md.lineSince = m.md.lineSince := by
  unfold toBasicFrom; split <;> simp
@[simp] theorem toBasicFrom_md_linkDelay (due key off : Nat) : (toBasicFrom due key off m).md.linkDelay = m.md.linkDelay := by
  unfold toBasicFrom; split <;> simp
@[simp] theorem toBasicFrom_md_firstAt (due key off : Nat) : (toBasicFrom due key off m).md.firstAt = m.md.firstAt := by
  unfold toBasicFrom; split <;> simp
@[simp] theorem toBasicFrom_md_owed (due key off : Nat) : (toBasicFrom due key off m).md.owed = m.md.owed := by
  unfold toBasicFrom; split <;> simp
@[simp] theorem toBasic_md_mode (key off : Nat) : (toBasic key off m).md.mode = m.md.mode := by
  unfold toBasic; split <;> simp
@[simp] theorem toBasic_md_hcause (key off : Nat) : (toBasic key off m).md.hcause = m.md.hcause := by
  unfold toBasic; split <;> simp
@[simp] theorem toBasic_md_step (key off : Nat) : (toBasic key off m).md.step = m.md.step := by
  unfold toBasic; split <;> simp
@[simp] theorem toBasic_md_warm (key off : Nat) : (toBasic key off m).md.warm = m.md.warm := by
  unfold toBasic; split <;> simp
@[simp] theorem toBasic_md_retage (key off : Nat) : (toBasic key off m).md.retage = m.md.retage := by
  unfold toBasic; split <;> simp
@[simp] theorem toBasic_md_coldwhy (key off : Nat) : (toBasic key off m).md.coldwhy = m.md.coldwhy := by
  unfold toBasic; split <;> simp
@[simp] theorem toBasic_md_reteq (key off : Nat) : (toBasic key off m).md.reteq = m.md.reteq := by
  unfold toBasic; split <;> simp
@[simp] theorem toBasic_md_bist (key off : Nat) : (toBasic key off m).md.bist = m.md.bist := by
  unfold toBasic; split <;> simp
@[simp] theorem toBasic_md_couplers (key off : Nat) : (toBasic key off m).md.couplers = m.md.couplers := by
  unfold toBasic; split <;> simp
@[simp] theorem toBasic_md_pendMode (key off : Nat) : (toBasic key off m).md.pendMode = m.md.pendMode := by
  unfold toBasic; split <;> simp
@[simp] theorem toBasic_md_trigs (key off : Nat) : (toBasic key off m).md.trigs = m.md.trigs := by
  unfold toBasic; split <;> simp
@[simp] theorem toBasic_md_areasWas (key off : Nat) : (toBasic key off m).md.areasWas = m.md.areasWas := by
  unfold toBasic; split <;> simp
@[simp] theorem toBasic_md_haltAt (key off : Nat) : (toBasic key off m).md.haltAt = m.md.haltAt := by
  unfold toBasic; split <;> simp
@[simp] theorem toBasic_md_arTold (key off : Nat) : (toBasic key off m).md.arTold = m.md.arTold := by
  unfold toBasic; split <;> simp
@[simp] theorem toBasic_md_haltOpen (key off : Nat) : (toBasic key off m).md.haltOpen = m.md.haltOpen := by
  unfold toBasic; split <;> simp
@[simp] theorem toBasic_md_haltv (key off : Nat) : (toBasic key off m).md.haltv = m.md.haltv := by
  unfold toBasic; split <;> simp
@[simp] theorem toBasic_md_splits (key off : Nat) : (toBasic key off m).md.splits = m.md.splits := by
  unfold toBasic; split <;> simp
@[simp] theorem toBasic_md_abtot (key off : Nat) : (toBasic key off m).md.abtot = m.md.abtot := by
  unfold toBasic; split <;> simp
@[simp] theorem toBasic_md_deferN (key off : Nat) : (toBasic key off m).md.deferN = m.md.deferN := by
  unfold toBasic; split <;> simp
@[simp] theorem toBasic_md_hurdleOff (key off : Nat) : (toBasic key off m).md.hurdleOff = m.md.hurdleOff := by
  unfold toBasic; split <;> simp
@[simp] theorem toBasic_md_hurdleProt (key off : Nat) : (toBasic key off m).md.hurdleProt = m.md.hurdleProt := by
  unfold toBasic; split <;> simp
@[simp] theorem toBasic_md_critDefer (key off : Nat) : (toBasic key off m).md.critDefer = m.md.critDefer := by
  unfold toBasic; split <;> simp
@[simp] theorem toBasic_md_wuPass (key off : Nat) : (toBasic key off m).md.wuPass = m.md.wuPass := by
  unfold toBasic; split <;> simp
@[simp] theorem toBasic_md_wuOver (key off : Nat) : (toBasic key off m).md.wuOver = m.md.wuOver := by
  unfold toBasic; split <;> simp
@[simp] theorem toBasic_md_step4At (key off : Nat) : (toBasic key off m).md.step4At = m.md.step4At := by
  unfold toBasic; split <;> simp
@[simp] theorem toBasic_md_runBank (key off : Nat) : (toBasic key off m).md.runBank = m.md.runBank := by
  unfold toBasic; split <;> simp
@[simp] theorem toBasic_md_updRestart (key off : Nat) : (toBasic key off m).md.updRestart = m.md.updRestart := by
  unfold toBasic; split <;> simp
@[simp] theorem toBasic_md_trialBits (key off : Nat) : (toBasic key off m).md.trialBits = m.md.trialBits := by
  unfold toBasic; split <;> simp
@[simp] theorem toBasic_md_step5At (key off : Nat) : (toBasic key off m).md.step5At = m.md.step5At := by
  unfold toBasic; split <;> simp
@[simp] theorem toBasic_md_step8At (key off : Nat) : (toBasic key off m).md.step8At = m.md.step8At := by
  unfold toBasic; split <;> simp
@[simp] theorem toBasic_md_doneAt (key off : Nat) : (toBasic key off m).md.doneAt = m.md.doneAt := by
  unfold toBasic; split <;> simp
@[simp] theorem toBasic_md_serveAt (key off : Nat) : (toBasic key off m).md.serveAt = m.md.serveAt := by
  unfold toBasic; split <;> simp
@[simp] theorem toBasic_md_startedAt (key off : Nat) : (toBasic key off m).md.startedAt = m.md.startedAt := by
  unfold toBasic; split <;> simp
@[simp] theorem toBasic_md_areas (key off : Nat) : (toBasic key off m).md.areas = m.md.areas := by
  unfold toBasic; split <;> simp
@[simp] theorem toBasic_md_forces (key off : Nat) : (toBasic key off m).md.forces = m.md.forces := by
  unfold toBasic; split <;> simp
@[simp] theorem toBasic_md_lines (key off : Nat) : (toBasic key off m).md.lines = m.md.lines := by
  unfold toBasic; split <;> simp
@[simp] theorem toBasic_md_lineAt (key off : Nat) : (toBasic key off m).md.lineAt = m.md.lineAt := by
  unfold toBasic; split <;> simp
@[simp] theorem toBasic_md_lineSince (key off : Nat) : (toBasic key off m).md.lineSince = m.md.lineSince := by
  unfold toBasic; split <;> simp
@[simp] theorem toBasic_md_linkDelay (key off : Nat) : (toBasic key off m).md.linkDelay = m.md.linkDelay := by
  unfold toBasic; split <;> simp
@[simp] theorem toBasic_md_firstAt (key off : Nat) : (toBasic key off m).md.firstAt = m.md.firstAt := by
  unfold toBasic; split <;> simp
@[simp] theorem toBasic_md_owed (key off : Nat) : (toBasic key off m).md.owed = m.md.owed := by
  unfold toBasic; split <;> simp

end Sys2Proof.Machine
end

