-- ==== Sys2Proof/Laws/Host.lean ====
section
/-! SUPPORT. What the shared operations leave alone inside the host interface. -/

namespace Sys2Proof.Machine

variable (m : Mod)

/-- All of the host interface but rings, slots, ring memory, vectors and the event FIFO with its counts. -/
def HostIf.noOut (h : HostIf) : HostIf :=
  { h with rings := [], slots := [], mem := [], vecs := [], fifo := [], evp := 0, evd := 0, evl := 0, lossQ := [] }
/-- As `noOut`, and but the agreed events that wait. -/
def HostIf.noTold (h : HostIf) : HostIf :=
  { h with rings := [], slots := [], mem := [], vecs := [], fifo := [], evp := 0, evd := 0, evl := 0, lossQ := [], evWait := [] }
/-- As `noOut`, and but the submissions in work and their completions. -/
def HostIf.noDone (h : HostIf) : HostIf :=
  { h with rings := [], slots := [], mem := [], vecs := [], fifo := [], evp := 0, evd := 0, evl := 0, lossQ := [], open_ := [], cplWait := [], order := [], cmp := 0, svcOut := [] }

theorem noOut_pcie {a b : HostIf} (h : a.noOut = b.noOut) : a.pcie = b.pcie := (congrArg HostIf.pcie h :)
theorem noOut_run {a b : HostIf} (h : a.noOut = b.noOut) : a.run = b.run := (congrArg HostIf.run h :)
theorem noOut_mirror {a b : HostIf} (h : a.noOut = b.noOut) : a.mirror = b.mirror := (congrArg HostIf.mirror h :)
theorem noOut_seterr {a b : HostIf} (h : a.noOut = b.noOut) : a.seterr = b.seterr := (congrArg HostIf.seterr h :)
theorem noOut_invcause {a b : HostIf} (h : a.noOut = b.noOut) : a.invcause = b.invcause := (congrArg HostIf.invcause h :)
theorem noOut_lspeed {a b : HostIf} (h : a.noOut = b.noOut) : a.lspeed = b.lspeed := (congrArg HostIf.lspeed h :)
theorem noOut_lwidth {a b : HostIf} (h : a.noOut = b.noOut) : a.lwidth = b.lwidth := (congrArg HostIf.lwidth h :)
theorem noOut_valid {a b : HostIf} (h : a.noOut = b.noOut) : a.valid = b.valid := (congrArg HostIf.valid h :)
theorem noOut_busMaster {a b : HostIf} (h : a.noOut = b.noOut) : a.busMaster = b.busMaster := (congrArg HostIf.busMaster h :)
theorem noOut_mirl {a b : HostIf} (h : a.noOut = b.noOut) : a.mirl = b.mirl := (congrArg HostIf.mirl h :)
theorem noOut_mirh {a b : HostIf} (h : a.noOut = b.noOut) : a.mirh = b.mirh := (congrArg HostIf.mirh h :)
theorem noOut_headl {a b : HostIf} (h : a.noOut = b.noOut) : a.headl = b.headl := (congrArg HostIf.headl h :)
theorem noOut_headh {a b : HostIf} (h : a.noOut = b.noOut) : a.headh = b.headh := (congrArg HostIf.headh h :)
theorem noOut_acc {a b : HostIf} (h : a.noOut = b.noOut) : a.acc = b.acc := (congrArg HostIf.acc h :)
theorem noOut_cmp {a b : HostIf} (h : a.noOut = b.noOut) : a.cmp = b.cmp := (congrArg HostIf.cmp h :)
theorem noOut_latCmp {a b : HostIf} (h : a.noOut = b.noOut) : a.latCmp = b.latCmp := (congrArg HostIf.latCmp h :)
theorem noOut_latOut {a b : HostIf} (h : a.noOut = b.noOut) : a.latOut = b.latOut := (congrArg HostIf.latOut h :)
theorem noOut_latEvd {a b : HostIf} (h : a.noOut = b.noOut) : a.latEvd = b.latEvd := (congrArg HostIf.latEvd h :)
theorem noOut_latEvl {a b : HostIf} (h : a.noOut = b.noOut) : a.latEvl = b.latEvl := (congrArg HostIf.latEvl h :)
theorem noOut_discN {a b : HostIf} (h : a.noOut = b.noOut) : a.discN = b.discN := (congrArg HostIf.discN h :)
theorem noOut_resetN {a b : HostIf} (h : a.noOut = b.noOut) : a.resetN = b.resetN := (congrArg HostIf.resetN h :)
theorem noOut_resetTold {a b : HostIf} (h : a.noOut = b.noOut) : a.resetTold = b.resetTold := (congrArg HostIf.resetTold h :)
theorem noOut_head {a b : HostIf} (h : a.noOut = b.noOut) : a.head = b.head := (congrArg HostIf.head h :)
theorem noOut_route {a b : HostIf} (h : a.noOut = b.noOut) : a.route = b.route := (congrArg HostIf.route h :)
theorem noOut_waiting {a b : HostIf} (h : a.noOut = b.noOut) : a.waiting = b.waiting := (congrArg HostIf.waiting h :)
theorem noOut_cycleSubs {a b : HostIf} (h : a.noOut = b.noOut) : a.cycleSubs = b.cycleSubs := (congrArg HostIf.cycleSubs h :)
theorem noOut_cycleAt {a b : HostIf} (h : a.noOut = b.noOut) : a.cycleAt = b.cycleAt := (congrArg HostIf.cycleAt h :)
theorem noOut_critWait {a b : HostIf} (h : a.noOut = b.noOut) : a.critWait = b.critWait := (congrArg HostIf.critWait h :)
theorem noOut_open_ {a b : HostIf} (h : a.noOut = b.noOut) : a.open_ = b.open_ := (congrArg HostIf.open_ h :)
theorem noOut_order {a b : HostIf} (h : a.noOut = b.noOut) : a.order = b.order := (congrArg HostIf.order h :)
theorem noOut_cplWait {a b : HostIf} (h : a.noOut = b.noOut) : a.cplWait = b.cplWait := (congrArg HostIf.cplWait h :)
theorem noOut_evWait {a b : HostIf} (h : a.noOut = b.noOut) : a.evWait = b.evWait := (congrArg HostIf.evWait h :)
theorem noOut_crit {a b : HostIf} (h : a.noOut = b.noOut) : a.crit = b.crit := (congrArg HostIf.crit h :)
theorem noOut_svcOut {a b : HostIf} (h : a.noOut = b.noOut) : a.svcOut = b.svcOut := (congrArg HostIf.svcOut h :)
theorem noOut_dfifo {a b : HostIf} (h : a.noOut = b.noOut) : a.dfifo = b.dfifo := (congrArg HostIf.dfifo h :)
theorem noOut_mscn {a b : HostIf} (h : a.noOut = b.noOut) : a.mscn = b.mscn := (congrArg HostIf.mscn h :)
theorem noOut_mirrorMode {a b : HostIf} (h : a.noOut = b.noOut) : a.mirrorMode = b.mirrorMode := (congrArg HostIf.mirrorMode h :)
theorem noOut_mirrorVset {a b : HostIf} (h : a.noOut = b.noOut) : a.mirrorVset = b.mirrorVset := (congrArg HostIf.mirrorVset h :)
theorem noOut_mirrorMfl {a b : HostIf} (h : a.noOut = b.noOut) : a.mirrorMfl = b.mirrorMfl := (congrArg HostIf.mirrorMfl h :)
theorem noOut_skipAt {a b : HostIf} (h : a.noOut = b.noOut) : a.skipAt = b.skipAt := (congrArg HostIf.skipAt h :)
theorem noOut_half0 {a b : HostIf} (h : a.noOut = b.noOut) : a.half0 = b.half0 := (congrArg HostIf.half0 h :)
theorem noOut_half1 {a b : HostIf} (h : a.noOut = b.noOut) : a.half1 = b.half1 := (congrArg HostIf.half1 h :)
theorem noOut_mirrorBuild {a b : HostIf} (h : a.noOut = b.noOut) : a.mirrorBuild = b.mirrorBuild := (congrArg HostIf.mirrorBuild h :)
theorem noOut_mirrorStn {a b : HostIf} (h : a.noOut = b.noOut) : a.mirrorStn = b.mirrorStn := (congrArg HostIf.mirrorStn h :)
theorem noOut_readData {a b : HostIf} (h : a.noOut = b.noOut) : a.readData = b.readData := (congrArg HostIf.readData h :)
theorem noTold_pcie {a b : HostIf} (h : a.noTold = b.noTold) : a.pcie = b.pcie := (congrArg HostIf.pcie h :)
theorem noTold_run {a b : HostIf} (h : a.noTold = b.noTold) : a.run = b.run := (congrArg HostIf.run h :)
theorem noTold_mirror {a b : HostIf} (h : a.noTold = b.noTold) : a.mirror = b.mirror := (congrArg HostIf.mirror h :)
theorem noTold_seterr {a b : HostIf} (h : a.noTold = b.noTold) : a.seterr = b.seterr := (congrArg HostIf.seterr h :)
theorem noTold_invcause {a b : HostIf} (h : a.noTold = b.noTold) : a.invcause = b.invcause := (congrArg HostIf.invcause h :)
theorem noTold_lspeed {a b : HostIf} (h : a.noTold = b.noTold) : a.lspeed = b.lspeed := (congrArg HostIf.lspeed h :)
theorem noTold_lwidth {a b : HostIf} (h : a.noTold = b.noTold) : a.lwidth = b.lwidth := (congrArg HostIf.lwidth h :)
theorem noTold_valid {a b : HostIf} (h : a.noTold = b.noTold) : a.valid = b.valid := (congrArg HostIf.valid h :)
theorem noTold_busMaster {a b : HostIf} (h : a.noTold = b.noTold) : a.busMaster = b.busMaster := (congrArg HostIf.busMaster h :)
theorem noTold_mirl {a b : HostIf} (h : a.noTold = b.noTold) : a.mirl = b.mirl := (congrArg HostIf.mirl h :)
theorem noTold_mirh {a b : HostIf} (h : a.noTold = b.noTold) : a.mirh = b.mirh := (congrArg HostIf.mirh h :)
theorem noTold_headl {a b : HostIf} (h : a.noTold = b.noTold) : a.headl = b.headl := (congrArg HostIf.headl h :)
theorem noTold_headh {a b : HostIf} (h : a.noTold = b.noTold) : a.headh = b.headh := (congrArg HostIf.headh h :)
theorem noTold_acc {a b : HostIf} (h : a.noTold = b.noTold) : a.acc = b.acc := (congrArg HostIf.acc h :)
theorem noTold_cmp {a b : HostIf} (h : a.noTold = b.noTold) : a.cmp = b.cmp := (congrArg HostIf.cmp h :)
theorem noTold_latCmp {a b : HostIf} (h : a.noTold = b.noTold) : a.latCmp = b.latCmp := (congrArg HostIf.latCmp h :)
theorem noTold_latOut {a b : HostIf} (h : a.noTold = b.noTold) : a.latOut = b.latOut := (congrArg HostIf.latOut h :)
theorem noTold_latEvd {a b : HostIf} (h : a.noTold = b.noTold) : a.latEvd = b.latEvd := (congrArg HostIf.latEvd h :)
theorem noTold_latEvl {a b : HostIf} (h : a.noTold = b.noTold) : a.latEvl = b.latEvl := (congrArg HostIf.latEvl h :)
theorem noTold_discN {a b : HostIf} (h : a.noTold = b.noTold) : a.discN = b.discN := (congrArg HostIf.discN h :)
theorem noTold_resetN {a b : HostIf} (h : a.noTold = b.noTold) : a.resetN = b.resetN := (congrArg HostIf.resetN h :)
theorem noTold_resetTold {a b : HostIf} (h : a.noTold = b.noTold) : a.resetTold = b.resetTold := (congrArg HostIf.resetTold h :)
theorem noTold_head {a b : HostIf} (h : a.noTold = b.noTold) : a.head = b.head := (congrArg HostIf.head h :)
theorem noTold_route {a b : HostIf} (h : a.noTold = b.noTold) : a.route = b.route := (congrArg HostIf.route h :)
theorem noTold_waiting {a b : HostIf} (h : a.noTold = b.noTold) : a.waiting = b.waiting := (congrArg HostIf.waiting h :)
theorem noTold_cycleSubs {a b : HostIf} (h : a.noTold = b.noTold) : a.cycleSubs = b.cycleSubs := (congrArg HostIf.cycleSubs h :)
theorem noTold_cycleAt {a b : HostIf} (h : a.noTold = b.noTold) : a.cycleAt = b.cycleAt := (congrArg HostIf.cycleAt h :)
theorem noTold_critWait {a b : HostIf} (h : a.noTold = b.noTold) : a.critWait = b.critWait := (congrArg HostIf.critWait h :)
theorem noTold_open_ {a b : HostIf} (h : a.noTold = b.noTold) : a.open_ = b.open_ := (congrArg HostIf.open_ h :)
theorem noTold_order {a b : HostIf} (h : a.noTold = b.noTold) : a.order = b.order := (congrArg HostIf.order h :)
theorem noTold_cplWait {a b : HostIf} (h : a.noTold = b.noTold) : a.cplWait = b.cplWait := (congrArg HostIf.cplWait h :)
theorem noTold_crit {a b : HostIf} (h : a.noTold = b.noTold) : a.crit = b.crit := (congrArg HostIf.crit h :)
theorem noTold_svcOut {a b : HostIf} (h : a.noTold = b.noTold) : a.svcOut = b.svcOut := (congrArg HostIf.svcOut h :)
theorem noTold_dfifo {a b : HostIf} (h : a.noTold = b.noTold) : a.dfifo = b.dfifo := (congrArg HostIf.dfifo h :)
theorem noTold_mscn {a b : HostIf} (h : a.noTold = b.noTold) : a.mscn = b.mscn := (congrArg HostIf.mscn h :)
theorem noTold_mirrorMode {a b : HostIf} (h : a.noTold = b.noTold) : a.mirrorMode = b.mirrorMode := (congrArg HostIf.mirrorMode h :)
theorem noTold_mirrorVset {a b : HostIf} (h : a.noTold = b.noTold) : a.mirrorVset = b.mirrorVset := (congrArg HostIf.mirrorVset h :)
theorem noTold_mirrorMfl {a b : HostIf} (h : a.noTold = b.noTold) : a.mirrorMfl = b.mirrorMfl := (congrArg HostIf.mirrorMfl h :)
theorem noTold_skipAt {a b : HostIf} (h : a.noTold = b.noTold) : a.skipAt = b.skipAt := (congrArg HostIf.skipAt h :)
theorem noTold_half0 {a b : HostIf} (h : a.noTold = b.noTold) : a.half0 = b.half0 := (congrArg HostIf.half0 h :)
theorem noTold_half1 {a b : HostIf} (h : a.noTold = b.noTold) : a.half1 = b.half1 := (congrArg HostIf.half1 h :)
theorem noTold_mirrorBuild {a b : HostIf} (h : a.noTold = b.noTold) : a.mirrorBuild = b.mirrorBuild := (congrArg HostIf.mirrorBuild h :)
theorem noTold_mirrorStn {a b : HostIf} (h : a.noTold = b.noTold) : a.mirrorStn = b.mirrorStn := (congrArg HostIf.mirrorStn h :)
theorem noTold_readData {a b : HostIf} (h : a.noTold = b.noTold) : a.readData = b.readData := (congrArg HostIf.readData h :)
theorem noDone_pcie {a b : HostIf} (h : a.noDone = b.noDone) : a.pcie = b.pcie := (congrArg HostIf.pcie h :)
theorem noDone_run {a b : HostIf} (h : a.noDone = b.noDone) : a.run = b.run := (congrArg HostIf.run h :)
theorem noDone_mirror {a b : HostIf} (h : a.noDone = b.noDone) : a.mirror = b.mirror := (congrArg HostIf.mirror h :)
theorem noDone_seterr {a b : HostIf} (h : a.noDone = b.noDone) : a.seterr = b.seterr := (congrArg HostIf.seterr h :)
theorem noDone_invcause {a b : HostIf} (h : a.noDone = b.noDone) : a.invcause = b.invcause := (congrArg HostIf.invcause h :)
theorem noDone_lspeed {a b : HostIf} (h : a.noDone = b.noDone) : a.lspeed = b.lspeed := (congrArg HostIf.lspeed h :)
theorem noDone_lwidth {a b : HostIf} (h : a.noDone = b.noDone) : a.lwidth = b.lwidth := (congrArg HostIf.lwidth h :)
theorem noDone_valid {a b : HostIf} (h : a.noDone = b.noDone) : a.valid = b.valid := (congrArg HostIf.valid h :)
theorem noDone_busMaster {a b : HostIf} (h : a.noDone = b.noDone) : a.busMaster = b.busMaster := (congrArg HostIf.busMaster h :)
theorem noDone_mirl {a b : HostIf} (h : a.noDone = b.noDone) : a.mirl = b.mirl := (congrArg HostIf.mirl h :)
theorem noDone_mirh {a b : HostIf} (h : a.noDone = b.noDone) : a.mirh = b.mirh := (congrArg HostIf.mirh h :)
theorem noDone_headl {a b : HostIf} (h : a.noDone = b.noDone) : a.headl = b.headl := (congrArg HostIf.headl h :)
theorem noDone_headh {a b : HostIf} (h : a.noDone = b.noDone) : a.headh = b.headh := (congrArg HostIf.headh h :)
theorem noDone_acc {a b : HostIf} (h : a.noDone = b.noDone) : a.acc = b.acc := (congrArg HostIf.acc h :)
theorem noDone_latCmp {a b : HostIf} (h : a.noDone = b.noDone) : a.latCmp = b.latCmp := (congrArg HostIf.latCmp h :)
theorem noDone_latOut {a b : HostIf} (h : a.noDone = b.noDone) : a.latOut = b.latOut := (congrArg HostIf.latOut h :)
theorem noDone_latEvd {a b : HostIf} (h : a.noDone = b.noDone) : a.latEvd = b.latEvd := (congrArg HostIf.latEvd h :)
theorem noDone_latEvl {a b : HostIf} (h : a.noDone = b.noDone) : a.latEvl = b.latEvl := (congrArg HostIf.latEvl h :)
theorem noDone_discN {a b : HostIf} (h : a.noDone = b.noDone) : a.discN = b.discN := (congrArg HostIf.discN h :)
theorem noDone_resetN {a b : HostIf} (h : a.noDone = b.noDone) : a.resetN = b.resetN := (congrArg HostIf.resetN h :)
theorem noDone_resetTold {a b : HostIf} (h : a.noDone = b.noDone) : a.resetTold = b.resetTold := (congrArg HostIf.resetTold h :)
theorem noDone_head {a b : HostIf} (h : a.noDone = b.noDone) : a.head = b.head := (congrArg HostIf.head h :)
theorem noDone_route {a b : HostIf} (h : a.noDone = b.noDone) : a.route = b.route := (congrArg HostIf.route h :)
theorem noDone_waiting {a b : HostIf} (h : a.noDone = b.noDone) : a.waiting = b.waiting := (congrArg HostIf.waiting h :)
theorem noDone_cycleSubs {a b : HostIf} (h : a.noDone = b.noDone) : a.cycleSubs = b.cycleSubs := (congrArg HostIf.cycleSubs h :)
theorem noDone_cycleAt {a b : HostIf} (h : a.noDone = b.noDone) : a.cycleAt = b.cycleAt := (congrArg HostIf.cycleAt h :)
theorem noDone_critWait {a b : HostIf} (h : a.noDone = b.noDone) : a.critWait = b.critWait := (congrArg HostIf.critWait h :)
theorem noDone_evWait {a b : HostIf} (h : a.noDone = b.noDone) : a.evWait = b.evWait := (congrArg HostIf.evWait h :)
theorem noDone_crit {a b : HostIf} (h : a.noDone = b.noDone) : a.crit = b.crit := (congrArg HostIf.crit h :)
theorem noDone_dfifo {a b : HostIf} (h : a.noDone = b.noDone) : a.dfifo = b.dfifo := (congrArg HostIf.dfifo h :)
theorem noDone_mscn {a b : HostIf} (h : a.noDone = b.noDone) : a.mscn = b.mscn := (congrArg HostIf.mscn h :)
theorem noDone_mirrorMode {a b : HostIf} (h : a.noDone = b.noDone) : a.mirrorMode = b.mirrorMode := (congrArg HostIf.mirrorMode h :)
theorem noDone_mirrorVset {a b : HostIf} (h : a.noDone = b.noDone) : a.mirrorVset = b.mirrorVset := (congrArg HostIf.mirrorVset h :)
theorem noDone_mirrorMfl {a b : HostIf} (h : a.noDone = b.noDone) : a.mirrorMfl = b.mirrorMfl := (congrArg HostIf.mirrorMfl h :)
theorem noDone_skipAt {a b : HostIf} (h : a.noDone = b.noDone) : a.skipAt = b.skipAt := (congrArg HostIf.skipAt h :)
theorem noDone_half0 {a b : HostIf} (h : a.noDone = b.noDone) : a.half0 = b.half0 := (congrArg HostIf.half0 h :)
theorem noDone_half1 {a b : HostIf} (h : a.noDone = b.noDone) : a.half1 = b.half1 := (congrArg HostIf.half1 h :)
theorem noDone_mirrorBuild {a b : HostIf} (h : a.noDone = b.noDone) : a.mirrorBuild = b.mirrorBuild := (congrArg HostIf.mirrorBuild h :)
theorem noDone_mirrorStn {a b : HostIf} (h : a.noDone = b.noDone) : a.mirrorStn = b.mirrorStn := (congrArg HostIf.mirrorStn h :)
theorem noDone_readData {a b : HostIf} (h : a.noDone = b.noDone) : a.readData = b.readData := (congrArg HostIf.readData h :)

theorem noOut_noTold {a b : HostIf} (h : a.noOut = b.noOut) : a.noTold = b.noTold := congrArg (fun x : HostIf => { x with evWait := [] }) h
theorem noOut_noDone {a b : HostIf} (h : a.noOut = b.noOut) : a.noDone = b.noDone :=
  congrArg (fun x : HostIf => { x with open_ := [], cplWait := [], order := [], cmp := 0, svcOut := [] }) h

@[simp] theorem setRing_host_noOut (i : Nat) (r : Ring) : (setRing i r m).host.noOut = m.host.noOut := rfl
@[simp] theorem setRing_host_noTold (i : Nat) (r : Ring) : (setRing i r m).host.noTold = m.host.noTold := noOut_noTold (setRing_host_noOut m i r)
@[simp] theorem setRing_host_noDone (i : Nat) (r : Ring) : (setRing i r m).host.noDone = m.host.noDone := noOut_noDone (setRing_host_noOut m i r)
@[simp] theorem setRing_host_pcie (i : Nat) (r : Ring) : (setRing i r m).host.pcie = m.host.pcie := noOut_pcie (setRing_host_noOut m i r)
@[simp] theorem setRing_host_run (i : Nat) (r : Ring) : (setRing i r m).host.run = m.host.run := noOut_run (setRing_host_noOut m i r)
@[simp] theorem setRing_host_mirror (i : Nat) (r : Ring) : (setRing i r m).host.mirror = m.host.mirror := noOut_mirror (setRing_host_noOut m i r)
@[simp] theorem setRing_host_seterr (i : Nat) (r : Ring) : (setRing i r m).host.seterr = m.host.seterr := noOut_seterr (setRing_host_noOut m i r)
@[simp] theorem setRing_host_invcause (i : Nat) (r : Ring) : (setRing i r m).host.invcause = m.host.invcause := noOut_invcause (setRing_host_noOut m i r)
@[simp] theorem setRing_host_lspeed (i : Nat) (r : Ring) : (setRing i r m).host.lspeed = m.host.lspeed := noOut_lspeed (setRing_host_noOut m i r)
@[simp] theorem setRing_host_lwidth (i : Nat) (r : Ring) : (setRing i r m).host.lwidth = m.host.lwidth := noOut_lwidth (setRing_host_noOut m i r)
@[simp] theorem setRing_host_valid (i : Nat) (r : Ring) : (setRing i r m).host.valid = m.host.valid := noOut_valid (setRing_host_noOut m i r)
@[simp] theorem setRing_host_busMaster (i : Nat) (r : Ring) : (setRing i r m).host.busMaster = m.host.busMaster := noOut_busMaster (setRing_host_noOut m i r)
@[simp] theorem setRing_host_mirl (i : Nat) (r : Ring) : (setRing i r m).host.mirl = m.host.mirl := noOut_mirl (setRing_host_noOut m i r)
@[simp] theorem setRing_host_mirh (i : Nat) (r : Ring) : (setRing i r m).host.mirh = m.host.mirh := noOut_mirh (setRing_host_noOut m i r)
@[simp] theorem setRing_host_headl (i : Nat) (r : Ring) : (setRing i r m).host.headl = m.host.headl := noOut_headl (setRing_host_noOut m i r)
@[simp] theorem setRing_host_headh (i : Nat) (r : Ring) : (setRing i r m).host.headh = m.host.headh := noOut_headh (setRing_host_noOut m i r)
@[simp] theorem setRing_host_acc (i : Nat) (r : Ring) : (setRing i r m).host.acc = m.host.acc := noOut_acc (setRing_host_noOut m i r)
@[simp] theorem setRing_host_cmp (i : Nat) (r : Ring) : (setRing i r m).host.cmp = m.host.cmp := noOut_cmp (setRing_host_noOut m i r)
@[simp] theorem setRing_host_latCmp (i : Nat) (r : Ring) : (setRing i r m).host.latCmp = m.host.latCmp := noOut_latCmp (setRing_host_noOut m i r)
@[simp] theorem setRing_host_latOut (i : Nat) (r : Ring) : (setRing i r m).host.latOut = m.host.latOut := noOut_latOut (setRing_host_noOut m i r)
@[simp] theorem setRing_host_latEvd (i : Nat) (r : Ring) : (setRing i r m).host.latEvd = m.host.latEvd := noOut_latEvd (setRing_host_noOut m i r)
@[simp] theorem setRing_host_latEvl (i : Nat) (r : Ring) : (setRing i r m).host.latEvl = m.host.latEvl := noOut_latEvl (setRing_host_noOut m i r)
@[simp] theorem setRing_host_discN (i : Nat) (r : Ring) : (setRing i r m).host.discN = m.host.discN := noOut_discN (setRing_host_noOut m i r)
@[simp] theorem setRing_host_resetN (i : Nat) (r : Ring) : (setRing i r m).host.resetN = m.host.resetN := noOut_resetN (setRing_host_noOut m i r)
@[simp] theorem setRing_host_resetTold (i : Nat) (r : Ring) : (setRing i r m).host.resetTold = m.host.resetTold := noOut_resetTold (setRing_host_noOut m i r)
@[simp] theorem setRing_host_head (i : Nat) (r : Ring) : (setRing i r m).host.head = m.host.head := noOut_head (setRing_host_noOut m i r)
@[simp] theorem setRing_host_route (i : Nat) (r : Ring) : (setRing i r m).host.route = m.host.route := noOut_route (setRing_host_noOut m i r)
@[simp] theorem setRing_host_waiting (i : Nat) (r : Ring) : (setRing i r m).host.waiting = m.host.waiting := noOut_waiting (setRing_host_noOut m i r)
@[simp] theorem setRing_host_cycleSubs (i : Nat) (r : Ring) : (setRing i r m).host.cycleSubs = m.host.cycleSubs := noOut_cycleSubs (setRing_host_noOut m i r)
@[simp] theorem setRing_host_cycleAt (i : Nat) (r : Ring) : (setRing i r m).host.cycleAt = m.host.cycleAt := noOut_cycleAt (setRing_host_noOut m i r)
@[simp] theorem setRing_host_critWait (i : Nat) (r : Ring) : (setRing i r m).host.critWait = m.host.critWait := noOut_critWait (setRing_host_noOut m i r)
@[simp] theorem setRing_host_open_ (i : Nat) (r : Ring) : (setRing i r m).host.open_ = m.host.open_ := noOut_open_ (setRing_host_noOut m i r)
@[simp] theorem setRing_host_order (i : Nat) (r : Ring) : (setRing i r m).host.order = m.host.order := noOut_order (setRing_host_noOut m i r)
@[simp] theorem setRing_host_cplWait (i : Nat) (r : Ring) : (setRing i r m).host.cplWait = m.host.cplWait := noOut_cplWait (setRing_host_noOut m i r)
@[simp] theorem setRing_host_evWait (i : Nat) (r : Ring) : (setRing i r m).host.evWait = m.host.evWait := noOut_evWait (setRing_host_noOut m i r)
@[simp] theorem setRing_host_crit (i : Nat) (r : Ring) : (setRing i r m).host.crit = m.host.crit := noOut_crit (setRing_host_noOut m i r)
@[simp] theorem setRing_host_svcOut (i : Nat) (r : Ring) : (setRing i r m).host.svcOut = m.host.svcOut := noOut_svcOut (setRing_host_noOut m i r)
@[simp] theorem setRing_host_dfifo (i : Nat) (r : Ring) : (setRing i r m).host.dfifo = m.host.dfifo := noOut_dfifo (setRing_host_noOut m i r)
@[simp] theorem setRing_host_mscn (i : Nat) (r : Ring) : (setRing i r m).host.mscn = m.host.mscn := noOut_mscn (setRing_host_noOut m i r)
@[simp] theorem setRing_host_mirrorMode (i : Nat) (r : Ring) : (setRing i r m).host.mirrorMode = m.host.mirrorMode := noOut_mirrorMode (setRing_host_noOut m i r)
@[simp] theorem setRing_host_mirrorVset (i : Nat) (r : Ring) : (setRing i r m).host.mirrorVset = m.host.mirrorVset := noOut_mirrorVset (setRing_host_noOut m i r)
@[simp] theorem setRing_host_mirrorMfl (i : Nat) (r : Ring) : (setRing i r m).host.mirrorMfl = m.host.mirrorMfl := noOut_mirrorMfl (setRing_host_noOut m i r)
@[simp] theorem setRing_host_skipAt (i : Nat) (r : Ring) : (setRing i r m).host.skipAt = m.host.skipAt := noOut_skipAt (setRing_host_noOut m i r)
@[simp] theorem setRing_host_half0 (i : Nat) (r : Ring) : (setRing i r m).host.half0 = m.host.half0 := noOut_half0 (setRing_host_noOut m i r)
@[simp] theorem setRing_host_half1 (i : Nat) (r : Ring) : (setRing i r m).host.half1 = m.host.half1 := noOut_half1 (setRing_host_noOut m i r)
@[simp] theorem setRing_host_mirrorBuild (i : Nat) (r : Ring) : (setRing i r m).host.mirrorBuild = m.host.mirrorBuild := noOut_mirrorBuild (setRing_host_noOut m i r)
@[simp] theorem setRing_host_mirrorStn (i : Nat) (r : Ring) : (setRing i r m).host.mirrorStn = m.host.mirrorStn := noOut_mirrorStn (setRing_host_noOut m i r)
@[simp] theorem setRing_host_readData (i : Nat) (r : Ring) : (setRing i r m).host.readData = m.host.readData := noOut_readData (setRing_host_noOut m i r)

@[simp] theorem updRing_host_noOut (i : Nat) (f : Ring → Ring) : (updRing i f m).host.noOut = m.host.noOut := setRing_host_noOut m i _
@[simp] theorem updRing_host_noTold (i : Nat) (f : Ring → Ring) : (updRing i f m).host.noTold = m.host.noTold := noOut_noTold (updRing_host_noOut m i f)
@[simp] theorem updRing_host_noDone (i : Nat) (f : Ring → Ring) : (updRing i f m).host.noDone = m.host.noDone := noOut_noDone (updRing_host_noOut m i f)
@[simp] theorem updRing_host_pcie (i : Nat) (f : Ring → Ring) : (updRing i f m).host.pcie = m.host.pcie := noOut_pcie (updRing_host_noOut m i f)
@[simp] theorem updRing_host_run (i : Nat) (f : Ring → Ring) : (updRing i f m).host.run = m.host.run := noOut_run (updRing_host_noOut m i f)
@[simp] theorem updRing_host_mirror (i : Nat) (f : Ring → Ring) : (updRing i f m).host.mirror = m.host.mirror := noOut_mirror (updRing_host_noOut m i f)
@[simp] theorem updRing_host_seterr (i : Nat) (f : Ring → Ring) : (updRing i f m).host.seterr = m.host.seterr := noOut_seterr (updRing_host_noOut m i f)
@[simp] theorem updRing_host_invcause (i : Nat) (f : Ring → Ring) : (updRing i f m).host.invcause = m.host.invcause := noOut_invcause (updRing_host_noOut m i f)
@[simp] theorem updRing_host_lspeed (i : Nat) (f : Ring → Ring) : (updRing i f m).host.lspeed = m.host.lspeed := noOut_lspeed (updRing_host_noOut m i f)
@[simp] theorem updRing_host_lwidth (i : Nat) (f : Ring → Ring) : (updRing i f m).host.lwidth = m.host.lwidth := noOut_lwidth (updRing_host_noOut m i f)
@[simp] theorem updRing_host_valid (i : Nat) (f : Ring → Ring) : (updRing i f m).host.valid = m.host.valid := noOut_valid (updRing_host_noOut m i f)
@[simp] theorem updRing_host_busMaster (i : Nat) (f : Ring → Ring) : (updRing i f m).host.busMaster = m.host.busMaster := noOut_busMaster (updRing_host_noOut m i f)
@[simp] theorem updRing_host_mirl (i : Nat) (f : Ring → Ring) : (updRing i f m).host.mirl = m.host.mirl := noOut_mirl (updRing_host_noOut m i f)
@[simp] theorem updRing_host_mirh (i : Nat) (f : Ring → Ring) : (updRing i f m).host.mirh = m.host.mirh := noOut_mirh (updRing_host_noOut m i f)
@[simp] theorem updRing_host_headl (i : Nat) (f : Ring → Ring) : (updRing i f m).host.headl = m.host.headl := noOut_headl (updRing_host_noOut m i f)
@[simp] theorem updRing_host_headh (i : Nat) (f : Ring → Ring) : (updRing i f m).host.headh = m.host.headh := noOut_headh (updRing_host_noOut m i f)
@[simp] theorem updRing_host_acc (i : Nat) (f : Ring → Ring) : (updRing i f m).host.acc = m.host.acc := noOut_acc (updRing_host_noOut m i f)
@[simp] theorem updRing_host_cmp (i : Nat) (f : Ring → Ring) : (updRing i f m).host.cmp = m.host.cmp := noOut_cmp (updRing_host_noOut m i f)
@[simp] theorem updRing_host_latCmp (i : Nat) (f : Ring → Ring) : (updRing i f m).host.latCmp = m.host.latCmp := noOut_latCmp (updRing_host_noOut m i f)
@[simp] theorem updRing_host_latOut (i : Nat) (f : Ring → Ring) : (updRing i f m).host.latOut = m.host.latOut := noOut_latOut (updRing_host_noOut m i f)
@[simp] theorem updRing_host_latEvd (i : Nat) (f : Ring → Ring) : (updRing i f m).host.latEvd = m.host.latEvd := noOut_latEvd (updRing_host_noOut m i f)
@[simp] theorem updRing_host_latEvl (i : Nat) (f : Ring → Ring) : (updRing i f m).host.latEvl = m.host.latEvl := noOut_latEvl (updRing_host_noOut m i f)
@[simp] theorem updRing_host_discN (i : Nat) (f : Ring → Ring) : (updRing i f m).host.discN = m.host.discN := noOut_discN (updRing_host_noOut m i f)
@[simp] theorem updRing_host_resetN (i : Nat) (f : Ring → Ring) : (updRing i f m).host.resetN = m.host.resetN := noOut_resetN (updRing_host_noOut m i f)
@[simp] theorem updRing_host_resetTold (i : Nat) (f : Ring → Ring) : (updRing i f m).host.resetTold = m.host.resetTold := noOut_resetTold (updRing_host_noOut m i f)
@[simp] theorem updRing_host_head (i : Nat) (f : Ring → Ring) : (updRing i f m).host.head = m.host.head := noOut_head (updRing_host_noOut m i f)
@[simp] theorem updRing_host_route (i : Nat) (f : Ring → Ring) : (updRing i f m).host.route = m.host.route := noOut_route (updRing_host_noOut m i f)
@[simp] theorem updRing_host_waiting (i : Nat) (f : Ring → Ring) : (updRing i f m).host.waiting = m.host.waiting := noOut_waiting (updRing_host_noOut m i f)
@[simp] theorem updRing_host_cycleSubs (i : Nat) (f : Ring → Ring) : (updRing i f m).host.cycleSubs = m.host.cycleSubs := noOut_cycleSubs (updRing_host_noOut m i f)
@[simp] theorem updRing_host_cycleAt (i : Nat) (f : Ring → Ring) : (updRing i f m).host.cycleAt = m.host.cycleAt := noOut_cycleAt (updRing_host_noOut m i f)
@[simp] theorem updRing_host_critWait (i : Nat) (f : Ring → Ring) : (updRing i f m).host.critWait = m.host.critWait := noOut_critWait (updRing_host_noOut m i f)
@[simp] theorem updRing_host_open_ (i : Nat) (f : Ring → Ring) : (updRing i f m).host.open_ = m.host.open_ := noOut_open_ (updRing_host_noOut m i f)
@[simp] theorem updRing_host_order (i : Nat) (f : Ring → Ring) : (updRing i f m).host.order = m.host.order := noOut_order (updRing_host_noOut m i f)
@[simp] theorem updRing_host_cplWait (i : Nat) (f : Ring → Ring) : (updRing i f m).host.cplWait = m.host.cplWait := noOut_cplWait (updRing_host_noOut m i f)
@[simp] theorem updRing_host_evWait (i : Nat) (f : Ring → Ring) : (updRing i f m).host.evWait = m.host.evWait := noOut_evWait (updRing_host_noOut m i f)
@[simp] theorem updRing_host_crit (i : Nat) (f : Ring → Ring) : (updRing i f m).host.crit = m.host.crit := noOut_crit (updRing_host_noOut m i f)
@[simp] theorem updRing_host_svcOut (i : Nat) (f : Ring → Ring) : (updRing i f m).host.svcOut = m.host.svcOut := noOut_svcOut (updRing_host_noOut m i f)
@[simp] theorem updRing_host_dfifo (i : Nat) (f : Ring → Ring) : (updRing i f m).host.dfifo = m.host.dfifo := noOut_dfifo (updRing_host_noOut m i f)
@[simp] theorem updRing_host_mscn (i : Nat) (f : Ring → Ring) : (updRing i f m).host.mscn = m.host.mscn := noOut_mscn (updRing_host_noOut m i f)
@[simp] theorem updRing_host_mirrorMode (i : Nat) (f : Ring → Ring) : (updRing i f m).host.mirrorMode = m.host.mirrorMode := noOut_mirrorMode (updRing_host_noOut m i f)
@[simp] theorem updRing_host_mirrorVset (i : Nat) (f : Ring → Ring) : (updRing i f m).host.mirrorVset = m.host.mirrorVset := noOut_mirrorVset (updRing_host_noOut m i f)
@[simp] theorem updRing_host_mirrorMfl (i : Nat) (f : Ring → Ring) : (updRing i f m).host.mirrorMfl = m.host.mirrorMfl := noOut_mirrorMfl (updRing_host_noOut m i f)
@[simp] theorem updRing_host_skipAt (i : Nat) (f : Ring → Ring) : (updRing i f m).host.skipAt = m.host.skipAt := noOut_skipAt (updRing_host_noOut m i f)
@[simp] theorem updRing_host_half0 (i : Nat) (f : Ring → Ring) : (updRing i f m).host.half0 = m.host.half0 := noOut_half0 (updRing_host_noOut m i f)
@[simp] theorem updRing_host_half1 (i : Nat) (f : Ring → Ring) : (updRing i f m).host.half1 = m.host.half1 := noOut_half1 (updRing_host_noOut m i f)
@[simp] theorem updRing_host_mirrorBuild (i : Nat) (f : Ring → Ring) : (updRing i f m).host.mirrorBuild = m.host.mirrorBuild := noOut_mirrorBuild (updRing_host_noOut m i f)
@[simp] theorem updRing_host_mirrorStn (i : Nat) (f : Ring → Ring) : (updRing i f m).host.mirrorStn = m.host.mirrorStn := noOut_mirrorStn (updRing_host_noOut m i f)
@[simp] theorem updRing_host_readData (i : Nat) (f : Ring → Ring) : (updRing i f m).host.readData = m.host.readData := noOut_readData (updRing_host_noOut m i f)

@[simp] theorem fireVector_host_noOut (v : Nat) : (fireVector v m).host.noOut = m.host.noOut := rfl
@[simp] theorem fireVector_host_noTold (v : Nat) : (fireVector v m).host.noTold = m.host.noTold := noOut_noTold (fireVector_host_noOut m v)
@[simp] theorem fireVector_host_noDone (v : Nat) : (fireVector v m).host.noDone = m.host.noDone := noOut_noDone (fireVector_host_noOut m v)
@[simp] theorem fireVector_host_pcie (v : Nat) : (fireVector v m).host.pcie = m.host.pcie := noOut_pcie (fireVector_host_noOut m v)
@[simp] theorem fireVector_host_run (v : Nat) : (fireVector v m).host.run = m.host.run := noOut_run (fireVector_host_noOut m v)
@[simp] theorem fireVector_host_mirror (v : Nat) : (fireVector v m).host.mirror = m.host.mirror := noOut_mirror (fireVector_host_noOut m v)
@[simp] theorem fireVector_host_seterr (v : Nat) : (fireVector v m).host.seterr = m.host.seterr := noOut_seterr (fireVector_host_noOut m v)
@[simp] theorem fireVector_host_invcause (v : Nat) : (fireVector v m).host.invcause = m.host.invcause := noOut_invcause (fireVector_host_noOut m v)
@[simp] theorem fireVector_host_lspeed (v : Nat) : (fireVector v m).host.lspeed = m.host.lspeed := noOut_lspeed (fireVector_host_noOut m v)
@[simp] theorem fireVector_host_lwidth (v : Nat) : (fireVector v m).host.lwidth = m.host.lwidth := noOut_lwidth (fireVector_host_noOut m v)
@[simp] theorem fireVector_host_valid (v : Nat) : (fireVector v m).host.valid = m.host.valid := noOut_valid (fireVector_host_noOut m v)
@[simp] theorem fireVector_host_busMaster (v : Nat) : (fireVector v m).host.busMaster = m.host.busMaster := noOut_busMaster (fireVector_host_noOut m v)
@[simp] theorem fireVector_host_mirl (v : Nat) : (fireVector v m).host.mirl = m.host.mirl := noOut_mirl (fireVector_host_noOut m v)
@[simp] theorem fireVector_host_mirh (v : Nat) : (fireVector v m).host.mirh = m.host.mirh := noOut_mirh (fireVector_host_noOut m v)
@[simp] theorem fireVector_host_headl (v : Nat) : (fireVector v m).host.headl = m.host.headl := noOut_headl (fireVector_host_noOut m v)
@[simp] theorem fireVector_host_headh (v : Nat) : (fireVector v m).host.headh = m.host.headh := noOut_headh (fireVector_host_noOut m v)
@[simp] theorem fireVector_host_acc (v : Nat) : (fireVector v m).host.acc = m.host.acc := noOut_acc (fireVector_host_noOut m v)
@[simp] theorem fireVector_host_cmp (v : Nat) : (fireVector v m).host.cmp = m.host.cmp := noOut_cmp (fireVector_host_noOut m v)
@[simp] theorem fireVector_host_latCmp (v : Nat) : (fireVector v m).host.latCmp = m.host.latCmp := noOut_latCmp (fireVector_host_noOut m v)
@[simp] theorem fireVector_host_latOut (v : Nat) : (fireVector v m).host.latOut = m.host.latOut := noOut_latOut (fireVector_host_noOut m v)
@[simp] theorem fireVector_host_latEvd (v : Nat) : (fireVector v m).host.latEvd = m.host.latEvd := noOut_latEvd (fireVector_host_noOut m v)
@[simp] theorem fireVector_host_latEvl (v : Nat) : (fireVector v m).host.latEvl = m.host.latEvl := noOut_latEvl (fireVector_host_noOut m v)
@[simp] theorem fireVector_host_discN (v : Nat) : (fireVector v m).host.discN = m.host.discN := noOut_discN (fireVector_host_noOut m v)
@[simp] theorem fireVector_host_resetN (v : Nat) : (fireVector v m).host.resetN = m.host.resetN := noOut_resetN (fireVector_host_noOut m v)
@[simp] theorem fireVector_host_resetTold (v : Nat) : (fireVector v m).host.resetTold = m.host.resetTold := noOut_resetTold (fireVector_host_noOut m v)
@[simp] theorem fireVector_host_head (v : Nat) : (fireVector v m).host.head = m.host.head := noOut_head (fireVector_host_noOut m v)
@[simp] theorem fireVector_host_route (v : Nat) : (fireVector v m).host.route = m.host.route := noOut_route (fireVector_host_noOut m v)
@[simp] theorem fireVector_host_waiting (v : Nat) : (fireVector v m).host.waiting = m.host.waiting := noOut_waiting (fireVector_host_noOut m v)
@[simp] theorem fireVector_host_cycleSubs (v : Nat) : (fireVector v m).host.cycleSubs = m.host.cycleSubs := noOut_cycleSubs (fireVector_host_noOut m v)
@[simp] theorem fireVector_host_cycleAt (v : Nat) : (fireVector v m).host.cycleAt = m.host.cycleAt := noOut_cycleAt (fireVector_host_noOut m v)
@[simp] theorem fireVector_host_critWait (v : Nat) : (fireVector v m).host.critWait = m.host.critWait := noOut_critWait (fireVector_host_noOut m v)
@[simp] theorem fireVector_host_open_ (v : Nat) : (fireVector v m).host.open_ = m.host.open_ := noOut_open_ (fireVector_host_noOut m v)
@[simp] theorem fireVector_host_order (v : Nat) : (fireVector v m).host.order = m.host.order := noOut_order (fireVector_host_noOut m v)
@[simp] theorem fireVector_host_cplWait (v : Nat) : (fireVector v m).host.cplWait = m.host.cplWait := noOut_cplWait (fireVector_host_noOut m v)
@[simp] theorem fireVector_host_evWait (v : Nat) : (fireVector v m).host.evWait = m.host.evWait := noOut_evWait (fireVector_host_noOut m v)
@[simp] theorem fireVector_host_crit (v : Nat) : (fireVector v m).host.crit = m.host.crit := noOut_crit (fireVector_host_noOut m v)
@[simp] theorem fireVector_host_svcOut (v : Nat) : (fireVector v m).host.svcOut = m.host.svcOut := noOut_svcOut (fireVector_host_noOut m v)
@[simp] theorem fireVector_host_dfifo (v : Nat) : (fireVector v m).host.dfifo = m.host.dfifo := noOut_dfifo (fireVector_host_noOut m v)
@[simp] theorem fireVector_host_mscn (v : Nat) : (fireVector v m).host.mscn = m.host.mscn := noOut_mscn (fireVector_host_noOut m v)
@[simp] theorem fireVector_host_mirrorMode (v : Nat) : (fireVector v m).host.mirrorMode = m.host.mirrorMode := noOut_mirrorMode (fireVector_host_noOut m v)
@[simp] theorem fireVector_host_mirrorVset (v : Nat) : (fireVector v m).host.mirrorVset = m.host.mirrorVset := noOut_mirrorVset (fireVector_host_noOut m v)
@[simp] theorem fireVector_host_mirrorMfl (v : Nat) : (fireVector v m).host.mirrorMfl = m.host.mirrorMfl := noOut_mirrorMfl (fireVector_host_noOut m v)
@[simp] theorem fireVector_host_skipAt (v : Nat) : (fireVector v m).host.skipAt = m.host.skipAt := noOut_skipAt (fireVector_host_noOut m v)
@[simp] theorem fireVector_host_half0 (v : Nat) : (fireVector v m).host.half0 = m.host.half0 := noOut_half0 (fireVector_host_noOut m v)
@[simp] theorem fireVector_host_half1 (v : Nat) : (fireVector v m).host.half1 = m.host.half1 := noOut_half1 (fireVector_host_noOut m v)
@[simp] theorem fireVector_host_mirrorBuild (v : Nat) : (fireVector v m).host.mirrorBuild = m.host.mirrorBuild := noOut_mirrorBuild (fireVector_host_noOut m v)
@[simp] theorem fireVector_host_mirrorStn (v : Nat) : (fireVector v m).host.mirrorStn = m.host.mirrorStn := noOut_mirrorStn (fireVector_host_noOut m v)
@[simp] theorem fireVector_host_readData (v : Nat) : (fireVector v m).host.readData = m.host.readData := noOut_readData (fireVector_host_noOut m v)

@[simp] theorem putSlot_host_noOut (i : Nat) (mk : Bool → RingEntry) : (putSlot i mk m).host.noOut = m.host.noOut := (setRing_host_noOut _ i _).trans rfl
@[simp] theorem putSlot_host_noTold (i : Nat) (mk : Bool → RingEntry) : (putSlot i mk m).host.noTold = m.host.noTold := noOut_noTold (putSlot_host_noOut m i mk)
@[simp] theorem putSlot_host_noDone (i : Nat) (mk : Bool → RingEntry) : (putSlot i mk m).host.noDone = m.host.noDone := noOut_noDone (putSlot_host_noOut m i mk)
@[simp] theorem putSlot_host_pcie (i : Nat) (mk : Bool → RingEntry) : (putSlot i mk m).host.pcie = m.host.pcie := noOut_pcie (putSlot_host_noOut m i mk)
@[simp] theorem putSlot_host_run (i : Nat) (mk : Bool → RingEntry) : (putSlot i mk m).host.run = m.host.run := noOut_run (putSlot_host_noOut m i mk)
@[simp] theorem putSlot_host_mirror (i : Nat) (mk : Bool → RingEntry) : (putSlot i mk m).host.mirror = m.host.mirror := noOut_mirror (putSlot_host_noOut m i mk)
@[simp] theorem putSlot_host_seterr (i : Nat) (mk : Bool → RingEntry) : (putSlot i mk m).host.seterr = m.host.seterr := noOut_seterr (putSlot_host_noOut m i mk)
@[simp] theorem putSlot_host_invcause (i : Nat) (mk : Bool → RingEntry) : (putSlot i mk m).host.invcause = m.host.invcause := noOut_invcause (putSlot_host_noOut m i mk)
@[simp] theorem putSlot_host_lspeed (i : Nat) (mk : Bool → RingEntry) : (putSlot i mk m).host.lspeed = m.host.lspeed := noOut_lspeed (putSlot_host_noOut m i mk)
@[simp] theorem putSlot_host_lwidth (i : Nat) (mk : Bool → RingEntry) : (putSlot i mk m).host.lwidth = m.host.lwidth := noOut_lwidth (putSlot_host_noOut m i mk)
@[simp] theorem putSlot_host_valid (i : Nat) (mk : Bool → RingEntry) : (putSlot i mk m).host.valid = m.host.valid := noOut_valid (putSlot_host_noOut m i mk)
@[simp] theorem putSlot_host_busMaster (i : Nat) (mk : Bool → RingEntry) : (putSlot i mk m).host.busMaster = m.host.busMaster := noOut_busMaster (putSlot_host_noOut m i mk)
@[simp] theorem putSlot_host_mirl (i : Nat) (mk : Bool → RingEntry) : (putSlot i mk m).host.mirl = m.host.mirl := noOut_mirl (putSlot_host_noOut m i mk)
@[simp] theorem putSlot_host_mirh (i : Nat) (mk : Bool → RingEntry) : (putSlot i mk m).host.mirh = m.host.mirh := noOut_mirh (putSlot_host_noOut m i mk)
@[simp] theorem putSlot_host_headl (i : Nat) (mk : Bool → RingEntry) : (putSlot i mk m).host.headl = m.host.headl := noOut_headl (putSlot_host_noOut m i mk)
@[simp] theorem putSlot_host_headh (i : Nat) (mk : Bool → RingEntry) : (putSlot i mk m).host.headh = m.host.headh := noOut_headh (putSlot_host_noOut m i mk)
@[simp] theorem putSlot_host_acc (i : Nat) (mk : Bool → RingEntry) : (putSlot i mk m).host.acc = m.host.acc := noOut_acc (putSlot_host_noOut m i mk)
@[simp] theorem putSlot_host_cmp (i : Nat) (mk : Bool → RingEntry) : (putSlot i mk m).host.cmp = m.host.cmp := noOut_cmp (putSlot_host_noOut m i mk)
@[simp] theorem putSlot_host_latCmp (i : Nat) (mk : Bool → RingEntry) : (putSlot i mk m).host.latCmp = m.host.latCmp := noOut_latCmp (putSlot_host_noOut m i mk)
@[simp] theorem putSlot_host_latOut (i : Nat) (mk : Bool → RingEntry) : (putSlot i mk m).host.latOut = m.host.latOut := noOut_latOut (putSlot_host_noOut m i mk)
@[simp] theorem putSlot_host_latEvd (i : Nat) (mk : Bool → RingEntry) : (putSlot i mk m).host.latEvd = m.host.latEvd := noOut_latEvd (putSlot_host_noOut m i mk)
@[simp] theorem putSlot_host_latEvl (i : Nat) (mk : Bool → RingEntry) : (putSlot i mk m).host.latEvl = m.host.latEvl := noOut_latEvl (putSlot_host_noOut m i mk)
@[simp] theorem putSlot_host_discN (i : Nat) (mk : Bool → RingEntry) : (putSlot i mk m).host.discN = m.host.discN := noOut_discN (putSlot_host_noOut m i mk)
@[simp] theorem putSlot_host_resetN (i : Nat) (mk : Bool → RingEntry) : (putSlot i mk m).host.resetN = m.host.resetN := noOut_resetN (putSlot_host_noOut m i mk)
@[simp] theorem putSlot_host_resetTold (i : Nat) (mk : Bool → RingEntry) : (putSlot i mk m).host.resetTold = m.host.resetTold := noOut_resetTold (putSlot_host_noOut m i mk)
@[simp] theorem putSlot_host_head (i : Nat) (mk : Bool → RingEntry) : (putSlot i mk m).host.head = m.host.head := noOut_head (putSlot_host_noOut m i mk)
@[simp] theorem putSlot_host_route (i : Nat) (mk : Bool → RingEntry) : (putSlot i mk m).host.route = m.host.route := noOut_route (putSlot_host_noOut m i mk)
@[simp] theorem putSlot_host_waiting (i : Nat) (mk : Bool → RingEntry) : (putSlot i mk m).host.waiting = m.host.waiting := noOut_waiting (putSlot_host_noOut m i mk)
@[simp] theorem putSlot_host_cycleSubs (i : Nat) (mk : Bool → RingEntry) : (putSlot i mk m).host.cycleSubs = m.host.cycleSubs := noOut_cycleSubs (putSlot_host_noOut m i mk)
@[simp] theorem putSlot_host_cycleAt (i : Nat) (mk : Bool → RingEntry) : (putSlot i mk m).host.cycleAt = m.host.cycleAt := noOut_cycleAt (putSlot_host_noOut m i mk)
@[simp] theorem putSlot_host_critWait (i : Nat) (mk : Bool → RingEntry) : (putSlot i mk m).host.critWait = m.host.critWait := noOut_critWait (putSlot_host_noOut m i mk)
@[simp] theorem putSlot_host_open_ (i : Nat) (mk : Bool → RingEntry) : (putSlot i mk m).host.open_ = m.host.open_ := noOut_open_ (putSlot_host_noOut m i mk)
@[simp] theorem putSlot_host_order (i : Nat) (mk : Bool → RingEntry) : (putSlot i mk m).host.order = m.host.order := noOut_order (putSlot_host_noOut m i mk)
@[simp] theorem putSlot_host_cplWait (i : Nat) (mk : Bool → RingEntry) : (putSlot i mk m).host.cplWait = m.host.cplWait := noOut_cplWait (putSlot_host_noOut m i mk)
@[simp] theorem putSlot_host_evWait (i : Nat) (mk : Bool → RingEntry) : (putSlot i mk m).host.evWait = m.host.evWait := noOut_evWait (putSlot_host_noOut m i mk)
@[simp] theorem putSlot_host_crit (i : Nat) (mk : Bool → RingEntry) : (putSlot i mk m).host.crit = m.host.crit := noOut_crit (putSlot_host_noOut m i mk)
@[simp] theorem putSlot_host_svcOut (i : Nat) (mk : Bool → RingEntry) : (putSlot i mk m).host.svcOut = m.host.svcOut := noOut_svcOut (putSlot_host_noOut m i mk)
@[simp] theorem putSlot_host_dfifo (i : Nat) (mk : Bool → RingEntry) : (putSlot i mk m).host.dfifo = m.host.dfifo := noOut_dfifo (putSlot_host_noOut m i mk)
@[simp] theorem putSlot_host_mscn (i : Nat) (mk : Bool → RingEntry) : (putSlot i mk m).host.mscn = m.host.mscn := noOut_mscn (putSlot_host_noOut m i mk)
@[simp] theorem putSlot_host_mirrorMode (i : Nat) (mk : Bool → RingEntry) : (putSlot i mk m).host.mirrorMode = m.host.mirrorMode := noOut_mirrorMode (putSlot_host_noOut m i mk)
@[simp] theorem putSlot_host_mirrorVset (i : Nat) (mk : Bool → RingEntry) : (putSlot i mk m).host.mirrorVset = m.host.mirrorVset := noOut_mirrorVset (putSlot_host_noOut m i mk)
@[simp] theorem putSlot_host_mirrorMfl (i : Nat) (mk : Bool → RingEntry) : (putSlot i mk m).host.mirrorMfl = m.host.mirrorMfl := noOut_mirrorMfl (putSlot_host_noOut m i mk)
@[simp] theorem putSlot_host_skipAt (i : Nat) (mk : Bool → RingEntry) : (putSlot i mk m).host.skipAt = m.host.skipAt := noOut_skipAt (putSlot_host_noOut m i mk)
@[simp] theorem putSlot_host_half0 (i : Nat) (mk : Bool → RingEntry) : (putSlot i mk m).host.half0 = m.host.half0 := noOut_half0 (putSlot_host_noOut m i mk)
@[simp] theorem putSlot_host_half1 (i : Nat) (mk : Bool → RingEntry) : (putSlot i mk m).host.half1 = m.host.half1 := noOut_half1 (putSlot_host_noOut m i mk)
@[simp] theorem putSlot_host_mirrorBuild (i : Nat) (mk : Bool → RingEntry) : (putSlot i mk m).host.mirrorBuild = m.host.mirrorBuild := noOut_mirrorBuild (putSlot_host_noOut m i mk)
@[simp] theorem putSlot_host_mirrorStn (i : Nat) (mk : Bool → RingEntry) : (putSlot i mk m).host.mirrorStn = m.host.mirrorStn := noOut_mirrorStn (putSlot_host_noOut m i mk)
@[simp] theorem putSlot_host_readData (i : Nat) (mk : Bool → RingEntry) : (putSlot i mk m).host.readData = m.host.readData := noOut_readData (putSlot_host_noOut m i mk)

@[simp] theorem ringWrite_host_noOut (i : Nat) (mk : Bool → RingEntry) : (ringWrite i mk m).host.noOut = m.host.noOut := (fireVector_host_noOut _ _).trans (putSlot_host_noOut m i mk)
@[simp] theorem ringWrite_host_noTold (i : Nat) (mk : Bool → RingEntry) : (ringWrite i mk m).host.noTold = m.host.noTold := noOut_noTold (ringWrite_host_noOut m i mk)
@[simp] theorem ringWrite_host_noDone (i : Nat) (mk : Bool → RingEntry) : (ringWrite i mk m).host.noDone = m.host.noDone := noOut_noDone (ringWrite_host_noOut m i mk)
@[simp] theorem ringWrite_host_pcie (i : Nat) (mk : Bool → RingEntry) : (ringWrite i mk m).host.pcie = m.host.pcie := noOut_pcie (ringWrite_host_noOut m i mk)
@[simp] theorem ringWrite_host_run (i : Nat) (mk : Bool → RingEntry) : (ringWrite i mk m).host.run = m.host.run := noOut_run (ringWrite_host_noOut m i mk)
@[simp] theorem ringWrite_host_mirror (i : Nat) (mk : Bool → RingEntry) : (ringWrite i mk m).host.mirror = m.host.mirror := noOut_mirror (ringWrite_host_noOut m i mk)
@[simp] theorem ringWrite_host_seterr (i : Nat) (mk : Bool → RingEntry) : (ringWrite i mk m).host.seterr = m.host.seterr := noOut_seterr (ringWrite_host_noOut m i mk)
@[simp] theorem ringWrite_host_invcause (i : Nat) (mk : Bool → RingEntry) : (ringWrite i mk m).host.invcause = m.host.invcause := noOut_invcause (ringWrite_host_noOut m i mk)
@[simp] theorem ringWrite_host_lspeed (i : Nat) (mk : Bool → RingEntry) : (ringWrite i mk m).host.lspeed = m.host.lspeed := noOut_lspeed (ringWrite_host_noOut m i mk)
@[simp] theorem ringWrite_host_lwidth (i : Nat) (mk : Bool → RingEntry) : (ringWrite i mk m).host.lwidth = m.host.lwidth := noOut_lwidth (ringWrite_host_noOut m i mk)
@[simp] theorem ringWrite_host_valid (i : Nat) (mk : Bool → RingEntry) : (ringWrite i mk m).host.valid = m.host.valid := noOut_valid (ringWrite_host_noOut m i mk)
@[simp] theorem ringWrite_host_busMaster (i : Nat) (mk : Bool → RingEntry) : (ringWrite i mk m).host.busMaster = m.host.busMaster := noOut_busMaster (ringWrite_host_noOut m i mk)
@[simp] theorem ringWrite_host_mirl (i : Nat) (mk : Bool → RingEntry) : (ringWrite i mk m).host.mirl = m.host.mirl := noOut_mirl (ringWrite_host_noOut m i mk)
@[simp] theorem ringWrite_host_mirh (i : Nat) (mk : Bool → RingEntry) : (ringWrite i mk m).host.mirh = m.host.mirh := noOut_mirh (ringWrite_host_noOut m i mk)
@[simp] theorem ringWrite_host_headl (i : Nat) (mk : Bool → RingEntry) : (ringWrite i mk m).host.headl = m.host.headl := noOut_headl (ringWrite_host_noOut m i mk)
@[simp] theorem ringWrite_host_headh (i : Nat) (mk : Bool → RingEntry) : (ringWrite i mk m).host.headh = m.host.headh := noOut_headh (ringWrite_host_noOut m i mk)
@[simp] theorem ringWrite_host_acc (i : Nat) (mk : Bool → RingEntry) : (ringWrite i mk m).host.acc = m.host.acc := noOut_acc (ringWrite_host_noOut m i mk)
@[simp] theorem ringWrite_host_cmp (i : Nat) (mk : Bool → RingEntry) : (ringWrite i mk m).host.cmp = m.host.cmp := noOut_cmp (ringWrite_host_noOut m i mk)
@[simp] theorem ringWrite_host_latCmp (i : Nat) (mk : Bool → RingEntry) : (ringWrite i mk m).host.latCmp = m.host.latCmp := noOut_latCmp (ringWrite_host_noOut m i mk)
@[simp] theorem ringWrite_host_latOut (i : Nat) (mk : Bool → RingEntry) : (ringWrite i mk m).host.latOut = m.host.latOut := noOut_latOut (ringWrite_host_noOut m i mk)
@[simp] theorem ringWrite_host_latEvd (i : Nat) (mk : Bool → RingEntry) : (ringWrite i mk m).host.latEvd = m.host.latEvd := noOut_latEvd (ringWrite_host_noOut m i mk)
@[simp] theorem ringWrite_host_latEvl (i : Nat) (mk : Bool → RingEntry) : (ringWrite i mk m).host.latEvl = m.host.latEvl := noOut_latEvl (ringWrite_host_noOut m i mk)
@[simp] theorem ringWrite_host_discN (i : Nat) (mk : Bool → RingEntry) : (ringWrite i mk m).host.discN = m.host.discN := noOut_discN (ringWrite_host_noOut m i mk)
@[simp] theorem ringWrite_host_resetN (i : Nat) (mk : Bool → RingEntry) : (ringWrite i mk m).host.resetN = m.host.resetN := noOut_resetN (ringWrite_host_noOut m i mk)
@[simp] theorem ringWrite_host_resetTold (i : Nat) (mk : Bool → RingEntry) : (ringWrite i mk m).host.resetTold = m.host.resetTold := noOut_resetTold (ringWrite_host_noOut m i mk)
@[simp] theorem ringWrite_host_head (i : Nat) (mk : Bool → RingEntry) : (ringWrite i mk m).host.head = m.host.head := noOut_head (ringWrite_host_noOut m i mk)
@[simp] theorem ringWrite_host_route (i : Nat) (mk : Bool → RingEntry) : (ringWrite i mk m).host.route = m.host.route := noOut_route (ringWrite_host_noOut m i mk)
@[simp] theorem ringWrite_host_waiting (i : Nat) (mk : Bool → RingEntry) : (ringWrite i mk m).host.waiting = m.host.waiting := noOut_waiting (ringWrite_host_noOut m i mk)
@[simp] theorem ringWrite_host_cycleSubs (i : Nat) (mk : Bool → RingEntry) : (ringWrite i mk m).host.cycleSubs = m.host.cycleSubs := noOut_cycleSubs (ringWrite_host_noOut m i mk)
@[simp] theorem ringWrite_host_cycleAt (i : Nat) (mk : Bool → RingEntry) : (ringWrite i mk m).host.cycleAt = m.host.cycleAt := noOut_cycleAt (ringWrite_host_noOut m i mk)
@[simp] theorem ringWrite_host_critWait (i : Nat) (mk : Bool → RingEntry) : (ringWrite i mk m).host.critWait = m.host.critWait := noOut_critWait (ringWrite_host_noOut m i mk)
@[simp] theorem ringWrite_host_open_ (i : Nat) (mk : Bool → RingEntry) : (ringWrite i mk m).host.open_ = m.host.open_ := noOut_open_ (ringWrite_host_noOut m i mk)
@[simp] theorem ringWrite_host_order (i : Nat) (mk : Bool → RingEntry) : (ringWrite i mk m).host.order = m.host.order := noOut_order (ringWrite_host_noOut m i mk)
@[simp] theorem ringWrite_host_cplWait (i : Nat) (mk : Bool → RingEntry) : (ringWrite i mk m).host.cplWait = m.host.cplWait := noOut_cplWait (ringWrite_host_noOut m i mk)
@[simp] theorem ringWrite_host_evWait (i : Nat) (mk : Bool → RingEntry) : (ringWrite i mk m).host.evWait = m.host.evWait := noOut_evWait (ringWrite_host_noOut m i mk)
@[simp] theorem ringWrite_host_crit (i : Nat) (mk : Bool → RingEntry) : (ringWrite i mk m).host.crit = m.host.crit := noOut_crit (ringWrite_host_noOut m i mk)
@[simp] theorem ringWrite_host_svcOut (i : Nat) (mk : Bool → RingEntry) : (ringWrite i mk m).host.svcOut = m.host.svcOut := noOut_svcOut (ringWrite_host_noOut m i mk)
@[simp] theorem ringWrite_host_dfifo (i : Nat) (mk : Bool → RingEntry) : (ringWrite i mk m).host.dfifo = m.host.dfifo := noOut_dfifo (ringWrite_host_noOut m i mk)
@[simp] theorem ringWrite_host_mscn (i : Nat) (mk : Bool → RingEntry) : (ringWrite i mk m).host.mscn = m.host.mscn := noOut_mscn (ringWrite_host_noOut m i mk)
@[simp] theorem ringWrite_host_mirrorMode (i : Nat) (mk : Bool → RingEntry) : (ringWrite i mk m).host.mirrorMode = m.host.mirrorMode := noOut_mirrorMode (ringWrite_host_noOut m i mk)
@[simp] theorem ringWrite_host_mirrorVset (i : Nat) (mk : Bool → RingEntry) : (ringWrite i mk m).host.mirrorVset = m.host.mirrorVset := noOut_mirrorVset (ringWrite_host_noOut m i mk)
@[simp] theorem ringWrite_host_mirrorMfl (i : Nat) (mk : Bool → RingEntry) : (ringWrite i mk m).host.mirrorMfl = m.host.mirrorMfl := noOut_mirrorMfl (ringWrite_host_noOut m i mk)
@[simp] theorem ringWrite_host_skipAt (i : Nat) (mk : Bool → RingEntry) : (ringWrite i mk m).host.skipAt = m.host.skipAt := noOut_skipAt (ringWrite_host_noOut m i mk)
@[simp] theorem ringWrite_host_half0 (i : Nat) (mk : Bool → RingEntry) : (ringWrite i mk m).host.half0 = m.host.half0 := noOut_half0 (ringWrite_host_noOut m i mk)
@[simp] theorem ringWrite_host_half1 (i : Nat) (mk : Bool → RingEntry) : (ringWrite i mk m).host.half1 = m.host.half1 := noOut_half1 (ringWrite_host_noOut m i mk)
@[simp] theorem ringWrite_host_mirrorBuild (i : Nat) (mk : Bool → RingEntry) : (ringWrite i mk m).host.mirrorBuild = m.host.mirrorBuild := noOut_mirrorBuild (ringWrite_host_noOut m i mk)
@[simp] theorem ringWrite_host_mirrorStn (i : Nat) (mk : Bool → RingEntry) : (ringWrite i mk m).host.mirrorStn = m.host.mirrorStn := noOut_mirrorStn (ringWrite_host_noOut m i mk)
@[simp] theorem ringWrite_host_readData (i : Nat) (mk : Bool → RingEntry) : (ringWrite i mk m).host.readData = m.host.readData := noOut_readData (ringWrite_host_noOut m i mk)

@[simp] theorem writeEvent_host_noOut (q : QEvent) : (writeEvent q m).host.noOut = m.host.noOut := by
  have h : ∀ n : Mod, (updHost (fun h => { h with evp := h.evp + 1, evd := h.evd + 1 }) n).host.noOut = n.host.noOut := fun _ => rfl
  exact (h _).trans (ringWrite_host_noOut m _ _)
@[simp] theorem writeEvent_host_noTold (q : QEvent) : (writeEvent q m).host.noTold = m.host.noTold := noOut_noTold (writeEvent_host_noOut m q)
@[simp] theorem writeEvent_host_noDone (q : QEvent) : (writeEvent q m).host.noDone = m.host.noDone := noOut_noDone (writeEvent_host_noOut m q)
@[simp] theorem writeEvent_host_pcie (q : QEvent) : (writeEvent q m).host.pcie = m.host.pcie := noOut_pcie (writeEvent_host_noOut m q)
@[simp] theorem writeEvent_host_run (q : QEvent) : (writeEvent q m).host.run = m.host.run := noOut_run (writeEvent_host_noOut m q)
@[simp] theorem writeEvent_host_mirror (q : QEvent) : (writeEvent q m).host.mirror = m.host.mirror := noOut_mirror (writeEvent_host_noOut m q)
@[simp] theorem writeEvent_host_seterr (q : QEvent) : (writeEvent q m).host.seterr = m.host.seterr := noOut_seterr (writeEvent_host_noOut m q)
@[simp] theorem writeEvent_host_invcause (q : QEvent) : (writeEvent q m).host.invcause = m.host.invcause := noOut_invcause (writeEvent_host_noOut m q)
@[simp] theorem writeEvent_host_lspeed (q : QEvent) : (writeEvent q m).host.lspeed = m.host.lspeed := noOut_lspeed (writeEvent_host_noOut m q)
@[simp] theorem writeEvent_host_lwidth (q : QEvent) : (writeEvent q m).host.lwidth = m.host.lwidth := noOut_lwidth (writeEvent_host_noOut m q)
@[simp] theorem writeEvent_host_valid (q : QEvent) : (writeEvent q m).host.valid = m.host.valid := noOut_valid (writeEvent_host_noOut m q)
@[simp] theorem writeEvent_host_busMaster (q : QEvent) : (writeEvent q m).host.busMaster = m.host.busMaster := noOut_busMaster (writeEvent_host_noOut m q)
@[simp] theorem writeEvent_host_mirl (q : QEvent) : (writeEvent q m).host.mirl = m.host.mirl := noOut_mirl (writeEvent_host_noOut m q)
@[simp] theorem writeEvent_host_mirh (q : QEvent) : (writeEvent q m).host.mirh = m.host.mirh := noOut_mirh (writeEvent_host_noOut m q)
@[simp] theorem writeEvent_host_headl (q : QEvent) : (writeEvent q m).host.headl = m.host.headl := noOut_headl (writeEvent_host_noOut m q)
@[simp] theorem writeEvent_host_headh (q : QEvent) : (writeEvent q m).host.headh = m.host.headh := noOut_headh (writeEvent_host_noOut m q)
@[simp] theorem writeEvent_host_acc (q : QEvent) : (writeEvent q m).host.acc = m.host.acc := noOut_acc (writeEvent_host_noOut m q)
@[simp] theorem writeEvent_host_cmp (q : QEvent) : (writeEvent q m).host.cmp = m.host.cmp := noOut_cmp (writeEvent_host_noOut m q)
@[simp] theorem writeEvent_host_latCmp (q : QEvent) : (writeEvent q m).host.latCmp = m.host.latCmp := noOut_latCmp (writeEvent_host_noOut m q)
@[simp] theorem writeEvent_host_latOut (q : QEvent) : (writeEvent q m).host.latOut = m.host.latOut := noOut_latOut (writeEvent_host_noOut m q)
@[simp] theorem writeEvent_host_latEvd (q : QEvent) : (writeEvent q m).host.latEvd = m.host.latEvd := noOut_latEvd (writeEvent_host_noOut m q)
@[simp] theorem writeEvent_host_latEvl (q : QEvent) : (writeEvent q m).host.latEvl = m.host.latEvl := noOut_latEvl (writeEvent_host_noOut m q)
@[simp] theorem writeEvent_host_discN (q : QEvent) : (writeEvent q m).host.discN = m.host.discN := noOut_discN (writeEvent_host_noOut m q)
@[simp] theorem writeEvent_host_resetN (q : QEvent) : (writeEvent q m).host.resetN = m.host.resetN := noOut_resetN (writeEvent_host_noOut m q)
@[simp] theorem writeEvent_host_resetTold (q : QEvent) : (writeEvent q m).host.resetTold = m.host.resetTold := noOut_resetTold (writeEvent_host_noOut m q)
@[simp] theorem writeEvent_host_head (q : QEvent) : (writeEvent q m).host.head = m.host.head := noOut_head (writeEvent_host_noOut m q)
@[simp] theorem writeEvent_host_route (q : QEvent) : (writeEvent q m).host.route = m.host.route := noOut_route (writeEvent_host_noOut m q)
@[simp] theorem writeEvent_host_waiting (q : QEvent) : (writeEvent q m).host.waiting = m.host.waiting := noOut_waiting (writeEvent_host_noOut m q)
@[simp] theorem writeEvent_host_cycleSubs (q : QEvent) : (writeEvent q m).host.cycleSubs = m.host.cycleSubs := noOut_cycleSubs (writeEvent_host_noOut m q)
@[simp] theorem writeEvent_host_cycleAt (q : QEvent) : (writeEvent q m).host.cycleAt = m.host.cycleAt := noOut_cycleAt (writeEvent_host_noOut m q)
@[simp] theorem writeEvent_host_critWait (q : QEvent) : (writeEvent q m).host.critWait = m.host.critWait := noOut_critWait (writeEvent_host_noOut m q)
@[simp] theorem writeEvent_host_open_ (q : QEvent) : (writeEvent q m).host.open_ = m.host.open_ := noOut_open_ (writeEvent_host_noOut m q)
@[simp] theorem writeEvent_host_order (q : QEvent) : (writeEvent q m).host.order = m.host.order := noOut_order (writeEvent_host_noOut m q)
@[simp] theorem writeEvent_host_cplWait (q : QEvent) : (writeEvent q m).host.cplWait = m.host.cplWait := noOut_cplWait (writeEvent_host_noOut m q)
@[simp] theorem writeEvent_host_evWait (q : QEvent) : (writeEvent q m).host.evWait = m.host.evWait := noOut_evWait (writeEvent_host_noOut m q)
@[simp] theorem writeEvent_host_crit (q : QEvent) : (writeEvent q m).host.crit = m.host.crit := noOut_crit (writeEvent_host_noOut m q)
@[simp] theorem writeEvent_host_svcOut (q : QEvent) : (writeEvent q m).host.svcOut = m.host.svcOut := noOut_svcOut (writeEvent_host_noOut m q)
@[simp] theorem writeEvent_host_dfifo (q : QEvent) : (writeEvent q m).host.dfifo = m.host.dfifo := noOut_dfifo (writeEvent_host_noOut m q)
@[simp] theorem writeEvent_host_mscn (q : QEvent) : (writeEvent q m).host.mscn = m.host.mscn := noOut_mscn (writeEvent_host_noOut m q)
@[simp] theorem writeEvent_host_mirrorMode (q : QEvent) : (writeEvent q m).host.mirrorMode = m.host.mirrorMode := noOut_mirrorMode (writeEvent_host_noOut m q)
@[simp] theorem writeEvent_host_mirrorVset (q : QEvent) : (writeEvent q m).host.mirrorVset = m.host.mirrorVset := noOut_mirrorVset (writeEvent_host_noOut m q)
@[simp] theorem writeEvent_host_mirrorMfl (q : QEvent) : (writeEvent q m).host.mirrorMfl = m.host.mirrorMfl := noOut_mirrorMfl (writeEvent_host_noOut m q)
@[simp] theorem writeEvent_host_skipAt (q : QEvent) : (writeEvent q m).host.skipAt = m.host.skipAt := noOut_skipAt (writeEvent_host_noOut m q)
@[simp] theorem writeEvent_host_half0 (q : QEvent) : (writeEvent q m).host.half0 = m.host.half0 := noOut_half0 (writeEvent_host_noOut m q)
@[simp] theorem writeEvent_host_half1 (q : QEvent) : (writeEvent q m).host.half1 = m.host.half1 := noOut_half1 (writeEvent_host_noOut m q)
@[simp] theorem writeEvent_host_mirrorBuild (q : QEvent) : (writeEvent q m).host.mirrorBuild = m.host.mirrorBuild := noOut_mirrorBuild (writeEvent_host_noOut m q)
@[simp] theorem writeEvent_host_mirrorStn (q : QEvent) : (writeEvent q m).host.mirrorStn = m.host.mirrorStn := noOut_mirrorStn (writeEvent_host_noOut m q)
@[simp] theorem writeEvent_host_readData (q : QEvent) : (writeEvent q m).host.readData = m.host.readData := noOut_readData (writeEvent_host_noOut m q)

@[simp] theorem fifoPush_host_noOut (q : QEvent) : (fifoPush q m).host.noOut = m.host.noOut := by
  unfold fifoPush; split
  · split
    · rfl
    · exact (updRing_host_noOut _ _ _).trans rfl
  · rfl
@[simp] theorem fifoPush_host_noTold (q : QEvent) : (fifoPush q m).host.noTold = m.host.noTold := noOut_noTold (fifoPush_host_noOut m q)
@[simp] theorem fifoPush_host_noDone (q : QEvent) : (fifoPush q m).host.noDone = m.host.noDone := noOut_noDone (fifoPush_host_noOut m q)
@[simp] theorem fifoPush_host_pcie (q : QEvent) : (fifoPush q m).host.pcie = m.host.pcie := noOut_pcie (fifoPush_host_noOut m q)
@[simp] theorem fifoPush_host_run (q : QEvent) : (fifoPush q m).host.run = m.host.run := noOut_run (fifoPush_host_noOut m q)
@[simp] theorem fifoPush_host_mirror (q : QEvent) : (fifoPush q m).host.mirror = m.host.mirror := noOut_mirror (fifoPush_host_noOut m q)
@[simp] theorem fifoPush_host_seterr (q : QEvent) : (fifoPush q m).host.seterr = m.host.seterr := noOut_seterr (fifoPush_host_noOut m q)
@[simp] theorem fifoPush_host_invcause (q : QEvent) : (fifoPush q m).host.invcause = m.host.invcause := noOut_invcause (fifoPush_host_noOut m q)
@[simp] theorem fifoPush_host_lspeed (q : QEvent) : (fifoPush q m).host.lspeed = m.host.lspeed := noOut_lspeed (fifoPush_host_noOut m q)
@[simp] theorem fifoPush_host_lwidth (q : QEvent) : (fifoPush q m).host.lwidth = m.host.lwidth := noOut_lwidth (fifoPush_host_noOut m q)
@[simp] theorem fifoPush_host_valid (q : QEvent) : (fifoPush q m).host.valid = m.host.valid := noOut_valid (fifoPush_host_noOut m q)
@[simp] theorem fifoPush_host_busMaster (q : QEvent) : (fifoPush q m).host.busMaster = m.host.busMaster := noOut_busMaster (fifoPush_host_noOut m q)
@[simp] theorem fifoPush_host_mirl (q : QEvent) : (fifoPush q m).host.mirl = m.host.mirl := noOut_mirl (fifoPush_host_noOut m q)
@[simp] theorem fifoPush_host_mirh (q : QEvent) : (fifoPush q m).host.mirh = m.host.mirh := noOut_mirh (fifoPush_host_noOut m q)
@[simp] theorem fifoPush_host_headl (q : QEvent) : (fifoPush q m).host.headl = m.host.headl := noOut_headl (fifoPush_host_noOut m q)
@[simp] theorem fifoPush_host_headh (q : QEvent) : (fifoPush q m).host.headh = m.host.headh := noOut_headh (fifoPush_host_noOut m q)
@[simp] theorem fifoPush_host_acc (q : QEvent) : (fifoPush q m).host.acc = m.host.acc := noOut_acc (fifoPush_host_noOut m q)
@[simp] theorem fifoPush_host_cmp (q : QEvent) : (fifoPush q m).host.cmp = m.host.cmp := noOut_cmp (fifoPush_host_noOut m q)
@[simp] theorem fifoPush_host_latCmp (q : QEvent) : (fifoPush q m).host.latCmp = m.host.latCmp := noOut_latCmp (fifoPush_host_noOut m q)
@[simp] theorem fifoPush_host_latOut (q : QEvent) : (fifoPush q m).host.latOut = m.host.latOut := noOut_latOut (fifoPush_host_noOut m q)
@[simp] theorem fifoPush_host_latEvd (q : QEvent) : (fifoPush q m).host.latEvd = m.host.latEvd := noOut_latEvd (fifoPush_host_noOut m q)
@[simp] theorem fifoPush_host_latEvl (q : QEvent) : (fifoPush q m).host.latEvl = m.host.latEvl := noOut_latEvl (fifoPush_host_noOut m q)
@[simp] theorem fifoPush_host_discN (q : QEvent) : (fifoPush q m).host.discN = m.host.discN := noOut_discN (fifoPush_host_noOut m q)
@[simp] theorem fifoPush_host_resetN (q : QEvent) : (fifoPush q m).host.resetN = m.host.resetN := noOut_resetN (fifoPush_host_noOut m q)
@[simp] theorem fifoPush_host_resetTold (q : QEvent) : (fifoPush q m).host.resetTold = m.host.resetTold := noOut_resetTold (fifoPush_host_noOut m q)
@[simp] theorem fifoPush_host_head (q : QEvent) : (fifoPush q m).host.head = m.host.head := noOut_head (fifoPush_host_noOut m q)
@[simp] theorem fifoPush_host_route (q : QEvent) : (fifoPush q m).host.route = m.host.route := noOut_route (fifoPush_host_noOut m q)
@[simp] theorem fifoPush_host_waiting (q : QEvent) : (fifoPush q m).host.waiting = m.host.waiting := noOut_waiting (fifoPush_host_noOut m q)
@[simp] theorem fifoPush_host_cycleSubs (q : QEvent) : (fifoPush q m).host.cycleSubs = m.host.cycleSubs := noOut_cycleSubs (fifoPush_host_noOut m q)
@[simp] theorem fifoPush_host_cycleAt (q : QEvent) : (fifoPush q m).host.cycleAt = m.host.cycleAt := noOut_cycleAt (fifoPush_host_noOut m q)
@[simp] theorem fifoPush_host_critWait (q : QEvent) : (fifoPush q m).host.critWait = m.host.critWait := noOut_critWait (fifoPush_host_noOut m q)
@[simp] theorem fifoPush_host_open_ (q : QEvent) : (fifoPush q m).host.open_ = m.host.open_ := noOut_open_ (fifoPush_host_noOut m q)
@[simp] theorem fifoPush_host_order (q : QEvent) : (fifoPush q m).host.order = m.host.order := noOut_order (fifoPush_host_noOut m q)
@[simp] theorem fifoPush_host_cplWait (q : QEvent) : (fifoPush q m).host.cplWait = m.host.cplWait := noOut_cplWait (fifoPush_host_noOut m q)
@[simp] theorem fifoPush_host_evWait (q : QEvent) : (fifoPush q m).host.evWait = m.host.evWait := noOut_evWait (fifoPush_host_noOut m q)
@[simp] theorem fifoPush_host_crit (q : QEvent) : (fifoPush q m).host.crit = m.host.crit := noOut_crit (fifoPush_host_noOut m q)
@[simp] theorem fifoPush_host_svcOut (q : QEvent) : (fifoPush q m).host.svcOut = m.host.svcOut := noOut_svcOut (fifoPush_host_noOut m q)
@[simp] theorem fifoPush_host_dfifo (q : QEvent) : (fifoPush q m).host.dfifo = m.host.dfifo := noOut_dfifo (fifoPush_host_noOut m q)
@[simp] theorem fifoPush_host_mscn (q : QEvent) : (fifoPush q m).host.mscn = m.host.mscn := noOut_mscn (fifoPush_host_noOut m q)
@[simp] theorem fifoPush_host_mirrorMode (q : QEvent) : (fifoPush q m).host.mirrorMode = m.host.mirrorMode := noOut_mirrorMode (fifoPush_host_noOut m q)
@[simp] theorem fifoPush_host_mirrorVset (q : QEvent) : (fifoPush q m).host.mirrorVset = m.host.mirrorVset := noOut_mirrorVset (fifoPush_host_noOut m q)
@[simp] theorem fifoPush_host_mirrorMfl (q : QEvent) : (fifoPush q m).host.mirrorMfl = m.host.mirrorMfl := noOut_mirrorMfl (fifoPush_host_noOut m q)
@[simp] theorem fifoPush_host_skipAt (q : QEvent) : (fifoPush q m).host.skipAt = m.host.skipAt := noOut_skipAt (fifoPush_host_noOut m q)
@[simp] theorem fifoPush_host_half0 (q : QEvent) : (fifoPush q m).host.half0 = m.host.half0 := noOut_half0 (fifoPush_host_noOut m q)
@[simp] theorem fifoPush_host_half1 (q : QEvent) : (fifoPush q m).host.half1 = m.host.half1 := noOut_half1 (fifoPush_host_noOut m q)
@[simp] theorem fifoPush_host_mirrorBuild (q : QEvent) : (fifoPush q m).host.mirrorBuild = m.host.mirrorBuild := noOut_mirrorBuild (fifoPush_host_noOut m q)
@[simp] theorem fifoPush_host_mirrorStn (q : QEvent) : (fifoPush q m).host.mirrorStn = m.host.mirrorStn := noOut_mirrorStn (fifoPush_host_noOut m q)
@[simp] theorem fifoPush_host_readData (q : QEvent) : (fifoPush q m).host.readData = m.host.readData := noOut_readData (fifoPush_host_noOut m q)

@[simp] theorem produce_host_noOut (e : Event) : (produce e m).host.noOut = m.host.noOut := by
  unfold produce; split
  · rfl
  · dsimp only; split <;> simp
@[simp] theorem produce_host_noTold (e : Event) : (produce e m).host.noTold = m.host.noTold := noOut_noTold (produce_host_noOut m e)
@[simp] theorem produce_host_noDone (e : Event) : (produce e m).host.noDone = m.host.noDone := noOut_noDone (produce_host_noOut m e)
@[simp] theorem produce_host_pcie (e : Event) : (produce e m).host.pcie = m.host.pcie := noOut_pcie (produce_host_noOut m e)
@[simp] theorem produce_host_run (e : Event) : (produce e m).host.run = m.host.run := noOut_run (produce_host_noOut m e)
@[simp] theorem produce_host_mirror (e : Event) : (produce e m).host.mirror = m.host.mirror := noOut_mirror (produce_host_noOut m e)
@[simp] theorem produce_host_seterr (e : Event) : (produce e m).host.seterr = m.host.seterr := noOut_seterr (produce_host_noOut m e)
@[simp] theorem produce_host_invcause (e : Event) : (produce e m).host.invcause = m.host.invcause := noOut_invcause (produce_host_noOut m e)
@[simp] theorem produce_host_lspeed (e : Event) : (produce e m).host.lspeed = m.host.lspeed := noOut_lspeed (produce_host_noOut m e)
@[simp] theorem produce_host_lwidth (e : Event) : (produce e m).host.lwidth = m.host.lwidth := noOut_lwidth (produce_host_noOut m e)
@[simp] theorem produce_host_valid (e : Event) : (produce e m).host.valid = m.host.valid := noOut_valid (produce_host_noOut m e)
@[simp] theorem produce_host_busMaster (e : Event) : (produce e m).host.busMaster = m.host.busMaster := noOut_busMaster (produce_host_noOut m e)
@[simp] theorem produce_host_mirl (e : Event) : (produce e m).host.mirl = m.host.mirl := noOut_mirl (produce_host_noOut m e)
@[simp] theorem produce_host_mirh (e : Event) : (produce e m).host.mirh = m.host.mirh := noOut_mirh (produce_host_noOut m e)
@[simp] theorem produce_host_headl (e : Event) : (produce e m).host.headl = m.host.headl := noOut_headl (produce_host_noOut m e)
@[simp] theorem produce_host_headh (e : Event) : (produce e m).host.headh = m.host.headh := noOut_headh (produce_host_noOut m e)
@[simp] theorem produce_host_acc (e : Event) : (produce e m).host.acc = m.host.acc := noOut_acc (produce_host_noOut m e)
@[simp] theorem produce_host_cmp (e : Event) : (produce e m).host.cmp = m.host.cmp := noOut_cmp (produce_host_noOut m e)
@[simp] theorem produce_host_latCmp (e : Event) : (produce e m).host.latCmp = m.host.latCmp := noOut_latCmp (produce_host_noOut m e)
@[simp] theorem produce_host_latOut (e : Event) : (produce e m).host.latOut = m.host.latOut := noOut_latOut (produce_host_noOut m e)
@[simp] theorem produce_host_latEvd (e : Event) : (produce e m).host.latEvd = m.host.latEvd := noOut_latEvd (produce_host_noOut m e)
@[simp] theorem produce_host_latEvl (e : Event) : (produce e m).host.latEvl = m.host.latEvl := noOut_latEvl (produce_host_noOut m e)
@[simp] theorem produce_host_discN (e : Event) : (produce e m).host.discN = m.host.discN := noOut_discN (produce_host_noOut m e)
@[simp] theorem produce_host_resetN (e : Event) : (produce e m).host.resetN = m.host.resetN := noOut_resetN (produce_host_noOut m e)
@[simp] theorem produce_host_resetTold (e : Event) : (produce e m).host.resetTold = m.host.resetTold := noOut_resetTold (produce_host_noOut m e)
@[simp] theorem produce_host_head (e : Event) : (produce e m).host.head = m.host.head := noOut_head (produce_host_noOut m e)
@[simp] theorem produce_host_route (e : Event) : (produce e m).host.route = m.host.route := noOut_route (produce_host_noOut m e)
@[simp] theorem produce_host_waiting (e : Event) : (produce e m).host.waiting = m.host.waiting := noOut_waiting (produce_host_noOut m e)
@[simp] theorem produce_host_cycleSubs (e : Event) : (produce e m).host.cycleSubs = m.host.cycleSubs := noOut_cycleSubs (produce_host_noOut m e)
@[simp] theorem produce_host_cycleAt (e : Event) : (produce e m).host.cycleAt = m.host.cycleAt := noOut_cycleAt (produce_host_noOut m e)
@[simp] theorem produce_host_critWait (e : Event) : (produce e m).host.critWait = m.host.critWait := noOut_critWait (produce_host_noOut m e)
@[simp] theorem produce_host_open_ (e : Event) : (produce e m).host.open_ = m.host.open_ := noOut_open_ (produce_host_noOut m e)
@[simp] theorem produce_host_order (e : Event) : (produce e m).host.order = m.host.order := noOut_order (produce_host_noOut m e)
@[simp] theorem produce_host_cplWait (e : Event) : (produce e m).host.cplWait = m.host.cplWait := noOut_cplWait (produce_host_noOut m e)
@[simp] theorem produce_host_evWait (e : Event) : (produce e m).host.evWait = m.host.evWait := noOut_evWait (produce_host_noOut m e)
@[simp] theorem produce_host_crit (e : Event) : (produce e m).host.crit = m.host.crit := noOut_crit (produce_host_noOut m e)
@[simp] theorem produce_host_svcOut (e : Event) : (produce e m).host.svcOut = m.host.svcOut := noOut_svcOut (produce_host_noOut m e)
@[simp] theorem produce_host_dfifo (e : Event) : (produce e m).host.dfifo = m.host.dfifo := noOut_dfifo (produce_host_noOut m e)
@[simp] theorem produce_host_mscn (e : Event) : (produce e m).host.mscn = m.host.mscn := noOut_mscn (produce_host_noOut m e)
@[simp] theorem produce_host_mirrorMode (e : Event) : (produce e m).host.mirrorMode = m.host.mirrorMode := noOut_mirrorMode (produce_host_noOut m e)
@[simp] theorem produce_host_mirrorVset (e : Event) : (produce e m).host.mirrorVset = m.host.mirrorVset := noOut_mirrorVset (produce_host_noOut m e)
@[simp] theorem produce_host_mirrorMfl (e : Event) : (produce e m).host.mirrorMfl = m.host.mirrorMfl := noOut_mirrorMfl (produce_host_noOut m e)
@[simp] theorem produce_host_skipAt (e : Event) : (produce e m).host.skipAt = m.host.skipAt := noOut_skipAt (produce_host_noOut m e)
@[simp] theorem produce_host_half0 (e : Event) : (produce e m).host.half0 = m.host.half0 := noOut_half0 (produce_host_noOut m e)
@[simp] theorem produce_host_half1 (e : Event) : (produce e m).host.half1 = m.host.half1 := noOut_half1 (produce_host_noOut m e)
@[simp] theorem produce_host_mirrorBuild (e : Event) : (produce e m).host.mirrorBuild = m.host.mirrorBuild := noOut_mirrorBuild (produce_host_noOut m e)
@[simp] theorem produce_host_mirrorStn (e : Event) : (produce e m).host.mirrorStn = m.host.mirrorStn := noOut_mirrorStn (produce_host_noOut m e)
@[simp] theorem produce_host_readData (e : Event) : (produce e m).host.readData = m.host.readData := noOut_readData (produce_host_noOut m e)

@[simp] theorem raiseRaw_host_noTold (e : Event) : (raiseRaw e m).host.noTold = m.host.noTold := by
  have h : ∀ (n : Mod) (x : HostIf → List Event), (updHost (fun h => { h with evWait := x h }) n).host.noTold = n.host.noTold := fun _ _ => rfl
  unfold raiseRaw; dsimp only; split
  · rw [h]; simp
  · simp
@[simp] theorem raiseRaw_host_pcie (e : Event) : (raiseRaw e m).host.pcie = m.host.pcie := noTold_pcie (raiseRaw_host_noTold m e)
@[simp] theorem raiseRaw_host_run (e : Event) : (raiseRaw e m).host.run = m.host.run := noTold_run (raiseRaw_host_noTold m e)
@[simp] theorem raiseRaw_host_mirror (e : Event) : (raiseRaw e m).host.mirror = m.host.mirror := noTold_mirror (raiseRaw_host_noTold m e)
@[simp] theorem raiseRaw_host_seterr (e : Event) : (raiseRaw e m).host.seterr = m.host.seterr := noTold_seterr (raiseRaw_host_noTold m e)
@[simp] theorem raiseRaw_host_invcause (e : Event) : (raiseRaw e m).host.invcause = m.host.invcause := noTold_invcause (raiseRaw_host_noTold m e)
@[simp] theorem raiseRaw_host_lspeed (e : Event) : (raiseRaw e m).host.lspeed = m.host.lspeed := noTold_lspeed (raiseRaw_host_noTold m e)
@[simp] theorem raiseRaw_host_lwidth (e : Event) : (raiseRaw e m).host.lwidth = m.host.lwidth := noTold_lwidth (raiseRaw_host_noTold m e)
@[simp] theorem raiseRaw_host_valid (e : Event) : (raiseRaw e m).host.valid = m.host.valid := noTold_valid (raiseRaw_host_noTold m e)
@[simp] theorem raiseRaw_host_busMaster (e : Event) : (raiseRaw e m).host.busMaster = m.host.busMaster := noTold_busMaster (raiseRaw_host_noTold m e)
@[simp] theorem raiseRaw_host_mirl (e : Event) : (raiseRaw e m).host.mirl = m.host.mirl := noTold_mirl (raiseRaw_host_noTold m e)
@[simp] theorem raiseRaw_host_mirh (e : Event) : (raiseRaw e m).host.mirh = m.host.mirh := noTold_mirh (raiseRaw_host_noTold m e)
@[simp] theorem raiseRaw_host_headl (e : Event) : (raiseRaw e m).host.headl = m.host.headl := noTold_headl (raiseRaw_host_noTold m e)
@[simp] theorem raiseRaw_host_headh (e : Event) : (raiseRaw e m).host.headh = m.host.headh := noTold_headh (raiseRaw_host_noTold m e)
@[simp] theorem raiseRaw_host_acc (e : Event) : (raiseRaw e m).host.acc = m.host.acc := noTold_acc (raiseRaw_host_noTold m e)
@[simp] theorem raiseRaw_host_cmp (e : Event) : (raiseRaw e m).host.cmp = m.host.cmp := noTold_cmp (raiseRaw_host_noTold m e)
@[simp] theorem raiseRaw_host_latCmp (e : Event) : (raiseRaw e m).host.latCmp = m.host.latCmp := noTold_latCmp (raiseRaw_host_noTold m e)
@[simp] theorem raiseRaw_host_latOut (e : Event) : (raiseRaw e m).host.latOut = m.host.latOut := noTold_latOut (raiseRaw_host_noTold m e)
@[simp] theorem raiseRaw_host_latEvd (e : Event) : (raiseRaw e m).host.latEvd = m.host.latEvd := noTold_latEvd (raiseRaw_host_noTold m e)
@[simp] theorem raiseRaw_host_latEvl (e : Event) : (raiseRaw e m).host.latEvl = m.host.latEvl := noTold_latEvl (raiseRaw_host_noTold m e)
@[simp] theorem raiseRaw_host_discN (e : Event) : (raiseRaw e m).host.discN = m.host.discN := noTold_discN (raiseRaw_host_noTold m e)
@[simp] theorem raiseRaw_host_resetN (e : Event) : (raiseRaw e m).host.resetN = m.host.resetN := noTold_resetN (raiseRaw_host_noTold m e)
@[simp] theorem raiseRaw_host_resetTold (e : Event) : (raiseRaw e m).host.resetTold = m.host.resetTold := noTold_resetTold (raiseRaw_host_noTold m e)
@[simp] theorem raiseRaw_host_head (e : Event) : (raiseRaw e m).host.head = m.host.head := noTold_head (raiseRaw_host_noTold m e)
@[simp] theorem raiseRaw_host_route (e : Event) : (raiseRaw e m).host.route = m.host.route := noTold_route (raiseRaw_host_noTold m e)
@[simp] theorem raiseRaw_host_waiting (e : Event) : (raiseRaw e m).host.waiting = m.host.waiting := noTold_waiting (raiseRaw_host_noTold m e)
@[simp] theorem raiseRaw_host_cycleSubs (e : Event) : (raiseRaw e m).host.cycleSubs = m.host.cycleSubs := noTold_cycleSubs (raiseRaw_host_noTold m e)
@[simp] theorem raiseRaw_host_cycleAt (e : Event) : (raiseRaw e m).host.cycleAt = m.host.cycleAt := noTold_cycleAt (raiseRaw_host_noTold m e)
@[simp] theorem raiseRaw_host_critWait (e : Event) : (raiseRaw e m).host.critWait = m.host.critWait := noTold_critWait (raiseRaw_host_noTold m e)
@[simp] theorem raiseRaw_host_open_ (e : Event) : (raiseRaw e m).host.open_ = m.host.open_ := noTold_open_ (raiseRaw_host_noTold m e)
@[simp] theorem raiseRaw_host_order (e : Event) : (raiseRaw e m).host.order = m.host.order := noTold_order (raiseRaw_host_noTold m e)
@[simp] theorem raiseRaw_host_cplWait (e : Event) : (raiseRaw e m).host.cplWait = m.host.cplWait := noTold_cplWait (raiseRaw_host_noTold m e)
@[simp] theorem raiseRaw_host_crit (e : Event) : (raiseRaw e m).host.crit = m.host.crit := noTold_crit (raiseRaw_host_noTold m e)
@[simp] theorem raiseRaw_host_svcOut (e : Event) : (raiseRaw e m).host.svcOut = m.host.svcOut := noTold_svcOut (raiseRaw_host_noTold m e)
@[simp] theorem raiseRaw_host_dfifo (e : Event) : (raiseRaw e m).host.dfifo = m.host.dfifo := noTold_dfifo (raiseRaw_host_noTold m e)
@[simp] theorem raiseRaw_host_mscn (e : Event) : (raiseRaw e m).host.mscn = m.host.mscn := noTold_mscn (raiseRaw_host_noTold m e)
@[simp] theorem raiseRaw_host_mirrorMode (e : Event) : (raiseRaw e m).host.mirrorMode = m.host.mirrorMode := noTold_mirrorMode (raiseRaw_host_noTold m e)
@[simp] theorem raiseRaw_host_mirrorVset (e : Event) : (raiseRaw e m).host.mirrorVset = m.host.mirrorVset := noTold_mirrorVset (raiseRaw_host_noTold m e)
@[simp] theorem raiseRaw_host_mirrorMfl (e : Event) : (raiseRaw e m).host.mirrorMfl = m.host.mirrorMfl := noTold_mirrorMfl (raiseRaw_host_noTold m e)
@[simp] theorem raiseRaw_host_skipAt (e : Event) : (raiseRaw e m).host.skipAt = m.host.skipAt := noTold_skipAt (raiseRaw_host_noTold m e)
@[simp] theorem raiseRaw_host_half0 (e : Event) : (raiseRaw e m).host.half0 = m.host.half0 := noTold_half0 (raiseRaw_host_noTold m e)
@[simp] theorem raiseRaw_host_half1 (e : Event) : (raiseRaw e m).host.half1 = m.host.half1 := noTold_half1 (raiseRaw_host_noTold m e)
@[simp] theorem raiseRaw_host_mirrorBuild (e : Event) : (raiseRaw e m).host.mirrorBuild = m.host.mirrorBuild := noTold_mirrorBuild (raiseRaw_host_noTold m e)
@[simp] theorem raiseRaw_host_mirrorStn (e : Event) : (raiseRaw e m).host.mirrorStn = m.host.mirrorStn := noTold_mirrorStn (raiseRaw_host_noTold m e)
@[simp] theorem raiseRaw_host_readData (e : Event) : (raiseRaw e m).host.readData = m.host.readData := noTold_readData (raiseRaw_host_noTold m e)

@[simp] theorem writeLoss_host_noOut (src : Nat) (run : W32 × Nat) : (writeLoss src run m).host.noOut = m.host.noOut := by
  unfold writeLoss; simp
@[simp] theorem writeLoss_host_noTold (src : Nat) (run : W32 × Nat) : (writeLoss src run m).host.noTold = m.host.noTold := noOut_noTold (writeLoss_host_noOut m src run)
@[simp] theorem writeLoss_host_pcie (src : Nat) (run : W32 × Nat) : (writeLoss src run m).host.pcie = m.host.pcie := noOut_pcie (writeLoss_host_noOut m src run)
@[simp] theorem writeLoss_host_run (src : Nat) (run : W32 × Nat) : (writeLoss src run m).host.run = m.host.run := noOut_run (writeLoss_host_noOut m src run)
@[simp] theorem writeLoss_host_mirror (src : Nat) (run : W32 × Nat) : (writeLoss src run m).host.mirror = m.host.mirror := noOut_mirror (writeLoss_host_noOut m src run)
@[simp] theorem writeLoss_host_seterr (src : Nat) (run : W32 × Nat) : (writeLoss src run m).host.seterr = m.host.seterr := noOut_seterr (writeLoss_host_noOut m src run)
@[simp] theorem writeLoss_host_invcause (src : Nat) (run : W32 × Nat) : (writeLoss src run m).host.invcause = m.host.invcause := noOut_invcause (writeLoss_host_noOut m src run)
@[simp] theorem writeLoss_host_lspeed (src : Nat) (run : W32 × Nat) : (writeLoss src run m).host.lspeed = m.host.lspeed := noOut_lspeed (writeLoss_host_noOut m src run)
@[simp] theorem writeLoss_host_lwidth (src : Nat) (run : W32 × Nat) : (writeLoss src run m).host.lwidth = m.host.lwidth := noOut_lwidth (writeLoss_host_noOut m src run)
@[simp] theorem writeLoss_host_valid (src : Nat) (run : W32 × Nat) : (writeLoss src run m).host.valid = m.host.valid := noOut_valid (writeLoss_host_noOut m src run)
@[simp] theorem writeLoss_host_busMaster (src : Nat) (run : W32 × Nat) : (writeLoss src run m).host.busMaster = m.host.busMaster := noOut_busMaster (writeLoss_host_noOut m src run)
@[simp] theorem writeLoss_host_mirl (src : Nat) (run : W32 × Nat) : (writeLoss src run m).host.mirl = m.host.mirl := noOut_mirl (writeLoss_host_noOut m src run)
@[simp] theorem writeLoss_host_mirh (src : Nat) (run : W32 × Nat) : (writeLoss src run m).host.mirh = m.host.mirh := noOut_mirh (writeLoss_host_noOut m src run)
@[simp] theorem writeLoss_host_headl (src : Nat) (run : W32 × Nat) : (writeLoss src run m).host.headl = m.host.headl := noOut_headl (writeLoss_host_noOut m src run)
@[simp] theorem writeLoss_host_headh (src : Nat) (run : W32 × Nat) : (writeLoss src run m).host.headh = m.host.headh := noOut_headh (writeLoss_host_noOut m src run)
@[simp] theorem writeLoss_host_acc (src : Nat) (run : W32 × Nat) : (writeLoss src run m).host.acc = m.host.acc := noOut_acc (writeLoss_host_noOut m src run)
@[simp] theorem writeLoss_host_cmp (src : Nat) (run : W32 × Nat) : (writeLoss src run m).host.cmp = m.host.cmp := noOut_cmp (writeLoss_host_noOut m src run)
@[simp] theorem writeLoss_host_latCmp (src : Nat) (run : W32 × Nat) : (writeLoss src run m).host.latCmp = m.host.latCmp := noOut_latCmp (writeLoss_host_noOut m src run)
@[simp] theorem writeLoss_host_latOut (src : Nat) (run : W32 × Nat) : (writeLoss src run m).host.latOut = m.host.latOut := noOut_latOut (writeLoss_host_noOut m src run)
@[simp] theorem writeLoss_host_latEvd (src : Nat) (run : W32 × Nat) : (writeLoss src run m).host.latEvd = m.host.latEvd := noOut_latEvd (writeLoss_host_noOut m src run)
@[simp] theorem writeLoss_host_latEvl (src : Nat) (run : W32 × Nat) : (writeLoss src run m).host.latEvl = m.host.latEvl := noOut_latEvl (writeLoss_host_noOut m src run)
@[simp] theorem writeLoss_host_discN (src : Nat) (run : W32 × Nat) : (writeLoss src run m).host.discN = m.host.discN := noOut_discN (writeLoss_host_noOut m src run)
@[simp] theorem writeLoss_host_resetN (src : Nat) (run : W32 × Nat) : (writeLoss src run m).host.resetN = m.host.resetN := noOut_resetN (writeLoss_host_noOut m src run)
@[simp] theorem writeLoss_host_resetTold (src : Nat) (run : W32 × Nat) : (writeLoss src run m).host.resetTold = m.host.resetTold := noOut_resetTold (writeLoss_host_noOut m src run)
@[simp] theorem writeLoss_host_head (src : Nat) (run : W32 × Nat) : (writeLoss src run m).host.head = m.host.head := noOut_head (writeLoss_host_noOut m src run)
@[simp] theorem writeLoss_host_route (src : Nat) (run : W32 × Nat) : (writeLoss src run m).host.route = m.host.route := noOut_route (writeLoss_host_noOut m src run)
@[simp] theorem writeLoss_host_waiting (src : Nat) (run : W32 × Nat) : (writeLoss src run m).host.waiting = m.host.waiting := noOut_waiting (writeLoss_host_noOut m src run)
@[simp] theorem writeLoss_host_cycleSubs (src : Nat) (run : W32 × Nat) : (writeLoss src run m).host.cycleSubs = m.host.cycleSubs := noOut_cycleSubs (writeLoss_host_noOut m src run)
@[simp] theorem writeLoss_host_cycleAt (src : Nat) (run : W32 × Nat) : (writeLoss src run m).host.cycleAt = m.host.cycleAt := noOut_cycleAt (writeLoss_host_noOut m src run)
@[simp] theorem writeLoss_host_critWait (src : Nat) (run : W32 × Nat) : (writeLoss src run m).host.critWait = m.host.critWait := noOut_critWait (writeLoss_host_noOut m src run)
@[simp] theorem writeLoss_host_open_ (src : Nat) (run : W32 × Nat) : (writeLoss src run m).host.open_ = m.host.open_ := noOut_open_ (writeLoss_host_noOut m src run)
@[simp] theorem writeLoss_host_order (src : Nat) (run : W32 × Nat) : (writeLoss src run m).host.order = m.host.order := noOut_order (writeLoss_host_noOut m src run)
@[simp] theorem writeLoss_host_cplWait (src : Nat) (run : W32 × Nat) : (writeLoss src run m).host.cplWait = m.host.cplWait := noOut_cplWait (writeLoss_host_noOut m src run)
@[simp] theorem writeLoss_host_evWait (src : Nat) (run : W32 × Nat) : (writeLoss src run m).host.evWait = m.host.evWait := noOut_evWait (writeLoss_host_noOut m src run)
@[simp] theorem writeLoss_host_crit (src : Nat) (run : W32 × Nat) : (writeLoss src run m).host.crit = m.host.crit := noOut_crit (writeLoss_host_noOut m src run)
@[simp] theorem writeLoss_host_svcOut (src : Nat) (run : W32 × Nat) : (writeLoss src run m).host.svcOut = m.host.svcOut := noOut_svcOut (writeLoss_host_noOut m src run)
@[simp] theorem writeLoss_host_dfifo (src : Nat) (run : W32 × Nat) : (writeLoss src run m).host.dfifo = m.host.dfifo := noOut_dfifo (writeLoss_host_noOut m src run)
@[simp] theorem writeLoss_host_mscn (src : Nat) (run : W32 × Nat) : (writeLoss src run m).host.mscn = m.host.mscn := noOut_mscn (writeLoss_host_noOut m src run)
@[simp] theorem writeLoss_host_mirrorMode (src : Nat) (run : W32 × Nat) : (writeLoss src run m).host.mirrorMode = m.host.mirrorMode := noOut_mirrorMode (writeLoss_host_noOut m src run)
@[simp] theorem writeLoss_host_mirrorVset (src : Nat) (run : W32 × Nat) : (writeLoss src run m).host.mirrorVset = m.host.mirrorVset := noOut_mirrorVset (writeLoss_host_noOut m src run)
@[simp] theorem writeLoss_host_mirrorMfl (src : Nat) (run : W32 × Nat) : (writeLoss src run m).host.mirrorMfl = m.host.mirrorMfl := noOut_mirrorMfl (writeLoss_host_noOut m src run)
@[simp] theorem writeLoss_host_skipAt (src : Nat) (run : W32 × Nat) : (writeLoss src run m).host.skipAt = m.host.skipAt := noOut_skipAt (writeLoss_host_noOut m src run)
@[simp] theorem writeLoss_host_half0 (src : Nat) (run : W32 × Nat) : (writeLoss src run m).host.half0 = m.host.half0 := noOut_half0 (writeLoss_host_noOut m src run)
@[simp] theorem writeLoss_host_half1 (src : Nat) (run : W32 × Nat) : (writeLoss src run m).host.half1 = m.host.half1 := noOut_half1 (writeLoss_host_noOut m src run)
@[simp] theorem writeLoss_host_mirrorBuild (src : Nat) (run : W32 × Nat) : (writeLoss src run m).host.mirrorBuild = m.host.mirrorBuild := noOut_mirrorBuild (writeLoss_host_noOut m src run)
@[simp] theorem writeLoss_host_mirrorStn (src : Nat) (run : W32 × Nat) : (writeLoss src run m).host.mirrorStn = m.host.mirrorStn := noOut_mirrorStn (writeLoss_host_noOut m src run)
@[simp] theorem writeLoss_host_readData (src : Nat) (run : W32 × Nat) : (writeLoss src run m).host.readData = m.host.readData := noOut_readData (writeLoss_host_noOut m src run)

@[simp] theorem tellLoss_host_noOut (src : Nat) (run : W32 × Nat) : (tellLoss src run m).host.noOut = m.host.noOut := by
  unfold tellLoss; split
  · rfl
  · simp [raiseRaw]
@[simp] theorem tellLoss_host_noTold (src : Nat) (run : W32 × Nat) : (tellLoss src run m).host.noTold = m.host.noTold := noOut_noTold (tellLoss_host_noOut m src run)
@[simp] theorem tellLoss_host_pcie (src : Nat) (run : W32 × Nat) : (tellLoss src run m).host.pcie = m.host.pcie := noOut_pcie (tellLoss_host_noOut m src run)
@[simp] theorem tellLoss_host_run (src : Nat) (run : W32 × Nat) : (tellLoss src run m).host.run = m.host.run := noOut_run (tellLoss_host_noOut m src run)
@[simp] theorem tellLoss_host_mirror (src : Nat) (run : W32 × Nat) : (tellLoss src run m).host.mirror = m.host.mirror := noOut_mirror (tellLoss_host_noOut m src run)
@[simp] theorem tellLoss_host_seterr (src : Nat) (run : W32 × Nat) : (tellLoss src run m).host.seterr = m.host.seterr := noOut_seterr (tellLoss_host_noOut m src run)
@[simp] theorem tellLoss_host_invcause (src : Nat) (run : W32 × Nat) : (tellLoss src run m).host.invcause = m.host.invcause := noOut_invcause (tellLoss_host_noOut m src run)
@[simp] theorem tellLoss_host_lspeed (src : Nat) (run : W32 × Nat) : (tellLoss src run m).host.lspeed = m.host.lspeed := noOut_lspeed (tellLoss_host_noOut m src run)
@[simp] theorem tellLoss_host_lwidth (src : Nat) (run : W32 × Nat) : (tellLoss src run m).host.lwidth = m.host.lwidth := noOut_lwidth (tellLoss_host_noOut m src run)
@[simp] theorem tellLoss_host_valid (src : Nat) (run : W32 × Nat) : (tellLoss src run m).host.valid = m.host.valid := noOut_valid (tellLoss_host_noOut m src run)
@[simp] theorem tellLoss_host_busMaster (src : Nat) (run : W32 × Nat) : (tellLoss src run m).host.busMaster = m.host.busMaster := noOut_busMaster (tellLoss_host_noOut m src run)
@[simp] theorem tellLoss_host_mirl (src : Nat) (run : W32 × Nat) : (tellLoss src run m).host.mirl = m.host.mirl := noOut_mirl (tellLoss_host_noOut m src run)
@[simp] theorem tellLoss_host_mirh (src : Nat) (run : W32 × Nat) : (tellLoss src run m).host.mirh = m.host.mirh := noOut_mirh (tellLoss_host_noOut m src run)
@[simp] theorem tellLoss_host_headl (src : Nat) (run : W32 × Nat) : (tellLoss src run m).host.headl = m.host.headl := noOut_headl (tellLoss_host_noOut m src run)
@[simp] theorem tellLoss_host_headh (src : Nat) (run : W32 × Nat) : (tellLoss src run m).host.headh = m.host.headh := noOut_headh (tellLoss_host_noOut m src run)
@[simp] theorem tellLoss_host_acc (src : Nat) (run : W32 × Nat) : (tellLoss src run m).host.acc = m.host.acc := noOut_acc (tellLoss_host_noOut m src run)
@[simp] theorem tellLoss_host_cmp (src : Nat) (run : W32 × Nat) : (tellLoss src run m).host.cmp = m.host.cmp := noOut_cmp (tellLoss_host_noOut m src run)
@[simp] theorem tellLoss_host_latCmp (src : Nat) (run : W32 × Nat) : (tellLoss src run m).host.latCmp = m.host.latCmp := noOut_latCmp (tellLoss_host_noOut m src run)
@[simp] theorem tellLoss_host_latOut (src : Nat) (run : W32 × Nat) : (tellLoss src run m).host.latOut = m.host.latOut := noOut_latOut (tellLoss_host_noOut m src run)
@[simp] theorem tellLoss_host_latEvd (src : Nat) (run : W32 × Nat) : (tellLoss src run m).host.latEvd = m.host.latEvd := noOut_latEvd (tellLoss_host_noOut m src run)
@[simp] theorem tellLoss_host_latEvl (src : Nat) (run : W32 × Nat) : (tellLoss src run m).host.latEvl = m.host.latEvl := noOut_latEvl (tellLoss_host_noOut m src run)
@[simp] theorem tellLoss_host_discN (src : Nat) (run : W32 × Nat) : (tellLoss src run m).host.discN = m.host.discN := noOut_discN (tellLoss_host_noOut m src run)
@[simp] theorem tellLoss_host_resetN (src : Nat) (run : W32 × Nat) : (tellLoss src run m).host.resetN = m.host.resetN := noOut_resetN (tellLoss_host_noOut m src run)
@[simp] theorem tellLoss_host_resetTold (src : Nat) (run : W32 × Nat) : (tellLoss src run m).host.resetTold = m.host.resetTold := noOut_resetTold (tellLoss_host_noOut m src run)
@[simp] theorem tellLoss_host_head (src : Nat) (run : W32 × Nat) : (tellLoss src run m).host.head = m.host.head := noOut_head (tellLoss_host_noOut m src run)
@[simp] theorem tellLoss_host_route (src : Nat) (run : W32 × Nat) : (tellLoss src run m).host.route = m.host.route := noOut_route (tellLoss_host_noOut m src run)
@[simp] theorem tellLoss_host_waiting (src : Nat) (run : W32 × Nat) : (tellLoss src run m).host.waiting = m.host.waiting := noOut_waiting (tellLoss_host_noOut m src run)
@[simp] theorem tellLoss_host_cycleSubs (src : Nat) (run : W32 × Nat) : (tellLoss src run m).host.cycleSubs = m.host.cycleSubs := noOut_cycleSubs (tellLoss_host_noOut m src run)
@[simp] theorem tellLoss_host_cycleAt (src : Nat) (run : W32 × Nat) : (tellLoss src run m).host.cycleAt = m.host.cycleAt := noOut_cycleAt (tellLoss_host_noOut m src run)
@[simp] theorem tellLoss_host_critWait (src : Nat) (run : W32 × Nat) : (tellLoss src run m).host.critWait = m.host.critWait := noOut_critWait (tellLoss_host_noOut m src run)
@[simp] theorem tellLoss_host_open_ (src : Nat) (run : W32 × Nat) : (tellLoss src run m).host.open_ = m.host.open_ := noOut_open_ (tellLoss_host_noOut m src run)
@[simp] theorem tellLoss_host_order (src : Nat) (run : W32 × Nat) : (tellLoss src run m).host.order = m.host.order := noOut_order (tellLoss_host_noOut m src run)
@[simp] theorem tellLoss_host_cplWait (src : Nat) (run : W32 × Nat) : (tellLoss src run m).host.cplWait = m.host.cplWait := noOut_cplWait (tellLoss_host_noOut m src run)
@[simp] theorem tellLoss_host_evWait (src : Nat) (run : W32 × Nat) : (tellLoss src run m).host.evWait = m.host.evWait := noOut_evWait (tellLoss_host_noOut m src run)
@[simp] theorem tellLoss_host_crit (src : Nat) (run : W32 × Nat) : (tellLoss src run m).host.crit = m.host.crit := noOut_crit (tellLoss_host_noOut m src run)
@[simp] theorem tellLoss_host_svcOut (src : Nat) (run : W32 × Nat) : (tellLoss src run m).host.svcOut = m.host.svcOut := noOut_svcOut (tellLoss_host_noOut m src run)
@[simp] theorem tellLoss_host_dfifo (src : Nat) (run : W32 × Nat) : (tellLoss src run m).host.dfifo = m.host.dfifo := noOut_dfifo (tellLoss_host_noOut m src run)
@[simp] theorem tellLoss_host_mscn (src : Nat) (run : W32 × Nat) : (tellLoss src run m).host.mscn = m.host.mscn := noOut_mscn (tellLoss_host_noOut m src run)
@[simp] theorem tellLoss_host_mirrorMode (src : Nat) (run : W32 × Nat) : (tellLoss src run m).host.mirrorMode = m.host.mirrorMode := noOut_mirrorMode (tellLoss_host_noOut m src run)
@[simp] theorem tellLoss_host_mirrorVset (src : Nat) (run : W32 × Nat) : (tellLoss src run m).host.mirrorVset = m.host.mirrorVset := noOut_mirrorVset (tellLoss_host_noOut m src run)
@[simp] theorem tellLoss_host_mirrorMfl (src : Nat) (run : W32 × Nat) : (tellLoss src run m).host.mirrorMfl = m.host.mirrorMfl := noOut_mirrorMfl (tellLoss_host_noOut m src run)
@[simp] theorem tellLoss_host_skipAt (src : Nat) (run : W32 × Nat) : (tellLoss src run m).host.skipAt = m.host.skipAt := noOut_skipAt (tellLoss_host_noOut m src run)
@[simp] theorem tellLoss_host_half0 (src : Nat) (run : W32 × Nat) : (tellLoss src run m).host.half0 = m.host.half0 := noOut_half0 (tellLoss_host_noOut m src run)
@[simp] theorem tellLoss_host_half1 (src : Nat) (run : W32 × Nat) : (tellLoss src run m).host.half1 = m.host.half1 := noOut_half1 (tellLoss_host_noOut m src run)
@[simp] theorem tellLoss_host_mirrorBuild (src : Nat) (run : W32 × Nat) : (tellLoss src run m).host.mirrorBuild = m.host.mirrorBuild := noOut_mirrorBuild (tellLoss_host_noOut m src run)
@[simp] theorem tellLoss_host_mirrorStn (src : Nat) (run : W32 × Nat) : (tellLoss src run m).host.mirrorStn = m.host.mirrorStn := noOut_mirrorStn (tellLoss_host_noOut m src run)
@[simp] theorem tellLoss_host_readData (src : Nat) (run : W32 × Nat) : (tellLoss src run m).host.readData = m.host.readData := noOut_readData (tellLoss_host_noOut m src run)

@[simp] theorem closeRun_host_noOut (priv : Bool) (src : Nat) : (closeRun priv src m).host.noOut = m.host.noOut := by
  unfold closeRun; split
  · rfl
  · dsimp only; split
    · rfl
    · exact (forEach_keeps _ (fun n => n.host.noOut) _ _ (fun p n => tellLoss_host_noOut n _ _)).trans
       (forEach_keeps _ (fun n => n.host.noOut) _ _ (fun p n => writeLoss_host_noOut n _ _))
@[simp] theorem closeRun_host_noTold (priv : Bool) (src : Nat) : (closeRun priv src m).host.noTold = m.host.noTold := noOut_noTold (closeRun_host_noOut m priv src)
@[simp] theorem closeRun_host_pcie (priv : Bool) (src : Nat) : (closeRun priv src m).host.pcie = m.host.pcie := noOut_pcie (closeRun_host_noOut m priv src)
@[simp] theorem closeRun_host_run (priv : Bool) (src : Nat) : (closeRun priv src m).host.run = m.host.run := noOut_run (closeRun_host_noOut m priv src)
@[simp] theorem closeRun_host_mirror (priv : Bool) (src : Nat) : (closeRun priv src m).host.mirror = m.host.mirror := noOut_mirror (closeRun_host_noOut m priv src)
@[simp] theorem closeRun_host_seterr (priv : Bool) (src : Nat) : (closeRun priv src m).host.seterr = m.host.seterr := noOut_seterr (closeRun_host_noOut m priv src)
@[simp] theorem closeRun_host_invcause (priv : Bool) (src : Nat) : (closeRun priv src m).host.invcause = m.host.invcause := noOut_invcause (closeRun_host_noOut m priv src)
@[simp] theorem closeRun_host_lspeed (priv : Bool) (src : Nat) : (closeRun priv src m).host.lspeed = m.host.lspeed := noOut_lspeed (closeRun_host_noOut m priv src)
@[simp] theorem closeRun_host_lwidth (priv : Bool) (src : Nat) : (closeRun priv src m).host.lwidth = m.host.lwidth := noOut_lwidth (closeRun_host_noOut m priv src)
@[simp] theorem closeRun_host_valid (priv : Bool) (src : Nat) : (closeRun priv src m).host.valid = m.host.valid := noOut_valid (closeRun_host_noOut m priv src)
@[simp] theorem closeRun_host_busMaster (priv : Bool) (src : Nat) : (closeRun priv src m).host.busMaster = m.host.busMaster := noOut_busMaster (closeRun_host_noOut m priv src)
@[simp] theorem closeRun_host_mirl (priv : Bool) (src : Nat) : (closeRun priv src m).host.mirl = m.host.mirl := noOut_mirl (closeRun_host_noOut m priv src)
@[simp] theorem closeRun_host_mirh (priv : Bool) (src : Nat) : (closeRun priv src m).host.mirh = m.host.mirh := noOut_mirh (closeRun_host_noOut m priv src)
@[simp] theorem closeRun_host_headl (priv : Bool) (src : Nat) : (closeRun priv src m).host.headl = m.host.headl := noOut_headl (closeRun_host_noOut m priv src)
@[simp] theorem closeRun_host_headh (priv : Bool) (src : Nat) : (closeRun priv src m).host.headh = m.host.headh := noOut_headh (closeRun_host_noOut m priv src)
@[simp] theorem closeRun_host_acc (priv : Bool) (src : Nat) : (closeRun priv src m).host.acc = m.host.acc := noOut_acc (closeRun_host_noOut m priv src)
@[simp] theorem closeRun_host_cmp (priv : Bool) (src : Nat) : (closeRun priv src m).host.cmp = m.host.cmp := noOut_cmp (closeRun_host_noOut m priv src)
@[simp] theorem closeRun_host_latCmp (priv : Bool) (src : Nat) : (closeRun priv src m).host.latCmp = m.host.latCmp := noOut_latCmp (closeRun_host_noOut m priv src)
@[simp] theorem closeRun_host_latOut (priv : Bool) (src : Nat) : (closeRun priv src m).host.latOut = m.host.latOut := noOut_latOut (closeRun_host_noOut m priv src)
@[simp] theorem closeRun_host_latEvd (priv : Bool) (src : Nat) : (closeRun priv src m).host.latEvd = m.host.latEvd := noOut_latEvd (closeRun_host_noOut m priv src)
@[simp] theorem closeRun_host_latEvl (priv : Bool) (src : Nat) : (closeRun priv src m).host.latEvl = m.host.latEvl := noOut_latEvl (closeRun_host_noOut m priv src)
@[simp] theorem closeRun_host_discN (priv : Bool) (src : Nat) : (closeRun priv src m).host.discN = m.host.discN := noOut_discN (closeRun_host_noOut m priv src)
@[simp] theorem closeRun_host_resetN (priv : Bool) (src : Nat) : (closeRun priv src m).host.resetN = m.host.resetN := noOut_resetN (closeRun_host_noOut m priv src)
@[simp] theorem closeRun_host_resetTold (priv : Bool) (src : Nat) : (closeRun priv src m).host.resetTold = m.host.resetTold := noOut_resetTold (closeRun_host_noOut m priv src)
@[simp] theorem closeRun_host_head (priv : Bool) (src : Nat) : (closeRun priv src m).host.head = m.host.head := noOut_head (closeRun_host_noOut m priv src)
@[simp] theorem closeRun_host_route (priv : Bool) (src : Nat) : (closeRun priv src m).host.route = m.host.route := noOut_route (closeRun_host_noOut m priv src)
@[simp] theorem closeRun_host_waiting (priv : Bool) (src : Nat) : (closeRun priv src m).host.waiting = m.host.waiting := noOut_waiting (closeRun_host_noOut m priv src)
@[simp] theorem closeRun_host_cycleSubs (priv : Bool) (src : Nat) : (closeRun priv src m).host.cycleSubs = m.host.cycleSubs := noOut_cycleSubs (closeRun_host_noOut m priv src)
@[simp] theorem closeRun_host_cycleAt (priv : Bool) (src : Nat) : (closeRun priv src m).host.cycleAt = m.host.cycleAt := noOut_cycleAt (closeRun_host_noOut m priv src)
@[simp] theorem closeRun_host_critWait (priv : Bool) (src : Nat) : (closeRun priv src m).host.critWait = m.host.critWait := noOut_critWait (closeRun_host_noOut m priv src)
@[simp] theorem closeRun_host_open_ (priv : Bool) (src : Nat) : (closeRun priv src m).host.open_ = m.host.open_ := noOut_open_ (closeRun_host_noOut m priv src)
@[simp] theorem closeRun_host_order (priv : Bool) (src : Nat) : (closeRun priv src m).host.order = m.host.order := noOut_order (closeRun_host_noOut m priv src)
@[simp] theorem closeRun_host_cplWait (priv : Bool) (src : Nat) : (closeRun priv src m).host.cplWait = m.host.cplWait := noOut_cplWait (closeRun_host_noOut m priv src)
@[simp] theorem closeRun_host_evWait (priv : Bool) (src : Nat) : (closeRun priv src m).host.evWait = m.host.evWait := noOut_evWait (closeRun_host_noOut m priv src)
@[simp] theorem closeRun_host_crit (priv : Bool) (src : Nat) : (closeRun priv src m).host.crit = m.host.crit := noOut_crit (closeRun_host_noOut m priv src)
@[simp] theorem closeRun_host_svcOut (priv : Bool) (src : Nat) : (closeRun priv src m).host.svcOut = m.host.svcOut := noOut_svcOut (closeRun_host_noOut m priv src)
@[simp] theorem closeRun_host_dfifo (priv : Bool) (src : Nat) : (closeRun priv src m).host.dfifo = m.host.dfifo := noOut_dfifo (closeRun_host_noOut m priv src)
@[simp] theorem closeRun_host_mscn (priv : Bool) (src : Nat) : (closeRun priv src m).host.mscn = m.host.mscn := noOut_mscn (closeRun_host_noOut m priv src)
@[simp] theorem closeRun_host_mirrorMode (priv : Bool) (src : Nat) : (closeRun priv src m).host.mirrorMode = m.host.mirrorMode := noOut_mirrorMode (closeRun_host_noOut m priv src)
@[simp] theorem closeRun_host_mirrorVset (priv : Bool) (src : Nat) : (closeRun priv src m).host.mirrorVset = m.host.mirrorVset := noOut_mirrorVset (closeRun_host_noOut m priv src)
@[simp] theorem closeRun_host_mirrorMfl (priv : Bool) (src : Nat) : (closeRun priv src m).host.mirrorMfl = m.host.mirrorMfl := noOut_mirrorMfl (closeRun_host_noOut m priv src)
@[simp] theorem closeRun_host_skipAt (priv : Bool) (src : Nat) : (closeRun priv src m).host.skipAt = m.host.skipAt := noOut_skipAt (closeRun_host_noOut m priv src)
@[simp] theorem closeRun_host_half0 (priv : Bool) (src : Nat) : (closeRun priv src m).host.half0 = m.host.half0 := noOut_half0 (closeRun_host_noOut m priv src)
@[simp] theorem closeRun_host_half1 (priv : Bool) (src : Nat) : (closeRun priv src m).host.half1 = m.host.half1 := noOut_half1 (closeRun_host_noOut m priv src)
@[simp] theorem closeRun_host_mirrorBuild (priv : Bool) (src : Nat) : (closeRun priv src m).host.mirrorBuild = m.host.mirrorBuild := noOut_mirrorBuild (closeRun_host_noOut m priv src)
@[simp] theorem closeRun_host_mirrorStn (priv : Bool) (src : Nat) : (closeRun priv src m).host.mirrorStn = m.host.mirrorStn := noOut_mirrorStn (closeRun_host_noOut m priv src)
@[simp] theorem closeRun_host_readData (priv : Bool) (src : Nat) : (closeRun priv src m).host.readData = m.host.readData := noOut_readData (closeRun_host_noOut m priv src)

@[simp] theorem raise_host_noTold (code : Nat) (x : EvArgs) : (raise code x m).host.noTold = m.host.noTold := by
  unfold raise; split
  · rfl
  · simp
@[simp] theorem raise_host_pcie (code : Nat) (x : EvArgs) : (raise code x m).host.pcie = m.host.pcie := noTold_pcie (raise_host_noTold m code x)
@[simp] theorem raise_host_run (code : Nat) (x : EvArgs) : (raise code x m).host.run = m.host.run := noTold_run (raise_host_noTold m code x)
@[simp] theorem raise_host_mirror (code : Nat) (x : EvArgs) : (raise code x m).host.mirror = m.host.mirror := noTold_mirror (raise_host_noTold m code x)
@[simp] theorem raise_host_seterr (code : Nat) (x : EvArgs) : (raise code x m).host.seterr = m.host.seterr := noTold_seterr (raise_host_noTold m code x)
@[simp] theorem raise_host_invcause (code : Nat) (x : EvArgs) : (raise code x m).host.invcause = m.host.invcause := noTold_invcause (raise_host_noTold m code x)
@[simp] theorem raise_host_lspeed (code : Nat) (x : EvArgs) : (raise code x m).host.lspeed = m.host.lspeed := noTold_lspeed (raise_host_noTold m code x)
@[simp] theorem raise_host_lwidth (code : Nat) (x : EvArgs) : (raise code x m).host.lwidth = m.host.lwidth := noTold_lwidth (raise_host_noTold m code x)
@[simp] theorem raise_host_valid (code : Nat) (x : EvArgs) : (raise code x m).host.valid = m.host.valid := noTold_valid (raise_host_noTold m code x)
@[simp] theorem raise_host_busMaster (code : Nat) (x : EvArgs) : (raise code x m).host.busMaster = m.host.busMaster := noTold_busMaster (raise_host_noTold m code x)
@[simp] theorem raise_host_mirl (code : Nat) (x : EvArgs) : (raise code x m).host.mirl = m.host.mirl := noTold_mirl (raise_host_noTold m code x)
@[simp] theorem raise_host_mirh (code : Nat) (x : EvArgs) : (raise code x m).host.mirh = m.host.mirh := noTold_mirh (raise_host_noTold m code x)
@[simp] theorem raise_host_headl (code : Nat) (x : EvArgs) : (raise code x m).host.headl = m.host.headl := noTold_headl (raise_host_noTold m code x)
@[simp] theorem raise_host_headh (code : Nat) (x : EvArgs) : (raise code x m).host.headh = m.host.headh := noTold_headh (raise_host_noTold m code x)
@[simp] theorem raise_host_acc (code : Nat) (x : EvArgs) : (raise code x m).host.acc = m.host.acc := noTold_acc (raise_host_noTold m code x)
@[simp] theorem raise_host_cmp (code : Nat) (x : EvArgs) : (raise code x m).host.cmp = m.host.cmp := noTold_cmp (raise_host_noTold m code x)
@[simp] theorem raise_host_latCmp (code : Nat) (x : EvArgs) : (raise code x m).host.latCmp = m.host.latCmp := noTold_latCmp (raise_host_noTold m code x)
@[simp] theorem raise_host_latOut (code : Nat) (x : EvArgs) : (raise code x m).host.latOut = m.host.latOut := noTold_latOut (raise_host_noTold m code x)
@[simp] theorem raise_host_latEvd (code : Nat) (x : EvArgs) : (raise code x m).host.latEvd = m.host.latEvd := noTold_latEvd (raise_host_noTold m code x)
@[simp] theorem raise_host_latEvl (code : Nat) (x : EvArgs) : (raise code x m).host.latEvl = m.host.latEvl := noTold_latEvl (raise_host_noTold m code x)
@[simp] theorem raise_host_discN (code : Nat) (x : EvArgs) : (raise code x m).host.discN = m.host.discN := noTold_discN (raise_host_noTold m code x)
@[simp] theorem raise_host_resetN (code : Nat) (x : EvArgs) : (raise code x m).host.resetN = m.host.resetN := noTold_resetN (raise_host_noTold m code x)
@[simp] theorem raise_host_resetTold (code : Nat) (x : EvArgs) : (raise code x m).host.resetTold = m.host.resetTold := noTold_resetTold (raise_host_noTold m code x)
@[simp] theorem raise_host_head (code : Nat) (x : EvArgs) : (raise code x m).host.head = m.host.head := noTold_head (raise_host_noTold m code x)
@[simp] theorem raise_host_route (code : Nat) (x : EvArgs) : (raise code x m).host.route = m.host.route := noTold_route (raise_host_noTold m code x)
@[simp] theorem raise_host_waiting (code : Nat) (x : EvArgs) : (raise code x m).host.waiting = m.host.waiting := noTold_waiting (raise_host_noTold m code x)
@[simp] theorem raise_host_cycleSubs (code : Nat) (x : EvArgs) : (raise code x m).host.cycleSubs = m.host.cycleSubs := noTold_cycleSubs (raise_host_noTold m code x)
@[simp] theorem raise_host_cycleAt (code : Nat) (x : EvArgs) : (raise code x m).host.cycleAt = m.host.cycleAt := noTold_cycleAt (raise_host_noTold m code x)
@[simp] theorem raise_host_critWait (code : Nat) (x : EvArgs) : (raise code x m).host.critWait = m.host.critWait := noTold_critWait (raise_host_noTold m code x)
@[simp] theorem raise_host_open_ (code : Nat) (x : EvArgs) : (raise code x m).host.open_ = m.host.open_ := noTold_open_ (raise_host_noTold m code x)
@[simp] theorem raise_host_order (code : Nat) (x : EvArgs) : (raise code x m).host.order = m.host.order := noTold_order (raise_host_noTold m code x)
@[simp] theorem raise_host_cplWait (code : Nat) (x : EvArgs) : (raise code x m).host.cplWait = m.host.cplWait := noTold_cplWait (raise_host_noTold m code x)
@[simp] theorem raise_host_crit (code : Nat) (x : EvArgs) : (raise code x m).host.crit = m.host.crit := noTold_crit (raise_host_noTold m code x)
@[simp] theorem raise_host_svcOut (code : Nat) (x : EvArgs) : (raise code x m).host.svcOut = m.host.svcOut := noTold_svcOut (raise_host_noTold m code x)
@[simp] theorem raise_host_dfifo (code : Nat) (x : EvArgs) : (raise code x m).host.dfifo = m.host.dfifo := noTold_dfifo (raise_host_noTold m code x)
@[simp] theorem raise_host_mscn (code : Nat) (x : EvArgs) : (raise code x m).host.mscn = m.host.mscn := noTold_mscn (raise_host_noTold m code x)
@[simp] theorem raise_host_mirrorMode (code : Nat) (x : EvArgs) : (raise code x m).host.mirrorMode = m.host.mirrorMode := noTold_mirrorMode (raise_host_noTold m code x)
@[simp] theorem raise_host_mirrorVset (code : Nat) (x : EvArgs) : (raise code x m).host.mirrorVset = m.host.mirrorVset := noTold_mirrorVset (raise_host_noTold m code x)
@[simp] theorem raise_host_mirrorMfl (code : Nat) (x : EvArgs) : (raise code x m).host.mirrorMfl = m.host.mirrorMfl := noTold_mirrorMfl (raise_host_noTold m code x)
@[simp] theorem raise_host_skipAt (code : Nat) (x : EvArgs) : (raise code x m).host.skipAt = m.host.skipAt := noTold_skipAt (raise_host_noTold m code x)
@[simp] theorem raise_host_half0 (code : Nat) (x : EvArgs) : (raise code x m).host.half0 = m.host.half0 := noTold_half0 (raise_host_noTold m code x)
@[simp] theorem raise_host_half1 (code : Nat) (x : EvArgs) : (raise code x m).host.half1 = m.host.half1 := noTold_half1 (raise_host_noTold m code x)
@[simp] theorem raise_host_mirrorBuild (code : Nat) (x : EvArgs) : (raise code x m).host.mirrorBuild = m.host.mirrorBuild := noTold_mirrorBuild (raise_host_noTold m code x)
@[simp] theorem raise_host_mirrorStn (code : Nat) (x : EvArgs) : (raise code x m).host.mirrorStn = m.host.mirrorStn := noTold_mirrorStn (raise_host_noTold m code x)
@[simp] theorem raise_host_readData (code : Nat) (x : EvArgs) : (raise code x m).host.readData = m.host.readData := noTold_readData (raise_host_noTold m code x)

@[simp] theorem fireDue_host_noOut : (fireDue m).host.noOut = m.host.noOut := by
  unfold fireDue; split
  · rfl
  · rfl
@[simp] theorem fireDue_host_noTold : (fireDue m).host.noTold = m.host.noTold := noOut_noTold (fireDue_host_noOut m)
@[simp] theorem fireDue_host_noDone : (fireDue m).host.noDone = m.host.noDone := noOut_noDone (fireDue_host_noOut m)
@[simp] theorem fireDue_host_pcie : (fireDue m).host.pcie = m.host.pcie := noOut_pcie (fireDue_host_noOut m)
@[simp] theorem fireDue_host_run : (fireDue m).host.run = m.host.run := noOut_run (fireDue_host_noOut m)
@[simp] theorem fireDue_host_mirror : (fireDue m).host.mirror = m.host.mirror := noOut_mirror (fireDue_host_noOut m)
@[simp] theorem fireDue_host_seterr : (fireDue m).host.seterr = m.host.seterr := noOut_seterr (fireDue_host_noOut m)
@[simp] theorem fireDue_host_invcause : (fireDue m).host.invcause = m.host.invcause := noOut_invcause (fireDue_host_noOut m)
@[simp] theorem fireDue_host_lspeed : (fireDue m).host.lspeed = m.host.lspeed := noOut_lspeed (fireDue_host_noOut m)
@[simp] theorem fireDue_host_lwidth : (fireDue m).host.lwidth = m.host.lwidth := noOut_lwidth (fireDue_host_noOut m)
@[simp] theorem fireDue_host_valid : (fireDue m).host.valid = m.host.valid := noOut_valid (fireDue_host_noOut m)
@[simp] theorem fireDue_host_busMaster : (fireDue m).host.busMaster = m.host.busMaster := noOut_busMaster (fireDue_host_noOut m)
@[simp] theorem fireDue_host_mirl : (fireDue m).host.mirl = m.host.mirl := noOut_mirl (fireDue_host_noOut m)
@[simp] theorem fireDue_host_mirh : (fireDue m).host.mirh = m.host.mirh := noOut_mirh (fireDue_host_noOut m)
@[simp] theorem fireDue_host_headl : (fireDue m).host.headl = m.host.headl := noOut_headl (fireDue_host_noOut m)
@[simp] theorem fireDue_host_headh : (fireDue m).host.headh = m.host.headh := noOut_headh (fireDue_host_noOut m)
@[simp] theorem fireDue_host_acc : (fireDue m).host.acc = m.host.acc := noOut_acc (fireDue_host_noOut m)
@[simp] theorem fireDue_host_cmp : (fireDue m).host.cmp = m.host.cmp := noOut_cmp (fireDue_host_noOut m)
@[simp] theorem fireDue_host_latCmp : (fireDue m).host.latCmp = m.host.latCmp := noOut_latCmp (fireDue_host_noOut m)
@[simp] theorem fireDue_host_latOut : (fireDue m).host.latOut = m.host.latOut := noOut_latOut (fireDue_host_noOut m)
@[simp] theorem fireDue_host_latEvd : (fireDue m).host.latEvd = m.host.latEvd := noOut_latEvd (fireDue_host_noOut m)
@[simp] theorem fireDue_host_latEvl : (fireDue m).host.latEvl = m.host.latEvl := noOut_latEvl (fireDue_host_noOut m)
@[simp] theorem fireDue_host_discN : (fireDue m).host.discN = m.host.discN := noOut_discN (fireDue_host_noOut m)
@[simp] theorem fireDue_host_resetN : (fireDue m).host.resetN = m.host.resetN := noOut_resetN (fireDue_host_noOut m)
@[simp] theorem fireDue_host_resetTold : (fireDue m).host.resetTold = m.host.resetTold := noOut_resetTold (fireDue_host_noOut m)
@[simp] theorem fireDue_host_head : (fireDue m).host.head = m.host.head := noOut_head (fireDue_host_noOut m)
@[simp] theorem fireDue_host_route : (fireDue m).host.route = m.host.route := noOut_route (fireDue_host_noOut m)
@[simp] theorem fireDue_host_waiting : (fireDue m).host.waiting = m.host.waiting := noOut_waiting (fireDue_host_noOut m)
@[simp] theorem fireDue_host_cycleSubs : (fireDue m).host.cycleSubs = m.host.cycleSubs := noOut_cycleSubs (fireDue_host_noOut m)
@[simp] theorem fireDue_host_cycleAt : (fireDue m).host.cycleAt = m.host.cycleAt := noOut_cycleAt (fireDue_host_noOut m)
@[simp] theorem fireDue_host_critWait : (fireDue m).host.critWait = m.host.critWait := noOut_critWait (fireDue_host_noOut m)
@[simp] theorem fireDue_host_open_ : (fireDue m).host.open_ = m.host.open_ := noOut_open_ (fireDue_host_noOut m)
@[simp] theorem fireDue_host_order : (fireDue m).host.order = m.host.order := noOut_order (fireDue_host_noOut m)
@[simp] theorem fireDue_host_cplWait : (fireDue m).host.cplWait = m.host.cplWait := noOut_cplWait (fireDue_host_noOut m)
@[simp] theorem fireDue_host_evWait : (fireDue m).host.evWait = m.host.evWait := noOut_evWait (fireDue_host_noOut m)
@[simp] theorem fireDue_host_crit : (fireDue m).host.crit = m.host.crit := noOut_crit (fireDue_host_noOut m)
@[simp] theorem fireDue_host_svcOut : (fireDue m).host.svcOut = m.host.svcOut := noOut_svcOut (fireDue_host_noOut m)
@[simp] theorem fireDue_host_dfifo : (fireDue m).host.dfifo = m.host.dfifo := noOut_dfifo (fireDue_host_noOut m)
@[simp] theorem fireDue_host_mscn : (fireDue m).host.mscn = m.host.mscn := noOut_mscn (fireDue_host_noOut m)
@[simp] theorem fireDue_host_mirrorMode : (fireDue m).host.mirrorMode = m.host.mirrorMode := noOut_mirrorMode (fireDue_host_noOut m)
@[simp] theorem fireDue_host_mirrorVset : (fireDue m).host.mirrorVset = m.host.mirrorVset := noOut_mirrorVset (fireDue_host_noOut m)
@[simp] theorem fireDue_host_mirrorMfl : (fireDue m).host.mirrorMfl = m.host.mirrorMfl := noOut_mirrorMfl (fireDue_host_noOut m)
@[simp] theorem fireDue_host_skipAt : (fireDue m).host.skipAt = m.host.skipAt := noOut_skipAt (fireDue_host_noOut m)
@[simp] theorem fireDue_host_half0 : (fireDue m).host.half0 = m.host.half0 := noOut_half0 (fireDue_host_noOut m)
@[simp] theorem fireDue_host_half1 : (fireDue m).host.half1 = m.host.half1 := noOut_half1 (fireDue_host_noOut m)
@[simp] theorem fireDue_host_mirrorBuild : (fireDue m).host.mirrorBuild = m.host.mirrorBuild := noOut_mirrorBuild (fireDue_host_noOut m)
@[simp] theorem fireDue_host_mirrorStn : (fireDue m).host.mirrorStn = m.host.mirrorStn := noOut_mirrorStn (fireDue_host_noOut m)
@[simp] theorem fireDue_host_readData : (fireDue m).host.readData = m.host.readData := noOut_readData (fireDue_host_noOut m)

@[simp] theorem drainRing_host_noOut (fuel eq : Nat) : (drainRing fuel eq m).host.noOut = m.host.noOut := by
  have h : ∀ (n : Mod) (x : HostIf → Tab (W32 × Nat)), (updHost (fun h => { h with lossQ := x h }) n).host.noOut = n.host.noOut := fun _ _ => rfl
  have h' : ∀ (n : Mod) (x : HostIf → List QEvent), (updHost (fun h => { h with fifo := x h }) n).host.noOut = n.host.noOut := fun _ _ => rfl
  induction fuel generalizing m with
  | zero => rfl
  | succ n ih =>
    unfold drainRing; split
    · rfl
    · split
      · dsimp only; rw [ih, h, recAccept_host, closeRun_host_noOut, ringWrite_host_noOut]
      · split
        · rfl
        · rw [ih, writeEvent_host_noOut, h']
@[simp] theorem drainRing_host_noTold (fuel eq : Nat) : (drainRing fuel eq m).host.noTold = m.host.noTold := noOut_noTold (drainRing_host_noOut m fuel eq)
@[simp] theorem drainRing_host_noDone (fuel eq : Nat) : (drainRing fuel eq m).host.noDone = m.host.noDone := noOut_noDone (drainRing_host_noOut m fuel eq)
@[simp] theorem drainRing_host_pcie (fuel eq : Nat) : (drainRing fuel eq m).host.pcie = m.host.pcie := noOut_pcie (drainRing_host_noOut m fuel eq)
@[simp] theorem drainRing_host_run (fuel eq : Nat) : (drainRing fuel eq m).host.run = m.host.run := noOut_run (drainRing_host_noOut m fuel eq)
@[simp] theorem drainRing_host_mirror (fuel eq : Nat) : (drainRing fuel eq m).host.mirror = m.host.mirror := noOut_mirror (drainRing_host_noOut m fuel eq)
@[simp] theorem drainRing_host_seterr (fuel eq : Nat) : (drainRing fuel eq m).host.seterr = m.host.seterr := noOut_seterr (drainRing_host_noOut m fuel eq)
@[simp] theorem drainRing_host_invcause (fuel eq : Nat) : (drainRing fuel eq m).host.invcause = m.host.invcause := noOut_invcause (drainRing_host_noOut m fuel eq)
@[simp] theorem drainRing_host_lspeed (fuel eq : Nat) : (drainRing fuel eq m).host.lspeed = m.host.lspeed := noOut_lspeed (drainRing_host_noOut m fuel eq)
@[simp] theorem drainRing_host_lwidth (fuel eq : Nat) : (drainRing fuel eq m).host.lwidth = m.host.lwidth := noOut_lwidth (drainRing_host_noOut m fuel eq)
@[simp] theorem drainRing_host_valid (fuel eq : Nat) : (drainRing fuel eq m).host.valid = m.host.valid := noOut_valid (drainRing_host_noOut m fuel eq)
@[simp] theorem drainRing_host_busMaster (fuel eq : Nat) : (drainRing fuel eq m).host.busMaster = m.host.busMaster := noOut_busMaster (drainRing_host_noOut m fuel eq)
@[simp] theorem drainRing_host_mirl (fuel eq : Nat) : (drainRing fuel eq m).host.mirl = m.host.mirl := noOut_mirl (drainRing_host_noOut m fuel eq)
@[simp] theorem drainRing_host_mirh (fuel eq : Nat) : (drainRing fuel eq m).host.mirh = m.host.mirh := noOut_mirh (drainRing_host_noOut m fuel eq)
@[simp] theorem drainRing_host_headl (fuel eq : Nat) : (drainRing fuel eq m).host.headl = m.host.headl := noOut_headl (drainRing_host_noOut m fuel eq)
@[simp] theorem drainRing_host_headh (fuel eq : Nat) : (drainRing fuel eq m).host.headh = m.host.headh := noOut_headh (drainRing_host_noOut m fuel eq)
@[simp] theorem drainRing_host_acc (fuel eq : Nat) : (drainRing fuel eq m).host.acc = m.host.acc := noOut_acc (drainRing_host_noOut m fuel eq)
@[simp] theorem drainRing_host_cmp (fuel eq : Nat) : (drainRing fuel eq m).host.cmp = m.host.cmp := noOut_cmp (drainRing_host_noOut m fuel eq)
@[simp] theorem drainRing_host_latCmp (fuel eq : Nat) : (drainRing fuel eq m).host.latCmp = m.host.latCmp := noOut_latCmp (drainRing_host_noOut m fuel eq)
@[simp] theorem drainRing_host_latOut (fuel eq : Nat) : (drainRing fuel eq m).host.latOut = m.host.latOut := noOut_latOut (drainRing_host_noOut m fuel eq)
@[simp] theorem drainRing_host_latEvd (fuel eq : Nat) : (drainRing fuel eq m).host.latEvd = m.host.latEvd := noOut_latEvd (drainRing_host_noOut m fuel eq)
@[simp] theorem drainRing_host_latEvl (fuel eq : Nat) : (drainRing fuel eq m).host.latEvl = m.host.latEvl := noOut_latEvl (drainRing_host_noOut m fuel eq)
@[simp] theorem drainRing_host_discN (fuel eq : Nat) : (drainRing fuel eq m).host.discN = m.host.discN := noOut_discN (drainRing_host_noOut m fuel eq)
@[simp] theorem drainRing_host_resetN (fuel eq : Nat) : (drainRing fuel eq m).host.resetN = m.host.resetN := noOut_resetN (drainRing_host_noOut m fuel eq)
@[simp] theorem drainRing_host_resetTold (fuel eq : Nat) : (drainRing fuel eq m).host.resetTold = m.host.resetTold := noOut_resetTold (drainRing_host_noOut m fuel eq)
@[simp] theorem drainRing_host_head (fuel eq : Nat) : (drainRing fuel eq m).host.head = m.host.head := noOut_head (drainRing_host_noOut m fuel eq)
@[simp] theorem drainRing_host_route (fuel eq : Nat) : (drainRing fuel eq m).host.route = m.host.route := noOut_route (drainRing_host_noOut m fuel eq)
@[simp] theorem drainRing_host_waiting (fuel eq : Nat) : (drainRing fuel eq m).host.waiting = m.host.waiting := noOut_waiting (drainRing_host_noOut m fuel eq)
@[simp] theorem drainRing_host_cycleSubs (fuel eq : Nat) : (drainRing fuel eq m).host.cycleSubs = m.host.cycleSubs := noOut_cycleSubs (drainRing_host_noOut m fuel eq)
@[simp] theorem drainRing_host_cycleAt (fuel eq : Nat) : (drainRing fuel eq m).host.cycleAt = m.host.cycleAt := noOut_cycleAt (drainRing_host_noOut m fuel eq)
@[simp] theorem drainRing_host_critWait (fuel eq : Nat) : (drainRing fuel eq m).host.critWait = m.host.critWait := noOut_critWait (drainRing_host_noOut m fuel eq)
@[simp] theorem drainRing_host_open_ (fuel eq : Nat) : (drainRing fuel eq m).host.open_ = m.host.open_ := noOut_open_ (drainRing_host_noOut m fuel eq)
@[simp] theorem drainRing_host_order (fuel eq : Nat) : (drainRing fuel eq m).host.order = m.host.order := noOut_order (drainRing_host_noOut m fuel eq)
@[simp] theorem drainRing_host_cplWait (fuel eq : Nat) : (drainRing fuel eq m).host.cplWait = m.host.cplWait := noOut_cplWait (drainRing_host_noOut m fuel eq)
@[simp] theorem drainRing_host_evWait (fuel eq : Nat) : (drainRing fuel eq m).host.evWait = m.host.evWait := noOut_evWait (drainRing_host_noOut m fuel eq)
@[simp] theorem drainRing_host_crit (fuel eq : Nat) : (drainRing fuel eq m).host.crit = m.host.crit := noOut_crit (drainRing_host_noOut m fuel eq)
@[simp] theorem drainRing_host_svcOut (fuel eq : Nat) : (drainRing fuel eq m).host.svcOut = m.host.svcOut := noOut_svcOut (drainRing_host_noOut m fuel eq)
@[simp] theorem drainRing_host_dfifo (fuel eq : Nat) : (drainRing fuel eq m).host.dfifo = m.host.dfifo := noOut_dfifo (drainRing_host_noOut m fuel eq)
@[simp] theorem drainRing_host_mscn (fuel eq : Nat) : (drainRing fuel eq m).host.mscn = m.host.mscn := noOut_mscn (drainRing_host_noOut m fuel eq)
@[simp] theorem drainRing_host_mirrorMode (fuel eq : Nat) : (drainRing fuel eq m).host.mirrorMode = m.host.mirrorMode := noOut_mirrorMode (drainRing_host_noOut m fuel eq)
@[simp] theorem drainRing_host_mirrorVset (fuel eq : Nat) : (drainRing fuel eq m).host.mirrorVset = m.host.mirrorVset := noOut_mirrorVset (drainRing_host_noOut m fuel eq)
@[simp] theorem drainRing_host_mirrorMfl (fuel eq : Nat) : (drainRing fuel eq m).host.mirrorMfl = m.host.mirrorMfl := noOut_mirrorMfl (drainRing_host_noOut m fuel eq)
@[simp] theorem drainRing_host_skipAt (fuel eq : Nat) : (drainRing fuel eq m).host.skipAt = m.host.skipAt := noOut_skipAt (drainRing_host_noOut m fuel eq)
@[simp] theorem drainRing_host_half0 (fuel eq : Nat) : (drainRing fuel eq m).host.half0 = m.host.half0 := noOut_half0 (drainRing_host_noOut m fuel eq)
@[simp] theorem drainRing_host_half1 (fuel eq : Nat) : (drainRing fuel eq m).host.half1 = m.host.half1 := noOut_half1 (drainRing_host_noOut m fuel eq)
@[simp] theorem drainRing_host_mirrorBuild (fuel eq : Nat) : (drainRing fuel eq m).host.mirrorBuild = m.host.mirrorBuild := noOut_mirrorBuild (drainRing_host_noOut m fuel eq)
@[simp] theorem drainRing_host_mirrorStn (fuel eq : Nat) : (drainRing fuel eq m).host.mirrorStn = m.host.mirrorStn := noOut_mirrorStn (drainRing_host_noOut m fuel eq)
@[simp] theorem drainRing_host_readData (fuel eq : Nat) : (drainRing fuel eq m).host.readData = m.host.readData := noOut_readData (drainRing_host_noOut m fuel eq)

@[simp] theorem closeAccepted_host_noDone (a : Accepted) : (closeAccepted a m).host.noDone = m.host.noDone := rfl
@[simp] theorem closeAccepted_host_pcie (a : Accepted) : (closeAccepted a m).host.pcie = m.host.pcie := noDone_pcie (closeAccepted_host_noDone m a)
@[simp] theorem closeAccepted_host_run (a : Accepted) : (closeAccepted a m).host.run = m.host.run := noDone_run (closeAccepted_host_noDone m a)
@[simp] theorem closeAccepted_host_mirror (a : Accepted) : (closeAccepted a m).host.mirror = m.host.mirror := noDone_mirror (closeAccepted_host_noDone m a)
@[simp] theorem closeAccepted_host_seterr (a : Accepted) : (closeAccepted a m).host.seterr = m.host.seterr := noDone_seterr (closeAccepted_host_noDone m a)
@[simp] theorem closeAccepted_host_invcause (a : Accepted) : (closeAccepted a m).host.invcause = m.host.invcause := noDone_invcause (closeAccepted_host_noDone m a)
@[simp] theorem closeAccepted_host_lspeed (a : Accepted) : (closeAccepted a m).host.lspeed = m.host.lspeed := noDone_lspeed (closeAccepted_host_noDone m a)
@[simp] theorem closeAccepted_host_lwidth (a : Accepted) : (closeAccepted a m).host.lwidth = m.host.lwidth := noDone_lwidth (closeAccepted_host_noDone m a)
@[simp] theorem closeAccepted_host_valid (a : Accepted) : (closeAccepted a m).host.valid = m.host.valid := noDone_valid (closeAccepted_host_noDone m a)
@[simp] theorem closeAccepted_host_busMaster (a : Accepted) : (closeAccepted a m).host.busMaster = m.host.busMaster := noDone_busMaster (closeAccepted_host_noDone m a)
@[simp] theorem closeAccepted_host_mirl (a : Accepted) : (closeAccepted a m).host.mirl = m.host.mirl := noDone_mirl (closeAccepted_host_noDone m a)
@[simp] theorem closeAccepted_host_mirh (a : Accepted) : (closeAccepted a m).host.mirh = m.host.mirh := noDone_mirh (closeAccepted_host_noDone m a)
@[simp] theorem closeAccepted_host_headl (a : Accepted) : (closeAccepted a m).host.headl = m.host.headl := noDone_headl (closeAccepted_host_noDone m a)
@[simp] theorem closeAccepted_host_headh (a : Accepted) : (closeAccepted a m).host.headh = m.host.headh := noDone_headh (closeAccepted_host_noDone m a)
@[simp] theorem closeAccepted_host_acc (a : Accepted) : (closeAccepted a m).host.acc = m.host.acc := noDone_acc (closeAccepted_host_noDone m a)
@[simp] theorem closeAccepted_host_latCmp (a : Accepted) : (closeAccepted a m).host.latCmp = m.host.latCmp := noDone_latCmp (closeAccepted_host_noDone m a)
@[simp] theorem closeAccepted_host_latOut (a : Accepted) : (closeAccepted a m).host.latOut = m.host.latOut := noDone_latOut (closeAccepted_host_noDone m a)
@[simp] theorem closeAccepted_host_latEvd (a : Accepted) : (closeAccepted a m).host.latEvd = m.host.latEvd := noDone_latEvd (closeAccepted_host_noDone m a)
@[simp] theorem closeAccepted_host_latEvl (a : Accepted) : (closeAccepted a m).host.latEvl = m.host.latEvl := noDone_latEvl (closeAccepted_host_noDone m a)
@[simp] theorem closeAccepted_host_discN (a : Accepted) : (closeAccepted a m).host.discN = m.host.discN := noDone_discN (closeAccepted_host_noDone m a)
@[simp] theorem closeAccepted_host_resetN (a : Accepted) : (closeAccepted a m).host.resetN = m.host.resetN := noDone_resetN (closeAccepted_host_noDone m a)
@[simp] theorem closeAccepted_host_resetTold (a : Accepted) : (closeAccepted a m).host.resetTold = m.host.resetTold := noDone_resetTold (closeAccepted_host_noDone m a)
@[simp] theorem closeAccepted_host_head (a : Accepted) : (closeAccepted a m).host.head = m.host.head := noDone_head (closeAccepted_host_noDone m a)
@[simp] theorem closeAccepted_host_route (a : Accepted) : (closeAccepted a m).host.route = m.host.route := noDone_route (closeAccepted_host_noDone m a)
@[simp] theorem closeAccepted_host_waiting (a : Accepted) : (closeAccepted a m).host.waiting = m.host.waiting := noDone_waiting (closeAccepted_host_noDone m a)
@[simp] theorem closeAccepted_host_cycleSubs (a : Accepted) : (closeAccepted a m).host.cycleSubs = m.host.cycleSubs := noDone_cycleSubs (closeAccepted_host_noDone m a)
@[simp] theorem closeAccepted_host_cycleAt (a : Accepted) : (closeAccepted a m).host.cycleAt = m.host.cycleAt := noDone_cycleAt (closeAccepted_host_noDone m a)
@[simp] theorem closeAccepted_host_critWait (a : Accepted) : (closeAccepted a m).host.critWait = m.host.critWait := noDone_critWait (closeAccepted_host_noDone m a)
@[simp] theorem closeAccepted_host_evWait (a : Accepted) : (closeAccepted a m).host.evWait = m.host.evWait := noDone_evWait (closeAccepted_host_noDone m a)
@[simp] theorem closeAccepted_host_crit (a : Accepted) : (closeAccepted a m).host.crit = m.host.crit := noDone_crit (closeAccepted_host_noDone m a)
@[simp] theorem closeAccepted_host_dfifo (a : Accepted) : (closeAccepted a m).host.dfifo = m.host.dfifo := noDone_dfifo (closeAccepted_host_noDone m a)
@[simp] theorem closeAccepted_host_mscn (a : Accepted) : (closeAccepted a m).host.mscn = m.host.mscn := noDone_mscn (closeAccepted_host_noDone m a)
@[simp] theorem closeAccepted_host_mirrorMode (a : Accepted) : (closeAccepted a m).host.mirrorMode = m.host.mirrorMode := noDone_mirrorMode (closeAccepted_host_noDone m a)
@[simp] theorem closeAccepted_host_mirrorVset (a : Accepted) : (closeAccepted a m).host.mirrorVset = m.host.mirrorVset := noDone_mirrorVset (closeAccepted_host_noDone m a)
@[simp] theorem closeAccepted_host_mirrorMfl (a : Accepted) : (closeAccepted a m).host.mirrorMfl = m.host.mirrorMfl := noDone_mirrorMfl (closeAccepted_host_noDone m a)
@[simp] theorem closeAccepted_host_skipAt (a : Accepted) : (closeAccepted a m).host.skipAt = m.host.skipAt := noDone_skipAt (closeAccepted_host_noDone m a)
@[simp] theorem closeAccepted_host_half0 (a : Accepted) : (closeAccepted a m).host.half0 = m.host.half0 := noDone_half0 (closeAccepted_host_noDone m a)
@[simp] theorem closeAccepted_host_half1 (a : Accepted) : (closeAccepted a m).host.half1 = m.host.half1 := noDone_half1 (closeAccepted_host_noDone m a)
@[simp] theorem closeAccepted_host_mirrorBuild (a : Accepted) : (closeAccepted a m).host.mirrorBuild = m.host.mirrorBuild := noDone_mirrorBuild (closeAccepted_host_noDone m a)
@[simp] theorem closeAccepted_host_mirrorStn (a : Accepted) : (closeAccepted a m).host.mirrorStn = m.host.mirrorStn := noDone_mirrorStn (closeAccepted_host_noDone m a)
@[simp] theorem closeAccepted_host_readData (a : Accepted) : (closeAccepted a m).host.readData = m.host.readData := noDone_readData (closeAccepted_host_noDone m a)

@[simp] theorem outOfOrder_host_noDone (src : SubSrc) (c : Cpl) : (outOfOrder src c m).host.noDone = m.host.noDone := rfl
@[simp] theorem outOfOrder_host_pcie (src : SubSrc) (c : Cpl) : (outOfOrder src c m).host.pcie = m.host.pcie := noDone_pcie (outOfOrder_host_noDone m src c)
@[simp] theorem outOfOrder_host_run (src : SubSrc) (c : Cpl) : (outOfOrder src c m).host.run = m.host.run := noDone_run (outOfOrder_host_noDone m src c)
@[simp] theorem outOfOrder_host_mirror (src : SubSrc) (c : Cpl) : (outOfOrder src c m).host.mirror = m.host.mirror := noDone_mirror (outOfOrder_host_noDone m src c)
@[simp] theorem outOfOrder_host_seterr (src : SubSrc) (c : Cpl) : (outOfOrder src c m).host.seterr = m.host.seterr := noDone_seterr (outOfOrder_host_noDone m src c)
@[simp] theorem outOfOrder_host_invcause (src : SubSrc) (c : Cpl) : (outOfOrder src c m).host.invcause = m.host.invcause := noDone_invcause (outOfOrder_host_noDone m src c)
@[simp] theorem outOfOrder_host_lspeed (src : SubSrc) (c : Cpl) : (outOfOrder src c m).host.lspeed = m.host.lspeed := noDone_lspeed (outOfOrder_host_noDone m src c)
@[simp] theorem outOfOrder_host_lwidth (src : SubSrc) (c : Cpl) : (outOfOrder src c m).host.lwidth = m.host.lwidth := noDone_lwidth (outOfOrder_host_noDone m src c)
@[simp] theorem outOfOrder_host_valid (src : SubSrc) (c : Cpl) : (outOfOrder src c m).host.valid = m.host.valid := noDone_valid (outOfOrder_host_noDone m src c)
@[simp] theorem outOfOrder_host_busMaster (src : SubSrc) (c : Cpl) : (outOfOrder src c m).host.busMaster = m.host.busMaster := noDone_busMaster (outOfOrder_host_noDone m src c)
@[simp] theorem outOfOrder_host_mirl (src : SubSrc) (c : Cpl) : (outOfOrder src c m).host.mirl = m.host.mirl := noDone_mirl (outOfOrder_host_noDone m src c)
@[simp] theorem outOfOrder_host_mirh (src : SubSrc) (c : Cpl) : (outOfOrder src c m).host.mirh = m.host.mirh := noDone_mirh (outOfOrder_host_noDone m src c)
@[simp] theorem outOfOrder_host_headl (src : SubSrc) (c : Cpl) : (outOfOrder src c m).host.headl = m.host.headl := noDone_headl (outOfOrder_host_noDone m src c)
@[simp] theorem outOfOrder_host_headh (src : SubSrc) (c : Cpl) : (outOfOrder src c m).host.headh = m.host.headh := noDone_headh (outOfOrder_host_noDone m src c)
@[simp] theorem outOfOrder_host_acc (src : SubSrc) (c : Cpl) : (outOfOrder src c m).host.acc = m.host.acc := noDone_acc (outOfOrder_host_noDone m src c)
@[simp] theorem outOfOrder_host_latCmp (src : SubSrc) (c : Cpl) : (outOfOrder src c m).host.latCmp = m.host.latCmp := noDone_latCmp (outOfOrder_host_noDone m src c)
@[simp] theorem outOfOrder_host_latOut (src : SubSrc) (c : Cpl) : (outOfOrder src c m).host.latOut = m.host.latOut := noDone_latOut (outOfOrder_host_noDone m src c)
@[simp] theorem outOfOrder_host_latEvd (src : SubSrc) (c : Cpl) : (outOfOrder src c m).host.latEvd = m.host.latEvd := noDone_latEvd (outOfOrder_host_noDone m src c)
@[simp] theorem outOfOrder_host_latEvl (src : SubSrc) (c : Cpl) : (outOfOrder src c m).host.latEvl = m.host.latEvl := noDone_latEvl (outOfOrder_host_noDone m src c)
@[simp] theorem outOfOrder_host_discN (src : SubSrc) (c : Cpl) : (outOfOrder src c m).host.discN = m.host.discN := noDone_discN (outOfOrder_host_noDone m src c)
@[simp] theorem outOfOrder_host_resetN (src : SubSrc) (c : Cpl) : (outOfOrder src c m).host.resetN = m.host.resetN := noDone_resetN (outOfOrder_host_noDone m src c)
@[simp] theorem outOfOrder_host_resetTold (src : SubSrc) (c : Cpl) : (outOfOrder src c m).host.resetTold = m.host.resetTold := noDone_resetTold (outOfOrder_host_noDone m src c)
@[simp] theorem outOfOrder_host_head (src : SubSrc) (c : Cpl) : (outOfOrder src c m).host.head = m.host.head := noDone_head (outOfOrder_host_noDone m src c)
@[simp] theorem outOfOrder_host_route (src : SubSrc) (c : Cpl) : (outOfOrder src c m).host.route = m.host.route := noDone_route (outOfOrder_host_noDone m src c)
@[simp] theorem outOfOrder_host_waiting (src : SubSrc) (c : Cpl) : (outOfOrder src c m).host.waiting = m.host.waiting := noDone_waiting (outOfOrder_host_noDone m src c)
@[simp] theorem outOfOrder_host_cycleSubs (src : SubSrc) (c : Cpl) : (outOfOrder src c m).host.cycleSubs = m.host.cycleSubs := noDone_cycleSubs (outOfOrder_host_noDone m src c)
@[simp] theorem outOfOrder_host_cycleAt (src : SubSrc) (c : Cpl) : (outOfOrder src c m).host.cycleAt = m.host.cycleAt := noDone_cycleAt (outOfOrder_host_noDone m src c)
@[simp] theorem outOfOrder_host_critWait (src : SubSrc) (c : Cpl) : (outOfOrder src c m).host.critWait = m.host.critWait := noDone_critWait (outOfOrder_host_noDone m src c)
@[simp] theorem outOfOrder_host_evWait (src : SubSrc) (c : Cpl) : (outOfOrder src c m).host.evWait = m.host.evWait := noDone_evWait (outOfOrder_host_noDone m src c)
@[simp] theorem outOfOrder_host_crit (src : SubSrc) (c : Cpl) : (outOfOrder src c m).host.crit = m.host.crit := noDone_crit (outOfOrder_host_noDone m src c)
@[simp] theorem outOfOrder_host_dfifo (src : SubSrc) (c : Cpl) : (outOfOrder src c m).host.dfifo = m.host.dfifo := noDone_dfifo (outOfOrder_host_noDone m src c)
@[simp] theorem outOfOrder_host_mscn (src : SubSrc) (c : Cpl) : (outOfOrder src c m).host.mscn = m.host.mscn := noDone_mscn (outOfOrder_host_noDone m src c)
@[simp] theorem outOfOrder_host_mirrorMode (src : SubSrc) (c : Cpl) : (outOfOrder src c m).host.mirrorMode = m.host.mirrorMode := noDone_mirrorMode (outOfOrder_host_noDone m src c)
@[simp] theorem outOfOrder_host_mirrorVset (src : SubSrc) (c : Cpl) : (outOfOrder src c m).host.mirrorVset = m.host.mirrorVset := noDone_mirrorVset (outOfOrder_host_noDone m src c)
@[simp] theorem outOfOrder_host_mirrorMfl (src : SubSrc) (c : Cpl) : (outOfOrder src c m).host.mirrorMfl = m.host.mirrorMfl := noDone_mirrorMfl (outOfOrder_host_noDone m src c)
@[simp] theorem outOfOrder_host_skipAt (src : SubSrc) (c : Cpl) : (outOfOrder src c m).host.skipAt = m.host.skipAt := noDone_skipAt (outOfOrder_host_noDone m src c)
@[simp] theorem outOfOrder_host_half0 (src : SubSrc) (c : Cpl) : (outOfOrder src c m).host.half0 = m.host.half0 := noDone_half0 (outOfOrder_host_noDone m src c)
@[simp] theorem outOfOrder_host_half1 (src : SubSrc) (c : Cpl) : (outOfOrder src c m).host.half1 = m.host.half1 := noDone_half1 (outOfOrder_host_noDone m src c)
@[simp] theorem outOfOrder_host_mirrorBuild (src : SubSrc) (c : Cpl) : (outOfOrder src c m).host.mirrorBuild = m.host.mirrorBuild := noDone_mirrorBuild (outOfOrder_host_noDone m src c)
@[simp] theorem outOfOrder_host_mirrorStn (src : SubSrc) (c : Cpl) : (outOfOrder src c m).host.mirrorStn = m.host.mirrorStn := noDone_mirrorStn (outOfOrder_host_noDone m src c)
@[simp] theorem outOfOrder_host_readData (src : SubSrc) (c : Cpl) : (outOfOrder src c m).host.readData = m.host.readData := noDone_readData (outOfOrder_host_noDone m src c)

@[simp] theorem waitCpl_host_noDone (src : SubSrc) (c : Cpl) : (waitCpl src c m).host.noDone = m.host.noDone := rfl
@[simp] theorem waitCpl_host_pcie (src : SubSrc) (c : Cpl) : (waitCpl src c m).host.pcie = m.host.pcie := noDone_pcie (waitCpl_host_noDone m src c)
@[simp] theorem waitCpl_host_run (src : SubSrc) (c : Cpl) : (waitCpl src c m).host.run = m.host.run := noDone_run (waitCpl_host_noDone m src c)
@[simp] theorem waitCpl_host_mirror (src : SubSrc) (c : Cpl) : (waitCpl src c m).host.mirror = m.host.mirror := noDone_mirror (waitCpl_host_noDone m src c)
@[simp] theorem waitCpl_host_seterr (src : SubSrc) (c : Cpl) : (waitCpl src c m).host.seterr = m.host.seterr := noDone_seterr (waitCpl_host_noDone m src c)
@[simp] theorem waitCpl_host_invcause (src : SubSrc) (c : Cpl) : (waitCpl src c m).host.invcause = m.host.invcause := noDone_invcause (waitCpl_host_noDone m src c)
@[simp] theorem waitCpl_host_lspeed (src : SubSrc) (c : Cpl) : (waitCpl src c m).host.lspeed = m.host.lspeed := noDone_lspeed (waitCpl_host_noDone m src c)
@[simp] theorem waitCpl_host_lwidth (src : SubSrc) (c : Cpl) : (waitCpl src c m).host.lwidth = m.host.lwidth := noDone_lwidth (waitCpl_host_noDone m src c)
@[simp] theorem waitCpl_host_valid (src : SubSrc) (c : Cpl) : (waitCpl src c m).host.valid = m.host.valid := noDone_valid (waitCpl_host_noDone m src c)
@[simp] theorem waitCpl_host_busMaster (src : SubSrc) (c : Cpl) : (waitCpl src c m).host.busMaster = m.host.busMaster := noDone_busMaster (waitCpl_host_noDone m src c)
@[simp] theorem waitCpl_host_mirl (src : SubSrc) (c : Cpl) : (waitCpl src c m).host.mirl = m.host.mirl := noDone_mirl (waitCpl_host_noDone m src c)
@[simp] theorem waitCpl_host_mirh (src : SubSrc) (c : Cpl) : (waitCpl src c m).host.mirh = m.host.mirh := noDone_mirh (waitCpl_host_noDone m src c)
@[simp] theorem waitCpl_host_headl (src : SubSrc) (c : Cpl) : (waitCpl src c m).host.headl = m.host.headl := noDone_headl (waitCpl_host_noDone m src c)
@[simp] theorem waitCpl_host_headh (src : SubSrc) (c : Cpl) : (waitCpl src c m).host.headh = m.host.headh := noDone_headh (waitCpl_host_noDone m src c)
@[simp] theorem waitCpl_host_acc (src : SubSrc) (c : Cpl) : (waitCpl src c m).host.acc = m.host.acc := noDone_acc (waitCpl_host_noDone m src c)
@[simp] theorem waitCpl_host_latCmp (src : SubSrc) (c : Cpl) : (waitCpl src c m).host.latCmp = m.host.latCmp := noDone_latCmp (waitCpl_host_noDone m src c)
@[simp] theorem waitCpl_host_latOut (src : SubSrc) (c : Cpl) : (waitCpl src c m).host.latOut = m.host.latOut := noDone_latOut (waitCpl_host_noDone m src c)
@[simp] theorem waitCpl_host_latEvd (src : SubSrc) (c : Cpl) : (waitCpl src c m).host.latEvd = m.host.latEvd := noDone_latEvd (waitCpl_host_noDone m src c)
@[simp] theorem waitCpl_host_latEvl (src : SubSrc) (c : Cpl) : (waitCpl src c m).host.latEvl = m.host.latEvl := noDone_latEvl (waitCpl_host_noDone m src c)
@[simp] theorem waitCpl_host_discN (src : SubSrc) (c : Cpl) : (waitCpl src c m).host.discN = m.host.discN := noDone_discN (waitCpl_host_noDone m src c)
@[simp] theorem waitCpl_host_resetN (src : SubSrc) (c : Cpl) : (waitCpl src c m).host.resetN = m.host.resetN := noDone_resetN (waitCpl_host_noDone m src c)
@[simp] theorem waitCpl_host_resetTold (src : SubSrc) (c : Cpl) : (waitCpl src c m).host.resetTold = m.host.resetTold := noDone_resetTold (waitCpl_host_noDone m src c)
@[simp] theorem waitCpl_host_head (src : SubSrc) (c : Cpl) : (waitCpl src c m).host.head = m.host.head := noDone_head (waitCpl_host_noDone m src c)
@[simp] theorem waitCpl_host_route (src : SubSrc) (c : Cpl) : (waitCpl src c m).host.route = m.host.route := noDone_route (waitCpl_host_noDone m src c)
@[simp] theorem waitCpl_host_waiting (src : SubSrc) (c : Cpl) : (waitCpl src c m).host.waiting = m.host.waiting := noDone_waiting (waitCpl_host_noDone m src c)
@[simp] theorem waitCpl_host_cycleSubs (src : SubSrc) (c : Cpl) : (waitCpl src c m).host.cycleSubs = m.host.cycleSubs := noDone_cycleSubs (waitCpl_host_noDone m src c)
@[simp] theorem waitCpl_host_cycleAt (src : SubSrc) (c : Cpl) : (waitCpl src c m).host.cycleAt = m.host.cycleAt := noDone_cycleAt (waitCpl_host_noDone m src c)
@[simp] theorem waitCpl_host_critWait (src : SubSrc) (c : Cpl) : (waitCpl src c m).host.critWait = m.host.critWait := noDone_critWait (waitCpl_host_noDone m src c)
@[simp] theorem waitCpl_host_evWait (src : SubSrc) (c : Cpl) : (waitCpl src c m).host.evWait = m.host.evWait := noDone_evWait (waitCpl_host_noDone m src c)
@[simp] theorem waitCpl_host_crit (src : SubSrc) (c : Cpl) : (waitCpl src c m).host.crit = m.host.crit := noDone_crit (waitCpl_host_noDone m src c)
@[simp] theorem waitCpl_host_dfifo (src : SubSrc) (c : Cpl) : (waitCpl src c m).host.dfifo = m.host.dfifo := noDone_dfifo (waitCpl_host_noDone m src c)
@[simp] theorem waitCpl_host_mscn (src : SubSrc) (c : Cpl) : (waitCpl src c m).host.mscn = m.host.mscn := noDone_mscn (waitCpl_host_noDone m src c)
@[simp] theorem waitCpl_host_mirrorMode (src : SubSrc) (c : Cpl) : (waitCpl src c m).host.mirrorMode = m.host.mirrorMode := noDone_mirrorMode (waitCpl_host_noDone m src c)
@[simp] theorem waitCpl_host_mirrorVset (src : SubSrc) (c : Cpl) : (waitCpl src c m).host.mirrorVset = m.host.mirrorVset := noDone_mirrorVset (waitCpl_host_noDone m src c)
@[simp] theorem waitCpl_host_mirrorMfl (src : SubSrc) (c : Cpl) : (waitCpl src c m).host.mirrorMfl = m.host.mirrorMfl := noDone_mirrorMfl (waitCpl_host_noDone m src c)
@[simp] theorem waitCpl_host_skipAt (src : SubSrc) (c : Cpl) : (waitCpl src c m).host.skipAt = m.host.skipAt := noDone_skipAt (waitCpl_host_noDone m src c)
@[simp] theorem waitCpl_host_half0 (src : SubSrc) (c : Cpl) : (waitCpl src c m).host.half0 = m.host.half0 := noDone_half0 (waitCpl_host_noDone m src c)
@[simp] theorem waitCpl_host_half1 (src : SubSrc) (c : Cpl) : (waitCpl src c m).host.half1 = m.host.half1 := noDone_half1 (waitCpl_host_noDone m src c)
@[simp] theorem waitCpl_host_mirrorBuild (src : SubSrc) (c : Cpl) : (waitCpl src c m).host.mirrorBuild = m.host.mirrorBuild := noDone_mirrorBuild (waitCpl_host_noDone m src c)
@[simp] theorem waitCpl_host_mirrorStn (src : SubSrc) (c : Cpl) : (waitCpl src c m).host.mirrorStn = m.host.mirrorStn := noDone_mirrorStn (waitCpl_host_noDone m src c)
@[simp] theorem waitCpl_host_readData (src : SubSrc) (c : Cpl) : (waitCpl src c m).host.readData = m.host.readData := noDone_readData (waitCpl_host_noDone m src c)

theorem noteCanCpl_host (sq : Nat) (c : Cpl) (n : W32) : (noteCanCpl sq c n m).host = m.host := by
  unfold noteCanCpl; split <;> rfl

@[simp] theorem writeCpl_host_noDone (src : SubSrc) (c : Cpl) : (writeCpl src c m).host.noDone = m.host.noDone := by
  have h1 : ∀ (n : Mod), (updHost (fun h => { h with cmp := h.cmp + 1 }) n).host.noDone = n.host.noDone := fun _ => rfl
  unfold writeCpl; split
  · rfl
  · (repeat' split) <;> simp
  · dsimp only; (repeat' split)
    · rfl
    · simp
    · rw [noteCanCpl_host, updRing_host_noDone, h1, ringWrite_host_noDone, outOfOrder_host_noDone]
@[simp] theorem writeCpl_host_pcie (src : SubSrc) (c : Cpl) : (writeCpl src c m).host.pcie = m.host.pcie := noDone_pcie (writeCpl_host_noDone m src c)
@[simp] theorem writeCpl_host_run (src : SubSrc) (c : Cpl) : (writeCpl src c m).host.run = m.host.run := noDone_run (writeCpl_host_noDone m src c)
@[simp] theorem writeCpl_host_mirror (src : SubSrc) (c : Cpl) : (writeCpl src c m).host.mirror = m.host.mirror := noDone_mirror (writeCpl_host_noDone m src c)
@[simp] theorem writeCpl_host_seterr (src : SubSrc) (c : Cpl) : (writeCpl src c m).host.seterr = m.host.seterr := noDone_seterr (writeCpl_host_noDone m src c)
@[simp] theorem writeCpl_host_invcause (src : SubSrc) (c : Cpl) : (writeCpl src c m).host.invcause = m.host.invcause := noDone_invcause (writeCpl_host_noDone m src c)
@[simp] theorem writeCpl_host_lspeed (src : SubSrc) (c : Cpl) : (writeCpl src c m).host.lspeed = m.host.lspeed := noDone_lspeed (writeCpl_host_noDone m src c)
@[simp] theorem writeCpl_host_lwidth (src : SubSrc) (c : Cpl) : (writeCpl src c m).host.lwidth = m.host.lwidth := noDone_lwidth (writeCpl_host_noDone m src c)
@[simp] theorem writeCpl_host_valid (src : SubSrc) (c : Cpl) : (writeCpl src c m).host.valid = m.host.valid := noDone_valid (writeCpl_host_noDone m src c)
@[simp] theorem writeCpl_host_busMaster (src : SubSrc) (c : Cpl) : (writeCpl src c m).host.busMaster = m.host.busMaster := noDone_busMaster (writeCpl_host_noDone m src c)
@[simp] theorem writeCpl_host_mirl (src : SubSrc) (c : Cpl) : (writeCpl src c m).host.mirl = m.host.mirl := noDone_mirl (writeCpl_host_noDone m src c)
@[simp] theorem writeCpl_host_mirh (src : SubSrc) (c : Cpl) : (writeCpl src c m).host.mirh = m.host.mirh := noDone_mirh (writeCpl_host_noDone m src c)
@[simp] theorem writeCpl_host_headl (src : SubSrc) (c : Cpl) : (writeCpl src c m).host.headl = m.host.headl := noDone_headl (writeCpl_host_noDone m src c)
@[simp] theorem writeCpl_host_headh (src : SubSrc) (c : Cpl) : (writeCpl src c m).host.headh = m.host.headh := noDone_headh (writeCpl_host_noDone m src c)
@[simp] theorem writeCpl_host_acc (src : SubSrc) (c : Cpl) : (writeCpl src c m).host.acc = m.host.acc := noDone_acc (writeCpl_host_noDone m src c)
@[simp] theorem writeCpl_host_latCmp (src : SubSrc) (c : Cpl) : (writeCpl src c m).host.latCmp = m.host.latCmp := noDone_latCmp (writeCpl_host_noDone m src c)
@[simp] theorem writeCpl_host_latOut (src : SubSrc) (c : Cpl) : (writeCpl src c m).host.latOut = m.host.latOut := noDone_latOut (writeCpl_host_noDone m src c)
@[simp] theorem writeCpl_host_latEvd (src : SubSrc) (c : Cpl) : (writeCpl src c m).host.latEvd = m.host.latEvd := noDone_latEvd (writeCpl_host_noDone m src c)
@[simp] theorem writeCpl_host_latEvl (src : SubSrc) (c : Cpl) : (writeCpl src c m).host.latEvl = m.host.latEvl := noDone_latEvl (writeCpl_host_noDone m src c)
@[simp] theorem writeCpl_host_discN (src : SubSrc) (c : Cpl) : (writeCpl src c m).host.discN = m.host.discN := noDone_discN (writeCpl_host_noDone m src c)
@[simp] theorem writeCpl_host_resetN (src : SubSrc) (c : Cpl) : (writeCpl src c m).host.resetN = m.host.resetN := noDone_resetN (writeCpl_host_noDone m src c)
@[simp] theorem writeCpl_host_resetTold (src : SubSrc) (c : Cpl) : (writeCpl src c m).host.resetTold = m.host.resetTold := noDone_resetTold (writeCpl_host_noDone m src c)
@[simp] theorem writeCpl_host_head (src : SubSrc) (c : Cpl) : (writeCpl src c m).host.head = m.host.head := noDone_head (writeCpl_host_noDone m src c)
@[simp] theorem writeCpl_host_route (src : SubSrc) (c : Cpl) : (writeCpl src c m).host.route = m.host.route := noDone_route (writeCpl_host_noDone m src c)
@[simp] theorem writeCpl_host_waiting (src : SubSrc) (c : Cpl) : (writeCpl src c m).host.waiting = m.host.waiting := noDone_waiting (writeCpl_host_noDone m src c)
@[simp] theorem writeCpl_host_cycleSubs (src : SubSrc) (c : Cpl) : (writeCpl src c m).host.cycleSubs = m.host.cycleSubs := noDone_cycleSubs (writeCpl_host_noDone m src c)
@[simp] theorem writeCpl_host_cycleAt (src : SubSrc) (c : Cpl) : (writeCpl src c m).host.cycleAt = m.host.cycleAt := noDone_cycleAt (writeCpl_host_noDone m src c)
@[simp] theorem writeCpl_host_critWait (src : SubSrc) (c : Cpl) : (writeCpl src c m).host.critWait = m.host.critWait := noDone_critWait (writeCpl_host_noDone m src c)
@[simp] theorem writeCpl_host_evWait (src : SubSrc) (c : Cpl) : (writeCpl src c m).host.evWait = m.host.evWait := noDone_evWait (writeCpl_host_noDone m src c)
@[simp] theorem writeCpl_host_crit (src : SubSrc) (c : Cpl) : (writeCpl src c m).host.crit = m.host.crit := noDone_crit (writeCpl_host_noDone m src c)
@[simp] theorem writeCpl_host_dfifo (src : SubSrc) (c : Cpl) : (writeCpl src c m).host.dfifo = m.host.dfifo := noDone_dfifo (writeCpl_host_noDone m src c)
@[simp] theorem writeCpl_host_mscn (src : SubSrc) (c : Cpl) : (writeCpl src c m).host.mscn = m.host.mscn := noDone_mscn (writeCpl_host_noDone m src c)
@[simp] theorem writeCpl_host_mirrorMode (src : SubSrc) (c : Cpl) : (writeCpl src c m).host.mirrorMode = m.host.mirrorMode := noDone_mirrorMode (writeCpl_host_noDone m src c)
@[simp] theorem writeCpl_host_mirrorVset (src : SubSrc) (c : Cpl) : (writeCpl src c m).host.mirrorVset = m.host.mirrorVset := noDone_mirrorVset (writeCpl_host_noDone m src c)
@[simp] theorem writeCpl_host_mirrorMfl (src : SubSrc) (c : Cpl) : (writeCpl src c m).host.mirrorMfl = m.host.mirrorMfl := noDone_mirrorMfl (writeCpl_host_noDone m src c)
@[simp] theorem writeCpl_host_skipAt (src : SubSrc) (c : Cpl) : (writeCpl src c m).host.skipAt = m.host.skipAt := noDone_skipAt (writeCpl_host_noDone m src c)
@[simp] theorem writeCpl_host_half0 (src : SubSrc) (c : Cpl) : (writeCpl src c m).host.half0 = m.host.half0 := noDone_half0 (writeCpl_host_noDone m src c)
@[simp] theorem writeCpl_host_half1 (src : SubSrc) (c : Cpl) : (writeCpl src c m).host.half1 = m.host.half1 := noDone_half1 (writeCpl_host_noDone m src c)
@[simp] theorem writeCpl_host_mirrorBuild (src : SubSrc) (c : Cpl) : (writeCpl src c m).host.mirrorBuild = m.host.mirrorBuild := noDone_mirrorBuild (writeCpl_host_noDone m src c)
@[simp] theorem writeCpl_host_mirrorStn (src : SubSrc) (c : Cpl) : (writeCpl src c m).host.mirrorStn = m.host.mirrorStn := noDone_mirrorStn (writeCpl_host_noDone m src c)
@[simp] theorem writeCpl_host_readData (src : SubSrc) (c : Cpl) : (writeCpl src c m).host.readData = m.host.readData := noDone_readData (writeCpl_host_noDone m src c)

@[simp] theorem completeWith_host_noDone (a : Accepted) (c : Cpl) : (completeWith a c m).host.noDone = m.host.noDone := by
  unfold completeWith; split
  · split
    · simp
    · rfl
  · rfl
@[simp] theorem completeWith_host_pcie (a : Accepted) (c : Cpl) : (completeWith a c m).host.pcie = m.host.pcie := noDone_pcie (completeWith_host_noDone m a c)
@[simp] theorem completeWith_host_run (a : Accepted) (c : Cpl) : (completeWith a c m).host.run = m.host.run := noDone_run (completeWith_host_noDone m a c)
@[simp] theorem completeWith_host_mirror (a : Accepted) (c : Cpl) : (completeWith a c m).host.mirror = m.host.mirror := noDone_mirror (completeWith_host_noDone m a c)
@[simp] theorem completeWith_host_seterr (a : Accepted) (c : Cpl) : (completeWith a c m).host.seterr = m.host.seterr := noDone_seterr (completeWith_host_noDone m a c)
@[simp] theorem completeWith_host_invcause (a : Accepted) (c : Cpl) : (completeWith a c m).host.invcause = m.host.invcause := noDone_invcause (completeWith_host_noDone m a c)
@[simp] theorem completeWith_host_lspeed (a : Accepted) (c : Cpl) : (completeWith a c m).host.lspeed = m.host.lspeed := noDone_lspeed (completeWith_host_noDone m a c)
@[simp] theorem completeWith_host_lwidth (a : Accepted) (c : Cpl) : (completeWith a c m).host.lwidth = m.host.lwidth := noDone_lwidth (completeWith_host_noDone m a c)
@[simp] theorem completeWith_host_valid (a : Accepted) (c : Cpl) : (completeWith a c m).host.valid = m.host.valid := noDone_valid (completeWith_host_noDone m a c)
@[simp] theorem completeWith_host_busMaster (a : Accepted) (c : Cpl) : (completeWith a c m).host.busMaster = m.host.busMaster := noDone_busMaster (completeWith_host_noDone m a c)
@[simp] theorem completeWith_host_mirl (a : Accepted) (c : Cpl) : (completeWith a c m).host.mirl = m.host.mirl := noDone_mirl (completeWith_host_noDone m a c)
@[simp] theorem completeWith_host_mirh (a : Accepted) (c : Cpl) : (completeWith a c m).host.mirh = m.host.mirh := noDone_mirh (completeWith_host_noDone m a c)
@[simp] theorem completeWith_host_headl (a : Accepted) (c : Cpl) : (completeWith a c m).host.headl = m.host.headl := noDone_headl (completeWith_host_noDone m a c)
@[simp] theorem completeWith_host_headh (a : Accepted) (c : Cpl) : (completeWith a c m).host.headh = m.host.headh := noDone_headh (completeWith_host_noDone m a c)
@[simp] theorem completeWith_host_acc (a : Accepted) (c : Cpl) : (completeWith a c m).host.acc = m.host.acc := noDone_acc (completeWith_host_noDone m a c)
@[simp] theorem completeWith_host_latCmp (a : Accepted) (c : Cpl) : (completeWith a c m).host.latCmp = m.host.latCmp := noDone_latCmp (completeWith_host_noDone m a c)
@[simp] theorem completeWith_host_latOut (a : Accepted) (c : Cpl) : (completeWith a c m).host.latOut = m.host.latOut := noDone_latOut (completeWith_host_noDone m a c)
@[simp] theorem completeWith_host_latEvd (a : Accepted) (c : Cpl) : (completeWith a c m).host.latEvd = m.host.latEvd := noDone_latEvd (completeWith_host_noDone m a c)
@[simp] theorem completeWith_host_latEvl (a : Accepted) (c : Cpl) : (completeWith a c m).host.latEvl = m.host.latEvl := noDone_latEvl (completeWith_host_noDone m a c)
@[simp] theorem completeWith_host_discN (a : Accepted) (c : Cpl) : (completeWith a c m).host.discN = m.host.discN := noDone_discN (completeWith_host_noDone m a c)
@[simp] theorem completeWith_host_resetN (a : Accepted) (c : Cpl) : (completeWith a c m).host.resetN = m.host.resetN := noDone_resetN (completeWith_host_noDone m a c)
@[simp] theorem completeWith_host_resetTold (a : Accepted) (c : Cpl) : (completeWith a c m).host.resetTold = m.host.resetTold := noDone_resetTold (completeWith_host_noDone m a c)
@[simp] theorem completeWith_host_head (a : Accepted) (c : Cpl) : (completeWith a c m).host.head = m.host.head := noDone_head (completeWith_host_noDone m a c)
@[simp] theorem completeWith_host_route (a : Accepted) (c : Cpl) : (completeWith a c m).host.route = m.host.route := noDone_route (completeWith_host_noDone m a c)
@[simp] theorem completeWith_host_waiting (a : Accepted) (c : Cpl) : (completeWith a c m).host.waiting = m.host.waiting := noDone_waiting (completeWith_host_noDone m a c)
@[simp] theorem completeWith_host_cycleSubs (a : Accepted) (c : Cpl) : (completeWith a c m).host.cycleSubs = m.host.cycleSubs := noDone_cycleSubs (completeWith_host_noDone m a c)
@[simp] theorem completeWith_host_cycleAt (a : Accepted) (c : Cpl) : (completeWith a c m).host.cycleAt = m.host.cycleAt := noDone_cycleAt (completeWith_host_noDone m a c)
@[simp] theorem completeWith_host_critWait (a : Accepted) (c : Cpl) : (completeWith a c m).host.critWait = m.host.critWait := noDone_critWait (completeWith_host_noDone m a c)
@[simp] theorem completeWith_host_evWait (a : Accepted) (c : Cpl) : (completeWith a c m).host.evWait = m.host.evWait := noDone_evWait (completeWith_host_noDone m a c)
@[simp] theorem completeWith_host_crit (a : Accepted) (c : Cpl) : (completeWith a c m).host.crit = m.host.crit := noDone_crit (completeWith_host_noDone m a c)
@[simp] theorem completeWith_host_dfifo (a : Accepted) (c : Cpl) : (completeWith a c m).host.dfifo = m.host.dfifo := noDone_dfifo (completeWith_host_noDone m a c)
@[simp] theorem completeWith_host_mscn (a : Accepted) (c : Cpl) : (completeWith a c m).host.mscn = m.host.mscn := noDone_mscn (completeWith_host_noDone m a c)
@[simp] theorem completeWith_host_mirrorMode (a : Accepted) (c : Cpl) : (completeWith a c m).host.mirrorMode = m.host.mirrorMode := noDone_mirrorMode (completeWith_host_noDone m a c)
@[simp] theorem completeWith_host_mirrorVset (a : Accepted) (c : Cpl) : (completeWith a c m).host.mirrorVset = m.host.mirrorVset := noDone_mirrorVset (completeWith_host_noDone m a c)
@[simp] theorem completeWith_host_mirrorMfl (a : Accepted) (c : Cpl) : (completeWith a c m).host.mirrorMfl = m.host.mirrorMfl := noDone_mirrorMfl (completeWith_host_noDone m a c)
@[simp] theorem completeWith_host_skipAt (a : Accepted) (c : Cpl) : (completeWith a c m).host.skipAt = m.host.skipAt := noDone_skipAt (completeWith_host_noDone m a c)
@[simp] theorem completeWith_host_half0 (a : Accepted) (c : Cpl) : (completeWith a c m).host.half0 = m.host.half0 := noDone_half0 (completeWith_host_noDone m a c)
@[simp] theorem completeWith_host_half1 (a : Accepted) (c : Cpl) : (completeWith a c m).host.half1 = m.host.half1 := noDone_half1 (completeWith_host_noDone m a c)
@[simp] theorem completeWith_host_mirrorBuild (a : Accepted) (c : Cpl) : (completeWith a c m).host.mirrorBuild = m.host.mirrorBuild := noDone_mirrorBuild (completeWith_host_noDone m a c)
@[simp] theorem completeWith_host_mirrorStn (a : Accepted) (c : Cpl) : (completeWith a c m).host.mirrorStn = m.host.mirrorStn := noDone_mirrorStn (completeWith_host_noDone m a c)
@[simp] theorem completeWith_host_readData (a : Accepted) (c : Cpl) : (completeWith a c m).host.readData = m.host.readData := noDone_readData (completeWith_host_noDone m a c)

@[simp] theorem complete_host_noDone (a : Accepted) (code detail : Nat) : (complete a code detail m).host.noDone = m.host.noDone := completeWith_host_noDone m a _
@[simp] theorem complete_host_pcie (a : Accepted) (code detail : Nat) : (complete a code detail m).host.pcie = m.host.pcie := noDone_pcie (complete_host_noDone m a code detail)
@[simp] theorem complete_host_run (a : Accepted) (code detail : Nat) : (complete a code detail m).host.run = m.host.run := noDone_run (complete_host_noDone m a code detail)
@[simp] theorem complete_host_mirror (a : Accepted) (code detail : Nat) : (complete a code detail m).host.mirror = m.host.mirror := noDone_mirror (complete_host_noDone m a code detail)
@[simp] theorem complete_host_seterr (a : Accepted) (code detail : Nat) : (complete a code detail m).host.seterr = m.host.seterr := noDone_seterr (complete_host_noDone m a code detail)
@[simp] theorem complete_host_invcause (a : Accepted) (code detail : Nat) : (complete a code detail m).host.invcause = m.host.invcause := noDone_invcause (complete_host_noDone m a code detail)
@[simp] theorem complete_host_lspeed (a : Accepted) (code detail : Nat) : (complete a code detail m).host.lspeed = m.host.lspeed := noDone_lspeed (complete_host_noDone m a code detail)
@[simp] theorem complete_host_lwidth (a : Accepted) (code detail : Nat) : (complete a code detail m).host.lwidth = m.host.lwidth := noDone_lwidth (complete_host_noDone m a code detail)
@[simp] theorem complete_host_valid (a : Accepted) (code detail : Nat) : (complete a code detail m).host.valid = m.host.valid := noDone_valid (complete_host_noDone m a code detail)
@[simp] theorem complete_host_busMaster (a : Accepted) (code detail : Nat) : (complete a code detail m).host.busMaster = m.host.busMaster := noDone_busMaster (complete_host_noDone m a code detail)
@[simp] theorem complete_host_mirl (a : Accepted) (code detail : Nat) : (complete a code detail m).host.mirl = m.host.mirl := noDone_mirl (complete_host_noDone m a code detail)
@[simp] theorem complete_host_mirh (a : Accepted) (code detail : Nat) : (complete a code detail m).host.mirh = m.host.mirh := noDone_mirh (complete_host_noDone m a code detail)
@[simp] theorem complete_host_headl (a : Accepted) (code detail : Nat) : (complete a code detail m).host.headl = m.host.headl := noDone_headl (complete_host_noDone m a code detail)
@[simp] theorem complete_host_headh (a : Accepted) (code detail : Nat) : (complete a code detail m).host.headh = m.host.headh := noDone_headh (complete_host_noDone m a code detail)
@[simp] theorem complete_host_acc (a : Accepted) (code detail : Nat) : (complete a code detail m).host.acc = m.host.acc := noDone_acc (complete_host_noDone m a code detail)
@[simp] theorem complete_host_latCmp (a : Accepted) (code detail : Nat) : (complete a code detail m).host.latCmp = m.host.latCmp := noDone_latCmp (complete_host_noDone m a code detail)
@[simp] theorem complete_host_latOut (a : Accepted) (code detail : Nat) : (complete a code detail m).host.latOut = m.host.latOut := noDone_latOut (complete_host_noDone m a code detail)
@[simp] theorem complete_host_latEvd (a : Accepted) (code detail : Nat) : (complete a code detail m).host.latEvd = m.host.latEvd := noDone_latEvd (complete_host_noDone m a code detail)
@[simp] theorem complete_host_latEvl (a : Accepted) (code detail : Nat) : (complete a code detail m).host.latEvl = m.host.latEvl := noDone_latEvl (complete_host_noDone m a code detail)
@[simp] theorem complete_host_discN (a : Accepted) (code detail : Nat) : (complete a code detail m).host.discN = m.host.discN := noDone_discN (complete_host_noDone m a code detail)
@[simp] theorem complete_host_resetN (a : Accepted) (code detail : Nat) : (complete a code detail m).host.resetN = m.host.resetN := noDone_resetN (complete_host_noDone m a code detail)
@[simp] theorem complete_host_resetTold (a : Accepted) (code detail : Nat) : (complete a code detail m).host.resetTold = m.host.resetTold := noDone_resetTold (complete_host_noDone m a code detail)
@[simp] theorem complete_host_head (a : Accepted) (code detail : Nat) : (complete a code detail m).host.head = m.host.head := noDone_head (complete_host_noDone m a code detail)
@[simp] theorem complete_host_route (a : Accepted) (code detail : Nat) : (complete a code detail m).host.route = m.host.route := noDone_route (complete_host_noDone m a code detail)
@[simp] theorem complete_host_waiting (a : Accepted) (code detail : Nat) : (complete a code detail m).host.waiting = m.host.waiting := noDone_waiting (complete_host_noDone m a code detail)
@[simp] theorem complete_host_cycleSubs (a : Accepted) (code detail : Nat) : (complete a code detail m).host.cycleSubs = m.host.cycleSubs := noDone_cycleSubs (complete_host_noDone m a code detail)
@[simp] theorem complete_host_cycleAt (a : Accepted) (code detail : Nat) : (complete a code detail m).host.cycleAt = m.host.cycleAt := noDone_cycleAt (complete_host_noDone m a code detail)
@[simp] theorem complete_host_critWait (a : Accepted) (code detail : Nat) : (complete a code detail m).host.critWait = m.host.critWait := noDone_critWait (complete_host_noDone m a code detail)
@[simp] theorem complete_host_evWait (a : Accepted) (code detail : Nat) : (complete a code detail m).host.evWait = m.host.evWait := noDone_evWait (complete_host_noDone m a code detail)
@[simp] theorem complete_host_crit (a : Accepted) (code detail : Nat) : (complete a code detail m).host.crit = m.host.crit := noDone_crit (complete_host_noDone m a code detail)
@[simp] theorem complete_host_dfifo (a : Accepted) (code detail : Nat) : (complete a code detail m).host.dfifo = m.host.dfifo := noDone_dfifo (complete_host_noDone m a code detail)
@[simp] theorem complete_host_mscn (a : Accepted) (code detail : Nat) : (complete a code detail m).host.mscn = m.host.mscn := noDone_mscn (complete_host_noDone m a code detail)
@[simp] theorem complete_host_mirrorMode (a : Accepted) (code detail : Nat) : (complete a code detail m).host.mirrorMode = m.host.mirrorMode := noDone_mirrorMode (complete_host_noDone m a code detail)
@[simp] theorem complete_host_mirrorVset (a : Accepted) (code detail : Nat) : (complete a code detail m).host.mirrorVset = m.host.mirrorVset := noDone_mirrorVset (complete_host_noDone m a code detail)
@[simp] theorem complete_host_mirrorMfl (a : Accepted) (code detail : Nat) : (complete a code detail m).host.mirrorMfl = m.host.mirrorMfl := noDone_mirrorMfl (complete_host_noDone m a code detail)
@[simp] theorem complete_host_skipAt (a : Accepted) (code detail : Nat) : (complete a code detail m).host.skipAt = m.host.skipAt := noDone_skipAt (complete_host_noDone m a code detail)
@[simp] theorem complete_host_half0 (a : Accepted) (code detail : Nat) : (complete a code detail m).host.half0 = m.host.half0 := noDone_half0 (complete_host_noDone m a code detail)
@[simp] theorem complete_host_half1 (a : Accepted) (code detail : Nat) : (complete a code detail m).host.half1 = m.host.half1 := noDone_half1 (complete_host_noDone m a code detail)
@[simp] theorem complete_host_mirrorBuild (a : Accepted) (code detail : Nat) : (complete a code detail m).host.mirrorBuild = m.host.mirrorBuild := noDone_mirrorBuild (complete_host_noDone m a code detail)
@[simp] theorem complete_host_mirrorStn (a : Accepted) (code detail : Nat) : (complete a code detail m).host.mirrorStn = m.host.mirrorStn := noDone_mirrorStn (complete_host_noDone m a code detail)
@[simp] theorem complete_host_readData (a : Accepted) (code detail : Nat) : (complete a code detail m).host.readData = m.host.readData := noDone_readData (complete_host_noDone m a code detail)

end Sys2Proof.Machine
end

