-- ==== Sys2Proof/Laws/Halt.lean ====
section
/-! SUPPORT. What writing the store, ending sessions, entering HALT and losing a lane leave alone. -/

namespace Sys2Proof.Machine

variable (m : Mod)

/-- All but nv, host, rcd. -/
def Mod.noNvHostRcd (m : Mod) : Mod :=
  { m with nv := Nv.fresh, host := HostIf.fresh, rcd := Recorder.fresh }

theorem noNvHostRcd_powered {a b : Mod} (h : a.noNvHostRcd = b.noNvHostRcd) : a.powered = b.powered := (congrArg Mod.powered h :)
theorem noNvHostRcd_clk {a b : Mod} (h : a.noNvHostRcd = b.noNvHostRcd) : a.clk = b.clk := (congrArg Mod.clk h :)
theorem noNvHostRcd_freeN {a b : Mod} (h : a.noNvHostRcd = b.noNvHostRcd) : a.freeN = b.freeN := (congrArg Mod.freeN h :)
theorem noNvHostRcd_cfg {a b : Mod} (h : a.noNvHostRcd = b.noNvHostRcd) : a.cfg = b.cfg := (congrArg Mod.cfg h :)
theorem noNvHostRcd_tm {a b : Mod} (h : a.noNvHostRcd = b.noNvHostRcd) : a.tm = b.tm := (congrArg Mod.tm h :)
theorem noNvHostRcd_ln {a b : Mod} (h : a.noNvHostRcd = b.noNvHostRcd) : a.ln = b.ln := (congrArg Mod.ln h :)
theorem noNvHostRcd_md {a b : Mod} (h : a.noNvHostRcd = b.noNvHostRcd) : a.md = b.md := (congrArg Mod.md h :)
theorem noNvHostRcd_pw {a b : Mod} (h : a.noNvHostRcd = b.noNvHostRcd) : a.pw = b.pw := (congrArg Mod.pw h :)
theorem noNvHostRcd_lg {a b : Mod} (h : a.noNvHostRcd = b.noNvHostRcd) : a.lg = b.lg := (congrArg Mod.lg h :)
theorem noNvHostRcd_cur {a b : Mod} (h : a.noNvHostRcd = b.noNvHostRcd) : a.cur = b.cur := (congrArg Mod.cur h :)
theorem noNvHostRcd_nxt {a b : Mod} (h : a.noNvHostRcd = b.noNvHostRcd) : a.nxt = b.nxt := (congrArg Mod.nxt h :)
theorem noNvHostRcd_en {a b : Mod} (h : a.noNvHostRcd = b.noNvHostRcd) : a.en = b.en := (congrArg Mod.en h :)
theorem noNvHostRcd_fio {a b : Mod} (h : a.noNvHostRcd = b.noNvHostRcd) : a.fio = b.fio := (congrArg Mod.fio h :)
theorem noNvHostRcd_bt {a b : Mod} (h : a.noNvHostRcd = b.noNvHostRcd) : a.bt = b.bt := (congrArg Mod.bt h :)
theorem noNvHostRcd_str {a b : Mod} (h : a.noNvHostRcd = b.noNvHostRcd) : a.str = b.str := (congrArg Mod.str h :)
theorem noNvHostRcd_can {a b : Mod} (h : a.noNvHostRcd = b.noNvHostRcd) : a.can = b.can := (congrArg Mod.can h :)
theorem noNvHostRcd_net {a b : Mod} (h : a.noNvHostRcd = b.noNvHostRcd) : a.net = b.net := (congrArg Mod.net h :)
theorem noNvHostRcd_rc {a b : Mod} (h : a.noNvHostRcd = b.noNvHostRcd) : a.rc = b.rc := (congrArg Mod.rc h :)
theorem noNvHostRcd_pc {a b : Mod} (h : a.noNvHostRcd = b.noNvHostRcd) : a.pc = b.pc := (congrArg Mod.pc h :)
theorem noNvHostRcd_up {a b : Mod} (h : a.noNvHostRcd = b.noNvHostRcd) : a.up = b.up := (congrArg Mod.up h :)
theorem noNvHostRcd_sec {a b : Mod} (h : a.noNvHostRcd = b.noNvHostRcd) : a.sec = b.sec := (congrArg Mod.sec h :)
theorem noNvHostRcd_pr {a b : Mod} (h : a.noNvHostRcd = b.noNvHostRcd) : a.pr = b.pr := (congrArg Mod.pr h :)
theorem noNvHostRcd_stateOut {a b : Mod} (h : a.noNvHostRcd = b.noNvHostRcd) : a.stateOut = b.stateOut := (congrArg Mod.stateOut h :)

@[simp] theorem storeRecord_noNvHostRcd (r : Record) : (storeRecord r m).noNvHostRcd = m.noNvHostRcd := by
  unfold storeRecord onlyIf; dsimp only; split <;> simp [Mod.noNvHostRcd]
@[simp] theorem storeRecord_powered (r : Record) : (storeRecord r m).powered = m.powered := noNvHostRcd_powered (storeRecord_noNvHostRcd m r)
@[simp] theorem storeRecord_clk (r : Record) : (storeRecord r m).clk = m.clk := noNvHostRcd_clk (storeRecord_noNvHostRcd m r)
@[simp] theorem storeRecord_freeN (r : Record) : (storeRecord r m).freeN = m.freeN := noNvHostRcd_freeN (storeRecord_noNvHostRcd m r)
@[simp] theorem storeRecord_cfg (r : Record) : (storeRecord r m).cfg = m.cfg := noNvHostRcd_cfg (storeRecord_noNvHostRcd m r)
@[simp] theorem storeRecord_tm (r : Record) : (storeRecord r m).tm = m.tm := noNvHostRcd_tm (storeRecord_noNvHostRcd m r)
@[simp] theorem storeRecord_ln (r : Record) : (storeRecord r m).ln = m.ln := noNvHostRcd_ln (storeRecord_noNvHostRcd m r)
@[simp] theorem storeRecord_md (r : Record) : (storeRecord r m).md = m.md := noNvHostRcd_md (storeRecord_noNvHostRcd m r)
@[simp] theorem storeRecord_pw (r : Record) : (storeRecord r m).pw = m.pw := noNvHostRcd_pw (storeRecord_noNvHostRcd m r)
@[simp] theorem storeRecord_lg (r : Record) : (storeRecord r m).lg = m.lg := noNvHostRcd_lg (storeRecord_noNvHostRcd m r)
@[simp] theorem storeRecord_cur (r : Record) : (storeRecord r m).cur = m.cur := noNvHostRcd_cur (storeRecord_noNvHostRcd m r)
@[simp] theorem storeRecord_nxt (r : Record) : (storeRecord r m).nxt = m.nxt := noNvHostRcd_nxt (storeRecord_noNvHostRcd m r)
@[simp] theorem storeRecord_en (r : Record) : (storeRecord r m).en = m.en := noNvHostRcd_en (storeRecord_noNvHostRcd m r)
@[simp] theorem storeRecord_fio (r : Record) : (storeRecord r m).fio = m.fio := noNvHostRcd_fio (storeRecord_noNvHostRcd m r)
@[simp] theorem storeRecord_bt (r : Record) : (storeRecord r m).bt = m.bt := noNvHostRcd_bt (storeRecord_noNvHostRcd m r)
@[simp] theorem storeRecord_str (r : Record) : (storeRecord r m).str = m.str := noNvHostRcd_str (storeRecord_noNvHostRcd m r)
@[simp] theorem storeRecord_can (r : Record) : (storeRecord r m).can = m.can := noNvHostRcd_can (storeRecord_noNvHostRcd m r)
@[simp] theorem storeRecord_net (r : Record) : (storeRecord r m).net = m.net := noNvHostRcd_net (storeRecord_noNvHostRcd m r)
@[simp] theorem storeRecord_rc (r : Record) : (storeRecord r m).rc = m.rc := noNvHostRcd_rc (storeRecord_noNvHostRcd m r)
@[simp] theorem storeRecord_pc (r : Record) : (storeRecord r m).pc = m.pc := noNvHostRcd_pc (storeRecord_noNvHostRcd m r)
@[simp] theorem storeRecord_up (r : Record) : (storeRecord r m).up = m.up := noNvHostRcd_up (storeRecord_noNvHostRcd m r)
@[simp] theorem storeRecord_sec (r : Record) : (storeRecord r m).sec = m.sec := noNvHostRcd_sec (storeRecord_noNvHostRcd m r)
@[simp] theorem storeRecord_pr (r : Record) : (storeRecord r m).pr = m.pr := noNvHostRcd_pr (storeRecord_noNvHostRcd m r)
@[simp] theorem storeRecord_stateOut (r : Record) : (storeRecord r m).stateOut = m.stateOut := noNvHostRcd_stateOut (storeRecord_noNvHostRcd m r)

@[simp] theorem flushDirty_noNvHostRcd : (flushDirty m).noNvHostRcd = m.noNvHostRcd := by
  unfold flushDirty; split
  · rfl
  · exact (forEach_keeps _ Mod.noNvHostRcd _ _ (fun r n => storeRecord_noNvHostRcd n r)).trans (by simp [Mod.noNvHostRcd])
@[simp] theorem flushDirty_powered : (flushDirty m).powered = m.powered := noNvHostRcd_powered (flushDirty_noNvHostRcd m)
@[simp] theorem flushDirty_clk : (flushDirty m).clk = m.clk := noNvHostRcd_clk (flushDirty_noNvHostRcd m)
@[simp] theorem flushDirty_freeN : (flushDirty m).freeN = m.freeN := noNvHostRcd_freeN (flushDirty_noNvHostRcd m)
@[simp] theorem flushDirty_cfg : (flushDirty m).cfg = m.cfg := noNvHostRcd_cfg (flushDirty_noNvHostRcd m)
@[simp] theorem flushDirty_tm : (flushDirty m).tm = m.tm := noNvHostRcd_tm (flushDirty_noNvHostRcd m)
@[simp] theorem flushDirty_ln : (flushDirty m).ln = m.ln := noNvHostRcd_ln (flushDirty_noNvHostRcd m)
@[simp] theorem flushDirty_md : (flushDirty m).md = m.md := noNvHostRcd_md (flushDirty_noNvHostRcd m)
@[simp] theorem flushDirty_pw : (flushDirty m).pw = m.pw := noNvHostRcd_pw (flushDirty_noNvHostRcd m)
@[simp] theorem flushDirty_lg : (flushDirty m).lg = m.lg := noNvHostRcd_lg (flushDirty_noNvHostRcd m)
@[simp] theorem flushDirty_cur : (flushDirty m).cur = m.cur := noNvHostRcd_cur (flushDirty_noNvHostRcd m)
@[simp] theorem flushDirty_nxt : (flushDirty m).nxt = m.nxt := noNvHostRcd_nxt (flushDirty_noNvHostRcd m)
@[simp] theorem flushDirty_en : (flushDirty m).en = m.en := noNvHostRcd_en (flushDirty_noNvHostRcd m)
@[simp] theorem flushDirty_fio : (flushDirty m).fio = m.fio := noNvHostRcd_fio (flushDirty_noNvHostRcd m)
@[simp] theorem flushDirty_bt : (flushDirty m).bt = m.bt := noNvHostRcd_bt (flushDirty_noNvHostRcd m)
@[simp] theorem flushDirty_str : (flushDirty m).str = m.str := noNvHostRcd_str (flushDirty_noNvHostRcd m)
@[simp] theorem flushDirty_can : (flushDirty m).can = m.can := noNvHostRcd_can (flushDirty_noNvHostRcd m)
@[simp] theorem flushDirty_net : (flushDirty m).net = m.net := noNvHostRcd_net (flushDirty_noNvHostRcd m)
@[simp] theorem flushDirty_rc : (flushDirty m).rc = m.rc := noNvHostRcd_rc (flushDirty_noNvHostRcd m)
@[simp] theorem flushDirty_pc : (flushDirty m).pc = m.pc := noNvHostRcd_pc (flushDirty_noNvHostRcd m)
@[simp] theorem flushDirty_up : (flushDirty m).up = m.up := noNvHostRcd_up (flushDirty_noNvHostRcd m)
@[simp] theorem flushDirty_sec : (flushDirty m).sec = m.sec := noNvHostRcd_sec (flushDirty_noNvHostRcd m)
@[simp] theorem flushDirty_pr : (flushDirty m).pr = m.pr := noNvHostRcd_pr (flushDirty_noNvHostRcd m)
@[simp] theorem flushDirty_stateOut : (flushDirty m).stateOut = m.stateOut := noNvHostRcd_stateOut (flushDirty_noNvHostRcd m)

@[simp] theorem lossRecord_noHR (src reason : Nat) (first : W32) (n : Nat) : (lossRecord src reason first n m).noHR = m.noHR := by
  unfold lossRecord; simp [Mod.noHR]
@[simp] theorem lossRecord_powered (src reason : Nat) (first : W32) (n : Nat) : (lossRecord src reason first n m).powered = m.powered := noHR_powered (lossRecord_noHR m src reason first n)
@[simp] theorem lossRecord_clk (src reason : Nat) (first : W32) (n : Nat) : (lossRecord src reason first n m).clk = m.clk := noHR_clk (lossRecord_noHR m src reason first n)
@[simp] theorem lossRecord_freeN (src reason : Nat) (first : W32) (n : Nat) : (lossRecord src reason first n m).freeN = m.freeN := noHR_freeN (lossRecord_noHR m src reason first n)
@[simp] theorem lossRecord_nv (src reason : Nat) (first : W32) (n : Nat) : (lossRecord src reason first n m).nv = m.nv := noHR_nv (lossRecord_noHR m src reason first n)
@[simp] theorem lossRecord_cfg (src reason : Nat) (first : W32) (n : Nat) : (lossRecord src reason first n m).cfg = m.cfg := noHR_cfg (lossRecord_noHR m src reason first n)
@[simp] theorem lossRecord_tm (src reason : Nat) (first : W32) (n : Nat) : (lossRecord src reason first n m).tm = m.tm := noHR_tm (lossRecord_noHR m src reason first n)
@[simp] theorem lossRecord_ln (src reason : Nat) (first : W32) (n : Nat) : (lossRecord src reason first n m).ln = m.ln := noHR_ln (lossRecord_noHR m src reason first n)
@[simp] theorem lossRecord_md (src reason : Nat) (first : W32) (n : Nat) : (lossRecord src reason first n m).md = m.md := noHR_md (lossRecord_noHR m src reason first n)
@[simp] theorem lossRecord_pw (src reason : Nat) (first : W32) (n : Nat) : (lossRecord src reason first n m).pw = m.pw := noHR_pw (lossRecord_noHR m src reason first n)
@[simp] theorem lossRecord_lg (src reason : Nat) (first : W32) (n : Nat) : (lossRecord src reason first n m).lg = m.lg := noHR_lg (lossRecord_noHR m src reason first n)
@[simp] theorem lossRecord_cur (src reason : Nat) (first : W32) (n : Nat) : (lossRecord src reason first n m).cur = m.cur := noHR_cur (lossRecord_noHR m src reason first n)
@[simp] theorem lossRecord_nxt (src reason : Nat) (first : W32) (n : Nat) : (lossRecord src reason first n m).nxt = m.nxt := noHR_nxt (lossRecord_noHR m src reason first n)
@[simp] theorem lossRecord_en (src reason : Nat) (first : W32) (n : Nat) : (lossRecord src reason first n m).en = m.en := noHR_en (lossRecord_noHR m src reason first n)
@[simp] theorem lossRecord_fio (src reason : Nat) (first : W32) (n : Nat) : (lossRecord src reason first n m).fio = m.fio := noHR_fio (lossRecord_noHR m src reason first n)
@[simp] theorem lossRecord_bt (src reason : Nat) (first : W32) (n : Nat) : (lossRecord src reason first n m).bt = m.bt := noHR_bt (lossRecord_noHR m src reason first n)
@[simp] theorem lossRecord_str (src reason : Nat) (first : W32) (n : Nat) : (lossRecord src reason first n m).str = m.str := noHR_str (lossRecord_noHR m src reason first n)
@[simp] theorem lossRecord_can (src reason : Nat) (first : W32) (n : Nat) : (lossRecord src reason first n m).can = m.can := noHR_can (lossRecord_noHR m src reason first n)
@[simp] theorem lossRecord_net (src reason : Nat) (first : W32) (n : Nat) : (lossRecord src reason first n m).net = m.net := noHR_net (lossRecord_noHR m src reason first n)
@[simp] theorem lossRecord_rc (src reason : Nat) (first : W32) (n : Nat) : (lossRecord src reason first n m).rc = m.rc := noHR_rc (lossRecord_noHR m src reason first n)
@[simp] theorem lossRecord_pc (src reason : Nat) (first : W32) (n : Nat) : (lossRecord src reason first n m).pc = m.pc := noHR_pc (lossRecord_noHR m src reason first n)
@[simp] theorem lossRecord_up (src reason : Nat) (first : W32) (n : Nat) : (lossRecord src reason first n m).up = m.up := noHR_up (lossRecord_noHR m src reason first n)
@[simp] theorem lossRecord_sec (src reason : Nat) (first : W32) (n : Nat) : (lossRecord src reason first n m).sec = m.sec := noHR_sec (lossRecord_noHR m src reason first n)
@[simp] theorem lossRecord_pr (src reason : Nat) (first : W32) (n : Nat) : (lossRecord src reason first n m).pr = m.pr := noHR_pr (lossRecord_noHR m src reason first n)
@[simp] theorem lossRecord_stateOut (src reason : Nat) (first : W32) (n : Nat) : (lossRecord src reason first n m).stateOut = m.stateOut := noHR_stateOut (lossRecord_noHR m src reason first n)

@[simp] theorem recorderFails_noNvHostRcd : (recorderFails m).noNvHostRcd = m.noNvHostRcd := by
  unfold recorderFails; split <;> simp [Mod.noNvHostRcd]
@[simp] theorem recorderFails_powered : (recorderFails m).powered = m.powered := noNvHostRcd_powered (recorderFails_noNvHostRcd m)
@[simp] theorem recorderFails_clk : (recorderFails m).clk = m.clk := noNvHostRcd_clk (recorderFails_noNvHostRcd m)
@[simp] theorem recorderFails_freeN : (recorderFails m).freeN = m.freeN := noNvHostRcd_freeN (recorderFails_noNvHostRcd m)
@[simp] theorem recorderFails_cfg : (recorderFails m).cfg = m.cfg := noNvHostRcd_cfg (recorderFails_noNvHostRcd m)
@[simp] theorem recorderFails_tm : (recorderFails m).tm = m.tm := noNvHostRcd_tm (recorderFails_noNvHostRcd m)
@[simp] theorem recorderFails_ln : (recorderFails m).ln = m.ln := noNvHostRcd_ln (recorderFails_noNvHostRcd m)
@[simp] theorem recorderFails_md : (recorderFails m).md = m.md := noNvHostRcd_md (recorderFails_noNvHostRcd m)
@[simp] theorem recorderFails_pw : (recorderFails m).pw = m.pw := noNvHostRcd_pw (recorderFails_noNvHostRcd m)
@[simp] theorem recorderFails_lg : (recorderFails m).lg = m.lg := noNvHostRcd_lg (recorderFails_noNvHostRcd m)
@[simp] theorem recorderFails_cur : (recorderFails m).cur = m.cur := noNvHostRcd_cur (recorderFails_noNvHostRcd m)
@[simp] theorem recorderFails_nxt : (recorderFails m).nxt = m.nxt := noNvHostRcd_nxt (recorderFails_noNvHostRcd m)
@[simp] theorem recorderFails_en : (recorderFails m).en = m.en := noNvHostRcd_en (recorderFails_noNvHostRcd m)
@[simp] theorem recorderFails_fio : (recorderFails m).fio = m.fio := noNvHostRcd_fio (recorderFails_noNvHostRcd m)
@[simp] theorem recorderFails_bt : (recorderFails m).bt = m.bt := noNvHostRcd_bt (recorderFails_noNvHostRcd m)
@[simp] theorem recorderFails_str : (recorderFails m).str = m.str := noNvHostRcd_str (recorderFails_noNvHostRcd m)
@[simp] theorem recorderFails_can : (recorderFails m).can = m.can := noNvHostRcd_can (recorderFails_noNvHostRcd m)
@[simp] theorem recorderFails_net : (recorderFails m).net = m.net := noNvHostRcd_net (recorderFails_noNvHostRcd m)
@[simp] theorem recorderFails_rc : (recorderFails m).rc = m.rc := noNvHostRcd_rc (recorderFails_noNvHostRcd m)
@[simp] theorem recorderFails_pc : (recorderFails m).pc = m.pc := noNvHostRcd_pc (recorderFails_noNvHostRcd m)
@[simp] theorem recorderFails_up : (recorderFails m).up = m.up := noNvHostRcd_up (recorderFails_noNvHostRcd m)
@[simp] theorem recorderFails_sec : (recorderFails m).sec = m.sec := noNvHostRcd_sec (recorderFails_noNvHostRcd m)
@[simp] theorem recorderFails_pr : (recorderFails m).pr = m.pr := noNvHostRcd_pr (recorderFails_noNvHostRcd m)
@[simp] theorem recorderFails_stateOut : (recorderFails m).stateOut = m.stateOut := noNvHostRcd_stateOut (recorderFails_noNvHostRcd m)

/-- All but freeN, host, rcd, pc. -/
def Mod.noFreeNHostRcdPc (m : Mod) : Mod :=
  { m with freeN := 0, host := HostIf.fresh, rcd := Recorder.fresh, pc := Counters.fresh }

theorem noFreeNHostRcdPc_powered {a b : Mod} (h : a.noFreeNHostRcdPc = b.noFreeNHostRcdPc) : a.powered = b.powered := (congrArg Mod.powered h :)
theorem noFreeNHostRcdPc_clk {a b : Mod} (h : a.noFreeNHostRcdPc = b.noFreeNHostRcdPc) : a.clk = b.clk := (congrArg Mod.clk h :)
theorem noFreeNHostRcdPc_nv {a b : Mod} (h : a.noFreeNHostRcdPc = b.noFreeNHostRcdPc) : a.nv = b.nv := (congrArg Mod.nv h :)
theorem noFreeNHostRcdPc_cfg {a b : Mod} (h : a.noFreeNHostRcdPc = b.noFreeNHostRcdPc) : a.cfg = b.cfg := (congrArg Mod.cfg h :)
theorem noFreeNHostRcdPc_tm {a b : Mod} (h : a.noFreeNHostRcdPc = b.noFreeNHostRcdPc) : a.tm = b.tm := (congrArg Mod.tm h :)
theorem noFreeNHostRcdPc_ln {a b : Mod} (h : a.noFreeNHostRcdPc = b.noFreeNHostRcdPc) : a.ln = b.ln := (congrArg Mod.ln h :)
theorem noFreeNHostRcdPc_md {a b : Mod} (h : a.noFreeNHostRcdPc = b.noFreeNHostRcdPc) : a.md = b.md := (congrArg Mod.md h :)
theorem noFreeNHostRcdPc_pw {a b : Mod} (h : a.noFreeNHostRcdPc = b.noFreeNHostRcdPc) : a.pw = b.pw := (congrArg Mod.pw h :)
theorem noFreeNHostRcdPc_lg {a b : Mod} (h : a.noFreeNHostRcdPc = b.noFreeNHostRcdPc) : a.lg = b.lg := (congrArg Mod.lg h :)
theorem noFreeNHostRcdPc_cur {a b : Mod} (h : a.noFreeNHostRcdPc = b.noFreeNHostRcdPc) : a.cur = b.cur := (congrArg Mod.cur h :)
theorem noFreeNHostRcdPc_nxt {a b : Mod} (h : a.noFreeNHostRcdPc = b.noFreeNHostRcdPc) : a.nxt = b.nxt := (congrArg Mod.nxt h :)
theorem noFreeNHostRcdPc_en {a b : Mod} (h : a.noFreeNHostRcdPc = b.noFreeNHostRcdPc) : a.en = b.en := (congrArg Mod.en h :)
theorem noFreeNHostRcdPc_fio {a b : Mod} (h : a.noFreeNHostRcdPc = b.noFreeNHostRcdPc) : a.fio = b.fio := (congrArg Mod.fio h :)
theorem noFreeNHostRcdPc_bt {a b : Mod} (h : a.noFreeNHostRcdPc = b.noFreeNHostRcdPc) : a.bt = b.bt := (congrArg Mod.bt h :)
theorem noFreeNHostRcdPc_str {a b : Mod} (h : a.noFreeNHostRcdPc = b.noFreeNHostRcdPc) : a.str = b.str := (congrArg Mod.str h :)
theorem noFreeNHostRcdPc_can {a b : Mod} (h : a.noFreeNHostRcdPc = b.noFreeNHostRcdPc) : a.can = b.can := (congrArg Mod.can h :)
theorem noFreeNHostRcdPc_net {a b : Mod} (h : a.noFreeNHostRcdPc = b.noFreeNHostRcdPc) : a.net = b.net := (congrArg Mod.net h :)
theorem noFreeNHostRcdPc_rc {a b : Mod} (h : a.noFreeNHostRcdPc = b.noFreeNHostRcdPc) : a.rc = b.rc := (congrArg Mod.rc h :)
theorem noFreeNHostRcdPc_up {a b : Mod} (h : a.noFreeNHostRcdPc = b.noFreeNHostRcdPc) : a.up = b.up := (congrArg Mod.up h :)
theorem noFreeNHostRcdPc_sec {a b : Mod} (h : a.noFreeNHostRcdPc = b.noFreeNHostRcdPc) : a.sec = b.sec := (congrArg Mod.sec h :)
theorem noFreeNHostRcdPc_pr {a b : Mod} (h : a.noFreeNHostRcdPc = b.noFreeNHostRcdPc) : a.pr = b.pr := (congrArg Mod.pr h :)
theorem noFreeNHostRcdPc_stateOut {a b : Mod} (h : a.noFreeNHostRcdPc = b.noFreeNHostRcdPc) : a.stateOut = b.stateOut := (congrArg Mod.stateOut h :)

@[simp] theorem feCvu_noFreeNHostRcdPc (first : Nat) (x : CvUnit) : (feCvu first x m).noFreeNHostRcdPc = m.noFreeNHostRcdPc := by
  unfold feCvu feUnit leaveCvu onlyIf takeFree; dsimp only; (repeat' split) <;> simp [Mod.noFreeNHostRcdPc]
@[simp] theorem feCvu_powered (first : Nat) (x : CvUnit) : (feCvu first x m).powered = m.powered := noFreeNHostRcdPc_powered (feCvu_noFreeNHostRcdPc m first x)
@[simp] theorem feCvu_clk (first : Nat) (x : CvUnit) : (feCvu first x m).clk = m.clk := noFreeNHostRcdPc_clk (feCvu_noFreeNHostRcdPc m first x)
@[simp] theorem feCvu_nv (first : Nat) (x : CvUnit) : (feCvu first x m).nv = m.nv := noFreeNHostRcdPc_nv (feCvu_noFreeNHostRcdPc m first x)
@[simp] theorem feCvu_cfg (first : Nat) (x : CvUnit) : (feCvu first x m).cfg = m.cfg := noFreeNHostRcdPc_cfg (feCvu_noFreeNHostRcdPc m first x)
@[simp] theorem feCvu_tm (first : Nat) (x : CvUnit) : (feCvu first x m).tm = m.tm := noFreeNHostRcdPc_tm (feCvu_noFreeNHostRcdPc m first x)
@[simp] theorem feCvu_ln (first : Nat) (x : CvUnit) : (feCvu first x m).ln = m.ln := noFreeNHostRcdPc_ln (feCvu_noFreeNHostRcdPc m first x)
@[simp] theorem feCvu_md (first : Nat) (x : CvUnit) : (feCvu first x m).md = m.md := noFreeNHostRcdPc_md (feCvu_noFreeNHostRcdPc m first x)
@[simp] theorem feCvu_pw (first : Nat) (x : CvUnit) : (feCvu first x m).pw = m.pw := noFreeNHostRcdPc_pw (feCvu_noFreeNHostRcdPc m first x)
@[simp] theorem feCvu_lg (first : Nat) (x : CvUnit) : (feCvu first x m).lg = m.lg := noFreeNHostRcdPc_lg (feCvu_noFreeNHostRcdPc m first x)
@[simp] theorem feCvu_cur (first : Nat) (x : CvUnit) : (feCvu first x m).cur = m.cur := noFreeNHostRcdPc_cur (feCvu_noFreeNHostRcdPc m first x)
@[simp] theorem feCvu_nxt (first : Nat) (x : CvUnit) : (feCvu first x m).nxt = m.nxt := noFreeNHostRcdPc_nxt (feCvu_noFreeNHostRcdPc m first x)
@[simp] theorem feCvu_en (first : Nat) (x : CvUnit) : (feCvu first x m).en = m.en := noFreeNHostRcdPc_en (feCvu_noFreeNHostRcdPc m first x)
@[simp] theorem feCvu_fio (first : Nat) (x : CvUnit) : (feCvu first x m).fio = m.fio := noFreeNHostRcdPc_fio (feCvu_noFreeNHostRcdPc m first x)
@[simp] theorem feCvu_bt (first : Nat) (x : CvUnit) : (feCvu first x m).bt = m.bt := noFreeNHostRcdPc_bt (feCvu_noFreeNHostRcdPc m first x)
@[simp] theorem feCvu_str (first : Nat) (x : CvUnit) : (feCvu first x m).str = m.str := noFreeNHostRcdPc_str (feCvu_noFreeNHostRcdPc m first x)
@[simp] theorem feCvu_can (first : Nat) (x : CvUnit) : (feCvu first x m).can = m.can := noFreeNHostRcdPc_can (feCvu_noFreeNHostRcdPc m first x)
@[simp] theorem feCvu_net (first : Nat) (x : CvUnit) : (feCvu first x m).net = m.net := noFreeNHostRcdPc_net (feCvu_noFreeNHostRcdPc m first x)
@[simp] theorem feCvu_rc (first : Nat) (x : CvUnit) : (feCvu first x m).rc = m.rc := noFreeNHostRcdPc_rc (feCvu_noFreeNHostRcdPc m first x)
@[simp] theorem feCvu_up (first : Nat) (x : CvUnit) : (feCvu first x m).up = m.up := noFreeNHostRcdPc_up (feCvu_noFreeNHostRcdPc m first x)
@[simp] theorem feCvu_sec (first : Nat) (x : CvUnit) : (feCvu first x m).sec = m.sec := noFreeNHostRcdPc_sec (feCvu_noFreeNHostRcdPc m first x)
@[simp] theorem feCvu_pr (first : Nat) (x : CvUnit) : (feCvu first x m).pr = m.pr := noFreeNHostRcdPc_pr (feCvu_noFreeNHostRcdPc m first x)
@[simp] theorem feCvu_stateOut (first : Nat) (x : CvUnit) : (feCvu first x m).stateOut = m.stateOut := noFreeNHostRcdPc_stateOut (feCvu_noFreeNHostRcdPc m first x)

@[simp] theorem readBack_noFreeNHostRcdPc (bad : Bool) (d : Dirty) : (readBack bad d m).noFreeNHostRcdPc = m.noFreeNHostRcdPc := by
  unfold readBack takeFree; dsimp only; split <;> simp [Mod.noFreeNHostRcdPc]
@[simp] theorem readBack_powered (bad : Bool) (d : Dirty) : (readBack bad d m).powered = m.powered := noFreeNHostRcdPc_powered (readBack_noFreeNHostRcdPc m bad d)
@[simp] theorem readBack_clk (bad : Bool) (d : Dirty) : (readBack bad d m).clk = m.clk := noFreeNHostRcdPc_clk (readBack_noFreeNHostRcdPc m bad d)
@[simp] theorem readBack_nv (bad : Bool) (d : Dirty) : (readBack bad d m).nv = m.nv := noFreeNHostRcdPc_nv (readBack_noFreeNHostRcdPc m bad d)
@[simp] theorem readBack_cfg (bad : Bool) (d : Dirty) : (readBack bad d m).cfg = m.cfg := noFreeNHostRcdPc_cfg (readBack_noFreeNHostRcdPc m bad d)
@[simp] theorem readBack_tm (bad : Bool) (d : Dirty) : (readBack bad d m).tm = m.tm := noFreeNHostRcdPc_tm (readBack_noFreeNHostRcdPc m bad d)
@[simp] theorem readBack_ln (bad : Bool) (d : Dirty) : (readBack bad d m).ln = m.ln := noFreeNHostRcdPc_ln (readBack_noFreeNHostRcdPc m bad d)
@[simp] theorem readBack_md (bad : Bool) (d : Dirty) : (readBack bad d m).md = m.md := noFreeNHostRcdPc_md (readBack_noFreeNHostRcdPc m bad d)
@[simp] theorem readBack_pw (bad : Bool) (d : Dirty) : (readBack bad d m).pw = m.pw := noFreeNHostRcdPc_pw (readBack_noFreeNHostRcdPc m bad d)
@[simp] theorem readBack_lg (bad : Bool) (d : Dirty) : (readBack bad d m).lg = m.lg := noFreeNHostRcdPc_lg (readBack_noFreeNHostRcdPc m bad d)
@[simp] theorem readBack_cur (bad : Bool) (d : Dirty) : (readBack bad d m).cur = m.cur := noFreeNHostRcdPc_cur (readBack_noFreeNHostRcdPc m bad d)
@[simp] theorem readBack_nxt (bad : Bool) (d : Dirty) : (readBack bad d m).nxt = m.nxt := noFreeNHostRcdPc_nxt (readBack_noFreeNHostRcdPc m bad d)
@[simp] theorem readBack_en (bad : Bool) (d : Dirty) : (readBack bad d m).en = m.en := noFreeNHostRcdPc_en (readBack_noFreeNHostRcdPc m bad d)
@[simp] theorem readBack_fio (bad : Bool) (d : Dirty) : (readBack bad d m).fio = m.fio := noFreeNHostRcdPc_fio (readBack_noFreeNHostRcdPc m bad d)
@[simp] theorem readBack_bt (bad : Bool) (d : Dirty) : (readBack bad d m).bt = m.bt := noFreeNHostRcdPc_bt (readBack_noFreeNHostRcdPc m bad d)
@[simp] theorem readBack_str (bad : Bool) (d : Dirty) : (readBack bad d m).str = m.str := noFreeNHostRcdPc_str (readBack_noFreeNHostRcdPc m bad d)
@[simp] theorem readBack_can (bad : Bool) (d : Dirty) : (readBack bad d m).can = m.can := noFreeNHostRcdPc_can (readBack_noFreeNHostRcdPc m bad d)
@[simp] theorem readBack_net (bad : Bool) (d : Dirty) : (readBack bad d m).net = m.net := noFreeNHostRcdPc_net (readBack_noFreeNHostRcdPc m bad d)
@[simp] theorem readBack_rc (bad : Bool) (d : Dirty) : (readBack bad d m).rc = m.rc := noFreeNHostRcdPc_rc (readBack_noFreeNHostRcdPc m bad d)
@[simp] theorem readBack_up (bad : Bool) (d : Dirty) : (readBack bad d m).up = m.up := noFreeNHostRcdPc_up (readBack_noFreeNHostRcdPc m bad d)
@[simp] theorem readBack_sec (bad : Bool) (d : Dirty) : (readBack bad d m).sec = m.sec := noFreeNHostRcdPc_sec (readBack_noFreeNHostRcdPc m bad d)
@[simp] theorem readBack_pr (bad : Bool) (d : Dirty) : (readBack bad d m).pr = m.pr := noFreeNHostRcdPc_pr (readBack_noFreeNHostRcdPc m bad d)
@[simp] theorem readBack_stateOut (bad : Bool) (d : Dirty) : (readBack bad d m).stateOut = m.stateOut := noFreeNHostRcdPc_stateOut (readBack_noFreeNHostRcdPc m bad d)

@[simp] theorem checkPages_noFreeNHostRcdPc (bad : Nat) (ds : List Dirty) : (checkPages bad ds m).noFreeNHostRcdPc = m.noFreeNHostRcdPc := forEach_keeps _ Mod.noFreeNHostRcdPc _ _ (fun _ n => readBack_noFreeNHostRcdPc n _ _)
@[simp] theorem checkPages_powered (bad : Nat) (ds : List Dirty) : (checkPages bad ds m).powered = m.powered := noFreeNHostRcdPc_powered (checkPages_noFreeNHostRcdPc m bad ds)
@[simp] theorem checkPages_clk (bad : Nat) (ds : List Dirty) : (checkPages bad ds m).clk = m.clk := noFreeNHostRcdPc_clk (checkPages_noFreeNHostRcdPc m bad ds)
@[simp] theorem checkPages_nv (bad : Nat) (ds : List Dirty) : (checkPages bad ds m).nv = m.nv := noFreeNHostRcdPc_nv (checkPages_noFreeNHostRcdPc m bad ds)
@[simp] theorem checkPages_cfg (bad : Nat) (ds : List Dirty) : (checkPages bad ds m).cfg = m.cfg := noFreeNHostRcdPc_cfg (checkPages_noFreeNHostRcdPc m bad ds)
@[simp] theorem checkPages_tm (bad : Nat) (ds : List Dirty) : (checkPages bad ds m).tm = m.tm := noFreeNHostRcdPc_tm (checkPages_noFreeNHostRcdPc m bad ds)
@[simp] theorem checkPages_ln (bad : Nat) (ds : List Dirty) : (checkPages bad ds m).ln = m.ln := noFreeNHostRcdPc_ln (checkPages_noFreeNHostRcdPc m bad ds)
@[simp] theorem checkPages_md (bad : Nat) (ds : List Dirty) : (checkPages bad ds m).md = m.md := noFreeNHostRcdPc_md (checkPages_noFreeNHostRcdPc m bad ds)
@[simp] theorem checkPages_pw (bad : Nat) (ds : List Dirty) : (checkPages bad ds m).pw = m.pw := noFreeNHostRcdPc_pw (checkPages_noFreeNHostRcdPc m bad ds)
@[simp] theorem checkPages_lg (bad : Nat) (ds : List Dirty) : (checkPages bad ds m).lg = m.lg := noFreeNHostRcdPc_lg (checkPages_noFreeNHostRcdPc m bad ds)
@[simp] theorem checkPages_cur (bad : Nat) (ds : List Dirty) : (checkPages bad ds m).cur = m.cur := noFreeNHostRcdPc_cur (checkPages_noFreeNHostRcdPc m bad ds)
@[simp] theorem checkPages_nxt (bad : Nat) (ds : List Dirty) : (checkPages bad ds m).nxt = m.nxt := noFreeNHostRcdPc_nxt (checkPages_noFreeNHostRcdPc m bad ds)
@[simp] theorem checkPages_en (bad : Nat) (ds : List Dirty) : (checkPages bad ds m).en = m.en := noFreeNHostRcdPc_en (checkPages_noFreeNHostRcdPc m bad ds)
@[simp] theorem checkPages_fio (bad : Nat) (ds : List Dirty) : (checkPages bad ds m).fio = m.fio := noFreeNHostRcdPc_fio (checkPages_noFreeNHostRcdPc m bad ds)
@[simp] theorem checkPages_bt (bad : Nat) (ds : List Dirty) : (checkPages bad ds m).bt = m.bt := noFreeNHostRcdPc_bt (checkPages_noFreeNHostRcdPc m bad ds)
@[simp] theorem checkPages_str (bad : Nat) (ds : List Dirty) : (checkPages bad ds m).str = m.str := noFreeNHostRcdPc_str (checkPages_noFreeNHostRcdPc m bad ds)
@[simp] theorem checkPages_can (bad : Nat) (ds : List Dirty) : (checkPages bad ds m).can = m.can := noFreeNHostRcdPc_can (checkPages_noFreeNHostRcdPc m bad ds)
@[simp] theorem checkPages_net (bad : Nat) (ds : List Dirty) : (checkPages bad ds m).net = m.net := noFreeNHostRcdPc_net (checkPages_noFreeNHostRcdPc m bad ds)
@[simp] theorem checkPages_rc (bad : Nat) (ds : List Dirty) : (checkPages bad ds m).rc = m.rc := noFreeNHostRcdPc_rc (checkPages_noFreeNHostRcdPc m bad ds)
@[simp] theorem checkPages_up (bad : Nat) (ds : List Dirty) : (checkPages bad ds m).up = m.up := noFreeNHostRcdPc_up (checkPages_noFreeNHostRcdPc m bad ds)
@[simp] theorem checkPages_sec (bad : Nat) (ds : List Dirty) : (checkPages bad ds m).sec = m.sec := noFreeNHostRcdPc_sec (checkPages_noFreeNHostRcdPc m bad ds)
@[simp] theorem checkPages_pr (bad : Nat) (ds : List Dirty) : (checkPages bad ds m).pr = m.pr := noFreeNHostRcdPc_pr (checkPages_noFreeNHostRcdPc m bad ds)
@[simp] theorem checkPages_stateOut (bad : Nat) (ds : List Dirty) : (checkPages bad ds m).stateOut = m.stateOut := noFreeNHostRcdPc_stateOut (checkPages_noFreeNHostRcdPc m bad ds)

/-- All but freeN, nv, host, rcd, pc. -/
def Mod.noFreeNNvHostRcdPc (m : Mod) : Mod :=
  { m with freeN := 0, nv := Nv.fresh, host := HostIf.fresh, rcd := Recorder.fresh, pc := Counters.fresh }

theorem noFreeNNvHostRcdPc_powered {a b : Mod} (h : a.noFreeNNvHostRcdPc = b.noFreeNNvHostRcdPc) : a.powered = b.powered := (congrArg Mod.powered h :)
theorem noFreeNNvHostRcdPc_clk {a b : Mod} (h : a.noFreeNNvHostRcdPc = b.noFreeNNvHostRcdPc) : a.clk = b.clk := (congrArg Mod.clk h :)
theorem noFreeNNvHostRcdPc_cfg {a b : Mod} (h : a.noFreeNNvHostRcdPc = b.noFreeNNvHostRcdPc) : a.cfg = b.cfg := (congrArg Mod.cfg h :)
theorem noFreeNNvHostRcdPc_tm {a b : Mod} (h : a.noFreeNNvHostRcdPc = b.noFreeNNvHostRcdPc) : a.tm = b.tm := (congrArg Mod.tm h :)
theorem noFreeNNvHostRcdPc_ln {a b : Mod} (h : a.noFreeNNvHostRcdPc = b.noFreeNNvHostRcdPc) : a.ln = b.ln := (congrArg Mod.ln h :)
theorem noFreeNNvHostRcdPc_md {a b : Mod} (h : a.noFreeNNvHostRcdPc = b.noFreeNNvHostRcdPc) : a.md = b.md := (congrArg Mod.md h :)
theorem noFreeNNvHostRcdPc_pw {a b : Mod} (h : a.noFreeNNvHostRcdPc = b.noFreeNNvHostRcdPc) : a.pw = b.pw := (congrArg Mod.pw h :)
theorem noFreeNNvHostRcdPc_lg {a b : Mod} (h : a.noFreeNNvHostRcdPc = b.noFreeNNvHostRcdPc) : a.lg = b.lg := (congrArg Mod.lg h :)
theorem noFreeNNvHostRcdPc_cur {a b : Mod} (h : a.noFreeNNvHostRcdPc = b.noFreeNNvHostRcdPc) : a.cur = b.cur := (congrArg Mod.cur h :)
theorem noFreeNNvHostRcdPc_nxt {a b : Mod} (h : a.noFreeNNvHostRcdPc = b.noFreeNNvHostRcdPc) : a.nxt = b.nxt := (congrArg Mod.nxt h :)
theorem noFreeNNvHostRcdPc_en {a b : Mod} (h : a.noFreeNNvHostRcdPc = b.noFreeNNvHostRcdPc) : a.en = b.en := (congrArg Mod.en h :)
theorem noFreeNNvHostRcdPc_fio {a b : Mod} (h : a.noFreeNNvHostRcdPc = b.noFreeNNvHostRcdPc) : a.fio = b.fio := (congrArg Mod.fio h :)
theorem noFreeNNvHostRcdPc_bt {a b : Mod} (h : a.noFreeNNvHostRcdPc = b.noFreeNNvHostRcdPc) : a.bt = b.bt := (congrArg Mod.bt h :)
theorem noFreeNNvHostRcdPc_str {a b : Mod} (h : a.noFreeNNvHostRcdPc = b.noFreeNNvHostRcdPc) : a.str = b.str := (congrArg Mod.str h :)
theorem noFreeNNvHostRcdPc_can {a b : Mod} (h : a.noFreeNNvHostRcdPc = b.noFreeNNvHostRcdPc) : a.can = b.can := (congrArg Mod.can h :)
theorem noFreeNNvHostRcdPc_net {a b : Mod} (h : a.noFreeNNvHostRcdPc = b.noFreeNNvHostRcdPc) : a.net = b.net := (congrArg Mod.net h :)
theorem noFreeNNvHostRcdPc_rc {a b : Mod} (h : a.noFreeNNvHostRcdPc = b.noFreeNNvHostRcdPc) : a.rc = b.rc := (congrArg Mod.rc h :)
theorem noFreeNNvHostRcdPc_up {a b : Mod} (h : a.noFreeNNvHostRcdPc = b.noFreeNNvHostRcdPc) : a.up = b.up := (congrArg Mod.up h :)
theorem noFreeNNvHostRcdPc_sec {a b : Mod} (h : a.noFreeNNvHostRcdPc = b.noFreeNNvHostRcdPc) : a.sec = b.sec := (congrArg Mod.sec h :)
theorem noFreeNNvHostRcdPc_pr {a b : Mod} (h : a.noFreeNNvHostRcdPc = b.noFreeNNvHostRcdPc) : a.pr = b.pr := (congrArg Mod.pr h :)
theorem noFreeNNvHostRcdPc_stateOut {a b : Mod} (h : a.noFreeNNvHostRcdPc = b.noFreeNNvHostRcdPc) : a.stateOut = b.stateOut := (congrArg Mod.stateOut h :)

@[simp] theorem flushRead_noFreeNNvHostRcdPc : (flushRead m).noFreeNNvHostRcdPc = m.noFreeNNvHostRcdPc := by
  unfold flushRead takeFree; dsimp only; split <;> simp [Mod.noFreeNNvHostRcdPc]
@[simp] theorem flushRead_powered : (flushRead m).powered = m.powered := noFreeNNvHostRcdPc_powered (flushRead_noFreeNNvHostRcdPc m)
@[simp] theorem flushRead_clk : (flushRead m).clk = m.clk := noFreeNNvHostRcdPc_clk (flushRead_noFreeNNvHostRcdPc m)
@[simp] theorem flushRead_cfg : (flushRead m).cfg = m.cfg := noFreeNNvHostRcdPc_cfg (flushRead_noFreeNNvHostRcdPc m)
@[simp] theorem flushRead_tm : (flushRead m).tm = m.tm := noFreeNNvHostRcdPc_tm (flushRead_noFreeNNvHostRcdPc m)
@[simp] theorem flushRead_ln : (flushRead m).ln = m.ln := noFreeNNvHostRcdPc_ln (flushRead_noFreeNNvHostRcdPc m)
@[simp] theorem flushRead_md : (flushRead m).md = m.md := noFreeNNvHostRcdPc_md (flushRead_noFreeNNvHostRcdPc m)
@[simp] theorem flushRead_pw : (flushRead m).pw = m.pw := noFreeNNvHostRcdPc_pw (flushRead_noFreeNNvHostRcdPc m)
@[simp] theorem flushRead_lg : (flushRead m).lg = m.lg := noFreeNNvHostRcdPc_lg (flushRead_noFreeNNvHostRcdPc m)
@[simp] theorem flushRead_cur : (flushRead m).cur = m.cur := noFreeNNvHostRcdPc_cur (flushRead_noFreeNNvHostRcdPc m)
@[simp] theorem flushRead_nxt : (flushRead m).nxt = m.nxt := noFreeNNvHostRcdPc_nxt (flushRead_noFreeNNvHostRcdPc m)
@[simp] theorem flushRead_en : (flushRead m).en = m.en := noFreeNNvHostRcdPc_en (flushRead_noFreeNNvHostRcdPc m)
@[simp] theorem flushRead_fio : (flushRead m).fio = m.fio := noFreeNNvHostRcdPc_fio (flushRead_noFreeNNvHostRcdPc m)
@[simp] theorem flushRead_bt : (flushRead m).bt = m.bt := noFreeNNvHostRcdPc_bt (flushRead_noFreeNNvHostRcdPc m)
@[simp] theorem flushRead_str : (flushRead m).str = m.str := noFreeNNvHostRcdPc_str (flushRead_noFreeNNvHostRcdPc m)
@[simp] theorem flushRead_can : (flushRead m).can = m.can := noFreeNNvHostRcdPc_can (flushRead_noFreeNNvHostRcdPc m)
@[simp] theorem flushRead_net : (flushRead m).net = m.net := noFreeNNvHostRcdPc_net (flushRead_noFreeNNvHostRcdPc m)
@[simp] theorem flushRead_rc : (flushRead m).rc = m.rc := noFreeNNvHostRcdPc_rc (flushRead_noFreeNNvHostRcdPc m)
@[simp] theorem flushRead_up : (flushRead m).up = m.up := noFreeNNvHostRcdPc_up (flushRead_noFreeNNvHostRcdPc m)
@[simp] theorem flushRead_sec : (flushRead m).sec = m.sec := noFreeNNvHostRcdPc_sec (flushRead_noFreeNNvHostRcdPc m)
@[simp] theorem flushRead_pr : (flushRead m).pr = m.pr := noFreeNNvHostRcdPc_pr (flushRead_noFreeNNvHostRcdPc m)
@[simp] theorem flushRead_stateOut : (flushRead m).stateOut = m.stateOut := noFreeNNvHostRcdPc_stateOut (flushRead_noFreeNNvHostRcdPc m)

@[simp] theorem powerFailFlush_noFreeNNvHostRcdPc : (powerFailFlush m).noFreeNNvHostRcdPc = m.noFreeNNvHostRcdPc := by
  unfold powerFailFlush; dsimp only; split <;> simp [Mod.noFreeNNvHostRcdPc]
@[simp] theorem powerFailFlush_powered : (powerFailFlush m).powered = m.powered := noFreeNNvHostRcdPc_powered (powerFailFlush_noFreeNNvHostRcdPc m)
@[simp] theorem powerFailFlush_clk : (powerFailFlush m).clk = m.clk := noFreeNNvHostRcdPc_clk (powerFailFlush_noFreeNNvHostRcdPc m)
@[simp] theorem powerFailFlush_cfg : (powerFailFlush m).cfg = m.cfg := noFreeNNvHostRcdPc_cfg (powerFailFlush_noFreeNNvHostRcdPc m)
@[simp] theorem powerFailFlush_tm : (powerFailFlush m).tm = m.tm := noFreeNNvHostRcdPc_tm (powerFailFlush_noFreeNNvHostRcdPc m)
@[simp] theorem powerFailFlush_ln : (powerFailFlush m).ln = m.ln := noFreeNNvHostRcdPc_ln (powerFailFlush_noFreeNNvHostRcdPc m)
@[simp] theorem powerFailFlush_md : (powerFailFlush m).md = m.md := noFreeNNvHostRcdPc_md (powerFailFlush_noFreeNNvHostRcdPc m)
@[simp] theorem powerFailFlush_pw : (powerFailFlush m).pw = m.pw := noFreeNNvHostRcdPc_pw (powerFailFlush_noFreeNNvHostRcdPc m)
@[simp] theorem powerFailFlush_lg : (powerFailFlush m).lg = m.lg := noFreeNNvHostRcdPc_lg (powerFailFlush_noFreeNNvHostRcdPc m)
@[simp] theorem powerFailFlush_cur : (powerFailFlush m).cur = m.cur := noFreeNNvHostRcdPc_cur (powerFailFlush_noFreeNNvHostRcdPc m)
@[simp] theorem powerFailFlush_nxt : (powerFailFlush m).nxt = m.nxt := noFreeNNvHostRcdPc_nxt (powerFailFlush_noFreeNNvHostRcdPc m)
@[simp] theorem powerFailFlush_en : (powerFailFlush m).en = m.en := noFreeNNvHostRcdPc_en (powerFailFlush_noFreeNNvHostRcdPc m)
@[simp] theorem powerFailFlush_fio : (powerFailFlush m).fio = m.fio := noFreeNNvHostRcdPc_fio (powerFailFlush_noFreeNNvHostRcdPc m)
@[simp] theorem powerFailFlush_bt : (powerFailFlush m).bt = m.bt := noFreeNNvHostRcdPc_bt (powerFailFlush_noFreeNNvHostRcdPc m)
@[simp] theorem powerFailFlush_str : (powerFailFlush m).str = m.str := noFreeNNvHostRcdPc_str (powerFailFlush_noFreeNNvHostRcdPc m)
@[simp] theorem powerFailFlush_can : (powerFailFlush m).can = m.can := noFreeNNvHostRcdPc_can (powerFailFlush_noFreeNNvHostRcdPc m)
@[simp] theorem powerFailFlush_net : (powerFailFlush m).net = m.net := noFreeNNvHostRcdPc_net (powerFailFlush_noFreeNNvHostRcdPc m)
@[simp] theorem powerFailFlush_rc : (powerFailFlush m).rc = m.rc := noFreeNNvHostRcdPc_rc (powerFailFlush_noFreeNNvHostRcdPc m)
@[simp] theorem powerFailFlush_up : (powerFailFlush m).up = m.up := noFreeNNvHostRcdPc_up (powerFailFlush_noFreeNNvHostRcdPc m)
@[simp] theorem powerFailFlush_sec : (powerFailFlush m).sec = m.sec := noFreeNNvHostRcdPc_sec (powerFailFlush_noFreeNNvHostRcdPc m)
@[simp] theorem powerFailFlush_pr : (powerFailFlush m).pr = m.pr := noFreeNNvHostRcdPc_pr (powerFailFlush_noFreeNNvHostRcdPc m)
@[simp] theorem powerFailFlush_stateOut : (powerFailFlush m).stateOut = m.stateOut := noFreeNNvHostRcdPc_stateOut (powerFailFlush_noFreeNNvHostRcdPc m)

@[simp] theorem holdVote_noLn : (holdVote m).noLn = m.noLn := by
  unfold holdVote; simp [Mod.noLn]
@[simp] theorem holdVote_powered : (holdVote m).powered = m.powered := noLn_powered (holdVote_noLn m)
@[simp] theorem holdVote_clk : (holdVote m).clk = m.clk := noLn_clk (holdVote_noLn m)
@[simp] theorem holdVote_freeN : (holdVote m).freeN = m.freeN := noLn_freeN (holdVote_noLn m)
@[simp] theorem holdVote_nv : (holdVote m).nv = m.nv := noLn_nv (holdVote_noLn m)
@[simp] theorem holdVote_cfg : (holdVote m).cfg = m.cfg := noLn_cfg (holdVote_noLn m)
@[simp] theorem holdVote_tm : (holdVote m).tm = m.tm := noLn_tm (holdVote_noLn m)
@[simp] theorem holdVote_md : (holdVote m).md = m.md := noLn_md (holdVote_noLn m)
@[simp] theorem holdVote_pw : (holdVote m).pw = m.pw := noLn_pw (holdVote_noLn m)
@[simp] theorem holdVote_lg : (holdVote m).lg = m.lg := noLn_lg (holdVote_noLn m)
@[simp] theorem holdVote_cur : (holdVote m).cur = m.cur := noLn_cur (holdVote_noLn m)
@[simp] theorem holdVote_nxt : (holdVote m).nxt = m.nxt := noLn_nxt (holdVote_noLn m)
@[simp] theorem holdVote_en : (holdVote m).en = m.en := noLn_en (holdVote_noLn m)
@[simp] theorem holdVote_fio : (holdVote m).fio = m.fio := noLn_fio (holdVote_noLn m)
@[simp] theorem holdVote_bt : (holdVote m).bt = m.bt := noLn_bt (holdVote_noLn m)
@[simp] theorem holdVote_str : (holdVote m).str = m.str := noLn_str (holdVote_noLn m)
@[simp] theorem holdVote_can : (holdVote m).can = m.can := noLn_can (holdVote_noLn m)
@[simp] theorem holdVote_net : (holdVote m).net = m.net := noLn_net (holdVote_noLn m)
@[simp] theorem holdVote_host : (holdVote m).host = m.host := noLn_host (holdVote_noLn m)
@[simp] theorem holdVote_rcd : (holdVote m).rcd = m.rcd := noLn_rcd (holdVote_noLn m)
@[simp] theorem holdVote_rc : (holdVote m).rc = m.rc := noLn_rc (holdVote_noLn m)
@[simp] theorem holdVote_pc : (holdVote m).pc = m.pc := noLn_pc (holdVote_noLn m)
@[simp] theorem holdVote_up : (holdVote m).up = m.up := noLn_up (holdVote_noLn m)
@[simp] theorem holdVote_sec : (holdVote m).sec = m.sec := noLn_sec (holdVote_noLn m)
@[simp] theorem holdVote_pr : (holdVote m).pr = m.pr := noLn_pr (holdVote_noLn m)
@[simp] theorem holdVote_stateOut : (holdVote m).stateOut = m.stateOut := noLn_stateOut (holdVote_noLn m)

/-- All but ln, host, rcd. -/
def Mod.noLnHostRcd (m : Mod) : Mod :=
  { m with ln := PerLane.all (Lane.fresh (LaneNv.fresh 0 0)), host := HostIf.fresh, rcd := Recorder.fresh }

theorem noLnHostRcd_powered {a b : Mod} (h : a.noLnHostRcd = b.noLnHostRcd) : a.powered = b.powered := (congrArg Mod.powered h :)
theorem noLnHostRcd_clk {a b : Mod} (h : a.noLnHostRcd = b.noLnHostRcd) : a.clk = b.clk := (congrArg Mod.clk h :)
theorem noLnHostRcd_freeN {a b : Mod} (h : a.noLnHostRcd = b.noLnHostRcd) : a.freeN = b.freeN := (congrArg Mod.freeN h :)
theorem noLnHostRcd_nv {a b : Mod} (h : a.noLnHostRcd = b.noLnHostRcd) : a.nv = b.nv := (congrArg Mod.nv h :)
theorem noLnHostRcd_cfg {a b : Mod} (h : a.noLnHostRcd = b.noLnHostRcd) : a.cfg = b.cfg := (congrArg Mod.cfg h :)
theorem noLnHostRcd_tm {a b : Mod} (h : a.noLnHostRcd = b.noLnHostRcd) : a.tm = b.tm := (congrArg Mod.tm h :)
theorem noLnHostRcd_md {a b : Mod} (h : a.noLnHostRcd = b.noLnHostRcd) : a.md = b.md := (congrArg Mod.md h :)
theorem noLnHostRcd_pw {a b : Mod} (h : a.noLnHostRcd = b.noLnHostRcd) : a.pw = b.pw := (congrArg Mod.pw h :)
theorem noLnHostRcd_lg {a b : Mod} (h : a.noLnHostRcd = b.noLnHostRcd) : a.lg = b.lg := (congrArg Mod.lg h :)
theorem noLnHostRcd_cur {a b : Mod} (h : a.noLnHostRcd = b.noLnHostRcd) : a.cur = b.cur := (congrArg Mod.cur h :)
theorem noLnHostRcd_nxt {a b : Mod} (h : a.noLnHostRcd = b.noLnHostRcd) : a.nxt = b.nxt := (congrArg Mod.nxt h :)
theorem noLnHostRcd_en {a b : Mod} (h : a.noLnHostRcd = b.noLnHostRcd) : a.en = b.en := (congrArg Mod.en h :)
theorem noLnHostRcd_fio {a b : Mod} (h : a.noLnHostRcd = b.noLnHostRcd) : a.fio = b.fio := (congrArg Mod.fio h :)
theorem noLnHostRcd_bt {a b : Mod} (h : a.noLnHostRcd = b.noLnHostRcd) : a.bt = b.bt := (congrArg Mod.bt h :)
theorem noLnHostRcd_str {a b : Mod} (h : a.noLnHostRcd = b.noLnHostRcd) : a.str = b.str := (congrArg Mod.str h :)
theorem noLnHostRcd_can {a b : Mod} (h : a.noLnHostRcd = b.noLnHostRcd) : a.can = b.can := (congrArg Mod.can h :)
theorem noLnHostRcd_net {a b : Mod} (h : a.noLnHostRcd = b.noLnHostRcd) : a.net = b.net := (congrArg Mod.net h :)
theorem noLnHostRcd_rc {a b : Mod} (h : a.noLnHostRcd = b.noLnHostRcd) : a.rc = b.rc := (congrArg Mod.rc h :)
theorem noLnHostRcd_pc {a b : Mod} (h : a.noLnHostRcd = b.noLnHostRcd) : a.pc = b.pc := (congrArg Mod.pc h :)
theorem noLnHostRcd_up {a b : Mod} (h : a.noLnHostRcd = b.noLnHostRcd) : a.up = b.up := (congrArg Mod.up h :)
theorem noLnHostRcd_sec {a b : Mod} (h : a.noLnHostRcd = b.noLnHostRcd) : a.sec = b.sec := (congrArg Mod.sec h :)
theorem noLnHostRcd_pr {a b : Mod} (h : a.noLnHostRcd = b.noLnHostRcd) : a.pr = b.pr := (congrArg Mod.pr h :)
theorem noLnHostRcd_stateOut {a b : Mod} (h : a.noLnHostRcd = b.noLnHostRcd) : a.stateOut = b.stateOut := (congrArg Mod.stateOut h :)

@[simp] theorem writeRetain_noLnHostRcd (l : LaneId) : (writeRetain l m).noLnHostRcd = m.noLnHostRcd := by
  unfold writeRetain; dsimp only; (repeat' split) <;> simp [Mod.noLnHostRcd]
@[simp] theorem writeRetain_powered (l : LaneId) : (writeRetain l m).powered = m.powered := noLnHostRcd_powered (writeRetain_noLnHostRcd m l)
@[simp] theorem writeRetain_clk (l : LaneId) : (writeRetain l m).clk = m.clk := noLnHostRcd_clk (writeRetain_noLnHostRcd m l)
@[simp] theorem writeRetain_freeN (l : LaneId) : (writeRetain l m).freeN = m.freeN := noLnHostRcd_freeN (writeRetain_noLnHostRcd m l)
@[simp] theorem writeRetain_nv (l : LaneId) : (writeRetain l m).nv = m.nv := noLnHostRcd_nv (writeRetain_noLnHostRcd m l)
@[simp] theorem writeRetain_cfg (l : LaneId) : (writeRetain l m).cfg = m.cfg := noLnHostRcd_cfg (writeRetain_noLnHostRcd m l)
@[simp] theorem writeRetain_tm (l : LaneId) : (writeRetain l m).tm = m.tm := noLnHostRcd_tm (writeRetain_noLnHostRcd m l)
@[simp] theorem writeRetain_md (l : LaneId) : (writeRetain l m).md = m.md := noLnHostRcd_md (writeRetain_noLnHostRcd m l)
@[simp] theorem writeRetain_pw (l : LaneId) : (writeRetain l m).pw = m.pw := noLnHostRcd_pw (writeRetain_noLnHostRcd m l)
@[simp] theorem writeRetain_lg (l : LaneId) : (writeRetain l m).lg = m.lg := noLnHostRcd_lg (writeRetain_noLnHostRcd m l)
@[simp] theorem writeRetain_cur (l : LaneId) : (writeRetain l m).cur = m.cur := noLnHostRcd_cur (writeRetain_noLnHostRcd m l)
@[simp] theorem writeRetain_nxt (l : LaneId) : (writeRetain l m).nxt = m.nxt := noLnHostRcd_nxt (writeRetain_noLnHostRcd m l)
@[simp] theorem writeRetain_en (l : LaneId) : (writeRetain l m).en = m.en := noLnHostRcd_en (writeRetain_noLnHostRcd m l)
@[simp] theorem writeRetain_fio (l : LaneId) : (writeRetain l m).fio = m.fio := noLnHostRcd_fio (writeRetain_noLnHostRcd m l)
@[simp] theorem writeRetain_bt (l : LaneId) : (writeRetain l m).bt = m.bt := noLnHostRcd_bt (writeRetain_noLnHostRcd m l)
@[simp] theorem writeRetain_str (l : LaneId) : (writeRetain l m).str = m.str := noLnHostRcd_str (writeRetain_noLnHostRcd m l)
@[simp] theorem writeRetain_can (l : LaneId) : (writeRetain l m).can = m.can := noLnHostRcd_can (writeRetain_noLnHostRcd m l)
@[simp] theorem writeRetain_net (l : LaneId) : (writeRetain l m).net = m.net := noLnHostRcd_net (writeRetain_noLnHostRcd m l)
@[simp] theorem writeRetain_rc (l : LaneId) : (writeRetain l m).rc = m.rc := noLnHostRcd_rc (writeRetain_noLnHostRcd m l)
@[simp] theorem writeRetain_pc (l : LaneId) : (writeRetain l m).pc = m.pc := noLnHostRcd_pc (writeRetain_noLnHostRcd m l)
@[simp] theorem writeRetain_up (l : LaneId) : (writeRetain l m).up = m.up := noLnHostRcd_up (writeRetain_noLnHostRcd m l)
@[simp] theorem writeRetain_sec (l : LaneId) : (writeRetain l m).sec = m.sec := noLnHostRcd_sec (writeRetain_noLnHostRcd m l)
@[simp] theorem writeRetain_pr (l : LaneId) : (writeRetain l m).pr = m.pr := noLnHostRcd_pr (writeRetain_noLnHostRcd m l)
@[simp] theorem writeRetain_stateOut (l : LaneId) : (writeRetain l m).stateOut = m.stateOut := noLnHostRcd_stateOut (writeRetain_noLnHostRcd m l)

@[simp] theorem writeRetains_noLnHostRcd : (writeRetains m).noLnHostRcd = m.noLnHostRcd := forEach_keeps _ Mod.noLnHostRcd _ _ (fun l n => writeRetain_noLnHostRcd n l)
@[simp] theorem writeRetains_powered : (writeRetains m).powered = m.powered := noLnHostRcd_powered (writeRetains_noLnHostRcd m)
@[simp] theorem writeRetains_clk : (writeRetains m).clk = m.clk := noLnHostRcd_clk (writeRetains_noLnHostRcd m)
@[simp] theorem writeRetains_freeN : (writeRetains m).freeN = m.freeN := noLnHostRcd_freeN (writeRetains_noLnHostRcd m)
@[simp] theorem writeRetains_nv : (writeRetains m).nv = m.nv := noLnHostRcd_nv (writeRetains_noLnHostRcd m)
@[simp] theorem writeRetains_cfg : (writeRetains m).cfg = m.cfg := noLnHostRcd_cfg (writeRetains_noLnHostRcd m)
@[simp] theorem writeRetains_tm : (writeRetains m).tm = m.tm := noLnHostRcd_tm (writeRetains_noLnHostRcd m)
@[simp] theorem writeRetains_md : (writeRetains m).md = m.md := noLnHostRcd_md (writeRetains_noLnHostRcd m)
@[simp] theorem writeRetains_pw : (writeRetains m).pw = m.pw := noLnHostRcd_pw (writeRetains_noLnHostRcd m)
@[simp] theorem writeRetains_lg : (writeRetains m).lg = m.lg := noLnHostRcd_lg (writeRetains_noLnHostRcd m)
@[simp] theorem writeRetains_cur : (writeRetains m).cur = m.cur := noLnHostRcd_cur (writeRetains_noLnHostRcd m)
@[simp] theorem writeRetains_nxt : (writeRetains m).nxt = m.nxt := noLnHostRcd_nxt (writeRetains_noLnHostRcd m)
@[simp] theorem writeRetains_en : (writeRetains m).en = m.en := noLnHostRcd_en (writeRetains_noLnHostRcd m)
@[simp] theorem writeRetains_fio : (writeRetains m).fio = m.fio := noLnHostRcd_fio (writeRetains_noLnHostRcd m)
@[simp] theorem writeRetains_bt : (writeRetains m).bt = m.bt := noLnHostRcd_bt (writeRetains_noLnHostRcd m)
@[simp] theorem writeRetains_str : (writeRetains m).str = m.str := noLnHostRcd_str (writeRetains_noLnHostRcd m)
@[simp] theorem writeRetains_can : (writeRetains m).can = m.can := noLnHostRcd_can (writeRetains_noLnHostRcd m)
@[simp] theorem writeRetains_net : (writeRetains m).net = m.net := noLnHostRcd_net (writeRetains_noLnHostRcd m)
@[simp] theorem writeRetains_rc : (writeRetains m).rc = m.rc := noLnHostRcd_rc (writeRetains_noLnHostRcd m)
@[simp] theorem writeRetains_pc : (writeRetains m).pc = m.pc := noLnHostRcd_pc (writeRetains_noLnHostRcd m)
@[simp] theorem writeRetains_up : (writeRetains m).up = m.up := noLnHostRcd_up (writeRetains_noLnHostRcd m)
@[simp] theorem writeRetains_sec : (writeRetains m).sec = m.sec := noLnHostRcd_sec (writeRetains_noLnHostRcd m)
@[simp] theorem writeRetains_pr : (writeRetains m).pr = m.pr := noLnHostRcd_pr (writeRetains_noLnHostRcd m)
@[simp] theorem writeRetains_stateOut : (writeRetains m).stateOut = m.stateOut := noLnHostRcd_stateOut (writeRetains_noLnHostRcd m)

/-- All but ln, md. -/
def Mod.noLnMd (m : Mod) : Mod :=
  { m with ln := PerLane.all (Lane.fresh (LaneNv.fresh 0 0)), md := Modes.fresh }

theorem noLnMd_powered {a b : Mod} (h : a.noLnMd = b.noLnMd) : a.powered = b.powered := (congrArg Mod.powered h :)
theorem noLnMd_clk {a b : Mod} (h : a.noLnMd = b.noLnMd) : a.clk = b.clk := (congrArg Mod.clk h :)
theorem noLnMd_freeN {a b : Mod} (h : a.noLnMd = b.noLnMd) : a.freeN = b.freeN := (congrArg Mod.freeN h :)
theorem noLnMd_nv {a b : Mod} (h : a.noLnMd = b.noLnMd) : a.nv = b.nv := (congrArg Mod.nv h :)
theorem noLnMd_cfg {a b : Mod} (h : a.noLnMd = b.noLnMd) : a.cfg = b.cfg := (congrArg Mod.cfg h :)
theorem noLnMd_tm {a b : Mod} (h : a.noLnMd = b.noLnMd) : a.tm = b.tm := (congrArg Mod.tm h :)
theorem noLnMd_pw {a b : Mod} (h : a.noLnMd = b.noLnMd) : a.pw = b.pw := (congrArg Mod.pw h :)
theorem noLnMd_lg {a b : Mod} (h : a.noLnMd = b.noLnMd) : a.lg = b.lg := (congrArg Mod.lg h :)
theorem noLnMd_cur {a b : Mod} (h : a.noLnMd = b.noLnMd) : a.cur = b.cur := (congrArg Mod.cur h :)
theorem noLnMd_nxt {a b : Mod} (h : a.noLnMd = b.noLnMd) : a.nxt = b.nxt := (congrArg Mod.nxt h :)
theorem noLnMd_en {a b : Mod} (h : a.noLnMd = b.noLnMd) : a.en = b.en := (congrArg Mod.en h :)
theorem noLnMd_fio {a b : Mod} (h : a.noLnMd = b.noLnMd) : a.fio = b.fio := (congrArg Mod.fio h :)
theorem noLnMd_bt {a b : Mod} (h : a.noLnMd = b.noLnMd) : a.bt = b.bt := (congrArg Mod.bt h :)
theorem noLnMd_str {a b : Mod} (h : a.noLnMd = b.noLnMd) : a.str = b.str := (congrArg Mod.str h :)
theorem noLnMd_can {a b : Mod} (h : a.noLnMd = b.noLnMd) : a.can = b.can := (congrArg Mod.can h :)
theorem noLnMd_net {a b : Mod} (h : a.noLnMd = b.noLnMd) : a.net = b.net := (congrArg Mod.net h :)
theorem noLnMd_host {a b : Mod} (h : a.noLnMd = b.noLnMd) : a.host = b.host := (congrArg Mod.host h :)
theorem noLnMd_rcd {a b : Mod} (h : a.noLnMd = b.noLnMd) : a.rcd = b.rcd := (congrArg Mod.rcd h :)
theorem noLnMd_rc {a b : Mod} (h : a.noLnMd = b.noLnMd) : a.rc = b.rc := (congrArg Mod.rc h :)
theorem noLnMd_pc {a b : Mod} (h : a.noLnMd = b.noLnMd) : a.pc = b.pc := (congrArg Mod.pc h :)
theorem noLnMd_up {a b : Mod} (h : a.noLnMd = b.noLnMd) : a.up = b.up := (congrArg Mod.up h :)
theorem noLnMd_sec {a b : Mod} (h : a.noLnMd = b.noLnMd) : a.sec = b.sec := (congrArg Mod.sec h :)
theorem noLnMd_pr {a b : Mod} (h : a.noLnMd = b.noLnMd) : a.pr = b.pr := (congrArg Mod.pr h :)
theorem noLnMd_stateOut {a b : Mod} (h : a.noLnMd = b.noLnMd) : a.stateOut = b.stateOut := (congrArg Mod.stateOut h :)

@[simp] theorem dropForces_noLnMd : (dropForces m).noLnMd = m.noLnMd := by
  unfold dropForces; dsimp only; split <;> simp [Mod.noLnMd]
@[simp] theorem dropForces_powered : (dropForces m).powered = m.powered := noLnMd_powered (dropForces_noLnMd m)
@[simp] theorem dropForces_clk : (dropForces m).clk = m.clk := noLnMd_clk (dropForces_noLnMd m)
@[simp] theorem dropForces_freeN : (dropForces m).freeN = m.freeN := noLnMd_freeN (dropForces_noLnMd m)
@[simp] theorem dropForces_nv : (dropForces m).nv = m.nv := noLnMd_nv (dropForces_noLnMd m)
@[simp] theorem dropForces_cfg : (dropForces m).cfg = m.cfg := noLnMd_cfg (dropForces_noLnMd m)
@[simp] theorem dropForces_tm : (dropForces m).tm = m.tm := noLnMd_tm (dropForces_noLnMd m)
@[simp] theorem dropForces_pw : (dropForces m).pw = m.pw := noLnMd_pw (dropForces_noLnMd m)
@[simp] theorem dropForces_lg : (dropForces m).lg = m.lg := noLnMd_lg (dropForces_noLnMd m)
@[simp] theorem dropForces_cur : (dropForces m).cur = m.cur := noLnMd_cur (dropForces_noLnMd m)
@[simp] theorem dropForces_nxt : (dropForces m).nxt = m.nxt := noLnMd_nxt (dropForces_noLnMd m)
@[simp] theorem dropForces_en : (dropForces m).en = m.en := noLnMd_en (dropForces_noLnMd m)
@[simp] theorem dropForces_fio : (dropForces m).fio = m.fio := noLnMd_fio (dropForces_noLnMd m)
@[simp] theorem dropForces_bt : (dropForces m).bt = m.bt := noLnMd_bt (dropForces_noLnMd m)
@[simp] theorem dropForces_str : (dropForces m).str = m.str := noLnMd_str (dropForces_noLnMd m)
@[simp] theorem dropForces_can : (dropForces m).can = m.can := noLnMd_can (dropForces_noLnMd m)
@[simp] theorem dropForces_net : (dropForces m).net = m.net := noLnMd_net (dropForces_noLnMd m)
@[simp] theorem dropForces_host : (dropForces m).host = m.host := noLnMd_host (dropForces_noLnMd m)
@[simp] theorem dropForces_rcd : (dropForces m).rcd = m.rcd := noLnMd_rcd (dropForces_noLnMd m)
@[simp] theorem dropForces_rc : (dropForces m).rc = m.rc := noLnMd_rc (dropForces_noLnMd m)
@[simp] theorem dropForces_pc : (dropForces m).pc = m.pc := noLnMd_pc (dropForces_noLnMd m)
@[simp] theorem dropForces_up : (dropForces m).up = m.up := noLnMd_up (dropForces_noLnMd m)
@[simp] theorem dropForces_sec : (dropForces m).sec = m.sec := noLnMd_sec (dropForces_noLnMd m)
@[simp] theorem dropForces_pr : (dropForces m).pr = m.pr := noLnMd_pr (dropForces_noLnMd m)
@[simp] theorem dropForces_stateOut : (dropForces m).stateOut = m.stateOut := noLnMd_stateOut (dropForces_noLnMd m)

/-- All but can. -/
def Mod.noCan (m : Mod) : Mod :=
  { m with can := ⟨0, [], []⟩ }

theorem noCan_powered {a b : Mod} (h : a.noCan = b.noCan) : a.powered = b.powered := (congrArg Mod.powered h :)
theorem noCan_clk {a b : Mod} (h : a.noCan = b.noCan) : a.clk = b.clk := (congrArg Mod.clk h :)
theorem noCan_freeN {a b : Mod} (h : a.noCan = b.noCan) : a.freeN = b.freeN := (congrArg Mod.freeN h :)
theorem noCan_nv {a b : Mod} (h : a.noCan = b.noCan) : a.nv = b.nv := (congrArg Mod.nv h :)
theorem noCan_cfg {a b : Mod} (h : a.noCan = b.noCan) : a.cfg = b.cfg := (congrArg Mod.cfg h :)
theorem noCan_tm {a b : Mod} (h : a.noCan = b.noCan) : a.tm = b.tm := (congrArg Mod.tm h :)
theorem noCan_ln {a b : Mod} (h : a.noCan = b.noCan) : a.ln = b.ln := (congrArg Mod.ln h :)
theorem noCan_md {a b : Mod} (h : a.noCan = b.noCan) : a.md = b.md := (congrArg Mod.md h :)
theorem noCan_pw {a b : Mod} (h : a.noCan = b.noCan) : a.pw = b.pw := (congrArg Mod.pw h :)
theorem noCan_lg {a b : Mod} (h : a.noCan = b.noCan) : a.lg = b.lg := (congrArg Mod.lg h :)
theorem noCan_cur {a b : Mod} (h : a.noCan = b.noCan) : a.cur = b.cur := (congrArg Mod.cur h :)
theorem noCan_nxt {a b : Mod} (h : a.noCan = b.noCan) : a.nxt = b.nxt := (congrArg Mod.nxt h :)
theorem noCan_en {a b : Mod} (h : a.noCan = b.noCan) : a.en = b.en := (congrArg Mod.en h :)
theorem noCan_fio {a b : Mod} (h : a.noCan = b.noCan) : a.fio = b.fio := (congrArg Mod.fio h :)
theorem noCan_bt {a b : Mod} (h : a.noCan = b.noCan) : a.bt = b.bt := (congrArg Mod.bt h :)
theorem noCan_str {a b : Mod} (h : a.noCan = b.noCan) : a.str = b.str := (congrArg Mod.str h :)
theorem noCan_net {a b : Mod} (h : a.noCan = b.noCan) : a.net = b.net := (congrArg Mod.net h :)
theorem noCan_host {a b : Mod} (h : a.noCan = b.noCan) : a.host = b.host := (congrArg Mod.host h :)
theorem noCan_rcd {a b : Mod} (h : a.noCan = b.noCan) : a.rcd = b.rcd := (congrArg Mod.rcd h :)
theorem noCan_rc {a b : Mod} (h : a.noCan = b.noCan) : a.rc = b.rc := (congrArg Mod.rc h :)
theorem noCan_pc {a b : Mod} (h : a.noCan = b.noCan) : a.pc = b.pc := (congrArg Mod.pc h :)
theorem noCan_up {a b : Mod} (h : a.noCan = b.noCan) : a.up = b.up := (congrArg Mod.up h :)
theorem noCan_sec {a b : Mod} (h : a.noCan = b.noCan) : a.sec = b.sec := (congrArg Mod.sec h :)
theorem noCan_pr {a b : Mod} (h : a.noCan = b.noCan) : a.pr = b.pr := (congrArg Mod.pr h :)
theorem noCan_stateOut {a b : Mod} (h : a.noCan = b.noCan) : a.stateOut = b.stateOut := (congrArg Mod.stateOut h :)

@[simp] theorem updChan_noCan (n : Nat) (g : CanChan → CanChan) : (updChan n g m).noCan = m.noCan := rfl
@[simp] theorem updChan_powered (n : Nat) (g : CanChan → CanChan) : (updChan n g m).powered = m.powered := noCan_powered (updChan_noCan m n g)
@[simp] theorem updChan_clk (n : Nat) (g : CanChan → CanChan) : (updChan n g m).clk = m.clk := noCan_clk (updChan_noCan m n g)
@[simp] theorem updChan_freeN (n : Nat) (g : CanChan → CanChan) : (updChan n g m).freeN = m.freeN := noCan_freeN (updChan_noCan m n g)
@[simp] theorem updChan_nv (n : Nat) (g : CanChan → CanChan) : (updChan n g m).nv = m.nv := noCan_nv (updChan_noCan m n g)
@[simp] theorem updChan_cfg (n : Nat) (g : CanChan → CanChan) : (updChan n g m).cfg = m.cfg := noCan_cfg (updChan_noCan m n g)
@[simp] theorem updChan_tm (n : Nat) (g : CanChan → CanChan) : (updChan n g m).tm = m.tm := noCan_tm (updChan_noCan m n g)
@[simp] theorem updChan_ln (n : Nat) (g : CanChan → CanChan) : (updChan n g m).ln = m.ln := noCan_ln (updChan_noCan m n g)
@[simp] theorem updChan_md (n : Nat) (g : CanChan → CanChan) : (updChan n g m).md = m.md := noCan_md (updChan_noCan m n g)
@[simp] theorem updChan_pw (n : Nat) (g : CanChan → CanChan) : (updChan n g m).pw = m.pw := noCan_pw (updChan_noCan m n g)
@[simp] theorem updChan_lg (n : Nat) (g : CanChan → CanChan) : (updChan n g m).lg = m.lg := noCan_lg (updChan_noCan m n g)
@[simp] theorem updChan_cur (n : Nat) (g : CanChan → CanChan) : (updChan n g m).cur = m.cur := noCan_cur (updChan_noCan m n g)
@[simp] theorem updChan_nxt (n : Nat) (g : CanChan → CanChan) : (updChan n g m).nxt = m.nxt := noCan_nxt (updChan_noCan m n g)
@[simp] theorem updChan_en (n : Nat) (g : CanChan → CanChan) : (updChan n g m).en = m.en := noCan_en (updChan_noCan m n g)
@[simp] theorem updChan_fio (n : Nat) (g : CanChan → CanChan) : (updChan n g m).fio = m.fio := noCan_fio (updChan_noCan m n g)
@[simp] theorem updChan_bt (n : Nat) (g : CanChan → CanChan) : (updChan n g m).bt = m.bt := noCan_bt (updChan_noCan m n g)
@[simp] theorem updChan_str (n : Nat) (g : CanChan → CanChan) : (updChan n g m).str = m.str := noCan_str (updChan_noCan m n g)
@[simp] theorem updChan_net (n : Nat) (g : CanChan → CanChan) : (updChan n g m).net = m.net := noCan_net (updChan_noCan m n g)
@[simp] theorem updChan_host (n : Nat) (g : CanChan → CanChan) : (updChan n g m).host = m.host := noCan_host (updChan_noCan m n g)
@[simp] theorem updChan_rcd (n : Nat) (g : CanChan → CanChan) : (updChan n g m).rcd = m.rcd := noCan_rcd (updChan_noCan m n g)
@[simp] theorem updChan_rc (n : Nat) (g : CanChan → CanChan) : (updChan n g m).rc = m.rc := noCan_rc (updChan_noCan m n g)
@[simp] theorem updChan_pc (n : Nat) (g : CanChan → CanChan) : (updChan n g m).pc = m.pc := noCan_pc (updChan_noCan m n g)
@[simp] theorem updChan_up (n : Nat) (g : CanChan → CanChan) : (updChan n g m).up = m.up := noCan_up (updChan_noCan m n g)
@[simp] theorem updChan_sec (n : Nat) (g : CanChan → CanChan) : (updChan n g m).sec = m.sec := noCan_sec (updChan_noCan m n g)
@[simp] theorem updChan_pr (n : Nat) (g : CanChan → CanChan) : (updChan n g m).pr = m.pr := noCan_pr (updChan_noCan m n g)
@[simp] theorem updChan_stateOut (n : Nat) (g : CanChan → CanChan) : (updChan n g m).stateOut = m.stateOut := noCan_stateOut (updChan_noCan m n g)

@[simp] theorem countEnd_noCan (n how : Nat) : (countEnd n how m).noCan = m.noCan := rfl
@[simp] theorem countEnd_powered (n how : Nat) : (countEnd n how m).powered = m.powered := noCan_powered (countEnd_noCan m n how)
@[simp] theorem countEnd_clk (n how : Nat) : (countEnd n how m).clk = m.clk := noCan_clk (countEnd_noCan m n how)
@[simp] theorem countEnd_freeN (n how : Nat) : (countEnd n how m).freeN = m.freeN := noCan_freeN (countEnd_noCan m n how)
@[simp] theorem countEnd_nv (n how : Nat) : (countEnd n how m).nv = m.nv := noCan_nv (countEnd_noCan m n how)
@[simp] theorem countEnd_cfg (n how : Nat) : (countEnd n how m).cfg = m.cfg := noCan_cfg (countEnd_noCan m n how)
@[simp] theorem countEnd_tm (n how : Nat) : (countEnd n how m).tm = m.tm := noCan_tm (countEnd_noCan m n how)
@[simp] theorem countEnd_ln (n how : Nat) : (countEnd n how m).ln = m.ln := noCan_ln (countEnd_noCan m n how)
@[simp] theorem countEnd_md (n how : Nat) : (countEnd n how m).md = m.md := noCan_md (countEnd_noCan m n how)
@[simp] theorem countEnd_pw (n how : Nat) : (countEnd n how m).pw = m.pw := noCan_pw (countEnd_noCan m n how)
@[simp] theorem countEnd_lg (n how : Nat) : (countEnd n how m).lg = m.lg := noCan_lg (countEnd_noCan m n how)
@[simp] theorem countEnd_cur (n how : Nat) : (countEnd n how m).cur = m.cur := noCan_cur (countEnd_noCan m n how)
@[simp] theorem countEnd_nxt (n how : Nat) : (countEnd n how m).nxt = m.nxt := noCan_nxt (countEnd_noCan m n how)
@[simp] theorem countEnd_en (n how : Nat) : (countEnd n how m).en = m.en := noCan_en (countEnd_noCan m n how)
@[simp] theorem countEnd_fio (n how : Nat) : (countEnd n how m).fio = m.fio := noCan_fio (countEnd_noCan m n how)
@[simp] theorem countEnd_bt (n how : Nat) : (countEnd n how m).bt = m.bt := noCan_bt (countEnd_noCan m n how)
@[simp] theorem countEnd_str (n how : Nat) : (countEnd n how m).str = m.str := noCan_str (countEnd_noCan m n how)
@[simp] theorem countEnd_net (n how : Nat) : (countEnd n how m).net = m.net := noCan_net (countEnd_noCan m n how)
@[simp] theorem countEnd_host (n how : Nat) : (countEnd n how m).host = m.host := noCan_host (countEnd_noCan m n how)
@[simp] theorem countEnd_rcd (n how : Nat) : (countEnd n how m).rcd = m.rcd := noCan_rcd (countEnd_noCan m n how)
@[simp] theorem countEnd_rc (n how : Nat) : (countEnd n how m).rc = m.rc := noCan_rc (countEnd_noCan m n how)
@[simp] theorem countEnd_pc (n how : Nat) : (countEnd n how m).pc = m.pc := noCan_pc (countEnd_noCan m n how)
@[simp] theorem countEnd_up (n how : Nat) : (countEnd n how m).up = m.up := noCan_up (countEnd_noCan m n how)
@[simp] theorem countEnd_sec (n how : Nat) : (countEnd n how m).sec = m.sec := noCan_sec (countEnd_noCan m n how)
@[simp] theorem countEnd_pr (n how : Nat) : (countEnd n how m).pr = m.pr := noCan_pr (countEnd_noCan m n how)
@[simp] theorem countEnd_stateOut (n how : Nat) : (countEnd n how m).stateOut = m.stateOut := noCan_stateOut (countEnd_noCan m n how)

/-- All but freeN, can. -/
def Mod.noFreeNCan (m : Mod) : Mod :=
  { m with freeN := 0, can := ⟨0, [], []⟩ }

theorem noFreeNCan_powered {a b : Mod} (h : a.noFreeNCan = b.noFreeNCan) : a.powered = b.powered := (congrArg Mod.powered h :)
theorem noFreeNCan_clk {a b : Mod} (h : a.noFreeNCan = b.noFreeNCan) : a.clk = b.clk := (congrArg Mod.clk h :)
theorem noFreeNCan_nv {a b : Mod} (h : a.noFreeNCan = b.noFreeNCan) : a.nv = b.nv := (congrArg Mod.nv h :)
theorem noFreeNCan_cfg {a b : Mod} (h : a.noFreeNCan = b.noFreeNCan) : a.cfg = b.cfg := (congrArg Mod.cfg h :)
theorem noFreeNCan_tm {a b : Mod} (h : a.noFreeNCan = b.noFreeNCan) : a.tm = b.tm := (congrArg Mod.tm h :)
theorem noFreeNCan_ln {a b : Mod} (h : a.noFreeNCan = b.noFreeNCan) : a.ln = b.ln := (congrArg Mod.ln h :)
theorem noFreeNCan_md {a b : Mod} (h : a.noFreeNCan = b.noFreeNCan) : a.md = b.md := (congrArg Mod.md h :)
theorem noFreeNCan_pw {a b : Mod} (h : a.noFreeNCan = b.noFreeNCan) : a.pw = b.pw := (congrArg Mod.pw h :)
theorem noFreeNCan_lg {a b : Mod} (h : a.noFreeNCan = b.noFreeNCan) : a.lg = b.lg := (congrArg Mod.lg h :)
theorem noFreeNCan_cur {a b : Mod} (h : a.noFreeNCan = b.noFreeNCan) : a.cur = b.cur := (congrArg Mod.cur h :)
theorem noFreeNCan_nxt {a b : Mod} (h : a.noFreeNCan = b.noFreeNCan) : a.nxt = b.nxt := (congrArg Mod.nxt h :)
theorem noFreeNCan_en {a b : Mod} (h : a.noFreeNCan = b.noFreeNCan) : a.en = b.en := (congrArg Mod.en h :)
theorem noFreeNCan_fio {a b : Mod} (h : a.noFreeNCan = b.noFreeNCan) : a.fio = b.fio := (congrArg Mod.fio h :)
theorem noFreeNCan_bt {a b : Mod} (h : a.noFreeNCan = b.noFreeNCan) : a.bt = b.bt := (congrArg Mod.bt h :)
theorem noFreeNCan_str {a b : Mod} (h : a.noFreeNCan = b.noFreeNCan) : a.str = b.str := (congrArg Mod.str h :)
theorem noFreeNCan_net {a b : Mod} (h : a.noFreeNCan = b.noFreeNCan) : a.net = b.net := (congrArg Mod.net h :)
theorem noFreeNCan_host {a b : Mod} (h : a.noFreeNCan = b.noFreeNCan) : a.host = b.host := (congrArg Mod.host h :)
theorem noFreeNCan_rcd {a b : Mod} (h : a.noFreeNCan = b.noFreeNCan) : a.rcd = b.rcd := (congrArg Mod.rcd h :)
theorem noFreeNCan_rc {a b : Mod} (h : a.noFreeNCan = b.noFreeNCan) : a.rc = b.rc := (congrArg Mod.rc h :)
theorem noFreeNCan_pc {a b : Mod} (h : a.noFreeNCan = b.noFreeNCan) : a.pc = b.pc := (congrArg Mod.pc h :)
theorem noFreeNCan_up {a b : Mod} (h : a.noFreeNCan = b.noFreeNCan) : a.up = b.up := (congrArg Mod.up h :)
theorem noFreeNCan_sec {a b : Mod} (h : a.noFreeNCan = b.noFreeNCan) : a.sec = b.sec := (congrArg Mod.sec h :)
theorem noFreeNCan_pr {a b : Mod} (h : a.noFreeNCan = b.noFreeNCan) : a.pr = b.pr := (congrArg Mod.pr h :)
theorem noFreeNCan_stateOut {a b : Mod} (h : a.noFreeNCan = b.noFreeNCan) : a.stateOut = b.stateOut := (congrArg Mod.stateOut h :)

@[simp] theorem openStarts_noFreeNCan (n : Nat) : (openStarts n m).noFreeNCan = m.noFreeNCan := rfl
@[simp] theorem openStarts_powered (n : Nat) : (openStarts n m).powered = m.powered := noFreeNCan_powered (openStarts_noFreeNCan m n)
@[simp] theorem openStarts_clk (n : Nat) : (openStarts n m).clk = m.clk := noFreeNCan_clk (openStarts_noFreeNCan m n)
@[simp] theorem openStarts_nv (n : Nat) : (openStarts n m).nv = m.nv := noFreeNCan_nv (openStarts_noFreeNCan m n)
@[simp] theorem openStarts_cfg (n : Nat) : (openStarts n m).cfg = m.cfg := noFreeNCan_cfg (openStarts_noFreeNCan m n)
@[simp] theorem openStarts_tm (n : Nat) : (openStarts n m).tm = m.tm := noFreeNCan_tm (openStarts_noFreeNCan m n)
@[simp] theorem openStarts_ln (n : Nat) : (openStarts n m).ln = m.ln := noFreeNCan_ln (openStarts_noFreeNCan m n)
@[simp] theorem openStarts_md (n : Nat) : (openStarts n m).md = m.md := noFreeNCan_md (openStarts_noFreeNCan m n)
@[simp] theorem openStarts_pw (n : Nat) : (openStarts n m).pw = m.pw := noFreeNCan_pw (openStarts_noFreeNCan m n)
@[simp] theorem openStarts_lg (n : Nat) : (openStarts n m).lg = m.lg := noFreeNCan_lg (openStarts_noFreeNCan m n)
@[simp] theorem openStarts_cur (n : Nat) : (openStarts n m).cur = m.cur := noFreeNCan_cur (openStarts_noFreeNCan m n)
@[simp] theorem openStarts_nxt (n : Nat) : (openStarts n m).nxt = m.nxt := noFreeNCan_nxt (openStarts_noFreeNCan m n)
@[simp] theorem openStarts_en (n : Nat) : (openStarts n m).en = m.en := noFreeNCan_en (openStarts_noFreeNCan m n)
@[simp] theorem openStarts_fio (n : Nat) : (openStarts n m).fio = m.fio := noFreeNCan_fio (openStarts_noFreeNCan m n)
@[simp] theorem openStarts_bt (n : Nat) : (openStarts n m).bt = m.bt := noFreeNCan_bt (openStarts_noFreeNCan m n)
@[simp] theorem openStarts_str (n : Nat) : (openStarts n m).str = m.str := noFreeNCan_str (openStarts_noFreeNCan m n)
@[simp] theorem openStarts_net (n : Nat) : (openStarts n m).net = m.net := noFreeNCan_net (openStarts_noFreeNCan m n)
@[simp] theorem openStarts_host (n : Nat) : (openStarts n m).host = m.host := noFreeNCan_host (openStarts_noFreeNCan m n)
@[simp] theorem openStarts_rcd (n : Nat) : (openStarts n m).rcd = m.rcd := noFreeNCan_rcd (openStarts_noFreeNCan m n)
@[simp] theorem openStarts_rc (n : Nat) : (openStarts n m).rc = m.rc := noFreeNCan_rc (openStarts_noFreeNCan m n)
@[simp] theorem openStarts_pc (n : Nat) : (openStarts n m).pc = m.pc := noFreeNCan_pc (openStarts_noFreeNCan m n)
@[simp] theorem openStarts_up (n : Nat) : (openStarts n m).up = m.up := noFreeNCan_up (openStarts_noFreeNCan m n)
@[simp] theorem openStarts_sec (n : Nat) : (openStarts n m).sec = m.sec := noFreeNCan_sec (openStarts_noFreeNCan m n)
@[simp] theorem openStarts_pr (n : Nat) : (openStarts n m).pr = m.pr := noFreeNCan_pr (openStarts_noFreeNCan m n)
@[simp] theorem openStarts_stateOut (n : Nat) : (openStarts n m).stateOut = m.stateOut := noFreeNCan_stateOut (openStarts_noFreeNCan m n)

@[simp] theorem setHostTx_noCan (n buf : Nat) (h : HostTx) : (setHostTx n buf h m).noCan = m.noCan := rfl
@[simp] theorem setHostTx_powered (n buf : Nat) (h : HostTx) : (setHostTx n buf h m).powered = m.powered := noCan_powered (setHostTx_noCan m n buf h)
@[simp] theorem setHostTx_clk (n buf : Nat) (h : HostTx) : (setHostTx n buf h m).clk = m.clk := noCan_clk (setHostTx_noCan m n buf h)
@[simp] theorem setHostTx_freeN (n buf : Nat) (h : HostTx) : (setHostTx n buf h m).freeN = m.freeN := noCan_freeN (setHostTx_noCan m n buf h)
@[simp] theorem setHostTx_nv (n buf : Nat) (h : HostTx) : (setHostTx n buf h m).nv = m.nv := noCan_nv (setHostTx_noCan m n buf h)
@[simp] theorem setHostTx_cfg (n buf : Nat) (h : HostTx) : (setHostTx n buf h m).cfg = m.cfg := noCan_cfg (setHostTx_noCan m n buf h)
@[simp] theorem setHostTx_tm (n buf : Nat) (h : HostTx) : (setHostTx n buf h m).tm = m.tm := noCan_tm (setHostTx_noCan m n buf h)
@[simp] theorem setHostTx_ln (n buf : Nat) (h : HostTx) : (setHostTx n buf h m).ln = m.ln := noCan_ln (setHostTx_noCan m n buf h)
@[simp] theorem setHostTx_md (n buf : Nat) (h : HostTx) : (setHostTx n buf h m).md = m.md := noCan_md (setHostTx_noCan m n buf h)
@[simp] theorem setHostTx_pw (n buf : Nat) (h : HostTx) : (setHostTx n buf h m).pw = m.pw := noCan_pw (setHostTx_noCan m n buf h)
@[simp] theorem setHostTx_lg (n buf : Nat) (h : HostTx) : (setHostTx n buf h m).lg = m.lg := noCan_lg (setHostTx_noCan m n buf h)
@[simp] theorem setHostTx_cur (n buf : Nat) (h : HostTx) : (setHostTx n buf h m).cur = m.cur := noCan_cur (setHostTx_noCan m n buf h)
@[simp] theorem setHostTx_nxt (n buf : Nat) (h : HostTx) : (setHostTx n buf h m).nxt = m.nxt := noCan_nxt (setHostTx_noCan m n buf h)
@[simp] theorem setHostTx_en (n buf : Nat) (h : HostTx) : (setHostTx n buf h m).en = m.en := noCan_en (setHostTx_noCan m n buf h)
@[simp] theorem setHostTx_fio (n buf : Nat) (h : HostTx) : (setHostTx n buf h m).fio = m.fio := noCan_fio (setHostTx_noCan m n buf h)
@[simp] theorem setHostTx_bt (n buf : Nat) (h : HostTx) : (setHostTx n buf h m).bt = m.bt := noCan_bt (setHostTx_noCan m n buf h)
@[simp] theorem setHostTx_str (n buf : Nat) (h : HostTx) : (setHostTx n buf h m).str = m.str := noCan_str (setHostTx_noCan m n buf h)
@[simp] theorem setHostTx_net (n buf : Nat) (h : HostTx) : (setHostTx n buf h m).net = m.net := noCan_net (setHostTx_noCan m n buf h)
@[simp] theorem setHostTx_host (n buf : Nat) (h : HostTx) : (setHostTx n buf h m).host = m.host := noCan_host (setHostTx_noCan m n buf h)
@[simp] theorem setHostTx_rcd (n buf : Nat) (h : HostTx) : (setHostTx n buf h m).rcd = m.rcd := noCan_rcd (setHostTx_noCan m n buf h)
@[simp] theorem setHostTx_rc (n buf : Nat) (h : HostTx) : (setHostTx n buf h m).rc = m.rc := noCan_rc (setHostTx_noCan m n buf h)
@[simp] theorem setHostTx_pc (n buf : Nat) (h : HostTx) : (setHostTx n buf h m).pc = m.pc := noCan_pc (setHostTx_noCan m n buf h)
@[simp] theorem setHostTx_up (n buf : Nat) (h : HostTx) : (setHostTx n buf h m).up = m.up := noCan_up (setHostTx_noCan m n buf h)
@[simp] theorem setHostTx_sec (n buf : Nat) (h : HostTx) : (setHostTx n buf h m).sec = m.sec := noCan_sec (setHostTx_noCan m n buf h)
@[simp] theorem setHostTx_pr (n buf : Nat) (h : HostTx) : (setHostTx n buf h m).pr = m.pr := noCan_pr (setHostTx_noCan m n buf h)
@[simp] theorem setHostTx_stateOut (n buf : Nat) (h : HostTx) : (setHostTx n buf h m).stateOut = m.stateOut := noCan_stateOut (setHostTx_noCan m n buf h)

@[simp] theorem endHostTx_noHP (n buf code detail : Nat) : (endHostTx n buf code detail m).noHP = m.noHP := by
  unfold endHostTx; dsimp only; (repeat' split) <;> simp [Mod.noHP]
@[simp] theorem endHostTx_powered (n buf code detail : Nat) : (endHostTx n buf code detail m).powered = m.powered := noHP_powered (endHostTx_noHP m n buf code detail)
@[simp] theorem endHostTx_clk (n buf code detail : Nat) : (endHostTx n buf code detail m).clk = m.clk := noHP_clk (endHostTx_noHP m n buf code detail)
@[simp] theorem endHostTx_freeN (n buf code detail : Nat) : (endHostTx n buf code detail m).freeN = m.freeN := noHP_freeN (endHostTx_noHP m n buf code detail)
@[simp] theorem endHostTx_nv (n buf code detail : Nat) : (endHostTx n buf code detail m).nv = m.nv := noHP_nv (endHostTx_noHP m n buf code detail)
@[simp] theorem endHostTx_cfg (n buf code detail : Nat) : (endHostTx n buf code detail m).cfg = m.cfg := noHP_cfg (endHostTx_noHP m n buf code detail)
@[simp] theorem endHostTx_tm (n buf code detail : Nat) : (endHostTx n buf code detail m).tm = m.tm := noHP_tm (endHostTx_noHP m n buf code detail)
@[simp] theorem endHostTx_ln (n buf code detail : Nat) : (endHostTx n buf code detail m).ln = m.ln := noHP_ln (endHostTx_noHP m n buf code detail)
@[simp] theorem endHostTx_md (n buf code detail : Nat) : (endHostTx n buf code detail m).md = m.md := noHP_md (endHostTx_noHP m n buf code detail)
@[simp] theorem endHostTx_pw (n buf code detail : Nat) : (endHostTx n buf code detail m).pw = m.pw := noHP_pw (endHostTx_noHP m n buf code detail)
@[simp] theorem endHostTx_lg (n buf code detail : Nat) : (endHostTx n buf code detail m).lg = m.lg := noHP_lg (endHostTx_noHP m n buf code detail)
@[simp] theorem endHostTx_cur (n buf code detail : Nat) : (endHostTx n buf code detail m).cur = m.cur := noHP_cur (endHostTx_noHP m n buf code detail)
@[simp] theorem endHostTx_nxt (n buf code detail : Nat) : (endHostTx n buf code detail m).nxt = m.nxt := noHP_nxt (endHostTx_noHP m n buf code detail)
@[simp] theorem endHostTx_en (n buf code detail : Nat) : (endHostTx n buf code detail m).en = m.en := noHP_en (endHostTx_noHP m n buf code detail)
@[simp] theorem endHostTx_fio (n buf code detail : Nat) : (endHostTx n buf code detail m).fio = m.fio := noHP_fio (endHostTx_noHP m n buf code detail)
@[simp] theorem endHostTx_bt (n buf code detail : Nat) : (endHostTx n buf code detail m).bt = m.bt := noHP_bt (endHostTx_noHP m n buf code detail)
@[simp] theorem endHostTx_str (n buf code detail : Nat) : (endHostTx n buf code detail m).str = m.str := noHP_str (endHostTx_noHP m n buf code detail)
@[simp] theorem endHostTx_net (n buf code detail : Nat) : (endHostTx n buf code detail m).net = m.net := noHP_net (endHostTx_noHP m n buf code detail)
@[simp] theorem endHostTx_rcd (n buf code detail : Nat) : (endHostTx n buf code detail m).rcd = m.rcd := noHP_rcd (endHostTx_noHP m n buf code detail)
@[simp] theorem endHostTx_rc (n buf code detail : Nat) : (endHostTx n buf code detail m).rc = m.rc := noHP_rc (endHostTx_noHP m n buf code detail)
@[simp] theorem endHostTx_pc (n buf code detail : Nat) : (endHostTx n buf code detail m).pc = m.pc := noHP_pc (endHostTx_noHP m n buf code detail)
@[simp] theorem endHostTx_up (n buf code detail : Nat) : (endHostTx n buf code detail m).up = m.up := noHP_up (endHostTx_noHP m n buf code detail)
@[simp] theorem endHostTx_sec (n buf code detail : Nat) : (endHostTx n buf code detail m).sec = m.sec := noHP_sec (endHostTx_noHP m n buf code detail)
@[simp] theorem endHostTx_stateOut (n buf code detail : Nat) : (endHostTx n buf code detail m).stateOut = m.stateOut := noHP_stateOut (endHostTx_noHP m n buf code detail)

/-- All but can, host, rcd. -/
def Mod.noCanHostRcd (m : Mod) : Mod :=
  { m with can := ⟨0, [], []⟩, host := HostIf.fresh, rcd := Recorder.fresh }

theorem noCanHostRcd_powered {a b : Mod} (h : a.noCanHostRcd = b.noCanHostRcd) : a.powered = b.powered := (congrArg Mod.powered h :)
theorem noCanHostRcd_clk {a b : Mod} (h : a.noCanHostRcd = b.noCanHostRcd) : a.clk = b.clk := (congrArg Mod.clk h :)
theorem noCanHostRcd_freeN {a b : Mod} (h : a.noCanHostRcd = b.noCanHostRcd) : a.freeN = b.freeN := (congrArg Mod.freeN h :)
theorem noCanHostRcd_nv {a b : Mod} (h : a.noCanHostRcd = b.noCanHostRcd) : a.nv = b.nv := (congrArg Mod.nv h :)
theorem noCanHostRcd_cfg {a b : Mod} (h : a.noCanHostRcd = b.noCanHostRcd) : a.cfg = b.cfg := (congrArg Mod.cfg h :)
theorem noCanHostRcd_tm {a b : Mod} (h : a.noCanHostRcd = b.noCanHostRcd) : a.tm = b.tm := (congrArg Mod.tm h :)
theorem noCanHostRcd_ln {a b : Mod} (h : a.noCanHostRcd = b.noCanHostRcd) : a.ln = b.ln := (congrArg Mod.ln h :)
theorem noCanHostRcd_md {a b : Mod} (h : a.noCanHostRcd = b.noCanHostRcd) : a.md = b.md := (congrArg Mod.md h :)
theorem noCanHostRcd_pw {a b : Mod} (h : a.noCanHostRcd = b.noCanHostRcd) : a.pw = b.pw := (congrArg Mod.pw h :)
theorem noCanHostRcd_lg {a b : Mod} (h : a.noCanHostRcd = b.noCanHostRcd) : a.lg = b.lg := (congrArg Mod.lg h :)
theorem noCanHostRcd_cur {a b : Mod} (h : a.noCanHostRcd = b.noCanHostRcd) : a.cur = b.cur := (congrArg Mod.cur h :)
theorem noCanHostRcd_nxt {a b : Mod} (h : a.noCanHostRcd = b.noCanHostRcd) : a.nxt = b.nxt := (congrArg Mod.nxt h :)
theorem noCanHostRcd_en {a b : Mod} (h : a.noCanHostRcd = b.noCanHostRcd) : a.en = b.en := (congrArg Mod.en h :)
theorem noCanHostRcd_fio {a b : Mod} (h : a.noCanHostRcd = b.noCanHostRcd) : a.fio = b.fio := (congrArg Mod.fio h :)
theorem noCanHostRcd_bt {a b : Mod} (h : a.noCanHostRcd = b.noCanHostRcd) : a.bt = b.bt := (congrArg Mod.bt h :)
theorem noCanHostRcd_str {a b : Mod} (h : a.noCanHostRcd = b.noCanHostRcd) : a.str = b.str := (congrArg Mod.str h :)
theorem noCanHostRcd_net {a b : Mod} (h : a.noCanHostRcd = b.noCanHostRcd) : a.net = b.net := (congrArg Mod.net h :)
theorem noCanHostRcd_rc {a b : Mod} (h : a.noCanHostRcd = b.noCanHostRcd) : a.rc = b.rc := (congrArg Mod.rc h :)
theorem noCanHostRcd_pc {a b : Mod} (h : a.noCanHostRcd = b.noCanHostRcd) : a.pc = b.pc := (congrArg Mod.pc h :)
theorem noCanHostRcd_up {a b : Mod} (h : a.noCanHostRcd = b.noCanHostRcd) : a.up = b.up := (congrArg Mod.up h :)
theorem noCanHostRcd_sec {a b : Mod} (h : a.noCanHostRcd = b.noCanHostRcd) : a.sec = b.sec := (congrArg Mod.sec h :)
theorem noCanHostRcd_pr {a b : Mod} (h : a.noCanHostRcd = b.noCanHostRcd) : a.pr = b.pr := (congrArg Mod.pr h :)
theorem noCanHostRcd_stateOut {a b : Mod} (h : a.noCanHostRcd = b.noCanHostRcd) : a.stateOut = b.stateOut := (congrArg Mod.stateOut h :)

@[simp] theorem abortVital_noCanHostRcd (n num reason : Nat) : (abortVital n num reason m).noCanHostRcd = m.noCanHostRcd := by
  unfold abortVital; dsimp only; (repeat' split) <;> simp [Mod.noCanHostRcd]
@[simp] theorem abortVital_powered (n num reason : Nat) : (abortVital n num reason m).powered = m.powered := noCanHostRcd_powered (abortVital_noCanHostRcd m n num reason)
@[simp] theorem abortVital_clk (n num reason : Nat) : (abortVital n num reason m).clk = m.clk := noCanHostRcd_clk (abortVital_noCanHostRcd m n num reason)
@[simp] theorem abortVital_freeN (n num reason : Nat) : (abortVital n num reason m).freeN = m.freeN := noCanHostRcd_freeN (abortVital_noCanHostRcd m n num reason)
@[simp] theorem abortVital_nv (n num reason : Nat) : (abortVital n num reason m).nv = m.nv := noCanHostRcd_nv (abortVital_noCanHostRcd m n num reason)
@[simp] theorem abortVital_cfg (n num reason : Nat) : (abortVital n num reason m).cfg = m.cfg := noCanHostRcd_cfg (abortVital_noCanHostRcd m n num reason)
@[simp] theorem abortVital_tm (n num reason : Nat) : (abortVital n num reason m).tm = m.tm := noCanHostRcd_tm (abortVital_noCanHostRcd m n num reason)
@[simp] theorem abortVital_ln (n num reason : Nat) : (abortVital n num reason m).ln = m.ln := noCanHostRcd_ln (abortVital_noCanHostRcd m n num reason)
@[simp] theorem abortVital_md (n num reason : Nat) : (abortVital n num reason m).md = m.md := noCanHostRcd_md (abortVital_noCanHostRcd m n num reason)
@[simp] theorem abortVital_pw (n num reason : Nat) : (abortVital n num reason m).pw = m.pw := noCanHostRcd_pw (abortVital_noCanHostRcd m n num reason)
@[simp] theorem abortVital_lg (n num reason : Nat) : (abortVital n num reason m).lg = m.lg := noCanHostRcd_lg (abortVital_noCanHostRcd m n num reason)
@[simp] theorem abortVital_cur (n num reason : Nat) : (abortVital n num reason m).cur = m.cur := noCanHostRcd_cur (abortVital_noCanHostRcd m n num reason)
@[simp] theorem abortVital_nxt (n num reason : Nat) : (abortVital n num reason m).nxt = m.nxt := noCanHostRcd_nxt (abortVital_noCanHostRcd m n num reason)
@[simp] theorem abortVital_en (n num reason : Nat) : (abortVital n num reason m).en = m.en := noCanHostRcd_en (abortVital_noCanHostRcd m n num reason)
@[simp] theorem abortVital_fio (n num reason : Nat) : (abortVital n num reason m).fio = m.fio := noCanHostRcd_fio (abortVital_noCanHostRcd m n num reason)
@[simp] theorem abortVital_bt (n num reason : Nat) : (abortVital n num reason m).bt = m.bt := noCanHostRcd_bt (abortVital_noCanHostRcd m n num reason)
@[simp] theorem abortVital_str (n num reason : Nat) : (abortVital n num reason m).str = m.str := noCanHostRcd_str (abortVital_noCanHostRcd m n num reason)
@[simp] theorem abortVital_net (n num reason : Nat) : (abortVital n num reason m).net = m.net := noCanHostRcd_net (abortVital_noCanHostRcd m n num reason)
@[simp] theorem abortVital_rc (n num reason : Nat) : (abortVital n num reason m).rc = m.rc := noCanHostRcd_rc (abortVital_noCanHostRcd m n num reason)
@[simp] theorem abortVital_pc (n num reason : Nat) : (abortVital n num reason m).pc = m.pc := noCanHostRcd_pc (abortVital_noCanHostRcd m n num reason)
@[simp] theorem abortVital_up (n num reason : Nat) : (abortVital n num reason m).up = m.up := noCanHostRcd_up (abortVital_noCanHostRcd m n num reason)
@[simp] theorem abortVital_sec (n num reason : Nat) : (abortVital n num reason m).sec = m.sec := noCanHostRcd_sec (abortVital_noCanHostRcd m n num reason)
@[simp] theorem abortVital_pr (n num reason : Nat) : (abortVital n num reason m).pr = m.pr := noCanHostRcd_pr (abortVital_noCanHostRcd m n num reason)
@[simp] theorem abortVital_stateOut (n num reason : Nat) : (abortVital n num reason m).stateOut = m.stateOut := noCanHostRcd_stateOut (abortVital_noCanHostRcd m n num reason)

/-- All but can, host, rcd, pr. -/
def Mod.noCanHostRcdPr (m : Mod) : Mod :=
  { m with can := ⟨0, [], []⟩, host := HostIf.fresh, rcd := Recorder.fresh, pr := Pair.fresh }

theorem noCanHostRcdPr_powered {a b : Mod} (h : a.noCanHostRcdPr = b.noCanHostRcdPr) : a.powered = b.powered := (congrArg Mod.powered h :)
theorem noCanHostRcdPr_clk {a b : Mod} (h : a.noCanHostRcdPr = b.noCanHostRcdPr) : a.clk = b.clk := (congrArg Mod.clk h :)
theorem noCanHostRcdPr_freeN {a b : Mod} (h : a.noCanHostRcdPr = b.noCanHostRcdPr) : a.freeN = b.freeN := (congrArg Mod.freeN h :)
theorem noCanHostRcdPr_nv {a b : Mod} (h : a.noCanHostRcdPr = b.noCanHostRcdPr) : a.nv = b.nv := (congrArg Mod.nv h :)
theorem noCanHostRcdPr_cfg {a b : Mod} (h : a.noCanHostRcdPr = b.noCanHostRcdPr) : a.cfg = b.cfg := (congrArg Mod.cfg h :)
theorem noCanHostRcdPr_tm {a b : Mod} (h : a.noCanHostRcdPr = b.noCanHostRcdPr) : a.tm = b.tm := (congrArg Mod.tm h :)
theorem noCanHostRcdPr_ln {a b : Mod} (h : a.noCanHostRcdPr = b.noCanHostRcdPr) : a.ln = b.ln := (congrArg Mod.ln h :)
theorem noCanHostRcdPr_md {a b : Mod} (h : a.noCanHostRcdPr = b.noCanHostRcdPr) : a.md = b.md := (congrArg Mod.md h :)
theorem noCanHostRcdPr_pw {a b : Mod} (h : a.noCanHostRcdPr = b.noCanHostRcdPr) : a.pw = b.pw := (congrArg Mod.pw h :)
theorem noCanHostRcdPr_lg {a b : Mod} (h : a.noCanHostRcdPr = b.noCanHostRcdPr) : a.lg = b.lg := (congrArg Mod.lg h :)
theorem noCanHostRcdPr_cur {a b : Mod} (h : a.noCanHostRcdPr = b.noCanHostRcdPr) : a.cur = b.cur := (congrArg Mod.cur h :)
theorem noCanHostRcdPr_nxt {a b : Mod} (h : a.noCanHostRcdPr = b.noCanHostRcdPr) : a.nxt = b.nxt := (congrArg Mod.nxt h :)
theorem noCanHostRcdPr_en {a b : Mod} (h : a.noCanHostRcdPr = b.noCanHostRcdPr) : a.en = b.en := (congrArg Mod.en h :)
theorem noCanHostRcdPr_fio {a b : Mod} (h : a.noCanHostRcdPr = b.noCanHostRcdPr) : a.fio = b.fio := (congrArg Mod.fio h :)
theorem noCanHostRcdPr_bt {a b : Mod} (h : a.noCanHostRcdPr = b.noCanHostRcdPr) : a.bt = b.bt := (congrArg Mod.bt h :)
theorem noCanHostRcdPr_str {a b : Mod} (h : a.noCanHostRcdPr = b.noCanHostRcdPr) : a.str = b.str := (congrArg Mod.str h :)
theorem noCanHostRcdPr_net {a b : Mod} (h : a.noCanHostRcdPr = b.noCanHostRcdPr) : a.net = b.net := (congrArg Mod.net h :)
theorem noCanHostRcdPr_rc {a b : Mod} (h : a.noCanHostRcdPr = b.noCanHostRcdPr) : a.rc = b.rc := (congrArg Mod.rc h :)
theorem noCanHostRcdPr_pc {a b : Mod} (h : a.noCanHostRcdPr = b.noCanHostRcdPr) : a.pc = b.pc := (congrArg Mod.pc h :)
theorem noCanHostRcdPr_up {a b : Mod} (h : a.noCanHostRcdPr = b.noCanHostRcdPr) : a.up = b.up := (congrArg Mod.up h :)
theorem noCanHostRcdPr_sec {a b : Mod} (h : a.noCanHostRcdPr = b.noCanHostRcdPr) : a.sec = b.sec := (congrArg Mod.sec h :)
theorem noCanHostRcdPr_stateOut {a b : Mod} (h : a.noCanHostRcdPr = b.noCanHostRcdPr) : a.stateOut = b.stateOut := (congrArg Mod.stateOut h :)

@[simp] theorem abortChannel_noCanHostRcdPr (n reason : Nat) (started : Bool) : (abortChannel n reason started m).noCanHostRcdPr = m.noCanHostRcdPr := by
  unfold abortChannel
  refine (forEach_keeps _ Mod.noCanHostRcdPr _ _ (fun b x => ?_)).trans (forEach_keeps _ Mod.noCanHostRcdPr _ _ (fun b x => ?_)) <;> simp [Mod.noCanHostRcdPr]
@[simp] theorem abortChannel_powered (n reason : Nat) (started : Bool) : (abortChannel n reason started m).powered = m.powered := noCanHostRcdPr_powered (abortChannel_noCanHostRcdPr m n reason started)
@[simp] theorem abortChannel_clk (n reason : Nat) (started : Bool) : (abortChannel n reason started m).clk = m.clk := noCanHostRcdPr_clk (abortChannel_noCanHostRcdPr m n reason started)
@[simp] theorem abortChannel_freeN (n reason : Nat) (started : Bool) : (abortChannel n reason started m).freeN = m.freeN := noCanHostRcdPr_freeN (abortChannel_noCanHostRcdPr m n reason started)
@[simp] theorem abortChannel_nv (n reason : Nat) (started : Bool) : (abortChannel n reason started m).nv = m.nv := noCanHostRcdPr_nv (abortChannel_noCanHostRcdPr m n reason started)
@[simp] theorem abortChannel_cfg (n reason : Nat) (started : Bool) : (abortChannel n reason started m).cfg = m.cfg := noCanHostRcdPr_cfg (abortChannel_noCanHostRcdPr m n reason started)
@[simp] theorem abortChannel_tm (n reason : Nat) (started : Bool) : (abortChannel n reason started m).tm = m.tm := noCanHostRcdPr_tm (abortChannel_noCanHostRcdPr m n reason started)
@[simp] theorem abortChannel_ln (n reason : Nat) (started : Bool) : (abortChannel n reason started m).ln = m.ln := noCanHostRcdPr_ln (abortChannel_noCanHostRcdPr m n reason started)
@[simp] theorem abortChannel_md (n reason : Nat) (started : Bool) : (abortChannel n reason started m).md = m.md := noCanHostRcdPr_md (abortChannel_noCanHostRcdPr m n reason started)
@[simp] theorem abortChannel_pw (n reason : Nat) (started : Bool) : (abortChannel n reason started m).pw = m.pw := noCanHostRcdPr_pw (abortChannel_noCanHostRcdPr m n reason started)
@[simp] theorem abortChannel_lg (n reason : Nat) (started : Bool) : (abortChannel n reason started m).lg = m.lg := noCanHostRcdPr_lg (abortChannel_noCanHostRcdPr m n reason started)
@[simp] theorem abortChannel_cur (n reason : Nat) (started : Bool) : (abortChannel n reason started m).cur = m.cur := noCanHostRcdPr_cur (abortChannel_noCanHostRcdPr m n reason started)
@[simp] theorem abortChannel_nxt (n reason : Nat) (started : Bool) : (abortChannel n reason started m).nxt = m.nxt := noCanHostRcdPr_nxt (abortChannel_noCanHostRcdPr m n reason started)
@[simp] theorem abortChannel_en (n reason : Nat) (started : Bool) : (abortChannel n reason started m).en = m.en := noCanHostRcdPr_en (abortChannel_noCanHostRcdPr m n reason started)
@[simp] theorem abortChannel_fio (n reason : Nat) (started : Bool) : (abortChannel n reason started m).fio = m.fio := noCanHostRcdPr_fio (abortChannel_noCanHostRcdPr m n reason started)
@[simp] theorem abortChannel_bt (n reason : Nat) (started : Bool) : (abortChannel n reason started m).bt = m.bt := noCanHostRcdPr_bt (abortChannel_noCanHostRcdPr m n reason started)
@[simp] theorem abortChannel_str (n reason : Nat) (started : Bool) : (abortChannel n reason started m).str = m.str := noCanHostRcdPr_str (abortChannel_noCanHostRcdPr m n reason started)
@[simp] theorem abortChannel_net (n reason : Nat) (started : Bool) : (abortChannel n reason started m).net = m.net := noCanHostRcdPr_net (abortChannel_noCanHostRcdPr m n reason started)
@[simp] theorem abortChannel_rc (n reason : Nat) (started : Bool) : (abortChannel n reason started m).rc = m.rc := noCanHostRcdPr_rc (abortChannel_noCanHostRcdPr m n reason started)
@[simp] theorem abortChannel_pc (n reason : Nat) (started : Bool) : (abortChannel n reason started m).pc = m.pc := noCanHostRcdPr_pc (abortChannel_noCanHostRcdPr m n reason started)
@[simp] theorem abortChannel_up (n reason : Nat) (started : Bool) : (abortChannel n reason started m).up = m.up := noCanHostRcdPr_up (abortChannel_noCanHostRcdPr m n reason started)
@[simp] theorem abortChannel_sec (n reason : Nat) (started : Bool) : (abortChannel n reason started m).sec = m.sec := noCanHostRcdPr_sec (abortChannel_noCanHostRcdPr m n reason started)
@[simp] theorem abortChannel_stateOut (n reason : Nat) (started : Bool) : (abortChannel n reason started m).stateOut = m.stateOut := noCanHostRcdPr_stateOut (abortChannel_noCanHostRcdPr m n reason started)

/-- All but host, rcd, up. -/
def Mod.noHostRcdUp (m : Mod) : Mod :=
  { m with host := HostIf.fresh, rcd := Recorder.fresh, up := Update.fresh }

theorem noHostRcdUp_powered {a b : Mod} (h : a.noHostRcdUp = b.noHostRcdUp) : a.powered = b.powered := (congrArg Mod.powered h :)
theorem noHostRcdUp_clk {a b : Mod} (h : a.noHostRcdUp = b.noHostRcdUp) : a.clk = b.clk := (congrArg Mod.clk h :)
theorem noHostRcdUp_freeN {a b : Mod} (h : a.noHostRcdUp = b.noHostRcdUp) : a.freeN = b.freeN := (congrArg Mod.freeN h :)
theorem noHostRcdUp_nv {a b : Mod} (h : a.noHostRcdUp = b.noHostRcdUp) : a.nv = b.nv := (congrArg Mod.nv h :)
theorem noHostRcdUp_cfg {a b : Mod} (h : a.noHostRcdUp = b.noHostRcdUp) : a.cfg = b.cfg := (congrArg Mod.cfg h :)
theorem noHostRcdUp_tm {a b : Mod} (h : a.noHostRcdUp = b.noHostRcdUp) : a.tm = b.tm := (congrArg Mod.tm h :)
theorem noHostRcdUp_ln {a b : Mod} (h : a.noHostRcdUp = b.noHostRcdUp) : a.ln = b.ln := (congrArg Mod.ln h :)
theorem noHostRcdUp_md {a b : Mod} (h : a.noHostRcdUp = b.noHostRcdUp) : a.md = b.md := (congrArg Mod.md h :)
theorem noHostRcdUp_pw {a b : Mod} (h : a.noHostRcdUp = b.noHostRcdUp) : a.pw = b.pw := (congrArg Mod.pw h :)
theorem noHostRcdUp_lg {a b : Mod} (h : a.noHostRcdUp = b.noHostRcdUp) : a.lg = b.lg := (congrArg Mod.lg h :)
theorem noHostRcdUp_cur {a b : Mod} (h : a.noHostRcdUp = b.noHostRcdUp) : a.cur = b.cur := (congrArg Mod.cur h :)
theorem noHostRcdUp_nxt {a b : Mod} (h : a.noHostRcdUp = b.noHostRcdUp) : a.nxt = b.nxt := (congrArg Mod.nxt h :)
theorem noHostRcdUp_en {a b : Mod} (h : a.noHostRcdUp = b.noHostRcdUp) : a.en = b.en := (congrArg Mod.en h :)
theorem noHostRcdUp_fio {a b : Mod} (h : a.noHostRcdUp = b.noHostRcdUp) : a.fio = b.fio := (congrArg Mod.fio h :)
theorem noHostRcdUp_bt {a b : Mod} (h : a.noHostRcdUp = b.noHostRcdUp) : a.bt = b.bt := (congrArg Mod.bt h :)
theorem noHostRcdUp_str {a b : Mod} (h : a.noHostRcdUp = b.noHostRcdUp) : a.str = b.str := (congrArg Mod.str h :)
theorem noHostRcdUp_can {a b : Mod} (h : a.noHostRcdUp = b.noHostRcdUp) : a.can = b.can := (congrArg Mod.can h :)
theorem noHostRcdUp_net {a b : Mod} (h : a.noHostRcdUp = b.noHostRcdUp) : a.net = b.net := (congrArg Mod.net h :)
theorem noHostRcdUp_rc {a b : Mod} (h : a.noHostRcdUp = b.noHostRcdUp) : a.rc = b.rc := (congrArg Mod.rc h :)
theorem noHostRcdUp_pc {a b : Mod} (h : a.noHostRcdUp = b.noHostRcdUp) : a.pc = b.pc := (congrArg Mod.pc h :)
theorem noHostRcdUp_sec {a b : Mod} (h : a.noHostRcdUp = b.noHostRcdUp) : a.sec = b.sec := (congrArg Mod.sec h :)
theorem noHostRcdUp_pr {a b : Mod} (h : a.noHostRcdUp = b.noHostRcdUp) : a.pr = b.pr := (congrArg Mod.pr h :)
theorem noHostRcdUp_stateOut {a b : Mod} (h : a.noHostRcdUp = b.noHostRcdUp) : a.stateOut = b.stateOut := (congrArg Mod.stateOut h :)

@[simp] theorem endSession_noHostRcdUp : (endSession m).noHostRcdUp = m.noHostRcdUp := by
  unfold endSession; split <;> simp [Mod.noHostRcdUp]
@[simp] theorem endSession_powered : (endSession m).powered = m.powered := noHostRcdUp_powered (endSession_noHostRcdUp m)
@[simp] theorem endSession_clk : (endSession m).clk = m.clk := noHostRcdUp_clk (endSession_noHostRcdUp m)
@[simp] theorem endSession_freeN : (endSession m).freeN = m.freeN := noHostRcdUp_freeN (endSession_noHostRcdUp m)
@[simp] theorem endSession_nv : (endSession m).nv = m.nv := noHostRcdUp_nv (endSession_noHostRcdUp m)
@[simp] theorem endSession_cfg : (endSession m).cfg = m.cfg := noHostRcdUp_cfg (endSession_noHostRcdUp m)
@[simp] theorem endSession_tm : (endSession m).tm = m.tm := noHostRcdUp_tm (endSession_noHostRcdUp m)
@[simp] theorem endSession_ln : (endSession m).ln = m.ln := noHostRcdUp_ln (endSession_noHostRcdUp m)
@[simp] theorem endSession_md : (endSession m).md = m.md := noHostRcdUp_md (endSession_noHostRcdUp m)
@[simp] theorem endSession_pw : (endSession m).pw = m.pw := noHostRcdUp_pw (endSession_noHostRcdUp m)
@[simp] theorem endSession_lg : (endSession m).lg = m.lg := noHostRcdUp_lg (endSession_noHostRcdUp m)
@[simp] theorem endSession_cur : (endSession m).cur = m.cur := noHostRcdUp_cur (endSession_noHostRcdUp m)
@[simp] theorem endSession_nxt : (endSession m).nxt = m.nxt := noHostRcdUp_nxt (endSession_noHostRcdUp m)
@[simp] theorem endSession_en : (endSession m).en = m.en := noHostRcdUp_en (endSession_noHostRcdUp m)
@[simp] theorem endSession_fio : (endSession m).fio = m.fio := noHostRcdUp_fio (endSession_noHostRcdUp m)
@[simp] theorem endSession_bt : (endSession m).bt = m.bt := noHostRcdUp_bt (endSession_noHostRcdUp m)
@[simp] theorem endSession_str : (endSession m).str = m.str := noHostRcdUp_str (endSession_noHostRcdUp m)
@[simp] theorem endSession_can : (endSession m).can = m.can := noHostRcdUp_can (endSession_noHostRcdUp m)
@[simp] theorem endSession_net : (endSession m).net = m.net := noHostRcdUp_net (endSession_noHostRcdUp m)
@[simp] theorem endSession_rc : (endSession m).rc = m.rc := noHostRcdUp_rc (endSession_noHostRcdUp m)
@[simp] theorem endSession_pc : (endSession m).pc = m.pc := noHostRcdUp_pc (endSession_noHostRcdUp m)
@[simp] theorem endSession_sec : (endSession m).sec = m.sec := noHostRcdUp_sec (endSession_noHostRcdUp m)
@[simp] theorem endSession_pr : (endSession m).pr = m.pr := noHostRcdUp_pr (endSession_noHostRcdUp m)
@[simp] theorem endSession_stateOut : (endSession m).stateOut = m.stateOut := noHostRcdUp_stateOut (endSession_noHostRcdUp m)

@[simp] theorem endHostSession_noHostRcdUp : (endHostSession m).noHostRcdUp = m.noHostRcdUp := by
  unfold endHostSession; (repeat' split) <;> simp [Mod.noHostRcdUp]
@[simp] theorem endHostSession_powered : (endHostSession m).powered = m.powered := noHostRcdUp_powered (endHostSession_noHostRcdUp m)
@[simp] theorem endHostSession_clk : (endHostSession m).clk = m.clk := noHostRcdUp_clk (endHostSession_noHostRcdUp m)
@[simp] theorem endHostSession_freeN : (endHostSession m).freeN = m.freeN := noHostRcdUp_freeN (endHostSession_noHostRcdUp m)
@[simp] theorem endHostSession_nv : (endHostSession m).nv = m.nv := noHostRcdUp_nv (endHostSession_noHostRcdUp m)
@[simp] theorem endHostSession_cfg : (endHostSession m).cfg = m.cfg := noHostRcdUp_cfg (endHostSession_noHostRcdUp m)
@[simp] theorem endHostSession_tm : (endHostSession m).tm = m.tm := noHostRcdUp_tm (endHostSession_noHostRcdUp m)
@[simp] theorem endHostSession_ln : (endHostSession m).ln = m.ln := noHostRcdUp_ln (endHostSession_noHostRcdUp m)
@[simp] theorem endHostSession_md : (endHostSession m).md = m.md := noHostRcdUp_md (endHostSession_noHostRcdUp m)
@[simp] theorem endHostSession_pw : (endHostSession m).pw = m.pw := noHostRcdUp_pw (endHostSession_noHostRcdUp m)
@[simp] theorem endHostSession_lg : (endHostSession m).lg = m.lg := noHostRcdUp_lg (endHostSession_noHostRcdUp m)
@[simp] theorem endHostSession_cur : (endHostSession m).cur = m.cur := noHostRcdUp_cur (endHostSession_noHostRcdUp m)
@[simp] theorem endHostSession_nxt : (endHostSession m).nxt = m.nxt := noHostRcdUp_nxt (endHostSession_noHostRcdUp m)
@[simp] theorem endHostSession_en : (endHostSession m).en = m.en := noHostRcdUp_en (endHostSession_noHostRcdUp m)
@[simp] theorem endHostSession_fio : (endHostSession m).fio = m.fio := noHostRcdUp_fio (endHostSession_noHostRcdUp m)
@[simp] theorem endHostSession_bt : (endHostSession m).bt = m.bt := noHostRcdUp_bt (endHostSession_noHostRcdUp m)
@[simp] theorem endHostSession_str : (endHostSession m).str = m.str := noHostRcdUp_str (endHostSession_noHostRcdUp m)
@[simp] theorem endHostSession_can : (endHostSession m).can = m.can := noHostRcdUp_can (endHostSession_noHostRcdUp m)
@[simp] theorem endHostSession_net : (endHostSession m).net = m.net := noHostRcdUp_net (endHostSession_noHostRcdUp m)
@[simp] theorem endHostSession_rc : (endHostSession m).rc = m.rc := noHostRcdUp_rc (endHostSession_noHostRcdUp m)
@[simp] theorem endHostSession_pc : (endHostSession m).pc = m.pc := noHostRcdUp_pc (endHostSession_noHostRcdUp m)
@[simp] theorem endHostSession_sec : (endHostSession m).sec = m.sec := noHostRcdUp_sec (endHostSession_noHostRcdUp m)
@[simp] theorem endHostSession_pr : (endHostSession m).pr = m.pr := noHostRcdUp_pr (endHostSession_noHostRcdUp m)
@[simp] theorem endHostSession_stateOut : (endHostSession m).stateOut = m.stateOut := noHostRcdUp_stateOut (endHostSession_noHostRcdUp m)

/-- All but nv, lg, host, rcd, up. -/
def Mod.noNvLgHostRcdUp (m : Mod) : Mod :=
  { m with nv := Nv.fresh, lg := Logic.fresh AppImage.empty, host := HostIf.fresh, rcd := Recorder.fresh, up := Update.fresh }

theorem noNvLgHostRcdUp_powered {a b : Mod} (h : a.noNvLgHostRcdUp = b.noNvLgHostRcdUp) : a.powered = b.powered := (congrArg Mod.powered h :)
theorem noNvLgHostRcdUp_clk {a b : Mod} (h : a.noNvLgHostRcdUp = b.noNvLgHostRcdUp) : a.clk = b.clk := (congrArg Mod.clk h :)
theorem noNvLgHostRcdUp_freeN {a b : Mod} (h : a.noNvLgHostRcdUp = b.noNvLgHostRcdUp) : a.freeN = b.freeN := (congrArg Mod.freeN h :)
theorem noNvLgHostRcdUp_cfg {a b : Mod} (h : a.noNvLgHostRcdUp = b.noNvLgHostRcdUp) : a.cfg = b.cfg := (congrArg Mod.cfg h :)
theorem noNvLgHostRcdUp_tm {a b : Mod} (h : a.noNvLgHostRcdUp = b.noNvLgHostRcdUp) : a.tm = b.tm := (congrArg Mod.tm h :)
theorem noNvLgHostRcdUp_ln {a b : Mod} (h : a.noNvLgHostRcdUp = b.noNvLgHostRcdUp) : a.ln = b.ln := (congrArg Mod.ln h :)
theorem noNvLgHostRcdUp_md {a b : Mod} (h : a.noNvLgHostRcdUp = b.noNvLgHostRcdUp) : a.md = b.md := (congrArg Mod.md h :)
theorem noNvLgHostRcdUp_pw {a b : Mod} (h : a.noNvLgHostRcdUp = b.noNvLgHostRcdUp) : a.pw = b.pw := (congrArg Mod.pw h :)
theorem noNvLgHostRcdUp_cur {a b : Mod} (h : a.noNvLgHostRcdUp = b.noNvLgHostRcdUp) : a.cur = b.cur := (congrArg Mod.cur h :)
theorem noNvLgHostRcdUp_nxt {a b : Mod} (h : a.noNvLgHostRcdUp = b.noNvLgHostRcdUp) : a.nxt = b.nxt := (congrArg Mod.nxt h :)
theorem noNvLgHostRcdUp_en {a b : Mod} (h : a.noNvLgHostRcdUp = b.noNvLgHostRcdUp) : a.en = b.en := (congrArg Mod.en h :)
theorem noNvLgHostRcdUp_fio {a b : Mod} (h : a.noNvLgHostRcdUp = b.noNvLgHostRcdUp) : a.fio = b.fio := (congrArg Mod.fio h :)
theorem noNvLgHostRcdUp_bt {a b : Mod} (h : a.noNvLgHostRcdUp = b.noNvLgHostRcdUp) : a.bt = b.bt := (congrArg Mod.bt h :)
theorem noNvLgHostRcdUp_str {a b : Mod} (h : a.noNvLgHostRcdUp = b.noNvLgHostRcdUp) : a.str = b.str := (congrArg Mod.str h :)
theorem noNvLgHostRcdUp_can {a b : Mod} (h : a.noNvLgHostRcdUp = b.noNvLgHostRcdUp) : a.can = b.can := (congrArg Mod.can h :)
theorem noNvLgHostRcdUp_net {a b : Mod} (h : a.noNvLgHostRcdUp = b.noNvLgHostRcdUp) : a.net = b.net := (congrArg Mod.net h :)
theorem noNvLgHostRcdUp_rc {a b : Mod} (h : a.noNvLgHostRcdUp = b.noNvLgHostRcdUp) : a.rc = b.rc := (congrArg Mod.rc h :)
theorem noNvLgHostRcdUp_pc {a b : Mod} (h : a.noNvLgHostRcdUp = b.noNvLgHostRcdUp) : a.pc = b.pc := (congrArg Mod.pc h :)
theorem noNvLgHostRcdUp_sec {a b : Mod} (h : a.noNvLgHostRcdUp = b.noNvLgHostRcdUp) : a.sec = b.sec := (congrArg Mod.sec h :)
theorem noNvLgHostRcdUp_pr {a b : Mod} (h : a.noNvLgHostRcdUp = b.noNvLgHostRcdUp) : a.pr = b.pr := (congrArg Mod.pr h :)
theorem noNvLgHostRcdUp_stateOut {a b : Mod} (h : a.noNvLgHostRcdUp = b.noNvLgHostRcdUp) : a.stateOut = b.stateOut := (congrArg Mod.stateOut h :)

@[simp] theorem abandonActivation_noNvLgHostRcdUp (reason : Nat) : (abandonActivation reason m).noNvLgHostRcdUp = m.noNvLgHostRcdUp := by
  unfold abandonActivation; split <;> simp [Mod.noNvLgHostRcdUp]
@[simp] theorem abandonActivation_powered (reason : Nat) : (abandonActivation reason m).powered = m.powered := noNvLgHostRcdUp_powered (abandonActivation_noNvLgHostRcdUp m reason)
@[simp] theorem abandonActivation_clk (reason : Nat) : (abandonActivation reason m).clk = m.clk := noNvLgHostRcdUp_clk (abandonActivation_noNvLgHostRcdUp m reason)
@[simp] theorem abandonActivation_freeN (reason : Nat) : (abandonActivation reason m).freeN = m.freeN := noNvLgHostRcdUp_freeN (abandonActivation_noNvLgHostRcdUp m reason)
@[simp] theorem abandonActivation_cfg (reason : Nat) : (abandonActivation reason m).cfg = m.cfg := noNvLgHostRcdUp_cfg (abandonActivation_noNvLgHostRcdUp m reason)
@[simp] theorem abandonActivation_tm (reason : Nat) : (abandonActivation reason m).tm = m.tm := noNvLgHostRcdUp_tm (abandonActivation_noNvLgHostRcdUp m reason)
@[simp] theorem abandonActivation_ln (reason : Nat) : (abandonActivation reason m).ln = m.ln := noNvLgHostRcdUp_ln (abandonActivation_noNvLgHostRcdUp m reason)
@[simp] theorem abandonActivation_md (reason : Nat) : (abandonActivation reason m).md = m.md := noNvLgHostRcdUp_md (abandonActivation_noNvLgHostRcdUp m reason)
@[simp] theorem abandonActivation_pw (reason : Nat) : (abandonActivation reason m).pw = m.pw := noNvLgHostRcdUp_pw (abandonActivation_noNvLgHostRcdUp m reason)
@[simp] theorem abandonActivation_cur (reason : Nat) : (abandonActivation reason m).cur = m.cur := noNvLgHostRcdUp_cur (abandonActivation_noNvLgHostRcdUp m reason)
@[simp] theorem abandonActivation_nxt (reason : Nat) : (abandonActivation reason m).nxt = m.nxt := noNvLgHostRcdUp_nxt (abandonActivation_noNvLgHostRcdUp m reason)
@[simp] theorem abandonActivation_en (reason : Nat) : (abandonActivation reason m).en = m.en := noNvLgHostRcdUp_en (abandonActivation_noNvLgHostRcdUp m reason)
@[simp] theorem abandonActivation_fio (reason : Nat) : (abandonActivation reason m).fio = m.fio := noNvLgHostRcdUp_fio (abandonActivation_noNvLgHostRcdUp m reason)
@[simp] theorem abandonActivation_bt (reason : Nat) : (abandonActivation reason m).bt = m.bt := noNvLgHostRcdUp_bt (abandonActivation_noNvLgHostRcdUp m reason)
@[simp] theorem abandonActivation_str (reason : Nat) : (abandonActivation reason m).str = m.str := noNvLgHostRcdUp_str (abandonActivation_noNvLgHostRcdUp m reason)
@[simp] theorem abandonActivation_can (reason : Nat) : (abandonActivation reason m).can = m.can := noNvLgHostRcdUp_can (abandonActivation_noNvLgHostRcdUp m reason)
@[simp] theorem abandonActivation_net (reason : Nat) : (abandonActivation reason m).net = m.net := noNvLgHostRcdUp_net (abandonActivation_noNvLgHostRcdUp m reason)
@[simp] theorem abandonActivation_rc (reason : Nat) : (abandonActivation reason m).rc = m.rc := noNvLgHostRcdUp_rc (abandonActivation_noNvLgHostRcdUp m reason)
@[simp] theorem abandonActivation_pc (reason : Nat) : (abandonActivation reason m).pc = m.pc := noNvLgHostRcdUp_pc (abandonActivation_noNvLgHostRcdUp m reason)
@[simp] theorem abandonActivation_sec (reason : Nat) : (abandonActivation reason m).sec = m.sec := noNvLgHostRcdUp_sec (abandonActivation_noNvLgHostRcdUp m reason)
@[simp] theorem abandonActivation_pr (reason : Nat) : (abandonActivation reason m).pr = m.pr := noNvLgHostRcdUp_pr (abandonActivation_noNvLgHostRcdUp m reason)
@[simp] theorem abandonActivation_stateOut (reason : Nat) : (abandonActivation reason m).stateOut = m.stateOut := noNvLgHostRcdUp_stateOut (abandonActivation_noNvLgHostRcdUp m reason)

@[simp] theorem abandonOc_noHostRcdUp (reason : Nat) : (abandonOc reason m).noHostRcdUp = m.noHostRcdUp := by
  unfold abandonOc; dsimp only; (repeat' split) <;> simp [Mod.noHostRcdUp]
@[simp] theorem abandonOc_powered (reason : Nat) : (abandonOc reason m).powered = m.powered := noHostRcdUp_powered (abandonOc_noHostRcdUp m reason)
@[simp] theorem abandonOc_clk (reason : Nat) : (abandonOc reason m).clk = m.clk := noHostRcdUp_clk (abandonOc_noHostRcdUp m reason)
@[simp] theorem abandonOc_freeN (reason : Nat) : (abandonOc reason m).freeN = m.freeN := noHostRcdUp_freeN (abandonOc_noHostRcdUp m reason)
@[simp] theorem abandonOc_nv (reason : Nat) : (abandonOc reason m).nv = m.nv := noHostRcdUp_nv (abandonOc_noHostRcdUp m reason)
@[simp] theorem abandonOc_cfg (reason : Nat) : (abandonOc reason m).cfg = m.cfg := noHostRcdUp_cfg (abandonOc_noHostRcdUp m reason)
@[simp] theorem abandonOc_tm (reason : Nat) : (abandonOc reason m).tm = m.tm := noHostRcdUp_tm (abandonOc_noHostRcdUp m reason)
@[simp] theorem abandonOc_ln (reason : Nat) : (abandonOc reason m).ln = m.ln := noHostRcdUp_ln (abandonOc_noHostRcdUp m reason)
@[simp] theorem abandonOc_md (reason : Nat) : (abandonOc reason m).md = m.md := noHostRcdUp_md (abandonOc_noHostRcdUp m reason)
@[simp] theorem abandonOc_pw (reason : Nat) : (abandonOc reason m).pw = m.pw := noHostRcdUp_pw (abandonOc_noHostRcdUp m reason)
@[simp] theorem abandonOc_lg (reason : Nat) : (abandonOc reason m).lg = m.lg := noHostRcdUp_lg (abandonOc_noHostRcdUp m reason)
@[simp] theorem abandonOc_cur (reason : Nat) : (abandonOc reason m).cur = m.cur := noHostRcdUp_cur (abandonOc_noHostRcdUp m reason)
@[simp] theorem abandonOc_nxt (reason : Nat) : (abandonOc reason m).nxt = m.nxt := noHostRcdUp_nxt (abandonOc_noHostRcdUp m reason)
@[simp] theorem abandonOc_en (reason : Nat) : (abandonOc reason m).en = m.en := noHostRcdUp_en (abandonOc_noHostRcdUp m reason)
@[simp] theorem abandonOc_fio (reason : Nat) : (abandonOc reason m).fio = m.fio := noHostRcdUp_fio (abandonOc_noHostRcdUp m reason)
@[simp] theorem abandonOc_bt (reason : Nat) : (abandonOc reason m).bt = m.bt := noHostRcdUp_bt (abandonOc_noHostRcdUp m reason)
@[simp] theorem abandonOc_str (reason : Nat) : (abandonOc reason m).str = m.str := noHostRcdUp_str (abandonOc_noHostRcdUp m reason)
@[simp] theorem abandonOc_can (reason : Nat) : (abandonOc reason m).can = m.can := noHostRcdUp_can (abandonOc_noHostRcdUp m reason)
@[simp] theorem abandonOc_net (reason : Nat) : (abandonOc reason m).net = m.net := noHostRcdUp_net (abandonOc_noHostRcdUp m reason)
@[simp] theorem abandonOc_rc (reason : Nat) : (abandonOc reason m).rc = m.rc := noHostRcdUp_rc (abandonOc_noHostRcdUp m reason)
@[simp] theorem abandonOc_pc (reason : Nat) : (abandonOc reason m).pc = m.pc := noHostRcdUp_pc (abandonOc_noHostRcdUp m reason)
@[simp] theorem abandonOc_sec (reason : Nat) : (abandonOc reason m).sec = m.sec := noHostRcdUp_sec (abandonOc_noHostRcdUp m reason)
@[simp] theorem abandonOc_pr (reason : Nat) : (abandonOc reason m).pr = m.pr := noHostRcdUp_pr (abandonOc_noHostRcdUp m reason)
@[simp] theorem abandonOc_stateOut (reason : Nat) : (abandonOc reason m).stateOut = m.stateOut := noHostRcdUp_stateOut (abandonOc_noHostRcdUp m reason)

/-- All but ln, fio. -/
def Mod.noLnFio (m : Mod) : Mod :=
  { m with ln := PerLane.all (Lane.fresh (LaneNv.fresh 0 0)), fio := Fio.fresh }

theorem noLnFio_powered {a b : Mod} (h : a.noLnFio = b.noLnFio) : a.powered = b.powered := (congrArg Mod.powered h :)
theorem noLnFio_clk {a b : Mod} (h : a.noLnFio = b.noLnFio) : a.clk = b.clk := (congrArg Mod.clk h :)
theorem noLnFio_freeN {a b : Mod} (h : a.noLnFio = b.noLnFio) : a.freeN = b.freeN := (congrArg Mod.freeN h :)
theorem noLnFio_nv {a b : Mod} (h : a.noLnFio = b.noLnFio) : a.nv = b.nv := (congrArg Mod.nv h :)
theorem noLnFio_cfg {a b : Mod} (h : a.noLnFio = b.noLnFio) : a.cfg = b.cfg := (congrArg Mod.cfg h :)
theorem noLnFio_tm {a b : Mod} (h : a.noLnFio = b.noLnFio) : a.tm = b.tm := (congrArg Mod.tm h :)
theorem noLnFio_md {a b : Mod} (h : a.noLnFio = b.noLnFio) : a.md = b.md := (congrArg Mod.md h :)
theorem noLnFio_pw {a b : Mod} (h : a.noLnFio = b.noLnFio) : a.pw = b.pw := (congrArg Mod.pw h :)
theorem noLnFio_lg {a b : Mod} (h : a.noLnFio = b.noLnFio) : a.lg = b.lg := (congrArg Mod.lg h :)
theorem noLnFio_cur {a b : Mod} (h : a.noLnFio = b.noLnFio) : a.cur = b.cur := (congrArg Mod.cur h :)
theorem noLnFio_nxt {a b : Mod} (h : a.noLnFio = b.noLnFio) : a.nxt = b.nxt := (congrArg Mod.nxt h :)
theorem noLnFio_en {a b : Mod} (h : a.noLnFio = b.noLnFio) : a.en = b.en := (congrArg Mod.en h :)
theorem noLnFio_bt {a b : Mod} (h : a.noLnFio = b.noLnFio) : a.bt = b.bt := (congrArg Mod.bt h :)
theorem noLnFio_str {a b : Mod} (h : a.noLnFio = b.noLnFio) : a.str = b.str := (congrArg Mod.str h :)
theorem noLnFio_can {a b : Mod} (h : a.noLnFio = b.noLnFio) : a.can = b.can := (congrArg Mod.can h :)
theorem noLnFio_net {a b : Mod} (h : a.noLnFio = b.noLnFio) : a.net = b.net := (congrArg Mod.net h :)
theorem noLnFio_host {a b : Mod} (h : a.noLnFio = b.noLnFio) : a.host = b.host := (congrArg Mod.host h :)
theorem noLnFio_rcd {a b : Mod} (h : a.noLnFio = b.noLnFio) : a.rcd = b.rcd := (congrArg Mod.rcd h :)
theorem noLnFio_rc {a b : Mod} (h : a.noLnFio = b.noLnFio) : a.rc = b.rc := (congrArg Mod.rc h :)
theorem noLnFio_pc {a b : Mod} (h : a.noLnFio = b.noLnFio) : a.pc = b.pc := (congrArg Mod.pc h :)
theorem noLnFio_up {a b : Mod} (h : a.noLnFio = b.noLnFio) : a.up = b.up := (congrArg Mod.up h :)
theorem noLnFio_sec {a b : Mod} (h : a.noLnFio = b.noLnFio) : a.sec = b.sec := (congrArg Mod.sec h :)
theorem noLnFio_pr {a b : Mod} (h : a.noLnFio = b.noLnFio) : a.pr = b.pr := (congrArg Mod.pr h :)
theorem noLnFio_stateOut {a b : Mod} (h : a.noLnFio = b.noLnFio) : a.stateOut = b.stateOut := (congrArg Mod.stateOut h :)

@[simp] theorem openOutputs_noLnFio : (openOutputs m).noLnFio = m.noLnFio := rfl
@[simp] theorem openOutputs_powered : (openOutputs m).powered = m.powered := noLnFio_powered (openOutputs_noLnFio m)
@[simp] theorem openOutputs_clk : (openOutputs m).clk = m.clk := noLnFio_clk (openOutputs_noLnFio m)
@[simp] theorem openOutputs_freeN : (openOutputs m).freeN = m.freeN := noLnFio_freeN (openOutputs_noLnFio m)
@[simp] theorem openOutputs_nv : (openOutputs m).nv = m.nv := noLnFio_nv (openOutputs_noLnFio m)
@[simp] theorem openOutputs_cfg : (openOutputs m).cfg = m.cfg := noLnFio_cfg (openOutputs_noLnFio m)
@[simp] theorem openOutputs_tm : (openOutputs m).tm = m.tm := noLnFio_tm (openOutputs_noLnFio m)
@[simp] theorem openOutputs_md : (openOutputs m).md = m.md := noLnFio_md (openOutputs_noLnFio m)
@[simp] theorem openOutputs_pw : (openOutputs m).pw = m.pw := noLnFio_pw (openOutputs_noLnFio m)
@[simp] theorem openOutputs_lg : (openOutputs m).lg = m.lg := noLnFio_lg (openOutputs_noLnFio m)
@[simp] theorem openOutputs_cur : (openOutputs m).cur = m.cur := noLnFio_cur (openOutputs_noLnFio m)
@[simp] theorem openOutputs_nxt : (openOutputs m).nxt = m.nxt := noLnFio_nxt (openOutputs_noLnFio m)
@[simp] theorem openOutputs_en : (openOutputs m).en = m.en := noLnFio_en (openOutputs_noLnFio m)
@[simp] theorem openOutputs_bt : (openOutputs m).bt = m.bt := noLnFio_bt (openOutputs_noLnFio m)
@[simp] theorem openOutputs_str : (openOutputs m).str = m.str := noLnFio_str (openOutputs_noLnFio m)
@[simp] theorem openOutputs_can : (openOutputs m).can = m.can := noLnFio_can (openOutputs_noLnFio m)
@[simp] theorem openOutputs_net : (openOutputs m).net = m.net := noLnFio_net (openOutputs_noLnFio m)
@[simp] theorem openOutputs_host : (openOutputs m).host = m.host := noLnFio_host (openOutputs_noLnFio m)
@[simp] theorem openOutputs_rcd : (openOutputs m).rcd = m.rcd := noLnFio_rcd (openOutputs_noLnFio m)
@[simp] theorem openOutputs_rc : (openOutputs m).rc = m.rc := noLnFio_rc (openOutputs_noLnFio m)
@[simp] theorem openOutputs_pc : (openOutputs m).pc = m.pc := noLnFio_pc (openOutputs_noLnFio m)
@[simp] theorem openOutputs_up : (openOutputs m).up = m.up := noLnFio_up (openOutputs_noLnFio m)
@[simp] theorem openOutputs_sec : (openOutputs m).sec = m.sec := noLnFio_sec (openOutputs_noLnFio m)
@[simp] theorem openOutputs_pr : (openOutputs m).pr = m.pr := noLnFio_pr (openOutputs_noLnFio m)
@[simp] theorem openOutputs_stateOut : (openOutputs m).stateOut = m.stateOut := noLnFio_stateOut (openOutputs_noLnFio m)

@[simp] theorem refuseOpen_noHP : (refuseOpen m).noHP = m.noHP := forEach_keeps _ Mod.noHP _ _ (fun a n => complete_noHP n a _ _)
@[simp] theorem refuseOpen_powered : (refuseOpen m).powered = m.powered := noHP_powered (refuseOpen_noHP m)
@[simp] theorem refuseOpen_clk : (refuseOpen m).clk = m.clk := noHP_clk (refuseOpen_noHP m)
@[simp] theorem refuseOpen_freeN : (refuseOpen m).freeN = m.freeN := noHP_freeN (refuseOpen_noHP m)
@[simp] theorem refuseOpen_nv : (refuseOpen m).nv = m.nv := noHP_nv (refuseOpen_noHP m)
@[simp] theorem refuseOpen_cfg : (refuseOpen m).cfg = m.cfg := noHP_cfg (refuseOpen_noHP m)
@[simp] theorem refuseOpen_tm : (refuseOpen m).tm = m.tm := noHP_tm (refuseOpen_noHP m)
@[simp] theorem refuseOpen_ln : (refuseOpen m).ln = m.ln := noHP_ln (refuseOpen_noHP m)
@[simp] theorem refuseOpen_md : (refuseOpen m).md = m.md := noHP_md (refuseOpen_noHP m)
@[simp] theorem refuseOpen_pw : (refuseOpen m).pw = m.pw := noHP_pw (refuseOpen_noHP m)
@[simp] theorem refuseOpen_lg : (refuseOpen m).lg = m.lg := noHP_lg (refuseOpen_noHP m)
@[simp] theorem refuseOpen_cur : (refuseOpen m).cur = m.cur := noHP_cur (refuseOpen_noHP m)
@[simp] theorem refuseOpen_nxt : (refuseOpen m).nxt = m.nxt := noHP_nxt (refuseOpen_noHP m)
@[simp] theorem refuseOpen_en : (refuseOpen m).en = m.en := noHP_en (refuseOpen_noHP m)
@[simp] theorem refuseOpen_fio : (refuseOpen m).fio = m.fio := noHP_fio (refuseOpen_noHP m)
@[simp] theorem refuseOpen_bt : (refuseOpen m).bt = m.bt := noHP_bt (refuseOpen_noHP m)
@[simp] theorem refuseOpen_str : (refuseOpen m).str = m.str := noHP_str (refuseOpen_noHP m)
@[simp] theorem refuseOpen_net : (refuseOpen m).net = m.net := noHP_net (refuseOpen_noHP m)
@[simp] theorem refuseOpen_rcd : (refuseOpen m).rcd = m.rcd := noHP_rcd (refuseOpen_noHP m)
@[simp] theorem refuseOpen_rc : (refuseOpen m).rc = m.rc := noHP_rc (refuseOpen_noHP m)
@[simp] theorem refuseOpen_pc : (refuseOpen m).pc = m.pc := noHP_pc (refuseOpen_noHP m)
@[simp] theorem refuseOpen_up : (refuseOpen m).up = m.up := noHP_up (refuseOpen_noHP m)
@[simp] theorem refuseOpen_sec : (refuseOpen m).sec = m.sec := noHP_sec (refuseOpen_noHP m)
@[simp] theorem refuseOpen_stateOut : (refuseOpen m).stateOut = m.stateOut := noHP_stateOut (refuseOpen_noHP m)

/-- All but host, rcd, up, sec. -/
def Mod.noHostRcdUpSec (m : Mod) : Mod :=
  { m with host := HostIf.fresh, rcd := Recorder.fresh, up := Update.fresh, sec := SecVol.fresh }

theorem noHostRcdUpSec_powered {a b : Mod} (h : a.noHostRcdUpSec = b.noHostRcdUpSec) : a.powered = b.powered := (congrArg Mod.powered h :)
theorem noHostRcdUpSec_clk {a b : Mod} (h : a.noHostRcdUpSec = b.noHostRcdUpSec) : a.clk = b.clk := (congrArg Mod.clk h :)
theorem noHostRcdUpSec_freeN {a b : Mod} (h : a.noHostRcdUpSec = b.noHostRcdUpSec) : a.freeN = b.freeN := (congrArg Mod.freeN h :)
theorem noHostRcdUpSec_nv {a b : Mod} (h : a.noHostRcdUpSec = b.noHostRcdUpSec) : a.nv = b.nv := (congrArg Mod.nv h :)
theorem noHostRcdUpSec_cfg {a b : Mod} (h : a.noHostRcdUpSec = b.noHostRcdUpSec) : a.cfg = b.cfg := (congrArg Mod.cfg h :)
theorem noHostRcdUpSec_tm {a b : Mod} (h : a.noHostRcdUpSec = b.noHostRcdUpSec) : a.tm = b.tm := (congrArg Mod.tm h :)
theorem noHostRcdUpSec_ln {a b : Mod} (h : a.noHostRcdUpSec = b.noHostRcdUpSec) : a.ln = b.ln := (congrArg Mod.ln h :)
theorem noHostRcdUpSec_md {a b : Mod} (h : a.noHostRcdUpSec = b.noHostRcdUpSec) : a.md = b.md := (congrArg Mod.md h :)
theorem noHostRcdUpSec_pw {a b : Mod} (h : a.noHostRcdUpSec = b.noHostRcdUpSec) : a.pw = b.pw := (congrArg Mod.pw h :)
theorem noHostRcdUpSec_lg {a b : Mod} (h : a.noHostRcdUpSec = b.noHostRcdUpSec) : a.lg = b.lg := (congrArg Mod.lg h :)
theorem noHostRcdUpSec_cur {a b : Mod} (h : a.noHostRcdUpSec = b.noHostRcdUpSec) : a.cur = b.cur := (congrArg Mod.cur h :)
theorem noHostRcdUpSec_nxt {a b : Mod} (h : a.noHostRcdUpSec = b.noHostRcdUpSec) : a.nxt = b.nxt := (congrArg Mod.nxt h :)
theorem noHostRcdUpSec_en {a b : Mod} (h : a.noHostRcdUpSec = b.noHostRcdUpSec) : a.en = b.en := (congrArg Mod.en h :)
theorem noHostRcdUpSec_fio {a b : Mod} (h : a.noHostRcdUpSec = b.noHostRcdUpSec) : a.fio = b.fio := (congrArg Mod.fio h :)
theorem noHostRcdUpSec_bt {a b : Mod} (h : a.noHostRcdUpSec = b.noHostRcdUpSec) : a.bt = b.bt := (congrArg Mod.bt h :)
theorem noHostRcdUpSec_str {a b : Mod} (h : a.noHostRcdUpSec = b.noHostRcdUpSec) : a.str = b.str := (congrArg Mod.str h :)
theorem noHostRcdUpSec_can {a b : Mod} (h : a.noHostRcdUpSec = b.noHostRcdUpSec) : a.can = b.can := (congrArg Mod.can h :)
theorem noHostRcdUpSec_net {a b : Mod} (h : a.noHostRcdUpSec = b.noHostRcdUpSec) : a.net = b.net := (congrArg Mod.net h :)
theorem noHostRcdUpSec_rc {a b : Mod} (h : a.noHostRcdUpSec = b.noHostRcdUpSec) : a.rc = b.rc := (congrArg Mod.rc h :)
theorem noHostRcdUpSec_pc {a b : Mod} (h : a.noHostRcdUpSec = b.noHostRcdUpSec) : a.pc = b.pc := (congrArg Mod.pc h :)
theorem noHostRcdUpSec_pr {a b : Mod} (h : a.noHostRcdUpSec = b.noHostRcdUpSec) : a.pr = b.pr := (congrArg Mod.pr h :)
theorem noHostRcdUpSec_stateOut {a b : Mod} (h : a.noHostRcdUpSec = b.noHostRcdUpSec) : a.stateOut = b.stateOut := (congrArg Mod.stateOut h :)

@[simp] theorem endServiceOf_noHostRcdUpSec (l : LaneId) : (endServiceOf l m).noHostRcdUpSec = m.noHostRcdUpSec := by
  unfold endServiceOf; dsimp only; (repeat' split) <;> simp [Mod.noHostRcdUpSec]
@[simp] theorem endServiceOf_powered (l : LaneId) : (endServiceOf l m).powered = m.powered := noHostRcdUpSec_powered (endServiceOf_noHostRcdUpSec m l)
@[simp] theorem endServiceOf_clk (l : LaneId) : (endServiceOf l m).clk = m.clk := noHostRcdUpSec_clk (endServiceOf_noHostRcdUpSec m l)
@[simp] theorem endServiceOf_freeN (l : LaneId) : (endServiceOf l m).freeN = m.freeN := noHostRcdUpSec_freeN (endServiceOf_noHostRcdUpSec m l)
@[simp] theorem endServiceOf_nv (l : LaneId) : (endServiceOf l m).nv = m.nv := noHostRcdUpSec_nv (endServiceOf_noHostRcdUpSec m l)
@[simp] theorem endServiceOf_cfg (l : LaneId) : (endServiceOf l m).cfg = m.cfg := noHostRcdUpSec_cfg (endServiceOf_noHostRcdUpSec m l)
@[simp] theorem endServiceOf_tm (l : LaneId) : (endServiceOf l m).tm = m.tm := noHostRcdUpSec_tm (endServiceOf_noHostRcdUpSec m l)
@[simp] theorem endServiceOf_ln (l : LaneId) : (endServiceOf l m).ln = m.ln := noHostRcdUpSec_ln (endServiceOf_noHostRcdUpSec m l)
@[simp] theorem endServiceOf_md (l : LaneId) : (endServiceOf l m).md = m.md := noHostRcdUpSec_md (endServiceOf_noHostRcdUpSec m l)
@[simp] theorem endServiceOf_pw (l : LaneId) : (endServiceOf l m).pw = m.pw := noHostRcdUpSec_pw (endServiceOf_noHostRcdUpSec m l)
@[simp] theorem endServiceOf_lg (l : LaneId) : (endServiceOf l m).lg = m.lg := noHostRcdUpSec_lg (endServiceOf_noHostRcdUpSec m l)
@[simp] theorem endServiceOf_cur (l : LaneId) : (endServiceOf l m).cur = m.cur := noHostRcdUpSec_cur (endServiceOf_noHostRcdUpSec m l)
@[simp] theorem endServiceOf_nxt (l : LaneId) : (endServiceOf l m).nxt = m.nxt := noHostRcdUpSec_nxt (endServiceOf_noHostRcdUpSec m l)
@[simp] theorem endServiceOf_en (l : LaneId) : (endServiceOf l m).en = m.en := noHostRcdUpSec_en (endServiceOf_noHostRcdUpSec m l)
@[simp] theorem endServiceOf_fio (l : LaneId) : (endServiceOf l m).fio = m.fio := noHostRcdUpSec_fio (endServiceOf_noHostRcdUpSec m l)
@[simp] theorem endServiceOf_bt (l : LaneId) : (endServiceOf l m).bt = m.bt := noHostRcdUpSec_bt (endServiceOf_noHostRcdUpSec m l)
@[simp] theorem endServiceOf_str (l : LaneId) : (endServiceOf l m).str = m.str := noHostRcdUpSec_str (endServiceOf_noHostRcdUpSec m l)
@[simp] theorem endServiceOf_can (l : LaneId) : (endServiceOf l m).can = m.can := noHostRcdUpSec_can (endServiceOf_noHostRcdUpSec m l)
@[simp] theorem endServiceOf_net (l : LaneId) : (endServiceOf l m).net = m.net := noHostRcdUpSec_net (endServiceOf_noHostRcdUpSec m l)
@[simp] theorem endServiceOf_rc (l : LaneId) : (endServiceOf l m).rc = m.rc := noHostRcdUpSec_rc (endServiceOf_noHostRcdUpSec m l)
@[simp] theorem endServiceOf_pc (l : LaneId) : (endServiceOf l m).pc = m.pc := noHostRcdUpSec_pc (endServiceOf_noHostRcdUpSec m l)
@[simp] theorem endServiceOf_pr (l : LaneId) : (endServiceOf l m).pr = m.pr := noHostRcdUpSec_pr (endServiceOf_noHostRcdUpSec m l)
@[simp] theorem endServiceOf_stateOut (l : LaneId) : (endServiceOf l m).stateOut = m.stateOut := noHostRcdUpSec_stateOut (endServiceOf_noHostRcdUpSec m l)

/-- All but md, host, rcd. -/
def Mod.noMdHostRcd (m : Mod) : Mod :=
  { m with md := Modes.fresh, host := HostIf.fresh, rcd := Recorder.fresh }

theorem noMdHostRcd_powered {a b : Mod} (h : a.noMdHostRcd = b.noMdHostRcd) : a.powered = b.powered := (congrArg Mod.powered h :)
theorem noMdHostRcd_clk {a b : Mod} (h : a.noMdHostRcd = b.noMdHostRcd) : a.clk = b.clk := (congrArg Mod.clk h :)
theorem noMdHostRcd_freeN {a b : Mod} (h : a.noMdHostRcd = b.noMdHostRcd) : a.freeN = b.freeN := (congrArg Mod.freeN h :)
theorem noMdHostRcd_nv {a b : Mod} (h : a.noMdHostRcd = b.noMdHostRcd) : a.nv = b.nv := (congrArg Mod.nv h :)
theorem noMdHostRcd_cfg {a b : Mod} (h : a.noMdHostRcd = b.noMdHostRcd) : a.cfg = b.cfg := (congrArg Mod.cfg h :)
theorem noMdHostRcd_tm {a b : Mod} (h : a.noMdHostRcd = b.noMdHostRcd) : a.tm = b.tm := (congrArg Mod.tm h :)
theorem noMdHostRcd_ln {a b : Mod} (h : a.noMdHostRcd = b.noMdHostRcd) : a.ln = b.ln := (congrArg Mod.ln h :)
theorem noMdHostRcd_pw {a b : Mod} (h : a.noMdHostRcd = b.noMdHostRcd) : a.pw = b.pw := (congrArg Mod.pw h :)
theorem noMdHostRcd_lg {a b : Mod} (h : a.noMdHostRcd = b.noMdHostRcd) : a.lg = b.lg := (congrArg Mod.lg h :)
theorem noMdHostRcd_cur {a b : Mod} (h : a.noMdHostRcd = b.noMdHostRcd) : a.cur = b.cur := (congrArg Mod.cur h :)
theorem noMdHostRcd_nxt {a b : Mod} (h : a.noMdHostRcd = b.noMdHostRcd) : a.nxt = b.nxt := (congrArg Mod.nxt h :)
theorem noMdHostRcd_en {a b : Mod} (h : a.noMdHostRcd = b.noMdHostRcd) : a.en = b.en := (congrArg Mod.en h :)
theorem noMdHostRcd_fio {a b : Mod} (h : a.noMdHostRcd = b.noMdHostRcd) : a.fio = b.fio := (congrArg Mod.fio h :)
theorem noMdHostRcd_bt {a b : Mod} (h : a.noMdHostRcd = b.noMdHostRcd) : a.bt = b.bt := (congrArg Mod.bt h :)
theorem noMdHostRcd_str {a b : Mod} (h : a.noMdHostRcd = b.noMdHostRcd) : a.str = b.str := (congrArg Mod.str h :)
theorem noMdHostRcd_can {a b : Mod} (h : a.noMdHostRcd = b.noMdHostRcd) : a.can = b.can := (congrArg Mod.can h :)
theorem noMdHostRcd_net {a b : Mod} (h : a.noMdHostRcd = b.noMdHostRcd) : a.net = b.net := (congrArg Mod.net h :)
theorem noMdHostRcd_rc {a b : Mod} (h : a.noMdHostRcd = b.noMdHostRcd) : a.rc = b.rc := (congrArg Mod.rc h :)
theorem noMdHostRcd_pc {a b : Mod} (h : a.noMdHostRcd = b.noMdHostRcd) : a.pc = b.pc := (congrArg Mod.pc h :)
theorem noMdHostRcd_up {a b : Mod} (h : a.noMdHostRcd = b.noMdHostRcd) : a.up = b.up := (congrArg Mod.up h :)
theorem noMdHostRcd_sec {a b : Mod} (h : a.noMdHostRcd = b.noMdHostRcd) : a.sec = b.sec := (congrArg Mod.sec h :)
theorem noMdHostRcd_pr {a b : Mod} (h : a.noMdHostRcd = b.noMdHostRcd) : a.pr = b.pr := (congrArg Mod.pr h :)
theorem noMdHostRcd_stateOut {a b : Mod} (h : a.noMdHostRcd = b.noMdHostRcd) : a.stateOut = b.stateOut := (congrArg Mod.stateOut h :)

@[simp] theorem settleRun_noMdHostRcd : (settleRun m).noMdHostRcd = m.noMdHostRcd := by
  unfold settleRun; split <;> simp [Mod.noMdHostRcd]
@[simp] theorem settleRun_powered : (settleRun m).powered = m.powered := noMdHostRcd_powered (settleRun_noMdHostRcd m)
@[simp] theorem settleRun_clk : (settleRun m).clk = m.clk := noMdHostRcd_clk (settleRun_noMdHostRcd m)
@[simp] theorem settleRun_freeN : (settleRun m).freeN = m.freeN := noMdHostRcd_freeN (settleRun_noMdHostRcd m)
@[simp] theorem settleRun_nv : (settleRun m).nv = m.nv := noMdHostRcd_nv (settleRun_noMdHostRcd m)
@[simp] theorem settleRun_cfg : (settleRun m).cfg = m.cfg := noMdHostRcd_cfg (settleRun_noMdHostRcd m)
@[simp] theorem settleRun_tm : (settleRun m).tm = m.tm := noMdHostRcd_tm (settleRun_noMdHostRcd m)
@[simp] theorem settleRun_ln : (settleRun m).ln = m.ln := noMdHostRcd_ln (settleRun_noMdHostRcd m)
@[simp] theorem settleRun_pw : (settleRun m).pw = m.pw := noMdHostRcd_pw (settleRun_noMdHostRcd m)
@[simp] theorem settleRun_lg : (settleRun m).lg = m.lg := noMdHostRcd_lg (settleRun_noMdHostRcd m)
@[simp] theorem settleRun_cur : (settleRun m).cur = m.cur := noMdHostRcd_cur (settleRun_noMdHostRcd m)
@[simp] theorem settleRun_nxt : (settleRun m).nxt = m.nxt := noMdHostRcd_nxt (settleRun_noMdHostRcd m)
@[simp] theorem settleRun_en : (settleRun m).en = m.en := noMdHostRcd_en (settleRun_noMdHostRcd m)
@[simp] theorem settleRun_fio : (settleRun m).fio = m.fio := noMdHostRcd_fio (settleRun_noMdHostRcd m)
@[simp] theorem settleRun_bt : (settleRun m).bt = m.bt := noMdHostRcd_bt (settleRun_noMdHostRcd m)
@[simp] theorem settleRun_str : (settleRun m).str = m.str := noMdHostRcd_str (settleRun_noMdHostRcd m)
@[simp] theorem settleRun_can : (settleRun m).can = m.can := noMdHostRcd_can (settleRun_noMdHostRcd m)
@[simp] theorem settleRun_net : (settleRun m).net = m.net := noMdHostRcd_net (settleRun_noMdHostRcd m)
@[simp] theorem settleRun_rc : (settleRun m).rc = m.rc := noMdHostRcd_rc (settleRun_noMdHostRcd m)
@[simp] theorem settleRun_pc : (settleRun m).pc = m.pc := noMdHostRcd_pc (settleRun_noMdHostRcd m)
@[simp] theorem settleRun_up : (settleRun m).up = m.up := noMdHostRcd_up (settleRun_noMdHostRcd m)
@[simp] theorem settleRun_sec : (settleRun m).sec = m.sec := noMdHostRcd_sec (settleRun_noMdHostRcd m)
@[simp] theorem settleRun_pr : (settleRun m).pr = m.pr := noMdHostRcd_pr (settleRun_noMdHostRcd m)
@[simp] theorem settleRun_stateOut : (settleRun m).stateOut = m.stateOut := noMdHostRcd_stateOut (settleRun_noMdHostRcd m)

@[simp] theorem stopLane_noLn (l : LaneId) (cause : Nat) : (stopLane l cause m).noLn = m.noLn := by
  unfold stopLane; simp [Mod.noLn]
@[simp] theorem stopLane_powered (l : LaneId) (cause : Nat) : (stopLane l cause m).powered = m.powered := noLn_powered (stopLane_noLn m l cause)
@[simp] theorem stopLane_clk (l : LaneId) (cause : Nat) : (stopLane l cause m).clk = m.clk := noLn_clk (stopLane_noLn m l cause)
@[simp] theorem stopLane_freeN (l : LaneId) (cause : Nat) : (stopLane l cause m).freeN = m.freeN := noLn_freeN (stopLane_noLn m l cause)
@[simp] theorem stopLane_nv (l : LaneId) (cause : Nat) : (stopLane l cause m).nv = m.nv := noLn_nv (stopLane_noLn m l cause)
@[simp] theorem stopLane_cfg (l : LaneId) (cause : Nat) : (stopLane l cause m).cfg = m.cfg := noLn_cfg (stopLane_noLn m l cause)
@[simp] theorem stopLane_tm (l : LaneId) (cause : Nat) : (stopLane l cause m).tm = m.tm := noLn_tm (stopLane_noLn m l cause)
@[simp] theorem stopLane_md (l : LaneId) (cause : Nat) : (stopLane l cause m).md = m.md := noLn_md (stopLane_noLn m l cause)
@[simp] theorem stopLane_pw (l : LaneId) (cause : Nat) : (stopLane l cause m).pw = m.pw := noLn_pw (stopLane_noLn m l cause)
@[simp] theorem stopLane_lg (l : LaneId) (cause : Nat) : (stopLane l cause m).lg = m.lg := noLn_lg (stopLane_noLn m l cause)
@[simp] theorem stopLane_cur (l : LaneId) (cause : Nat) : (stopLane l cause m).cur = m.cur := noLn_cur (stopLane_noLn m l cause)
@[simp] theorem stopLane_nxt (l : LaneId) (cause : Nat) : (stopLane l cause m).nxt = m.nxt := noLn_nxt (stopLane_noLn m l cause)
@[simp] theorem stopLane_en (l : LaneId) (cause : Nat) : (stopLane l cause m).en = m.en := noLn_en (stopLane_noLn m l cause)
@[simp] theorem stopLane_fio (l : LaneId) (cause : Nat) : (stopLane l cause m).fio = m.fio := noLn_fio (stopLane_noLn m l cause)
@[simp] theorem stopLane_bt (l : LaneId) (cause : Nat) : (stopLane l cause m).bt = m.bt := noLn_bt (stopLane_noLn m l cause)
@[simp] theorem stopLane_str (l : LaneId) (cause : Nat) : (stopLane l cause m).str = m.str := noLn_str (stopLane_noLn m l cause)
@[simp] theorem stopLane_can (l : LaneId) (cause : Nat) : (stopLane l cause m).can = m.can := noLn_can (stopLane_noLn m l cause)
@[simp] theorem stopLane_net (l : LaneId) (cause : Nat) : (stopLane l cause m).net = m.net := noLn_net (stopLane_noLn m l cause)
@[simp] theorem stopLane_host (l : LaneId) (cause : Nat) : (stopLane l cause m).host = m.host := noLn_host (stopLane_noLn m l cause)
@[simp] theorem stopLane_rcd (l : LaneId) (cause : Nat) : (stopLane l cause m).rcd = m.rcd := noLn_rcd (stopLane_noLn m l cause)
@[simp] theorem stopLane_rc (l : LaneId) (cause : Nat) : (stopLane l cause m).rc = m.rc := noLn_rc (stopLane_noLn m l cause)
@[simp] theorem stopLane_pc (l : LaneId) (cause : Nat) : (stopLane l cause m).pc = m.pc := noLn_pc (stopLane_noLn m l cause)
@[simp] theorem stopLane_up (l : LaneId) (cause : Nat) : (stopLane l cause m).up = m.up := noLn_up (stopLane_noLn m l cause)
@[simp] theorem stopLane_sec (l : LaneId) (cause : Nat) : (stopLane l cause m).sec = m.sec := noLn_sec (stopLane_noLn m l cause)
@[simp] theorem stopLane_pr (l : LaneId) (cause : Nat) : (stopLane l cause m).pr = m.pr := noLn_pr (stopLane_noLn m l cause)
@[simp] theorem stopLane_stateOut (l : LaneId) (cause : Nat) : (stopLane l cause m).stateOut = m.stateOut := noLn_stateOut (stopLane_noLn m l cause)

/-- All but ln, host, rcd, up, sec. -/
def Mod.noLnHostRcdUpSec (m : Mod) : Mod :=
  { m with ln := PerLane.all (Lane.fresh (LaneNv.fresh 0 0)), host := HostIf.fresh, rcd := Recorder.fresh, up := Update.fresh, sec := SecVol.fresh }

theorem noLnHostRcdUpSec_powered {a b : Mod} (h : a.noLnHostRcdUpSec = b.noLnHostRcdUpSec) : a.powered = b.powered := (congrArg Mod.powered h :)
theorem noLnHostRcdUpSec_clk {a b : Mod} (h : a.noLnHostRcdUpSec = b.noLnHostRcdUpSec) : a.clk = b.clk := (congrArg Mod.clk h :)
theorem noLnHostRcdUpSec_freeN {a b : Mod} (h : a.noLnHostRcdUpSec = b.noLnHostRcdUpSec) : a.freeN = b.freeN := (congrArg Mod.freeN h :)
theorem noLnHostRcdUpSec_nv {a b : Mod} (h : a.noLnHostRcdUpSec = b.noLnHostRcdUpSec) : a.nv = b.nv := (congrArg Mod.nv h :)
theorem noLnHostRcdUpSec_cfg {a b : Mod} (h : a.noLnHostRcdUpSec = b.noLnHostRcdUpSec) : a.cfg = b.cfg := (congrArg Mod.cfg h :)
theorem noLnHostRcdUpSec_tm {a b : Mod} (h : a.noLnHostRcdUpSec = b.noLnHostRcdUpSec) : a.tm = b.tm := (congrArg Mod.tm h :)
theorem noLnHostRcdUpSec_md {a b : Mod} (h : a.noLnHostRcdUpSec = b.noLnHostRcdUpSec) : a.md = b.md := (congrArg Mod.md h :)
theorem noLnHostRcdUpSec_pw {a b : Mod} (h : a.noLnHostRcdUpSec = b.noLnHostRcdUpSec) : a.pw = b.pw := (congrArg Mod.pw h :)
theorem noLnHostRcdUpSec_lg {a b : Mod} (h : a.noLnHostRcdUpSec = b.noLnHostRcdUpSec) : a.lg = b.lg := (congrArg Mod.lg h :)
theorem noLnHostRcdUpSec_cur {a b : Mod} (h : a.noLnHostRcdUpSec = b.noLnHostRcdUpSec) : a.cur = b.cur := (congrArg Mod.cur h :)
theorem noLnHostRcdUpSec_nxt {a b : Mod} (h : a.noLnHostRcdUpSec = b.noLnHostRcdUpSec) : a.nxt = b.nxt := (congrArg Mod.nxt h :)
theorem noLnHostRcdUpSec_en {a b : Mod} (h : a.noLnHostRcdUpSec = b.noLnHostRcdUpSec) : a.en = b.en := (congrArg Mod.en h :)
theorem noLnHostRcdUpSec_fio {a b : Mod} (h : a.noLnHostRcdUpSec = b.noLnHostRcdUpSec) : a.fio = b.fio := (congrArg Mod.fio h :)
theorem noLnHostRcdUpSec_bt {a b : Mod} (h : a.noLnHostRcdUpSec = b.noLnHostRcdUpSec) : a.bt = b.bt := (congrArg Mod.bt h :)
theorem noLnHostRcdUpSec_str {a b : Mod} (h : a.noLnHostRcdUpSec = b.noLnHostRcdUpSec) : a.str = b.str := (congrArg Mod.str h :)
theorem noLnHostRcdUpSec_can {a b : Mod} (h : a.noLnHostRcdUpSec = b.noLnHostRcdUpSec) : a.can = b.can := (congrArg Mod.can h :)
theorem noLnHostRcdUpSec_net {a b : Mod} (h : a.noLnHostRcdUpSec = b.noLnHostRcdUpSec) : a.net = b.net := (congrArg Mod.net h :)
theorem noLnHostRcdUpSec_rc {a b : Mod} (h : a.noLnHostRcdUpSec = b.noLnHostRcdUpSec) : a.rc = b.rc := (congrArg Mod.rc h :)
theorem noLnHostRcdUpSec_pc {a b : Mod} (h : a.noLnHostRcdUpSec = b.noLnHostRcdUpSec) : a.pc = b.pc := (congrArg Mod.pc h :)
theorem noLnHostRcdUpSec_pr {a b : Mod} (h : a.noLnHostRcdUpSec = b.noLnHostRcdUpSec) : a.pr = b.pr := (congrArg Mod.pr h :)
theorem noLnHostRcdUpSec_stateOut {a b : Mod} (h : a.noLnHostRcdUpSec = b.noLnHostRcdUpSec) : a.stateOut = b.stateOut := (congrArg Mod.stateOut h :)

@[simp] theorem excludeLane_noLnHostRcdUpSec (l : LaneId) (cause : Nat) : (excludeLane l cause m).noLnHostRcdUpSec = m.noLnHostRcdUpSec := by
  unfold excludeLane; simp [Mod.noLnHostRcdUpSec]
@[simp] theorem excludeLane_powered (l : LaneId) (cause : Nat) : (excludeLane l cause m).powered = m.powered := noLnHostRcdUpSec_powered (excludeLane_noLnHostRcdUpSec m l cause)
@[simp] theorem excludeLane_clk (l : LaneId) (cause : Nat) : (excludeLane l cause m).clk = m.clk := noLnHostRcdUpSec_clk (excludeLane_noLnHostRcdUpSec m l cause)
@[simp] theorem excludeLane_freeN (l : LaneId) (cause : Nat) : (excludeLane l cause m).freeN = m.freeN := noLnHostRcdUpSec_freeN (excludeLane_noLnHostRcdUpSec m l cause)
@[simp] theorem excludeLane_nv (l : LaneId) (cause : Nat) : (excludeLane l cause m).nv = m.nv := noLnHostRcdUpSec_nv (excludeLane_noLnHostRcdUpSec m l cause)
@[simp] theorem excludeLane_cfg (l : LaneId) (cause : Nat) : (excludeLane l cause m).cfg = m.cfg := noLnHostRcdUpSec_cfg (excludeLane_noLnHostRcdUpSec m l cause)
@[simp] theorem excludeLane_tm (l : LaneId) (cause : Nat) : (excludeLane l cause m).tm = m.tm := noLnHostRcdUpSec_tm (excludeLane_noLnHostRcdUpSec m l cause)
@[simp] theorem excludeLane_md (l : LaneId) (cause : Nat) : (excludeLane l cause m).md = m.md := noLnHostRcdUpSec_md (excludeLane_noLnHostRcdUpSec m l cause)
@[simp] theorem excludeLane_pw (l : LaneId) (cause : Nat) : (excludeLane l cause m).pw = m.pw := noLnHostRcdUpSec_pw (excludeLane_noLnHostRcdUpSec m l cause)
@[simp] theorem excludeLane_lg (l : LaneId) (cause : Nat) : (excludeLane l cause m).lg = m.lg := noLnHostRcdUpSec_lg (excludeLane_noLnHostRcdUpSec m l cause)
@[simp] theorem excludeLane_cur (l : LaneId) (cause : Nat) : (excludeLane l cause m).cur = m.cur := noLnHostRcdUpSec_cur (excludeLane_noLnHostRcdUpSec m l cause)
@[simp] theorem excludeLane_nxt (l : LaneId) (cause : Nat) : (excludeLane l cause m).nxt = m.nxt := noLnHostRcdUpSec_nxt (excludeLane_noLnHostRcdUpSec m l cause)
@[simp] theorem excludeLane_en (l : LaneId) (cause : Nat) : (excludeLane l cause m).en = m.en := noLnHostRcdUpSec_en (excludeLane_noLnHostRcdUpSec m l cause)
@[simp] theorem excludeLane_fio (l : LaneId) (cause : Nat) : (excludeLane l cause m).fio = m.fio := noLnHostRcdUpSec_fio (excludeLane_noLnHostRcdUpSec m l cause)
@[simp] theorem excludeLane_bt (l : LaneId) (cause : Nat) : (excludeLane l cause m).bt = m.bt := noLnHostRcdUpSec_bt (excludeLane_noLnHostRcdUpSec m l cause)
@[simp] theorem excludeLane_str (l : LaneId) (cause : Nat) : (excludeLane l cause m).str = m.str := noLnHostRcdUpSec_str (excludeLane_noLnHostRcdUpSec m l cause)
@[simp] theorem excludeLane_can (l : LaneId) (cause : Nat) : (excludeLane l cause m).can = m.can := noLnHostRcdUpSec_can (excludeLane_noLnHostRcdUpSec m l cause)
@[simp] theorem excludeLane_net (l : LaneId) (cause : Nat) : (excludeLane l cause m).net = m.net := noLnHostRcdUpSec_net (excludeLane_noLnHostRcdUpSec m l cause)
@[simp] theorem excludeLane_rc (l : LaneId) (cause : Nat) : (excludeLane l cause m).rc = m.rc := noLnHostRcdUpSec_rc (excludeLane_noLnHostRcdUpSec m l cause)
@[simp] theorem excludeLane_pc (l : LaneId) (cause : Nat) : (excludeLane l cause m).pc = m.pc := noLnHostRcdUpSec_pc (excludeLane_noLnHostRcdUpSec m l cause)
@[simp] theorem excludeLane_pr (l : LaneId) (cause : Nat) : (excludeLane l cause m).pr = m.pr := noLnHostRcdUpSec_pr (excludeLane_noLnHostRcdUpSec m l cause)
@[simp] theorem excludeLane_stateOut (l : LaneId) (cause : Nat) : (excludeLane l cause m).stateOut = m.stateOut := noLnHostRcdUpSec_stateOut (excludeLane_noLnHostRcdUpSec m l cause)

@[simp] theorem tellFault_noHR (l : LaneId) : (tellFault l m).noHR = m.noHR := by
  unfold tellFault; dsimp only; (repeat' split) <;> simp [Mod.noHR]
@[simp] theorem tellFault_powered (l : LaneId) : (tellFault l m).powered = m.powered := noHR_powered (tellFault_noHR m l)
@[simp] theorem tellFault_clk (l : LaneId) : (tellFault l m).clk = m.clk := noHR_clk (tellFault_noHR m l)
@[simp] theorem tellFault_freeN (l : LaneId) : (tellFault l m).freeN = m.freeN := noHR_freeN (tellFault_noHR m l)
@[simp] theorem tellFault_nv (l : LaneId) : (tellFault l m).nv = m.nv := noHR_nv (tellFault_noHR m l)
@[simp] theorem tellFault_cfg (l : LaneId) : (tellFault l m).cfg = m.cfg := noHR_cfg (tellFault_noHR m l)
@[simp] theorem tellFault_tm (l : LaneId) : (tellFault l m).tm = m.tm := noHR_tm (tellFault_noHR m l)
@[simp] theorem tellFault_ln (l : LaneId) : (tellFault l m).ln = m.ln := noHR_ln (tellFault_noHR m l)
@[simp] theorem tellFault_md (l : LaneId) : (tellFault l m).md = m.md := noHR_md (tellFault_noHR m l)
@[simp] theorem tellFault_pw (l : LaneId) : (tellFault l m).pw = m.pw := noHR_pw (tellFault_noHR m l)
@[simp] theorem tellFault_lg (l : LaneId) : (tellFault l m).lg = m.lg := noHR_lg (tellFault_noHR m l)
@[simp] theorem tellFault_cur (l : LaneId) : (tellFault l m).cur = m.cur := noHR_cur (tellFault_noHR m l)
@[simp] theorem tellFault_nxt (l : LaneId) : (tellFault l m).nxt = m.nxt := noHR_nxt (tellFault_noHR m l)
@[simp] theorem tellFault_en (l : LaneId) : (tellFault l m).en = m.en := noHR_en (tellFault_noHR m l)
@[simp] theorem tellFault_fio (l : LaneId) : (tellFault l m).fio = m.fio := noHR_fio (tellFault_noHR m l)
@[simp] theorem tellFault_bt (l : LaneId) : (tellFault l m).bt = m.bt := noHR_bt (tellFault_noHR m l)
@[simp] theorem tellFault_str (l : LaneId) : (tellFault l m).str = m.str := noHR_str (tellFault_noHR m l)
@[simp] theorem tellFault_can (l : LaneId) : (tellFault l m).can = m.can := noHR_can (tellFault_noHR m l)
@[simp] theorem tellFault_net (l : LaneId) : (tellFault l m).net = m.net := noHR_net (tellFault_noHR m l)
@[simp] theorem tellFault_rc (l : LaneId) : (tellFault l m).rc = m.rc := noHR_rc (tellFault_noHR m l)
@[simp] theorem tellFault_pc (l : LaneId) : (tellFault l m).pc = m.pc := noHR_pc (tellFault_noHR m l)
@[simp] theorem tellFault_up (l : LaneId) : (tellFault l m).up = m.up := noHR_up (tellFault_noHR m l)
@[simp] theorem tellFault_sec (l : LaneId) : (tellFault l m).sec = m.sec := noHR_sec (tellFault_noHR m l)
@[simp] theorem tellFault_pr (l : LaneId) : (tellFault l m).pr = m.pr := noHR_pr (tellFault_noHR m l)
@[simp] theorem tellFault_stateOut (l : LaneId) : (tellFault l m).stateOut = m.stateOut := noHR_stateOut (tellFault_noHR m l)

@[simp] theorem dropTrigs_noMd : (dropTrigs m).noMd = m.noMd := by
  unfold dropTrigs; split <;> simp [Mod.noMd]
@[simp] theorem dropTrigs_powered : (dropTrigs m).powered = m.powered := noMd_powered (dropTrigs_noMd m)
@[simp] theorem dropTrigs_clk : (dropTrigs m).clk = m.clk := noMd_clk (dropTrigs_noMd m)
@[simp] theorem dropTrigs_freeN : (dropTrigs m).freeN = m.freeN := noMd_freeN (dropTrigs_noMd m)
@[simp] theorem dropTrigs_nv : (dropTrigs m).nv = m.nv := noMd_nv (dropTrigs_noMd m)
@[simp] theorem dropTrigs_cfg : (dropTrigs m).cfg = m.cfg := noMd_cfg (dropTrigs_noMd m)
@[simp] theorem dropTrigs_tm : (dropTrigs m).tm = m.tm := noMd_tm (dropTrigs_noMd m)
@[simp] theorem dropTrigs_ln : (dropTrigs m).ln = m.ln := noMd_ln (dropTrigs_noMd m)
@[simp] theorem dropTrigs_pw : (dropTrigs m).pw = m.pw := noMd_pw (dropTrigs_noMd m)
@[simp] theorem dropTrigs_lg : (dropTrigs m).lg = m.lg := noMd_lg (dropTrigs_noMd m)
@[simp] theorem dropTrigs_cur : (dropTrigs m).cur = m.cur := noMd_cur (dropTrigs_noMd m)
@[simp] theorem dropTrigs_nxt : (dropTrigs m).nxt = m.nxt := noMd_nxt (dropTrigs_noMd m)
@[simp] theorem dropTrigs_en : (dropTrigs m).en = m.en := noMd_en (dropTrigs_noMd m)
@[simp] theorem dropTrigs_fio : (dropTrigs m).fio = m.fio := noMd_fio (dropTrigs_noMd m)
@[simp] theorem dropTrigs_bt : (dropTrigs m).bt = m.bt := noMd_bt (dropTrigs_noMd m)
@[simp] theorem dropTrigs_str : (dropTrigs m).str = m.str := noMd_str (dropTrigs_noMd m)
@[simp] theorem dropTrigs_can : (dropTrigs m).can = m.can := noMd_can (dropTrigs_noMd m)
@[simp] theorem dropTrigs_net : (dropTrigs m).net = m.net := noMd_net (dropTrigs_noMd m)
@[simp] theorem dropTrigs_host : (dropTrigs m).host = m.host := noMd_host (dropTrigs_noMd m)
@[simp] theorem dropTrigs_rcd : (dropTrigs m).rcd = m.rcd := noMd_rcd (dropTrigs_noMd m)
@[simp] theorem dropTrigs_rc : (dropTrigs m).rc = m.rc := noMd_rc (dropTrigs_noMd m)
@[simp] theorem dropTrigs_pc : (dropTrigs m).pc = m.pc := noMd_pc (dropTrigs_noMd m)
@[simp] theorem dropTrigs_up : (dropTrigs m).up = m.up := noMd_up (dropTrigs_noMd m)
@[simp] theorem dropTrigs_sec : (dropTrigs m).sec = m.sec := noMd_sec (dropTrigs_noMd m)
@[simp] theorem dropTrigs_pr : (dropTrigs m).pr = m.pr := noMd_pr (dropTrigs_noMd m)
@[simp] theorem dropTrigs_stateOut : (dropTrigs m).stateOut = m.stateOut := noMd_stateOut (dropTrigs_noMd m)

/-- All but str. -/
def Mod.noStr (m : Mod) : Mod :=
  { m with str := Stride.fresh 0 }

theorem noStr_powered {a b : Mod} (h : a.noStr = b.noStr) : a.powered = b.powered := (congrArg Mod.powered h :)
theorem noStr_clk {a b : Mod} (h : a.noStr = b.noStr) : a.clk = b.clk := (congrArg Mod.clk h :)
theorem noStr_freeN {a b : Mod} (h : a.noStr = b.noStr) : a.freeN = b.freeN := (congrArg Mod.freeN h :)
theorem noStr_nv {a b : Mod} (h : a.noStr = b.noStr) : a.nv = b.nv := (congrArg Mod.nv h :)
theorem noStr_cfg {a b : Mod} (h : a.noStr = b.noStr) : a.cfg = b.cfg := (congrArg Mod.cfg h :)
theorem noStr_tm {a b : Mod} (h : a.noStr = b.noStr) : a.tm = b.tm := (congrArg Mod.tm h :)
theorem noStr_ln {a b : Mod} (h : a.noStr = b.noStr) : a.ln = b.ln := (congrArg Mod.ln h :)
theorem noStr_md {a b : Mod} (h : a.noStr = b.noStr) : a.md = b.md := (congrArg Mod.md h :)
theorem noStr_pw {a b : Mod} (h : a.noStr = b.noStr) : a.pw = b.pw := (congrArg Mod.pw h :)
theorem noStr_lg {a b : Mod} (h : a.noStr = b.noStr) : a.lg = b.lg := (congrArg Mod.lg h :)
theorem noStr_cur {a b : Mod} (h : a.noStr = b.noStr) : a.cur = b.cur := (congrArg Mod.cur h :)
theorem noStr_nxt {a b : Mod} (h : a.noStr = b.noStr) : a.nxt = b.nxt := (congrArg Mod.nxt h :)
theorem noStr_en {a b : Mod} (h : a.noStr = b.noStr) : a.en = b.en := (congrArg Mod.en h :)
theorem noStr_fio {a b : Mod} (h : a.noStr = b.noStr) : a.fio = b.fio := (congrArg Mod.fio h :)
theorem noStr_bt {a b : Mod} (h : a.noStr = b.noStr) : a.bt = b.bt := (congrArg Mod.bt h :)
theorem noStr_can {a b : Mod} (h : a.noStr = b.noStr) : a.can = b.can := (congrArg Mod.can h :)
theorem noStr_net {a b : Mod} (h : a.noStr = b.noStr) : a.net = b.net := (congrArg Mod.net h :)
theorem noStr_host {a b : Mod} (h : a.noStr = b.noStr) : a.host = b.host := (congrArg Mod.host h :)
theorem noStr_rcd {a b : Mod} (h : a.noStr = b.noStr) : a.rcd = b.rcd := (congrArg Mod.rcd h :)
theorem noStr_rc {a b : Mod} (h : a.noStr = b.noStr) : a.rc = b.rc := (congrArg Mod.rc h :)
theorem noStr_pc {a b : Mod} (h : a.noStr = b.noStr) : a.pc = b.pc := (congrArg Mod.pc h :)
theorem noStr_up {a b : Mod} (h : a.noStr = b.noStr) : a.up = b.up := (congrArg Mod.up h :)
theorem noStr_sec {a b : Mod} (h : a.noStr = b.noStr) : a.sec = b.sec := (congrArg Mod.sec h :)
theorem noStr_pr {a b : Mod} (h : a.noStr = b.noStr) : a.pr = b.pr := (congrArg Mod.pr h :)
theorem noStr_stateOut {a b : Mod} (h : a.noStr = b.noStr) : a.stateOut = b.stateOut := (congrArg Mod.stateOut h :)

@[simp] theorem stopStrideAt_noStr : (stopStrideAt m).noStr = m.noStr := by
  unfold stopStrideAt; split <;> simp [Mod.noStr]
@[simp] theorem stopStrideAt_powered : (stopStrideAt m).powered = m.powered := noStr_powered (stopStrideAt_noStr m)
@[simp] theorem stopStrideAt_clk : (stopStrideAt m).clk = m.clk := noStr_clk (stopStrideAt_noStr m)
@[simp] theorem stopStrideAt_freeN : (stopStrideAt m).freeN = m.freeN := noStr_freeN (stopStrideAt_noStr m)
@[simp] theorem stopStrideAt_nv : (stopStrideAt m).nv = m.nv := noStr_nv (stopStrideAt_noStr m)
@[simp] theorem stopStrideAt_cfg : (stopStrideAt m).cfg = m.cfg := noStr_cfg (stopStrideAt_noStr m)
@[simp] theorem stopStrideAt_tm : (stopStrideAt m).tm = m.tm := noStr_tm (stopStrideAt_noStr m)
@[simp] theorem stopStrideAt_ln : (stopStrideAt m).ln = m.ln := noStr_ln (stopStrideAt_noStr m)
@[simp] theorem stopStrideAt_md : (stopStrideAt m).md = m.md := noStr_md (stopStrideAt_noStr m)
@[simp] theorem stopStrideAt_pw : (stopStrideAt m).pw = m.pw := noStr_pw (stopStrideAt_noStr m)
@[simp] theorem stopStrideAt_lg : (stopStrideAt m).lg = m.lg := noStr_lg (stopStrideAt_noStr m)
@[simp] theorem stopStrideAt_cur : (stopStrideAt m).cur = m.cur := noStr_cur (stopStrideAt_noStr m)
@[simp] theorem stopStrideAt_nxt : (stopStrideAt m).nxt = m.nxt := noStr_nxt (stopStrideAt_noStr m)
@[simp] theorem stopStrideAt_en : (stopStrideAt m).en = m.en := noStr_en (stopStrideAt_noStr m)
@[simp] theorem stopStrideAt_fio : (stopStrideAt m).fio = m.fio := noStr_fio (stopStrideAt_noStr m)
@[simp] theorem stopStrideAt_bt : (stopStrideAt m).bt = m.bt := noStr_bt (stopStrideAt_noStr m)
@[simp] theorem stopStrideAt_can : (stopStrideAt m).can = m.can := noStr_can (stopStrideAt_noStr m)
@[simp] theorem stopStrideAt_net : (stopStrideAt m).net = m.net := noStr_net (stopStrideAt_noStr m)
@[simp] theorem stopStrideAt_host : (stopStrideAt m).host = m.host := noStr_host (stopStrideAt_noStr m)
@[simp] theorem stopStrideAt_rcd : (stopStrideAt m).rcd = m.rcd := noStr_rcd (stopStrideAt_noStr m)
@[simp] theorem stopStrideAt_rc : (stopStrideAt m).rc = m.rc := noStr_rc (stopStrideAt_noStr m)
@[simp] theorem stopStrideAt_pc : (stopStrideAt m).pc = m.pc := noStr_pc (stopStrideAt_noStr m)
@[simp] theorem stopStrideAt_up : (stopStrideAt m).up = m.up := noStr_up (stopStrideAt_noStr m)
@[simp] theorem stopStrideAt_sec : (stopStrideAt m).sec = m.sec := noStr_sec (stopStrideAt_noStr m)
@[simp] theorem stopStrideAt_pr : (stopStrideAt m).pr = m.pr := noStr_pr (stopStrideAt_noStr m)
@[simp] theorem stopStrideAt_stateOut : (stopStrideAt m).stateOut = m.stateOut := noStr_stateOut (stopStrideAt_noStr m)

/-- All but freeN, can, host, rcd, pr. -/
def Mod.noFreeNCanHostRcdPr (m : Mod) : Mod :=
  { m with freeN := 0, can := ⟨0, [], []⟩, host := HostIf.fresh, rcd := Recorder.fresh, pr := Pair.fresh }

theorem noFreeNCanHostRcdPr_powered {a b : Mod} (h : a.noFreeNCanHostRcdPr = b.noFreeNCanHostRcdPr) : a.powered = b.powered := (congrArg Mod.powered h :)
theorem noFreeNCanHostRcdPr_clk {a b : Mod} (h : a.noFreeNCanHostRcdPr = b.noFreeNCanHostRcdPr) : a.clk = b.clk := (congrArg Mod.clk h :)
theorem noFreeNCanHostRcdPr_nv {a b : Mod} (h : a.noFreeNCanHostRcdPr = b.noFreeNCanHostRcdPr) : a.nv = b.nv := (congrArg Mod.nv h :)
theorem noFreeNCanHostRcdPr_cfg {a b : Mod} (h : a.noFreeNCanHostRcdPr = b.noFreeNCanHostRcdPr) : a.cfg = b.cfg := (congrArg Mod.cfg h :)
theorem noFreeNCanHostRcdPr_tm {a b : Mod} (h : a.noFreeNCanHostRcdPr = b.noFreeNCanHostRcdPr) : a.tm = b.tm := (congrArg Mod.tm h :)
theorem noFreeNCanHostRcdPr_ln {a b : Mod} (h : a.noFreeNCanHostRcdPr = b.noFreeNCanHostRcdPr) : a.ln = b.ln := (congrArg Mod.ln h :)
theorem noFreeNCanHostRcdPr_md {a b : Mod} (h : a.noFreeNCanHostRcdPr = b.noFreeNCanHostRcdPr) : a.md = b.md := (congrArg Mod.md h :)
theorem noFreeNCanHostRcdPr_pw {a b : Mod} (h : a.noFreeNCanHostRcdPr = b.noFreeNCanHostRcdPr) : a.pw = b.pw := (congrArg Mod.pw h :)
theorem noFreeNCanHostRcdPr_lg {a b : Mod} (h : a.noFreeNCanHostRcdPr = b.noFreeNCanHostRcdPr) : a.lg = b.lg := (congrArg Mod.lg h :)
theorem noFreeNCanHostRcdPr_cur {a b : Mod} (h : a.noFreeNCanHostRcdPr = b.noFreeNCanHostRcdPr) : a.cur = b.cur := (congrArg Mod.cur h :)
theorem noFreeNCanHostRcdPr_nxt {a b : Mod} (h : a.noFreeNCanHostRcdPr = b.noFreeNCanHostRcdPr) : a.nxt = b.nxt := (congrArg Mod.nxt h :)
theorem noFreeNCanHostRcdPr_en {a b : Mod} (h : a.noFreeNCanHostRcdPr = b.noFreeNCanHostRcdPr) : a.en = b.en := (congrArg Mod.en h :)
theorem noFreeNCanHostRcdPr_fio {a b : Mod} (h : a.noFreeNCanHostRcdPr = b.noFreeNCanHostRcdPr) : a.fio = b.fio := (congrArg Mod.fio h :)
theorem noFreeNCanHostRcdPr_bt {a b : Mod} (h : a.noFreeNCanHostRcdPr = b.noFreeNCanHostRcdPr) : a.bt = b.bt := (congrArg Mod.bt h :)
theorem noFreeNCanHostRcdPr_str {a b : Mod} (h : a.noFreeNCanHostRcdPr = b.noFreeNCanHostRcdPr) : a.str = b.str := (congrArg Mod.str h :)
theorem noFreeNCanHostRcdPr_net {a b : Mod} (h : a.noFreeNCanHostRcdPr = b.noFreeNCanHostRcdPr) : a.net = b.net := (congrArg Mod.net h :)
theorem noFreeNCanHostRcdPr_rc {a b : Mod} (h : a.noFreeNCanHostRcdPr = b.noFreeNCanHostRcdPr) : a.rc = b.rc := (congrArg Mod.rc h :)
theorem noFreeNCanHostRcdPr_pc {a b : Mod} (h : a.noFreeNCanHostRcdPr = b.noFreeNCanHostRcdPr) : a.pc = b.pc := (congrArg Mod.pc h :)
theorem noFreeNCanHostRcdPr_up {a b : Mod} (h : a.noFreeNCanHostRcdPr = b.noFreeNCanHostRcdPr) : a.up = b.up := (congrArg Mod.up h :)
theorem noFreeNCanHostRcdPr_sec {a b : Mod} (h : a.noFreeNCanHostRcdPr = b.noFreeNCanHostRcdPr) : a.sec = b.sec := (congrArg Mod.sec h :)
theorem noFreeNCanHostRcdPr_stateOut {a b : Mod} (h : a.noFreeNCanHostRcdPr = b.noFreeNCanHostRcdPr) : a.stateOut = b.stateOut := (congrArg Mod.stateOut h :)

@[simp] theorem endOpen_noFreeNCanHostRcdPr : (endOpen m).noFreeNCanHostRcdPr = m.noFreeNCanHostRcdPr := by
  unfold endOpen
  have h : ∀ x : Mod, (forEach (List.range 4) (fun c acc => abortChannel c 3 false (openStarts c acc)) x).noFreeNCanHostRcdPr = x.noFreeNCanHostRcdPr := fun x =>
    forEach_keeps x Mod.noFreeNCanHostRcdPr _ _ (fun c n => by simp [Mod.noFreeNCanHostRcdPr])
  rw [show ∀ x : Mod, (flushCpls x).noFreeNCanHostRcdPr = x.noFreeNCanHostRcdPr from fun x => by simp [Mod.noFreeNCanHostRcdPr], h]; simp [Mod.noFreeNCanHostRcdPr]
@[simp] theorem endOpen_powered : (endOpen m).powered = m.powered := noFreeNCanHostRcdPr_powered (endOpen_noFreeNCanHostRcdPr m)
@[simp] theorem endOpen_clk : (endOpen m).clk = m.clk := noFreeNCanHostRcdPr_clk (endOpen_noFreeNCanHostRcdPr m)
@[simp] theorem endOpen_nv : (endOpen m).nv = m.nv := noFreeNCanHostRcdPr_nv (endOpen_noFreeNCanHostRcdPr m)
@[simp] theorem endOpen_cfg : (endOpen m).cfg = m.cfg := noFreeNCanHostRcdPr_cfg (endOpen_noFreeNCanHostRcdPr m)
@[simp] theorem endOpen_tm : (endOpen m).tm = m.tm := noFreeNCanHostRcdPr_tm (endOpen_noFreeNCanHostRcdPr m)
@[simp] theorem endOpen_ln : (endOpen m).ln = m.ln := noFreeNCanHostRcdPr_ln (endOpen_noFreeNCanHostRcdPr m)
@[simp] theorem endOpen_md : (endOpen m).md = m.md := noFreeNCanHostRcdPr_md (endOpen_noFreeNCanHostRcdPr m)
@[simp] theorem endOpen_pw : (endOpen m).pw = m.pw := noFreeNCanHostRcdPr_pw (endOpen_noFreeNCanHostRcdPr m)
@[simp] theorem endOpen_lg : (endOpen m).lg = m.lg := noFreeNCanHostRcdPr_lg (endOpen_noFreeNCanHostRcdPr m)
@[simp] theorem endOpen_cur : (endOpen m).cur = m.cur := noFreeNCanHostRcdPr_cur (endOpen_noFreeNCanHostRcdPr m)
@[simp] theorem endOpen_nxt : (endOpen m).nxt = m.nxt := noFreeNCanHostRcdPr_nxt (endOpen_noFreeNCanHostRcdPr m)
@[simp] theorem endOpen_en : (endOpen m).en = m.en := noFreeNCanHostRcdPr_en (endOpen_noFreeNCanHostRcdPr m)
@[simp] theorem endOpen_fio : (endOpen m).fio = m.fio := noFreeNCanHostRcdPr_fio (endOpen_noFreeNCanHostRcdPr m)
@[simp] theorem endOpen_bt : (endOpen m).bt = m.bt := noFreeNCanHostRcdPr_bt (endOpen_noFreeNCanHostRcdPr m)
@[simp] theorem endOpen_str : (endOpen m).str = m.str := noFreeNCanHostRcdPr_str (endOpen_noFreeNCanHostRcdPr m)
@[simp] theorem endOpen_net : (endOpen m).net = m.net := noFreeNCanHostRcdPr_net (endOpen_noFreeNCanHostRcdPr m)
@[simp] theorem endOpen_rc : (endOpen m).rc = m.rc := noFreeNCanHostRcdPr_rc (endOpen_noFreeNCanHostRcdPr m)
@[simp] theorem endOpen_pc : (endOpen m).pc = m.pc := noFreeNCanHostRcdPr_pc (endOpen_noFreeNCanHostRcdPr m)
@[simp] theorem endOpen_up : (endOpen m).up = m.up := noFreeNCanHostRcdPr_up (endOpen_noFreeNCanHostRcdPr m)
@[simp] theorem endOpen_sec : (endOpen m).sec = m.sec := noFreeNCanHostRcdPr_sec (endOpen_noFreeNCanHostRcdPr m)
@[simp] theorem endOpen_stateOut : (endOpen m).stateOut = m.stateOut := noFreeNCanHostRcdPr_stateOut (endOpen_noFreeNCanHostRcdPr m)

/-- The beginning of HALT entry: outputs open, the retain record written, forces and waiting triggers dropped, the mode taken. -/
def haltHead (cause : Nat) (m : Mod) : Mod :=
  updLg (fun g => { g with running := none, stack := [], drive := 0 })
    (updMd (fun d => { d with mode := .halt, hcause := cause, step := 0, pendMode := none, haltAt := m.clk, arTold := false,
                              haltv := cause == 1 || cause == 9 }) (dropTrigs (dropForces (writeRetains (openOutputs m)))))

/-- Submissions and CAN FD entries are ended, and those left are counted. -/
def haltEnd (m : Mod) : Mod :=
  let n := endOpen (updHost (fun h => { h with crit := [], critWait := [] }) (updRc (fun r => { r with state := 0, sub := none }) m))
  stopStrideAt (updMd (fun d => { d with haltOpen := leftOpen n }) n)

/-- What is told, and what ends with it. -/
def haltTail (cause prev : Nat) (m : Mod) : Mod :=
  flushRead (flushEvents (abandonActivation 5 (endHostSession (raise 0x00 { arg1 := 0, arg2 := prev }
    (raise 0x04 { arg1 := cause, arg2 := m.md.haltOpen } m)))))


/-- All but ln, md, lg, fio, host, rcd. -/
def Mod.noLnMdLgFioHostRcd (m : Mod) : Mod :=
  { m with ln := PerLane.all (Lane.fresh (LaneNv.fresh 0 0)), md := Modes.fresh, lg := Logic.fresh AppImage.empty, fio := Fio.fresh, host := HostIf.fresh, rcd := Recorder.fresh }

theorem noLnMdLgFioHostRcd_powered {a b : Mod} (h : a.noLnMdLgFioHostRcd = b.noLnMdLgFioHostRcd) : a.powered = b.powered := (congrArg Mod.powered h :)
theorem noLnMdLgFioHostRcd_clk {a b : Mod} (h : a.noLnMdLgFioHostRcd = b.noLnMdLgFioHostRcd) : a.clk = b.clk := (congrArg Mod.clk h :)
theorem noLnMdLgFioHostRcd_freeN {a b : Mod} (h : a.noLnMdLgFioHostRcd = b.noLnMdLgFioHostRcd) : a.freeN = b.freeN := (congrArg Mod.freeN h :)
theorem noLnMdLgFioHostRcd_nv {a b : Mod} (h : a.noLnMdLgFioHostRcd = b.noLnMdLgFioHostRcd) : a.nv = b.nv := (congrArg Mod.nv h :)
theorem noLnMdLgFioHostRcd_cfg {a b : Mod} (h : a.noLnMdLgFioHostRcd = b.noLnMdLgFioHostRcd) : a.cfg = b.cfg := (congrArg Mod.cfg h :)
theorem noLnMdLgFioHostRcd_tm {a b : Mod} (h : a.noLnMdLgFioHostRcd = b.noLnMdLgFioHostRcd) : a.tm = b.tm := (congrArg Mod.tm h :)
theorem noLnMdLgFioHostRcd_pw {a b : Mod} (h : a.noLnMdLgFioHostRcd = b.noLnMdLgFioHostRcd) : a.pw = b.pw := (congrArg Mod.pw h :)
theorem noLnMdLgFioHostRcd_cur {a b : Mod} (h : a.noLnMdLgFioHostRcd = b.noLnMdLgFioHostRcd) : a.cur = b.cur := (congrArg Mod.cur h :)
theorem noLnMdLgFioHostRcd_nxt {a b : Mod} (h : a.noLnMdLgFioHostRcd = b.noLnMdLgFioHostRcd) : a.nxt = b.nxt := (congrArg Mod.nxt h :)
theorem noLnMdLgFioHostRcd_en {a b : Mod} (h : a.noLnMdLgFioHostRcd = b.noLnMdLgFioHostRcd) : a.en = b.en := (congrArg Mod.en h :)
theorem noLnMdLgFioHostRcd_bt {a b : Mod} (h : a.noLnMdLgFioHostRcd = b.noLnMdLgFioHostRcd) : a.bt = b.bt := (congrArg Mod.bt h :)
theorem noLnMdLgFioHostRcd_str {a b : Mod} (h : a.noLnMdLgFioHostRcd = b.noLnMdLgFioHostRcd) : a.str = b.str := (congrArg Mod.str h :)
theorem noLnMdLgFioHostRcd_can {a b : Mod} (h : a.noLnMdLgFioHostRcd = b.noLnMdLgFioHostRcd) : a.can = b.can := (congrArg Mod.can h :)
theorem noLnMdLgFioHostRcd_net {a b : Mod} (h : a.noLnMdLgFioHostRcd = b.noLnMdLgFioHostRcd) : a.net = b.net := (congrArg Mod.net h :)
theorem noLnMdLgFioHostRcd_rc {a b : Mod} (h : a.noLnMdLgFioHostRcd = b.noLnMdLgFioHostRcd) : a.rc = b.rc := (congrArg Mod.rc h :)
theorem noLnMdLgFioHostRcd_pc {a b : Mod} (h : a.noLnMdLgFioHostRcd = b.noLnMdLgFioHostRcd) : a.pc = b.pc := (congrArg Mod.pc h :)
theorem noLnMdLgFioHostRcd_up {a b : Mod} (h : a.noLnMdLgFioHostRcd = b.noLnMdLgFioHostRcd) : a.up = b.up := (congrArg Mod.up h :)
theorem noLnMdLgFioHostRcd_sec {a b : Mod} (h : a.noLnMdLgFioHostRcd = b.noLnMdLgFioHostRcd) : a.sec = b.sec := (congrArg Mod.sec h :)
theorem noLnMdLgFioHostRcd_pr {a b : Mod} (h : a.noLnMdLgFioHostRcd = b.noLnMdLgFioHostRcd) : a.pr = b.pr := (congrArg Mod.pr h :)
theorem noLnMdLgFioHostRcd_stateOut {a b : Mod} (h : a.noLnMdLgFioHostRcd = b.noLnMdLgFioHostRcd) : a.stateOut = b.stateOut := (congrArg Mod.stateOut h :)

@[simp] theorem haltHead_noLnMdLgFioHostRcd (cause : Nat) : (haltHead cause m).noLnMdLgFioHostRcd = m.noLnMdLgFioHostRcd := by
  unfold haltHead; simp [Mod.noLnMdLgFioHostRcd]
@[simp] theorem haltHead_powered (cause : Nat) : (haltHead cause m).powered = m.powered := noLnMdLgFioHostRcd_powered (haltHead_noLnMdLgFioHostRcd m cause)
@[simp] theorem haltHead_clk (cause : Nat) : (haltHead cause m).clk = m.clk := noLnMdLgFioHostRcd_clk (haltHead_noLnMdLgFioHostRcd m cause)
@[simp] theorem haltHead_freeN (cause : Nat) : (haltHead cause m).freeN = m.freeN := noLnMdLgFioHostRcd_freeN (haltHead_noLnMdLgFioHostRcd m cause)
@[simp] theorem haltHead_nv (cause : Nat) : (haltHead cause m).nv = m.nv := noLnMdLgFioHostRcd_nv (haltHead_noLnMdLgFioHostRcd m cause)
@[simp] theorem haltHead_cfg (cause : Nat) : (haltHead cause m).cfg = m.cfg := noLnMdLgFioHostRcd_cfg (haltHead_noLnMdLgFioHostRcd m cause)
@[simp] theorem haltHead_tm (cause : Nat) : (haltHead cause m).tm = m.tm := noLnMdLgFioHostRcd_tm (haltHead_noLnMdLgFioHostRcd m cause)
@[simp] theorem haltHead_pw (cause : Nat) : (haltHead cause m).pw = m.pw := noLnMdLgFioHostRcd_pw (haltHead_noLnMdLgFioHostRcd m cause)
@[simp] theorem haltHead_cur (cause : Nat) : (haltHead cause m).cur = m.cur := noLnMdLgFioHostRcd_cur (haltHead_noLnMdLgFioHostRcd m cause)
@[simp] theorem haltHead_nxt (cause : Nat) : (haltHead cause m).nxt = m.nxt := noLnMdLgFioHostRcd_nxt (haltHead_noLnMdLgFioHostRcd m cause)
@[simp] theorem haltHead_en (cause : Nat) : (haltHead cause m).en = m.en := noLnMdLgFioHostRcd_en (haltHead_noLnMdLgFioHostRcd m cause)
@[simp] theorem haltHead_bt (cause : Nat) : (haltHead cause m).bt = m.bt := noLnMdLgFioHostRcd_bt (haltHead_noLnMdLgFioHostRcd m cause)
@[simp] theorem haltHead_str (cause : Nat) : (haltHead cause m).str = m.str := noLnMdLgFioHostRcd_str (haltHead_noLnMdLgFioHostRcd m cause)
@[simp] theorem haltHead_can (cause : Nat) : (haltHead cause m).can = m.can := noLnMdLgFioHostRcd_can (haltHead_noLnMdLgFioHostRcd m cause)
@[simp] theorem haltHead_net (cause : Nat) : (haltHead cause m).net = m.net := noLnMdLgFioHostRcd_net (haltHead_noLnMdLgFioHostRcd m cause)
@[simp] theorem haltHead_rc (cause : Nat) : (haltHead cause m).rc = m.rc := noLnMdLgFioHostRcd_rc (haltHead_noLnMdLgFioHostRcd m cause)
@[simp] theorem haltHead_pc (cause : Nat) : (haltHead cause m).pc = m.pc := noLnMdLgFioHostRcd_pc (haltHead_noLnMdLgFioHostRcd m cause)
@[simp] theorem haltHead_up (cause : Nat) : (haltHead cause m).up = m.up := noLnMdLgFioHostRcd_up (haltHead_noLnMdLgFioHostRcd m cause)
@[simp] theorem haltHead_sec (cause : Nat) : (haltHead cause m).sec = m.sec := noLnMdLgFioHostRcd_sec (haltHead_noLnMdLgFioHostRcd m cause)
@[simp] theorem haltHead_pr (cause : Nat) : (haltHead cause m).pr = m.pr := noLnMdLgFioHostRcd_pr (haltHead_noLnMdLgFioHostRcd m cause)
@[simp] theorem haltHead_stateOut (cause : Nat) : (haltHead cause m).stateOut = m.stateOut := noLnMdLgFioHostRcd_stateOut (haltHead_noLnMdLgFioHostRcd m cause)

/-- All but freeN, md, str, can, host, rcd, rc, pr. -/
def Mod.noFreeNMdStrCanHostRcdRcPr (m : Mod) : Mod :=
  { m with freeN := 0, md := Modes.fresh, str := Stride.fresh 0, can := ⟨0, [], []⟩, host := HostIf.fresh, rcd := Recorder.fresh, rc := RollCall.fresh, pr := Pair.fresh }

theorem noFreeNMdStrCanHostRcdRcPr_powered {a b : Mod} (h : a.noFreeNMdStrCanHostRcdRcPr = b.noFreeNMdStrCanHostRcdRcPr) : a.powered = b.powered := (congrArg Mod.powered h :)
theorem noFreeNMdStrCanHostRcdRcPr_clk {a b : Mod} (h : a.noFreeNMdStrCanHostRcdRcPr = b.noFreeNMdStrCanHostRcdRcPr) : a.clk = b.clk := (congrArg Mod.clk h :)
theorem noFreeNMdStrCanHostRcdRcPr_nv {a b : Mod} (h : a.noFreeNMdStrCanHostRcdRcPr = b.noFreeNMdStrCanHostRcdRcPr) : a.nv = b.nv := (congrArg Mod.nv h :)
theorem noFreeNMdStrCanHostRcdRcPr_cfg {a b : Mod} (h : a.noFreeNMdStrCanHostRcdRcPr = b.noFreeNMdStrCanHostRcdRcPr) : a.cfg = b.cfg := (congrArg Mod.cfg h :)
theorem noFreeNMdStrCanHostRcdRcPr_tm {a b : Mod} (h : a.noFreeNMdStrCanHostRcdRcPr = b.noFreeNMdStrCanHostRcdRcPr) : a.tm = b.tm := (congrArg Mod.tm h :)
theorem noFreeNMdStrCanHostRcdRcPr_ln {a b : Mod} (h : a.noFreeNMdStrCanHostRcdRcPr = b.noFreeNMdStrCanHostRcdRcPr) : a.ln = b.ln := (congrArg Mod.ln h :)
theorem noFreeNMdStrCanHostRcdRcPr_pw {a b : Mod} (h : a.noFreeNMdStrCanHostRcdRcPr = b.noFreeNMdStrCanHostRcdRcPr) : a.pw = b.pw := (congrArg Mod.pw h :)
theorem noFreeNMdStrCanHostRcdRcPr_lg {a b : Mod} (h : a.noFreeNMdStrCanHostRcdRcPr = b.noFreeNMdStrCanHostRcdRcPr) : a.lg = b.lg := (congrArg Mod.lg h :)
theorem noFreeNMdStrCanHostRcdRcPr_cur {a b : Mod} (h : a.noFreeNMdStrCanHostRcdRcPr = b.noFreeNMdStrCanHostRcdRcPr) : a.cur = b.cur := (congrArg Mod.cur h :)
theorem noFreeNMdStrCanHostRcdRcPr_nxt {a b : Mod} (h : a.noFreeNMdStrCanHostRcdRcPr = b.noFreeNMdStrCanHostRcdRcPr) : a.nxt = b.nxt := (congrArg Mod.nxt h :)
theorem noFreeNMdStrCanHostRcdRcPr_en {a b : Mod} (h : a.noFreeNMdStrCanHostRcdRcPr = b.noFreeNMdStrCanHostRcdRcPr) : a.en = b.en := (congrArg Mod.en h :)
theorem noFreeNMdStrCanHostRcdRcPr_fio {a b : Mod} (h : a.noFreeNMdStrCanHostRcdRcPr = b.noFreeNMdStrCanHostRcdRcPr) : a.fio = b.fio := (congrArg Mod.fio h :)
theorem noFreeNMdStrCanHostRcdRcPr_bt {a b : Mod} (h : a.noFreeNMdStrCanHostRcdRcPr = b.noFreeNMdStrCanHostRcdRcPr) : a.bt = b.bt := (congrArg Mod.bt h :)
theorem noFreeNMdStrCanHostRcdRcPr_net {a b : Mod} (h : a.noFreeNMdStrCanHostRcdRcPr = b.noFreeNMdStrCanHostRcdRcPr) : a.net = b.net := (congrArg Mod.net h :)
theorem noFreeNMdStrCanHostRcdRcPr_pc {a b : Mod} (h : a.noFreeNMdStrCanHostRcdRcPr = b.noFreeNMdStrCanHostRcdRcPr) : a.pc = b.pc := (congrArg Mod.pc h :)
theorem noFreeNMdStrCanHostRcdRcPr_up {a b : Mod} (h : a.noFreeNMdStrCanHostRcdRcPr = b.noFreeNMdStrCanHostRcdRcPr) : a.up = b.up := (congrArg Mod.up h :)
theorem noFreeNMdStrCanHostRcdRcPr_sec {a b : Mod} (h : a.noFreeNMdStrCanHostRcdRcPr = b.noFreeNMdStrCanHostRcdRcPr) : a.sec = b.sec := (congrArg Mod.sec h :)
theorem noFreeNMdStrCanHostRcdRcPr_stateOut {a b : Mod} (h : a.noFreeNMdStrCanHostRcdRcPr = b.noFreeNMdStrCanHostRcdRcPr) : a.stateOut = b.stateOut := (congrArg Mod.stateOut h :)

@[simp] theorem haltEnd_noFreeNMdStrCanHostRcdRcPr : (haltEnd m).noFreeNMdStrCanHostRcdRcPr = m.noFreeNMdStrCanHostRcdRcPr := by
  unfold haltEnd; dsimp only
  rw [show ∀ x : Mod, (stopStrideAt x).noFreeNMdStrCanHostRcdRcPr = x.noFreeNMdStrCanHostRcdRcPr from fun x => by simp [Mod.noFreeNMdStrCanHostRcdRcPr], show ∀ (g : Modes → Modes) (x : Mod), (updMd g x).noFreeNMdStrCanHostRcdRcPr = x.noFreeNMdStrCanHostRcdRcPr from fun _ _ => rfl, show ∀ x : Mod, (endOpen x).noFreeNMdStrCanHostRcdRcPr = x.noFreeNMdStrCanHostRcdRcPr from fun x => by simp [Mod.noFreeNMdStrCanHostRcdRcPr]]; rfl
@[simp] theorem haltEnd_powered : (haltEnd m).powered = m.powered := noFreeNMdStrCanHostRcdRcPr_powered (haltEnd_noFreeNMdStrCanHostRcdRcPr m)
@[simp] theorem haltEnd_clk : (haltEnd m).clk = m.clk := noFreeNMdStrCanHostRcdRcPr_clk (haltEnd_noFreeNMdStrCanHostRcdRcPr m)
@[simp] theorem haltEnd_nv : (haltEnd m).nv = m.nv := noFreeNMdStrCanHostRcdRcPr_nv (haltEnd_noFreeNMdStrCanHostRcdRcPr m)
@[simp] theorem haltEnd_cfg : (haltEnd m).cfg = m.cfg := noFreeNMdStrCanHostRcdRcPr_cfg (haltEnd_noFreeNMdStrCanHostRcdRcPr m)
@[simp] theorem haltEnd_tm : (haltEnd m).tm = m.tm := noFreeNMdStrCanHostRcdRcPr_tm (haltEnd_noFreeNMdStrCanHostRcdRcPr m)
@[simp] theorem haltEnd_ln : (haltEnd m).ln = m.ln := noFreeNMdStrCanHostRcdRcPr_ln (haltEnd_noFreeNMdStrCanHostRcdRcPr m)
@[simp] theorem haltEnd_pw : (haltEnd m).pw = m.pw := noFreeNMdStrCanHostRcdRcPr_pw (haltEnd_noFreeNMdStrCanHostRcdRcPr m)
@[simp] theorem haltEnd_lg : (haltEnd m).lg = m.lg := noFreeNMdStrCanHostRcdRcPr_lg (haltEnd_noFreeNMdStrCanHostRcdRcPr m)
@[simp] theorem haltEnd_cur : (haltEnd m).cur = m.cur := noFreeNMdStrCanHostRcdRcPr_cur (haltEnd_noFreeNMdStrCanHostRcdRcPr m)
@[simp] theorem haltEnd_nxt : (haltEnd m).nxt = m.nxt := noFreeNMdStrCanHostRcdRcPr_nxt (haltEnd_noFreeNMdStrCanHostRcdRcPr m)
@[simp] theorem haltEnd_en : (haltEnd m).en = m.en := noFreeNMdStrCanHostRcdRcPr_en (haltEnd_noFreeNMdStrCanHostRcdRcPr m)
@[simp] theorem haltEnd_fio : (haltEnd m).fio = m.fio := noFreeNMdStrCanHostRcdRcPr_fio (haltEnd_noFreeNMdStrCanHostRcdRcPr m)
@[simp] theorem haltEnd_bt : (haltEnd m).bt = m.bt := noFreeNMdStrCanHostRcdRcPr_bt (haltEnd_noFreeNMdStrCanHostRcdRcPr m)
@[simp] theorem haltEnd_net : (haltEnd m).net = m.net := noFreeNMdStrCanHostRcdRcPr_net (haltEnd_noFreeNMdStrCanHostRcdRcPr m)
@[simp] theorem haltEnd_pc : (haltEnd m).pc = m.pc := noFreeNMdStrCanHostRcdRcPr_pc (haltEnd_noFreeNMdStrCanHostRcdRcPr m)
@[simp] theorem haltEnd_up : (haltEnd m).up = m.up := noFreeNMdStrCanHostRcdRcPr_up (haltEnd_noFreeNMdStrCanHostRcdRcPr m)
@[simp] theorem haltEnd_sec : (haltEnd m).sec = m.sec := noFreeNMdStrCanHostRcdRcPr_sec (haltEnd_noFreeNMdStrCanHostRcdRcPr m)
@[simp] theorem haltEnd_stateOut : (haltEnd m).stateOut = m.stateOut := noFreeNMdStrCanHostRcdRcPr_stateOut (haltEnd_noFreeNMdStrCanHostRcdRcPr m)

/-- All but freeN, nv, lg, host, rcd, pc, up. -/
def Mod.noFreeNNvLgHostRcdPcUp (m : Mod) : Mod :=
  { m with freeN := 0, nv := Nv.fresh, lg := Logic.fresh AppImage.empty, host := HostIf.fresh, rcd := Recorder.fresh, pc := Counters.fresh, up := Update.fresh }

theorem noFreeNNvLgHostRcdPcUp_powered {a b : Mod} (h : a.noFreeNNvLgHostRcdPcUp = b.noFreeNNvLgHostRcdPcUp) : a.powered = b.powered := (congrArg Mod.powered h :)
theorem noFreeNNvLgHostRcdPcUp_clk {a b : Mod} (h : a.noFreeNNvLgHostRcdPcUp = b.noFreeNNvLgHostRcdPcUp) : a.clk = b.clk := (congrArg Mod.clk h :)
theorem noFreeNNvLgHostRcdPcUp_cfg {a b : Mod} (h : a.noFreeNNvLgHostRcdPcUp = b.noFreeNNvLgHostRcdPcUp) : a.cfg = b.cfg := (congrArg Mod.cfg h :)
theorem noFreeNNvLgHostRcdPcUp_tm {a b : Mod} (h : a.noFreeNNvLgHostRcdPcUp = b.noFreeNNvLgHostRcdPcUp) : a.tm = b.tm := (congrArg Mod.tm h :)
theorem noFreeNNvLgHostRcdPcUp_ln {a b : Mod} (h : a.noFreeNNvLgHostRcdPcUp = b.noFreeNNvLgHostRcdPcUp) : a.ln = b.ln := (congrArg Mod.ln h :)
theorem noFreeNNvLgHostRcdPcUp_md {a b : Mod} (h : a.noFreeNNvLgHostRcdPcUp = b.noFreeNNvLgHostRcdPcUp) : a.md = b.md := (congrArg Mod.md h :)
theorem noFreeNNvLgHostRcdPcUp_pw {a b : Mod} (h : a.noFreeNNvLgHostRcdPcUp = b.noFreeNNvLgHostRcdPcUp) : a.pw = b.pw := (congrArg Mod.pw h :)
theorem noFreeNNvLgHostRcdPcUp_cur {a b : Mod} (h : a.noFreeNNvLgHostRcdPcUp = b.noFreeNNvLgHostRcdPcUp) : a.cur = b.cur := (congrArg Mod.cur h :)
theorem noFreeNNvLgHostRcdPcUp_nxt {a b : Mod} (h : a.noFreeNNvLgHostRcdPcUp = b.noFreeNNvLgHostRcdPcUp) : a.nxt = b.nxt := (congrArg Mod.nxt h :)
theorem noFreeNNvLgHostRcdPcUp_en {a b : Mod} (h : a.noFreeNNvLgHostRcdPcUp = b.noFreeNNvLgHostRcdPcUp) : a.en = b.en := (congrArg Mod.en h :)
theorem noFreeNNvLgHostRcdPcUp_fio {a b : Mod} (h : a.noFreeNNvLgHostRcdPcUp = b.noFreeNNvLgHostRcdPcUp) : a.fio = b.fio := (congrArg Mod.fio h :)
theorem noFreeNNvLgHostRcdPcUp_bt {a b : Mod} (h : a.noFreeNNvLgHostRcdPcUp = b.noFreeNNvLgHostRcdPcUp) : a.bt = b.bt := (congrArg Mod.bt h :)
theorem noFreeNNvLgHostRcdPcUp_str {a b : Mod} (h : a.noFreeNNvLgHostRcdPcUp = b.noFreeNNvLgHostRcdPcUp) : a.str = b.str := (congrArg Mod.str h :)
theorem noFreeNNvLgHostRcdPcUp_can {a b : Mod} (h : a.noFreeNNvLgHostRcdPcUp = b.noFreeNNvLgHostRcdPcUp) : a.can = b.can := (congrArg Mod.can h :)
theorem noFreeNNvLgHostRcdPcUp_net {a b : Mod} (h : a.noFreeNNvLgHostRcdPcUp = b.noFreeNNvLgHostRcdPcUp) : a.net = b.net := (congrArg Mod.net h :)
theorem noFreeNNvLgHostRcdPcUp_rc {a b : Mod} (h : a.noFreeNNvLgHostRcdPcUp = b.noFreeNNvLgHostRcdPcUp) : a.rc = b.rc := (congrArg Mod.rc h :)
theorem noFreeNNvLgHostRcdPcUp_sec {a b : Mod} (h : a.noFreeNNvLgHostRcdPcUp = b.noFreeNNvLgHostRcdPcUp) : a.sec = b.sec := (congrArg Mod.sec h :)
theorem noFreeNNvLgHostRcdPcUp_pr {a b : Mod} (h : a.noFreeNNvLgHostRcdPcUp = b.noFreeNNvLgHostRcdPcUp) : a.pr = b.pr := (congrArg Mod.pr h :)
theorem noFreeNNvLgHostRcdPcUp_stateOut {a b : Mod} (h : a.noFreeNNvLgHostRcdPcUp = b.noFreeNNvLgHostRcdPcUp) : a.stateOut = b.stateOut := (congrArg Mod.stateOut h :)

@[simp] theorem haltTail_noFreeNNvLgHostRcdPcUp (cause prev : Nat) : (haltTail cause prev m).noFreeNNvLgHostRcdPcUp = m.noFreeNNvLgHostRcdPcUp := by
  unfold haltTail; simp [Mod.noFreeNNvLgHostRcdPcUp]
@[simp] theorem haltTail_powered (cause prev : Nat) : (haltTail cause prev m).powered = m.powered := noFreeNNvLgHostRcdPcUp_powered (haltTail_noFreeNNvLgHostRcdPcUp m cause prev)
@[simp] theorem haltTail_clk (cause prev : Nat) : (haltTail cause prev m).clk = m.clk := noFreeNNvLgHostRcdPcUp_clk (haltTail_noFreeNNvLgHostRcdPcUp m cause prev)
@[simp] theorem haltTail_cfg (cause prev : Nat) : (haltTail cause prev m).cfg = m.cfg := noFreeNNvLgHostRcdPcUp_cfg (haltTail_noFreeNNvLgHostRcdPcUp m cause prev)
@[simp] theorem haltTail_tm (cause prev : Nat) : (haltTail cause prev m).tm = m.tm := noFreeNNvLgHostRcdPcUp_tm (haltTail_noFreeNNvLgHostRcdPcUp m cause prev)
@[simp] theorem haltTail_ln (cause prev : Nat) : (haltTail cause prev m).ln = m.ln := noFreeNNvLgHostRcdPcUp_ln (haltTail_noFreeNNvLgHostRcdPcUp m cause prev)
@[simp] theorem haltTail_md (cause prev : Nat) : (haltTail cause prev m).md = m.md := noFreeNNvLgHostRcdPcUp_md (haltTail_noFreeNNvLgHostRcdPcUp m cause prev)
@[simp] theorem haltTail_pw (cause prev : Nat) : (haltTail cause prev m).pw = m.pw := noFreeNNvLgHostRcdPcUp_pw (haltTail_noFreeNNvLgHostRcdPcUp m cause prev)
@[simp] theorem haltTail_cur (cause prev : Nat) : (haltTail cause prev m).cur = m.cur := noFreeNNvLgHostRcdPcUp_cur (haltTail_noFreeNNvLgHostRcdPcUp m cause prev)
@[simp] theorem haltTail_nxt (cause prev : Nat) : (haltTail cause prev m).nxt = m.nxt := noFreeNNvLgHostRcdPcUp_nxt (haltTail_noFreeNNvLgHostRcdPcUp m cause prev)
@[simp] theorem haltTail_en (cause prev : Nat) : (haltTail cause prev m).en = m.en := noFreeNNvLgHostRcdPcUp_en (haltTail_noFreeNNvLgHostRcdPcUp m cause prev)
@[simp] theorem haltTail_fio (cause prev : Nat) : (haltTail cause prev m).fio = m.fio := noFreeNNvLgHostRcdPcUp_fio (haltTail_noFreeNNvLgHostRcdPcUp m cause prev)
@[simp] theorem haltTail_bt (cause prev : Nat) : (haltTail cause prev m).bt = m.bt := noFreeNNvLgHostRcdPcUp_bt (haltTail_noFreeNNvLgHostRcdPcUp m cause prev)
@[simp] theorem haltTail_str (cause prev : Nat) : (haltTail cause prev m).str = m.str := noFreeNNvLgHostRcdPcUp_str (haltTail_noFreeNNvLgHostRcdPcUp m cause prev)
@[simp] theorem haltTail_can (cause prev : Nat) : (haltTail cause prev m).can = m.can := noFreeNNvLgHostRcdPcUp_can (haltTail_noFreeNNvLgHostRcdPcUp m cause prev)
@[simp] theorem haltTail_net (cause prev : Nat) : (haltTail cause prev m).net = m.net := noFreeNNvLgHostRcdPcUp_net (haltTail_noFreeNNvLgHostRcdPcUp m cause prev)
@[simp] theorem haltTail_rc (cause prev : Nat) : (haltTail cause prev m).rc = m.rc := noFreeNNvLgHostRcdPcUp_rc (haltTail_noFreeNNvLgHostRcdPcUp m cause prev)
@[simp] theorem haltTail_sec (cause prev : Nat) : (haltTail cause prev m).sec = m.sec := noFreeNNvLgHostRcdPcUp_sec (haltTail_noFreeNNvLgHostRcdPcUp m cause prev)
@[simp] theorem haltTail_pr (cause prev : Nat) : (haltTail cause prev m).pr = m.pr := noFreeNNvLgHostRcdPcUp_pr (haltTail_noFreeNNvLgHostRcdPcUp m cause prev)
@[simp] theorem haltTail_stateOut (cause prev : Nat) : (haltTail cause prev m).stateOut = m.stateOut := noFreeNNvLgHostRcdPcUp_stateOut (haltTail_noFreeNNvLgHostRcdPcUp m cause prev)

/-- HALT is entered from every mode but HALT and RECOVERY. -/
theorem enterHaltTelling_eq (tell : Mod → Mod) (cause : Nat) (h1 : m.md.mode ≠ .halt) (h2 : m.md.mode ≠ .recovery)
    (ht : ∀ x, (tell x).md = x.md) :
    enterHaltTelling tell cause m = haltTail cause (modeCode m.md.mode) (tell (haltEnd (haltHead cause m))) := by
  have hc : (mode m == .halt || mode m == .recovery) = false := by simp [mode, h1, h2]
  unfold enterHaltTelling; rw [hc]
  simp only [Bool.false_eq_true, if_false, haltTail, haltEnd, haltHead, mode, ht, stopStrideAt_md, updMd_md]

theorem enterHaltTelling_again (tell : Mod → Mod) (cause : Nat) (h : m.md.mode = .halt ∨ m.md.mode = .recovery) : enterHaltTelling tell cause m = m := by
  unfold enterHaltTelling; rw [if_pos]; rcases h with h | h <;> simp [mode, h]

theorem enterHalt_eq (cause : Nat) (h1 : m.md.mode ≠ .halt) (h2 : m.md.mode ≠ .recovery) :
    enterHalt cause m = haltTail cause (modeCode m.md.mode) (haltEnd (haltHead cause m)) :=
  enterHaltTelling_eq m id cause h1 h2 (fun _ => rfl)

theorem enterHalt_again (cause : Nat) (h : m.md.mode = .halt ∨ m.md.mode = .recovery) : enterHalt cause m = m :=
  enterHaltTelling_again m id cause h


/-- All but freeN, nv, ln, md, lg, fio, str, can, host, rcd, rc, pc, up, pr. -/
def Mod.noFreeNNvLnMdLgFioStrCanHostRcdRcPcUpPr (m : Mod) : Mod :=
  { m with freeN := 0, nv := Nv.fresh, ln := PerLane.all (Lane.fresh (LaneNv.fresh 0 0)), md := Modes.fresh, lg := Logic.fresh AppImage.empty, fio := Fio.fresh, str := Stride.fresh 0, can := ⟨0, [], []⟩, host := HostIf.fresh, rcd := Recorder.fresh, rc := RollCall.fresh, pc := Counters.fresh, up := Update.fresh, pr := Pair.fresh }

theorem noFreeNNvLnMdLgFioStrCanHostRcdRcPcUpPr_powered {a b : Mod} (h : a.noFreeNNvLnMdLgFioStrCanHostRcdRcPcUpPr = b.noFreeNNvLnMdLgFioStrCanHostRcdRcPcUpPr) : a.powered = b.powered := (congrArg Mod.powered h :)
theorem noFreeNNvLnMdLgFioStrCanHostRcdRcPcUpPr_clk {a b : Mod} (h : a.noFreeNNvLnMdLgFioStrCanHostRcdRcPcUpPr = b.noFreeNNvLnMdLgFioStrCanHostRcdRcPcUpPr) : a.clk = b.clk := (congrArg Mod.clk h :)
theorem noFreeNNvLnMdLgFioStrCanHostRcdRcPcUpPr_cfg {a b : Mod} (h : a.noFreeNNvLnMdLgFioStrCanHostRcdRcPcUpPr = b.noFreeNNvLnMdLgFioStrCanHostRcdRcPcUpPr) : a.cfg = b.cfg := (congrArg Mod.cfg h :)
theorem noFreeNNvLnMdLgFioStrCanHostRcdRcPcUpPr_tm {a b : Mod} (h : a.noFreeNNvLnMdLgFioStrCanHostRcdRcPcUpPr = b.noFreeNNvLnMdLgFioStrCanHostRcdRcPcUpPr) : a.tm = b.tm := (congrArg Mod.tm h :)
theorem noFreeNNvLnMdLgFioStrCanHostRcdRcPcUpPr_pw {a b : Mod} (h : a.noFreeNNvLnMdLgFioStrCanHostRcdRcPcUpPr = b.noFreeNNvLnMdLgFioStrCanHostRcdRcPcUpPr) : a.pw = b.pw := (congrArg Mod.pw h :)
theorem noFreeNNvLnMdLgFioStrCanHostRcdRcPcUpPr_cur {a b : Mod} (h : a.noFreeNNvLnMdLgFioStrCanHostRcdRcPcUpPr = b.noFreeNNvLnMdLgFioStrCanHostRcdRcPcUpPr) : a.cur = b.cur := (congrArg Mod.cur h :)
theorem noFreeNNvLnMdLgFioStrCanHostRcdRcPcUpPr_nxt {a b : Mod} (h : a.noFreeNNvLnMdLgFioStrCanHostRcdRcPcUpPr = b.noFreeNNvLnMdLgFioStrCanHostRcdRcPcUpPr) : a.nxt = b.nxt := (congrArg Mod.nxt h :)
theorem noFreeNNvLnMdLgFioStrCanHostRcdRcPcUpPr_en {a b : Mod} (h : a.noFreeNNvLnMdLgFioStrCanHostRcdRcPcUpPr = b.noFreeNNvLnMdLgFioStrCanHostRcdRcPcUpPr) : a.en = b.en := (congrArg Mod.en h :)
theorem noFreeNNvLnMdLgFioStrCanHostRcdRcPcUpPr_bt {a b : Mod} (h : a.noFreeNNvLnMdLgFioStrCanHostRcdRcPcUpPr = b.noFreeNNvLnMdLgFioStrCanHostRcdRcPcUpPr) : a.bt = b.bt := (congrArg Mod.bt h :)
theorem noFreeNNvLnMdLgFioStrCanHostRcdRcPcUpPr_net {a b : Mod} (h : a.noFreeNNvLnMdLgFioStrCanHostRcdRcPcUpPr = b.noFreeNNvLnMdLgFioStrCanHostRcdRcPcUpPr) : a.net = b.net := (congrArg Mod.net h :)
theorem noFreeNNvLnMdLgFioStrCanHostRcdRcPcUpPr_sec {a b : Mod} (h : a.noFreeNNvLnMdLgFioStrCanHostRcdRcPcUpPr = b.noFreeNNvLnMdLgFioStrCanHostRcdRcPcUpPr) : a.sec = b.sec := (congrArg Mod.sec h :)
theorem noFreeNNvLnMdLgFioStrCanHostRcdRcPcUpPr_stateOut {a b : Mod} (h : a.noFreeNNvLnMdLgFioStrCanHostRcdRcPcUpPr = b.noFreeNNvLnMdLgFioStrCanHostRcdRcPcUpPr) : a.stateOut = b.stateOut := (congrArg Mod.stateOut h :)

@[simp] theorem enterHalt_noFreeNNvLnMdLgFioStrCanHostRcdRcPcUpPr (cause : Nat) : (enterHalt cause m).noFreeNNvLnMdLgFioStrCanHostRcdRcPcUpPr = m.noFreeNNvLnMdLgFioStrCanHostRcdRcPcUpPr := by
  by_cases h1 : m.md.mode = .halt
  · rw [enterHalt_again m cause (Or.inl h1)]
  · by_cases h2 : m.md.mode = .recovery
    · rw [enterHalt_again m cause (Or.inr h2)]
    · rw [enterHalt_eq m cause h1 h2]; simp [Mod.noFreeNNvLnMdLgFioStrCanHostRcdRcPcUpPr]
@[simp] theorem enterHalt_powered (cause : Nat) : (enterHalt cause m).powered = m.powered := noFreeNNvLnMdLgFioStrCanHostRcdRcPcUpPr_powered (enterHalt_noFreeNNvLnMdLgFioStrCanHostRcdRcPcUpPr m cause)
@[simp] theorem enterHalt_clk (cause : Nat) : (enterHalt cause m).clk = m.clk := noFreeNNvLnMdLgFioStrCanHostRcdRcPcUpPr_clk (enterHalt_noFreeNNvLnMdLgFioStrCanHostRcdRcPcUpPr m cause)
@[simp] theorem enterHalt_cfg (cause : Nat) : (enterHalt cause m).cfg = m.cfg := noFreeNNvLnMdLgFioStrCanHostRcdRcPcUpPr_cfg (enterHalt_noFreeNNvLnMdLgFioStrCanHostRcdRcPcUpPr m cause)
@[simp] theorem enterHalt_tm (cause : Nat) : (enterHalt cause m).tm = m.tm := noFreeNNvLnMdLgFioStrCanHostRcdRcPcUpPr_tm (enterHalt_noFreeNNvLnMdLgFioStrCanHostRcdRcPcUpPr m cause)
@[simp] theorem enterHalt_pw (cause : Nat) : (enterHalt cause m).pw = m.pw := noFreeNNvLnMdLgFioStrCanHostRcdRcPcUpPr_pw (enterHalt_noFreeNNvLnMdLgFioStrCanHostRcdRcPcUpPr m cause)
@[simp] theorem enterHalt_cur (cause : Nat) : (enterHalt cause m).cur = m.cur := noFreeNNvLnMdLgFioStrCanHostRcdRcPcUpPr_cur (enterHalt_noFreeNNvLnMdLgFioStrCanHostRcdRcPcUpPr m cause)
@[simp] theorem enterHalt_nxt (cause : Nat) : (enterHalt cause m).nxt = m.nxt := noFreeNNvLnMdLgFioStrCanHostRcdRcPcUpPr_nxt (enterHalt_noFreeNNvLnMdLgFioStrCanHostRcdRcPcUpPr m cause)
@[simp] theorem enterHalt_en (cause : Nat) : (enterHalt cause m).en = m.en := noFreeNNvLnMdLgFioStrCanHostRcdRcPcUpPr_en (enterHalt_noFreeNNvLnMdLgFioStrCanHostRcdRcPcUpPr m cause)
@[simp] theorem enterHalt_bt (cause : Nat) : (enterHalt cause m).bt = m.bt := noFreeNNvLnMdLgFioStrCanHostRcdRcPcUpPr_bt (enterHalt_noFreeNNvLnMdLgFioStrCanHostRcdRcPcUpPr m cause)
@[simp] theorem enterHalt_net (cause : Nat) : (enterHalt cause m).net = m.net := noFreeNNvLnMdLgFioStrCanHostRcdRcPcUpPr_net (enterHalt_noFreeNNvLnMdLgFioStrCanHostRcdRcPcUpPr m cause)
@[simp] theorem enterHalt_sec (cause : Nat) : (enterHalt cause m).sec = m.sec := noFreeNNvLnMdLgFioStrCanHostRcdRcPcUpPr_sec (enterHalt_noFreeNNvLnMdLgFioStrCanHostRcdRcPcUpPr m cause)
@[simp] theorem enterHalt_stateOut (cause : Nat) : (enterHalt cause m).stateOut = m.stateOut := noFreeNNvLnMdLgFioStrCanHostRcdRcPcUpPr_stateOut (enterHalt_noFreeNNvLnMdLgFioStrCanHostRcdRcPcUpPr m cause)

/-- What HALT entered through the photo finish tells first (R107, R121). -/
def tellVote (cause : Nat) (m : Mod) : Mod := raise 0x21 { arg1 := cause } (forEach allLanes tellFault m)


@[simp] theorem tellVote_noHR (cause : Nat) : (tellVote cause m).noHR = m.noHR := (raise_noHR _ _ _).trans (forEach_keeps m Mod.noHR _ _ (fun l n => tellFault_noHR n l))
@[simp] theorem tellVote_powered (cause : Nat) : (tellVote cause m).powered = m.powered := noHR_powered (tellVote_noHR m cause)
@[simp] theorem tellVote_clk (cause : Nat) : (tellVote cause m).clk = m.clk := noHR_clk (tellVote_noHR m cause)
@[simp] theorem tellVote_freeN (cause : Nat) : (tellVote cause m).freeN = m.freeN := noHR_freeN (tellVote_noHR m cause)
@[simp] theorem tellVote_nv (cause : Nat) : (tellVote cause m).nv = m.nv := noHR_nv (tellVote_noHR m cause)
@[simp] theorem tellVote_cfg (cause : Nat) : (tellVote cause m).cfg = m.cfg := noHR_cfg (tellVote_noHR m cause)
@[simp] theorem tellVote_tm (cause : Nat) : (tellVote cause m).tm = m.tm := noHR_tm (tellVote_noHR m cause)
@[simp] theorem tellVote_ln (cause : Nat) : (tellVote cause m).ln = m.ln := noHR_ln (tellVote_noHR m cause)
@[simp] theorem tellVote_md (cause : Nat) : (tellVote cause m).md = m.md := noHR_md (tellVote_noHR m cause)
@[simp] theorem tellVote_pw (cause : Nat) : (tellVote cause m).pw = m.pw := noHR_pw (tellVote_noHR m cause)
@[simp] theorem tellVote_lg (cause : Nat) : (tellVote cause m).lg = m.lg := noHR_lg (tellVote_noHR m cause)
@[simp] theorem tellVote_cur (cause : Nat) : (tellVote cause m).cur = m.cur := noHR_cur (tellVote_noHR m cause)
@[simp] theorem tellVote_nxt (cause : Nat) : (tellVote cause m).nxt = m.nxt := noHR_nxt (tellVote_noHR m cause)
@[simp] theorem tellVote_en (cause : Nat) : (tellVote cause m).en = m.en := noHR_en (tellVote_noHR m cause)
@[simp] theorem tellVote_fio (cause : Nat) : (tellVote cause m).fio = m.fio := noHR_fio (tellVote_noHR m cause)
@[simp] theorem tellVote_bt (cause : Nat) : (tellVote cause m).bt = m.bt := noHR_bt (tellVote_noHR m cause)
@[simp] theorem tellVote_str (cause : Nat) : (tellVote cause m).str = m.str := noHR_str (tellVote_noHR m cause)
@[simp] theorem tellVote_can (cause : Nat) : (tellVote cause m).can = m.can := noHR_can (tellVote_noHR m cause)
@[simp] theorem tellVote_net (cause : Nat) : (tellVote cause m).net = m.net := noHR_net (tellVote_noHR m cause)
@[simp] theorem tellVote_rc (cause : Nat) : (tellVote cause m).rc = m.rc := noHR_rc (tellVote_noHR m cause)
@[simp] theorem tellVote_pc (cause : Nat) : (tellVote cause m).pc = m.pc := noHR_pc (tellVote_noHR m cause)
@[simp] theorem tellVote_up (cause : Nat) : (tellVote cause m).up = m.up := noHR_up (tellVote_noHR m cause)
@[simp] theorem tellVote_sec (cause : Nat) : (tellVote cause m).sec = m.sec := noHR_sec (tellVote_noHR m cause)
@[simp] theorem tellVote_pr (cause : Nat) : (tellVote cause m).pr = m.pr := noHR_pr (tellVote_noHR m cause)
@[simp] theorem tellVote_stateOut (cause : Nat) : (tellVote cause m).stateOut = m.stateOut := noHR_stateOut (tellVote_noHR m cause)

theorem haltByVote_eq (cause : Nat) (h1 : m.md.mode ≠ .halt) (h2 : m.md.mode ≠ .recovery) :
    haltByVote cause m = haltTail cause (modeCode m.md.mode) (tellVote cause (haltEnd (haltHead cause m))) :=
  enterHaltTelling_eq m (tellVote cause) cause h1 h2 (fun x => tellVote_md x cause)

theorem haltByVote_again (cause : Nat) (h : m.md.mode = .halt ∨ m.md.mode = .recovery) : haltByVote cause m = m :=
  enterHaltTelling_again m (tellVote cause) cause h


@[simp] theorem haltByVote_noFreeNNvLnMdLgFioStrCanHostRcdRcPcUpPr (cause : Nat) : (haltByVote cause m).noFreeNNvLnMdLgFioStrCanHostRcdRcPcUpPr = m.noFreeNNvLnMdLgFioStrCanHostRcdRcPcUpPr := by
  by_cases h1 : m.md.mode = .halt
  · rw [haltByVote_again m cause (Or.inl h1)]
  · by_cases h2 : m.md.mode = .recovery
    · rw [haltByVote_again m cause (Or.inr h2)]
    · rw [haltByVote_eq m cause h1 h2]; simp [Mod.noFreeNNvLnMdLgFioStrCanHostRcdRcPcUpPr]
@[simp] theorem haltByVote_powered (cause : Nat) : (haltByVote cause m).powered = m.powered := noFreeNNvLnMdLgFioStrCanHostRcdRcPcUpPr_powered (haltByVote_noFreeNNvLnMdLgFioStrCanHostRcdRcPcUpPr m cause)
@[simp] theorem haltByVote_clk (cause : Nat) : (haltByVote cause m).clk = m.clk := noFreeNNvLnMdLgFioStrCanHostRcdRcPcUpPr_clk (haltByVote_noFreeNNvLnMdLgFioStrCanHostRcdRcPcUpPr m cause)
@[simp] theorem haltByVote_cfg (cause : Nat) : (haltByVote cause m).cfg = m.cfg := noFreeNNvLnMdLgFioStrCanHostRcdRcPcUpPr_cfg (haltByVote_noFreeNNvLnMdLgFioStrCanHostRcdRcPcUpPr m cause)
@[simp] theorem haltByVote_tm (cause : Nat) : (haltByVote cause m).tm = m.tm := noFreeNNvLnMdLgFioStrCanHostRcdRcPcUpPr_tm (haltByVote_noFreeNNvLnMdLgFioStrCanHostRcdRcPcUpPr m cause)
@[simp] theorem haltByVote_pw (cause : Nat) : (haltByVote cause m).pw = m.pw := noFreeNNvLnMdLgFioStrCanHostRcdRcPcUpPr_pw (haltByVote_noFreeNNvLnMdLgFioStrCanHostRcdRcPcUpPr m cause)
@[simp] theorem haltByVote_cur (cause : Nat) : (haltByVote cause m).cur = m.cur := noFreeNNvLnMdLgFioStrCanHostRcdRcPcUpPr_cur (haltByVote_noFreeNNvLnMdLgFioStrCanHostRcdRcPcUpPr m cause)
@[simp] theorem haltByVote_nxt (cause : Nat) : (haltByVote cause m).nxt = m.nxt := noFreeNNvLnMdLgFioStrCanHostRcdRcPcUpPr_nxt (haltByVote_noFreeNNvLnMdLgFioStrCanHostRcdRcPcUpPr m cause)
@[simp] theorem haltByVote_en (cause : Nat) : (haltByVote cause m).en = m.en := noFreeNNvLnMdLgFioStrCanHostRcdRcPcUpPr_en (haltByVote_noFreeNNvLnMdLgFioStrCanHostRcdRcPcUpPr m cause)
@[simp] theorem haltByVote_bt (cause : Nat) : (haltByVote cause m).bt = m.bt := noFreeNNvLnMdLgFioStrCanHostRcdRcPcUpPr_bt (haltByVote_noFreeNNvLnMdLgFioStrCanHostRcdRcPcUpPr m cause)
@[simp] theorem haltByVote_net (cause : Nat) : (haltByVote cause m).net = m.net := noFreeNNvLnMdLgFioStrCanHostRcdRcPcUpPr_net (haltByVote_noFreeNNvLnMdLgFioStrCanHostRcdRcPcUpPr m cause)
@[simp] theorem haltByVote_sec (cause : Nat) : (haltByVote cause m).sec = m.sec := noFreeNNvLnMdLgFioStrCanHostRcdRcPcUpPr_sec (haltByVote_noFreeNNvLnMdLgFioStrCanHostRcdRcPcUpPr m cause)
@[simp] theorem haltByVote_stateOut (cause : Nat) : (haltByVote cause m).stateOut = m.stateOut := noFreeNNvLnMdLgFioStrCanHostRcdRcPcUpPr_stateOut (haltByVote_noFreeNNvLnMdLgFioStrCanHostRcdRcPcUpPr m cause)

/-! What HALT entry leaves (R35, R124, R125, R150). -/

theorem dropForces_md : (dropForces m).md = { m.md with forces := [] } := by
  unfold dropForces; dsimp only; split
  · rename_i h
    have : m.md.forces = [] := List.length_eq_zero_iff.mp h
    cases hm : m.md with | mk => simp_all
  · rfl

theorem dropForces_opened (l : LaneId) : ((dropForces m).ln.get l).opened = (m.ln.get l).opened := by
  unfold dropForces; dsimp only; split
  · rfl
  · simp

theorem writeRetain_opened (x l : LaneId) : ((writeRetain x m).ln.get l).opened = (m.ln.get l).opened := by
  unfold writeRetain; dsimp only; split
  · rfl
  · split
    · rfl
    · split
      · simp only [updLane_ln]
        by_cases h : l = x
        · subst h; simp [throughUnit1]
        · rw [PerLane.get_modify_ne _ _ _ _ h]
      · simp

/-- The modes as HALT entry leaves them, the count of event 0x04 aside (R45). -/
def haltMd (cause : Nat) (m : Mod) : Modes :=
  { m.md with mode := .halt, hcause := cause, step := 0, pendMode := none, haltAt := m.clk, arTold := false, haltv := cause == 1 || cause == 9,
              forces := [], areas := if m.md.trigs.isEmpty then m.md.areas else m.md.areasWas, trigs := [] }

theorem haltHead_md (cause : Nat) : (haltHead cause m).md = haltMd cause m := by
  unfold haltHead dropTrigs haltMd
  simp only [updLg_md, dropForces_md, writeRetains_md, openOutputs_md]
  split
  · rename_i h
    rw [List.isEmpty_iff] at h
    simp [updMd, dropForces_md, h]
  · simp [updMd, dropForces_md]

theorem haltEnd_md : (haltEnd m).md = { m.md with haltOpen := (haltEnd m).md.haltOpen } := by
  simp [haltEnd, updMd]

theorem enterHalt_md (cause : Nat) (h1 : m.md.mode ≠ .halt) (h2 : m.md.mode ≠ .recovery) :
    (enterHalt cause m).md = { haltMd cause m with haltOpen := (enterHalt cause m).md.haltOpen } := by
  rw [enterHalt_eq m cause h1 h2, haltTail_md, haltEnd_md, haltHead_md]

/-- Every lane has opened its switches (R35). -/
theorem haltHead_opened (cause : Nat) (l : LaneId) : ((haltHead cause m).ln.get l).opened = true := by
  have h : ∀ n : Mod, ((writeRetains n).ln.get l).opened = (n.ln.get l).opened := fun n =>
    forEach_keeps n (fun x => (x.ln.get l).opened) _ _ (fun y x => writeRetain_opened x y l)
  simp [haltHead, dropForces_opened, h, openOutputs]

theorem enterHalt_opened (cause : Nat) (h1 : m.md.mode ≠ .halt) (h2 : m.md.mode ≠ .recovery) (l : LaneId) :
    ((enterHalt cause m).ln.get l).opened = true := by
  rw [enterHalt_eq m cause h1 h2, haltTail_ln, haltEnd_ln]; exact haltHead_opened m cause l

theorem enterHalt_fio (cause : Nat) (h1 : m.md.mode ≠ .halt) (h2 : m.md.mode ≠ .recovery) :
    (enterHalt cause m).fio = (openOutputs m).fio := by
  rw [enterHalt_eq m cause h1 h2]
  simp [haltHead]

theorem enterHalt_open (cause : Nat) (h1 : m.md.mode ≠ .halt) (h2 : m.md.mode ≠ .recovery) : inHalt (enterHalt cause m) = true := by
  rw [inHalt, mode, enterHalt_md m cause h1 h2]; rfl


@[simp] theorem laneAlarm_noLn (lvl : Nat) (l : LaneId) : (laneAlarm lvl l m).noLn = m.noLn := rfl
@[simp] theorem laneAlarm_powered (lvl : Nat) (l : LaneId) : (laneAlarm lvl l m).powered = m.powered := noLn_powered (laneAlarm_noLn m lvl l)
@[simp] theorem laneAlarm_clk (lvl : Nat) (l : LaneId) : (laneAlarm lvl l m).clk = m.clk := noLn_clk (laneAlarm_noLn m lvl l)
@[simp] theorem laneAlarm_freeN (lvl : Nat) (l : LaneId) : (laneAlarm lvl l m).freeN = m.freeN := noLn_freeN (laneAlarm_noLn m lvl l)
@[simp] theorem laneAlarm_nv (lvl : Nat) (l : LaneId) : (laneAlarm lvl l m).nv = m.nv := noLn_nv (laneAlarm_noLn m lvl l)
@[simp] theorem laneAlarm_cfg (lvl : Nat) (l : LaneId) : (laneAlarm lvl l m).cfg = m.cfg := noLn_cfg (laneAlarm_noLn m lvl l)
@[simp] theorem laneAlarm_tm (lvl : Nat) (l : LaneId) : (laneAlarm lvl l m).tm = m.tm := noLn_tm (laneAlarm_noLn m lvl l)
@[simp] theorem laneAlarm_md (lvl : Nat) (l : LaneId) : (laneAlarm lvl l m).md = m.md := noLn_md (laneAlarm_noLn m lvl l)
@[simp] theorem laneAlarm_pw (lvl : Nat) (l : LaneId) : (laneAlarm lvl l m).pw = m.pw := noLn_pw (laneAlarm_noLn m lvl l)
@[simp] theorem laneAlarm_lg (lvl : Nat) (l : LaneId) : (laneAlarm lvl l m).lg = m.lg := noLn_lg (laneAlarm_noLn m lvl l)
@[simp] theorem laneAlarm_cur (lvl : Nat) (l : LaneId) : (laneAlarm lvl l m).cur = m.cur := noLn_cur (laneAlarm_noLn m lvl l)
@[simp] theorem laneAlarm_nxt (lvl : Nat) (l : LaneId) : (laneAlarm lvl l m).nxt = m.nxt := noLn_nxt (laneAlarm_noLn m lvl l)
@[simp] theorem laneAlarm_en (lvl : Nat) (l : LaneId) : (laneAlarm lvl l m).en = m.en := noLn_en (laneAlarm_noLn m lvl l)
@[simp] theorem laneAlarm_fio (lvl : Nat) (l : LaneId) : (laneAlarm lvl l m).fio = m.fio := noLn_fio (laneAlarm_noLn m lvl l)
@[simp] theorem laneAlarm_bt (lvl : Nat) (l : LaneId) : (laneAlarm lvl l m).bt = m.bt := noLn_bt (laneAlarm_noLn m lvl l)
@[simp] theorem laneAlarm_str (lvl : Nat) (l : LaneId) : (laneAlarm lvl l m).str = m.str := noLn_str (laneAlarm_noLn m lvl l)
@[simp] theorem laneAlarm_can (lvl : Nat) (l : LaneId) : (laneAlarm lvl l m).can = m.can := noLn_can (laneAlarm_noLn m lvl l)
@[simp] theorem laneAlarm_net (lvl : Nat) (l : LaneId) : (laneAlarm lvl l m).net = m.net := noLn_net (laneAlarm_noLn m lvl l)
@[simp] theorem laneAlarm_host (lvl : Nat) (l : LaneId) : (laneAlarm lvl l m).host = m.host := noLn_host (laneAlarm_noLn m lvl l)
@[simp] theorem laneAlarm_rcd (lvl : Nat) (l : LaneId) : (laneAlarm lvl l m).rcd = m.rcd := noLn_rcd (laneAlarm_noLn m lvl l)
@[simp] theorem laneAlarm_rc (lvl : Nat) (l : LaneId) : (laneAlarm lvl l m).rc = m.rc := noLn_rc (laneAlarm_noLn m lvl l)
@[simp] theorem laneAlarm_pc (lvl : Nat) (l : LaneId) : (laneAlarm lvl l m).pc = m.pc := noLn_pc (laneAlarm_noLn m lvl l)
@[simp] theorem laneAlarm_up (lvl : Nat) (l : LaneId) : (laneAlarm lvl l m).up = m.up := noLn_up (laneAlarm_noLn m lvl l)
@[simp] theorem laneAlarm_sec (lvl : Nat) (l : LaneId) : (laneAlarm lvl l m).sec = m.sec := noLn_sec (laneAlarm_noLn m lvl l)
@[simp] theorem laneAlarm_pr (lvl : Nat) (l : LaneId) : (laneAlarm lvl l m).pr = m.pr := noLn_pr (laneAlarm_noLn m lvl l)
@[simp] theorem laneAlarm_stateOut (lvl : Nat) (l : LaneId) : (laneAlarm lvl l m).stateOut = m.stateOut := noLn_stateOut (laneAlarm_noLn m lvl l)

/-- All but nv. -/
def Mod.noNv (m : Mod) : Mod :=
  { m with nv := Nv.fresh }

theorem noNv_powered {a b : Mod} (h : a.noNv = b.noNv) : a.powered = b.powered := (congrArg Mod.powered h :)
theorem noNv_clk {a b : Mod} (h : a.noNv = b.noNv) : a.clk = b.clk := (congrArg Mod.clk h :)
theorem noNv_freeN {a b : Mod} (h : a.noNv = b.noNv) : a.freeN = b.freeN := (congrArg Mod.freeN h :)
theorem noNv_cfg {a b : Mod} (h : a.noNv = b.noNv) : a.cfg = b.cfg := (congrArg Mod.cfg h :)
theorem noNv_tm {a b : Mod} (h : a.noNv = b.noNv) : a.tm = b.tm := (congrArg Mod.tm h :)
theorem noNv_ln {a b : Mod} (h : a.noNv = b.noNv) : a.ln = b.ln := (congrArg Mod.ln h :)
theorem noNv_md {a b : Mod} (h : a.noNv = b.noNv) : a.md = b.md := (congrArg Mod.md h :)
theorem noNv_pw {a b : Mod} (h : a.noNv = b.noNv) : a.pw = b.pw := (congrArg Mod.pw h :)
theorem noNv_lg {a b : Mod} (h : a.noNv = b.noNv) : a.lg = b.lg := (congrArg Mod.lg h :)
theorem noNv_cur {a b : Mod} (h : a.noNv = b.noNv) : a.cur = b.cur := (congrArg Mod.cur h :)
theorem noNv_nxt {a b : Mod} (h : a.noNv = b.noNv) : a.nxt = b.nxt := (congrArg Mod.nxt h :)
theorem noNv_en {a b : Mod} (h : a.noNv = b.noNv) : a.en = b.en := (congrArg Mod.en h :)
theorem noNv_fio {a b : Mod} (h : a.noNv = b.noNv) : a.fio = b.fio := (congrArg Mod.fio h :)
theorem noNv_bt {a b : Mod} (h : a.noNv = b.noNv) : a.bt = b.bt := (congrArg Mod.bt h :)
theorem noNv_str {a b : Mod} (h : a.noNv = b.noNv) : a.str = b.str := (congrArg Mod.str h :)
theorem noNv_can {a b : Mod} (h : a.noNv = b.noNv) : a.can = b.can := (congrArg Mod.can h :)
theorem noNv_net {a b : Mod} (h : a.noNv = b.noNv) : a.net = b.net := (congrArg Mod.net h :)
theorem noNv_host {a b : Mod} (h : a.noNv = b.noNv) : a.host = b.host := (congrArg Mod.host h :)
theorem noNv_rcd {a b : Mod} (h : a.noNv = b.noNv) : a.rcd = b.rcd := (congrArg Mod.rcd h :)
theorem noNv_rc {a b : Mod} (h : a.noNv = b.noNv) : a.rc = b.rc := (congrArg Mod.rc h :)
theorem noNv_pc {a b : Mod} (h : a.noNv = b.noNv) : a.pc = b.pc := (congrArg Mod.pc h :)
theorem noNv_up {a b : Mod} (h : a.noNv = b.noNv) : a.up = b.up := (congrArg Mod.up h :)
theorem noNv_sec {a b : Mod} (h : a.noNv = b.noNv) : a.sec = b.sec := (congrArg Mod.sec h :)
theorem noNv_pr {a b : Mod} (h : a.noNv = b.noNv) : a.pr = b.pr := (congrArg Mod.pr h :)
theorem noNv_stateOut {a b : Mod} (h : a.noNv = b.noNv) : a.stateOut = b.stateOut := (congrArg Mod.stateOut h :)

@[simp] theorem noteTrigger_noNv (trig lvl : Nat) : (noteTrigger trig lvl m).noNv = m.noNv := rfl
@[simp] theorem noteTrigger_powered (trig lvl : Nat) : (noteTrigger trig lvl m).powered = m.powered := noNv_powered (noteTrigger_noNv m trig lvl)
@[simp] theorem noteTrigger_clk (trig lvl : Nat) : (noteTrigger trig lvl m).clk = m.clk := noNv_clk (noteTrigger_noNv m trig lvl)
@[simp] theorem noteTrigger_freeN (trig lvl : Nat) : (noteTrigger trig lvl m).freeN = m.freeN := noNv_freeN (noteTrigger_noNv m trig lvl)
@[simp] theorem noteTrigger_cfg (trig lvl : Nat) : (noteTrigger trig lvl m).cfg = m.cfg := noNv_cfg (noteTrigger_noNv m trig lvl)
@[simp] theorem noteTrigger_tm (trig lvl : Nat) : (noteTrigger trig lvl m).tm = m.tm := noNv_tm (noteTrigger_noNv m trig lvl)
@[simp] theorem noteTrigger_ln (trig lvl : Nat) : (noteTrigger trig lvl m).ln = m.ln := noNv_ln (noteTrigger_noNv m trig lvl)
@[simp] theorem noteTrigger_md (trig lvl : Nat) : (noteTrigger trig lvl m).md = m.md := noNv_md (noteTrigger_noNv m trig lvl)
@[simp] theorem noteTrigger_pw (trig lvl : Nat) : (noteTrigger trig lvl m).pw = m.pw := noNv_pw (noteTrigger_noNv m trig lvl)
@[simp] theorem noteTrigger_lg (trig lvl : Nat) : (noteTrigger trig lvl m).lg = m.lg := noNv_lg (noteTrigger_noNv m trig lvl)
@[simp] theorem noteTrigger_cur (trig lvl : Nat) : (noteTrigger trig lvl m).cur = m.cur := noNv_cur (noteTrigger_noNv m trig lvl)
@[simp] theorem noteTrigger_nxt (trig lvl : Nat) : (noteTrigger trig lvl m).nxt = m.nxt := noNv_nxt (noteTrigger_noNv m trig lvl)
@[simp] theorem noteTrigger_en (trig lvl : Nat) : (noteTrigger trig lvl m).en = m.en := noNv_en (noteTrigger_noNv m trig lvl)
@[simp] theorem noteTrigger_fio (trig lvl : Nat) : (noteTrigger trig lvl m).fio = m.fio := noNv_fio (noteTrigger_noNv m trig lvl)
@[simp] theorem noteTrigger_bt (trig lvl : Nat) : (noteTrigger trig lvl m).bt = m.bt := noNv_bt (noteTrigger_noNv m trig lvl)
@[simp] theorem noteTrigger_str (trig lvl : Nat) : (noteTrigger trig lvl m).str = m.str := noNv_str (noteTrigger_noNv m trig lvl)
@[simp] theorem noteTrigger_can (trig lvl : Nat) : (noteTrigger trig lvl m).can = m.can := noNv_can (noteTrigger_noNv m trig lvl)
@[simp] theorem noteTrigger_net (trig lvl : Nat) : (noteTrigger trig lvl m).net = m.net := noNv_net (noteTrigger_noNv m trig lvl)
@[simp] theorem noteTrigger_host (trig lvl : Nat) : (noteTrigger trig lvl m).host = m.host := noNv_host (noteTrigger_noNv m trig lvl)
@[simp] theorem noteTrigger_rcd (trig lvl : Nat) : (noteTrigger trig lvl m).rcd = m.rcd := noNv_rcd (noteTrigger_noNv m trig lvl)
@[simp] theorem noteTrigger_rc (trig lvl : Nat) : (noteTrigger trig lvl m).rc = m.rc := noNv_rc (noteTrigger_noNv m trig lvl)
@[simp] theorem noteTrigger_pc (trig lvl : Nat) : (noteTrigger trig lvl m).pc = m.pc := noNv_pc (noteTrigger_noNv m trig lvl)
@[simp] theorem noteTrigger_up (trig lvl : Nat) : (noteTrigger trig lvl m).up = m.up := noNv_up (noteTrigger_noNv m trig lvl)
@[simp] theorem noteTrigger_sec (trig lvl : Nat) : (noteTrigger trig lvl m).sec = m.sec := noNv_sec (noteTrigger_noNv m trig lvl)
@[simp] theorem noteTrigger_pr (trig lvl : Nat) : (noteTrigger trig lvl m).pr = m.pr := noNv_pr (noteTrigger_noNv m trig lvl)
@[simp] theorem noteTrigger_stateOut (trig lvl : Nat) : (noteTrigger trig lvl m).stateOut = m.stateOut := noNv_stateOut (noteTrigger_noNv m trig lvl)

/-- All but sec. -/
def Mod.noSec (m : Mod) : Mod :=
  { m with sec := SecVol.fresh }

theorem noSec_powered {a b : Mod} (h : a.noSec = b.noSec) : a.powered = b.powered := (congrArg Mod.powered h :)
theorem noSec_clk {a b : Mod} (h : a.noSec = b.noSec) : a.clk = b.clk := (congrArg Mod.clk h :)
theorem noSec_freeN {a b : Mod} (h : a.noSec = b.noSec) : a.freeN = b.freeN := (congrArg Mod.freeN h :)
theorem noSec_nv {a b : Mod} (h : a.noSec = b.noSec) : a.nv = b.nv := (congrArg Mod.nv h :)
theorem noSec_cfg {a b : Mod} (h : a.noSec = b.noSec) : a.cfg = b.cfg := (congrArg Mod.cfg h :)
theorem noSec_tm {a b : Mod} (h : a.noSec = b.noSec) : a.tm = b.tm := (congrArg Mod.tm h :)
theorem noSec_ln {a b : Mod} (h : a.noSec = b.noSec) : a.ln = b.ln := (congrArg Mod.ln h :)
theorem noSec_md {a b : Mod} (h : a.noSec = b.noSec) : a.md = b.md := (congrArg Mod.md h :)
theorem noSec_pw {a b : Mod} (h : a.noSec = b.noSec) : a.pw = b.pw := (congrArg Mod.pw h :)
theorem noSec_lg {a b : Mod} (h : a.noSec = b.noSec) : a.lg = b.lg := (congrArg Mod.lg h :)
theorem noSec_cur {a b : Mod} (h : a.noSec = b.noSec) : a.cur = b.cur := (congrArg Mod.cur h :)
theorem noSec_nxt {a b : Mod} (h : a.noSec = b.noSec) : a.nxt = b.nxt := (congrArg Mod.nxt h :)
theorem noSec_en {a b : Mod} (h : a.noSec = b.noSec) : a.en = b.en := (congrArg Mod.en h :)
theorem noSec_fio {a b : Mod} (h : a.noSec = b.noSec) : a.fio = b.fio := (congrArg Mod.fio h :)
theorem noSec_bt {a b : Mod} (h : a.noSec = b.noSec) : a.bt = b.bt := (congrArg Mod.bt h :)
theorem noSec_str {a b : Mod} (h : a.noSec = b.noSec) : a.str = b.str := (congrArg Mod.str h :)
theorem noSec_can {a b : Mod} (h : a.noSec = b.noSec) : a.can = b.can := (congrArg Mod.can h :)
theorem noSec_net {a b : Mod} (h : a.noSec = b.noSec) : a.net = b.net := (congrArg Mod.net h :)
theorem noSec_host {a b : Mod} (h : a.noSec = b.noSec) : a.host = b.host := (congrArg Mod.host h :)
theorem noSec_rcd {a b : Mod} (h : a.noSec = b.noSec) : a.rcd = b.rcd := (congrArg Mod.rcd h :)
theorem noSec_rc {a b : Mod} (h : a.noSec = b.noSec) : a.rc = b.rc := (congrArg Mod.rc h :)
theorem noSec_pc {a b : Mod} (h : a.noSec = b.noSec) : a.pc = b.pc := (congrArg Mod.pc h :)
theorem noSec_up {a b : Mod} (h : a.noSec = b.noSec) : a.up = b.up := (congrArg Mod.up h :)
theorem noSec_pr {a b : Mod} (h : a.noSec = b.noSec) : a.pr = b.pr := (congrArg Mod.pr h :)
theorem noSec_stateOut {a b : Mod} (h : a.noSec = b.noSec) : a.stateOut = b.stateOut := (congrArg Mod.stateOut h :)

@[simp] theorem noteSeen_noSec (trig : Nat) : (noteSeen trig m).noSec = m.noSec := rfl
@[simp] theorem noteSeen_powered (trig : Nat) : (noteSeen trig m).powered = m.powered := noSec_powered (noteSeen_noSec m trig)
@[simp] theorem noteSeen_clk (trig : Nat) : (noteSeen trig m).clk = m.clk := noSec_clk (noteSeen_noSec m trig)
@[simp] theorem noteSeen_freeN (trig : Nat) : (noteSeen trig m).freeN = m.freeN := noSec_freeN (noteSeen_noSec m trig)
@[simp] theorem noteSeen_nv (trig : Nat) : (noteSeen trig m).nv = m.nv := noSec_nv (noteSeen_noSec m trig)
@[simp] theorem noteSeen_cfg (trig : Nat) : (noteSeen trig m).cfg = m.cfg := noSec_cfg (noteSeen_noSec m trig)
@[simp] theorem noteSeen_tm (trig : Nat) : (noteSeen trig m).tm = m.tm := noSec_tm (noteSeen_noSec m trig)
@[simp] theorem noteSeen_ln (trig : Nat) : (noteSeen trig m).ln = m.ln := noSec_ln (noteSeen_noSec m trig)
@[simp] theorem noteSeen_md (trig : Nat) : (noteSeen trig m).md = m.md := noSec_md (noteSeen_noSec m trig)
@[simp] theorem noteSeen_pw (trig : Nat) : (noteSeen trig m).pw = m.pw := noSec_pw (noteSeen_noSec m trig)
@[simp] theorem noteSeen_lg (trig : Nat) : (noteSeen trig m).lg = m.lg := noSec_lg (noteSeen_noSec m trig)
@[simp] theorem noteSeen_cur (trig : Nat) : (noteSeen trig m).cur = m.cur := noSec_cur (noteSeen_noSec m trig)
@[simp] theorem noteSeen_nxt (trig : Nat) : (noteSeen trig m).nxt = m.nxt := noSec_nxt (noteSeen_noSec m trig)
@[simp] theorem noteSeen_en (trig : Nat) : (noteSeen trig m).en = m.en := noSec_en (noteSeen_noSec m trig)
@[simp] theorem noteSeen_fio (trig : Nat) : (noteSeen trig m).fio = m.fio := noSec_fio (noteSeen_noSec m trig)
@[simp] theorem noteSeen_bt (trig : Nat) : (noteSeen trig m).bt = m.bt := noSec_bt (noteSeen_noSec m trig)
@[simp] theorem noteSeen_str (trig : Nat) : (noteSeen trig m).str = m.str := noSec_str (noteSeen_noSec m trig)
@[simp] theorem noteSeen_can (trig : Nat) : (noteSeen trig m).can = m.can := noSec_can (noteSeen_noSec m trig)
@[simp] theorem noteSeen_net (trig : Nat) : (noteSeen trig m).net = m.net := noSec_net (noteSeen_noSec m trig)
@[simp] theorem noteSeen_host (trig : Nat) : (noteSeen trig m).host = m.host := noSec_host (noteSeen_noSec m trig)
@[simp] theorem noteSeen_rcd (trig : Nat) : (noteSeen trig m).rcd = m.rcd := noSec_rcd (noteSeen_noSec m trig)
@[simp] theorem noteSeen_rc (trig : Nat) : (noteSeen trig m).rc = m.rc := noSec_rc (noteSeen_noSec m trig)
@[simp] theorem noteSeen_pc (trig : Nat) : (noteSeen trig m).pc = m.pc := noSec_pc (noteSeen_noSec m trig)
@[simp] theorem noteSeen_up (trig : Nat) : (noteSeen trig m).up = m.up := noSec_up (noteSeen_noSec m trig)
@[simp] theorem noteSeen_pr (trig : Nat) : (noteSeen trig m).pr = m.pr := noSec_pr (noteSeen_noSec m trig)
@[simp] theorem noteSeen_stateOut (trig : Nat) : (noteSeen trig m).stateOut = m.stateOut := noSec_stateOut (noteSeen_noSec m trig)

/-- All but freeN, nv, ln, md, lg, fio, str, can, host, rcd, rc, pc, up, sec, pr. -/
def Mod.noFreeNNvLnMdLgFioStrCanHostRcdRcPcUpSecPr (m : Mod) : Mod :=
  { m with freeN := 0, nv := Nv.fresh, ln := PerLane.all (Lane.fresh (LaneNv.fresh 0 0)), md := Modes.fresh, lg := Logic.fresh AppImage.empty, fio := Fio.fresh, str := Stride.fresh 0, can := ⟨0, [], []⟩, host := HostIf.fresh, rcd := Recorder.fresh, rc := RollCall.fresh, pc := Counters.fresh, up := Update.fresh, sec := SecVol.fresh, pr := Pair.fresh }

theorem noFreeNNvLnMdLgFioStrCanHostRcdRcPcUpSecPr_powered {a b : Mod} (h : a.noFreeNNvLnMdLgFioStrCanHostRcdRcPcUpSecPr = b.noFreeNNvLnMdLgFioStrCanHostRcdRcPcUpSecPr) : a.powered = b.powered := (congrArg Mod.powered h :)
theorem noFreeNNvLnMdLgFioStrCanHostRcdRcPcUpSecPr_clk {a b : Mod} (h : a.noFreeNNvLnMdLgFioStrCanHostRcdRcPcUpSecPr = b.noFreeNNvLnMdLgFioStrCanHostRcdRcPcUpSecPr) : a.clk = b.clk := (congrArg Mod.clk h :)
theorem noFreeNNvLnMdLgFioStrCanHostRcdRcPcUpSecPr_cfg {a b : Mod} (h : a.noFreeNNvLnMdLgFioStrCanHostRcdRcPcUpSecPr = b.noFreeNNvLnMdLgFioStrCanHostRcdRcPcUpSecPr) : a.cfg = b.cfg := (congrArg Mod.cfg h :)
theorem noFreeNNvLnMdLgFioStrCanHostRcdRcPcUpSecPr_tm {a b : Mod} (h : a.noFreeNNvLnMdLgFioStrCanHostRcdRcPcUpSecPr = b.noFreeNNvLnMdLgFioStrCanHostRcdRcPcUpSecPr) : a.tm = b.tm := (congrArg Mod.tm h :)
theorem noFreeNNvLnMdLgFioStrCanHostRcdRcPcUpSecPr_pw {a b : Mod} (h : a.noFreeNNvLnMdLgFioStrCanHostRcdRcPcUpSecPr = b.noFreeNNvLnMdLgFioStrCanHostRcdRcPcUpSecPr) : a.pw = b.pw := (congrArg Mod.pw h :)
theorem noFreeNNvLnMdLgFioStrCanHostRcdRcPcUpSecPr_cur {a b : Mod} (h : a.noFreeNNvLnMdLgFioStrCanHostRcdRcPcUpSecPr = b.noFreeNNvLnMdLgFioStrCanHostRcdRcPcUpSecPr) : a.cur = b.cur := (congrArg Mod.cur h :)
theorem noFreeNNvLnMdLgFioStrCanHostRcdRcPcUpSecPr_nxt {a b : Mod} (h : a.noFreeNNvLnMdLgFioStrCanHostRcdRcPcUpSecPr = b.noFreeNNvLnMdLgFioStrCanHostRcdRcPcUpSecPr) : a.nxt = b.nxt := (congrArg Mod.nxt h :)
theorem noFreeNNvLnMdLgFioStrCanHostRcdRcPcUpSecPr_en {a b : Mod} (h : a.noFreeNNvLnMdLgFioStrCanHostRcdRcPcUpSecPr = b.noFreeNNvLnMdLgFioStrCanHostRcdRcPcUpSecPr) : a.en = b.en := (congrArg Mod.en h :)
theorem noFreeNNvLnMdLgFioStrCanHostRcdRcPcUpSecPr_bt {a b : Mod} (h : a.noFreeNNvLnMdLgFioStrCanHostRcdRcPcUpSecPr = b.noFreeNNvLnMdLgFioStrCanHostRcdRcPcUpSecPr) : a.bt = b.bt := (congrArg Mod.bt h :)
theorem noFreeNNvLnMdLgFioStrCanHostRcdRcPcUpSecPr_net {a b : Mod} (h : a.noFreeNNvLnMdLgFioStrCanHostRcdRcPcUpSecPr = b.noFreeNNvLnMdLgFioStrCanHostRcdRcPcUpSecPr) : a.net = b.net := (congrArg Mod.net h :)
theorem noFreeNNvLnMdLgFioStrCanHostRcdRcPcUpSecPr_stateOut {a b : Mod} (h : a.noFreeNNvLnMdLgFioStrCanHostRcdRcPcUpSecPr = b.noFreeNNvLnMdLgFioStrCanHostRcdRcPcUpSecPr) : a.stateOut = b.stateOut := (congrArg Mod.stateOut h :)

@[simp] theorem alarm_noFreeNNvLnMdLgFioStrCanHostRcdRcPcUpSecPr (trig lvl : Nat) : (alarm trig lvl m).noFreeNNvLnMdLgFioStrCanHostRcdRcPcUpSecPr = m.noFreeNNvLnMdLgFioStrCanHostRcdRcPcUpSecPr := by
  unfold alarm retire onlyIf; dsimp only; (repeat' split) <;> simp [Mod.noFreeNNvLnMdLgFioStrCanHostRcdRcPcUpSecPr]
@[simp] theorem alarm_powered (trig lvl : Nat) : (alarm trig lvl m).powered = m.powered := noFreeNNvLnMdLgFioStrCanHostRcdRcPcUpSecPr_powered (alarm_noFreeNNvLnMdLgFioStrCanHostRcdRcPcUpSecPr m trig lvl)
@[simp] theorem alarm_clk (trig lvl : Nat) : (alarm trig lvl m).clk = m.clk := noFreeNNvLnMdLgFioStrCanHostRcdRcPcUpSecPr_clk (alarm_noFreeNNvLnMdLgFioStrCanHostRcdRcPcUpSecPr m trig lvl)
@[simp] theorem alarm_cfg (trig lvl : Nat) : (alarm trig lvl m).cfg = m.cfg := noFreeNNvLnMdLgFioStrCanHostRcdRcPcUpSecPr_cfg (alarm_noFreeNNvLnMdLgFioStrCanHostRcdRcPcUpSecPr m trig lvl)
@[simp] theorem alarm_tm (trig lvl : Nat) : (alarm trig lvl m).tm = m.tm := noFreeNNvLnMdLgFioStrCanHostRcdRcPcUpSecPr_tm (alarm_noFreeNNvLnMdLgFioStrCanHostRcdRcPcUpSecPr m trig lvl)
@[simp] theorem alarm_pw (trig lvl : Nat) : (alarm trig lvl m).pw = m.pw := noFreeNNvLnMdLgFioStrCanHostRcdRcPcUpSecPr_pw (alarm_noFreeNNvLnMdLgFioStrCanHostRcdRcPcUpSecPr m trig lvl)
@[simp] theorem alarm_cur (trig lvl : Nat) : (alarm trig lvl m).cur = m.cur := noFreeNNvLnMdLgFioStrCanHostRcdRcPcUpSecPr_cur (alarm_noFreeNNvLnMdLgFioStrCanHostRcdRcPcUpSecPr m trig lvl)
@[simp] theorem alarm_nxt (trig lvl : Nat) : (alarm trig lvl m).nxt = m.nxt := noFreeNNvLnMdLgFioStrCanHostRcdRcPcUpSecPr_nxt (alarm_noFreeNNvLnMdLgFioStrCanHostRcdRcPcUpSecPr m trig lvl)
@[simp] theorem alarm_en (trig lvl : Nat) : (alarm trig lvl m).en = m.en := noFreeNNvLnMdLgFioStrCanHostRcdRcPcUpSecPr_en (alarm_noFreeNNvLnMdLgFioStrCanHostRcdRcPcUpSecPr m trig lvl)
@[simp] theorem alarm_bt (trig lvl : Nat) : (alarm trig lvl m).bt = m.bt := noFreeNNvLnMdLgFioStrCanHostRcdRcPcUpSecPr_bt (alarm_noFreeNNvLnMdLgFioStrCanHostRcdRcPcUpSecPr m trig lvl)
@[simp] theorem alarm_net (trig lvl : Nat) : (alarm trig lvl m).net = m.net := noFreeNNvLnMdLgFioStrCanHostRcdRcPcUpSecPr_net (alarm_noFreeNNvLnMdLgFioStrCanHostRcdRcPcUpSecPr m trig lvl)
@[simp] theorem alarm_stateOut (trig lvl : Nat) : (alarm trig lvl m).stateOut = m.stateOut := noFreeNNvLnMdLgFioStrCanHostRcdRcPcUpSecPr_stateOut (alarm_noFreeNNvLnMdLgFioStrCanHostRcdRcPcUpSecPr m trig lvl)

@[simp] theorem alarmAll_noFreeNNvLnMdLgFioStrCanHostRcdRcPcUpSecPr (trig : Nat) : (alarmAll trig m).noFreeNNvLnMdLgFioStrCanHostRcdRcPcUpSecPr = m.noFreeNNvLnMdLgFioStrCanHostRcdRcPcUpSecPr := by
  unfold alarmAll; dsimp only
  have h : ∀ (k : Nat) (x : Mod), (forEach allLanes (laneAlarm k) x).noFreeNNvLnMdLgFioStrCanHostRcdRcPcUpSecPr = x.noFreeNNvLnMdLgFioStrCanHostRcdRcPcUpSecPr := fun k x =>
    forEach_keeps x Mod.noFreeNNvLnMdLgFioStrCanHostRcdRcPcUpSecPr _ _ (fun l n => by simp [Mod.noFreeNNvLnMdLgFioStrCanHostRcdRcPcUpSecPr])
  rw [alarm_noFreeNNvLnMdLgFioStrCanHostRcdRcPcUpSecPr, h]
@[simp] theorem alarmAll_powered (trig : Nat) : (alarmAll trig m).powered = m.powered := noFreeNNvLnMdLgFioStrCanHostRcdRcPcUpSecPr_powered (alarmAll_noFreeNNvLnMdLgFioStrCanHostRcdRcPcUpSecPr m trig)
@[simp] theorem alarmAll_clk (trig : Nat) : (alarmAll trig m).clk = m.clk := noFreeNNvLnMdLgFioStrCanHostRcdRcPcUpSecPr_clk (alarmAll_noFreeNNvLnMdLgFioStrCanHostRcdRcPcUpSecPr m trig)
@[simp] theorem alarmAll_cfg (trig : Nat) : (alarmAll trig m).cfg = m.cfg := noFreeNNvLnMdLgFioStrCanHostRcdRcPcUpSecPr_cfg (alarmAll_noFreeNNvLnMdLgFioStrCanHostRcdRcPcUpSecPr m trig)
@[simp] theorem alarmAll_tm (trig : Nat) : (alarmAll trig m).tm = m.tm := noFreeNNvLnMdLgFioStrCanHostRcdRcPcUpSecPr_tm (alarmAll_noFreeNNvLnMdLgFioStrCanHostRcdRcPcUpSecPr m trig)
@[simp] theorem alarmAll_pw (trig : Nat) : (alarmAll trig m).pw = m.pw := noFreeNNvLnMdLgFioStrCanHostRcdRcPcUpSecPr_pw (alarmAll_noFreeNNvLnMdLgFioStrCanHostRcdRcPcUpSecPr m trig)
@[simp] theorem alarmAll_cur (trig : Nat) : (alarmAll trig m).cur = m.cur := noFreeNNvLnMdLgFioStrCanHostRcdRcPcUpSecPr_cur (alarmAll_noFreeNNvLnMdLgFioStrCanHostRcdRcPcUpSecPr m trig)
@[simp] theorem alarmAll_nxt (trig : Nat) : (alarmAll trig m).nxt = m.nxt := noFreeNNvLnMdLgFioStrCanHostRcdRcPcUpSecPr_nxt (alarmAll_noFreeNNvLnMdLgFioStrCanHostRcdRcPcUpSecPr m trig)
@[simp] theorem alarmAll_en (trig : Nat) : (alarmAll trig m).en = m.en := noFreeNNvLnMdLgFioStrCanHostRcdRcPcUpSecPr_en (alarmAll_noFreeNNvLnMdLgFioStrCanHostRcdRcPcUpSecPr m trig)
@[simp] theorem alarmAll_bt (trig : Nat) : (alarmAll trig m).bt = m.bt := noFreeNNvLnMdLgFioStrCanHostRcdRcPcUpSecPr_bt (alarmAll_noFreeNNvLnMdLgFioStrCanHostRcdRcPcUpSecPr m trig)
@[simp] theorem alarmAll_net (trig : Nat) : (alarmAll trig m).net = m.net := noFreeNNvLnMdLgFioStrCanHostRcdRcPcUpSecPr_net (alarmAll_noFreeNNvLnMdLgFioStrCanHostRcdRcPcUpSecPr m trig)
@[simp] theorem alarmAll_stateOut (trig : Nat) : (alarmAll trig m).stateOut = m.stateOut := noFreeNNvLnMdLgFioStrCanHostRcdRcPcUpSecPr_stateOut (alarmAll_noFreeNNvLnMdLgFioStrCanHostRcdRcPcUpSecPr m trig)

@[simp] theorem noteTrig_noFreeNNvLnMdLgFioStrCanHostRcdRcPcUpSecPr (trig : Nat) : (noteTrig trig m).noFreeNNvLnMdLgFioStrCanHostRcdRcPcUpSecPr = m.noFreeNNvLnMdLgFioStrCanHostRcdRcPcUpSecPr := by
  unfold noteTrig; split <;> simp [Mod.noFreeNNvLnMdLgFioStrCanHostRcdRcPcUpSecPr]
@[simp] theorem noteTrig_powered (trig : Nat) : (noteTrig trig m).powered = m.powered := noFreeNNvLnMdLgFioStrCanHostRcdRcPcUpSecPr_powered (noteTrig_noFreeNNvLnMdLgFioStrCanHostRcdRcPcUpSecPr m trig)
@[simp] theorem noteTrig_clk (trig : Nat) : (noteTrig trig m).clk = m.clk := noFreeNNvLnMdLgFioStrCanHostRcdRcPcUpSecPr_clk (noteTrig_noFreeNNvLnMdLgFioStrCanHostRcdRcPcUpSecPr m trig)
@[simp] theorem noteTrig_cfg (trig : Nat) : (noteTrig trig m).cfg = m.cfg := noFreeNNvLnMdLgFioStrCanHostRcdRcPcUpSecPr_cfg (noteTrig_noFreeNNvLnMdLgFioStrCanHostRcdRcPcUpSecPr m trig)
@[simp] theorem noteTrig_tm (trig : Nat) : (noteTrig trig m).tm = m.tm := noFreeNNvLnMdLgFioStrCanHostRcdRcPcUpSecPr_tm (noteTrig_noFreeNNvLnMdLgFioStrCanHostRcdRcPcUpSecPr m trig)
@[simp] theorem noteTrig_pw (trig : Nat) : (noteTrig trig m).pw = m.pw := noFreeNNvLnMdLgFioStrCanHostRcdRcPcUpSecPr_pw (noteTrig_noFreeNNvLnMdLgFioStrCanHostRcdRcPcUpSecPr m trig)
@[simp] theorem noteTrig_cur (trig : Nat) : (noteTrig trig m).cur = m.cur := noFreeNNvLnMdLgFioStrCanHostRcdRcPcUpSecPr_cur (noteTrig_noFreeNNvLnMdLgFioStrCanHostRcdRcPcUpSecPr m trig)
@[simp] theorem noteTrig_nxt (trig : Nat) : (noteTrig trig m).nxt = m.nxt := noFreeNNvLnMdLgFioStrCanHostRcdRcPcUpSecPr_nxt (noteTrig_noFreeNNvLnMdLgFioStrCanHostRcdRcPcUpSecPr m trig)
@[simp] theorem noteTrig_en (trig : Nat) : (noteTrig trig m).en = m.en := noFreeNNvLnMdLgFioStrCanHostRcdRcPcUpSecPr_en (noteTrig_noFreeNNvLnMdLgFioStrCanHostRcdRcPcUpSecPr m trig)
@[simp] theorem noteTrig_bt (trig : Nat) : (noteTrig trig m).bt = m.bt := noFreeNNvLnMdLgFioStrCanHostRcdRcPcUpSecPr_bt (noteTrig_noFreeNNvLnMdLgFioStrCanHostRcdRcPcUpSecPr m trig)
@[simp] theorem noteTrig_net (trig : Nat) : (noteTrig trig m).net = m.net := noFreeNNvLnMdLgFioStrCanHostRcdRcPcUpSecPr_net (noteTrig_noFreeNNvLnMdLgFioStrCanHostRcdRcPcUpSecPr m trig)
@[simp] theorem noteTrig_stateOut (trig : Nat) : (noteTrig trig m).stateOut = m.stateOut := noFreeNNvLnMdLgFioStrCanHostRcdRcPcUpSecPr_stateOut (noteTrig_noFreeNNvLnMdLgFioStrCanHostRcdRcPcUpSecPr m trig)

@[simp] theorem seenAlarms_noFreeNNvLnMdLgFioStrCanHostRcdRcPcUpSecPr : (seenAlarms m).noFreeNNvLnMdLgFioStrCanHostRcdRcPcUpSecPr = m.noFreeNNvLnMdLgFioStrCanHostRcdRcPcUpSecPr := by
  unfold seenAlarms; dsimp only
  exact (forEach_keeps _ Mod.noFreeNNvLnMdLgFioStrCanHostRcdRcPcUpSecPr _ _ (fun t n => alarmAll_noFreeNNvLnMdLgFioStrCanHostRcdRcPcUpSecPr n t)).trans (by simp [Mod.noFreeNNvLnMdLgFioStrCanHostRcdRcPcUpSecPr])
@[simp] theorem seenAlarms_powered : (seenAlarms m).powered = m.powered := noFreeNNvLnMdLgFioStrCanHostRcdRcPcUpSecPr_powered (seenAlarms_noFreeNNvLnMdLgFioStrCanHostRcdRcPcUpSecPr m)
@[simp] theorem seenAlarms_clk : (seenAlarms m).clk = m.clk := noFreeNNvLnMdLgFioStrCanHostRcdRcPcUpSecPr_clk (seenAlarms_noFreeNNvLnMdLgFioStrCanHostRcdRcPcUpSecPr m)
@[simp] theorem seenAlarms_cfg : (seenAlarms m).cfg = m.cfg := noFreeNNvLnMdLgFioStrCanHostRcdRcPcUpSecPr_cfg (seenAlarms_noFreeNNvLnMdLgFioStrCanHostRcdRcPcUpSecPr m)
@[simp] theorem seenAlarms_tm : (seenAlarms m).tm = m.tm := noFreeNNvLnMdLgFioStrCanHostRcdRcPcUpSecPr_tm (seenAlarms_noFreeNNvLnMdLgFioStrCanHostRcdRcPcUpSecPr m)
@[simp] theorem seenAlarms_pw : (seenAlarms m).pw = m.pw := noFreeNNvLnMdLgFioStrCanHostRcdRcPcUpSecPr_pw (seenAlarms_noFreeNNvLnMdLgFioStrCanHostRcdRcPcUpSecPr m)
@[simp] theorem seenAlarms_cur : (seenAlarms m).cur = m.cur := noFreeNNvLnMdLgFioStrCanHostRcdRcPcUpSecPr_cur (seenAlarms_noFreeNNvLnMdLgFioStrCanHostRcdRcPcUpSecPr m)
@[simp] theorem seenAlarms_nxt : (seenAlarms m).nxt = m.nxt := noFreeNNvLnMdLgFioStrCanHostRcdRcPcUpSecPr_nxt (seenAlarms_noFreeNNvLnMdLgFioStrCanHostRcdRcPcUpSecPr m)
@[simp] theorem seenAlarms_en : (seenAlarms m).en = m.en := noFreeNNvLnMdLgFioStrCanHostRcdRcPcUpSecPr_en (seenAlarms_noFreeNNvLnMdLgFioStrCanHostRcdRcPcUpSecPr m)
@[simp] theorem seenAlarms_bt : (seenAlarms m).bt = m.bt := noFreeNNvLnMdLgFioStrCanHostRcdRcPcUpSecPr_bt (seenAlarms_noFreeNNvLnMdLgFioStrCanHostRcdRcPcUpSecPr m)
@[simp] theorem seenAlarms_net : (seenAlarms m).net = m.net := noFreeNNvLnMdLgFioStrCanHostRcdRcPcUpSecPr_net (seenAlarms_noFreeNNvLnMdLgFioStrCanHostRcdRcPcUpSecPr m)
@[simp] theorem seenAlarms_stateOut : (seenAlarms m).stateOut = m.stateOut := noFreeNNvLnMdLgFioStrCanHostRcdRcPcUpSecPr_stateOut (seenAlarms_noFreeNNvLnMdLgFioStrCanHostRcdRcPcUpSecPr m)

end Sys2Proof.Machine
end

