-- ==== Sys2Proof/Laws/Start.lean ====
section
/-! SUPPORT. What a host interface reset, bank selection and the steps of START leave alone. -/

namespace Sys2Proof.Machine

variable (m : Mod)

@[simp] theorem invalidate_noNvHostRcd (cause : Nat) : (invalidate cause m).noNvHostRcd = m.noNvHostRcd := by
  unfold invalidate onlyIf; dsimp only; (repeat' split) <;> simp [Mod.noNvHostRcd]
@[simp] theorem invalidate_powered (cause : Nat) : (invalidate cause m).powered = m.powered := noNvHostRcd_powered (invalidate_noNvHostRcd m cause)
@[simp] theorem invalidate_clk (cause : Nat) : (invalidate cause m).clk = m.clk := noNvHostRcd_clk (invalidate_noNvHostRcd m cause)
@[simp] theorem invalidate_freeN (cause : Nat) : (invalidate cause m).freeN = m.freeN := noNvHostRcd_freeN (invalidate_noNvHostRcd m cause)
@[simp] theorem invalidate_cfg (cause : Nat) : (invalidate cause m).cfg = m.cfg := noNvHostRcd_cfg (invalidate_noNvHostRcd m cause)
@[simp] theorem invalidate_tm (cause : Nat) : (invalidate cause m).tm = m.tm := noNvHostRcd_tm (invalidate_noNvHostRcd m cause)
@[simp] theorem invalidate_ln (cause : Nat) : (invalidate cause m).ln = m.ln := noNvHostRcd_ln (invalidate_noNvHostRcd m cause)
@[simp] theorem invalidate_md (cause : Nat) : (invalidate cause m).md = m.md := noNvHostRcd_md (invalidate_noNvHostRcd m cause)
@[simp] theorem invalidate_pw (cause : Nat) : (invalidate cause m).pw = m.pw := noNvHostRcd_pw (invalidate_noNvHostRcd m cause)
@[simp] theorem invalidate_lg (cause : Nat) : (invalidate cause m).lg = m.lg := noNvHostRcd_lg (invalidate_noNvHostRcd m cause)
@[simp] theorem invalidate_cur (cause : Nat) : (invalidate cause m).cur = m.cur := noNvHostRcd_cur (invalidate_noNvHostRcd m cause)
@[simp] theorem invalidate_nxt (cause : Nat) : (invalidate cause m).nxt = m.nxt := noNvHostRcd_nxt (invalidate_noNvHostRcd m cause)
@[simp] theorem invalidate_en (cause : Nat) : (invalidate cause m).en = m.en := noNvHostRcd_en (invalidate_noNvHostRcd m cause)
@[simp] theorem invalidate_fio (cause : Nat) : (invalidate cause m).fio = m.fio := noNvHostRcd_fio (invalidate_noNvHostRcd m cause)
@[simp] theorem invalidate_bt (cause : Nat) : (invalidate cause m).bt = m.bt := noNvHostRcd_bt (invalidate_noNvHostRcd m cause)
@[simp] theorem invalidate_str (cause : Nat) : (invalidate cause m).str = m.str := noNvHostRcd_str (invalidate_noNvHostRcd m cause)
@[simp] theorem invalidate_can (cause : Nat) : (invalidate cause m).can = m.can := noNvHostRcd_can (invalidate_noNvHostRcd m cause)
@[simp] theorem invalidate_net (cause : Nat) : (invalidate cause m).net = m.net := noNvHostRcd_net (invalidate_noNvHostRcd m cause)
@[simp] theorem invalidate_rc (cause : Nat) : (invalidate cause m).rc = m.rc := noNvHostRcd_rc (invalidate_noNvHostRcd m cause)
@[simp] theorem invalidate_pc (cause : Nat) : (invalidate cause m).pc = m.pc := noNvHostRcd_pc (invalidate_noNvHostRcd m cause)
@[simp] theorem invalidate_up (cause : Nat) : (invalidate cause m).up = m.up := noNvHostRcd_up (invalidate_noNvHostRcd m cause)
@[simp] theorem invalidate_sec (cause : Nat) : (invalidate cause m).sec = m.sec := noNvHostRcd_sec (invalidate_noNvHostRcd m cause)
@[simp] theorem invalidate_pr (cause : Nat) : (invalidate cause m).pr = m.pr := noNvHostRcd_pr (invalidate_noNvHostRcd m cause)
@[simp] theorem invalidate_stateOut (cause : Nat) : (invalidate cause m).stateOut = m.stateOut := noNvHostRcd_stateOut (invalidate_noNvHostRcd m cause)

/-- All but nv, ln, can, host, rcd, up, pr. -/
def Mod.noNvLnCanHostRcdUpPr (m : Mod) : Mod :=
  { m with nv := Nv.fresh, ln := PerLane.all (Lane.fresh (LaneNv.fresh 0 0)), can := ⟨0, [], []⟩, host := HostIf.fresh, rcd := Recorder.fresh, up := Update.fresh, pr := Pair.fresh }

theorem noNvLnCanHostRcdUpPr_powered {a b : Mod} (h : a.noNvLnCanHostRcdUpPr = b.noNvLnCanHostRcdUpPr) : a.powered = b.powered := (congrArg Mod.powered h :)
theorem noNvLnCanHostRcdUpPr_clk {a b : Mod} (h : a.noNvLnCanHostRcdUpPr = b.noNvLnCanHostRcdUpPr) : a.clk = b.clk := (congrArg Mod.clk h :)
theorem noNvLnCanHostRcdUpPr_freeN {a b : Mod} (h : a.noNvLnCanHostRcdUpPr = b.noNvLnCanHostRcdUpPr) : a.freeN = b.freeN := (congrArg Mod.freeN h :)
theorem noNvLnCanHostRcdUpPr_cfg {a b : Mod} (h : a.noNvLnCanHostRcdUpPr = b.noNvLnCanHostRcdUpPr) : a.cfg = b.cfg := (congrArg Mod.cfg h :)
theorem noNvLnCanHostRcdUpPr_tm {a b : Mod} (h : a.noNvLnCanHostRcdUpPr = b.noNvLnCanHostRcdUpPr) : a.tm = b.tm := (congrArg Mod.tm h :)
theorem noNvLnCanHostRcdUpPr_md {a b : Mod} (h : a.noNvLnCanHostRcdUpPr = b.noNvLnCanHostRcdUpPr) : a.md = b.md := (congrArg Mod.md h :)
theorem noNvLnCanHostRcdUpPr_pw {a b : Mod} (h : a.noNvLnCanHostRcdUpPr = b.noNvLnCanHostRcdUpPr) : a.pw = b.pw := (congrArg Mod.pw h :)
theorem noNvLnCanHostRcdUpPr_lg {a b : Mod} (h : a.noNvLnCanHostRcdUpPr = b.noNvLnCanHostRcdUpPr) : a.lg = b.lg := (congrArg Mod.lg h :)
theorem noNvLnCanHostRcdUpPr_cur {a b : Mod} (h : a.noNvLnCanHostRcdUpPr = b.noNvLnCanHostRcdUpPr) : a.cur = b.cur := (congrArg Mod.cur h :)
theorem noNvLnCanHostRcdUpPr_nxt {a b : Mod} (h : a.noNvLnCanHostRcdUpPr = b.noNvLnCanHostRcdUpPr) : a.nxt = b.nxt := (congrArg Mod.nxt h :)
theorem noNvLnCanHostRcdUpPr_en {a b : Mod} (h : a.noNvLnCanHostRcdUpPr = b.noNvLnCanHostRcdUpPr) : a.en = b.en := (congrArg Mod.en h :)
theorem noNvLnCanHostRcdUpPr_fio {a b : Mod} (h : a.noNvLnCanHostRcdUpPr = b.noNvLnCanHostRcdUpPr) : a.fio = b.fio := (congrArg Mod.fio h :)
theorem noNvLnCanHostRcdUpPr_bt {a b : Mod} (h : a.noNvLnCanHostRcdUpPr = b.noNvLnCanHostRcdUpPr) : a.bt = b.bt := (congrArg Mod.bt h :)
theorem noNvLnCanHostRcdUpPr_str {a b : Mod} (h : a.noNvLnCanHostRcdUpPr = b.noNvLnCanHostRcdUpPr) : a.str = b.str := (congrArg Mod.str h :)
theorem noNvLnCanHostRcdUpPr_net {a b : Mod} (h : a.noNvLnCanHostRcdUpPr = b.noNvLnCanHostRcdUpPr) : a.net = b.net := (congrArg Mod.net h :)
theorem noNvLnCanHostRcdUpPr_rc {a b : Mod} (h : a.noNvLnCanHostRcdUpPr = b.noNvLnCanHostRcdUpPr) : a.rc = b.rc := (congrArg Mod.rc h :)
theorem noNvLnCanHostRcdUpPr_pc {a b : Mod} (h : a.noNvLnCanHostRcdUpPr = b.noNvLnCanHostRcdUpPr) : a.pc = b.pc := (congrArg Mod.pc h :)
theorem noNvLnCanHostRcdUpPr_sec {a b : Mod} (h : a.noNvLnCanHostRcdUpPr = b.noNvLnCanHostRcdUpPr) : a.sec = b.sec := (congrArg Mod.sec h :)
theorem noNvLnCanHostRcdUpPr_stateOut {a b : Mod} (h : a.noNvLnCanHostRcdUpPr = b.noNvLnCanHostRcdUpPr) : a.stateOut = b.stateOut := (congrArg Mod.stateOut h :)

@[simp] theorem hostReset_noNvLnCanHostRcdUpPr : (hostReset m).noNvLnCanHostRcdUpPr = m.noNvLnCanHostRcdUpPr := by
  unfold hostReset; simp [Mod.noNvLnCanHostRcdUpPr]
@[simp] theorem hostReset_powered : (hostReset m).powered = m.powered := noNvLnCanHostRcdUpPr_powered (hostReset_noNvLnCanHostRcdUpPr m)
@[simp] theorem hostReset_clk : (hostReset m).clk = m.clk := noNvLnCanHostRcdUpPr_clk (hostReset_noNvLnCanHostRcdUpPr m)
@[simp] theorem hostReset_freeN : (hostReset m).freeN = m.freeN := noNvLnCanHostRcdUpPr_freeN (hostReset_noNvLnCanHostRcdUpPr m)
@[simp] theorem hostReset_cfg : (hostReset m).cfg = m.cfg := noNvLnCanHostRcdUpPr_cfg (hostReset_noNvLnCanHostRcdUpPr m)
@[simp] theorem hostReset_tm : (hostReset m).tm = m.tm := noNvLnCanHostRcdUpPr_tm (hostReset_noNvLnCanHostRcdUpPr m)
@[simp] theorem hostReset_md : (hostReset m).md = m.md := noNvLnCanHostRcdUpPr_md (hostReset_noNvLnCanHostRcdUpPr m)
@[simp] theorem hostReset_pw : (hostReset m).pw = m.pw := noNvLnCanHostRcdUpPr_pw (hostReset_noNvLnCanHostRcdUpPr m)
@[simp] theorem hostReset_lg : (hostReset m).lg = m.lg := noNvLnCanHostRcdUpPr_lg (hostReset_noNvLnCanHostRcdUpPr m)
@[simp] theorem hostReset_cur : (hostReset m).cur = m.cur := noNvLnCanHostRcdUpPr_cur (hostReset_noNvLnCanHostRcdUpPr m)
@[simp] theorem hostReset_nxt : (hostReset m).nxt = m.nxt := noNvLnCanHostRcdUpPr_nxt (hostReset_noNvLnCanHostRcdUpPr m)
@[simp] theorem hostReset_en : (hostReset m).en = m.en := noNvLnCanHostRcdUpPr_en (hostReset_noNvLnCanHostRcdUpPr m)
@[simp] theorem hostReset_fio : (hostReset m).fio = m.fio := noNvLnCanHostRcdUpPr_fio (hostReset_noNvLnCanHostRcdUpPr m)
@[simp] theorem hostReset_bt : (hostReset m).bt = m.bt := noNvLnCanHostRcdUpPr_bt (hostReset_noNvLnCanHostRcdUpPr m)
@[simp] theorem hostReset_str : (hostReset m).str = m.str := noNvLnCanHostRcdUpPr_str (hostReset_noNvLnCanHostRcdUpPr m)
@[simp] theorem hostReset_net : (hostReset m).net = m.net := noNvLnCanHostRcdUpPr_net (hostReset_noNvLnCanHostRcdUpPr m)
@[simp] theorem hostReset_rc : (hostReset m).rc = m.rc := noNvLnCanHostRcdUpPr_rc (hostReset_noNvLnCanHostRcdUpPr m)
@[simp] theorem hostReset_pc : (hostReset m).pc = m.pc := noNvLnCanHostRcdUpPr_pc (hostReset_noNvLnCanHostRcdUpPr m)
@[simp] theorem hostReset_sec : (hostReset m).sec = m.sec := noNvLnCanHostRcdUpPr_sec (hostReset_noNvLnCanHostRcdUpPr m)
@[simp] theorem hostReset_stateOut : (hostReset m).stateOut = m.stateOut := noNvLnCanHostRcdUpPr_stateOut (hostReset_noNvLnCanHostRcdUpPr m)

@[simp] theorem fellBack_noHostRcdUp (i reason lanes : Nat) : (fellBack i reason lanes m).noHostRcdUp = m.noHostRcdUp := by
  unfold fellBack; simp [Mod.noHostRcdUp]
@[simp] theorem fellBack_powered (i reason lanes : Nat) : (fellBack i reason lanes m).powered = m.powered := noHostRcdUp_powered (fellBack_noHostRcdUp m i reason lanes)
@[simp] theorem fellBack_clk (i reason lanes : Nat) : (fellBack i reason lanes m).clk = m.clk := noHostRcdUp_clk (fellBack_noHostRcdUp m i reason lanes)
@[simp] theorem fellBack_freeN (i reason lanes : Nat) : (fellBack i reason lanes m).freeN = m.freeN := noHostRcdUp_freeN (fellBack_noHostRcdUp m i reason lanes)
@[simp] theorem fellBack_nv (i reason lanes : Nat) : (fellBack i reason lanes m).nv = m.nv := noHostRcdUp_nv (fellBack_noHostRcdUp m i reason lanes)
@[simp] theorem fellBack_cfg (i reason lanes : Nat) : (fellBack i reason lanes m).cfg = m.cfg := noHostRcdUp_cfg (fellBack_noHostRcdUp m i reason lanes)
@[simp] theorem fellBack_tm (i reason lanes : Nat) : (fellBack i reason lanes m).tm = m.tm := noHostRcdUp_tm (fellBack_noHostRcdUp m i reason lanes)
@[simp] theorem fellBack_ln (i reason lanes : Nat) : (fellBack i reason lanes m).ln = m.ln := noHostRcdUp_ln (fellBack_noHostRcdUp m i reason lanes)
@[simp] theorem fellBack_md (i reason lanes : Nat) : (fellBack i reason lanes m).md = m.md := noHostRcdUp_md (fellBack_noHostRcdUp m i reason lanes)
@[simp] theorem fellBack_pw (i reason lanes : Nat) : (fellBack i reason lanes m).pw = m.pw := noHostRcdUp_pw (fellBack_noHostRcdUp m i reason lanes)
@[simp] theorem fellBack_lg (i reason lanes : Nat) : (fellBack i reason lanes m).lg = m.lg := noHostRcdUp_lg (fellBack_noHostRcdUp m i reason lanes)
@[simp] theorem fellBack_cur (i reason lanes : Nat) : (fellBack i reason lanes m).cur = m.cur := noHostRcdUp_cur (fellBack_noHostRcdUp m i reason lanes)
@[simp] theorem fellBack_nxt (i reason lanes : Nat) : (fellBack i reason lanes m).nxt = m.nxt := noHostRcdUp_nxt (fellBack_noHostRcdUp m i reason lanes)
@[simp] theorem fellBack_en (i reason lanes : Nat) : (fellBack i reason lanes m).en = m.en := noHostRcdUp_en (fellBack_noHostRcdUp m i reason lanes)
@[simp] theorem fellBack_fio (i reason lanes : Nat) : (fellBack i reason lanes m).fio = m.fio := noHostRcdUp_fio (fellBack_noHostRcdUp m i reason lanes)
@[simp] theorem fellBack_bt (i reason lanes : Nat) : (fellBack i reason lanes m).bt = m.bt := noHostRcdUp_bt (fellBack_noHostRcdUp m i reason lanes)
@[simp] theorem fellBack_str (i reason lanes : Nat) : (fellBack i reason lanes m).str = m.str := noHostRcdUp_str (fellBack_noHostRcdUp m i reason lanes)
@[simp] theorem fellBack_can (i reason lanes : Nat) : (fellBack i reason lanes m).can = m.can := noHostRcdUp_can (fellBack_noHostRcdUp m i reason lanes)
@[simp] theorem fellBack_net (i reason lanes : Nat) : (fellBack i reason lanes m).net = m.net := noHostRcdUp_net (fellBack_noHostRcdUp m i reason lanes)
@[simp] theorem fellBack_rc (i reason lanes : Nat) : (fellBack i reason lanes m).rc = m.rc := noHostRcdUp_rc (fellBack_noHostRcdUp m i reason lanes)
@[simp] theorem fellBack_pc (i reason lanes : Nat) : (fellBack i reason lanes m).pc = m.pc := noHostRcdUp_pc (fellBack_noHostRcdUp m i reason lanes)
@[simp] theorem fellBack_sec (i reason lanes : Nat) : (fellBack i reason lanes m).sec = m.sec := noHostRcdUp_sec (fellBack_noHostRcdUp m i reason lanes)
@[simp] theorem fellBack_pr (i reason lanes : Nat) : (fellBack i reason lanes m).pr = m.pr := noHostRcdUp_pr (fellBack_noHostRcdUp m i reason lanes)
@[simp] theorem fellBack_stateOut (i reason lanes : Nat) : (fellBack i reason lanes m).stateOut = m.stateOut := noHostRcdUp_stateOut (fellBack_noHostRcdUp m i reason lanes)

@[simp] theorem failParts_noNv (parts : List Nat) : (failParts parts m).noNv = m.noNv := rfl
@[simp] theorem failParts_powered (parts : List Nat) : (failParts parts m).powered = m.powered := noNv_powered (failParts_noNv m parts)
@[simp] theorem failParts_clk (parts : List Nat) : (failParts parts m).clk = m.clk := noNv_clk (failParts_noNv m parts)
@[simp] theorem failParts_freeN (parts : List Nat) : (failParts parts m).freeN = m.freeN := noNv_freeN (failParts_noNv m parts)
@[simp] theorem failParts_cfg (parts : List Nat) : (failParts parts m).cfg = m.cfg := noNv_cfg (failParts_noNv m parts)
@[simp] theorem failParts_tm (parts : List Nat) : (failParts parts m).tm = m.tm := noNv_tm (failParts_noNv m parts)
@[simp] theorem failParts_ln (parts : List Nat) : (failParts parts m).ln = m.ln := noNv_ln (failParts_noNv m parts)
@[simp] theorem failParts_md (parts : List Nat) : (failParts parts m).md = m.md := noNv_md (failParts_noNv m parts)
@[simp] theorem failParts_pw (parts : List Nat) : (failParts parts m).pw = m.pw := noNv_pw (failParts_noNv m parts)
@[simp] theorem failParts_lg (parts : List Nat) : (failParts parts m).lg = m.lg := noNv_lg (failParts_noNv m parts)
@[simp] theorem failParts_cur (parts : List Nat) : (failParts parts m).cur = m.cur := noNv_cur (failParts_noNv m parts)
@[simp] theorem failParts_nxt (parts : List Nat) : (failParts parts m).nxt = m.nxt := noNv_nxt (failParts_noNv m parts)
@[simp] theorem failParts_en (parts : List Nat) : (failParts parts m).en = m.en := noNv_en (failParts_noNv m parts)
@[simp] theorem failParts_fio (parts : List Nat) : (failParts parts m).fio = m.fio := noNv_fio (failParts_noNv m parts)
@[simp] theorem failParts_bt (parts : List Nat) : (failParts parts m).bt = m.bt := noNv_bt (failParts_noNv m parts)
@[simp] theorem failParts_str (parts : List Nat) : (failParts parts m).str = m.str := noNv_str (failParts_noNv m parts)
@[simp] theorem failParts_can (parts : List Nat) : (failParts parts m).can = m.can := noNv_can (failParts_noNv m parts)
@[simp] theorem failParts_net (parts : List Nat) : (failParts parts m).net = m.net := noNv_net (failParts_noNv m parts)
@[simp] theorem failParts_host (parts : List Nat) : (failParts parts m).host = m.host := noNv_host (failParts_noNv m parts)
@[simp] theorem failParts_rcd (parts : List Nat) : (failParts parts m).rcd = m.rcd := noNv_rcd (failParts_noNv m parts)
@[simp] theorem failParts_rc (parts : List Nat) : (failParts parts m).rc = m.rc := noNv_rc (failParts_noNv m parts)
@[simp] theorem failParts_pc (parts : List Nat) : (failParts parts m).pc = m.pc := noNv_pc (failParts_noNv m parts)
@[simp] theorem failParts_up (parts : List Nat) : (failParts parts m).up = m.up := noNv_up (failParts_noNv m parts)
@[simp] theorem failParts_sec (parts : List Nat) : (failParts parts m).sec = m.sec := noNv_sec (failParts_noNv m parts)
@[simp] theorem failParts_pr (parts : List Nat) : (failParts parts m).pr = m.pr := noNv_pr (failParts_noNv m parts)
@[simp] theorem failParts_stateOut (parts : List Nat) : (failParts parts m).stateOut = m.stateOut := noNv_stateOut (failParts_noNv m parts)

/-- All but nv, md, host, rcd, up. -/
def Mod.noNvMdHostRcdUp (m : Mod) : Mod :=
  { m with nv := Nv.fresh, md := Modes.fresh, host := HostIf.fresh, rcd := Recorder.fresh, up := Update.fresh }

theorem noNvMdHostRcdUp_powered {a b : Mod} (h : a.noNvMdHostRcdUp = b.noNvMdHostRcdUp) : a.powered = b.powered := (congrArg Mod.powered h :)
theorem noNvMdHostRcdUp_clk {a b : Mod} (h : a.noNvMdHostRcdUp = b.noNvMdHostRcdUp) : a.clk = b.clk := (congrArg Mod.clk h :)
theorem noNvMdHostRcdUp_freeN {a b : Mod} (h : a.noNvMdHostRcdUp = b.noNvMdHostRcdUp) : a.freeN = b.freeN := (congrArg Mod.freeN h :)
theorem noNvMdHostRcdUp_cfg {a b : Mod} (h : a.noNvMdHostRcdUp = b.noNvMdHostRcdUp) : a.cfg = b.cfg := (congrArg Mod.cfg h :)
theorem noNvMdHostRcdUp_tm {a b : Mod} (h : a.noNvMdHostRcdUp = b.noNvMdHostRcdUp) : a.tm = b.tm := (congrArg Mod.tm h :)
theorem noNvMdHostRcdUp_ln {a b : Mod} (h : a.noNvMdHostRcdUp = b.noNvMdHostRcdUp) : a.ln = b.ln := (congrArg Mod.ln h :)
theorem noNvMdHostRcdUp_pw {a b : Mod} (h : a.noNvMdHostRcdUp = b.noNvMdHostRcdUp) : a.pw = b.pw := (congrArg Mod.pw h :)
theorem noNvMdHostRcdUp_lg {a b : Mod} (h : a.noNvMdHostRcdUp = b.noNvMdHostRcdUp) : a.lg = b.lg := (congrArg Mod.lg h :)
theorem noNvMdHostRcdUp_cur {a b : Mod} (h : a.noNvMdHostRcdUp = b.noNvMdHostRcdUp) : a.cur = b.cur := (congrArg Mod.cur h :)
theorem noNvMdHostRcdUp_nxt {a b : Mod} (h : a.noNvMdHostRcdUp = b.noNvMdHostRcdUp) : a.nxt = b.nxt := (congrArg Mod.nxt h :)
theorem noNvMdHostRcdUp_en {a b : Mod} (h : a.noNvMdHostRcdUp = b.noNvMdHostRcdUp) : a.en = b.en := (congrArg Mod.en h :)
theorem noNvMdHostRcdUp_fio {a b : Mod} (h : a.noNvMdHostRcdUp = b.noNvMdHostRcdUp) : a.fio = b.fio := (congrArg Mod.fio h :)
theorem noNvMdHostRcdUp_bt {a b : Mod} (h : a.noNvMdHostRcdUp = b.noNvMdHostRcdUp) : a.bt = b.bt := (congrArg Mod.bt h :)
theorem noNvMdHostRcdUp_str {a b : Mod} (h : a.noNvMdHostRcdUp = b.noNvMdHostRcdUp) : a.str = b.str := (congrArg Mod.str h :)
theorem noNvMdHostRcdUp_can {a b : Mod} (h : a.noNvMdHostRcdUp = b.noNvMdHostRcdUp) : a.can = b.can := (congrArg Mod.can h :)
theorem noNvMdHostRcdUp_net {a b : Mod} (h : a.noNvMdHostRcdUp = b.noNvMdHostRcdUp) : a.net = b.net := (congrArg Mod.net h :)
theorem noNvMdHostRcdUp_rc {a b : Mod} (h : a.noNvMdHostRcdUp = b.noNvMdHostRcdUp) : a.rc = b.rc := (congrArg Mod.rc h :)
theorem noNvMdHostRcdUp_pc {a b : Mod} (h : a.noNvMdHostRcdUp = b.noNvMdHostRcdUp) : a.pc = b.pc := (congrArg Mod.pc h :)
theorem noNvMdHostRcdUp_sec {a b : Mod} (h : a.noNvMdHostRcdUp = b.noNvMdHostRcdUp) : a.sec = b.sec := (congrArg Mod.sec h :)
theorem noNvMdHostRcdUp_pr {a b : Mod} (h : a.noNvMdHostRcdUp = b.noNvMdHostRcdUp) : a.pr = b.pr := (congrArg Mod.pr h :)
theorem noNvMdHostRcdUp_stateOut {a b : Mod} (h : a.noNvMdHostRcdUp = b.noNvMdHostRcdUp) : a.stateOut = b.stateOut := (congrArg Mod.stateOut h :)

@[simp] theorem selectPart_noNvMdHostRcdUp (i : Nat) : (selectPart i m).noNvMdHostRcdUp = m.noNvMdHostRcdUp := by
  unfold selectPart; dsimp only; (repeat' split) <;> simp [Mod.noNvMdHostRcdUp]
@[simp] theorem selectPart_powered (i : Nat) : (selectPart i m).powered = m.powered := noNvMdHostRcdUp_powered (selectPart_noNvMdHostRcdUp m i)
@[simp] theorem selectPart_clk (i : Nat) : (selectPart i m).clk = m.clk := noNvMdHostRcdUp_clk (selectPart_noNvMdHostRcdUp m i)
@[simp] theorem selectPart_freeN (i : Nat) : (selectPart i m).freeN = m.freeN := noNvMdHostRcdUp_freeN (selectPart_noNvMdHostRcdUp m i)
@[simp] theorem selectPart_cfg (i : Nat) : (selectPart i m).cfg = m.cfg := noNvMdHostRcdUp_cfg (selectPart_noNvMdHostRcdUp m i)
@[simp] theorem selectPart_tm (i : Nat) : (selectPart i m).tm = m.tm := noNvMdHostRcdUp_tm (selectPart_noNvMdHostRcdUp m i)
@[simp] theorem selectPart_ln (i : Nat) : (selectPart i m).ln = m.ln := noNvMdHostRcdUp_ln (selectPart_noNvMdHostRcdUp m i)
@[simp] theorem selectPart_pw (i : Nat) : (selectPart i m).pw = m.pw := noNvMdHostRcdUp_pw (selectPart_noNvMdHostRcdUp m i)
@[simp] theorem selectPart_lg (i : Nat) : (selectPart i m).lg = m.lg := noNvMdHostRcdUp_lg (selectPart_noNvMdHostRcdUp m i)
@[simp] theorem selectPart_cur (i : Nat) : (selectPart i m).cur = m.cur := noNvMdHostRcdUp_cur (selectPart_noNvMdHostRcdUp m i)
@[simp] theorem selectPart_nxt (i : Nat) : (selectPart i m).nxt = m.nxt := noNvMdHostRcdUp_nxt (selectPart_noNvMdHostRcdUp m i)
@[simp] theorem selectPart_en (i : Nat) : (selectPart i m).en = m.en := noNvMdHostRcdUp_en (selectPart_noNvMdHostRcdUp m i)
@[simp] theorem selectPart_fio (i : Nat) : (selectPart i m).fio = m.fio := noNvMdHostRcdUp_fio (selectPart_noNvMdHostRcdUp m i)
@[simp] theorem selectPart_bt (i : Nat) : (selectPart i m).bt = m.bt := noNvMdHostRcdUp_bt (selectPart_noNvMdHostRcdUp m i)
@[simp] theorem selectPart_str (i : Nat) : (selectPart i m).str = m.str := noNvMdHostRcdUp_str (selectPart_noNvMdHostRcdUp m i)
@[simp] theorem selectPart_can (i : Nat) : (selectPart i m).can = m.can := noNvMdHostRcdUp_can (selectPart_noNvMdHostRcdUp m i)
@[simp] theorem selectPart_net (i : Nat) : (selectPart i m).net = m.net := noNvMdHostRcdUp_net (selectPart_noNvMdHostRcdUp m i)
@[simp] theorem selectPart_rc (i : Nat) : (selectPart i m).rc = m.rc := noNvMdHostRcdUp_rc (selectPart_noNvMdHostRcdUp m i)
@[simp] theorem selectPart_pc (i : Nat) : (selectPart i m).pc = m.pc := noNvMdHostRcdUp_pc (selectPart_noNvMdHostRcdUp m i)
@[simp] theorem selectPart_sec (i : Nat) : (selectPart i m).sec = m.sec := noNvMdHostRcdUp_sec (selectPart_noNvMdHostRcdUp m i)
@[simp] theorem selectPart_pr (i : Nat) : (selectPart i m).pr = m.pr := noNvMdHostRcdUp_pr (selectPart_noNvMdHostRcdUp m i)
@[simp] theorem selectPart_stateOut (i : Nat) : (selectPart i m).stateOut = m.stateOut := noNvMdHostRcdUp_stateOut (selectPart_noNvMdHostRcdUp m i)

@[simp] theorem selectNet_noNvMdHostRcdUp : (selectNet m).noNvMdHostRcdUp = m.noNvMdHostRcdUp := by
  unfold selectNet; split <;> simp [Mod.noNvMdHostRcdUp]
@[simp] theorem selectNet_powered : (selectNet m).powered = m.powered := noNvMdHostRcdUp_powered (selectNet_noNvMdHostRcdUp m)
@[simp] theorem selectNet_clk : (selectNet m).clk = m.clk := noNvMdHostRcdUp_clk (selectNet_noNvMdHostRcdUp m)
@[simp] theorem selectNet_freeN : (selectNet m).freeN = m.freeN := noNvMdHostRcdUp_freeN (selectNet_noNvMdHostRcdUp m)
@[simp] theorem selectNet_cfg : (selectNet m).cfg = m.cfg := noNvMdHostRcdUp_cfg (selectNet_noNvMdHostRcdUp m)
@[simp] theorem selectNet_tm : (selectNet m).tm = m.tm := noNvMdHostRcdUp_tm (selectNet_noNvMdHostRcdUp m)
@[simp] theorem selectNet_ln : (selectNet m).ln = m.ln := noNvMdHostRcdUp_ln (selectNet_noNvMdHostRcdUp m)
@[simp] theorem selectNet_pw : (selectNet m).pw = m.pw := noNvMdHostRcdUp_pw (selectNet_noNvMdHostRcdUp m)
@[simp] theorem selectNet_lg : (selectNet m).lg = m.lg := noNvMdHostRcdUp_lg (selectNet_noNvMdHostRcdUp m)
@[simp] theorem selectNet_cur : (selectNet m).cur = m.cur := noNvMdHostRcdUp_cur (selectNet_noNvMdHostRcdUp m)
@[simp] theorem selectNet_nxt : (selectNet m).nxt = m.nxt := noNvMdHostRcdUp_nxt (selectNet_noNvMdHostRcdUp m)
@[simp] theorem selectNet_en : (selectNet m).en = m.en := noNvMdHostRcdUp_en (selectNet_noNvMdHostRcdUp m)
@[simp] theorem selectNet_fio : (selectNet m).fio = m.fio := noNvMdHostRcdUp_fio (selectNet_noNvMdHostRcdUp m)
@[simp] theorem selectNet_bt : (selectNet m).bt = m.bt := noNvMdHostRcdUp_bt (selectNet_noNvMdHostRcdUp m)
@[simp] theorem selectNet_str : (selectNet m).str = m.str := noNvMdHostRcdUp_str (selectNet_noNvMdHostRcdUp m)
@[simp] theorem selectNet_can : (selectNet m).can = m.can := noNvMdHostRcdUp_can (selectNet_noNvMdHostRcdUp m)
@[simp] theorem selectNet_net : (selectNet m).net = m.net := noNvMdHostRcdUp_net (selectNet_noNvMdHostRcdUp m)
@[simp] theorem selectNet_rc : (selectNet m).rc = m.rc := noNvMdHostRcdUp_rc (selectNet_noNvMdHostRcdUp m)
@[simp] theorem selectNet_pc : (selectNet m).pc = m.pc := noNvMdHostRcdUp_pc (selectNet_noNvMdHostRcdUp m)
@[simp] theorem selectNet_sec : (selectNet m).sec = m.sec := noNvMdHostRcdUp_sec (selectNet_noNvMdHostRcdUp m)
@[simp] theorem selectNet_pr : (selectNet m).pr = m.pr := noNvMdHostRcdUp_pr (selectNet_noNvMdHostRcdUp m)
@[simp] theorem selectNet_stateOut : (selectNet m).stateOut = m.stateOut := noNvMdHostRcdUp_stateOut (selectNet_noNvMdHostRcdUp m)

@[simp] theorem selectBanks_noNvMdHostRcdUp : (selectBanks m).noNvMdHostRcdUp = m.noNvMdHostRcdUp := (selectNet_noNvMdHostRcdUp _).trans (forEach_keeps _ Mod.noNvMdHostRcdUp _ _ (fun i n => selectPart_noNvMdHostRcdUp n i))
@[simp] theorem selectBanks_powered : (selectBanks m).powered = m.powered := noNvMdHostRcdUp_powered (selectBanks_noNvMdHostRcdUp m)
@[simp] theorem selectBanks_clk : (selectBanks m).clk = m.clk := noNvMdHostRcdUp_clk (selectBanks_noNvMdHostRcdUp m)
@[simp] theorem selectBanks_freeN : (selectBanks m).freeN = m.freeN := noNvMdHostRcdUp_freeN (selectBanks_noNvMdHostRcdUp m)
@[simp] theorem selectBanks_cfg : (selectBanks m).cfg = m.cfg := noNvMdHostRcdUp_cfg (selectBanks_noNvMdHostRcdUp m)
@[simp] theorem selectBanks_tm : (selectBanks m).tm = m.tm := noNvMdHostRcdUp_tm (selectBanks_noNvMdHostRcdUp m)
@[simp] theorem selectBanks_ln : (selectBanks m).ln = m.ln := noNvMdHostRcdUp_ln (selectBanks_noNvMdHostRcdUp m)
@[simp] theorem selectBanks_pw : (selectBanks m).pw = m.pw := noNvMdHostRcdUp_pw (selectBanks_noNvMdHostRcdUp m)
@[simp] theorem selectBanks_lg : (selectBanks m).lg = m.lg := noNvMdHostRcdUp_lg (selectBanks_noNvMdHostRcdUp m)
@[simp] theorem selectBanks_cur : (selectBanks m).cur = m.cur := noNvMdHostRcdUp_cur (selectBanks_noNvMdHostRcdUp m)
@[simp] theorem selectBanks_nxt : (selectBanks m).nxt = m.nxt := noNvMdHostRcdUp_nxt (selectBanks_noNvMdHostRcdUp m)
@[simp] theorem selectBanks_en : (selectBanks m).en = m.en := noNvMdHostRcdUp_en (selectBanks_noNvMdHostRcdUp m)
@[simp] theorem selectBanks_fio : (selectBanks m).fio = m.fio := noNvMdHostRcdUp_fio (selectBanks_noNvMdHostRcdUp m)
@[simp] theorem selectBanks_bt : (selectBanks m).bt = m.bt := noNvMdHostRcdUp_bt (selectBanks_noNvMdHostRcdUp m)
@[simp] theorem selectBanks_str : (selectBanks m).str = m.str := noNvMdHostRcdUp_str (selectBanks_noNvMdHostRcdUp m)
@[simp] theorem selectBanks_can : (selectBanks m).can = m.can := noNvMdHostRcdUp_can (selectBanks_noNvMdHostRcdUp m)
@[simp] theorem selectBanks_net : (selectBanks m).net = m.net := noNvMdHostRcdUp_net (selectBanks_noNvMdHostRcdUp m)
@[simp] theorem selectBanks_rc : (selectBanks m).rc = m.rc := noNvMdHostRcdUp_rc (selectBanks_noNvMdHostRcdUp m)
@[simp] theorem selectBanks_pc : (selectBanks m).pc = m.pc := noNvMdHostRcdUp_pc (selectBanks_noNvMdHostRcdUp m)
@[simp] theorem selectBanks_sec : (selectBanks m).sec = m.sec := noNvMdHostRcdUp_sec (selectBanks_noNvMdHostRcdUp m)
@[simp] theorem selectBanks_pr : (selectBanks m).pr = m.pr := noNvMdHostRcdUp_pr (selectBanks_noNvMdHostRcdUp m)
@[simp] theorem selectBanks_stateOut : (selectBanks m).stateOut = m.stateOut := noNvMdHostRcdUp_stateOut (selectBanks_noNvMdHostRcdUp m)

@[simp] theorem openRecorder_noNvHostRcd (powerOn : Bool) (geo : BitVec 4) : (openRecorder powerOn geo m).noNvHostRcd = m.noNvHostRcd := by
  unfold openRecorder; dsimp only; split
  · simp [Mod.noNvHostRcd]
  · refine (forEach_keeps _ Mod.noNvHostRcd _ _ (fun s n => ?_)).trans (by simp [Mod.noNvHostRcd])
    (repeat' split) <;> simp [Mod.noNvHostRcd]
@[simp] theorem openRecorder_powered (powerOn : Bool) (geo : BitVec 4) : (openRecorder powerOn geo m).powered = m.powered := noNvHostRcd_powered (openRecorder_noNvHostRcd m powerOn geo)
@[simp] theorem openRecorder_clk (powerOn : Bool) (geo : BitVec 4) : (openRecorder powerOn geo m).clk = m.clk := noNvHostRcd_clk (openRecorder_noNvHostRcd m powerOn geo)
@[simp] theorem openRecorder_freeN (powerOn : Bool) (geo : BitVec 4) : (openRecorder powerOn geo m).freeN = m.freeN := noNvHostRcd_freeN (openRecorder_noNvHostRcd m powerOn geo)
@[simp] theorem openRecorder_cfg (powerOn : Bool) (geo : BitVec 4) : (openRecorder powerOn geo m).cfg = m.cfg := noNvHostRcd_cfg (openRecorder_noNvHostRcd m powerOn geo)
@[simp] theorem openRecorder_tm (powerOn : Bool) (geo : BitVec 4) : (openRecorder powerOn geo m).tm = m.tm := noNvHostRcd_tm (openRecorder_noNvHostRcd m powerOn geo)
@[simp] theorem openRecorder_ln (powerOn : Bool) (geo : BitVec 4) : (openRecorder powerOn geo m).ln = m.ln := noNvHostRcd_ln (openRecorder_noNvHostRcd m powerOn geo)
@[simp] theorem openRecorder_md (powerOn : Bool) (geo : BitVec 4) : (openRecorder powerOn geo m).md = m.md := noNvHostRcd_md (openRecorder_noNvHostRcd m powerOn geo)
@[simp] theorem openRecorder_pw (powerOn : Bool) (geo : BitVec 4) : (openRecorder powerOn geo m).pw = m.pw := noNvHostRcd_pw (openRecorder_noNvHostRcd m powerOn geo)
@[simp] theorem openRecorder_lg (powerOn : Bool) (geo : BitVec 4) : (openRecorder powerOn geo m).lg = m.lg := noNvHostRcd_lg (openRecorder_noNvHostRcd m powerOn geo)
@[simp] theorem openRecorder_cur (powerOn : Bool) (geo : BitVec 4) : (openRecorder powerOn geo m).cur = m.cur := noNvHostRcd_cur (openRecorder_noNvHostRcd m powerOn geo)
@[simp] theorem openRecorder_nxt (powerOn : Bool) (geo : BitVec 4) : (openRecorder powerOn geo m).nxt = m.nxt := noNvHostRcd_nxt (openRecorder_noNvHostRcd m powerOn geo)
@[simp] theorem openRecorder_en (powerOn : Bool) (geo : BitVec 4) : (openRecorder powerOn geo m).en = m.en := noNvHostRcd_en (openRecorder_noNvHostRcd m powerOn geo)
@[simp] theorem openRecorder_fio (powerOn : Bool) (geo : BitVec 4) : (openRecorder powerOn geo m).fio = m.fio := noNvHostRcd_fio (openRecorder_noNvHostRcd m powerOn geo)
@[simp] theorem openRecorder_bt (powerOn : Bool) (geo : BitVec 4) : (openRecorder powerOn geo m).bt = m.bt := noNvHostRcd_bt (openRecorder_noNvHostRcd m powerOn geo)
@[simp] theorem openRecorder_str (powerOn : Bool) (geo : BitVec 4) : (openRecorder powerOn geo m).str = m.str := noNvHostRcd_str (openRecorder_noNvHostRcd m powerOn geo)
@[simp] theorem openRecorder_can (powerOn : Bool) (geo : BitVec 4) : (openRecorder powerOn geo m).can = m.can := noNvHostRcd_can (openRecorder_noNvHostRcd m powerOn geo)
@[simp] theorem openRecorder_net (powerOn : Bool) (geo : BitVec 4) : (openRecorder powerOn geo m).net = m.net := noNvHostRcd_net (openRecorder_noNvHostRcd m powerOn geo)
@[simp] theorem openRecorder_rc (powerOn : Bool) (geo : BitVec 4) : (openRecorder powerOn geo m).rc = m.rc := noNvHostRcd_rc (openRecorder_noNvHostRcd m powerOn geo)
@[simp] theorem openRecorder_pc (powerOn : Bool) (geo : BitVec 4) : (openRecorder powerOn geo m).pc = m.pc := noNvHostRcd_pc (openRecorder_noNvHostRcd m powerOn geo)
@[simp] theorem openRecorder_up (powerOn : Bool) (geo : BitVec 4) : (openRecorder powerOn geo m).up = m.up := noNvHostRcd_up (openRecorder_noNvHostRcd m powerOn geo)
@[simp] theorem openRecorder_sec (powerOn : Bool) (geo : BitVec 4) : (openRecorder powerOn geo m).sec = m.sec := noNvHostRcd_sec (openRecorder_noNvHostRcd m powerOn geo)
@[simp] theorem openRecorder_pr (powerOn : Bool) (geo : BitVec 4) : (openRecorder powerOn geo m).pr = m.pr := noNvHostRcd_pr (openRecorder_noNvHostRcd m powerOn geo)
@[simp] theorem openRecorder_stateOut (powerOn : Bool) (geo : BitVec 4) : (openRecorder powerOn geo m).stateOut = m.stateOut := noNvHostRcd_stateOut (openRecorder_noNvHostRcd m powerOn geo)

/-- All but freeN, nv, ln, md, pw, lg, fio, str, can, host, rcd, rc, pc, up, sec, pr. -/
def Mod.noFreeNNvLnMdPwLgFioStrCanHostRcdRcPcUpSecPr (m : Mod) : Mod :=
  { m with freeN := 0, nv := Nv.fresh, ln := PerLane.all (Lane.fresh (LaneNv.fresh 0 0)), md := Modes.fresh, pw := Power.fresh, lg := Logic.fresh AppImage.empty, fio := Fio.fresh, str := Stride.fresh 0, can := ⟨0, [], []⟩, host := HostIf.fresh, rcd := Recorder.fresh, rc := RollCall.fresh, pc := Counters.fresh, up := Update.fresh, sec := SecVol.fresh, pr := Pair.fresh }

theorem noFreeNNvLnMdPwLgFioStrCanHostRcdRcPcUpSecPr_powered {a b : Mod} (h : a.noFreeNNvLnMdPwLgFioStrCanHostRcdRcPcUpSecPr = b.noFreeNNvLnMdPwLgFioStrCanHostRcdRcPcUpSecPr) : a.powered = b.powered := (congrArg Mod.powered h :)
theorem noFreeNNvLnMdPwLgFioStrCanHostRcdRcPcUpSecPr_clk {a b : Mod} (h : a.noFreeNNvLnMdPwLgFioStrCanHostRcdRcPcUpSecPr = b.noFreeNNvLnMdPwLgFioStrCanHostRcdRcPcUpSecPr) : a.clk = b.clk := (congrArg Mod.clk h :)
theorem noFreeNNvLnMdPwLgFioStrCanHostRcdRcPcUpSecPr_cfg {a b : Mod} (h : a.noFreeNNvLnMdPwLgFioStrCanHostRcdRcPcUpSecPr = b.noFreeNNvLnMdPwLgFioStrCanHostRcdRcPcUpSecPr) : a.cfg = b.cfg := (congrArg Mod.cfg h :)
theorem noFreeNNvLnMdPwLgFioStrCanHostRcdRcPcUpSecPr_tm {a b : Mod} (h : a.noFreeNNvLnMdPwLgFioStrCanHostRcdRcPcUpSecPr = b.noFreeNNvLnMdPwLgFioStrCanHostRcdRcPcUpSecPr) : a.tm = b.tm := (congrArg Mod.tm h :)
theorem noFreeNNvLnMdPwLgFioStrCanHostRcdRcPcUpSecPr_cur {a b : Mod} (h : a.noFreeNNvLnMdPwLgFioStrCanHostRcdRcPcUpSecPr = b.noFreeNNvLnMdPwLgFioStrCanHostRcdRcPcUpSecPr) : a.cur = b.cur := (congrArg Mod.cur h :)
theorem noFreeNNvLnMdPwLgFioStrCanHostRcdRcPcUpSecPr_nxt {a b : Mod} (h : a.noFreeNNvLnMdPwLgFioStrCanHostRcdRcPcUpSecPr = b.noFreeNNvLnMdPwLgFioStrCanHostRcdRcPcUpSecPr) : a.nxt = b.nxt := (congrArg Mod.nxt h :)
theorem noFreeNNvLnMdPwLgFioStrCanHostRcdRcPcUpSecPr_en {a b : Mod} (h : a.noFreeNNvLnMdPwLgFioStrCanHostRcdRcPcUpSecPr = b.noFreeNNvLnMdPwLgFioStrCanHostRcdRcPcUpSecPr) : a.en = b.en := (congrArg Mod.en h :)
theorem noFreeNNvLnMdPwLgFioStrCanHostRcdRcPcUpSecPr_bt {a b : Mod} (h : a.noFreeNNvLnMdPwLgFioStrCanHostRcdRcPcUpSecPr = b.noFreeNNvLnMdPwLgFioStrCanHostRcdRcPcUpSecPr) : a.bt = b.bt := (congrArg Mod.bt h :)
theorem noFreeNNvLnMdPwLgFioStrCanHostRcdRcPcUpSecPr_net {a b : Mod} (h : a.noFreeNNvLnMdPwLgFioStrCanHostRcdRcPcUpSecPr = b.noFreeNNvLnMdPwLgFioStrCanHostRcdRcPcUpSecPr) : a.net = b.net := (congrArg Mod.net h :)
theorem noFreeNNvLnMdPwLgFioStrCanHostRcdRcPcUpSecPr_stateOut {a b : Mod} (h : a.noFreeNNvLnMdPwLgFioStrCanHostRcdRcPcUpSecPr = b.noFreeNNvLnMdPwLgFioStrCanHostRcdRcPcUpSecPr) : a.stateOut = b.stateOut := (congrArg Mod.stateOut h :)

@[simp] theorem startStep1_noFreeNNvLnMdPwLgFioStrCanHostRcdRcPcUpSecPr (powerOn : Bool) (prev : Nat) (env : StartEnv) : (startStep1 powerOn prev env m).noFreeNNvLnMdPwLgFioStrCanHostRcdRcPcUpSecPr = m.noFreeNNvLnMdPwLgFioStrCanHostRcdRcPcUpSecPr := by
  unfold startStep1; dsimp only
  have h : ∀ (c : Bool) (g : Mod → Mod) (x : Mod), (g x).noFreeNNvLnMdPwLgFioStrCanHostRcdRcPcUpSecPr = x.noFreeNNvLnMdPwLgFioStrCanHostRcdRcPcUpSecPr → (onlyIf c g x).noFreeNNvLnMdPwLgFioStrCanHostRcdRcPcUpSecPr = x.noFreeNNvLnMdPwLgFioStrCanHostRcdRcPcUpSecPr := fun c g x hx =>
    onlyIf_keeps x Mod.noFreeNNvLnMdPwLgFioStrCanHostRcdRcPcUpSecPr c g hx
  have r : ∀ (g : Recorder → Recorder) (x : Mod), (updRcd g x).noFreeNNvLnMdPwLgFioStrCanHostRcdRcPcUpSecPr = x.noFreeNNvLnMdPwLgFioStrCanHostRcdRcPcUpSecPr := fun _ _ => rfl
  rw [h _ _ _ (by simp [Mod.noFreeNNvLnMdPwLgFioStrCanHostRcdRcPcUpSecPr]), h _ _ _ (by simp [Mod.noFreeNNvLnMdPwLgFioStrCanHostRcdRcPcUpSecPr]), h _ _ _ (by simp [Mod.noFreeNNvLnMdPwLgFioStrCanHostRcdRcPcUpSecPr]), r, h _ _ _ (by simp [Mod.noFreeNNvLnMdPwLgFioStrCanHostRcdRcPcUpSecPr])]; simp [Mod.noFreeNNvLnMdPwLgFioStrCanHostRcdRcPcUpSecPr]
@[simp] theorem startStep1_powered (powerOn : Bool) (prev : Nat) (env : StartEnv) : (startStep1 powerOn prev env m).powered = m.powered := noFreeNNvLnMdPwLgFioStrCanHostRcdRcPcUpSecPr_powered (startStep1_noFreeNNvLnMdPwLgFioStrCanHostRcdRcPcUpSecPr m powerOn prev env)
@[simp] theorem startStep1_clk (powerOn : Bool) (prev : Nat) (env : StartEnv) : (startStep1 powerOn prev env m).clk = m.clk := noFreeNNvLnMdPwLgFioStrCanHostRcdRcPcUpSecPr_clk (startStep1_noFreeNNvLnMdPwLgFioStrCanHostRcdRcPcUpSecPr m powerOn prev env)
@[simp] theorem startStep1_cfg (powerOn : Bool) (prev : Nat) (env : StartEnv) : (startStep1 powerOn prev env m).cfg = m.cfg := noFreeNNvLnMdPwLgFioStrCanHostRcdRcPcUpSecPr_cfg (startStep1_noFreeNNvLnMdPwLgFioStrCanHostRcdRcPcUpSecPr m powerOn prev env)
@[simp] theorem startStep1_tm (powerOn : Bool) (prev : Nat) (env : StartEnv) : (startStep1 powerOn prev env m).tm = m.tm := noFreeNNvLnMdPwLgFioStrCanHostRcdRcPcUpSecPr_tm (startStep1_noFreeNNvLnMdPwLgFioStrCanHostRcdRcPcUpSecPr m powerOn prev env)
@[simp] theorem startStep1_cur (powerOn : Bool) (prev : Nat) (env : StartEnv) : (startStep1 powerOn prev env m).cur = m.cur := noFreeNNvLnMdPwLgFioStrCanHostRcdRcPcUpSecPr_cur (startStep1_noFreeNNvLnMdPwLgFioStrCanHostRcdRcPcUpSecPr m powerOn prev env)
@[simp] theorem startStep1_nxt (powerOn : Bool) (prev : Nat) (env : StartEnv) : (startStep1 powerOn prev env m).nxt = m.nxt := noFreeNNvLnMdPwLgFioStrCanHostRcdRcPcUpSecPr_nxt (startStep1_noFreeNNvLnMdPwLgFioStrCanHostRcdRcPcUpSecPr m powerOn prev env)
@[simp] theorem startStep1_en (powerOn : Bool) (prev : Nat) (env : StartEnv) : (startStep1 powerOn prev env m).en = m.en := noFreeNNvLnMdPwLgFioStrCanHostRcdRcPcUpSecPr_en (startStep1_noFreeNNvLnMdPwLgFioStrCanHostRcdRcPcUpSecPr m powerOn prev env)
@[simp] theorem startStep1_bt (powerOn : Bool) (prev : Nat) (env : StartEnv) : (startStep1 powerOn prev env m).bt = m.bt := noFreeNNvLnMdPwLgFioStrCanHostRcdRcPcUpSecPr_bt (startStep1_noFreeNNvLnMdPwLgFioStrCanHostRcdRcPcUpSecPr m powerOn prev env)
@[simp] theorem startStep1_net (powerOn : Bool) (prev : Nat) (env : StartEnv) : (startStep1 powerOn prev env m).net = m.net := noFreeNNvLnMdPwLgFioStrCanHostRcdRcPcUpSecPr_net (startStep1_noFreeNNvLnMdPwLgFioStrCanHostRcdRcPcUpSecPr m powerOn prev env)
@[simp] theorem startStep1_stateOut (powerOn : Bool) (prev : Nat) (env : StartEnv) : (startStep1 powerOn prev env m).stateOut = m.stateOut := noFreeNNvLnMdPwLgFioStrCanHostRcdRcPcUpSecPr_stateOut (startStep1_noFreeNNvLnMdPwLgFioStrCanHostRcdRcPcUpSecPr m powerOn prev env)

@[simp] theorem planLane_noLnHostRcd (env : StartEnv) (l : LaneId) : (planLane env l m).noLnHostRcd = m.noLnHostRcd := by
  unfold planLane onlyIf; dsimp only; split <;> simp [Mod.noLnHostRcd]
@[simp] theorem planLane_powered (env : StartEnv) (l : LaneId) : (planLane env l m).powered = m.powered := noLnHostRcd_powered (planLane_noLnHostRcd m env l)
@[simp] theorem planLane_clk (env : StartEnv) (l : LaneId) : (planLane env l m).clk = m.clk := noLnHostRcd_clk (planLane_noLnHostRcd m env l)
@[simp] theorem planLane_freeN (env : StartEnv) (l : LaneId) : (planLane env l m).freeN = m.freeN := noLnHostRcd_freeN (planLane_noLnHostRcd m env l)
@[simp] theorem planLane_nv (env : StartEnv) (l : LaneId) : (planLane env l m).nv = m.nv := noLnHostRcd_nv (planLane_noLnHostRcd m env l)
@[simp] theorem planLane_cfg (env : StartEnv) (l : LaneId) : (planLane env l m).cfg = m.cfg := noLnHostRcd_cfg (planLane_noLnHostRcd m env l)
@[simp] theorem planLane_tm (env : StartEnv) (l : LaneId) : (planLane env l m).tm = m.tm := noLnHostRcd_tm (planLane_noLnHostRcd m env l)
@[simp] theorem planLane_md (env : StartEnv) (l : LaneId) : (planLane env l m).md = m.md := noLnHostRcd_md (planLane_noLnHostRcd m env l)
@[simp] theorem planLane_pw (env : StartEnv) (l : LaneId) : (planLane env l m).pw = m.pw := noLnHostRcd_pw (planLane_noLnHostRcd m env l)
@[simp] theorem planLane_lg (env : StartEnv) (l : LaneId) : (planLane env l m).lg = m.lg := noLnHostRcd_lg (planLane_noLnHostRcd m env l)
@[simp] theorem planLane_cur (env : StartEnv) (l : LaneId) : (planLane env l m).cur = m.cur := noLnHostRcd_cur (planLane_noLnHostRcd m env l)
@[simp] theorem planLane_nxt (env : StartEnv) (l : LaneId) : (planLane env l m).nxt = m.nxt := noLnHostRcd_nxt (planLane_noLnHostRcd m env l)
@[simp] theorem planLane_en (env : StartEnv) (l : LaneId) : (planLane env l m).en = m.en := noLnHostRcd_en (planLane_noLnHostRcd m env l)
@[simp] theorem planLane_fio (env : StartEnv) (l : LaneId) : (planLane env l m).fio = m.fio := noLnHostRcd_fio (planLane_noLnHostRcd m env l)
@[simp] theorem planLane_bt (env : StartEnv) (l : LaneId) : (planLane env l m).bt = m.bt := noLnHostRcd_bt (planLane_noLnHostRcd m env l)
@[simp] theorem planLane_str (env : StartEnv) (l : LaneId) : (planLane env l m).str = m.str := noLnHostRcd_str (planLane_noLnHostRcd m env l)
@[simp] theorem planLane_can (env : StartEnv) (l : LaneId) : (planLane env l m).can = m.can := noLnHostRcd_can (planLane_noLnHostRcd m env l)
@[simp] theorem planLane_net (env : StartEnv) (l : LaneId) : (planLane env l m).net = m.net := noLnHostRcd_net (planLane_noLnHostRcd m env l)
@[simp] theorem planLane_rc (env : StartEnv) (l : LaneId) : (planLane env l m).rc = m.rc := noLnHostRcd_rc (planLane_noLnHostRcd m env l)
@[simp] theorem planLane_pc (env : StartEnv) (l : LaneId) : (planLane env l m).pc = m.pc := noLnHostRcd_pc (planLane_noLnHostRcd m env l)
@[simp] theorem planLane_up (env : StartEnv) (l : LaneId) : (planLane env l m).up = m.up := noLnHostRcd_up (planLane_noLnHostRcd m env l)
@[simp] theorem planLane_sec (env : StartEnv) (l : LaneId) : (planLane env l m).sec = m.sec := noLnHostRcd_sec (planLane_noLnHostRcd m env l)
@[simp] theorem planLane_pr (env : StartEnv) (l : LaneId) : (planLane env l m).pr = m.pr := noLnHostRcd_pr (planLane_noLnHostRcd m env l)
@[simp] theorem planLane_stateOut (env : StartEnv) (l : LaneId) : (planLane env l m).stateOut = m.stateOut := noLnHostRcd_stateOut (planLane_noLnHostRcd m env l)

@[simp] theorem recordExcl_noLn (l : LaneId) (cause at_ : Nat) : (recordExcl l cause at_ m).noLn = m.noLn := rfl
@[simp] theorem recordExcl_powered (l : LaneId) (cause at_ : Nat) : (recordExcl l cause at_ m).powered = m.powered := noLn_powered (recordExcl_noLn m l cause at_)
@[simp] theorem recordExcl_clk (l : LaneId) (cause at_ : Nat) : (recordExcl l cause at_ m).clk = m.clk := noLn_clk (recordExcl_noLn m l cause at_)
@[simp] theorem recordExcl_freeN (l : LaneId) (cause at_ : Nat) : (recordExcl l cause at_ m).freeN = m.freeN := noLn_freeN (recordExcl_noLn m l cause at_)
@[simp] theorem recordExcl_nv (l : LaneId) (cause at_ : Nat) : (recordExcl l cause at_ m).nv = m.nv := noLn_nv (recordExcl_noLn m l cause at_)
@[simp] theorem recordExcl_cfg (l : LaneId) (cause at_ : Nat) : (recordExcl l cause at_ m).cfg = m.cfg := noLn_cfg (recordExcl_noLn m l cause at_)
@[simp] theorem recordExcl_tm (l : LaneId) (cause at_ : Nat) : (recordExcl l cause at_ m).tm = m.tm := noLn_tm (recordExcl_noLn m l cause at_)
@[simp] theorem recordExcl_md (l : LaneId) (cause at_ : Nat) : (recordExcl l cause at_ m).md = m.md := noLn_md (recordExcl_noLn m l cause at_)
@[simp] theorem recordExcl_pw (l : LaneId) (cause at_ : Nat) : (recordExcl l cause at_ m).pw = m.pw := noLn_pw (recordExcl_noLn m l cause at_)
@[simp] theorem recordExcl_lg (l : LaneId) (cause at_ : Nat) : (recordExcl l cause at_ m).lg = m.lg := noLn_lg (recordExcl_noLn m l cause at_)
@[simp] theorem recordExcl_cur (l : LaneId) (cause at_ : Nat) : (recordExcl l cause at_ m).cur = m.cur := noLn_cur (recordExcl_noLn m l cause at_)
@[simp] theorem recordExcl_nxt (l : LaneId) (cause at_ : Nat) : (recordExcl l cause at_ m).nxt = m.nxt := noLn_nxt (recordExcl_noLn m l cause at_)
@[simp] theorem recordExcl_en (l : LaneId) (cause at_ : Nat) : (recordExcl l cause at_ m).en = m.en := noLn_en (recordExcl_noLn m l cause at_)
@[simp] theorem recordExcl_fio (l : LaneId) (cause at_ : Nat) : (recordExcl l cause at_ m).fio = m.fio := noLn_fio (recordExcl_noLn m l cause at_)
@[simp] theorem recordExcl_bt (l : LaneId) (cause at_ : Nat) : (recordExcl l cause at_ m).bt = m.bt := noLn_bt (recordExcl_noLn m l cause at_)
@[simp] theorem recordExcl_str (l : LaneId) (cause at_ : Nat) : (recordExcl l cause at_ m).str = m.str := noLn_str (recordExcl_noLn m l cause at_)
@[simp] theorem recordExcl_can (l : LaneId) (cause at_ : Nat) : (recordExcl l cause at_ m).can = m.can := noLn_can (recordExcl_noLn m l cause at_)
@[simp] theorem recordExcl_net (l : LaneId) (cause at_ : Nat) : (recordExcl l cause at_ m).net = m.net := noLn_net (recordExcl_noLn m l cause at_)
@[simp] theorem recordExcl_host (l : LaneId) (cause at_ : Nat) : (recordExcl l cause at_ m).host = m.host := noLn_host (recordExcl_noLn m l cause at_)
@[simp] theorem recordExcl_rcd (l : LaneId) (cause at_ : Nat) : (recordExcl l cause at_ m).rcd = m.rcd := noLn_rcd (recordExcl_noLn m l cause at_)
@[simp] theorem recordExcl_rc (l : LaneId) (cause at_ : Nat) : (recordExcl l cause at_ m).rc = m.rc := noLn_rc (recordExcl_noLn m l cause at_)
@[simp] theorem recordExcl_pc (l : LaneId) (cause at_ : Nat) : (recordExcl l cause at_ m).pc = m.pc := noLn_pc (recordExcl_noLn m l cause at_)
@[simp] theorem recordExcl_up (l : LaneId) (cause at_ : Nat) : (recordExcl l cause at_ m).up = m.up := noLn_up (recordExcl_noLn m l cause at_)
@[simp] theorem recordExcl_sec (l : LaneId) (cause at_ : Nat) : (recordExcl l cause at_ m).sec = m.sec := noLn_sec (recordExcl_noLn m l cause at_)
@[simp] theorem recordExcl_pr (l : LaneId) (cause at_ : Nat) : (recordExcl l cause at_ m).pr = m.pr := noLn_pr (recordExcl_noLn m l cause at_)
@[simp] theorem recordExcl_stateOut (l : LaneId) (cause at_ : Nat) : (recordExcl l cause at_ m).stateOut = m.stateOut := noLn_stateOut (recordExcl_noLn m l cause at_)

@[simp] theorem noteBist_noLnMd (env : StartEnv) : (noteBist env m).noLnMd = m.noLnMd := rfl
@[simp] theorem noteBist_powered (env : StartEnv) : (noteBist env m).powered = m.powered := noLnMd_powered (noteBist_noLnMd m env)
@[simp] theorem noteBist_clk (env : StartEnv) : (noteBist env m).clk = m.clk := noLnMd_clk (noteBist_noLnMd m env)
@[simp] theorem noteBist_freeN (env : StartEnv) : (noteBist env m).freeN = m.freeN := noLnMd_freeN (noteBist_noLnMd m env)
@[simp] theorem noteBist_nv (env : StartEnv) : (noteBist env m).nv = m.nv := noLnMd_nv (noteBist_noLnMd m env)
@[simp] theorem noteBist_cfg (env : StartEnv) : (noteBist env m).cfg = m.cfg := noLnMd_cfg (noteBist_noLnMd m env)
@[simp] theorem noteBist_tm (env : StartEnv) : (noteBist env m).tm = m.tm := noLnMd_tm (noteBist_noLnMd m env)
@[simp] theorem noteBist_pw (env : StartEnv) : (noteBist env m).pw = m.pw := noLnMd_pw (noteBist_noLnMd m env)
@[simp] theorem noteBist_lg (env : StartEnv) : (noteBist env m).lg = m.lg := noLnMd_lg (noteBist_noLnMd m env)
@[simp] theorem noteBist_cur (env : StartEnv) : (noteBist env m).cur = m.cur := noLnMd_cur (noteBist_noLnMd m env)
@[simp] theorem noteBist_nxt (env : StartEnv) : (noteBist env m).nxt = m.nxt := noLnMd_nxt (noteBist_noLnMd m env)
@[simp] theorem noteBist_en (env : StartEnv) : (noteBist env m).en = m.en := noLnMd_en (noteBist_noLnMd m env)
@[simp] theorem noteBist_fio (env : StartEnv) : (noteBist env m).fio = m.fio := noLnMd_fio (noteBist_noLnMd m env)
@[simp] theorem noteBist_bt (env : StartEnv) : (noteBist env m).bt = m.bt := noLnMd_bt (noteBist_noLnMd m env)
@[simp] theorem noteBist_str (env : StartEnv) : (noteBist env m).str = m.str := noLnMd_str (noteBist_noLnMd m env)
@[simp] theorem noteBist_can (env : StartEnv) : (noteBist env m).can = m.can := noLnMd_can (noteBist_noLnMd m env)
@[simp] theorem noteBist_net (env : StartEnv) : (noteBist env m).net = m.net := noLnMd_net (noteBist_noLnMd m env)
@[simp] theorem noteBist_host (env : StartEnv) : (noteBist env m).host = m.host := noLnMd_host (noteBist_noLnMd m env)
@[simp] theorem noteBist_rcd (env : StartEnv) : (noteBist env m).rcd = m.rcd := noLnMd_rcd (noteBist_noLnMd m env)
@[simp] theorem noteBist_rc (env : StartEnv) : (noteBist env m).rc = m.rc := noLnMd_rc (noteBist_noLnMd m env)
@[simp] theorem noteBist_pc (env : StartEnv) : (noteBist env m).pc = m.pc := noLnMd_pc (noteBist_noLnMd m env)
@[simp] theorem noteBist_up (env : StartEnv) : (noteBist env m).up = m.up := noLnMd_up (noteBist_noLnMd m env)
@[simp] theorem noteBist_sec (env : StartEnv) : (noteBist env m).sec = m.sec := noLnMd_sec (noteBist_noLnMd m env)
@[simp] theorem noteBist_pr (env : StartEnv) : (noteBist env m).pr = m.pr := noLnMd_pr (noteBist_noLnMd m env)
@[simp] theorem noteBist_stateOut (env : StartEnv) : (noteBist env m).stateOut = m.stateOut := noLnMd_stateOut (noteBist_noLnMd m env)

@[simp] theorem tellBist_noLnHostRcd (failed : List LaneId) (numbers : List Nat) (floor : Nat) : (tellBist failed numbers floor m).noLnHostRcd = m.noLnHostRcd := by
  unfold tellBist
  refine (forEach_keeps _ Mod.noLnHostRcd _ _ (fun _ n => ?_)).trans (forEach_keeps _ Mod.noLnHostRcd _ _ (fun _ n => ?_)) <;> simp [Mod.noLnHostRcd]
@[simp] theorem tellBist_powered (failed : List LaneId) (numbers : List Nat) (floor : Nat) : (tellBist failed numbers floor m).powered = m.powered := noLnHostRcd_powered (tellBist_noLnHostRcd m failed numbers floor)
@[simp] theorem tellBist_clk (failed : List LaneId) (numbers : List Nat) (floor : Nat) : (tellBist failed numbers floor m).clk = m.clk := noLnHostRcd_clk (tellBist_noLnHostRcd m failed numbers floor)
@[simp] theorem tellBist_freeN (failed : List LaneId) (numbers : List Nat) (floor : Nat) : (tellBist failed numbers floor m).freeN = m.freeN := noLnHostRcd_freeN (tellBist_noLnHostRcd m failed numbers floor)
@[simp] theorem tellBist_nv (failed : List LaneId) (numbers : List Nat) (floor : Nat) : (tellBist failed numbers floor m).nv = m.nv := noLnHostRcd_nv (tellBist_noLnHostRcd m failed numbers floor)
@[simp] theorem tellBist_cfg (failed : List LaneId) (numbers : List Nat) (floor : Nat) : (tellBist failed numbers floor m).cfg = m.cfg := noLnHostRcd_cfg (tellBist_noLnHostRcd m failed numbers floor)
@[simp] theorem tellBist_tm (failed : List LaneId) (numbers : List Nat) (floor : Nat) : (tellBist failed numbers floor m).tm = m.tm := noLnHostRcd_tm (tellBist_noLnHostRcd m failed numbers floor)
@[simp] theorem tellBist_md (failed : List LaneId) (numbers : List Nat) (floor : Nat) : (tellBist failed numbers floor m).md = m.md := noLnHostRcd_md (tellBist_noLnHostRcd m failed numbers floor)
@[simp] theorem tellBist_pw (failed : List LaneId) (numbers : List Nat) (floor : Nat) : (tellBist failed numbers floor m).pw = m.pw := noLnHostRcd_pw (tellBist_noLnHostRcd m failed numbers floor)
@[simp] theorem tellBist_lg (failed : List LaneId) (numbers : List Nat) (floor : Nat) : (tellBist failed numbers floor m).lg = m.lg := noLnHostRcd_lg (tellBist_noLnHostRcd m failed numbers floor)
@[simp] theorem tellBist_cur (failed : List LaneId) (numbers : List Nat) (floor : Nat) : (tellBist failed numbers floor m).cur = m.cur := noLnHostRcd_cur (tellBist_noLnHostRcd m failed numbers floor)
@[simp] theorem tellBist_nxt (failed : List LaneId) (numbers : List Nat) (floor : Nat) : (tellBist failed numbers floor m).nxt = m.nxt := noLnHostRcd_nxt (tellBist_noLnHostRcd m failed numbers floor)
@[simp] theorem tellBist_en (failed : List LaneId) (numbers : List Nat) (floor : Nat) : (tellBist failed numbers floor m).en = m.en := noLnHostRcd_en (tellBist_noLnHostRcd m failed numbers floor)
@[simp] theorem tellBist_fio (failed : List LaneId) (numbers : List Nat) (floor : Nat) : (tellBist failed numbers floor m).fio = m.fio := noLnHostRcd_fio (tellBist_noLnHostRcd m failed numbers floor)
@[simp] theorem tellBist_bt (failed : List LaneId) (numbers : List Nat) (floor : Nat) : (tellBist failed numbers floor m).bt = m.bt := noLnHostRcd_bt (tellBist_noLnHostRcd m failed numbers floor)
@[simp] theorem tellBist_str (failed : List LaneId) (numbers : List Nat) (floor : Nat) : (tellBist failed numbers floor m).str = m.str := noLnHostRcd_str (tellBist_noLnHostRcd m failed numbers floor)
@[simp] theorem tellBist_can (failed : List LaneId) (numbers : List Nat) (floor : Nat) : (tellBist failed numbers floor m).can = m.can := noLnHostRcd_can (tellBist_noLnHostRcd m failed numbers floor)
@[simp] theorem tellBist_net (failed : List LaneId) (numbers : List Nat) (floor : Nat) : (tellBist failed numbers floor m).net = m.net := noLnHostRcd_net (tellBist_noLnHostRcd m failed numbers floor)
@[simp] theorem tellBist_rc (failed : List LaneId) (numbers : List Nat) (floor : Nat) : (tellBist failed numbers floor m).rc = m.rc := noLnHostRcd_rc (tellBist_noLnHostRcd m failed numbers floor)
@[simp] theorem tellBist_pc (failed : List LaneId) (numbers : List Nat) (floor : Nat) : (tellBist failed numbers floor m).pc = m.pc := noLnHostRcd_pc (tellBist_noLnHostRcd m failed numbers floor)
@[simp] theorem tellBist_up (failed : List LaneId) (numbers : List Nat) (floor : Nat) : (tellBist failed numbers floor m).up = m.up := noLnHostRcd_up (tellBist_noLnHostRcd m failed numbers floor)
@[simp] theorem tellBist_sec (failed : List LaneId) (numbers : List Nat) (floor : Nat) : (tellBist failed numbers floor m).sec = m.sec := noLnHostRcd_sec (tellBist_noLnHostRcd m failed numbers floor)
@[simp] theorem tellBist_pr (failed : List LaneId) (numbers : List Nat) (floor : Nat) : (tellBist failed numbers floor m).pr = m.pr := noLnHostRcd_pr (tellBist_noLnHostRcd m failed numbers floor)
@[simp] theorem tellBist_stateOut (failed : List LaneId) (numbers : List Nat) (floor : Nat) : (tellBist failed numbers floor m).stateOut = m.stateOut := noLnHostRcd_stateOut (tellBist_noLnHostRcd m failed numbers floor)

/-- All but tm, fio, str, rcd. -/
def Mod.noTmFioStrRcd (m : Mod) : Mod :=
  { m with tm := Pacer.fresh, fio := Fio.fresh, str := Stride.fresh 0, rcd := Recorder.fresh }

theorem noTmFioStrRcd_powered {a b : Mod} (h : a.noTmFioStrRcd = b.noTmFioStrRcd) : a.powered = b.powered := (congrArg Mod.powered h :)
theorem noTmFioStrRcd_clk {a b : Mod} (h : a.noTmFioStrRcd = b.noTmFioStrRcd) : a.clk = b.clk := (congrArg Mod.clk h :)
theorem noTmFioStrRcd_freeN {a b : Mod} (h : a.noTmFioStrRcd = b.noTmFioStrRcd) : a.freeN = b.freeN := (congrArg Mod.freeN h :)
theorem noTmFioStrRcd_nv {a b : Mod} (h : a.noTmFioStrRcd = b.noTmFioStrRcd) : a.nv = b.nv := (congrArg Mod.nv h :)
theorem noTmFioStrRcd_cfg {a b : Mod} (h : a.noTmFioStrRcd = b.noTmFioStrRcd) : a.cfg = b.cfg := (congrArg Mod.cfg h :)
theorem noTmFioStrRcd_ln {a b : Mod} (h : a.noTmFioStrRcd = b.noTmFioStrRcd) : a.ln = b.ln := (congrArg Mod.ln h :)
theorem noTmFioStrRcd_md {a b : Mod} (h : a.noTmFioStrRcd = b.noTmFioStrRcd) : a.md = b.md := (congrArg Mod.md h :)
theorem noTmFioStrRcd_pw {a b : Mod} (h : a.noTmFioStrRcd = b.noTmFioStrRcd) : a.pw = b.pw := (congrArg Mod.pw h :)
theorem noTmFioStrRcd_lg {a b : Mod} (h : a.noTmFioStrRcd = b.noTmFioStrRcd) : a.lg = b.lg := (congrArg Mod.lg h :)
theorem noTmFioStrRcd_cur {a b : Mod} (h : a.noTmFioStrRcd = b.noTmFioStrRcd) : a.cur = b.cur := (congrArg Mod.cur h :)
theorem noTmFioStrRcd_nxt {a b : Mod} (h : a.noTmFioStrRcd = b.noTmFioStrRcd) : a.nxt = b.nxt := (congrArg Mod.nxt h :)
theorem noTmFioStrRcd_en {a b : Mod} (h : a.noTmFioStrRcd = b.noTmFioStrRcd) : a.en = b.en := (congrArg Mod.en h :)
theorem noTmFioStrRcd_bt {a b : Mod} (h : a.noTmFioStrRcd = b.noTmFioStrRcd) : a.bt = b.bt := (congrArg Mod.bt h :)
theorem noTmFioStrRcd_can {a b : Mod} (h : a.noTmFioStrRcd = b.noTmFioStrRcd) : a.can = b.can := (congrArg Mod.can h :)
theorem noTmFioStrRcd_net {a b : Mod} (h : a.noTmFioStrRcd = b.noTmFioStrRcd) : a.net = b.net := (congrArg Mod.net h :)
theorem noTmFioStrRcd_host {a b : Mod} (h : a.noTmFioStrRcd = b.noTmFioStrRcd) : a.host = b.host := (congrArg Mod.host h :)
theorem noTmFioStrRcd_rc {a b : Mod} (h : a.noTmFioStrRcd = b.noTmFioStrRcd) : a.rc = b.rc := (congrArg Mod.rc h :)
theorem noTmFioStrRcd_pc {a b : Mod} (h : a.noTmFioStrRcd = b.noTmFioStrRcd) : a.pc = b.pc := (congrArg Mod.pc h :)
theorem noTmFioStrRcd_up {a b : Mod} (h : a.noTmFioStrRcd = b.noTmFioStrRcd) : a.up = b.up := (congrArg Mod.up h :)
theorem noTmFioStrRcd_sec {a b : Mod} (h : a.noTmFioStrRcd = b.noTmFioStrRcd) : a.sec = b.sec := (congrArg Mod.sec h :)
theorem noTmFioStrRcd_pr {a b : Mod} (h : a.noTmFioStrRcd = b.noTmFioStrRcd) : a.pr = b.pr := (congrArg Mod.pr h :)
theorem noTmFioStrRcd_stateOut {a b : Mod} (h : a.noTmFioStrRcd = b.noTmFioStrRcd) : a.stateOut = b.stateOut := (congrArg Mod.stateOut h :)

@[simp] theorem leaveOut_noTmFioStrRcd (env : StartEnv) (bad : List Nat) (bits : Nat) : (leaveOut env bad bits m).noTmFioStrRcd = m.noTmFioStrRcd := rfl
@[simp] theorem leaveOut_powered (env : StartEnv) (bad : List Nat) (bits : Nat) : (leaveOut env bad bits m).powered = m.powered := noTmFioStrRcd_powered (leaveOut_noTmFioStrRcd m env bad bits)
@[simp] theorem leaveOut_clk (env : StartEnv) (bad : List Nat) (bits : Nat) : (leaveOut env bad bits m).clk = m.clk := noTmFioStrRcd_clk (leaveOut_noTmFioStrRcd m env bad bits)
@[simp] theorem leaveOut_freeN (env : StartEnv) (bad : List Nat) (bits : Nat) : (leaveOut env bad bits m).freeN = m.freeN := noTmFioStrRcd_freeN (leaveOut_noTmFioStrRcd m env bad bits)
@[simp] theorem leaveOut_nv (env : StartEnv) (bad : List Nat) (bits : Nat) : (leaveOut env bad bits m).nv = m.nv := noTmFioStrRcd_nv (leaveOut_noTmFioStrRcd m env bad bits)
@[simp] theorem leaveOut_cfg (env : StartEnv) (bad : List Nat) (bits : Nat) : (leaveOut env bad bits m).cfg = m.cfg := noTmFioStrRcd_cfg (leaveOut_noTmFioStrRcd m env bad bits)
@[simp] theorem leaveOut_ln (env : StartEnv) (bad : List Nat) (bits : Nat) : (leaveOut env bad bits m).ln = m.ln := noTmFioStrRcd_ln (leaveOut_noTmFioStrRcd m env bad bits)
@[simp] theorem leaveOut_md (env : StartEnv) (bad : List Nat) (bits : Nat) : (leaveOut env bad bits m).md = m.md := noTmFioStrRcd_md (leaveOut_noTmFioStrRcd m env bad bits)
@[simp] theorem leaveOut_pw (env : StartEnv) (bad : List Nat) (bits : Nat) : (leaveOut env bad bits m).pw = m.pw := noTmFioStrRcd_pw (leaveOut_noTmFioStrRcd m env bad bits)
@[simp] theorem leaveOut_lg (env : StartEnv) (bad : List Nat) (bits : Nat) : (leaveOut env bad bits m).lg = m.lg := noTmFioStrRcd_lg (leaveOut_noTmFioStrRcd m env bad bits)
@[simp] theorem leaveOut_cur (env : StartEnv) (bad : List Nat) (bits : Nat) : (leaveOut env bad bits m).cur = m.cur := noTmFioStrRcd_cur (leaveOut_noTmFioStrRcd m env bad bits)
@[simp] theorem leaveOut_nxt (env : StartEnv) (bad : List Nat) (bits : Nat) : (leaveOut env bad bits m).nxt = m.nxt := noTmFioStrRcd_nxt (leaveOut_noTmFioStrRcd m env bad bits)
@[simp] theorem leaveOut_en (env : StartEnv) (bad : List Nat) (bits : Nat) : (leaveOut env bad bits m).en = m.en := noTmFioStrRcd_en (leaveOut_noTmFioStrRcd m env bad bits)
@[simp] theorem leaveOut_bt (env : StartEnv) (bad : List Nat) (bits : Nat) : (leaveOut env bad bits m).bt = m.bt := noTmFioStrRcd_bt (leaveOut_noTmFioStrRcd m env bad bits)
@[simp] theorem leaveOut_can (env : StartEnv) (bad : List Nat) (bits : Nat) : (leaveOut env bad bits m).can = m.can := noTmFioStrRcd_can (leaveOut_noTmFioStrRcd m env bad bits)
@[simp] theorem leaveOut_net (env : StartEnv) (bad : List Nat) (bits : Nat) : (leaveOut env bad bits m).net = m.net := noTmFioStrRcd_net (leaveOut_noTmFioStrRcd m env bad bits)
@[simp] theorem leaveOut_host (env : StartEnv) (bad : List Nat) (bits : Nat) : (leaveOut env bad bits m).host = m.host := noTmFioStrRcd_host (leaveOut_noTmFioStrRcd m env bad bits)
@[simp] theorem leaveOut_rc (env : StartEnv) (bad : List Nat) (bits : Nat) : (leaveOut env bad bits m).rc = m.rc := noTmFioStrRcd_rc (leaveOut_noTmFioStrRcd m env bad bits)
@[simp] theorem leaveOut_pc (env : StartEnv) (bad : List Nat) (bits : Nat) : (leaveOut env bad bits m).pc = m.pc := noTmFioStrRcd_pc (leaveOut_noTmFioStrRcd m env bad bits)
@[simp] theorem leaveOut_up (env : StartEnv) (bad : List Nat) (bits : Nat) : (leaveOut env bad bits m).up = m.up := noTmFioStrRcd_up (leaveOut_noTmFioStrRcd m env bad bits)
@[simp] theorem leaveOut_sec (env : StartEnv) (bad : List Nat) (bits : Nat) : (leaveOut env bad bits m).sec = m.sec := noTmFioStrRcd_sec (leaveOut_noTmFioStrRcd m env bad bits)
@[simp] theorem leaveOut_pr (env : StartEnv) (bad : List Nat) (bits : Nat) : (leaveOut env bad bits m).pr = m.pr := noTmFioStrRcd_pr (leaveOut_noTmFioStrRcd m env bad bits)
@[simp] theorem leaveOut_stateOut (env : StartEnv) (bad : List Nat) (bits : Nat) : (leaveOut env bad bits m).stateOut = m.stateOut := noTmFioStrRcd_stateOut (leaveOut_noTmFioStrRcd m env bad bits)

theorem planLanes_keeps (env : StartEnv) : (forEach allLanes (planLane env) m).noLnHostRcd = m.noLnHostRcd :=
  forEach_keeps m Mod.noLnHostRcd _ _ (fun l n => planLane_noLnHostRcd n env l)


/-- All but freeN, nv, tm, ln, md, lg, fio, str, can, host, rcd, rc, pc, up, pr. -/
def Mod.noFreeNNvTmLnMdLgFioStrCanHostRcdRcPcUpPr (m : Mod) : Mod :=
  { m with freeN := 0, nv := Nv.fresh, tm := Pacer.fresh, ln := PerLane.all (Lane.fresh (LaneNv.fresh 0 0)), md := Modes.fresh, lg := Logic.fresh AppImage.empty, fio := Fio.fresh, str := Stride.fresh 0, can := ⟨0, [], []⟩, host := HostIf.fresh, rcd := Recorder.fresh, rc := RollCall.fresh, pc := Counters.fresh, up := Update.fresh, pr := Pair.fresh }

theorem noFreeNNvTmLnMdLgFioStrCanHostRcdRcPcUpPr_powered {a b : Mod} (h : a.noFreeNNvTmLnMdLgFioStrCanHostRcdRcPcUpPr = b.noFreeNNvTmLnMdLgFioStrCanHostRcdRcPcUpPr) : a.powered = b.powered := (congrArg Mod.powered h :)
theorem noFreeNNvTmLnMdLgFioStrCanHostRcdRcPcUpPr_clk {a b : Mod} (h : a.noFreeNNvTmLnMdLgFioStrCanHostRcdRcPcUpPr = b.noFreeNNvTmLnMdLgFioStrCanHostRcdRcPcUpPr) : a.clk = b.clk := (congrArg Mod.clk h :)
theorem noFreeNNvTmLnMdLgFioStrCanHostRcdRcPcUpPr_cfg {a b : Mod} (h : a.noFreeNNvTmLnMdLgFioStrCanHostRcdRcPcUpPr = b.noFreeNNvTmLnMdLgFioStrCanHostRcdRcPcUpPr) : a.cfg = b.cfg := (congrArg Mod.cfg h :)
theorem noFreeNNvTmLnMdLgFioStrCanHostRcdRcPcUpPr_pw {a b : Mod} (h : a.noFreeNNvTmLnMdLgFioStrCanHostRcdRcPcUpPr = b.noFreeNNvTmLnMdLgFioStrCanHostRcdRcPcUpPr) : a.pw = b.pw := (congrArg Mod.pw h :)
theorem noFreeNNvTmLnMdLgFioStrCanHostRcdRcPcUpPr_cur {a b : Mod} (h : a.noFreeNNvTmLnMdLgFioStrCanHostRcdRcPcUpPr = b.noFreeNNvTmLnMdLgFioStrCanHostRcdRcPcUpPr) : a.cur = b.cur := (congrArg Mod.cur h :)
theorem noFreeNNvTmLnMdLgFioStrCanHostRcdRcPcUpPr_nxt {a b : Mod} (h : a.noFreeNNvTmLnMdLgFioStrCanHostRcdRcPcUpPr = b.noFreeNNvTmLnMdLgFioStrCanHostRcdRcPcUpPr) : a.nxt = b.nxt := (congrArg Mod.nxt h :)
theorem noFreeNNvTmLnMdLgFioStrCanHostRcdRcPcUpPr_en {a b : Mod} (h : a.noFreeNNvTmLnMdLgFioStrCanHostRcdRcPcUpPr = b.noFreeNNvTmLnMdLgFioStrCanHostRcdRcPcUpPr) : a.en = b.en := (congrArg Mod.en h :)
theorem noFreeNNvTmLnMdLgFioStrCanHostRcdRcPcUpPr_bt {a b : Mod} (h : a.noFreeNNvTmLnMdLgFioStrCanHostRcdRcPcUpPr = b.noFreeNNvTmLnMdLgFioStrCanHostRcdRcPcUpPr) : a.bt = b.bt := (congrArg Mod.bt h :)
theorem noFreeNNvTmLnMdLgFioStrCanHostRcdRcPcUpPr_net {a b : Mod} (h : a.noFreeNNvTmLnMdLgFioStrCanHostRcdRcPcUpPr = b.noFreeNNvTmLnMdLgFioStrCanHostRcdRcPcUpPr) : a.net = b.net := (congrArg Mod.net h :)
theorem noFreeNNvTmLnMdLgFioStrCanHostRcdRcPcUpPr_sec {a b : Mod} (h : a.noFreeNNvTmLnMdLgFioStrCanHostRcdRcPcUpPr = b.noFreeNNvTmLnMdLgFioStrCanHostRcdRcPcUpPr) : a.sec = b.sec := (congrArg Mod.sec h :)
theorem noFreeNNvTmLnMdLgFioStrCanHostRcdRcPcUpPr_stateOut {a b : Mod} (h : a.noFreeNNvTmLnMdLgFioStrCanHostRcdRcPcUpPr = b.noFreeNNvTmLnMdLgFioStrCanHostRcdRcPcUpPr) : a.stateOut = b.stateOut := (congrArg Mod.stateOut h :)

@[simp] theorem startStep2_noFreeNNvTmLnMdLgFioStrCanHostRcdRcPcUpPr (env : StartEnv) : (startStep2 env m).noFreeNNvTmLnMdLgFioStrCanHostRcdRcPcUpPr = m.noFreeNNvTmLnMdLgFioStrCanHostRcdRcPcUpPr := by
  have k : ∀ x : Mod, (forEach allLanes (planLane env) x).noFreeNNvTmLnMdLgFioStrCanHostRcdRcPcUpPr = x.noFreeNNvTmLnMdLgFioStrCanHostRcdRcPcUpPr := fun x => (congrArg Mod.noFreeNNvTmLnMdLgFioStrCanHostRcdRcPcUpPr (planLanes_keeps x env) :)
  unfold startStep2; split
  · rfl
  · split
    · simp [Mod.noFreeNNvTmLnMdLgFioStrCanHostRcdRcPcUpPr]
    · split
      · simp [Mod.noFreeNNvTmLnMdLgFioStrCanHostRcdRcPcUpPr]
      · dsimp only
        have h : ∀ (a : List Nat) (b : Nat) (x : Mod), (leaveOut env a b (forEach allLanes (planLane env) x)).noFreeNNvTmLnMdLgFioStrCanHostRcdRcPcUpPr = x.noFreeNNvTmLnMdLgFioStrCanHostRcdRcPcUpPr := fun a b x =>
          (show ∀ y : Mod, (leaveOut env a b y).noFreeNNvTmLnMdLgFioStrCanHostRcdRcPcUpPr = y.noFreeNNvTmLnMdLgFioStrCanHostRcdRcPcUpPr from fun y => by simp [Mod.noFreeNNvTmLnMdLgFioStrCanHostRcdRcPcUpPr]) _ |>.trans (k x)
        split
        · rw [show ∀ x : Mod, (enterHalt 8 x).noFreeNNvTmLnMdLgFioStrCanHostRcdRcPcUpPr = x.noFreeNNvTmLnMdLgFioStrCanHostRcdRcPcUpPr from fun x => by simp [Mod.noFreeNNvTmLnMdLgFioStrCanHostRcdRcPcUpPr], h]; simp [Mod.noFreeNNvTmLnMdLgFioStrCanHostRcdRcPcUpPr]
        · rw [h]; simp [Mod.noFreeNNvTmLnMdLgFioStrCanHostRcdRcPcUpPr]
@[simp] theorem startStep2_powered (env : StartEnv) : (startStep2 env m).powered = m.powered := noFreeNNvTmLnMdLgFioStrCanHostRcdRcPcUpPr_powered (startStep2_noFreeNNvTmLnMdLgFioStrCanHostRcdRcPcUpPr m env)
@[simp] theorem startStep2_clk (env : StartEnv) : (startStep2 env m).clk = m.clk := noFreeNNvTmLnMdLgFioStrCanHostRcdRcPcUpPr_clk (startStep2_noFreeNNvTmLnMdLgFioStrCanHostRcdRcPcUpPr m env)
@[simp] theorem startStep2_cfg (env : StartEnv) : (startStep2 env m).cfg = m.cfg := noFreeNNvTmLnMdLgFioStrCanHostRcdRcPcUpPr_cfg (startStep2_noFreeNNvTmLnMdLgFioStrCanHostRcdRcPcUpPr m env)
@[simp] theorem startStep2_pw (env : StartEnv) : (startStep2 env m).pw = m.pw := noFreeNNvTmLnMdLgFioStrCanHostRcdRcPcUpPr_pw (startStep2_noFreeNNvTmLnMdLgFioStrCanHostRcdRcPcUpPr m env)
@[simp] theorem startStep2_cur (env : StartEnv) : (startStep2 env m).cur = m.cur := noFreeNNvTmLnMdLgFioStrCanHostRcdRcPcUpPr_cur (startStep2_noFreeNNvTmLnMdLgFioStrCanHostRcdRcPcUpPr m env)
@[simp] theorem startStep2_nxt (env : StartEnv) : (startStep2 env m).nxt = m.nxt := noFreeNNvTmLnMdLgFioStrCanHostRcdRcPcUpPr_nxt (startStep2_noFreeNNvTmLnMdLgFioStrCanHostRcdRcPcUpPr m env)
@[simp] theorem startStep2_en (env : StartEnv) : (startStep2 env m).en = m.en := noFreeNNvTmLnMdLgFioStrCanHostRcdRcPcUpPr_en (startStep2_noFreeNNvTmLnMdLgFioStrCanHostRcdRcPcUpPr m env)
@[simp] theorem startStep2_bt (env : StartEnv) : (startStep2 env m).bt = m.bt := noFreeNNvTmLnMdLgFioStrCanHostRcdRcPcUpPr_bt (startStep2_noFreeNNvTmLnMdLgFioStrCanHostRcdRcPcUpPr m env)
@[simp] theorem startStep2_net (env : StartEnv) : (startStep2 env m).net = m.net := noFreeNNvTmLnMdLgFioStrCanHostRcdRcPcUpPr_net (startStep2_noFreeNNvTmLnMdLgFioStrCanHostRcdRcPcUpPr m env)
@[simp] theorem startStep2_sec (env : StartEnv) : (startStep2 env m).sec = m.sec := noFreeNNvTmLnMdLgFioStrCanHostRcdRcPcUpPr_sec (startStep2_noFreeNNvTmLnMdLgFioStrCanHostRcdRcPcUpPr m env)
@[simp] theorem startStep2_stateOut (env : StartEnv) : (startStep2 env m).stateOut = m.stateOut := noFreeNNvTmLnMdLgFioStrCanHostRcdRcPcUpPr_stateOut (startStep2_noFreeNNvTmLnMdLgFioStrCanHostRcdRcPcUpPr m env)

/-- All but cfg. -/
def Mod.noCfg (m : Mod) : Mod :=
  { m with cfg := Settings.initial }

theorem noCfg_powered {a b : Mod} (h : a.noCfg = b.noCfg) : a.powered = b.powered := (congrArg Mod.powered h :)
theorem noCfg_clk {a b : Mod} (h : a.noCfg = b.noCfg) : a.clk = b.clk := (congrArg Mod.clk h :)
theorem noCfg_freeN {a b : Mod} (h : a.noCfg = b.noCfg) : a.freeN = b.freeN := (congrArg Mod.freeN h :)
theorem noCfg_nv {a b : Mod} (h : a.noCfg = b.noCfg) : a.nv = b.nv := (congrArg Mod.nv h :)
theorem noCfg_tm {a b : Mod} (h : a.noCfg = b.noCfg) : a.tm = b.tm := (congrArg Mod.tm h :)
theorem noCfg_ln {a b : Mod} (h : a.noCfg = b.noCfg) : a.ln = b.ln := (congrArg Mod.ln h :)
theorem noCfg_md {a b : Mod} (h : a.noCfg = b.noCfg) : a.md = b.md := (congrArg Mod.md h :)
theorem noCfg_pw {a b : Mod} (h : a.noCfg = b.noCfg) : a.pw = b.pw := (congrArg Mod.pw h :)
theorem noCfg_lg {a b : Mod} (h : a.noCfg = b.noCfg) : a.lg = b.lg := (congrArg Mod.lg h :)
theorem noCfg_cur {a b : Mod} (h : a.noCfg = b.noCfg) : a.cur = b.cur := (congrArg Mod.cur h :)
theorem noCfg_nxt {a b : Mod} (h : a.noCfg = b.noCfg) : a.nxt = b.nxt := (congrArg Mod.nxt h :)
theorem noCfg_en {a b : Mod} (h : a.noCfg = b.noCfg) : a.en = b.en := (congrArg Mod.en h :)
theorem noCfg_fio {a b : Mod} (h : a.noCfg = b.noCfg) : a.fio = b.fio := (congrArg Mod.fio h :)
theorem noCfg_bt {a b : Mod} (h : a.noCfg = b.noCfg) : a.bt = b.bt := (congrArg Mod.bt h :)
theorem noCfg_str {a b : Mod} (h : a.noCfg = b.noCfg) : a.str = b.str := (congrArg Mod.str h :)
theorem noCfg_can {a b : Mod} (h : a.noCfg = b.noCfg) : a.can = b.can := (congrArg Mod.can h :)
theorem noCfg_net {a b : Mod} (h : a.noCfg = b.noCfg) : a.net = b.net := (congrArg Mod.net h :)
theorem noCfg_host {a b : Mod} (h : a.noCfg = b.noCfg) : a.host = b.host := (congrArg Mod.host h :)
theorem noCfg_rcd {a b : Mod} (h : a.noCfg = b.noCfg) : a.rcd = b.rcd := (congrArg Mod.rcd h :)
theorem noCfg_rc {a b : Mod} (h : a.noCfg = b.noCfg) : a.rc = b.rc := (congrArg Mod.rc h :)
theorem noCfg_pc {a b : Mod} (h : a.noCfg = b.noCfg) : a.pc = b.pc := (congrArg Mod.pc h :)
theorem noCfg_up {a b : Mod} (h : a.noCfg = b.noCfg) : a.up = b.up := (congrArg Mod.up h :)
theorem noCfg_sec {a b : Mod} (h : a.noCfg = b.noCfg) : a.sec = b.sec := (congrArg Mod.sec h :)
theorem noCfg_pr {a b : Mod} (h : a.noCfg = b.noCfg) : a.pr = b.pr := (congrArg Mod.pr h :)
theorem noCfg_stateOut {a b : Mod} (h : a.noCfg = b.noCfg) : a.stateOut = b.stateOut := (congrArg Mod.stateOut h :)

@[simp] theorem loadSettings_noCfg : (loadSettings m).noCfg = m.noCfg := rfl
@[simp] theorem loadSettings_powered : (loadSettings m).powered = m.powered := noCfg_powered (loadSettings_noCfg m)
@[simp] theorem loadSettings_clk : (loadSettings m).clk = m.clk := noCfg_clk (loadSettings_noCfg m)
@[simp] theorem loadSettings_freeN : (loadSettings m).freeN = m.freeN := noCfg_freeN (loadSettings_noCfg m)
@[simp] theorem loadSettings_nv : (loadSettings m).nv = m.nv := noCfg_nv (loadSettings_noCfg m)
@[simp] theorem loadSettings_tm : (loadSettings m).tm = m.tm := noCfg_tm (loadSettings_noCfg m)
@[simp] theorem loadSettings_ln : (loadSettings m).ln = m.ln := noCfg_ln (loadSettings_noCfg m)
@[simp] theorem loadSettings_md : (loadSettings m).md = m.md := noCfg_md (loadSettings_noCfg m)
@[simp] theorem loadSettings_pw : (loadSettings m).pw = m.pw := noCfg_pw (loadSettings_noCfg m)
@[simp] theorem loadSettings_lg : (loadSettings m).lg = m.lg := noCfg_lg (loadSettings_noCfg m)
@[simp] theorem loadSettings_cur : (loadSettings m).cur = m.cur := noCfg_cur (loadSettings_noCfg m)
@[simp] theorem loadSettings_nxt : (loadSettings m).nxt = m.nxt := noCfg_nxt (loadSettings_noCfg m)
@[simp] theorem loadSettings_en : (loadSettings m).en = m.en := noCfg_en (loadSettings_noCfg m)
@[simp] theorem loadSettings_fio : (loadSettings m).fio = m.fio := noCfg_fio (loadSettings_noCfg m)
@[simp] theorem loadSettings_bt : (loadSettings m).bt = m.bt := noCfg_bt (loadSettings_noCfg m)
@[simp] theorem loadSettings_str : (loadSettings m).str = m.str := noCfg_str (loadSettings_noCfg m)
@[simp] theorem loadSettings_can : (loadSettings m).can = m.can := noCfg_can (loadSettings_noCfg m)
@[simp] theorem loadSettings_net : (loadSettings m).net = m.net := noCfg_net (loadSettings_noCfg m)
@[simp] theorem loadSettings_host : (loadSettings m).host = m.host := noCfg_host (loadSettings_noCfg m)
@[simp] theorem loadSettings_rcd : (loadSettings m).rcd = m.rcd := noCfg_rcd (loadSettings_noCfg m)
@[simp] theorem loadSettings_rc : (loadSettings m).rc = m.rc := noCfg_rc (loadSettings_noCfg m)
@[simp] theorem loadSettings_pc : (loadSettings m).pc = m.pc := noCfg_pc (loadSettings_noCfg m)
@[simp] theorem loadSettings_up : (loadSettings m).up = m.up := noCfg_up (loadSettings_noCfg m)
@[simp] theorem loadSettings_sec : (loadSettings m).sec = m.sec := noCfg_sec (loadSettings_noCfg m)
@[simp] theorem loadSettings_pr : (loadSettings m).pr = m.pr := noCfg_pr (loadSettings_noCfg m)
@[simp] theorem loadSettings_stateOut : (loadSettings m).stateOut = m.stateOut := noCfg_stateOut (loadSettings_noCfg m)

/-- All but str, can. -/
def Mod.noStrCan (m : Mod) : Mod :=
  { m with str := Stride.fresh 0, can := ⟨0, [], []⟩ }

theorem noStrCan_powered {a b : Mod} (h : a.noStrCan = b.noStrCan) : a.powered = b.powered := (congrArg Mod.powered h :)
theorem noStrCan_clk {a b : Mod} (h : a.noStrCan = b.noStrCan) : a.clk = b.clk := (congrArg Mod.clk h :)
theorem noStrCan_freeN {a b : Mod} (h : a.noStrCan = b.noStrCan) : a.freeN = b.freeN := (congrArg Mod.freeN h :)
theorem noStrCan_nv {a b : Mod} (h : a.noStrCan = b.noStrCan) : a.nv = b.nv := (congrArg Mod.nv h :)
theorem noStrCan_cfg {a b : Mod} (h : a.noStrCan = b.noStrCan) : a.cfg = b.cfg := (congrArg Mod.cfg h :)
theorem noStrCan_tm {a b : Mod} (h : a.noStrCan = b.noStrCan) : a.tm = b.tm := (congrArg Mod.tm h :)
theorem noStrCan_ln {a b : Mod} (h : a.noStrCan = b.noStrCan) : a.ln = b.ln := (congrArg Mod.ln h :)
theorem noStrCan_md {a b : Mod} (h : a.noStrCan = b.noStrCan) : a.md = b.md := (congrArg Mod.md h :)
theorem noStrCan_pw {a b : Mod} (h : a.noStrCan = b.noStrCan) : a.pw = b.pw := (congrArg Mod.pw h :)
theorem noStrCan_lg {a b : Mod} (h : a.noStrCan = b.noStrCan) : a.lg = b.lg := (congrArg Mod.lg h :)
theorem noStrCan_cur {a b : Mod} (h : a.noStrCan = b.noStrCan) : a.cur = b.cur := (congrArg Mod.cur h :)
theorem noStrCan_nxt {a b : Mod} (h : a.noStrCan = b.noStrCan) : a.nxt = b.nxt := (congrArg Mod.nxt h :)
theorem noStrCan_en {a b : Mod} (h : a.noStrCan = b.noStrCan) : a.en = b.en := (congrArg Mod.en h :)
theorem noStrCan_fio {a b : Mod} (h : a.noStrCan = b.noStrCan) : a.fio = b.fio := (congrArg Mod.fio h :)
theorem noStrCan_bt {a b : Mod} (h : a.noStrCan = b.noStrCan) : a.bt = b.bt := (congrArg Mod.bt h :)
theorem noStrCan_net {a b : Mod} (h : a.noStrCan = b.noStrCan) : a.net = b.net := (congrArg Mod.net h :)
theorem noStrCan_host {a b : Mod} (h : a.noStrCan = b.noStrCan) : a.host = b.host := (congrArg Mod.host h :)
theorem noStrCan_rcd {a b : Mod} (h : a.noStrCan = b.noStrCan) : a.rcd = b.rcd := (congrArg Mod.rcd h :)
theorem noStrCan_rc {a b : Mod} (h : a.noStrCan = b.noStrCan) : a.rc = b.rc := (congrArg Mod.rc h :)
theorem noStrCan_pc {a b : Mod} (h : a.noStrCan = b.noStrCan) : a.pc = b.pc := (congrArg Mod.pc h :)
theorem noStrCan_up {a b : Mod} (h : a.noStrCan = b.noStrCan) : a.up = b.up := (congrArg Mod.up h :)
theorem noStrCan_sec {a b : Mod} (h : a.noStrCan = b.noStrCan) : a.sec = b.sec := (congrArg Mod.sec h :)
theorem noStrCan_pr {a b : Mod} (h : a.noStrCan = b.noStrCan) : a.pr = b.pr := (congrArg Mod.pr h :)
theorem noStrCan_stateOut {a b : Mod} (h : a.noStrCan = b.noStrCan) : a.stateOut = b.stateOut := (congrArg Mod.stateOut h :)

@[simp] theorem loadFe_noStrCan : (loadFe m).noStrCan = m.noStrCan := rfl
@[simp] theorem loadFe_powered : (loadFe m).powered = m.powered := noStrCan_powered (loadFe_noStrCan m)
@[simp] theorem loadFe_clk : (loadFe m).clk = m.clk := noStrCan_clk (loadFe_noStrCan m)
@[simp] theorem loadFe_freeN : (loadFe m).freeN = m.freeN := noStrCan_freeN (loadFe_noStrCan m)
@[simp] theorem loadFe_nv : (loadFe m).nv = m.nv := noStrCan_nv (loadFe_noStrCan m)
@[simp] theorem loadFe_cfg : (loadFe m).cfg = m.cfg := noStrCan_cfg (loadFe_noStrCan m)
@[simp] theorem loadFe_tm : (loadFe m).tm = m.tm := noStrCan_tm (loadFe_noStrCan m)
@[simp] theorem loadFe_ln : (loadFe m).ln = m.ln := noStrCan_ln (loadFe_noStrCan m)
@[simp] theorem loadFe_md : (loadFe m).md = m.md := noStrCan_md (loadFe_noStrCan m)
@[simp] theorem loadFe_pw : (loadFe m).pw = m.pw := noStrCan_pw (loadFe_noStrCan m)
@[simp] theorem loadFe_lg : (loadFe m).lg = m.lg := noStrCan_lg (loadFe_noStrCan m)
@[simp] theorem loadFe_cur : (loadFe m).cur = m.cur := noStrCan_cur (loadFe_noStrCan m)
@[simp] theorem loadFe_nxt : (loadFe m).nxt = m.nxt := noStrCan_nxt (loadFe_noStrCan m)
@[simp] theorem loadFe_en : (loadFe m).en = m.en := noStrCan_en (loadFe_noStrCan m)
@[simp] theorem loadFe_fio : (loadFe m).fio = m.fio := noStrCan_fio (loadFe_noStrCan m)
@[simp] theorem loadFe_bt : (loadFe m).bt = m.bt := noStrCan_bt (loadFe_noStrCan m)
@[simp] theorem loadFe_net : (loadFe m).net = m.net := noStrCan_net (loadFe_noStrCan m)
@[simp] theorem loadFe_host : (loadFe m).host = m.host := noStrCan_host (loadFe_noStrCan m)
@[simp] theorem loadFe_rcd : (loadFe m).rcd = m.rcd := noStrCan_rcd (loadFe_noStrCan m)
@[simp] theorem loadFe_rc : (loadFe m).rc = m.rc := noStrCan_rc (loadFe_noStrCan m)
@[simp] theorem loadFe_pc : (loadFe m).pc = m.pc := noStrCan_pc (loadFe_noStrCan m)
@[simp] theorem loadFe_up : (loadFe m).up = m.up := noStrCan_up (loadFe_noStrCan m)
@[simp] theorem loadFe_sec : (loadFe m).sec = m.sec := noStrCan_sec (loadFe_noStrCan m)
@[simp] theorem loadFe_pr : (loadFe m).pr = m.pr := noStrCan_pr (loadFe_noStrCan m)
@[simp] theorem loadFe_stateOut : (loadFe m).stateOut = m.stateOut := noStrCan_stateOut (loadFe_noStrCan m)

/-- All but lg, net. -/
def Mod.noLgNet (m : Mod) : Mod :=
  { m with lg := Logic.fresh AppImage.empty, net := NetImage.empty }

theorem noLgNet_powered {a b : Mod} (h : a.noLgNet = b.noLgNet) : a.powered = b.powered := (congrArg Mod.powered h :)
theorem noLgNet_clk {a b : Mod} (h : a.noLgNet = b.noLgNet) : a.clk = b.clk := (congrArg Mod.clk h :)
theorem noLgNet_freeN {a b : Mod} (h : a.noLgNet = b.noLgNet) : a.freeN = b.freeN := (congrArg Mod.freeN h :)
theorem noLgNet_nv {a b : Mod} (h : a.noLgNet = b.noLgNet) : a.nv = b.nv := (congrArg Mod.nv h :)
theorem noLgNet_cfg {a b : Mod} (h : a.noLgNet = b.noLgNet) : a.cfg = b.cfg := (congrArg Mod.cfg h :)
theorem noLgNet_tm {a b : Mod} (h : a.noLgNet = b.noLgNet) : a.tm = b.tm := (congrArg Mod.tm h :)
theorem noLgNet_ln {a b : Mod} (h : a.noLgNet = b.noLgNet) : a.ln = b.ln := (congrArg Mod.ln h :)
theorem noLgNet_md {a b : Mod} (h : a.noLgNet = b.noLgNet) : a.md = b.md := (congrArg Mod.md h :)
theorem noLgNet_pw {a b : Mod} (h : a.noLgNet = b.noLgNet) : a.pw = b.pw := (congrArg Mod.pw h :)
theorem noLgNet_cur {a b : Mod} (h : a.noLgNet = b.noLgNet) : a.cur = b.cur := (congrArg Mod.cur h :)
theorem noLgNet_nxt {a b : Mod} (h : a.noLgNet = b.noLgNet) : a.nxt = b.nxt := (congrArg Mod.nxt h :)
theorem noLgNet_en {a b : Mod} (h : a.noLgNet = b.noLgNet) : a.en = b.en := (congrArg Mod.en h :)
theorem noLgNet_fio {a b : Mod} (h : a.noLgNet = b.noLgNet) : a.fio = b.fio := (congrArg Mod.fio h :)
theorem noLgNet_bt {a b : Mod} (h : a.noLgNet = b.noLgNet) : a.bt = b.bt := (congrArg Mod.bt h :)
theorem noLgNet_str {a b : Mod} (h : a.noLgNet = b.noLgNet) : a.str = b.str := (congrArg Mod.str h :)
theorem noLgNet_can {a b : Mod} (h : a.noLgNet = b.noLgNet) : a.can = b.can := (congrArg Mod.can h :)
theorem noLgNet_host {a b : Mod} (h : a.noLgNet = b.noLgNet) : a.host = b.host := (congrArg Mod.host h :)
theorem noLgNet_rcd {a b : Mod} (h : a.noLgNet = b.noLgNet) : a.rcd = b.rcd := (congrArg Mod.rcd h :)
theorem noLgNet_rc {a b : Mod} (h : a.noLgNet = b.noLgNet) : a.rc = b.rc := (congrArg Mod.rc h :)
theorem noLgNet_pc {a b : Mod} (h : a.noLgNet = b.noLgNet) : a.pc = b.pc := (congrArg Mod.pc h :)
theorem noLgNet_up {a b : Mod} (h : a.noLgNet = b.noLgNet) : a.up = b.up := (congrArg Mod.up h :)
theorem noLgNet_sec {a b : Mod} (h : a.noLgNet = b.noLgNet) : a.sec = b.sec := (congrArg Mod.sec h :)
theorem noLgNet_pr {a b : Mod} (h : a.noLgNet = b.noLgNet) : a.pr = b.pr := (congrArg Mod.pr h :)
theorem noLgNet_stateOut {a b : Mod} (h : a.noLgNet = b.noLgNet) : a.stateOut = b.stateOut := (congrArg Mod.stateOut h :)

@[simp] theorem loadImages_noLgNet : (loadImages m).noLgNet = m.noLgNet := by
  unfold loadImages; simp [Mod.noLgNet]
@[simp] theorem loadImages_powered : (loadImages m).powered = m.powered := noLgNet_powered (loadImages_noLgNet m)
@[simp] theorem loadImages_clk : (loadImages m).clk = m.clk := noLgNet_clk (loadImages_noLgNet m)
@[simp] theorem loadImages_freeN : (loadImages m).freeN = m.freeN := noLgNet_freeN (loadImages_noLgNet m)
@[simp] theorem loadImages_nv : (loadImages m).nv = m.nv := noLgNet_nv (loadImages_noLgNet m)
@[simp] theorem loadImages_cfg : (loadImages m).cfg = m.cfg := noLgNet_cfg (loadImages_noLgNet m)
@[simp] theorem loadImages_tm : (loadImages m).tm = m.tm := noLgNet_tm (loadImages_noLgNet m)
@[simp] theorem loadImages_ln : (loadImages m).ln = m.ln := noLgNet_ln (loadImages_noLgNet m)
@[simp] theorem loadImages_md : (loadImages m).md = m.md := noLgNet_md (loadImages_noLgNet m)
@[simp] theorem loadImages_pw : (loadImages m).pw = m.pw := noLgNet_pw (loadImages_noLgNet m)
@[simp] theorem loadImages_cur : (loadImages m).cur = m.cur := noLgNet_cur (loadImages_noLgNet m)
@[simp] theorem loadImages_nxt : (loadImages m).nxt = m.nxt := noLgNet_nxt (loadImages_noLgNet m)
@[simp] theorem loadImages_en : (loadImages m).en = m.en := noLgNet_en (loadImages_noLgNet m)
@[simp] theorem loadImages_fio : (loadImages m).fio = m.fio := noLgNet_fio (loadImages_noLgNet m)
@[simp] theorem loadImages_bt : (loadImages m).bt = m.bt := noLgNet_bt (loadImages_noLgNet m)
@[simp] theorem loadImages_str : (loadImages m).str = m.str := noLgNet_str (loadImages_noLgNet m)
@[simp] theorem loadImages_can : (loadImages m).can = m.can := noLgNet_can (loadImages_noLgNet m)
@[simp] theorem loadImages_host : (loadImages m).host = m.host := noLgNet_host (loadImages_noLgNet m)
@[simp] theorem loadImages_rcd : (loadImages m).rcd = m.rcd := noLgNet_rcd (loadImages_noLgNet m)
@[simp] theorem loadImages_rc : (loadImages m).rc = m.rc := noLgNet_rc (loadImages_noLgNet m)
@[simp] theorem loadImages_pc : (loadImages m).pc = m.pc := noLgNet_pc (loadImages_noLgNet m)
@[simp] theorem loadImages_up : (loadImages m).up = m.up := noLgNet_up (loadImages_noLgNet m)
@[simp] theorem loadImages_sec : (loadImages m).sec = m.sec := noLgNet_sec (loadImages_noLgNet m)
@[simp] theorem loadImages_pr : (loadImages m).pr = m.pr := noLgNet_pr (loadImages_noLgNet m)
@[simp] theorem loadImages_stateOut : (loadImages m).stateOut = m.stateOut := noLgNet_stateOut (loadImages_noLgNet m)

@[simp] theorem migrationFails_noFreeNNvLnMdLgFioStrCanHostRcdRcPcUpPr (bits : Nat) : (migrationFails bits m).noFreeNNvLnMdLgFioStrCanHostRcdRcPcUpPr = m.noFreeNNvLnMdLgFioStrCanHostRcdRcPcUpPr := by
  unfold migrationFails; simp [Mod.noFreeNNvLnMdLgFioStrCanHostRcdRcPcUpPr]
@[simp] theorem migrationFails_powered (bits : Nat) : (migrationFails bits m).powered = m.powered := noFreeNNvLnMdLgFioStrCanHostRcdRcPcUpPr_powered (migrationFails_noFreeNNvLnMdLgFioStrCanHostRcdRcPcUpPr m bits)
@[simp] theorem migrationFails_clk (bits : Nat) : (migrationFails bits m).clk = m.clk := noFreeNNvLnMdLgFioStrCanHostRcdRcPcUpPr_clk (migrationFails_noFreeNNvLnMdLgFioStrCanHostRcdRcPcUpPr m bits)
@[simp] theorem migrationFails_cfg (bits : Nat) : (migrationFails bits m).cfg = m.cfg := noFreeNNvLnMdLgFioStrCanHostRcdRcPcUpPr_cfg (migrationFails_noFreeNNvLnMdLgFioStrCanHostRcdRcPcUpPr m bits)
@[simp] theorem migrationFails_tm (bits : Nat) : (migrationFails bits m).tm = m.tm := noFreeNNvLnMdLgFioStrCanHostRcdRcPcUpPr_tm (migrationFails_noFreeNNvLnMdLgFioStrCanHostRcdRcPcUpPr m bits)
@[simp] theorem migrationFails_pw (bits : Nat) : (migrationFails bits m).pw = m.pw := noFreeNNvLnMdLgFioStrCanHostRcdRcPcUpPr_pw (migrationFails_noFreeNNvLnMdLgFioStrCanHostRcdRcPcUpPr m bits)
@[simp] theorem migrationFails_cur (bits : Nat) : (migrationFails bits m).cur = m.cur := noFreeNNvLnMdLgFioStrCanHostRcdRcPcUpPr_cur (migrationFails_noFreeNNvLnMdLgFioStrCanHostRcdRcPcUpPr m bits)
@[simp] theorem migrationFails_nxt (bits : Nat) : (migrationFails bits m).nxt = m.nxt := noFreeNNvLnMdLgFioStrCanHostRcdRcPcUpPr_nxt (migrationFails_noFreeNNvLnMdLgFioStrCanHostRcdRcPcUpPr m bits)
@[simp] theorem migrationFails_en (bits : Nat) : (migrationFails bits m).en = m.en := noFreeNNvLnMdLgFioStrCanHostRcdRcPcUpPr_en (migrationFails_noFreeNNvLnMdLgFioStrCanHostRcdRcPcUpPr m bits)
@[simp] theorem migrationFails_bt (bits : Nat) : (migrationFails bits m).bt = m.bt := noFreeNNvLnMdLgFioStrCanHostRcdRcPcUpPr_bt (migrationFails_noFreeNNvLnMdLgFioStrCanHostRcdRcPcUpPr m bits)
@[simp] theorem migrationFails_net (bits : Nat) : (migrationFails bits m).net = m.net := noFreeNNvLnMdLgFioStrCanHostRcdRcPcUpPr_net (migrationFails_noFreeNNvLnMdLgFioStrCanHostRcdRcPcUpPr m bits)
@[simp] theorem migrationFails_sec (bits : Nat) : (migrationFails bits m).sec = m.sec := noFreeNNvLnMdLgFioStrCanHostRcdRcPcUpPr_sec (migrationFails_noFreeNNvLnMdLgFioStrCanHostRcdRcPcUpPr m bits)
@[simp] theorem migrationFails_stateOut (bits : Nat) : (migrationFails bits m).stateOut = m.stateOut := noFreeNNvLnMdLgFioStrCanHostRcdRcPcUpPr_stateOut (migrationFails_noFreeNNvLnMdLgFioStrCanHostRcdRcPcUpPr m bits)

/-- All but nv, ln. -/
def Mod.noNvLn (m : Mod) : Mod :=
  { m with nv := Nv.fresh, ln := PerLane.all (Lane.fresh (LaneNv.fresh 0 0)) }

theorem noNvLn_powered {a b : Mod} (h : a.noNvLn = b.noNvLn) : a.powered = b.powered := (congrArg Mod.powered h :)
theorem noNvLn_clk {a b : Mod} (h : a.noNvLn = b.noNvLn) : a.clk = b.clk := (congrArg Mod.clk h :)
theorem noNvLn_freeN {a b : Mod} (h : a.noNvLn = b.noNvLn) : a.freeN = b.freeN := (congrArg Mod.freeN h :)
theorem noNvLn_cfg {a b : Mod} (h : a.noNvLn = b.noNvLn) : a.cfg = b.cfg := (congrArg Mod.cfg h :)
theorem noNvLn_tm {a b : Mod} (h : a.noNvLn = b.noNvLn) : a.tm = b.tm := (congrArg Mod.tm h :)
theorem noNvLn_md {a b : Mod} (h : a.noNvLn = b.noNvLn) : a.md = b.md := (congrArg Mod.md h :)
theorem noNvLn_pw {a b : Mod} (h : a.noNvLn = b.noNvLn) : a.pw = b.pw := (congrArg Mod.pw h :)
theorem noNvLn_lg {a b : Mod} (h : a.noNvLn = b.noNvLn) : a.lg = b.lg := (congrArg Mod.lg h :)
theorem noNvLn_cur {a b : Mod} (h : a.noNvLn = b.noNvLn) : a.cur = b.cur := (congrArg Mod.cur h :)
theorem noNvLn_nxt {a b : Mod} (h : a.noNvLn = b.noNvLn) : a.nxt = b.nxt := (congrArg Mod.nxt h :)
theorem noNvLn_en {a b : Mod} (h : a.noNvLn = b.noNvLn) : a.en = b.en := (congrArg Mod.en h :)
theorem noNvLn_fio {a b : Mod} (h : a.noNvLn = b.noNvLn) : a.fio = b.fio := (congrArg Mod.fio h :)
theorem noNvLn_bt {a b : Mod} (h : a.noNvLn = b.noNvLn) : a.bt = b.bt := (congrArg Mod.bt h :)
theorem noNvLn_str {a b : Mod} (h : a.noNvLn = b.noNvLn) : a.str = b.str := (congrArg Mod.str h :)
theorem noNvLn_can {a b : Mod} (h : a.noNvLn = b.noNvLn) : a.can = b.can := (congrArg Mod.can h :)
theorem noNvLn_net {a b : Mod} (h : a.noNvLn = b.noNvLn) : a.net = b.net := (congrArg Mod.net h :)
theorem noNvLn_host {a b : Mod} (h : a.noNvLn = b.noNvLn) : a.host = b.host := (congrArg Mod.host h :)
theorem noNvLn_rcd {a b : Mod} (h : a.noNvLn = b.noNvLn) : a.rcd = b.rcd := (congrArg Mod.rcd h :)
theorem noNvLn_rc {a b : Mod} (h : a.noNvLn = b.noNvLn) : a.rc = b.rc := (congrArg Mod.rc h :)
theorem noNvLn_pc {a b : Mod} (h : a.noNvLn = b.noNvLn) : a.pc = b.pc := (congrArg Mod.pc h :)
theorem noNvLn_up {a b : Mod} (h : a.noNvLn = b.noNvLn) : a.up = b.up := (congrArg Mod.up h :)
theorem noNvLn_sec {a b : Mod} (h : a.noNvLn = b.noNvLn) : a.sec = b.sec := (congrArg Mod.sec h :)
theorem noNvLn_pr {a b : Mod} (h : a.noNvLn = b.noNvLn) : a.pr = b.pr := (congrArg Mod.pr h :)
theorem noNvLn_stateOut {a b : Mod} (h : a.noNvLn = b.noNvLn) : a.stateOut = b.stateOut := (congrArg Mod.stateOut h :)

theorem migrate_keeps (env : StartEnv) : (migrate env m).2.2.noNvLn = m.noNvLn := by
  have h : ∀ (xs : List LaneId) (a : Nat × Mod),
      (xs.foldl (fun (acc : Nat × Mod) l => let r := migrateLane env l acc.2; (if r.1 then acc.1 else acc.1 + 2 ^ laneNo l, r.2)) a).2.noNvLn
        = a.2.noNvLn := by
    intro xs
    induction xs with
    | nil => intro a; rfl
    | cons l r ih =>
      intro a
      rw [List.foldl_cons, ih]
      dsimp only [migrateLane]; split <;> rfl
  unfold migrate
  dsimp only
  (repeat' split) <;> exact h _ _


/-- All but cfg, tm, ln, md. -/
def Mod.noCfgTmLnMd (m : Mod) : Mod :=
  { m with cfg := Settings.initial, tm := Pacer.fresh, ln := PerLane.all (Lane.fresh (LaneNv.fresh 0 0)), md := Modes.fresh }

theorem noCfgTmLnMd_powered {a b : Mod} (h : a.noCfgTmLnMd = b.noCfgTmLnMd) : a.powered = b.powered := (congrArg Mod.powered h :)
theorem noCfgTmLnMd_clk {a b : Mod} (h : a.noCfgTmLnMd = b.noCfgTmLnMd) : a.clk = b.clk := (congrArg Mod.clk h :)
theorem noCfgTmLnMd_freeN {a b : Mod} (h : a.noCfgTmLnMd = b.noCfgTmLnMd) : a.freeN = b.freeN := (congrArg Mod.freeN h :)
theorem noCfgTmLnMd_nv {a b : Mod} (h : a.noCfgTmLnMd = b.noCfgTmLnMd) : a.nv = b.nv := (congrArg Mod.nv h :)
theorem noCfgTmLnMd_pw {a b : Mod} (h : a.noCfgTmLnMd = b.noCfgTmLnMd) : a.pw = b.pw := (congrArg Mod.pw h :)
theorem noCfgTmLnMd_lg {a b : Mod} (h : a.noCfgTmLnMd = b.noCfgTmLnMd) : a.lg = b.lg := (congrArg Mod.lg h :)
theorem noCfgTmLnMd_cur {a b : Mod} (h : a.noCfgTmLnMd = b.noCfgTmLnMd) : a.cur = b.cur := (congrArg Mod.cur h :)
theorem noCfgTmLnMd_nxt {a b : Mod} (h : a.noCfgTmLnMd = b.noCfgTmLnMd) : a.nxt = b.nxt := (congrArg Mod.nxt h :)
theorem noCfgTmLnMd_en {a b : Mod} (h : a.noCfgTmLnMd = b.noCfgTmLnMd) : a.en = b.en := (congrArg Mod.en h :)
theorem noCfgTmLnMd_fio {a b : Mod} (h : a.noCfgTmLnMd = b.noCfgTmLnMd) : a.fio = b.fio := (congrArg Mod.fio h :)
theorem noCfgTmLnMd_bt {a b : Mod} (h : a.noCfgTmLnMd = b.noCfgTmLnMd) : a.bt = b.bt := (congrArg Mod.bt h :)
theorem noCfgTmLnMd_str {a b : Mod} (h : a.noCfgTmLnMd = b.noCfgTmLnMd) : a.str = b.str := (congrArg Mod.str h :)
theorem noCfgTmLnMd_can {a b : Mod} (h : a.noCfgTmLnMd = b.noCfgTmLnMd) : a.can = b.can := (congrArg Mod.can h :)
theorem noCfgTmLnMd_net {a b : Mod} (h : a.noCfgTmLnMd = b.noCfgTmLnMd) : a.net = b.net := (congrArg Mod.net h :)
theorem noCfgTmLnMd_host {a b : Mod} (h : a.noCfgTmLnMd = b.noCfgTmLnMd) : a.host = b.host := (congrArg Mod.host h :)
theorem noCfgTmLnMd_rcd {a b : Mod} (h : a.noCfgTmLnMd = b.noCfgTmLnMd) : a.rcd = b.rcd := (congrArg Mod.rcd h :)
theorem noCfgTmLnMd_rc {a b : Mod} (h : a.noCfgTmLnMd = b.noCfgTmLnMd) : a.rc = b.rc := (congrArg Mod.rc h :)
theorem noCfgTmLnMd_pc {a b : Mod} (h : a.noCfgTmLnMd = b.noCfgTmLnMd) : a.pc = b.pc := (congrArg Mod.pc h :)
theorem noCfgTmLnMd_up {a b : Mod} (h : a.noCfgTmLnMd = b.noCfgTmLnMd) : a.up = b.up := (congrArg Mod.up h :)
theorem noCfgTmLnMd_sec {a b : Mod} (h : a.noCfgTmLnMd = b.noCfgTmLnMd) : a.sec = b.sec := (congrArg Mod.sec h :)
theorem noCfgTmLnMd_pr {a b : Mod} (h : a.noCfgTmLnMd = b.noCfgTmLnMd) : a.pr = b.pr := (congrArg Mod.pr h :)
theorem noCfgTmLnMd_stateOut {a b : Mod} (h : a.noCfgTmLnMd = b.noCfgTmLnMd) : a.stateOut = b.stateOut := (congrArg Mod.stateOut h :)

@[simp] theorem startFloor_noCfgTmLnMd (env : StartEnv) : (startFloor env m).noCfgTmLnMd = m.noCfgTmLnMd := rfl
@[simp] theorem startFloor_powered (env : StartEnv) : (startFloor env m).powered = m.powered := noCfgTmLnMd_powered (startFloor_noCfgTmLnMd m env)
@[simp] theorem startFloor_clk (env : StartEnv) : (startFloor env m).clk = m.clk := noCfgTmLnMd_clk (startFloor_noCfgTmLnMd m env)
@[simp] theorem startFloor_freeN (env : StartEnv) : (startFloor env m).freeN = m.freeN := noCfgTmLnMd_freeN (startFloor_noCfgTmLnMd m env)
@[simp] theorem startFloor_nv (env : StartEnv) : (startFloor env m).nv = m.nv := noCfgTmLnMd_nv (startFloor_noCfgTmLnMd m env)
@[simp] theorem startFloor_pw (env : StartEnv) : (startFloor env m).pw = m.pw := noCfgTmLnMd_pw (startFloor_noCfgTmLnMd m env)
@[simp] theorem startFloor_lg (env : StartEnv) : (startFloor env m).lg = m.lg := noCfgTmLnMd_lg (startFloor_noCfgTmLnMd m env)
@[simp] theorem startFloor_cur (env : StartEnv) : (startFloor env m).cur = m.cur := noCfgTmLnMd_cur (startFloor_noCfgTmLnMd m env)
@[simp] theorem startFloor_nxt (env : StartEnv) : (startFloor env m).nxt = m.nxt := noCfgTmLnMd_nxt (startFloor_noCfgTmLnMd m env)
@[simp] theorem startFloor_en (env : StartEnv) : (startFloor env m).en = m.en := noCfgTmLnMd_en (startFloor_noCfgTmLnMd m env)
@[simp] theorem startFloor_fio (env : StartEnv) : (startFloor env m).fio = m.fio := noCfgTmLnMd_fio (startFloor_noCfgTmLnMd m env)
@[simp] theorem startFloor_bt (env : StartEnv) : (startFloor env m).bt = m.bt := noCfgTmLnMd_bt (startFloor_noCfgTmLnMd m env)
@[simp] theorem startFloor_str (env : StartEnv) : (startFloor env m).str = m.str := noCfgTmLnMd_str (startFloor_noCfgTmLnMd m env)
@[simp] theorem startFloor_can (env : StartEnv) : (startFloor env m).can = m.can := noCfgTmLnMd_can (startFloor_noCfgTmLnMd m env)
@[simp] theorem startFloor_net (env : StartEnv) : (startFloor env m).net = m.net := noCfgTmLnMd_net (startFloor_noCfgTmLnMd m env)
@[simp] theorem startFloor_host (env : StartEnv) : (startFloor env m).host = m.host := noCfgTmLnMd_host (startFloor_noCfgTmLnMd m env)
@[simp] theorem startFloor_rcd (env : StartEnv) : (startFloor env m).rcd = m.rcd := noCfgTmLnMd_rcd (startFloor_noCfgTmLnMd m env)
@[simp] theorem startFloor_rc (env : StartEnv) : (startFloor env m).rc = m.rc := noCfgTmLnMd_rc (startFloor_noCfgTmLnMd m env)
@[simp] theorem startFloor_pc (env : StartEnv) : (startFloor env m).pc = m.pc := noCfgTmLnMd_pc (startFloor_noCfgTmLnMd m env)
@[simp] theorem startFloor_up (env : StartEnv) : (startFloor env m).up = m.up := noCfgTmLnMd_up (startFloor_noCfgTmLnMd m env)
@[simp] theorem startFloor_sec (env : StartEnv) : (startFloor env m).sec = m.sec := noCfgTmLnMd_sec (startFloor_noCfgTmLnMd m env)
@[simp] theorem startFloor_pr (env : StartEnv) : (startFloor env m).pr = m.pr := noCfgTmLnMd_pr (startFloor_noCfgTmLnMd m env)
@[simp] theorem startFloor_stateOut (env : StartEnv) : (startFloor env m).stateOut = m.stateOut := noCfgTmLnMd_stateOut (startFloor_noCfgTmLnMd m env)

@[simp] theorem holdOutLane_noLn (l : LaneId) : (holdOutLane l m).noLn = m.noLn := rfl
@[simp] theorem holdOutLane_powered (l : LaneId) : (holdOutLane l m).powered = m.powered := noLn_powered (holdOutLane_noLn m l)
@[simp] theorem holdOutLane_clk (l : LaneId) : (holdOutLane l m).clk = m.clk := noLn_clk (holdOutLane_noLn m l)
@[simp] theorem holdOutLane_freeN (l : LaneId) : (holdOutLane l m).freeN = m.freeN := noLn_freeN (holdOutLane_noLn m l)
@[simp] theorem holdOutLane_nv (l : LaneId) : (holdOutLane l m).nv = m.nv := noLn_nv (holdOutLane_noLn m l)
@[simp] theorem holdOutLane_cfg (l : LaneId) : (holdOutLane l m).cfg = m.cfg := noLn_cfg (holdOutLane_noLn m l)
@[simp] theorem holdOutLane_tm (l : LaneId) : (holdOutLane l m).tm = m.tm := noLn_tm (holdOutLane_noLn m l)
@[simp] theorem holdOutLane_md (l : LaneId) : (holdOutLane l m).md = m.md := noLn_md (holdOutLane_noLn m l)
@[simp] theorem holdOutLane_pw (l : LaneId) : (holdOutLane l m).pw = m.pw := noLn_pw (holdOutLane_noLn m l)
@[simp] theorem holdOutLane_lg (l : LaneId) : (holdOutLane l m).lg = m.lg := noLn_lg (holdOutLane_noLn m l)
@[simp] theorem holdOutLane_cur (l : LaneId) : (holdOutLane l m).cur = m.cur := noLn_cur (holdOutLane_noLn m l)
@[simp] theorem holdOutLane_nxt (l : LaneId) : (holdOutLane l m).nxt = m.nxt := noLn_nxt (holdOutLane_noLn m l)
@[simp] theorem holdOutLane_en (l : LaneId) : (holdOutLane l m).en = m.en := noLn_en (holdOutLane_noLn m l)
@[simp] theorem holdOutLane_fio (l : LaneId) : (holdOutLane l m).fio = m.fio := noLn_fio (holdOutLane_noLn m l)
@[simp] theorem holdOutLane_bt (l : LaneId) : (holdOutLane l m).bt = m.bt := noLn_bt (holdOutLane_noLn m l)
@[simp] theorem holdOutLane_str (l : LaneId) : (holdOutLane l m).str = m.str := noLn_str (holdOutLane_noLn m l)
@[simp] theorem holdOutLane_can (l : LaneId) : (holdOutLane l m).can = m.can := noLn_can (holdOutLane_noLn m l)
@[simp] theorem holdOutLane_net (l : LaneId) : (holdOutLane l m).net = m.net := noLn_net (holdOutLane_noLn m l)
@[simp] theorem holdOutLane_host (l : LaneId) : (holdOutLane l m).host = m.host := noLn_host (holdOutLane_noLn m l)
@[simp] theorem holdOutLane_rcd (l : LaneId) : (holdOutLane l m).rcd = m.rcd := noLn_rcd (holdOutLane_noLn m l)
@[simp] theorem holdOutLane_rc (l : LaneId) : (holdOutLane l m).rc = m.rc := noLn_rc (holdOutLane_noLn m l)
@[simp] theorem holdOutLane_pc (l : LaneId) : (holdOutLane l m).pc = m.pc := noLn_pc (holdOutLane_noLn m l)
@[simp] theorem holdOutLane_up (l : LaneId) : (holdOutLane l m).up = m.up := noLn_up (holdOutLane_noLn m l)
@[simp] theorem holdOutLane_sec (l : LaneId) : (holdOutLane l m).sec = m.sec := noLn_sec (holdOutLane_noLn m l)
@[simp] theorem holdOutLane_pr (l : LaneId) : (holdOutLane l m).pr = m.pr := noLn_pr (holdOutLane_noLn m l)
@[simp] theorem holdOutLane_stateOut (l : LaneId) : (holdOutLane l m).stateOut = m.stateOut := noLn_stateOut (holdOutLane_noLn m l)

@[simp] theorem holdOut_noLnHostRcd : (holdOut m).noLnHostRcd = m.noLnHostRcd := by
  unfold holdOut; dsimp only
  refine (forEach_keeps _ Mod.noLnHostRcd _ _ (fun l n => ?_)).trans (forEach_keeps _ Mod.noLnHostRcd _ _ (fun l n => ?_)) <;> simp [Mod.noLnHostRcd]
@[simp] theorem holdOut_powered : (holdOut m).powered = m.powered := noLnHostRcd_powered (holdOut_noLnHostRcd m)
@[simp] theorem holdOut_clk : (holdOut m).clk = m.clk := noLnHostRcd_clk (holdOut_noLnHostRcd m)
@[simp] theorem holdOut_freeN : (holdOut m).freeN = m.freeN := noLnHostRcd_freeN (holdOut_noLnHostRcd m)
@[simp] theorem holdOut_nv : (holdOut m).nv = m.nv := noLnHostRcd_nv (holdOut_noLnHostRcd m)
@[simp] theorem holdOut_cfg : (holdOut m).cfg = m.cfg := noLnHostRcd_cfg (holdOut_noLnHostRcd m)
@[simp] theorem holdOut_tm : (holdOut m).tm = m.tm := noLnHostRcd_tm (holdOut_noLnHostRcd m)
@[simp] theorem holdOut_md : (holdOut m).md = m.md := noLnHostRcd_md (holdOut_noLnHostRcd m)
@[simp] theorem holdOut_pw : (holdOut m).pw = m.pw := noLnHostRcd_pw (holdOut_noLnHostRcd m)
@[simp] theorem holdOut_lg : (holdOut m).lg = m.lg := noLnHostRcd_lg (holdOut_noLnHostRcd m)
@[simp] theorem holdOut_cur : (holdOut m).cur = m.cur := noLnHostRcd_cur (holdOut_noLnHostRcd m)
@[simp] theorem holdOut_nxt : (holdOut m).nxt = m.nxt := noLnHostRcd_nxt (holdOut_noLnHostRcd m)
@[simp] theorem holdOut_en : (holdOut m).en = m.en := noLnHostRcd_en (holdOut_noLnHostRcd m)
@[simp] theorem holdOut_fio : (holdOut m).fio = m.fio := noLnHostRcd_fio (holdOut_noLnHostRcd m)
@[simp] theorem holdOut_bt : (holdOut m).bt = m.bt := noLnHostRcd_bt (holdOut_noLnHostRcd m)
@[simp] theorem holdOut_str : (holdOut m).str = m.str := noLnHostRcd_str (holdOut_noLnHostRcd m)
@[simp] theorem holdOut_can : (holdOut m).can = m.can := noLnHostRcd_can (holdOut_noLnHostRcd m)
@[simp] theorem holdOut_net : (holdOut m).net = m.net := noLnHostRcd_net (holdOut_noLnHostRcd m)
@[simp] theorem holdOut_rc : (holdOut m).rc = m.rc := noLnHostRcd_rc (holdOut_noLnHostRcd m)
@[simp] theorem holdOut_pc : (holdOut m).pc = m.pc := noLnHostRcd_pc (holdOut_noLnHostRcd m)
@[simp] theorem holdOut_up : (holdOut m).up = m.up := noLnHostRcd_up (holdOut_noLnHostRcd m)
@[simp] theorem holdOut_sec : (holdOut m).sec = m.sec := noLnHostRcd_sec (holdOut_noLnHostRcd m)
@[simp] theorem holdOut_pr : (holdOut m).pr = m.pr := noLnHostRcd_pr (holdOut_noLnHostRcd m)
@[simp] theorem holdOut_stateOut : (holdOut m).stateOut = m.stateOut := noLnHostRcd_stateOut (holdOut_noLnHostRcd m)

@[simp] theorem agreeLifecycle_noFreeNNvLnMdLgFioStrCanHostRcdRcPcUpSecPr (passing : List LaneId) : (agreeLifecycle passing m).noFreeNNvLnMdLgFioStrCanHostRcdRcPcUpSecPr = m.noFreeNNvLnMdLgFioStrCanHostRcdRcPcUpSecPr := by
  unfold agreeLifecycle; dsimp only
  exact (onlyIf_keeps _ Mod.noFreeNNvLnMdLgFioStrCanHostRcdRcPcUpSecPr _ _ (alarmAll_noFreeNNvLnMdLgFioStrCanHostRcdRcPcUpSecPr _ 11)).trans rfl
@[simp] theorem agreeLifecycle_powered (passing : List LaneId) : (agreeLifecycle passing m).powered = m.powered := noFreeNNvLnMdLgFioStrCanHostRcdRcPcUpSecPr_powered (agreeLifecycle_noFreeNNvLnMdLgFioStrCanHostRcdRcPcUpSecPr m passing)
@[simp] theorem agreeLifecycle_clk (passing : List LaneId) : (agreeLifecycle passing m).clk = m.clk := noFreeNNvLnMdLgFioStrCanHostRcdRcPcUpSecPr_clk (agreeLifecycle_noFreeNNvLnMdLgFioStrCanHostRcdRcPcUpSecPr m passing)
@[simp] theorem agreeLifecycle_cfg (passing : List LaneId) : (agreeLifecycle passing m).cfg = m.cfg := noFreeNNvLnMdLgFioStrCanHostRcdRcPcUpSecPr_cfg (agreeLifecycle_noFreeNNvLnMdLgFioStrCanHostRcdRcPcUpSecPr m passing)
@[simp] theorem agreeLifecycle_tm (passing : List LaneId) : (agreeLifecycle passing m).tm = m.tm := noFreeNNvLnMdLgFioStrCanHostRcdRcPcUpSecPr_tm (agreeLifecycle_noFreeNNvLnMdLgFioStrCanHostRcdRcPcUpSecPr m passing)
@[simp] theorem agreeLifecycle_pw (passing : List LaneId) : (agreeLifecycle passing m).pw = m.pw := noFreeNNvLnMdLgFioStrCanHostRcdRcPcUpSecPr_pw (agreeLifecycle_noFreeNNvLnMdLgFioStrCanHostRcdRcPcUpSecPr m passing)
@[simp] theorem agreeLifecycle_cur (passing : List LaneId) : (agreeLifecycle passing m).cur = m.cur := noFreeNNvLnMdLgFioStrCanHostRcdRcPcUpSecPr_cur (agreeLifecycle_noFreeNNvLnMdLgFioStrCanHostRcdRcPcUpSecPr m passing)
@[simp] theorem agreeLifecycle_nxt (passing : List LaneId) : (agreeLifecycle passing m).nxt = m.nxt := noFreeNNvLnMdLgFioStrCanHostRcdRcPcUpSecPr_nxt (agreeLifecycle_noFreeNNvLnMdLgFioStrCanHostRcdRcPcUpSecPr m passing)
@[simp] theorem agreeLifecycle_en (passing : List LaneId) : (agreeLifecycle passing m).en = m.en := noFreeNNvLnMdLgFioStrCanHostRcdRcPcUpSecPr_en (agreeLifecycle_noFreeNNvLnMdLgFioStrCanHostRcdRcPcUpSecPr m passing)
@[simp] theorem agreeLifecycle_bt (passing : List LaneId) : (agreeLifecycle passing m).bt = m.bt := noFreeNNvLnMdLgFioStrCanHostRcdRcPcUpSecPr_bt (agreeLifecycle_noFreeNNvLnMdLgFioStrCanHostRcdRcPcUpSecPr m passing)
@[simp] theorem agreeLifecycle_net (passing : List LaneId) : (agreeLifecycle passing m).net = m.net := noFreeNNvLnMdLgFioStrCanHostRcdRcPcUpSecPr_net (agreeLifecycle_noFreeNNvLnMdLgFioStrCanHostRcdRcPcUpSecPr m passing)
@[simp] theorem agreeLifecycle_stateOut (passing : List LaneId) : (agreeLifecycle passing m).stateOut = m.stateOut := noFreeNNvLnMdLgFioStrCanHostRcdRcPcUpSecPr_stateOut (agreeLifecycle_noFreeNNvLnMdLgFioStrCanHostRcdRcPcUpSecPr m passing)

/-- All but cfg, ln, md, lg, str, can, net, pr. -/
def Mod.noCfgLnMdLgStrCanNetPr (m : Mod) : Mod :=
  { m with cfg := Settings.initial, ln := PerLane.all (Lane.fresh (LaneNv.fresh 0 0)), md := Modes.fresh, lg := Logic.fresh AppImage.empty, str := Stride.fresh 0, can := ⟨0, [], []⟩, net := NetImage.empty, pr := Pair.fresh }

theorem noCfgLnMdLgStrCanNetPr_powered {a b : Mod} (h : a.noCfgLnMdLgStrCanNetPr = b.noCfgLnMdLgStrCanNetPr) : a.powered = b.powered := (congrArg Mod.powered h :)
theorem noCfgLnMdLgStrCanNetPr_clk {a b : Mod} (h : a.noCfgLnMdLgStrCanNetPr = b.noCfgLnMdLgStrCanNetPr) : a.clk = b.clk := (congrArg Mod.clk h :)
theorem noCfgLnMdLgStrCanNetPr_freeN {a b : Mod} (h : a.noCfgLnMdLgStrCanNetPr = b.noCfgLnMdLgStrCanNetPr) : a.freeN = b.freeN := (congrArg Mod.freeN h :)
theorem noCfgLnMdLgStrCanNetPr_nv {a b : Mod} (h : a.noCfgLnMdLgStrCanNetPr = b.noCfgLnMdLgStrCanNetPr) : a.nv = b.nv := (congrArg Mod.nv h :)
theorem noCfgLnMdLgStrCanNetPr_tm {a b : Mod} (h : a.noCfgLnMdLgStrCanNetPr = b.noCfgLnMdLgStrCanNetPr) : a.tm = b.tm := (congrArg Mod.tm h :)
theorem noCfgLnMdLgStrCanNetPr_pw {a b : Mod} (h : a.noCfgLnMdLgStrCanNetPr = b.noCfgLnMdLgStrCanNetPr) : a.pw = b.pw := (congrArg Mod.pw h :)
theorem noCfgLnMdLgStrCanNetPr_cur {a b : Mod} (h : a.noCfgLnMdLgStrCanNetPr = b.noCfgLnMdLgStrCanNetPr) : a.cur = b.cur := (congrArg Mod.cur h :)
theorem noCfgLnMdLgStrCanNetPr_nxt {a b : Mod} (h : a.noCfgLnMdLgStrCanNetPr = b.noCfgLnMdLgStrCanNetPr) : a.nxt = b.nxt := (congrArg Mod.nxt h :)
theorem noCfgLnMdLgStrCanNetPr_en {a b : Mod} (h : a.noCfgLnMdLgStrCanNetPr = b.noCfgLnMdLgStrCanNetPr) : a.en = b.en := (congrArg Mod.en h :)
theorem noCfgLnMdLgStrCanNetPr_fio {a b : Mod} (h : a.noCfgLnMdLgStrCanNetPr = b.noCfgLnMdLgStrCanNetPr) : a.fio = b.fio := (congrArg Mod.fio h :)
theorem noCfgLnMdLgStrCanNetPr_bt {a b : Mod} (h : a.noCfgLnMdLgStrCanNetPr = b.noCfgLnMdLgStrCanNetPr) : a.bt = b.bt := (congrArg Mod.bt h :)
theorem noCfgLnMdLgStrCanNetPr_host {a b : Mod} (h : a.noCfgLnMdLgStrCanNetPr = b.noCfgLnMdLgStrCanNetPr) : a.host = b.host := (congrArg Mod.host h :)
theorem noCfgLnMdLgStrCanNetPr_rcd {a b : Mod} (h : a.noCfgLnMdLgStrCanNetPr = b.noCfgLnMdLgStrCanNetPr) : a.rcd = b.rcd := (congrArg Mod.rcd h :)
theorem noCfgLnMdLgStrCanNetPr_rc {a b : Mod} (h : a.noCfgLnMdLgStrCanNetPr = b.noCfgLnMdLgStrCanNetPr) : a.rc = b.rc := (congrArg Mod.rc h :)
theorem noCfgLnMdLgStrCanNetPr_pc {a b : Mod} (h : a.noCfgLnMdLgStrCanNetPr = b.noCfgLnMdLgStrCanNetPr) : a.pc = b.pc := (congrArg Mod.pc h :)
theorem noCfgLnMdLgStrCanNetPr_up {a b : Mod} (h : a.noCfgLnMdLgStrCanNetPr = b.noCfgLnMdLgStrCanNetPr) : a.up = b.up := (congrArg Mod.up h :)
theorem noCfgLnMdLgStrCanNetPr_sec {a b : Mod} (h : a.noCfgLnMdLgStrCanNetPr = b.noCfgLnMdLgStrCanNetPr) : a.sec = b.sec := (congrArg Mod.sec h :)
theorem noCfgLnMdLgStrCanNetPr_stateOut {a b : Mod} (h : a.noCfgLnMdLgStrCanNetPr = b.noCfgLnMdLgStrCanNetPr) : a.stateOut = b.stateOut := (congrArg Mod.stateOut h :)

@[simp] theorem takeUp_noCfgLnMdLgStrCanNetPr : (takeUp m).noCfgLnMdLgStrCanNetPr = m.noCfgLnMdLgStrCanNetPr := by
  unfold takeUp; simp [Mod.noCfgLnMdLgStrCanNetPr]
@[simp] theorem takeUp_powered : (takeUp m).powered = m.powered := noCfgLnMdLgStrCanNetPr_powered (takeUp_noCfgLnMdLgStrCanNetPr m)
@[simp] theorem takeUp_clk : (takeUp m).clk = m.clk := noCfgLnMdLgStrCanNetPr_clk (takeUp_noCfgLnMdLgStrCanNetPr m)
@[simp] theorem takeUp_freeN : (takeUp m).freeN = m.freeN := noCfgLnMdLgStrCanNetPr_freeN (takeUp_noCfgLnMdLgStrCanNetPr m)
@[simp] theorem takeUp_nv : (takeUp m).nv = m.nv := noCfgLnMdLgStrCanNetPr_nv (takeUp_noCfgLnMdLgStrCanNetPr m)
@[simp] theorem takeUp_tm : (takeUp m).tm = m.tm := noCfgLnMdLgStrCanNetPr_tm (takeUp_noCfgLnMdLgStrCanNetPr m)
@[simp] theorem takeUp_pw : (takeUp m).pw = m.pw := noCfgLnMdLgStrCanNetPr_pw (takeUp_noCfgLnMdLgStrCanNetPr m)
@[simp] theorem takeUp_cur : (takeUp m).cur = m.cur := noCfgLnMdLgStrCanNetPr_cur (takeUp_noCfgLnMdLgStrCanNetPr m)
@[simp] theorem takeUp_nxt : (takeUp m).nxt = m.nxt := noCfgLnMdLgStrCanNetPr_nxt (takeUp_noCfgLnMdLgStrCanNetPr m)
@[simp] theorem takeUp_en : (takeUp m).en = m.en := noCfgLnMdLgStrCanNetPr_en (takeUp_noCfgLnMdLgStrCanNetPr m)
@[simp] theorem takeUp_fio : (takeUp m).fio = m.fio := noCfgLnMdLgStrCanNetPr_fio (takeUp_noCfgLnMdLgStrCanNetPr m)
@[simp] theorem takeUp_bt : (takeUp m).bt = m.bt := noCfgLnMdLgStrCanNetPr_bt (takeUp_noCfgLnMdLgStrCanNetPr m)
@[simp] theorem takeUp_host : (takeUp m).host = m.host := noCfgLnMdLgStrCanNetPr_host (takeUp_noCfgLnMdLgStrCanNetPr m)
@[simp] theorem takeUp_rcd : (takeUp m).rcd = m.rcd := noCfgLnMdLgStrCanNetPr_rcd (takeUp_noCfgLnMdLgStrCanNetPr m)
@[simp] theorem takeUp_rc : (takeUp m).rc = m.rc := noCfgLnMdLgStrCanNetPr_rc (takeUp_noCfgLnMdLgStrCanNetPr m)
@[simp] theorem takeUp_pc : (takeUp m).pc = m.pc := noCfgLnMdLgStrCanNetPr_pc (takeUp_noCfgLnMdLgStrCanNetPr m)
@[simp] theorem takeUp_up : (takeUp m).up = m.up := noCfgLnMdLgStrCanNetPr_up (takeUp_noCfgLnMdLgStrCanNetPr m)
@[simp] theorem takeUp_sec : (takeUp m).sec = m.sec := noCfgLnMdLgStrCanNetPr_sec (takeUp_noCfgLnMdLgStrCanNetPr m)
@[simp] theorem takeUp_stateOut : (takeUp m).stateOut = m.stateOut := noCfgLnMdLgStrCanNetPr_stateOut (takeUp_noCfgLnMdLgStrCanNetPr m)

/-- All but freeN, nv, cfg, ln, md, lg, fio, str, can, net, host, rcd, rc, pc, up, pr. -/
def Mod.noFreeNNvCfgLnMdLgFioStrCanNetHostRcdRcPcUpPr (m : Mod) : Mod :=
  { m with freeN := 0, nv := Nv.fresh, cfg := Settings.initial, ln := PerLane.all (Lane.fresh (LaneNv.fresh 0 0)), md := Modes.fresh, lg := Logic.fresh AppImage.empty, fio := Fio.fresh, str := Stride.fresh 0, can := ⟨0, [], []⟩, net := NetImage.empty, host := HostIf.fresh, rcd := Recorder.fresh, rc := RollCall.fresh, pc := Counters.fresh, up := Update.fresh, pr := Pair.fresh }

theorem noFreeNNvCfgLnMdLgFioStrCanNetHostRcdRcPcUpPr_powered {a b : Mod} (h : a.noFreeNNvCfgLnMdLgFioStrCanNetHostRcdRcPcUpPr = b.noFreeNNvCfgLnMdLgFioStrCanNetHostRcdRcPcUpPr) : a.powered = b.powered := (congrArg Mod.powered h :)
theorem noFreeNNvCfgLnMdLgFioStrCanNetHostRcdRcPcUpPr_clk {a b : Mod} (h : a.noFreeNNvCfgLnMdLgFioStrCanNetHostRcdRcPcUpPr = b.noFreeNNvCfgLnMdLgFioStrCanNetHostRcdRcPcUpPr) : a.clk = b.clk := (congrArg Mod.clk h :)
theorem noFreeNNvCfgLnMdLgFioStrCanNetHostRcdRcPcUpPr_tm {a b : Mod} (h : a.noFreeNNvCfgLnMdLgFioStrCanNetHostRcdRcPcUpPr = b.noFreeNNvCfgLnMdLgFioStrCanNetHostRcdRcPcUpPr) : a.tm = b.tm := (congrArg Mod.tm h :)
theorem noFreeNNvCfgLnMdLgFioStrCanNetHostRcdRcPcUpPr_pw {a b : Mod} (h : a.noFreeNNvCfgLnMdLgFioStrCanNetHostRcdRcPcUpPr = b.noFreeNNvCfgLnMdLgFioStrCanNetHostRcdRcPcUpPr) : a.pw = b.pw := (congrArg Mod.pw h :)
theorem noFreeNNvCfgLnMdLgFioStrCanNetHostRcdRcPcUpPr_cur {a b : Mod} (h : a.noFreeNNvCfgLnMdLgFioStrCanNetHostRcdRcPcUpPr = b.noFreeNNvCfgLnMdLgFioStrCanNetHostRcdRcPcUpPr) : a.cur = b.cur := (congrArg Mod.cur h :)
theorem noFreeNNvCfgLnMdLgFioStrCanNetHostRcdRcPcUpPr_nxt {a b : Mod} (h : a.noFreeNNvCfgLnMdLgFioStrCanNetHostRcdRcPcUpPr = b.noFreeNNvCfgLnMdLgFioStrCanNetHostRcdRcPcUpPr) : a.nxt = b.nxt := (congrArg Mod.nxt h :)
theorem noFreeNNvCfgLnMdLgFioStrCanNetHostRcdRcPcUpPr_en {a b : Mod} (h : a.noFreeNNvCfgLnMdLgFioStrCanNetHostRcdRcPcUpPr = b.noFreeNNvCfgLnMdLgFioStrCanNetHostRcdRcPcUpPr) : a.en = b.en := (congrArg Mod.en h :)
theorem noFreeNNvCfgLnMdLgFioStrCanNetHostRcdRcPcUpPr_bt {a b : Mod} (h : a.noFreeNNvCfgLnMdLgFioStrCanNetHostRcdRcPcUpPr = b.noFreeNNvCfgLnMdLgFioStrCanNetHostRcdRcPcUpPr) : a.bt = b.bt := (congrArg Mod.bt h :)
theorem noFreeNNvCfgLnMdLgFioStrCanNetHostRcdRcPcUpPr_sec {a b : Mod} (h : a.noFreeNNvCfgLnMdLgFioStrCanNetHostRcdRcPcUpPr = b.noFreeNNvCfgLnMdLgFioStrCanNetHostRcdRcPcUpPr) : a.sec = b.sec := (congrArg Mod.sec h :)
theorem noFreeNNvCfgLnMdLgFioStrCanNetHostRcdRcPcUpPr_stateOut {a b : Mod} (h : a.noFreeNNvCfgLnMdLgFioStrCanNetHostRcdRcPcUpPr = b.noFreeNNvCfgLnMdLgFioStrCanNetHostRcdRcPcUpPr) : a.stateOut = b.stateOut := (congrArg Mod.stateOut h :)

@[simp] theorem startMigrate_noFreeNNvCfgLnMdLgFioStrCanNetHostRcdRcPcUpPr (env : StartEnv) : (startMigrate env m).noFreeNNvCfgLnMdLgFioStrCanNetHostRcdRcPcUpPr = m.noFreeNNvCfgLnMdLgFioStrCanNetHostRcdRcPcUpPr := by
  have k : (migrate env m).2.2.noFreeNNvCfgLnMdLgFioStrCanNetHostRcdRcPcUpPr = m.noFreeNNvCfgLnMdLgFioStrCanNetHostRcdRcPcUpPr := (congrArg Mod.noFreeNNvCfgLnMdLgFioStrCanNetHostRcdRcPcUpPr (migrate_keeps m env) :)
  unfold startMigrate; dsimp only; split
  · rw [← k]; generalize (migrate env m).2.2 = x; simp [Mod.noFreeNNvCfgLnMdLgFioStrCanNetHostRcdRcPcUpPr]
  · rw [← k]; generalize (migrate env m).2.2 = x; simp [Mod.noFreeNNvCfgLnMdLgFioStrCanNetHostRcdRcPcUpPr]
@[simp] theorem startMigrate_powered (env : StartEnv) : (startMigrate env m).powered = m.powered := noFreeNNvCfgLnMdLgFioStrCanNetHostRcdRcPcUpPr_powered (startMigrate_noFreeNNvCfgLnMdLgFioStrCanNetHostRcdRcPcUpPr m env)
@[simp] theorem startMigrate_clk (env : StartEnv) : (startMigrate env m).clk = m.clk := noFreeNNvCfgLnMdLgFioStrCanNetHostRcdRcPcUpPr_clk (startMigrate_noFreeNNvCfgLnMdLgFioStrCanNetHostRcdRcPcUpPr m env)
@[simp] theorem startMigrate_tm (env : StartEnv) : (startMigrate env m).tm = m.tm := noFreeNNvCfgLnMdLgFioStrCanNetHostRcdRcPcUpPr_tm (startMigrate_noFreeNNvCfgLnMdLgFioStrCanNetHostRcdRcPcUpPr m env)
@[simp] theorem startMigrate_pw (env : StartEnv) : (startMigrate env m).pw = m.pw := noFreeNNvCfgLnMdLgFioStrCanNetHostRcdRcPcUpPr_pw (startMigrate_noFreeNNvCfgLnMdLgFioStrCanNetHostRcdRcPcUpPr m env)
@[simp] theorem startMigrate_cur (env : StartEnv) : (startMigrate env m).cur = m.cur := noFreeNNvCfgLnMdLgFioStrCanNetHostRcdRcPcUpPr_cur (startMigrate_noFreeNNvCfgLnMdLgFioStrCanNetHostRcdRcPcUpPr m env)
@[simp] theorem startMigrate_nxt (env : StartEnv) : (startMigrate env m).nxt = m.nxt := noFreeNNvCfgLnMdLgFioStrCanNetHostRcdRcPcUpPr_nxt (startMigrate_noFreeNNvCfgLnMdLgFioStrCanNetHostRcdRcPcUpPr m env)
@[simp] theorem startMigrate_en (env : StartEnv) : (startMigrate env m).en = m.en := noFreeNNvCfgLnMdLgFioStrCanNetHostRcdRcPcUpPr_en (startMigrate_noFreeNNvCfgLnMdLgFioStrCanNetHostRcdRcPcUpPr m env)
@[simp] theorem startMigrate_bt (env : StartEnv) : (startMigrate env m).bt = m.bt := noFreeNNvCfgLnMdLgFioStrCanNetHostRcdRcPcUpPr_bt (startMigrate_noFreeNNvCfgLnMdLgFioStrCanNetHostRcdRcPcUpPr m env)
@[simp] theorem startMigrate_sec (env : StartEnv) : (startMigrate env m).sec = m.sec := noFreeNNvCfgLnMdLgFioStrCanNetHostRcdRcPcUpPr_sec (startMigrate_noFreeNNvCfgLnMdLgFioStrCanNetHostRcdRcPcUpPr m env)
@[simp] theorem startMigrate_stateOut (env : StartEnv) : (startMigrate env m).stateOut = m.stateOut := noFreeNNvCfgLnMdLgFioStrCanNetHostRcdRcPcUpPr_stateOut (startMigrate_noFreeNNvCfgLnMdLgFioStrCanNetHostRcdRcPcUpPr m env)

/-- All but freeN, nv, cfg, ln, md, lg, fio, str, can, net, host, rcd, rc, pc, up, sec, pr. -/
def Mod.noFreeNNvCfgLnMdLgFioStrCanNetHostRcdRcPcUpSecPr (m : Mod) : Mod :=
  { m with freeN := 0, nv := Nv.fresh, cfg := Settings.initial, ln := PerLane.all (Lane.fresh (LaneNv.fresh 0 0)), md := Modes.fresh, lg := Logic.fresh AppImage.empty, fio := Fio.fresh, str := Stride.fresh 0, can := ⟨0, [], []⟩, net := NetImage.empty, host := HostIf.fresh, rcd := Recorder.fresh, rc := RollCall.fresh, pc := Counters.fresh, up := Update.fresh, sec := SecVol.fresh, pr := Pair.fresh }

theorem noFreeNNvCfgLnMdLgFioStrCanNetHostRcdRcPcUpSecPr_powered {a b : Mod} (h : a.noFreeNNvCfgLnMdLgFioStrCanNetHostRcdRcPcUpSecPr = b.noFreeNNvCfgLnMdLgFioStrCanNetHostRcdRcPcUpSecPr) : a.powered = b.powered := (congrArg Mod.powered h :)
theorem noFreeNNvCfgLnMdLgFioStrCanNetHostRcdRcPcUpSecPr_clk {a b : Mod} (h : a.noFreeNNvCfgLnMdLgFioStrCanNetHostRcdRcPcUpSecPr = b.noFreeNNvCfgLnMdLgFioStrCanNetHostRcdRcPcUpSecPr) : a.clk = b.clk := (congrArg Mod.clk h :)
theorem noFreeNNvCfgLnMdLgFioStrCanNetHostRcdRcPcUpSecPr_tm {a b : Mod} (h : a.noFreeNNvCfgLnMdLgFioStrCanNetHostRcdRcPcUpSecPr = b.noFreeNNvCfgLnMdLgFioStrCanNetHostRcdRcPcUpSecPr) : a.tm = b.tm := (congrArg Mod.tm h :)
theorem noFreeNNvCfgLnMdLgFioStrCanNetHostRcdRcPcUpSecPr_pw {a b : Mod} (h : a.noFreeNNvCfgLnMdLgFioStrCanNetHostRcdRcPcUpSecPr = b.noFreeNNvCfgLnMdLgFioStrCanNetHostRcdRcPcUpSecPr) : a.pw = b.pw := (congrArg Mod.pw h :)
theorem noFreeNNvCfgLnMdLgFioStrCanNetHostRcdRcPcUpSecPr_cur {a b : Mod} (h : a.noFreeNNvCfgLnMdLgFioStrCanNetHostRcdRcPcUpSecPr = b.noFreeNNvCfgLnMdLgFioStrCanNetHostRcdRcPcUpSecPr) : a.cur = b.cur := (congrArg Mod.cur h :)
theorem noFreeNNvCfgLnMdLgFioStrCanNetHostRcdRcPcUpSecPr_nxt {a b : Mod} (h : a.noFreeNNvCfgLnMdLgFioStrCanNetHostRcdRcPcUpSecPr = b.noFreeNNvCfgLnMdLgFioStrCanNetHostRcdRcPcUpSecPr) : a.nxt = b.nxt := (congrArg Mod.nxt h :)
theorem noFreeNNvCfgLnMdLgFioStrCanNetHostRcdRcPcUpSecPr_en {a b : Mod} (h : a.noFreeNNvCfgLnMdLgFioStrCanNetHostRcdRcPcUpSecPr = b.noFreeNNvCfgLnMdLgFioStrCanNetHostRcdRcPcUpSecPr) : a.en = b.en := (congrArg Mod.en h :)
theorem noFreeNNvCfgLnMdLgFioStrCanNetHostRcdRcPcUpSecPr_bt {a b : Mod} (h : a.noFreeNNvCfgLnMdLgFioStrCanNetHostRcdRcPcUpSecPr = b.noFreeNNvCfgLnMdLgFioStrCanNetHostRcdRcPcUpSecPr) : a.bt = b.bt := (congrArg Mod.bt h :)
theorem noFreeNNvCfgLnMdLgFioStrCanNetHostRcdRcPcUpSecPr_stateOut {a b : Mod} (h : a.noFreeNNvCfgLnMdLgFioStrCanNetHostRcdRcPcUpSecPr = b.noFreeNNvCfgLnMdLgFioStrCanNetHostRcdRcPcUpSecPr) : a.stateOut = b.stateOut := (congrArg Mod.stateOut h :)

@[simp] theorem startLifecycle_noFreeNNvCfgLnMdLgFioStrCanNetHostRcdRcPcUpSecPr (env : StartEnv) (passing : List LaneId) : (startLifecycle env passing m).noFreeNNvCfgLnMdLgFioStrCanNetHostRcdRcPcUpSecPr = m.noFreeNNvCfgLnMdLgFioStrCanNetHostRcdRcPcUpSecPr := by
  unfold startLifecycle; dsimp only; (repeat' split) <;> simp [Mod.noFreeNNvCfgLnMdLgFioStrCanNetHostRcdRcPcUpSecPr]
@[simp] theorem startLifecycle_powered (env : StartEnv) (passing : List LaneId) : (startLifecycle env passing m).powered = m.powered := noFreeNNvCfgLnMdLgFioStrCanNetHostRcdRcPcUpSecPr_powered (startLifecycle_noFreeNNvCfgLnMdLgFioStrCanNetHostRcdRcPcUpSecPr m env passing)
@[simp] theorem startLifecycle_clk (env : StartEnv) (passing : List LaneId) : (startLifecycle env passing m).clk = m.clk := noFreeNNvCfgLnMdLgFioStrCanNetHostRcdRcPcUpSecPr_clk (startLifecycle_noFreeNNvCfgLnMdLgFioStrCanNetHostRcdRcPcUpSecPr m env passing)
@[simp] theorem startLifecycle_tm (env : StartEnv) (passing : List LaneId) : (startLifecycle env passing m).tm = m.tm := noFreeNNvCfgLnMdLgFioStrCanNetHostRcdRcPcUpSecPr_tm (startLifecycle_noFreeNNvCfgLnMdLgFioStrCanNetHostRcdRcPcUpSecPr m env passing)
@[simp] theorem startLifecycle_pw (env : StartEnv) (passing : List LaneId) : (startLifecycle env passing m).pw = m.pw := noFreeNNvCfgLnMdLgFioStrCanNetHostRcdRcPcUpSecPr_pw (startLifecycle_noFreeNNvCfgLnMdLgFioStrCanNetHostRcdRcPcUpSecPr m env passing)
@[simp] theorem startLifecycle_cur (env : StartEnv) (passing : List LaneId) : (startLifecycle env passing m).cur = m.cur := noFreeNNvCfgLnMdLgFioStrCanNetHostRcdRcPcUpSecPr_cur (startLifecycle_noFreeNNvCfgLnMdLgFioStrCanNetHostRcdRcPcUpSecPr m env passing)
@[simp] theorem startLifecycle_nxt (env : StartEnv) (passing : List LaneId) : (startLifecycle env passing m).nxt = m.nxt := noFreeNNvCfgLnMdLgFioStrCanNetHostRcdRcPcUpSecPr_nxt (startLifecycle_noFreeNNvCfgLnMdLgFioStrCanNetHostRcdRcPcUpSecPr m env passing)
@[simp] theorem startLifecycle_en (env : StartEnv) (passing : List LaneId) : (startLifecycle env passing m).en = m.en := noFreeNNvCfgLnMdLgFioStrCanNetHostRcdRcPcUpSecPr_en (startLifecycle_noFreeNNvCfgLnMdLgFioStrCanNetHostRcdRcPcUpSecPr m env passing)
@[simp] theorem startLifecycle_bt (env : StartEnv) (passing : List LaneId) : (startLifecycle env passing m).bt = m.bt := noFreeNNvCfgLnMdLgFioStrCanNetHostRcdRcPcUpSecPr_bt (startLifecycle_noFreeNNvCfgLnMdLgFioStrCanNetHostRcdRcPcUpSecPr m env passing)
@[simp] theorem startLifecycle_stateOut (env : StartEnv) (passing : List LaneId) : (startLifecycle env passing m).stateOut = m.stateOut := noFreeNNvCfgLnMdLgFioStrCanNetHostRcdRcPcUpSecPr_stateOut (startLifecycle_noFreeNNvCfgLnMdLgFioStrCanNetHostRcdRcPcUpSecPr m env passing)

/-- All but freeN, nv, cfg, tm, ln, md, lg, fio, str, can, net, host, rcd, rc, pc, up, sec, pr. -/
def Mod.noFreeNNvCfgTmLnMdLgFioStrCanNetHostRcdRcPcUpSecPr (m : Mod) : Mod :=
  { m with freeN := 0, nv := Nv.fresh, cfg := Settings.initial, tm := Pacer.fresh, ln := PerLane.all (Lane.fresh (LaneNv.fresh 0 0)), md := Modes.fresh, lg := Logic.fresh AppImage.empty, fio := Fio.fresh, str := Stride.fresh 0, can := ⟨0, [], []⟩, net := NetImage.empty, host := HostIf.fresh, rcd := Recorder.fresh, rc := RollCall.fresh, pc := Counters.fresh, up := Update.fresh, sec := SecVol.fresh, pr := Pair.fresh }

theorem noFreeNNvCfgTmLnMdLgFioStrCanNetHostRcdRcPcUpSecPr_powered {a b : Mod} (h : a.noFreeNNvCfgTmLnMdLgFioStrCanNetHostRcdRcPcUpSecPr = b.noFreeNNvCfgTmLnMdLgFioStrCanNetHostRcdRcPcUpSecPr) : a.powered = b.powered := (congrArg Mod.powered h :)
theorem noFreeNNvCfgTmLnMdLgFioStrCanNetHostRcdRcPcUpSecPr_clk {a b : Mod} (h : a.noFreeNNvCfgTmLnMdLgFioStrCanNetHostRcdRcPcUpSecPr = b.noFreeNNvCfgTmLnMdLgFioStrCanNetHostRcdRcPcUpSecPr) : a.clk = b.clk := (congrArg Mod.clk h :)
theorem noFreeNNvCfgTmLnMdLgFioStrCanNetHostRcdRcPcUpSecPr_pw {a b : Mod} (h : a.noFreeNNvCfgTmLnMdLgFioStrCanNetHostRcdRcPcUpSecPr = b.noFreeNNvCfgTmLnMdLgFioStrCanNetHostRcdRcPcUpSecPr) : a.pw = b.pw := (congrArg Mod.pw h :)
theorem noFreeNNvCfgTmLnMdLgFioStrCanNetHostRcdRcPcUpSecPr_cur {a b : Mod} (h : a.noFreeNNvCfgTmLnMdLgFioStrCanNetHostRcdRcPcUpSecPr = b.noFreeNNvCfgTmLnMdLgFioStrCanNetHostRcdRcPcUpSecPr) : a.cur = b.cur := (congrArg Mod.cur h :)
theorem noFreeNNvCfgTmLnMdLgFioStrCanNetHostRcdRcPcUpSecPr_nxt {a b : Mod} (h : a.noFreeNNvCfgTmLnMdLgFioStrCanNetHostRcdRcPcUpSecPr = b.noFreeNNvCfgTmLnMdLgFioStrCanNetHostRcdRcPcUpSecPr) : a.nxt = b.nxt := (congrArg Mod.nxt h :)
theorem noFreeNNvCfgTmLnMdLgFioStrCanNetHostRcdRcPcUpSecPr_en {a b : Mod} (h : a.noFreeNNvCfgTmLnMdLgFioStrCanNetHostRcdRcPcUpSecPr = b.noFreeNNvCfgTmLnMdLgFioStrCanNetHostRcdRcPcUpSecPr) : a.en = b.en := (congrArg Mod.en h :)
theorem noFreeNNvCfgTmLnMdLgFioStrCanNetHostRcdRcPcUpSecPr_bt {a b : Mod} (h : a.noFreeNNvCfgTmLnMdLgFioStrCanNetHostRcdRcPcUpSecPr = b.noFreeNNvCfgTmLnMdLgFioStrCanNetHostRcdRcPcUpSecPr) : a.bt = b.bt := (congrArg Mod.bt h :)
theorem noFreeNNvCfgTmLnMdLgFioStrCanNetHostRcdRcPcUpSecPr_stateOut {a b : Mod} (h : a.noFreeNNvCfgTmLnMdLgFioStrCanNetHostRcdRcPcUpSecPr = b.noFreeNNvCfgTmLnMdLgFioStrCanNetHostRcdRcPcUpSecPr) : a.stateOut = b.stateOut := (congrArg Mod.stateOut h :)

@[simp] theorem startStep3_noFreeNNvCfgTmLnMdLgFioStrCanNetHostRcdRcPcUpSecPr (env : StartEnv) : (startStep3 env m).noFreeNNvCfgTmLnMdLgFioStrCanNetHostRcdRcPcUpSecPr = m.noFreeNNvCfgTmLnMdLgFioStrCanNetHostRcdRcPcUpSecPr := by
  unfold startStep3; dsimp only; (repeat' split) <;> simp [Mod.noFreeNNvCfgTmLnMdLgFioStrCanNetHostRcdRcPcUpSecPr]
@[simp] theorem startStep3_powered (env : StartEnv) : (startStep3 env m).powered = m.powered := noFreeNNvCfgTmLnMdLgFioStrCanNetHostRcdRcPcUpSecPr_powered (startStep3_noFreeNNvCfgTmLnMdLgFioStrCanNetHostRcdRcPcUpSecPr m env)
@[simp] theorem startStep3_clk (env : StartEnv) : (startStep3 env m).clk = m.clk := noFreeNNvCfgTmLnMdLgFioStrCanNetHostRcdRcPcUpSecPr_clk (startStep3_noFreeNNvCfgTmLnMdLgFioStrCanNetHostRcdRcPcUpSecPr m env)
@[simp] theorem startStep3_pw (env : StartEnv) : (startStep3 env m).pw = m.pw := noFreeNNvCfgTmLnMdLgFioStrCanNetHostRcdRcPcUpSecPr_pw (startStep3_noFreeNNvCfgTmLnMdLgFioStrCanNetHostRcdRcPcUpSecPr m env)
@[simp] theorem startStep3_cur (env : StartEnv) : (startStep3 env m).cur = m.cur := noFreeNNvCfgTmLnMdLgFioStrCanNetHostRcdRcPcUpSecPr_cur (startStep3_noFreeNNvCfgTmLnMdLgFioStrCanNetHostRcdRcPcUpSecPr m env)
@[simp] theorem startStep3_nxt (env : StartEnv) : (startStep3 env m).nxt = m.nxt := noFreeNNvCfgTmLnMdLgFioStrCanNetHostRcdRcPcUpSecPr_nxt (startStep3_noFreeNNvCfgTmLnMdLgFioStrCanNetHostRcdRcPcUpSecPr m env)
@[simp] theorem startStep3_en (env : StartEnv) : (startStep3 env m).en = m.en := noFreeNNvCfgTmLnMdLgFioStrCanNetHostRcdRcPcUpSecPr_en (startStep3_noFreeNNvCfgTmLnMdLgFioStrCanNetHostRcdRcPcUpSecPr m env)
@[simp] theorem startStep3_bt (env : StartEnv) : (startStep3 env m).bt = m.bt := noFreeNNvCfgTmLnMdLgFioStrCanNetHostRcdRcPcUpSecPr_bt (startStep3_noFreeNNvCfgTmLnMdLgFioStrCanNetHostRcdRcPcUpSecPr m env)
@[simp] theorem startStep3_stateOut (env : StartEnv) : (startStep3 env m).stateOut = m.stateOut := noFreeNNvCfgTmLnMdLgFioStrCanNetHostRcdRcPcUpSecPr_stateOut (startStep3_noFreeNNvCfgTmLnMdLgFioStrCanNetHostRcdRcPcUpSecPr m env)

/-- All but nv, md, host, rcd. -/
def Mod.noNvMdHostRcd (m : Mod) : Mod :=
  { m with nv := Nv.fresh, md := Modes.fresh, host := HostIf.fresh, rcd := Recorder.fresh }

theorem noNvMdHostRcd_powered {a b : Mod} (h : a.noNvMdHostRcd = b.noNvMdHostRcd) : a.powered = b.powered := (congrArg Mod.powered h :)
theorem noNvMdHostRcd_clk {a b : Mod} (h : a.noNvMdHostRcd = b.noNvMdHostRcd) : a.clk = b.clk := (congrArg Mod.clk h :)
theorem noNvMdHostRcd_freeN {a b : Mod} (h : a.noNvMdHostRcd = b.noNvMdHostRcd) : a.freeN = b.freeN := (congrArg Mod.freeN h :)
theorem noNvMdHostRcd_cfg {a b : Mod} (h : a.noNvMdHostRcd = b.noNvMdHostRcd) : a.cfg = b.cfg := (congrArg Mod.cfg h :)
theorem noNvMdHostRcd_tm {a b : Mod} (h : a.noNvMdHostRcd = b.noNvMdHostRcd) : a.tm = b.tm := (congrArg Mod.tm h :)
theorem noNvMdHostRcd_ln {a b : Mod} (h : a.noNvMdHostRcd = b.noNvMdHostRcd) : a.ln = b.ln := (congrArg Mod.ln h :)
theorem noNvMdHostRcd_pw {a b : Mod} (h : a.noNvMdHostRcd = b.noNvMdHostRcd) : a.pw = b.pw := (congrArg Mod.pw h :)
theorem noNvMdHostRcd_lg {a b : Mod} (h : a.noNvMdHostRcd = b.noNvMdHostRcd) : a.lg = b.lg := (congrArg Mod.lg h :)
theorem noNvMdHostRcd_cur {a b : Mod} (h : a.noNvMdHostRcd = b.noNvMdHostRcd) : a.cur = b.cur := (congrArg Mod.cur h :)
theorem noNvMdHostRcd_nxt {a b : Mod} (h : a.noNvMdHostRcd = b.noNvMdHostRcd) : a.nxt = b.nxt := (congrArg Mod.nxt h :)
theorem noNvMdHostRcd_en {a b : Mod} (h : a.noNvMdHostRcd = b.noNvMdHostRcd) : a.en = b.en := (congrArg Mod.en h :)
theorem noNvMdHostRcd_fio {a b : Mod} (h : a.noNvMdHostRcd = b.noNvMdHostRcd) : a.fio = b.fio := (congrArg Mod.fio h :)
theorem noNvMdHostRcd_bt {a b : Mod} (h : a.noNvMdHostRcd = b.noNvMdHostRcd) : a.bt = b.bt := (congrArg Mod.bt h :)
theorem noNvMdHostRcd_str {a b : Mod} (h : a.noNvMdHostRcd = b.noNvMdHostRcd) : a.str = b.str := (congrArg Mod.str h :)
theorem noNvMdHostRcd_can {a b : Mod} (h : a.noNvMdHostRcd = b.noNvMdHostRcd) : a.can = b.can := (congrArg Mod.can h :)
theorem noNvMdHostRcd_net {a b : Mod} (h : a.noNvMdHostRcd = b.noNvMdHostRcd) : a.net = b.net := (congrArg Mod.net h :)
theorem noNvMdHostRcd_rc {a b : Mod} (h : a.noNvMdHostRcd = b.noNvMdHostRcd) : a.rc = b.rc := (congrArg Mod.rc h :)
theorem noNvMdHostRcd_pc {a b : Mod} (h : a.noNvMdHostRcd = b.noNvMdHostRcd) : a.pc = b.pc := (congrArg Mod.pc h :)
theorem noNvMdHostRcd_up {a b : Mod} (h : a.noNvMdHostRcd = b.noNvMdHostRcd) : a.up = b.up := (congrArg Mod.up h :)
theorem noNvMdHostRcd_sec {a b : Mod} (h : a.noNvMdHostRcd = b.noNvMdHostRcd) : a.sec = b.sec := (congrArg Mod.sec h :)
theorem noNvMdHostRcd_pr {a b : Mod} (h : a.noNvMdHostRcd = b.noNvMdHostRcd) : a.pr = b.pr := (congrArg Mod.pr h :)
theorem noNvMdHostRcd_stateOut {a b : Mod} (h : a.noNvMdHostRcd = b.noNvMdHostRcd) : a.stateOut = b.stateOut := (congrArg Mod.stateOut h :)

@[simp] theorem enterRecovery_noNvMdHostRcd (powerOn : Bool) (prev : Nat) (env : StartEnv) : (enterRecovery powerOn prev env m).noNvMdHostRcd = m.noNvMdHostRcd := by
  unfold enterRecovery onlyIf; split <;> simp [Mod.noNvMdHostRcd]
@[simp] theorem enterRecovery_powered (powerOn : Bool) (prev : Nat) (env : StartEnv) : (enterRecovery powerOn prev env m).powered = m.powered := noNvMdHostRcd_powered (enterRecovery_noNvMdHostRcd m powerOn prev env)
@[simp] theorem enterRecovery_clk (powerOn : Bool) (prev : Nat) (env : StartEnv) : (enterRecovery powerOn prev env m).clk = m.clk := noNvMdHostRcd_clk (enterRecovery_noNvMdHostRcd m powerOn prev env)
@[simp] theorem enterRecovery_freeN (powerOn : Bool) (prev : Nat) (env : StartEnv) : (enterRecovery powerOn prev env m).freeN = m.freeN := noNvMdHostRcd_freeN (enterRecovery_noNvMdHostRcd m powerOn prev env)
@[simp] theorem enterRecovery_cfg (powerOn : Bool) (prev : Nat) (env : StartEnv) : (enterRecovery powerOn prev env m).cfg = m.cfg := noNvMdHostRcd_cfg (enterRecovery_noNvMdHostRcd m powerOn prev env)
@[simp] theorem enterRecovery_tm (powerOn : Bool) (prev : Nat) (env : StartEnv) : (enterRecovery powerOn prev env m).tm = m.tm := noNvMdHostRcd_tm (enterRecovery_noNvMdHostRcd m powerOn prev env)
@[simp] theorem enterRecovery_ln (powerOn : Bool) (prev : Nat) (env : StartEnv) : (enterRecovery powerOn prev env m).ln = m.ln := noNvMdHostRcd_ln (enterRecovery_noNvMdHostRcd m powerOn prev env)
@[simp] theorem enterRecovery_pw (powerOn : Bool) (prev : Nat) (env : StartEnv) : (enterRecovery powerOn prev env m).pw = m.pw := noNvMdHostRcd_pw (enterRecovery_noNvMdHostRcd m powerOn prev env)
@[simp] theorem enterRecovery_lg (powerOn : Bool) (prev : Nat) (env : StartEnv) : (enterRecovery powerOn prev env m).lg = m.lg := noNvMdHostRcd_lg (enterRecovery_noNvMdHostRcd m powerOn prev env)
@[simp] theorem enterRecovery_cur (powerOn : Bool) (prev : Nat) (env : StartEnv) : (enterRecovery powerOn prev env m).cur = m.cur := noNvMdHostRcd_cur (enterRecovery_noNvMdHostRcd m powerOn prev env)
@[simp] theorem enterRecovery_nxt (powerOn : Bool) (prev : Nat) (env : StartEnv) : (enterRecovery powerOn prev env m).nxt = m.nxt := noNvMdHostRcd_nxt (enterRecovery_noNvMdHostRcd m powerOn prev env)
@[simp] theorem enterRecovery_en (powerOn : Bool) (prev : Nat) (env : StartEnv) : (enterRecovery powerOn prev env m).en = m.en := noNvMdHostRcd_en (enterRecovery_noNvMdHostRcd m powerOn prev env)
@[simp] theorem enterRecovery_fio (powerOn : Bool) (prev : Nat) (env : StartEnv) : (enterRecovery powerOn prev env m).fio = m.fio := noNvMdHostRcd_fio (enterRecovery_noNvMdHostRcd m powerOn prev env)
@[simp] theorem enterRecovery_bt (powerOn : Bool) (prev : Nat) (env : StartEnv) : (enterRecovery powerOn prev env m).bt = m.bt := noNvMdHostRcd_bt (enterRecovery_noNvMdHostRcd m powerOn prev env)
@[simp] theorem enterRecovery_str (powerOn : Bool) (prev : Nat) (env : StartEnv) : (enterRecovery powerOn prev env m).str = m.str := noNvMdHostRcd_str (enterRecovery_noNvMdHostRcd m powerOn prev env)
@[simp] theorem enterRecovery_can (powerOn : Bool) (prev : Nat) (env : StartEnv) : (enterRecovery powerOn prev env m).can = m.can := noNvMdHostRcd_can (enterRecovery_noNvMdHostRcd m powerOn prev env)
@[simp] theorem enterRecovery_net (powerOn : Bool) (prev : Nat) (env : StartEnv) : (enterRecovery powerOn prev env m).net = m.net := noNvMdHostRcd_net (enterRecovery_noNvMdHostRcd m powerOn prev env)
@[simp] theorem enterRecovery_rc (powerOn : Bool) (prev : Nat) (env : StartEnv) : (enterRecovery powerOn prev env m).rc = m.rc := noNvMdHostRcd_rc (enterRecovery_noNvMdHostRcd m powerOn prev env)
@[simp] theorem enterRecovery_pc (powerOn : Bool) (prev : Nat) (env : StartEnv) : (enterRecovery powerOn prev env m).pc = m.pc := noNvMdHostRcd_pc (enterRecovery_noNvMdHostRcd m powerOn prev env)
@[simp] theorem enterRecovery_up (powerOn : Bool) (prev : Nat) (env : StartEnv) : (enterRecovery powerOn prev env m).up = m.up := noNvMdHostRcd_up (enterRecovery_noNvMdHostRcd m powerOn prev env)
@[simp] theorem enterRecovery_sec (powerOn : Bool) (prev : Nat) (env : StartEnv) : (enterRecovery powerOn prev env m).sec = m.sec := noNvMdHostRcd_sec (enterRecovery_noNvMdHostRcd m powerOn prev env)
@[simp] theorem enterRecovery_pr (powerOn : Bool) (prev : Nat) (env : StartEnv) : (enterRecovery powerOn prev env m).pr = m.pr := noNvMdHostRcd_pr (enterRecovery_noNvMdHostRcd m powerOn prev env)
@[simp] theorem enterRecovery_stateOut (powerOn : Bool) (prev : Nat) (env : StartEnv) : (enterRecovery powerOn prev env m).stateOut = m.stateOut := noNvMdHostRcd_stateOut (enterRecovery_noNvMdHostRcd m powerOn prev env)

end Sys2Proof.Machine
end

