-- ==== Sys2Proof/Laws/HaltHost.lean ====
section
/-! SUPPORT. What HALT entry and the steps of START leave alone inside the host interface: its set-up. -/

namespace Sys2Proof.Machine

variable (m : Mod)

/-- All of the host interface but what the Ledger carries: rings, slots, vectors, events, open submissions, completions. -/
def HostIf.noWork (h : HostIf) : HostIf :=
  { h with rings := [], slots := [], mem := [], vecs := [], fifo := [], evp := 0, evd := 0, evl := 0, lossQ := [], evWait := [], open_ := [], cplWait := [], svcOut := [], cmp := 0, crit := [], critWait := [], order := [] }

theorem noWork_pcie {a b : HostIf} (h : a.noWork = b.noWork) : a.pcie = b.pcie := (congrArg HostIf.pcie h :)
theorem noWork_run {a b : HostIf} (h : a.noWork = b.noWork) : a.run = b.run := (congrArg HostIf.run h :)
theorem noWork_mirror {a b : HostIf} (h : a.noWork = b.noWork) : a.mirror = b.mirror := (congrArg HostIf.mirror h :)
theorem noWork_seterr {a b : HostIf} (h : a.noWork = b.noWork) : a.seterr = b.seterr := (congrArg HostIf.seterr h :)
theorem noWork_invcause {a b : HostIf} (h : a.noWork = b.noWork) : a.invcause = b.invcause := (congrArg HostIf.invcause h :)
theorem noWork_lspeed {a b : HostIf} (h : a.noWork = b.noWork) : a.lspeed = b.lspeed := (congrArg HostIf.lspeed h :)
theorem noWork_lwidth {a b : HostIf} (h : a.noWork = b.noWork) : a.lwidth = b.lwidth := (congrArg HostIf.lwidth h :)
theorem noWork_valid {a b : HostIf} (h : a.noWork = b.noWork) : a.valid = b.valid := (congrArg HostIf.valid h :)
theorem noWork_busMaster {a b : HostIf} (h : a.noWork = b.noWork) : a.busMaster = b.busMaster := (congrArg HostIf.busMaster h :)
theorem noWork_mirl {a b : HostIf} (h : a.noWork = b.noWork) : a.mirl = b.mirl := (congrArg HostIf.mirl h :)
theorem noWork_mirh {a b : HostIf} (h : a.noWork = b.noWork) : a.mirh = b.mirh := (congrArg HostIf.mirh h :)
theorem noWork_headl {a b : HostIf} (h : a.noWork = b.noWork) : a.headl = b.headl := (congrArg HostIf.headl h :)
theorem noWork_headh {a b : HostIf} (h : a.noWork = b.noWork) : a.headh = b.headh := (congrArg HostIf.headh h :)
theorem noWork_acc {a b : HostIf} (h : a.noWork = b.noWork) : a.acc = b.acc := (congrArg HostIf.acc h :)
theorem noWork_latCmp {a b : HostIf} (h : a.noWork = b.noWork) : a.latCmp = b.latCmp := (congrArg HostIf.latCmp h :)
theorem noWork_latOut {a b : HostIf} (h : a.noWork = b.noWork) : a.latOut = b.latOut := (congrArg HostIf.latOut h :)
theorem noWork_latEvd {a b : HostIf} (h : a.noWork = b.noWork) : a.latEvd = b.latEvd := (congrArg HostIf.latEvd h :)
theorem noWork_latEvl {a b : HostIf} (h : a.noWork = b.noWork) : a.latEvl = b.latEvl := (congrArg HostIf.latEvl h :)
theorem noWork_discN {a b : HostIf} (h : a.noWork = b.noWork) : a.discN = b.discN := (congrArg HostIf.discN h :)
theorem noWork_resetN {a b : HostIf} (h : a.noWork = b.noWork) : a.resetN = b.resetN := (congrArg HostIf.resetN h :)
theorem noWork_resetTold {a b : HostIf} (h : a.noWork = b.noWork) : a.resetTold = b.resetTold := (congrArg HostIf.resetTold h :)
theorem noWork_head {a b : HostIf} (h : a.noWork = b.noWork) : a.head = b.head := (congrArg HostIf.head h :)
theorem noWork_route {a b : HostIf} (h : a.noWork = b.noWork) : a.route = b.route := (congrArg HostIf.route h :)
theorem noWork_waiting {a b : HostIf} (h : a.noWork = b.noWork) : a.waiting = b.waiting := (congrArg HostIf.waiting h :)
theorem noWork_cycleSubs {a b : HostIf} (h : a.noWork = b.noWork) : a.cycleSubs = b.cycleSubs := (congrArg HostIf.cycleSubs h :)
theorem noWork_cycleAt {a b : HostIf} (h : a.noWork = b.noWork) : a.cycleAt = b.cycleAt := (congrArg HostIf.cycleAt h :)
theorem noWork_dfifo {a b : HostIf} (h : a.noWork = b.noWork) : a.dfifo = b.dfifo := (congrArg HostIf.dfifo h :)
theorem noWork_mscn {a b : HostIf} (h : a.noWork = b.noWork) : a.mscn = b.mscn := (congrArg HostIf.mscn h :)
theorem noWork_mirrorMode {a b : HostIf} (h : a.noWork = b.noWork) : a.mirrorMode = b.mirrorMode := (congrArg HostIf.mirrorMode h :)
theorem noWork_mirrorVset {a b : HostIf} (h : a.noWork = b.noWork) : a.mirrorVset = b.mirrorVset := (congrArg HostIf.mirrorVset h :)
theorem noWork_mirrorMfl {a b : HostIf} (h : a.noWork = b.noWork) : a.mirrorMfl = b.mirrorMfl := (congrArg HostIf.mirrorMfl h :)
theorem noWork_skipAt {a b : HostIf} (h : a.noWork = b.noWork) : a.skipAt = b.skipAt := (congrArg HostIf.skipAt h :)
theorem noWork_half0 {a b : HostIf} (h : a.noWork = b.noWork) : a.half0 = b.half0 := (congrArg HostIf.half0 h :)
theorem noWork_half1 {a b : HostIf} (h : a.noWork = b.noWork) : a.half1 = b.half1 := (congrArg HostIf.half1 h :)
theorem noWork_mirrorBuild {a b : HostIf} (h : a.noWork = b.noWork) : a.mirrorBuild = b.mirrorBuild := (congrArg HostIf.mirrorBuild h :)
theorem noWork_mirrorStn {a b : HostIf} (h : a.noWork = b.noWork) : a.mirrorStn = b.mirrorStn := (congrArg HostIf.mirrorStn h :)
theorem noWork_readData {a b : HostIf} (h : a.noWork = b.noWork) : a.readData = b.readData := (congrArg HostIf.readData h :)

theorem noTold_noWork {a b : HostIf} (h : a.noTold = b.noTold) : a.noWork = b.noWork :=
  congrArg (fun x : HostIf => { x with open_ := [], cplWait := [], svcOut := [], cmp := 0, crit := [], critWait := [], order := [] }) h
theorem noDone_noWork {a b : HostIf} (h : a.noDone = b.noDone) : a.noWork = b.noWork :=
  congrArg (fun x : HostIf => { x with evWait := [], svcOut := [], cmp := 0, crit := [], critWait := [], order := [] }) h
theorem noOut_noWork {a b : HostIf} (h : a.noOut = b.noOut) : a.noWork = b.noWork := noTold_noWork (noOut_noTold h)

@[simp] theorem ringWrite_host_noWork (i : Nat) (mk : Bool → RingEntry) : (ringWrite i mk m).host.noWork = m.host.noWork := noOut_noWork (ringWrite_host_noOut m i mk)
@[simp] theorem updRing_host_noWork (i : Nat) (f : Ring → Ring) : (updRing i f m).host.noWork = m.host.noWork := noOut_noWork (updRing_host_noOut m i f)
@[simp] theorem produce_host_noWork (e : Event) : (produce e m).host.noWork = m.host.noWork := noOut_noWork (produce_host_noOut m e)
@[simp] theorem raise_host_noWork (code : Nat) (x : EvArgs) : (raise code x m).host.noWork = m.host.noWork := noTold_noWork (raise_host_noTold m code x)
@[simp] theorem complete_host_noWork (a : Accepted) (code detail : Nat) : (complete a code detail m).host.noWork = m.host.noWork := noDone_noWork (complete_host_noDone m a code detail)
@[simp] theorem fireVector_host_noWork (v : Nat) : (fireVector v m).host.noWork = m.host.noWork := noOut_noWork (fireVector_host_noOut m v)
@[simp] theorem closeAccepted_host_noWork (a : Accepted) : (closeAccepted a m).host.noWork = m.host.noWork := rfl
@[simp] theorem outOfOrder_host_noWork (src : SubSrc) (c : Cpl) : (outOfOrder src c m).host.noWork = m.host.noWork := rfl
@[simp] theorem waitCpl_host_noWork (src : SubSrc) (c : Cpl) : (waitCpl src c m).host.noWork = m.host.noWork := rfl
@[simp] theorem writeCpl_host_noWork (src : SubSrc) (c : Cpl) : (writeCpl src c m).host.noWork = m.host.noWork := noDone_noWork (writeCpl_host_noDone m src c)
@[simp] theorem completeNow_host_noWork (a : Accepted) (code detail : Nat) : (completeNow a code detail m).host.noWork = m.host.noWork := by
  unfold completeNow; split
  · rw [writeCpl_host_noWork, closeAccepted_host_noWork]
  · rfl
@[simp] theorem flushCpls_host_noWork : (flushCpls m).host.noWork = m.host.noWork := by
  refine (forEach_keeps _ (fun n => n.host.noWork) _ _ (fun p n => ?_)).trans rfl
  split <;> (repeat' split) <;> simp
@[simp] theorem flushEvents_host_noWork : (flushEvents m).host.noWork = m.host.noWork := (forEach_keeps _ (fun n => n.host.noWork) _ _ (fun e n => produce_host_noWork n e)).trans rfl
@[simp] theorem storeRecord_host_noWork (r : Record) : (storeRecord r m).host.noWork = m.host.noWork := by
  unfold storeRecord onlyIf; dsimp only; split <;> simp
@[simp] theorem flushDirty_host_noWork : (flushDirty m).host.noWork = m.host.noWork := by
  unfold flushDirty; split
  · rfl
  · exact (forEach_keeps _ (fun n => n.host.noWork) _ _ (fun r n => storeRecord_host_noWork n r)).trans rfl
@[simp] theorem lossRecord_host_noWork (src reason : Nat) (first : W32) (n : Nat) : (lossRecord src reason first n m).host.noWork = m.host.noWork := by
  unfold lossRecord; simp
@[simp] theorem recorderFails_host_noWork : (recorderFails m).host.noWork = m.host.noWork := by
  unfold recorderFails; split <;> simp
@[simp] theorem feCvu_host_noWork (first : Nat) (x : CvUnit) : (feCvu first x m).host.noWork = m.host.noWork := by
  unfold feCvu feUnit leaveCvu onlyIf takeFree; dsimp only; (repeat' split) <;> simp
@[simp] theorem readBack_host_noWork (bad : Bool) (d : Dirty) : (readBack bad d m).host.noWork = m.host.noWork := by
  unfold readBack takeFree; dsimp only; split <;> simp
@[simp] theorem checkPages_host_noWork (bad : Nat) (ds : List Dirty) : (checkPages bad ds m).host.noWork = m.host.noWork := forEach_keeps _ (fun n => n.host.noWork) _ _ (fun _ n => readBack_host_noWork n _ _)
@[simp] theorem flushRead_host_noWork : (flushRead m).host.noWork = m.host.noWork := by
  unfold flushRead takeFree; dsimp only; split <;> simp
@[simp] theorem powerFailFlush_host_noWork : (powerFailFlush m).host.noWork = m.host.noWork := by
  unfold powerFailFlush; dsimp only; split <;> simp
@[simp] theorem endHostTx_host_noWork (n buf code detail : Nat) : (endHostTx n buf code detail m).host.noWork = m.host.noWork := by
  unfold endHostTx; dsimp only; (repeat' split) <;> simp
@[simp] theorem abortVital_host_noWork (n num reason : Nat) : (abortVital n num reason m).host.noWork = m.host.noWork := by
  unfold abortVital; dsimp only; (repeat' split) <;> simp
@[simp] theorem abortChannel_host_noWork (n reason : Nat) (started : Bool) : (abortChannel n reason started m).host.noWork = m.host.noWork := by
  unfold abortChannel
  refine (forEach_keeps _ (fun n => n.host.noWork) _ _ (fun b x => ?_)).trans (forEach_keeps _ (fun n => n.host.noWork) _ _ (fun b x => ?_)) <;> simp
@[simp] theorem endSession_host_noWork : (endSession m).host.noWork = m.host.noWork := by
  unfold endSession; split <;> simp
@[simp] theorem endHostSession_host_noWork : (endHostSession m).host.noWork = m.host.noWork := by
  unfold endHostSession; (repeat' split) <;> simp
@[simp] theorem abandonActivation_host_noWork (reason : Nat) : (abandonActivation reason m).host.noWork = m.host.noWork := by
  unfold abandonActivation; split <;> simp
@[simp] theorem abandonOc_host_noWork (reason : Nat) : (abandonOc reason m).host.noWork = m.host.noWork := by
  unfold abandonOc; dsimp only; split <;> simp
@[simp] theorem refuseOpen_host_noWork : (refuseOpen m).host.noWork = m.host.noWork := forEach_keeps _ (fun n => n.host.noWork) _ _ (fun a n => complete_host_noWork n a _ _)
@[simp] theorem writeRetain_host_noWork (l : LaneId) : (writeRetain l m).host.noWork = m.host.noWork := by
  unfold writeRetain; dsimp only; (repeat' split) <;> simp
@[simp] theorem writeRetains_host_noWork : (writeRetains m).host.noWork = m.host.noWork := forEach_keeps _ (fun n => n.host.noWork) _ _ (fun l n => writeRetain_host_noWork n l)
@[simp] theorem endOpen_host_noWork : (endOpen m).host.noWork = m.host.noWork := by
  have h : ∀ x : Mod, (forEach (List.range 4) (fun c acc => abortChannel c 3 false (openStarts c acc)) x).host.noWork = x.host.noWork := fun x =>
    forEach_keeps x (fun n => n.host.noWork) _ _ (fun c n => by simp)
  unfold endOpen; rw [flushCpls_host_noWork, h, refuseOpen_host_noWork]
@[simp] theorem haltEnd_host_noWork : (haltEnd m).host.noWork = m.host.noWork := by
  unfold haltEnd; dsimp only
  rw [stopStrideAt_host, updMd_host, endOpen_host_noWork]; rfl
@[simp] theorem haltTail_host_noWork (cause prev : Nat) : (haltTail cause prev m).host.noWork = m.host.noWork := by
  unfold haltTail; simp
@[simp] theorem tellVote_host_noWork (cause : Nat) : (tellVote cause m).host.noWork = m.host.noWork := by
  unfold tellVote; rw [raise_host_noWork]
  exact forEach_keeps m (fun n => n.host.noWork) _ _ (fun l n => by unfold tellFault; dsimp only; (repeat' split) <;> simp)
@[simp] theorem enterHalt_host_noWork (cause : Nat) : (enterHalt cause m).host.noWork = m.host.noWork := by
  by_cases h1 : m.md.mode = .halt
  · rw [enterHalt_again m cause (Or.inl h1)]
  · by_cases h2 : m.md.mode = .recovery
    · rw [enterHalt_again m cause (Or.inr h2)]
    · rw [enterHalt_eq m cause h1 h2, haltTail_host_noWork, haltEnd_host_noWork]
      simp [haltHead]
@[simp] theorem enterHalt_host_run (cause : Nat) : (enterHalt cause m).host.run = m.host.run := noWork_run (enterHalt_host_noWork m cause)
@[simp] theorem enterHalt_host_valid (cause : Nat) : (enterHalt cause m).host.valid = m.host.valid := noWork_valid (enterHalt_host_noWork m cause)
@[simp] theorem enterHalt_host_busMaster (cause : Nat) : (enterHalt cause m).host.busMaster = m.host.busMaster := noWork_busMaster (enterHalt_host_noWork m cause)
@[simp] theorem enterHalt_host_route (cause : Nat) : (enterHalt cause m).host.route = m.host.route := noWork_route (enterHalt_host_noWork m cause)
@[simp] theorem enterHalt_host_waiting (cause : Nat) : (enterHalt cause m).host.waiting = m.host.waiting := noWork_waiting (enterHalt_host_noWork m cause)
@[simp] theorem enterHalt_host_headl (cause : Nat) : (enterHalt cause m).host.headl = m.host.headl := noWork_headl (enterHalt_host_noWork m cause)
@[simp] theorem enterHalt_host_headh (cause : Nat) : (enterHalt cause m).host.headh = m.host.headh := noWork_headh (enterHalt_host_noWork m cause)
@[simp] theorem enterHalt_host_mirl (cause : Nat) : (enterHalt cause m).host.mirl = m.host.mirl := noWork_mirl (enterHalt_host_noWork m cause)
@[simp] theorem enterHalt_host_mirh (cause : Nat) : (enterHalt cause m).host.mirh = m.host.mirh := noWork_mirh (enterHalt_host_noWork m cause)
@[simp] theorem enterHalt_host_resetN (cause : Nat) : (enterHalt cause m).host.resetN = m.host.resetN := noWork_resetN (enterHalt_host_noWork m cause)
@[simp] theorem enterHalt_host_discN (cause : Nat) : (enterHalt cause m).host.discN = m.host.discN := noWork_discN (enterHalt_host_noWork m cause)

@[simp] theorem haltByVote_host_noWork (cause : Nat) : (haltByVote cause m).host.noWork = m.host.noWork := by
  by_cases h1 : m.md.mode = .halt
  · rw [haltByVote_again m cause (Or.inl h1)]
  · by_cases h2 : m.md.mode = .recovery
    · rw [haltByVote_again m cause (Or.inr h2)]
    · rw [haltByVote_eq m cause h1 h2, haltTail_host_noWork, tellVote_host_noWork, haltEnd_host_noWork]
      simp [haltHead]
@[simp] theorem retire_ln : (retire m).ln = m.ln := by
  unfold retire onlyIf; split <;> simp
@[simp] theorem retire_host_noWork : (retire m).host.noWork = m.host.noWork := by
  unfold retire onlyIf; split <;> simp
@[simp] theorem alarm_host_noWork (trig lvl : Nat) : (alarm trig lvl m).host.noWork = m.host.noWork := by
  unfold alarm; dsimp only; (repeat' split) <;> simp
@[simp] theorem alarmAll_host_noWork (trig : Nat) : (alarmAll trig m).host.noWork = m.host.noWork := by
  have h : ∀ (k : Nat) (x : Mod), (forEach allLanes (laneAlarm k) x).host = x.host := fun k x =>
    forEach_keeps x Mod.host _ _ (fun l n => by simp)
  unfold alarmAll; dsimp only; rw [alarm_host_noWork, h]
@[simp] theorem alarmAll_host_run (trig : Nat) : (alarmAll trig m).host.run = m.host.run := noWork_run (alarmAll_host_noWork m trig)
@[simp] theorem alarmAll_host_valid (trig : Nat) : (alarmAll trig m).host.valid = m.host.valid := noWork_valid (alarmAll_host_noWork m trig)
@[simp] theorem alarmAll_host_busMaster (trig : Nat) : (alarmAll trig m).host.busMaster = m.host.busMaster := noWork_busMaster (alarmAll_host_noWork m trig)
@[simp] theorem alarmAll_host_route (trig : Nat) : (alarmAll trig m).host.route = m.host.route := noWork_route (alarmAll_host_noWork m trig)
@[simp] theorem alarmAll_host_waiting (trig : Nat) : (alarmAll trig m).host.waiting = m.host.waiting := noWork_waiting (alarmAll_host_noWork m trig)
@[simp] theorem alarmAll_host_headl (trig : Nat) : (alarmAll trig m).host.headl = m.host.headl := noWork_headl (alarmAll_host_noWork m trig)
@[simp] theorem alarmAll_host_headh (trig : Nat) : (alarmAll trig m).host.headh = m.host.headh := noWork_headh (alarmAll_host_noWork m trig)
@[simp] theorem alarmAll_host_mirl (trig : Nat) : (alarmAll trig m).host.mirl = m.host.mirl := noWork_mirl (alarmAll_host_noWork m trig)
@[simp] theorem alarmAll_host_mirh (trig : Nat) : (alarmAll trig m).host.mirh = m.host.mirh := noWork_mirh (alarmAll_host_noWork m trig)
@[simp] theorem alarmAll_host_resetN (trig : Nat) : (alarmAll trig m).host.resetN = m.host.resetN := noWork_resetN (alarmAll_host_noWork m trig)
@[simp] theorem alarmAll_host_discN (trig : Nat) : (alarmAll trig m).host.discN = m.host.discN := noWork_discN (alarmAll_host_noWork m trig)

@[simp] theorem seenAlarms_host_noWork : (seenAlarms m).host.noWork = m.host.noWork := by
  unfold seenAlarms; dsimp only
  exact (forEach_keeps _ (fun n => n.host.noWork) _ _ (fun t n => alarmAll_host_noWork n t)).trans (by simp)
@[simp] theorem fellBack_host_noWork (i reason lanes : Nat) : (fellBack i reason lanes m).host.noWork = m.host.noWork := by
  unfold fellBack; simp
@[simp] theorem selectPart_host_noWork (i : Nat) : (selectPart i m).host.noWork = m.host.noWork := by
  unfold selectPart; dsimp only; (repeat' split) <;> simp
@[simp] theorem selectNet_host_noWork : (selectNet m).host.noWork = m.host.noWork := by
  unfold selectNet; split <;> simp
@[simp] theorem selectBanks_host_noWork : (selectBanks m).host.noWork = m.host.noWork := (selectNet_host_noWork _).trans (forEach_keeps _ (fun n => n.host.noWork) _ _ (fun i n => selectPart_host_noWork n i))
@[simp] theorem selectBanks_host_run : (selectBanks m).host.run = m.host.run := noWork_run (selectBanks_host_noWork m)
@[simp] theorem selectBanks_host_valid : (selectBanks m).host.valid = m.host.valid := noWork_valid (selectBanks_host_noWork m)
@[simp] theorem selectBanks_host_busMaster : (selectBanks m).host.busMaster = m.host.busMaster := noWork_busMaster (selectBanks_host_noWork m)
@[simp] theorem selectBanks_host_route : (selectBanks m).host.route = m.host.route := noWork_route (selectBanks_host_noWork m)
@[simp] theorem selectBanks_host_waiting : (selectBanks m).host.waiting = m.host.waiting := noWork_waiting (selectBanks_host_noWork m)
@[simp] theorem selectBanks_host_headl : (selectBanks m).host.headl = m.host.headl := noWork_headl (selectBanks_host_noWork m)
@[simp] theorem selectBanks_host_headh : (selectBanks m).host.headh = m.host.headh := noWork_headh (selectBanks_host_noWork m)
@[simp] theorem selectBanks_host_mirl : (selectBanks m).host.mirl = m.host.mirl := noWork_mirl (selectBanks_host_noWork m)
@[simp] theorem selectBanks_host_mirh : (selectBanks m).host.mirh = m.host.mirh := noWork_mirh (selectBanks_host_noWork m)
@[simp] theorem selectBanks_host_resetN : (selectBanks m).host.resetN = m.host.resetN := noWork_resetN (selectBanks_host_noWork m)
@[simp] theorem selectBanks_host_discN : (selectBanks m).host.discN = m.host.discN := noWork_discN (selectBanks_host_noWork m)

@[simp] theorem openRecorder_host_noWork (powerOn : Bool) (geo : BitVec 4) : (openRecorder powerOn geo m).host.noWork = m.host.noWork := by
  unfold openRecorder; dsimp only; split
  · simp
  · refine (forEach_keeps _ (fun n => n.host.noWork) _ _ (fun s n => ?_)).trans (by simp)
    (repeat' split) <;> simp
@[simp] theorem startStep1_host_noWork (powerOn : Bool) (prev : Nat) (env : StartEnv) : (startStep1 powerOn prev env m).host.noWork = m.host.noWork := by
  have h : ∀ (c : Bool) (g : Mod → Mod) (x : Mod), (g x).host.noWork = x.host.noWork → (onlyIf c g x).host.noWork = x.host.noWork :=
    fun c g x hx => onlyIf_keeps x (fun n => n.host.noWork) c g hx
  unfold startStep1; dsimp only
  rw [h _ _ _ (by simp), h _ _ _ (by simp), h _ _ _ (by simp), updRcd_host, h _ _ _ (by simp)]; simp
@[simp] theorem planLane_host_noWork (env : StartEnv) (l : LaneId) : (planLane env l m).host.noWork = m.host.noWork := by
  unfold planLane onlyIf; dsimp only; split <;> simp
@[simp] theorem tellBist_host_noWork (failed : List LaneId) (numbers : List Nat) (floor : Nat) : (tellBist failed numbers floor m).host.noWork = m.host.noWork := by
  unfold tellBist
  refine (forEach_keeps _ (fun n => n.host.noWork) _ _ (fun _ n => ?_)).trans (forEach_keeps _ (fun n => n.host.noWork) _ _ (fun _ n => ?_)) <;> simp
@[simp] theorem startStep2_host_noWork (env : StartEnv) : (startStep2 env m).host.noWork = m.host.noWork := by
  have h3 : ∀ (x : Mod), (forEach allLanes (planLane env) x).host.noWork = x.host.noWork := fun x =>
    forEach_keeps x (fun n => n.host.noWork) _ _ (fun _ n => by simp)
  unfold startStep2; dsimp only; (repeat' split) <;> simp [h3]
@[simp] theorem holdOut_host_noWork : (holdOut m).host.noWork = m.host.noWork := by
  unfold holdOut; dsimp only
  refine (forEach_keeps _ (fun n => n.host.noWork) _ _ (fun l n => ?_)).trans (forEach_keeps _ (fun n => n.host.noWork) _ _ (fun l n => ?_)) <;> simp
@[simp] theorem agreeLifecycle_host_noWork (passing : List LaneId) : (agreeLifecycle passing m).host.noWork = m.host.noWork := by
  unfold agreeLifecycle; dsimp only
  exact (onlyIf_keeps _ (fun n => n.host.noWork) _ _ (by simp)).trans rfl
@[simp] theorem startMigrate_host_noWork (env : StartEnv) : (startMigrate env m).host.noWork = m.host.noWork := by
  have k : (migrate env m).2.2.host = m.host := noNvLn_host (migrate_keeps m env)
  unfold startMigrate; dsimp only; split
  · rw [← k]; generalize (migrate env m).2.2 = x; simp [migrationFails]
  · rw [← k]; generalize (migrate env m).2.2 = x; simp
@[simp] theorem startLifecycle_host_noWork (env : StartEnv) (passing : List LaneId) : (startLifecycle env passing m).host.noWork = m.host.noWork := by
  unfold startLifecycle; dsimp only; (repeat' split) <;> simp
@[simp] theorem startStep3_host_noWork (env : StartEnv) : (startStep3 env m).host.noWork = m.host.noWork := by
  unfold startStep3; dsimp only; (repeat' split) <;> simp
@[simp] theorem enterRecovery_host_noWork (powerOn : Bool) (prev : Nat) (env : StartEnv) : (enterRecovery powerOn prev env m).host.noWork = m.host.noWork := by
  unfold enterRecovery onlyIf; split <;> simp
@[simp] theorem openRecorder_host_run (powerOn : Bool) (geo : BitVec 4) : (openRecorder powerOn geo m).host.run = m.host.run := noWork_run (openRecorder_host_noWork m powerOn geo)
@[simp] theorem openRecorder_host_valid (powerOn : Bool) (geo : BitVec 4) : (openRecorder powerOn geo m).host.valid = m.host.valid := noWork_valid (openRecorder_host_noWork m powerOn geo)
@[simp] theorem openRecorder_host_busMaster (powerOn : Bool) (geo : BitVec 4) : (openRecorder powerOn geo m).host.busMaster = m.host.busMaster := noWork_busMaster (openRecorder_host_noWork m powerOn geo)
@[simp] theorem openRecorder_host_route (powerOn : Bool) (geo : BitVec 4) : (openRecorder powerOn geo m).host.route = m.host.route := noWork_route (openRecorder_host_noWork m powerOn geo)
@[simp] theorem openRecorder_host_waiting (powerOn : Bool) (geo : BitVec 4) : (openRecorder powerOn geo m).host.waiting = m.host.waiting := noWork_waiting (openRecorder_host_noWork m powerOn geo)
@[simp] theorem openRecorder_host_headl (powerOn : Bool) (geo : BitVec 4) : (openRecorder powerOn geo m).host.headl = m.host.headl := noWork_headl (openRecorder_host_noWork m powerOn geo)
@[simp] theorem openRecorder_host_headh (powerOn : Bool) (geo : BitVec 4) : (openRecorder powerOn geo m).host.headh = m.host.headh := noWork_headh (openRecorder_host_noWork m powerOn geo)
@[simp] theorem openRecorder_host_mirl (powerOn : Bool) (geo : BitVec 4) : (openRecorder powerOn geo m).host.mirl = m.host.mirl := noWork_mirl (openRecorder_host_noWork m powerOn geo)
@[simp] theorem openRecorder_host_mirh (powerOn : Bool) (geo : BitVec 4) : (openRecorder powerOn geo m).host.mirh = m.host.mirh := noWork_mirh (openRecorder_host_noWork m powerOn geo)
@[simp] theorem openRecorder_host_resetN (powerOn : Bool) (geo : BitVec 4) : (openRecorder powerOn geo m).host.resetN = m.host.resetN := noWork_resetN (openRecorder_host_noWork m powerOn geo)
@[simp] theorem openRecorder_host_discN (powerOn : Bool) (geo : BitVec 4) : (openRecorder powerOn geo m).host.discN = m.host.discN := noWork_discN (openRecorder_host_noWork m powerOn geo)

@[simp] theorem startStep1_host_run (powerOn : Bool) (prev : Nat) (env : StartEnv) : (startStep1 powerOn prev env m).host.run = m.host.run := noWork_run (startStep1_host_noWork m powerOn prev env)
@[simp] theorem startStep1_host_valid (powerOn : Bool) (prev : Nat) (env : StartEnv) : (startStep1 powerOn prev env m).host.valid = m.host.valid := noWork_valid (startStep1_host_noWork m powerOn prev env)
@[simp] theorem startStep1_host_busMaster (powerOn : Bool) (prev : Nat) (env : StartEnv) : (startStep1 powerOn prev env m).host.busMaster = m.host.busMaster := noWork_busMaster (startStep1_host_noWork m powerOn prev env)
@[simp] theorem startStep1_host_route (powerOn : Bool) (prev : Nat) (env : StartEnv) : (startStep1 powerOn prev env m).host.route = m.host.route := noWork_route (startStep1_host_noWork m powerOn prev env)
@[simp] theorem startStep1_host_waiting (powerOn : Bool) (prev : Nat) (env : StartEnv) : (startStep1 powerOn prev env m).host.waiting = m.host.waiting := noWork_waiting (startStep1_host_noWork m powerOn prev env)
@[simp] theorem startStep1_host_headl (powerOn : Bool) (prev : Nat) (env : StartEnv) : (startStep1 powerOn prev env m).host.headl = m.host.headl := noWork_headl (startStep1_host_noWork m powerOn prev env)
@[simp] theorem startStep1_host_headh (powerOn : Bool) (prev : Nat) (env : StartEnv) : (startStep1 powerOn prev env m).host.headh = m.host.headh := noWork_headh (startStep1_host_noWork m powerOn prev env)
@[simp] theorem startStep1_host_mirl (powerOn : Bool) (prev : Nat) (env : StartEnv) : (startStep1 powerOn prev env m).host.mirl = m.host.mirl := noWork_mirl (startStep1_host_noWork m powerOn prev env)
@[simp] theorem startStep1_host_mirh (powerOn : Bool) (prev : Nat) (env : StartEnv) : (startStep1 powerOn prev env m).host.mirh = m.host.mirh := noWork_mirh (startStep1_host_noWork m powerOn prev env)
@[simp] theorem startStep1_host_resetN (powerOn : Bool) (prev : Nat) (env : StartEnv) : (startStep1 powerOn prev env m).host.resetN = m.host.resetN := noWork_resetN (startStep1_host_noWork m powerOn prev env)
@[simp] theorem startStep1_host_discN (powerOn : Bool) (prev : Nat) (env : StartEnv) : (startStep1 powerOn prev env m).host.discN = m.host.discN := noWork_discN (startStep1_host_noWork m powerOn prev env)

@[simp] theorem startStep2_host_run (env : StartEnv) : (startStep2 env m).host.run = m.host.run := noWork_run (startStep2_host_noWork m env)
@[simp] theorem startStep2_host_valid (env : StartEnv) : (startStep2 env m).host.valid = m.host.valid := noWork_valid (startStep2_host_noWork m env)
@[simp] theorem startStep2_host_busMaster (env : StartEnv) : (startStep2 env m).host.busMaster = m.host.busMaster := noWork_busMaster (startStep2_host_noWork m env)
@[simp] theorem startStep2_host_route (env : StartEnv) : (startStep2 env m).host.route = m.host.route := noWork_route (startStep2_host_noWork m env)
@[simp] theorem startStep2_host_waiting (env : StartEnv) : (startStep2 env m).host.waiting = m.host.waiting := noWork_waiting (startStep2_host_noWork m env)
@[simp] theorem startStep2_host_headl (env : StartEnv) : (startStep2 env m).host.headl = m.host.headl := noWork_headl (startStep2_host_noWork m env)
@[simp] theorem startStep2_host_headh (env : StartEnv) : (startStep2 env m).host.headh = m.host.headh := noWork_headh (startStep2_host_noWork m env)
@[simp] theorem startStep2_host_mirl (env : StartEnv) : (startStep2 env m).host.mirl = m.host.mirl := noWork_mirl (startStep2_host_noWork m env)
@[simp] theorem startStep2_host_mirh (env : StartEnv) : (startStep2 env m).host.mirh = m.host.mirh := noWork_mirh (startStep2_host_noWork m env)
@[simp] theorem startStep2_host_resetN (env : StartEnv) : (startStep2 env m).host.resetN = m.host.resetN := noWork_resetN (startStep2_host_noWork m env)
@[simp] theorem startStep2_host_discN (env : StartEnv) : (startStep2 env m).host.discN = m.host.discN := noWork_discN (startStep2_host_noWork m env)

@[simp] theorem startStep3_host_run (env : StartEnv) : (startStep3 env m).host.run = m.host.run := noWork_run (startStep3_host_noWork m env)
@[simp] theorem startStep3_host_valid (env : StartEnv) : (startStep3 env m).host.valid = m.host.valid := noWork_valid (startStep3_host_noWork m env)
@[simp] theorem startStep3_host_busMaster (env : StartEnv) : (startStep3 env m).host.busMaster = m.host.busMaster := noWork_busMaster (startStep3_host_noWork m env)
@[simp] theorem startStep3_host_route (env : StartEnv) : (startStep3 env m).host.route = m.host.route := noWork_route (startStep3_host_noWork m env)
@[simp] theorem startStep3_host_waiting (env : StartEnv) : (startStep3 env m).host.waiting = m.host.waiting := noWork_waiting (startStep3_host_noWork m env)
@[simp] theorem startStep3_host_headl (env : StartEnv) : (startStep3 env m).host.headl = m.host.headl := noWork_headl (startStep3_host_noWork m env)
@[simp] theorem startStep3_host_headh (env : StartEnv) : (startStep3 env m).host.headh = m.host.headh := noWork_headh (startStep3_host_noWork m env)
@[simp] theorem startStep3_host_mirl (env : StartEnv) : (startStep3 env m).host.mirl = m.host.mirl := noWork_mirl (startStep3_host_noWork m env)
@[simp] theorem startStep3_host_mirh (env : StartEnv) : (startStep3 env m).host.mirh = m.host.mirh := noWork_mirh (startStep3_host_noWork m env)
@[simp] theorem startStep3_host_resetN (env : StartEnv) : (startStep3 env m).host.resetN = m.host.resetN := noWork_resetN (startStep3_host_noWork m env)
@[simp] theorem startStep3_host_discN (env : StartEnv) : (startStep3 env m).host.discN = m.host.discN := noWork_discN (startStep3_host_noWork m env)

@[simp] theorem enterRecovery_host_run (powerOn : Bool) (prev : Nat) (env : StartEnv) : (enterRecovery powerOn prev env m).host.run = m.host.run := noWork_run (enterRecovery_host_noWork m powerOn prev env)
@[simp] theorem enterRecovery_host_valid (powerOn : Bool) (prev : Nat) (env : StartEnv) : (enterRecovery powerOn prev env m).host.valid = m.host.valid := noWork_valid (enterRecovery_host_noWork m powerOn prev env)
@[simp] theorem enterRecovery_host_busMaster (powerOn : Bool) (prev : Nat) (env : StartEnv) : (enterRecovery powerOn prev env m).host.busMaster = m.host.busMaster := noWork_busMaster (enterRecovery_host_noWork m powerOn prev env)
@[simp] theorem enterRecovery_host_route (powerOn : Bool) (prev : Nat) (env : StartEnv) : (enterRecovery powerOn prev env m).host.route = m.host.route := noWork_route (enterRecovery_host_noWork m powerOn prev env)
@[simp] theorem enterRecovery_host_waiting (powerOn : Bool) (prev : Nat) (env : StartEnv) : (enterRecovery powerOn prev env m).host.waiting = m.host.waiting := noWork_waiting (enterRecovery_host_noWork m powerOn prev env)
@[simp] theorem enterRecovery_host_headl (powerOn : Bool) (prev : Nat) (env : StartEnv) : (enterRecovery powerOn prev env m).host.headl = m.host.headl := noWork_headl (enterRecovery_host_noWork m powerOn prev env)
@[simp] theorem enterRecovery_host_headh (powerOn : Bool) (prev : Nat) (env : StartEnv) : (enterRecovery powerOn prev env m).host.headh = m.host.headh := noWork_headh (enterRecovery_host_noWork m powerOn prev env)
@[simp] theorem enterRecovery_host_mirl (powerOn : Bool) (prev : Nat) (env : StartEnv) : (enterRecovery powerOn prev env m).host.mirl = m.host.mirl := noWork_mirl (enterRecovery_host_noWork m powerOn prev env)
@[simp] theorem enterRecovery_host_mirh (powerOn : Bool) (prev : Nat) (env : StartEnv) : (enterRecovery powerOn prev env m).host.mirh = m.host.mirh := noWork_mirh (enterRecovery_host_noWork m powerOn prev env)
@[simp] theorem enterRecovery_host_resetN (powerOn : Bool) (prev : Nat) (env : StartEnv) : (enterRecovery powerOn prev env m).host.resetN = m.host.resetN := noWork_resetN (enterRecovery_host_noWork m powerOn prev env)
@[simp] theorem enterRecovery_host_discN (powerOn : Bool) (prev : Nat) (env : StartEnv) : (enterRecovery powerOn prev env m).host.discN = m.host.discN := noWork_discN (enterRecovery_host_noWork m powerOn prev env)


end Sys2Proof.Machine
end

