-- ==== Sys2Proof/Laws/Begin.lean ====
section
/-! SUPPORT. What the restart decision, the network start and the end of START leave alone. -/

namespace Sys2Proof.Machine

variable (m : Mod)

/-- All but en. -/
def Mod.noEn (m : Mod) : Mod :=
  { m with en := Engine.fresh }

theorem noEn_powered {a b : Mod} (h : a.noEn = b.noEn) : a.powered = b.powered := (congrArg Mod.powered h :)
theorem noEn_clk {a b : Mod} (h : a.noEn = b.noEn) : a.clk = b.clk := (congrArg Mod.clk h :)
theorem noEn_freeN {a b : Mod} (h : a.noEn = b.noEn) : a.freeN = b.freeN := (congrArg Mod.freeN h :)
theorem noEn_nv {a b : Mod} (h : a.noEn = b.noEn) : a.nv = b.nv := (congrArg Mod.nv h :)
theorem noEn_cfg {a b : Mod} (h : a.noEn = b.noEn) : a.cfg = b.cfg := (congrArg Mod.cfg h :)
theorem noEn_tm {a b : Mod} (h : a.noEn = b.noEn) : a.tm = b.tm := (congrArg Mod.tm h :)
theorem noEn_ln {a b : Mod} (h : a.noEn = b.noEn) : a.ln = b.ln := (congrArg Mod.ln h :)
theorem noEn_md {a b : Mod} (h : a.noEn = b.noEn) : a.md = b.md := (congrArg Mod.md h :)
theorem noEn_pw {a b : Mod} (h : a.noEn = b.noEn) : a.pw = b.pw := (congrArg Mod.pw h :)
theorem noEn_lg {a b : Mod} (h : a.noEn = b.noEn) : a.lg = b.lg := (congrArg Mod.lg h :)
theorem noEn_cur {a b : Mod} (h : a.noEn = b.noEn) : a.cur = b.cur := (congrArg Mod.cur h :)
theorem noEn_nxt {a b : Mod} (h : a.noEn = b.noEn) : a.nxt = b.nxt := (congrArg Mod.nxt h :)
theorem noEn_fio {a b : Mod} (h : a.noEn = b.noEn) : a.fio = b.fio := (congrArg Mod.fio h :)
theorem noEn_bt {a b : Mod} (h : a.noEn = b.noEn) : a.bt = b.bt := (congrArg Mod.bt h :)
theorem noEn_str {a b : Mod} (h : a.noEn = b.noEn) : a.str = b.str := (congrArg Mod.str h :)
theorem noEn_can {a b : Mod} (h : a.noEn = b.noEn) : a.can = b.can := (congrArg Mod.can h :)
theorem noEn_net {a b : Mod} (h : a.noEn = b.noEn) : a.net = b.net := (congrArg Mod.net h :)
theorem noEn_host {a b : Mod} (h : a.noEn = b.noEn) : a.host = b.host := (congrArg Mod.host h :)
theorem noEn_rcd {a b : Mod} (h : a.noEn = b.noEn) : a.rcd = b.rcd := (congrArg Mod.rcd h :)
theorem noEn_rc {a b : Mod} (h : a.noEn = b.noEn) : a.rc = b.rc := (congrArg Mod.rc h :)
theorem noEn_pc {a b : Mod} (h : a.noEn = b.noEn) : a.pc = b.pc := (congrArg Mod.pc h :)
theorem noEn_up {a b : Mod} (h : a.noEn = b.noEn) : a.up = b.up := (congrArg Mod.up h :)
theorem noEn_sec {a b : Mod} (h : a.noEn = b.noEn) : a.sec = b.sec := (congrArg Mod.sec h :)
theorem noEn_pr {a b : Mod} (h : a.noEn = b.noEn) : a.pr = b.pr := (congrArg Mod.pr h :)
theorem noEn_stateOut {a b : Mod} (h : a.noEn = b.noEn) : a.stateOut = b.stateOut := (congrArg Mod.stateOut h :)

@[simp] theorem coldEngine_noEn : (coldEngine m).noEn = m.noEn := by
  unfold coldEngine; simp [Mod.noEn]
@[simp] theorem coldEngine_powered : (coldEngine m).powered = m.powered := noEn_powered (coldEngine_noEn m)
@[simp] theorem coldEngine_clk : (coldEngine m).clk = m.clk := noEn_clk (coldEngine_noEn m)
@[simp] theorem coldEngine_freeN : (coldEngine m).freeN = m.freeN := noEn_freeN (coldEngine_noEn m)
@[simp] theorem coldEngine_nv : (coldEngine m).nv = m.nv := noEn_nv (coldEngine_noEn m)
@[simp] theorem coldEngine_cfg : (coldEngine m).cfg = m.cfg := noEn_cfg (coldEngine_noEn m)
@[simp] theorem coldEngine_tm : (coldEngine m).tm = m.tm := noEn_tm (coldEngine_noEn m)
@[simp] theorem coldEngine_ln : (coldEngine m).ln = m.ln := noEn_ln (coldEngine_noEn m)
@[simp] theorem coldEngine_md : (coldEngine m).md = m.md := noEn_md (coldEngine_noEn m)
@[simp] theorem coldEngine_pw : (coldEngine m).pw = m.pw := noEn_pw (coldEngine_noEn m)
@[simp] theorem coldEngine_lg : (coldEngine m).lg = m.lg := noEn_lg (coldEngine_noEn m)
@[simp] theorem coldEngine_cur : (coldEngine m).cur = m.cur := noEn_cur (coldEngine_noEn m)
@[simp] theorem coldEngine_nxt : (coldEngine m).nxt = m.nxt := noEn_nxt (coldEngine_noEn m)
@[simp] theorem coldEngine_fio : (coldEngine m).fio = m.fio := noEn_fio (coldEngine_noEn m)
@[simp] theorem coldEngine_bt : (coldEngine m).bt = m.bt := noEn_bt (coldEngine_noEn m)
@[simp] theorem coldEngine_str : (coldEngine m).str = m.str := noEn_str (coldEngine_noEn m)
@[simp] theorem coldEngine_can : (coldEngine m).can = m.can := noEn_can (coldEngine_noEn m)
@[simp] theorem coldEngine_net : (coldEngine m).net = m.net := noEn_net (coldEngine_noEn m)
@[simp] theorem coldEngine_host : (coldEngine m).host = m.host := noEn_host (coldEngine_noEn m)
@[simp] theorem coldEngine_rcd : (coldEngine m).rcd = m.rcd := noEn_rcd (coldEngine_noEn m)
@[simp] theorem coldEngine_rc : (coldEngine m).rc = m.rc := noEn_rc (coldEngine_noEn m)
@[simp] theorem coldEngine_pc : (coldEngine m).pc = m.pc := noEn_pc (coldEngine_noEn m)
@[simp] theorem coldEngine_up : (coldEngine m).up = m.up := noEn_up (coldEngine_noEn m)
@[simp] theorem coldEngine_sec : (coldEngine m).sec = m.sec := noEn_sec (coldEngine_noEn m)
@[simp] theorem coldEngine_pr : (coldEngine m).pr = m.pr := noEn_pr (coldEngine_noEn m)
@[simp] theorem coldEngine_stateOut : (coldEngine m).stateOut = m.stateOut := noEn_stateOut (coldEngine_noEn m)

/-- All but md, lg, cur, nxt, en. -/
def Mod.noMdLgCurNxtEn (m : Mod) : Mod :=
  { m with md := Modes.fresh, lg := Logic.fresh AppImage.empty, cur := [], nxt := [], en := Engine.fresh }

theorem noMdLgCurNxtEn_powered {a b : Mod} (h : a.noMdLgCurNxtEn = b.noMdLgCurNxtEn) : a.powered = b.powered := (congrArg Mod.powered h :)
theorem noMdLgCurNxtEn_clk {a b : Mod} (h : a.noMdLgCurNxtEn = b.noMdLgCurNxtEn) : a.clk = b.clk := (congrArg Mod.clk h :)
theorem noMdLgCurNxtEn_freeN {a b : Mod} (h : a.noMdLgCurNxtEn = b.noMdLgCurNxtEn) : a.freeN = b.freeN := (congrArg Mod.freeN h :)
theorem noMdLgCurNxtEn_nv {a b : Mod} (h : a.noMdLgCurNxtEn = b.noMdLgCurNxtEn) : a.nv = b.nv := (congrArg Mod.nv h :)
theorem noMdLgCurNxtEn_cfg {a b : Mod} (h : a.noMdLgCurNxtEn = b.noMdLgCurNxtEn) : a.cfg = b.cfg := (congrArg Mod.cfg h :)
theorem noMdLgCurNxtEn_tm {a b : Mod} (h : a.noMdLgCurNxtEn = b.noMdLgCurNxtEn) : a.tm = b.tm := (congrArg Mod.tm h :)
theorem noMdLgCurNxtEn_ln {a b : Mod} (h : a.noMdLgCurNxtEn = b.noMdLgCurNxtEn) : a.ln = b.ln := (congrArg Mod.ln h :)
theorem noMdLgCurNxtEn_pw {a b : Mod} (h : a.noMdLgCurNxtEn = b.noMdLgCurNxtEn) : a.pw = b.pw := (congrArg Mod.pw h :)
theorem noMdLgCurNxtEn_fio {a b : Mod} (h : a.noMdLgCurNxtEn = b.noMdLgCurNxtEn) : a.fio = b.fio := (congrArg Mod.fio h :)
theorem noMdLgCurNxtEn_bt {a b : Mod} (h : a.noMdLgCurNxtEn = b.noMdLgCurNxtEn) : a.bt = b.bt := (congrArg Mod.bt h :)
theorem noMdLgCurNxtEn_str {a b : Mod} (h : a.noMdLgCurNxtEn = b.noMdLgCurNxtEn) : a.str = b.str := (congrArg Mod.str h :)
theorem noMdLgCurNxtEn_can {a b : Mod} (h : a.noMdLgCurNxtEn = b.noMdLgCurNxtEn) : a.can = b.can := (congrArg Mod.can h :)
theorem noMdLgCurNxtEn_net {a b : Mod} (h : a.noMdLgCurNxtEn = b.noMdLgCurNxtEn) : a.net = b.net := (congrArg Mod.net h :)
theorem noMdLgCurNxtEn_host {a b : Mod} (h : a.noMdLgCurNxtEn = b.noMdLgCurNxtEn) : a.host = b.host := (congrArg Mod.host h :)
theorem noMdLgCurNxtEn_rcd {a b : Mod} (h : a.noMdLgCurNxtEn = b.noMdLgCurNxtEn) : a.rcd = b.rcd := (congrArg Mod.rcd h :)
theorem noMdLgCurNxtEn_rc {a b : Mod} (h : a.noMdLgCurNxtEn = b.noMdLgCurNxtEn) : a.rc = b.rc := (congrArg Mod.rc h :)
theorem noMdLgCurNxtEn_pc {a b : Mod} (h : a.noMdLgCurNxtEn = b.noMdLgCurNxtEn) : a.pc = b.pc := (congrArg Mod.pc h :)
theorem noMdLgCurNxtEn_up {a b : Mod} (h : a.noMdLgCurNxtEn = b.noMdLgCurNxtEn) : a.up = b.up := (congrArg Mod.up h :)
theorem noMdLgCurNxtEn_sec {a b : Mod} (h : a.noMdLgCurNxtEn = b.noMdLgCurNxtEn) : a.sec = b.sec := (congrArg Mod.sec h :)
theorem noMdLgCurNxtEn_pr {a b : Mod} (h : a.noMdLgCurNxtEn = b.noMdLgCurNxtEn) : a.pr = b.pr := (congrArg Mod.pr h :)
theorem noMdLgCurNxtEn_stateOut {a b : Mod} (h : a.noMdLgCurNxtEn = b.noMdLgCurNxtEn) : a.stateOut = b.stateOut := (congrArg Mod.stateOut h :)

@[simp] theorem coldBuild_noMdLgCurNxtEn (rs : List (LaneId × Retain)) : (coldBuild rs m).noMdLgCurNxtEn = m.noMdLgCurNxtEn := by
  unfold coldBuild; simp [Mod.noMdLgCurNxtEn]
@[simp] theorem coldBuild_powered (rs : List (LaneId × Retain)) : (coldBuild rs m).powered = m.powered := noMdLgCurNxtEn_powered (coldBuild_noMdLgCurNxtEn m rs)
@[simp] theorem coldBuild_clk (rs : List (LaneId × Retain)) : (coldBuild rs m).clk = m.clk := noMdLgCurNxtEn_clk (coldBuild_noMdLgCurNxtEn m rs)
@[simp] theorem coldBuild_freeN (rs : List (LaneId × Retain)) : (coldBuild rs m).freeN = m.freeN := noMdLgCurNxtEn_freeN (coldBuild_noMdLgCurNxtEn m rs)
@[simp] theorem coldBuild_nv (rs : List (LaneId × Retain)) : (coldBuild rs m).nv = m.nv := noMdLgCurNxtEn_nv (coldBuild_noMdLgCurNxtEn m rs)
@[simp] theorem coldBuild_cfg (rs : List (LaneId × Retain)) : (coldBuild rs m).cfg = m.cfg := noMdLgCurNxtEn_cfg (coldBuild_noMdLgCurNxtEn m rs)
@[simp] theorem coldBuild_tm (rs : List (LaneId × Retain)) : (coldBuild rs m).tm = m.tm := noMdLgCurNxtEn_tm (coldBuild_noMdLgCurNxtEn m rs)
@[simp] theorem coldBuild_ln (rs : List (LaneId × Retain)) : (coldBuild rs m).ln = m.ln := noMdLgCurNxtEn_ln (coldBuild_noMdLgCurNxtEn m rs)
@[simp] theorem coldBuild_pw (rs : List (LaneId × Retain)) : (coldBuild rs m).pw = m.pw := noMdLgCurNxtEn_pw (coldBuild_noMdLgCurNxtEn m rs)
@[simp] theorem coldBuild_fio (rs : List (LaneId × Retain)) : (coldBuild rs m).fio = m.fio := noMdLgCurNxtEn_fio (coldBuild_noMdLgCurNxtEn m rs)
@[simp] theorem coldBuild_bt (rs : List (LaneId × Retain)) : (coldBuild rs m).bt = m.bt := noMdLgCurNxtEn_bt (coldBuild_noMdLgCurNxtEn m rs)
@[simp] theorem coldBuild_str (rs : List (LaneId × Retain)) : (coldBuild rs m).str = m.str := noMdLgCurNxtEn_str (coldBuild_noMdLgCurNxtEn m rs)
@[simp] theorem coldBuild_can (rs : List (LaneId × Retain)) : (coldBuild rs m).can = m.can := noMdLgCurNxtEn_can (coldBuild_noMdLgCurNxtEn m rs)
@[simp] theorem coldBuild_net (rs : List (LaneId × Retain)) : (coldBuild rs m).net = m.net := noMdLgCurNxtEn_net (coldBuild_noMdLgCurNxtEn m rs)
@[simp] theorem coldBuild_host (rs : List (LaneId × Retain)) : (coldBuild rs m).host = m.host := noMdLgCurNxtEn_host (coldBuild_noMdLgCurNxtEn m rs)
@[simp] theorem coldBuild_rcd (rs : List (LaneId × Retain)) : (coldBuild rs m).rcd = m.rcd := noMdLgCurNxtEn_rcd (coldBuild_noMdLgCurNxtEn m rs)
@[simp] theorem coldBuild_rc (rs : List (LaneId × Retain)) : (coldBuild rs m).rc = m.rc := noMdLgCurNxtEn_rc (coldBuild_noMdLgCurNxtEn m rs)
@[simp] theorem coldBuild_pc (rs : List (LaneId × Retain)) : (coldBuild rs m).pc = m.pc := noMdLgCurNxtEn_pc (coldBuild_noMdLgCurNxtEn m rs)
@[simp] theorem coldBuild_up (rs : List (LaneId × Retain)) : (coldBuild rs m).up = m.up := noMdLgCurNxtEn_up (coldBuild_noMdLgCurNxtEn m rs)
@[simp] theorem coldBuild_sec (rs : List (LaneId × Retain)) : (coldBuild rs m).sec = m.sec := noMdLgCurNxtEn_sec (coldBuild_noMdLgCurNxtEn m rs)
@[simp] theorem coldBuild_pr (rs : List (LaneId × Retain)) : (coldBuild rs m).pr = m.pr := noMdLgCurNxtEn_pr (coldBuild_noMdLgCurNxtEn m rs)
@[simp] theorem coldBuild_stateOut (rs : List (LaneId × Retain)) : (coldBuild rs m).stateOut = m.stateOut := noMdLgCurNxtEn_stateOut (coldBuild_noMdLgCurNxtEn m rs)

@[simp] theorem sweepDue_noEn : (sweepDue m).noEn = m.noEn := by
  unfold sweepDue; simp [Mod.noEn]
@[simp] theorem sweepDue_powered : (sweepDue m).powered = m.powered := noEn_powered (sweepDue_noEn m)
@[simp] theorem sweepDue_clk : (sweepDue m).clk = m.clk := noEn_clk (sweepDue_noEn m)
@[simp] theorem sweepDue_freeN : (sweepDue m).freeN = m.freeN := noEn_freeN (sweepDue_noEn m)
@[simp] theorem sweepDue_nv : (sweepDue m).nv = m.nv := noEn_nv (sweepDue_noEn m)
@[simp] theorem sweepDue_cfg : (sweepDue m).cfg = m.cfg := noEn_cfg (sweepDue_noEn m)
@[simp] theorem sweepDue_tm : (sweepDue m).tm = m.tm := noEn_tm (sweepDue_noEn m)
@[simp] theorem sweepDue_ln : (sweepDue m).ln = m.ln := noEn_ln (sweepDue_noEn m)
@[simp] theorem sweepDue_md : (sweepDue m).md = m.md := noEn_md (sweepDue_noEn m)
@[simp] theorem sweepDue_pw : (sweepDue m).pw = m.pw := noEn_pw (sweepDue_noEn m)
@[simp] theorem sweepDue_lg : (sweepDue m).lg = m.lg := noEn_lg (sweepDue_noEn m)
@[simp] theorem sweepDue_cur : (sweepDue m).cur = m.cur := noEn_cur (sweepDue_noEn m)
@[simp] theorem sweepDue_nxt : (sweepDue m).nxt = m.nxt := noEn_nxt (sweepDue_noEn m)
@[simp] theorem sweepDue_fio : (sweepDue m).fio = m.fio := noEn_fio (sweepDue_noEn m)
@[simp] theorem sweepDue_bt : (sweepDue m).bt = m.bt := noEn_bt (sweepDue_noEn m)
@[simp] theorem sweepDue_str : (sweepDue m).str = m.str := noEn_str (sweepDue_noEn m)
@[simp] theorem sweepDue_can : (sweepDue m).can = m.can := noEn_can (sweepDue_noEn m)
@[simp] theorem sweepDue_net : (sweepDue m).net = m.net := noEn_net (sweepDue_noEn m)
@[simp] theorem sweepDue_host : (sweepDue m).host = m.host := noEn_host (sweepDue_noEn m)
@[simp] theorem sweepDue_rcd : (sweepDue m).rcd = m.rcd := noEn_rcd (sweepDue_noEn m)
@[simp] theorem sweepDue_rc : (sweepDue m).rc = m.rc := noEn_rc (sweepDue_noEn m)
@[simp] theorem sweepDue_pc : (sweepDue m).pc = m.pc := noEn_pc (sweepDue_noEn m)
@[simp] theorem sweepDue_up : (sweepDue m).up = m.up := noEn_up (sweepDue_noEn m)
@[simp] theorem sweepDue_sec : (sweepDue m).sec = m.sec := noEn_sec (sweepDue_noEn m)
@[simp] theorem sweepDue_pr : (sweepDue m).pr = m.pr := noEn_pr (sweepDue_noEn m)
@[simp] theorem sweepDue_stateOut : (sweepDue m).stateOut = m.stateOut := noEn_stateOut (sweepDue_noEn m)

@[simp] theorem warmLoad_noMdLgCurNxtEn (r : Retain) : (warmLoad r m).noMdLgCurNxtEn = m.noMdLgCurNxtEn := by
  unfold warmLoad; simp [Mod.noMdLgCurNxtEn]
@[simp] theorem warmLoad_powered (r : Retain) : (warmLoad r m).powered = m.powered := noMdLgCurNxtEn_powered (warmLoad_noMdLgCurNxtEn m r)
@[simp] theorem warmLoad_clk (r : Retain) : (warmLoad r m).clk = m.clk := noMdLgCurNxtEn_clk (warmLoad_noMdLgCurNxtEn m r)
@[simp] theorem warmLoad_freeN (r : Retain) : (warmLoad r m).freeN = m.freeN := noMdLgCurNxtEn_freeN (warmLoad_noMdLgCurNxtEn m r)
@[simp] theorem warmLoad_nv (r : Retain) : (warmLoad r m).nv = m.nv := noMdLgCurNxtEn_nv (warmLoad_noMdLgCurNxtEn m r)
@[simp] theorem warmLoad_cfg (r : Retain) : (warmLoad r m).cfg = m.cfg := noMdLgCurNxtEn_cfg (warmLoad_noMdLgCurNxtEn m r)
@[simp] theorem warmLoad_tm (r : Retain) : (warmLoad r m).tm = m.tm := noMdLgCurNxtEn_tm (warmLoad_noMdLgCurNxtEn m r)
@[simp] theorem warmLoad_ln (r : Retain) : (warmLoad r m).ln = m.ln := noMdLgCurNxtEn_ln (warmLoad_noMdLgCurNxtEn m r)
@[simp] theorem warmLoad_pw (r : Retain) : (warmLoad r m).pw = m.pw := noMdLgCurNxtEn_pw (warmLoad_noMdLgCurNxtEn m r)
@[simp] theorem warmLoad_fio (r : Retain) : (warmLoad r m).fio = m.fio := noMdLgCurNxtEn_fio (warmLoad_noMdLgCurNxtEn m r)
@[simp] theorem warmLoad_bt (r : Retain) : (warmLoad r m).bt = m.bt := noMdLgCurNxtEn_bt (warmLoad_noMdLgCurNxtEn m r)
@[simp] theorem warmLoad_str (r : Retain) : (warmLoad r m).str = m.str := noMdLgCurNxtEn_str (warmLoad_noMdLgCurNxtEn m r)
@[simp] theorem warmLoad_can (r : Retain) : (warmLoad r m).can = m.can := noMdLgCurNxtEn_can (warmLoad_noMdLgCurNxtEn m r)
@[simp] theorem warmLoad_net (r : Retain) : (warmLoad r m).net = m.net := noMdLgCurNxtEn_net (warmLoad_noMdLgCurNxtEn m r)
@[simp] theorem warmLoad_host (r : Retain) : (warmLoad r m).host = m.host := noMdLgCurNxtEn_host (warmLoad_noMdLgCurNxtEn m r)
@[simp] theorem warmLoad_rcd (r : Retain) : (warmLoad r m).rcd = m.rcd := noMdLgCurNxtEn_rcd (warmLoad_noMdLgCurNxtEn m r)
@[simp] theorem warmLoad_rc (r : Retain) : (warmLoad r m).rc = m.rc := noMdLgCurNxtEn_rc (warmLoad_noMdLgCurNxtEn m r)
@[simp] theorem warmLoad_pc (r : Retain) : (warmLoad r m).pc = m.pc := noMdLgCurNxtEn_pc (warmLoad_noMdLgCurNxtEn m r)
@[simp] theorem warmLoad_up (r : Retain) : (warmLoad r m).up = m.up := noMdLgCurNxtEn_up (warmLoad_noMdLgCurNxtEn m r)
@[simp] theorem warmLoad_sec (r : Retain) : (warmLoad r m).sec = m.sec := noMdLgCurNxtEn_sec (warmLoad_noMdLgCurNxtEn m r)
@[simp] theorem warmLoad_pr (r : Retain) : (warmLoad r m).pr = m.pr := noMdLgCurNxtEn_pr (warmLoad_noMdLgCurNxtEn m r)
@[simp] theorem warmLoad_stateOut (r : Retain) : (warmLoad r m).stateOut = m.stateOut := noMdLgCurNxtEn_stateOut (warmLoad_noMdLgCurNxtEn m r)

/-- All but tm, md, host, rcd. -/
def Mod.noTmMdHostRcd (m : Mod) : Mod :=
  { m with tm := Pacer.fresh, md := Modes.fresh, host := HostIf.fresh, rcd := Recorder.fresh }

theorem noTmMdHostRcd_powered {a b : Mod} (h : a.noTmMdHostRcd = b.noTmMdHostRcd) : a.powered = b.powered := (congrArg Mod.powered h :)
theorem noTmMdHostRcd_clk {a b : Mod} (h : a.noTmMdHostRcd = b.noTmMdHostRcd) : a.clk = b.clk := (congrArg Mod.clk h :)
theorem noTmMdHostRcd_freeN {a b : Mod} (h : a.noTmMdHostRcd = b.noTmMdHostRcd) : a.freeN = b.freeN := (congrArg Mod.freeN h :)
theorem noTmMdHostRcd_nv {a b : Mod} (h : a.noTmMdHostRcd = b.noTmMdHostRcd) : a.nv = b.nv := (congrArg Mod.nv h :)
theorem noTmMdHostRcd_cfg {a b : Mod} (h : a.noTmMdHostRcd = b.noTmMdHostRcd) : a.cfg = b.cfg := (congrArg Mod.cfg h :)
theorem noTmMdHostRcd_ln {a b : Mod} (h : a.noTmMdHostRcd = b.noTmMdHostRcd) : a.ln = b.ln := (congrArg Mod.ln h :)
theorem noTmMdHostRcd_pw {a b : Mod} (h : a.noTmMdHostRcd = b.noTmMdHostRcd) : a.pw = b.pw := (congrArg Mod.pw h :)
theorem noTmMdHostRcd_lg {a b : Mod} (h : a.noTmMdHostRcd = b.noTmMdHostRcd) : a.lg = b.lg := (congrArg Mod.lg h :)
theorem noTmMdHostRcd_cur {a b : Mod} (h : a.noTmMdHostRcd = b.noTmMdHostRcd) : a.cur = b.cur := (congrArg Mod.cur h :)
theorem noTmMdHostRcd_nxt {a b : Mod} (h : a.noTmMdHostRcd = b.noTmMdHostRcd) : a.nxt = b.nxt := (congrArg Mod.nxt h :)
theorem noTmMdHostRcd_en {a b : Mod} (h : a.noTmMdHostRcd = b.noTmMdHostRcd) : a.en = b.en := (congrArg Mod.en h :)
theorem noTmMdHostRcd_fio {a b : Mod} (h : a.noTmMdHostRcd = b.noTmMdHostRcd) : a.fio = b.fio := (congrArg Mod.fio h :)
theorem noTmMdHostRcd_bt {a b : Mod} (h : a.noTmMdHostRcd = b.noTmMdHostRcd) : a.bt = b.bt := (congrArg Mod.bt h :)
theorem noTmMdHostRcd_str {a b : Mod} (h : a.noTmMdHostRcd = b.noTmMdHostRcd) : a.str = b.str := (congrArg Mod.str h :)
theorem noTmMdHostRcd_can {a b : Mod} (h : a.noTmMdHostRcd = b.noTmMdHostRcd) : a.can = b.can := (congrArg Mod.can h :)
theorem noTmMdHostRcd_net {a b : Mod} (h : a.noTmMdHostRcd = b.noTmMdHostRcd) : a.net = b.net := (congrArg Mod.net h :)
theorem noTmMdHostRcd_rc {a b : Mod} (h : a.noTmMdHostRcd = b.noTmMdHostRcd) : a.rc = b.rc := (congrArg Mod.rc h :)
theorem noTmMdHostRcd_pc {a b : Mod} (h : a.noTmMdHostRcd = b.noTmMdHostRcd) : a.pc = b.pc := (congrArg Mod.pc h :)
theorem noTmMdHostRcd_up {a b : Mod} (h : a.noTmMdHostRcd = b.noTmMdHostRcd) : a.up = b.up := (congrArg Mod.up h :)
theorem noTmMdHostRcd_sec {a b : Mod} (h : a.noTmMdHostRcd = b.noTmMdHostRcd) : a.sec = b.sec := (congrArg Mod.sec h :)
theorem noTmMdHostRcd_pr {a b : Mod} (h : a.noTmMdHostRcd = b.noTmMdHostRcd) : a.pr = b.pr := (congrArg Mod.pr h :)
theorem noTmMdHostRcd_stateOut {a b : Mod} (h : a.noTmMdHostRcd = b.noTmMdHostRcd) : a.stateOut = b.stateOut := (congrArg Mod.stateOut h :)

@[simp] theorem noteRestart_noTmMdHostRcd (v : RestartView) : (noteRestart v m).noTmMdHostRcd = m.noTmMdHostRcd := by
  unfold noteRestart
  exact (onlyIf_keeps _ Mod.noTmMdHostRcd _ _ (by simp [Mod.noTmMdHostRcd])).trans rfl
@[simp] theorem noteRestart_powered (v : RestartView) : (noteRestart v m).powered = m.powered := noTmMdHostRcd_powered (noteRestart_noTmMdHostRcd m v)
@[simp] theorem noteRestart_clk (v : RestartView) : (noteRestart v m).clk = m.clk := noTmMdHostRcd_clk (noteRestart_noTmMdHostRcd m v)
@[simp] theorem noteRestart_freeN (v : RestartView) : (noteRestart v m).freeN = m.freeN := noTmMdHostRcd_freeN (noteRestart_noTmMdHostRcd m v)
@[simp] theorem noteRestart_nv (v : RestartView) : (noteRestart v m).nv = m.nv := noTmMdHostRcd_nv (noteRestart_noTmMdHostRcd m v)
@[simp] theorem noteRestart_cfg (v : RestartView) : (noteRestart v m).cfg = m.cfg := noTmMdHostRcd_cfg (noteRestart_noTmMdHostRcd m v)
@[simp] theorem noteRestart_ln (v : RestartView) : (noteRestart v m).ln = m.ln := noTmMdHostRcd_ln (noteRestart_noTmMdHostRcd m v)
@[simp] theorem noteRestart_pw (v : RestartView) : (noteRestart v m).pw = m.pw := noTmMdHostRcd_pw (noteRestart_noTmMdHostRcd m v)
@[simp] theorem noteRestart_lg (v : RestartView) : (noteRestart v m).lg = m.lg := noTmMdHostRcd_lg (noteRestart_noTmMdHostRcd m v)
@[simp] theorem noteRestart_cur (v : RestartView) : (noteRestart v m).cur = m.cur := noTmMdHostRcd_cur (noteRestart_noTmMdHostRcd m v)
@[simp] theorem noteRestart_nxt (v : RestartView) : (noteRestart v m).nxt = m.nxt := noTmMdHostRcd_nxt (noteRestart_noTmMdHostRcd m v)
@[simp] theorem noteRestart_en (v : RestartView) : (noteRestart v m).en = m.en := noTmMdHostRcd_en (noteRestart_noTmMdHostRcd m v)
@[simp] theorem noteRestart_fio (v : RestartView) : (noteRestart v m).fio = m.fio := noTmMdHostRcd_fio (noteRestart_noTmMdHostRcd m v)
@[simp] theorem noteRestart_bt (v : RestartView) : (noteRestart v m).bt = m.bt := noTmMdHostRcd_bt (noteRestart_noTmMdHostRcd m v)
@[simp] theorem noteRestart_str (v : RestartView) : (noteRestart v m).str = m.str := noTmMdHostRcd_str (noteRestart_noTmMdHostRcd m v)
@[simp] theorem noteRestart_can (v : RestartView) : (noteRestart v m).can = m.can := noTmMdHostRcd_can (noteRestart_noTmMdHostRcd m v)
@[simp] theorem noteRestart_net (v : RestartView) : (noteRestart v m).net = m.net := noTmMdHostRcd_net (noteRestart_noTmMdHostRcd m v)
@[simp] theorem noteRestart_rc (v : RestartView) : (noteRestart v m).rc = m.rc := noTmMdHostRcd_rc (noteRestart_noTmMdHostRcd m v)
@[simp] theorem noteRestart_pc (v : RestartView) : (noteRestart v m).pc = m.pc := noTmMdHostRcd_pc (noteRestart_noTmMdHostRcd m v)
@[simp] theorem noteRestart_up (v : RestartView) : (noteRestart v m).up = m.up := noTmMdHostRcd_up (noteRestart_noTmMdHostRcd m v)
@[simp] theorem noteRestart_sec (v : RestartView) : (noteRestart v m).sec = m.sec := noTmMdHostRcd_sec (noteRestart_noTmMdHostRcd m v)
@[simp] theorem noteRestart_pr (v : RestartView) : (noteRestart v m).pr = m.pr := noTmMdHostRcd_pr (noteRestart_noTmMdHostRcd m v)
@[simp] theorem noteRestart_stateOut (v : RestartView) : (noteRestart v m).stateOut = m.stateOut := noTmMdHostRcd_stateOut (noteRestart_noTmMdHostRcd m v)

/-- All but md, lg, cur, nxt. -/
def Mod.noMdLgCurNxt (m : Mod) : Mod :=
  { m with md := Modes.fresh, lg := Logic.fresh AppImage.empty, cur := [], nxt := [] }

theorem noMdLgCurNxt_powered {a b : Mod} (h : a.noMdLgCurNxt = b.noMdLgCurNxt) : a.powered = b.powered := (congrArg Mod.powered h :)
theorem noMdLgCurNxt_clk {a b : Mod} (h : a.noMdLgCurNxt = b.noMdLgCurNxt) : a.clk = b.clk := (congrArg Mod.clk h :)
theorem noMdLgCurNxt_freeN {a b : Mod} (h : a.noMdLgCurNxt = b.noMdLgCurNxt) : a.freeN = b.freeN := (congrArg Mod.freeN h :)
theorem noMdLgCurNxt_nv {a b : Mod} (h : a.noMdLgCurNxt = b.noMdLgCurNxt) : a.nv = b.nv := (congrArg Mod.nv h :)
theorem noMdLgCurNxt_cfg {a b : Mod} (h : a.noMdLgCurNxt = b.noMdLgCurNxt) : a.cfg = b.cfg := (congrArg Mod.cfg h :)
theorem noMdLgCurNxt_tm {a b : Mod} (h : a.noMdLgCurNxt = b.noMdLgCurNxt) : a.tm = b.tm := (congrArg Mod.tm h :)
theorem noMdLgCurNxt_ln {a b : Mod} (h : a.noMdLgCurNxt = b.noMdLgCurNxt) : a.ln = b.ln := (congrArg Mod.ln h :)
theorem noMdLgCurNxt_pw {a b : Mod} (h : a.noMdLgCurNxt = b.noMdLgCurNxt) : a.pw = b.pw := (congrArg Mod.pw h :)
theorem noMdLgCurNxt_en {a b : Mod} (h : a.noMdLgCurNxt = b.noMdLgCurNxt) : a.en = b.en := (congrArg Mod.en h :)
theorem noMdLgCurNxt_fio {a b : Mod} (h : a.noMdLgCurNxt = b.noMdLgCurNxt) : a.fio = b.fio := (congrArg Mod.fio h :)
theorem noMdLgCurNxt_bt {a b : Mod} (h : a.noMdLgCurNxt = b.noMdLgCurNxt) : a.bt = b.bt := (congrArg Mod.bt h :)
theorem noMdLgCurNxt_str {a b : Mod} (h : a.noMdLgCurNxt = b.noMdLgCurNxt) : a.str = b.str := (congrArg Mod.str h :)
theorem noMdLgCurNxt_can {a b : Mod} (h : a.noMdLgCurNxt = b.noMdLgCurNxt) : a.can = b.can := (congrArg Mod.can h :)
theorem noMdLgCurNxt_net {a b : Mod} (h : a.noMdLgCurNxt = b.noMdLgCurNxt) : a.net = b.net := (congrArg Mod.net h :)
theorem noMdLgCurNxt_host {a b : Mod} (h : a.noMdLgCurNxt = b.noMdLgCurNxt) : a.host = b.host := (congrArg Mod.host h :)
theorem noMdLgCurNxt_rcd {a b : Mod} (h : a.noMdLgCurNxt = b.noMdLgCurNxt) : a.rcd = b.rcd := (congrArg Mod.rcd h :)
theorem noMdLgCurNxt_rc {a b : Mod} (h : a.noMdLgCurNxt = b.noMdLgCurNxt) : a.rc = b.rc := (congrArg Mod.rc h :)
theorem noMdLgCurNxt_pc {a b : Mod} (h : a.noMdLgCurNxt = b.noMdLgCurNxt) : a.pc = b.pc := (congrArg Mod.pc h :)
theorem noMdLgCurNxt_up {a b : Mod} (h : a.noMdLgCurNxt = b.noMdLgCurNxt) : a.up = b.up := (congrArg Mod.up h :)
theorem noMdLgCurNxt_sec {a b : Mod} (h : a.noMdLgCurNxt = b.noMdLgCurNxt) : a.sec = b.sec := (congrArg Mod.sec h :)
theorem noMdLgCurNxt_pr {a b : Mod} (h : a.noMdLgCurNxt = b.noMdLgCurNxt) : a.pr = b.pr := (congrArg Mod.pr h :)
theorem noMdLgCurNxt_stateOut {a b : Mod} (h : a.noMdLgCurNxt = b.noMdLgCurNxt) : a.stateOut = b.stateOut := (congrArg Mod.stateOut h :)

@[simp] theorem joinBuild_noMdLgCurNxt : (joinBuild m).noMdLgCurNxt = m.noMdLgCurNxt := rfl
@[simp] theorem joinBuild_powered : (joinBuild m).powered = m.powered := noMdLgCurNxt_powered (joinBuild_noMdLgCurNxt m)
@[simp] theorem joinBuild_clk : (joinBuild m).clk = m.clk := noMdLgCurNxt_clk (joinBuild_noMdLgCurNxt m)
@[simp] theorem joinBuild_freeN : (joinBuild m).freeN = m.freeN := noMdLgCurNxt_freeN (joinBuild_noMdLgCurNxt m)
@[simp] theorem joinBuild_nv : (joinBuild m).nv = m.nv := noMdLgCurNxt_nv (joinBuild_noMdLgCurNxt m)
@[simp] theorem joinBuild_cfg : (joinBuild m).cfg = m.cfg := noMdLgCurNxt_cfg (joinBuild_noMdLgCurNxt m)
@[simp] theorem joinBuild_tm : (joinBuild m).tm = m.tm := noMdLgCurNxt_tm (joinBuild_noMdLgCurNxt m)
@[simp] theorem joinBuild_ln : (joinBuild m).ln = m.ln := noMdLgCurNxt_ln (joinBuild_noMdLgCurNxt m)
@[simp] theorem joinBuild_pw : (joinBuild m).pw = m.pw := noMdLgCurNxt_pw (joinBuild_noMdLgCurNxt m)
@[simp] theorem joinBuild_en : (joinBuild m).en = m.en := noMdLgCurNxt_en (joinBuild_noMdLgCurNxt m)
@[simp] theorem joinBuild_fio : (joinBuild m).fio = m.fio := noMdLgCurNxt_fio (joinBuild_noMdLgCurNxt m)
@[simp] theorem joinBuild_bt : (joinBuild m).bt = m.bt := noMdLgCurNxt_bt (joinBuild_noMdLgCurNxt m)
@[simp] theorem joinBuild_str : (joinBuild m).str = m.str := noMdLgCurNxt_str (joinBuild_noMdLgCurNxt m)
@[simp] theorem joinBuild_can : (joinBuild m).can = m.can := noMdLgCurNxt_can (joinBuild_noMdLgCurNxt m)
@[simp] theorem joinBuild_net : (joinBuild m).net = m.net := noMdLgCurNxt_net (joinBuild_noMdLgCurNxt m)
@[simp] theorem joinBuild_host : (joinBuild m).host = m.host := noMdLgCurNxt_host (joinBuild_noMdLgCurNxt m)
@[simp] theorem joinBuild_rcd : (joinBuild m).rcd = m.rcd := noMdLgCurNxt_rcd (joinBuild_noMdLgCurNxt m)
@[simp] theorem joinBuild_rc : (joinBuild m).rc = m.rc := noMdLgCurNxt_rc (joinBuild_noMdLgCurNxt m)
@[simp] theorem joinBuild_pc : (joinBuild m).pc = m.pc := noMdLgCurNxt_pc (joinBuild_noMdLgCurNxt m)
@[simp] theorem joinBuild_up : (joinBuild m).up = m.up := noMdLgCurNxt_up (joinBuild_noMdLgCurNxt m)
@[simp] theorem joinBuild_sec : (joinBuild m).sec = m.sec := noMdLgCurNxt_sec (joinBuild_noMdLgCurNxt m)
@[simp] theorem joinBuild_pr : (joinBuild m).pr = m.pr := noMdLgCurNxt_pr (joinBuild_noMdLgCurNxt m)
@[simp] theorem joinBuild_stateOut : (joinBuild m).stateOut = m.stateOut := noMdLgCurNxt_stateOut (joinBuild_noMdLgCurNxt m)

@[simp] theorem tellOdd_noHR (best : List (LaneId × Retain)) : (tellOdd best m).noHR = m.noHR := forEach_keeps _ Mod.noHR _ _ (fun _ n => raise_noHR n _ _)
@[simp] theorem tellOdd_powered (best : List (LaneId × Retain)) : (tellOdd best m).powered = m.powered := noHR_powered (tellOdd_noHR m best)
@[simp] theorem tellOdd_clk (best : List (LaneId × Retain)) : (tellOdd best m).clk = m.clk := noHR_clk (tellOdd_noHR m best)
@[simp] theorem tellOdd_freeN (best : List (LaneId × Retain)) : (tellOdd best m).freeN = m.freeN := noHR_freeN (tellOdd_noHR m best)
@[simp] theorem tellOdd_nv (best : List (LaneId × Retain)) : (tellOdd best m).nv = m.nv := noHR_nv (tellOdd_noHR m best)
@[simp] theorem tellOdd_cfg (best : List (LaneId × Retain)) : (tellOdd best m).cfg = m.cfg := noHR_cfg (tellOdd_noHR m best)
@[simp] theorem tellOdd_tm (best : List (LaneId × Retain)) : (tellOdd best m).tm = m.tm := noHR_tm (tellOdd_noHR m best)
@[simp] theorem tellOdd_ln (best : List (LaneId × Retain)) : (tellOdd best m).ln = m.ln := noHR_ln (tellOdd_noHR m best)
@[simp] theorem tellOdd_md (best : List (LaneId × Retain)) : (tellOdd best m).md = m.md := noHR_md (tellOdd_noHR m best)
@[simp] theorem tellOdd_pw (best : List (LaneId × Retain)) : (tellOdd best m).pw = m.pw := noHR_pw (tellOdd_noHR m best)
@[simp] theorem tellOdd_lg (best : List (LaneId × Retain)) : (tellOdd best m).lg = m.lg := noHR_lg (tellOdd_noHR m best)
@[simp] theorem tellOdd_cur (best : List (LaneId × Retain)) : (tellOdd best m).cur = m.cur := noHR_cur (tellOdd_noHR m best)
@[simp] theorem tellOdd_nxt (best : List (LaneId × Retain)) : (tellOdd best m).nxt = m.nxt := noHR_nxt (tellOdd_noHR m best)
@[simp] theorem tellOdd_en (best : List (LaneId × Retain)) : (tellOdd best m).en = m.en := noHR_en (tellOdd_noHR m best)
@[simp] theorem tellOdd_fio (best : List (LaneId × Retain)) : (tellOdd best m).fio = m.fio := noHR_fio (tellOdd_noHR m best)
@[simp] theorem tellOdd_bt (best : List (LaneId × Retain)) : (tellOdd best m).bt = m.bt := noHR_bt (tellOdd_noHR m best)
@[simp] theorem tellOdd_str (best : List (LaneId × Retain)) : (tellOdd best m).str = m.str := noHR_str (tellOdd_noHR m best)
@[simp] theorem tellOdd_can (best : List (LaneId × Retain)) : (tellOdd best m).can = m.can := noHR_can (tellOdd_noHR m best)
@[simp] theorem tellOdd_net (best : List (LaneId × Retain)) : (tellOdd best m).net = m.net := noHR_net (tellOdd_noHR m best)
@[simp] theorem tellOdd_rc (best : List (LaneId × Retain)) : (tellOdd best m).rc = m.rc := noHR_rc (tellOdd_noHR m best)
@[simp] theorem tellOdd_pc (best : List (LaneId × Retain)) : (tellOdd best m).pc = m.pc := noHR_pc (tellOdd_noHR m best)
@[simp] theorem tellOdd_up (best : List (LaneId × Retain)) : (tellOdd best m).up = m.up := noHR_up (tellOdd_noHR m best)
@[simp] theorem tellOdd_sec (best : List (LaneId × Retain)) : (tellOdd best m).sec = m.sec := noHR_sec (tellOdd_noHR m best)
@[simp] theorem tellOdd_pr (best : List (LaneId × Retain)) : (tellOdd best m).pr = m.pr := noHR_pr (tellOdd_noHR m best)
@[simp] theorem tellOdd_stateOut (best : List (LaneId × Retain)) : (tellOdd best m).stateOut = m.stateOut := noHR_stateOut (tellOdd_noHR m best)

/-- All but tm, md, lg, cur, nxt, en, host, rcd. -/
def Mod.noTmMdLgCurNxtEnHostRcd (m : Mod) : Mod :=
  { m with tm := Pacer.fresh, md := Modes.fresh, lg := Logic.fresh AppImage.empty, cur := [], nxt := [], en := Engine.fresh, host := HostIf.fresh, rcd := Recorder.fresh }

theorem noTmMdLgCurNxtEnHostRcd_powered {a b : Mod} (h : a.noTmMdLgCurNxtEnHostRcd = b.noTmMdLgCurNxtEnHostRcd) : a.powered = b.powered := (congrArg Mod.powered h :)
theorem noTmMdLgCurNxtEnHostRcd_clk {a b : Mod} (h : a.noTmMdLgCurNxtEnHostRcd = b.noTmMdLgCurNxtEnHostRcd) : a.clk = b.clk := (congrArg Mod.clk h :)
theorem noTmMdLgCurNxtEnHostRcd_freeN {a b : Mod} (h : a.noTmMdLgCurNxtEnHostRcd = b.noTmMdLgCurNxtEnHostRcd) : a.freeN = b.freeN := (congrArg Mod.freeN h :)
theorem noTmMdLgCurNxtEnHostRcd_nv {a b : Mod} (h : a.noTmMdLgCurNxtEnHostRcd = b.noTmMdLgCurNxtEnHostRcd) : a.nv = b.nv := (congrArg Mod.nv h :)
theorem noTmMdLgCurNxtEnHostRcd_cfg {a b : Mod} (h : a.noTmMdLgCurNxtEnHostRcd = b.noTmMdLgCurNxtEnHostRcd) : a.cfg = b.cfg := (congrArg Mod.cfg h :)
theorem noTmMdLgCurNxtEnHostRcd_ln {a b : Mod} (h : a.noTmMdLgCurNxtEnHostRcd = b.noTmMdLgCurNxtEnHostRcd) : a.ln = b.ln := (congrArg Mod.ln h :)
theorem noTmMdLgCurNxtEnHostRcd_pw {a b : Mod} (h : a.noTmMdLgCurNxtEnHostRcd = b.noTmMdLgCurNxtEnHostRcd) : a.pw = b.pw := (congrArg Mod.pw h :)
theorem noTmMdLgCurNxtEnHostRcd_fio {a b : Mod} (h : a.noTmMdLgCurNxtEnHostRcd = b.noTmMdLgCurNxtEnHostRcd) : a.fio = b.fio := (congrArg Mod.fio h :)
theorem noTmMdLgCurNxtEnHostRcd_bt {a b : Mod} (h : a.noTmMdLgCurNxtEnHostRcd = b.noTmMdLgCurNxtEnHostRcd) : a.bt = b.bt := (congrArg Mod.bt h :)
theorem noTmMdLgCurNxtEnHostRcd_str {a b : Mod} (h : a.noTmMdLgCurNxtEnHostRcd = b.noTmMdLgCurNxtEnHostRcd) : a.str = b.str := (congrArg Mod.str h :)
theorem noTmMdLgCurNxtEnHostRcd_can {a b : Mod} (h : a.noTmMdLgCurNxtEnHostRcd = b.noTmMdLgCurNxtEnHostRcd) : a.can = b.can := (congrArg Mod.can h :)
theorem noTmMdLgCurNxtEnHostRcd_net {a b : Mod} (h : a.noTmMdLgCurNxtEnHostRcd = b.noTmMdLgCurNxtEnHostRcd) : a.net = b.net := (congrArg Mod.net h :)
theorem noTmMdLgCurNxtEnHostRcd_rc {a b : Mod} (h : a.noTmMdLgCurNxtEnHostRcd = b.noTmMdLgCurNxtEnHostRcd) : a.rc = b.rc := (congrArg Mod.rc h :)
theorem noTmMdLgCurNxtEnHostRcd_pc {a b : Mod} (h : a.noTmMdLgCurNxtEnHostRcd = b.noTmMdLgCurNxtEnHostRcd) : a.pc = b.pc := (congrArg Mod.pc h :)
theorem noTmMdLgCurNxtEnHostRcd_up {a b : Mod} (h : a.noTmMdLgCurNxtEnHostRcd = b.noTmMdLgCurNxtEnHostRcd) : a.up = b.up := (congrArg Mod.up h :)
theorem noTmMdLgCurNxtEnHostRcd_sec {a b : Mod} (h : a.noTmMdLgCurNxtEnHostRcd = b.noTmMdLgCurNxtEnHostRcd) : a.sec = b.sec := (congrArg Mod.sec h :)
theorem noTmMdLgCurNxtEnHostRcd_pr {a b : Mod} (h : a.noTmMdLgCurNxtEnHostRcd = b.noTmMdLgCurNxtEnHostRcd) : a.pr = b.pr := (congrArg Mod.pr h :)
theorem noTmMdLgCurNxtEnHostRcd_stateOut {a b : Mod} (h : a.noTmMdLgCurNxtEnHostRcd = b.noTmMdLgCurNxtEnHostRcd) : a.stateOut = b.stateOut := (congrArg Mod.stateOut h :)

@[simp] theorem decideRestart_noTmMdLgCurNxtEnHostRcd (src : Option Src) (meas : SrcMeas) : (decideRestart src meas m).noTmMdLgCurNxtEnHostRcd = m.noTmMdLgCurNxtEnHostRcd := by
  unfold decideRestart; dsimp only; (repeat' split) <;> simp [Mod.noTmMdLgCurNxtEnHostRcd]
@[simp] theorem decideRestart_powered (src : Option Src) (meas : SrcMeas) : (decideRestart src meas m).powered = m.powered := noTmMdLgCurNxtEnHostRcd_powered (decideRestart_noTmMdLgCurNxtEnHostRcd m src meas)
@[simp] theorem decideRestart_clk (src : Option Src) (meas : SrcMeas) : (decideRestart src meas m).clk = m.clk := noTmMdLgCurNxtEnHostRcd_clk (decideRestart_noTmMdLgCurNxtEnHostRcd m src meas)
@[simp] theorem decideRestart_freeN (src : Option Src) (meas : SrcMeas) : (decideRestart src meas m).freeN = m.freeN := noTmMdLgCurNxtEnHostRcd_freeN (decideRestart_noTmMdLgCurNxtEnHostRcd m src meas)
@[simp] theorem decideRestart_nv (src : Option Src) (meas : SrcMeas) : (decideRestart src meas m).nv = m.nv := noTmMdLgCurNxtEnHostRcd_nv (decideRestart_noTmMdLgCurNxtEnHostRcd m src meas)
@[simp] theorem decideRestart_cfg (src : Option Src) (meas : SrcMeas) : (decideRestart src meas m).cfg = m.cfg := noTmMdLgCurNxtEnHostRcd_cfg (decideRestart_noTmMdLgCurNxtEnHostRcd m src meas)
@[simp] theorem decideRestart_ln (src : Option Src) (meas : SrcMeas) : (decideRestart src meas m).ln = m.ln := noTmMdLgCurNxtEnHostRcd_ln (decideRestart_noTmMdLgCurNxtEnHostRcd m src meas)
@[simp] theorem decideRestart_pw (src : Option Src) (meas : SrcMeas) : (decideRestart src meas m).pw = m.pw := noTmMdLgCurNxtEnHostRcd_pw (decideRestart_noTmMdLgCurNxtEnHostRcd m src meas)
@[simp] theorem decideRestart_fio (src : Option Src) (meas : SrcMeas) : (decideRestart src meas m).fio = m.fio := noTmMdLgCurNxtEnHostRcd_fio (decideRestart_noTmMdLgCurNxtEnHostRcd m src meas)
@[simp] theorem decideRestart_bt (src : Option Src) (meas : SrcMeas) : (decideRestart src meas m).bt = m.bt := noTmMdLgCurNxtEnHostRcd_bt (decideRestart_noTmMdLgCurNxtEnHostRcd m src meas)
@[simp] theorem decideRestart_str (src : Option Src) (meas : SrcMeas) : (decideRestart src meas m).str = m.str := noTmMdLgCurNxtEnHostRcd_str (decideRestart_noTmMdLgCurNxtEnHostRcd m src meas)
@[simp] theorem decideRestart_can (src : Option Src) (meas : SrcMeas) : (decideRestart src meas m).can = m.can := noTmMdLgCurNxtEnHostRcd_can (decideRestart_noTmMdLgCurNxtEnHostRcd m src meas)
@[simp] theorem decideRestart_net (src : Option Src) (meas : SrcMeas) : (decideRestart src meas m).net = m.net := noTmMdLgCurNxtEnHostRcd_net (decideRestart_noTmMdLgCurNxtEnHostRcd m src meas)
@[simp] theorem decideRestart_rc (src : Option Src) (meas : SrcMeas) : (decideRestart src meas m).rc = m.rc := noTmMdLgCurNxtEnHostRcd_rc (decideRestart_noTmMdLgCurNxtEnHostRcd m src meas)
@[simp] theorem decideRestart_pc (src : Option Src) (meas : SrcMeas) : (decideRestart src meas m).pc = m.pc := noTmMdLgCurNxtEnHostRcd_pc (decideRestart_noTmMdLgCurNxtEnHostRcd m src meas)
@[simp] theorem decideRestart_up (src : Option Src) (meas : SrcMeas) : (decideRestart src meas m).up = m.up := noTmMdLgCurNxtEnHostRcd_up (decideRestart_noTmMdLgCurNxtEnHostRcd m src meas)
@[simp] theorem decideRestart_sec (src : Option Src) (meas : SrcMeas) : (decideRestart src meas m).sec = m.sec := noTmMdLgCurNxtEnHostRcd_sec (decideRestart_noTmMdLgCurNxtEnHostRcd m src meas)
@[simp] theorem decideRestart_pr (src : Option Src) (meas : SrcMeas) : (decideRestart src meas m).pr = m.pr := noTmMdLgCurNxtEnHostRcd_pr (decideRestart_noTmMdLgCurNxtEnHostRcd m src meas)
@[simp] theorem decideRestart_stateOut (src : Option Src) (meas : SrcMeas) : (decideRestart src meas m).stateOut = m.stateOut := noTmMdLgCurNxtEnHostRcd_stateOut (decideRestart_noTmMdLgCurNxtEnHostRcd m src meas)

/-- All but md, str, can. -/
def Mod.noMdStrCan (m : Mod) : Mod :=
  { m with md := Modes.fresh, str := Stride.fresh 0, can := ⟨0, [], []⟩ }

theorem noMdStrCan_powered {a b : Mod} (h : a.noMdStrCan = b.noMdStrCan) : a.powered = b.powered := (congrArg Mod.powered h :)
theorem noMdStrCan_clk {a b : Mod} (h : a.noMdStrCan = b.noMdStrCan) : a.clk = b.clk := (congrArg Mod.clk h :)
theorem noMdStrCan_freeN {a b : Mod} (h : a.noMdStrCan = b.noMdStrCan) : a.freeN = b.freeN := (congrArg Mod.freeN h :)
theorem noMdStrCan_nv {a b : Mod} (h : a.noMdStrCan = b.noMdStrCan) : a.nv = b.nv := (congrArg Mod.nv h :)
theorem noMdStrCan_cfg {a b : Mod} (h : a.noMdStrCan = b.noMdStrCan) : a.cfg = b.cfg := (congrArg Mod.cfg h :)
theorem noMdStrCan_tm {a b : Mod} (h : a.noMdStrCan = b.noMdStrCan) : a.tm = b.tm := (congrArg Mod.tm h :)
theorem noMdStrCan_ln {a b : Mod} (h : a.noMdStrCan = b.noMdStrCan) : a.ln = b.ln := (congrArg Mod.ln h :)
theorem noMdStrCan_pw {a b : Mod} (h : a.noMdStrCan = b.noMdStrCan) : a.pw = b.pw := (congrArg Mod.pw h :)
theorem noMdStrCan_lg {a b : Mod} (h : a.noMdStrCan = b.noMdStrCan) : a.lg = b.lg := (congrArg Mod.lg h :)
theorem noMdStrCan_cur {a b : Mod} (h : a.noMdStrCan = b.noMdStrCan) : a.cur = b.cur := (congrArg Mod.cur h :)
theorem noMdStrCan_nxt {a b : Mod} (h : a.noMdStrCan = b.noMdStrCan) : a.nxt = b.nxt := (congrArg Mod.nxt h :)
theorem noMdStrCan_en {a b : Mod} (h : a.noMdStrCan = b.noMdStrCan) : a.en = b.en := (congrArg Mod.en h :)
theorem noMdStrCan_fio {a b : Mod} (h : a.noMdStrCan = b.noMdStrCan) : a.fio = b.fio := (congrArg Mod.fio h :)
theorem noMdStrCan_bt {a b : Mod} (h : a.noMdStrCan = b.noMdStrCan) : a.bt = b.bt := (congrArg Mod.bt h :)
theorem noMdStrCan_net {a b : Mod} (h : a.noMdStrCan = b.noMdStrCan) : a.net = b.net := (congrArg Mod.net h :)
theorem noMdStrCan_host {a b : Mod} (h : a.noMdStrCan = b.noMdStrCan) : a.host = b.host := (congrArg Mod.host h :)
theorem noMdStrCan_rcd {a b : Mod} (h : a.noMdStrCan = b.noMdStrCan) : a.rcd = b.rcd := (congrArg Mod.rcd h :)
theorem noMdStrCan_rc {a b : Mod} (h : a.noMdStrCan = b.noMdStrCan) : a.rc = b.rc := (congrArg Mod.rc h :)
theorem noMdStrCan_pc {a b : Mod} (h : a.noMdStrCan = b.noMdStrCan) : a.pc = b.pc := (congrArg Mod.pc h :)
theorem noMdStrCan_up {a b : Mod} (h : a.noMdStrCan = b.noMdStrCan) : a.up = b.up := (congrArg Mod.up h :)
theorem noMdStrCan_sec {a b : Mod} (h : a.noMdStrCan = b.noMdStrCan) : a.sec = b.sec := (congrArg Mod.sec h :)
theorem noMdStrCan_pr {a b : Mod} (h : a.noMdStrCan = b.noMdStrCan) : a.pr = b.pr := (congrArg Mod.pr h :)
theorem noMdStrCan_stateOut {a b : Mod} (h : a.noMdStrCan = b.noMdStrCan) : a.stateOut = b.stateOut := (congrArg Mod.stateOut h :)

@[simp] theorem startStep6_noMdStrCan : (startStep6 m).noMdStrCan = m.noMdStrCan := rfl
@[simp] theorem startStep6_powered : (startStep6 m).powered = m.powered := noMdStrCan_powered (startStep6_noMdStrCan m)
@[simp] theorem startStep6_clk : (startStep6 m).clk = m.clk := noMdStrCan_clk (startStep6_noMdStrCan m)
@[simp] theorem startStep6_freeN : (startStep6 m).freeN = m.freeN := noMdStrCan_freeN (startStep6_noMdStrCan m)
@[simp] theorem startStep6_nv : (startStep6 m).nv = m.nv := noMdStrCan_nv (startStep6_noMdStrCan m)
@[simp] theorem startStep6_cfg : (startStep6 m).cfg = m.cfg := noMdStrCan_cfg (startStep6_noMdStrCan m)
@[simp] theorem startStep6_tm : (startStep6 m).tm = m.tm := noMdStrCan_tm (startStep6_noMdStrCan m)
@[simp] theorem startStep6_ln : (startStep6 m).ln = m.ln := noMdStrCan_ln (startStep6_noMdStrCan m)
@[simp] theorem startStep6_pw : (startStep6 m).pw = m.pw := noMdStrCan_pw (startStep6_noMdStrCan m)
@[simp] theorem startStep6_lg : (startStep6 m).lg = m.lg := noMdStrCan_lg (startStep6_noMdStrCan m)
@[simp] theorem startStep6_cur : (startStep6 m).cur = m.cur := noMdStrCan_cur (startStep6_noMdStrCan m)
@[simp] theorem startStep6_nxt : (startStep6 m).nxt = m.nxt := noMdStrCan_nxt (startStep6_noMdStrCan m)
@[simp] theorem startStep6_en : (startStep6 m).en = m.en := noMdStrCan_en (startStep6_noMdStrCan m)
@[simp] theorem startStep6_fio : (startStep6 m).fio = m.fio := noMdStrCan_fio (startStep6_noMdStrCan m)
@[simp] theorem startStep6_bt : (startStep6 m).bt = m.bt := noMdStrCan_bt (startStep6_noMdStrCan m)
@[simp] theorem startStep6_net : (startStep6 m).net = m.net := noMdStrCan_net (startStep6_noMdStrCan m)
@[simp] theorem startStep6_host : (startStep6 m).host = m.host := noMdStrCan_host (startStep6_noMdStrCan m)
@[simp] theorem startStep6_rcd : (startStep6 m).rcd = m.rcd := noMdStrCan_rcd (startStep6_noMdStrCan m)
@[simp] theorem startStep6_rc : (startStep6 m).rc = m.rc := noMdStrCan_rc (startStep6_noMdStrCan m)
@[simp] theorem startStep6_pc : (startStep6 m).pc = m.pc := noMdStrCan_pc (startStep6_noMdStrCan m)
@[simp] theorem startStep6_up : (startStep6 m).up = m.up := noMdStrCan_up (startStep6_noMdStrCan m)
@[simp] theorem startStep6_sec : (startStep6 m).sec = m.sec := noMdStrCan_sec (startStep6_noMdStrCan m)
@[simp] theorem startStep6_pr : (startStep6 m).pr = m.pr := noMdStrCan_pr (startStep6_noMdStrCan m)
@[simp] theorem startStep6_stateOut : (startStep6 m).stateOut = m.stateOut := noMdStrCan_stateOut (startStep6_noMdStrCan m)

/-- All but tm. -/
def Mod.noTm (m : Mod) : Mod :=
  { m with tm := Pacer.fresh }

theorem noTm_powered {a b : Mod} (h : a.noTm = b.noTm) : a.powered = b.powered := (congrArg Mod.powered h :)
theorem noTm_clk {a b : Mod} (h : a.noTm = b.noTm) : a.clk = b.clk := (congrArg Mod.clk h :)
theorem noTm_freeN {a b : Mod} (h : a.noTm = b.noTm) : a.freeN = b.freeN := (congrArg Mod.freeN h :)
theorem noTm_nv {a b : Mod} (h : a.noTm = b.noTm) : a.nv = b.nv := (congrArg Mod.nv h :)
theorem noTm_cfg {a b : Mod} (h : a.noTm = b.noTm) : a.cfg = b.cfg := (congrArg Mod.cfg h :)
theorem noTm_ln {a b : Mod} (h : a.noTm = b.noTm) : a.ln = b.ln := (congrArg Mod.ln h :)
theorem noTm_md {a b : Mod} (h : a.noTm = b.noTm) : a.md = b.md := (congrArg Mod.md h :)
theorem noTm_pw {a b : Mod} (h : a.noTm = b.noTm) : a.pw = b.pw := (congrArg Mod.pw h :)
theorem noTm_lg {a b : Mod} (h : a.noTm = b.noTm) : a.lg = b.lg := (congrArg Mod.lg h :)
theorem noTm_cur {a b : Mod} (h : a.noTm = b.noTm) : a.cur = b.cur := (congrArg Mod.cur h :)
theorem noTm_nxt {a b : Mod} (h : a.noTm = b.noTm) : a.nxt = b.nxt := (congrArg Mod.nxt h :)
theorem noTm_en {a b : Mod} (h : a.noTm = b.noTm) : a.en = b.en := (congrArg Mod.en h :)
theorem noTm_fio {a b : Mod} (h : a.noTm = b.noTm) : a.fio = b.fio := (congrArg Mod.fio h :)
theorem noTm_bt {a b : Mod} (h : a.noTm = b.noTm) : a.bt = b.bt := (congrArg Mod.bt h :)
theorem noTm_str {a b : Mod} (h : a.noTm = b.noTm) : a.str = b.str := (congrArg Mod.str h :)
theorem noTm_can {a b : Mod} (h : a.noTm = b.noTm) : a.can = b.can := (congrArg Mod.can h :)
theorem noTm_net {a b : Mod} (h : a.noTm = b.noTm) : a.net = b.net := (congrArg Mod.net h :)
theorem noTm_host {a b : Mod} (h : a.noTm = b.noTm) : a.host = b.host := (congrArg Mod.host h :)
theorem noTm_rcd {a b : Mod} (h : a.noTm = b.noTm) : a.rcd = b.rcd := (congrArg Mod.rcd h :)
theorem noTm_rc {a b : Mod} (h : a.noTm = b.noTm) : a.rc = b.rc := (congrArg Mod.rc h :)
theorem noTm_pc {a b : Mod} (h : a.noTm = b.noTm) : a.pc = b.pc := (congrArg Mod.pc h :)
theorem noTm_up {a b : Mod} (h : a.noTm = b.noTm) : a.up = b.up := (congrArg Mod.up h :)
theorem noTm_sec {a b : Mod} (h : a.noTm = b.noTm) : a.sec = b.sec := (congrArg Mod.sec h :)
theorem noTm_pr {a b : Mod} (h : a.noTm = b.noTm) : a.pr = b.pr := (congrArg Mod.pr h :)
theorem noTm_stateOut {a b : Mod} (h : a.noTm = b.noTm) : a.stateOut = b.stateOut := (congrArg Mod.stateOut h :)

@[simp] theorem updSrc_noTm (s : Src) (g : SrcState → SrcState) : (updSrc s g m).noTm = m.noTm := by
  unfold updSrc; rfl
@[simp] theorem updSrc_powered (s : Src) (g : SrcState → SrcState) : (updSrc s g m).powered = m.powered := noTm_powered (updSrc_noTm m s g)
@[simp] theorem updSrc_clk (s : Src) (g : SrcState → SrcState) : (updSrc s g m).clk = m.clk := noTm_clk (updSrc_noTm m s g)
@[simp] theorem updSrc_freeN (s : Src) (g : SrcState → SrcState) : (updSrc s g m).freeN = m.freeN := noTm_freeN (updSrc_noTm m s g)
@[simp] theorem updSrc_nv (s : Src) (g : SrcState → SrcState) : (updSrc s g m).nv = m.nv := noTm_nv (updSrc_noTm m s g)
@[simp] theorem updSrc_cfg (s : Src) (g : SrcState → SrcState) : (updSrc s g m).cfg = m.cfg := noTm_cfg (updSrc_noTm m s g)
@[simp] theorem updSrc_ln (s : Src) (g : SrcState → SrcState) : (updSrc s g m).ln = m.ln := noTm_ln (updSrc_noTm m s g)
@[simp] theorem updSrc_md (s : Src) (g : SrcState → SrcState) : (updSrc s g m).md = m.md := noTm_md (updSrc_noTm m s g)
@[simp] theorem updSrc_pw (s : Src) (g : SrcState → SrcState) : (updSrc s g m).pw = m.pw := noTm_pw (updSrc_noTm m s g)
@[simp] theorem updSrc_lg (s : Src) (g : SrcState → SrcState) : (updSrc s g m).lg = m.lg := noTm_lg (updSrc_noTm m s g)
@[simp] theorem updSrc_cur (s : Src) (g : SrcState → SrcState) : (updSrc s g m).cur = m.cur := noTm_cur (updSrc_noTm m s g)
@[simp] theorem updSrc_nxt (s : Src) (g : SrcState → SrcState) : (updSrc s g m).nxt = m.nxt := noTm_nxt (updSrc_noTm m s g)
@[simp] theorem updSrc_en (s : Src) (g : SrcState → SrcState) : (updSrc s g m).en = m.en := noTm_en (updSrc_noTm m s g)
@[simp] theorem updSrc_fio (s : Src) (g : SrcState → SrcState) : (updSrc s g m).fio = m.fio := noTm_fio (updSrc_noTm m s g)
@[simp] theorem updSrc_bt (s : Src) (g : SrcState → SrcState) : (updSrc s g m).bt = m.bt := noTm_bt (updSrc_noTm m s g)
@[simp] theorem updSrc_str (s : Src) (g : SrcState → SrcState) : (updSrc s g m).str = m.str := noTm_str (updSrc_noTm m s g)
@[simp] theorem updSrc_can (s : Src) (g : SrcState → SrcState) : (updSrc s g m).can = m.can := noTm_can (updSrc_noTm m s g)
@[simp] theorem updSrc_net (s : Src) (g : SrcState → SrcState) : (updSrc s g m).net = m.net := noTm_net (updSrc_noTm m s g)
@[simp] theorem updSrc_host (s : Src) (g : SrcState → SrcState) : (updSrc s g m).host = m.host := noTm_host (updSrc_noTm m s g)
@[simp] theorem updSrc_rcd (s : Src) (g : SrcState → SrcState) : (updSrc s g m).rcd = m.rcd := noTm_rcd (updSrc_noTm m s g)
@[simp] theorem updSrc_rc (s : Src) (g : SrcState → SrcState) : (updSrc s g m).rc = m.rc := noTm_rc (updSrc_noTm m s g)
@[simp] theorem updSrc_pc (s : Src) (g : SrcState → SrcState) : (updSrc s g m).pc = m.pc := noTm_pc (updSrc_noTm m s g)
@[simp] theorem updSrc_up (s : Src) (g : SrcState → SrcState) : (updSrc s g m).up = m.up := noTm_up (updSrc_noTm m s g)
@[simp] theorem updSrc_sec (s : Src) (g : SrcState → SrcState) : (updSrc s g m).sec = m.sec := noTm_sec (updSrc_noTm m s g)
@[simp] theorem updSrc_pr (s : Src) (g : SrcState → SrcState) : (updSrc s g m).pr = m.pr := noTm_pr (updSrc_noTm m s g)
@[simp] theorem updSrc_stateOut (s : Src) (g : SrcState → SrcState) : (updSrc s g m).stateOut = m.stateOut := noTm_stateOut (updSrc_noTm m s g)

@[simp] theorem rebaseOffsets_noTm (taken : Option Src) : (rebaseOffsets taken m).noTm = m.noTm := (rfl)
@[simp] theorem rebaseOffsets_powered (taken : Option Src) : (rebaseOffsets taken m).powered = m.powered := noTm_powered (rebaseOffsets_noTm m taken)
@[simp] theorem rebaseOffsets_clk (taken : Option Src) : (rebaseOffsets taken m).clk = m.clk := noTm_clk (rebaseOffsets_noTm m taken)
@[simp] theorem rebaseOffsets_freeN (taken : Option Src) : (rebaseOffsets taken m).freeN = m.freeN := noTm_freeN (rebaseOffsets_noTm m taken)
@[simp] theorem rebaseOffsets_nv (taken : Option Src) : (rebaseOffsets taken m).nv = m.nv := noTm_nv (rebaseOffsets_noTm m taken)
@[simp] theorem rebaseOffsets_cfg (taken : Option Src) : (rebaseOffsets taken m).cfg = m.cfg := noTm_cfg (rebaseOffsets_noTm m taken)
@[simp] theorem rebaseOffsets_ln (taken : Option Src) : (rebaseOffsets taken m).ln = m.ln := noTm_ln (rebaseOffsets_noTm m taken)
@[simp] theorem rebaseOffsets_md (taken : Option Src) : (rebaseOffsets taken m).md = m.md := noTm_md (rebaseOffsets_noTm m taken)
@[simp] theorem rebaseOffsets_pw (taken : Option Src) : (rebaseOffsets taken m).pw = m.pw := noTm_pw (rebaseOffsets_noTm m taken)
@[simp] theorem rebaseOffsets_lg (taken : Option Src) : (rebaseOffsets taken m).lg = m.lg := noTm_lg (rebaseOffsets_noTm m taken)
@[simp] theorem rebaseOffsets_cur (taken : Option Src) : (rebaseOffsets taken m).cur = m.cur := noTm_cur (rebaseOffsets_noTm m taken)
@[simp] theorem rebaseOffsets_nxt (taken : Option Src) : (rebaseOffsets taken m).nxt = m.nxt := noTm_nxt (rebaseOffsets_noTm m taken)
@[simp] theorem rebaseOffsets_en (taken : Option Src) : (rebaseOffsets taken m).en = m.en := noTm_en (rebaseOffsets_noTm m taken)
@[simp] theorem rebaseOffsets_fio (taken : Option Src) : (rebaseOffsets taken m).fio = m.fio := noTm_fio (rebaseOffsets_noTm m taken)
@[simp] theorem rebaseOffsets_bt (taken : Option Src) : (rebaseOffsets taken m).bt = m.bt := noTm_bt (rebaseOffsets_noTm m taken)
@[simp] theorem rebaseOffsets_str (taken : Option Src) : (rebaseOffsets taken m).str = m.str := noTm_str (rebaseOffsets_noTm m taken)
@[simp] theorem rebaseOffsets_can (taken : Option Src) : (rebaseOffsets taken m).can = m.can := noTm_can (rebaseOffsets_noTm m taken)
@[simp] theorem rebaseOffsets_net (taken : Option Src) : (rebaseOffsets taken m).net = m.net := noTm_net (rebaseOffsets_noTm m taken)
@[simp] theorem rebaseOffsets_host (taken : Option Src) : (rebaseOffsets taken m).host = m.host := noTm_host (rebaseOffsets_noTm m taken)
@[simp] theorem rebaseOffsets_rcd (taken : Option Src) : (rebaseOffsets taken m).rcd = m.rcd := noTm_rcd (rebaseOffsets_noTm m taken)
@[simp] theorem rebaseOffsets_rc (taken : Option Src) : (rebaseOffsets taken m).rc = m.rc := noTm_rc (rebaseOffsets_noTm m taken)
@[simp] theorem rebaseOffsets_pc (taken : Option Src) : (rebaseOffsets taken m).pc = m.pc := noTm_pc (rebaseOffsets_noTm m taken)
@[simp] theorem rebaseOffsets_up (taken : Option Src) : (rebaseOffsets taken m).up = m.up := noTm_up (rebaseOffsets_noTm m taken)
@[simp] theorem rebaseOffsets_sec (taken : Option Src) : (rebaseOffsets taken m).sec = m.sec := noTm_sec (rebaseOffsets_noTm m taken)
@[simp] theorem rebaseOffsets_pr (taken : Option Src) : (rebaseOffsets taken m).pr = m.pr := noTm_pr (rebaseOffsets_noTm m taken)
@[simp] theorem rebaseOffsets_stateOut (taken : Option Src) : (rebaseOffsets taken m).stateOut = m.stateOut := noTm_stateOut (rebaseOffsets_noTm m taken)

/-- All but tm, ln, md. -/
def Mod.noTmLnMd (m : Mod) : Mod :=
  { m with tm := Pacer.fresh, ln := PerLane.all (Lane.fresh (LaneNv.fresh 0 0)), md := Modes.fresh }

theorem noTmLnMd_powered {a b : Mod} (h : a.noTmLnMd = b.noTmLnMd) : a.powered = b.powered := (congrArg Mod.powered h :)
theorem noTmLnMd_clk {a b : Mod} (h : a.noTmLnMd = b.noTmLnMd) : a.clk = b.clk := (congrArg Mod.clk h :)
theorem noTmLnMd_freeN {a b : Mod} (h : a.noTmLnMd = b.noTmLnMd) : a.freeN = b.freeN := (congrArg Mod.freeN h :)
theorem noTmLnMd_nv {a b : Mod} (h : a.noTmLnMd = b.noTmLnMd) : a.nv = b.nv := (congrArg Mod.nv h :)
theorem noTmLnMd_cfg {a b : Mod} (h : a.noTmLnMd = b.noTmLnMd) : a.cfg = b.cfg := (congrArg Mod.cfg h :)
theorem noTmLnMd_pw {a b : Mod} (h : a.noTmLnMd = b.noTmLnMd) : a.pw = b.pw := (congrArg Mod.pw h :)
theorem noTmLnMd_lg {a b : Mod} (h : a.noTmLnMd = b.noTmLnMd) : a.lg = b.lg := (congrArg Mod.lg h :)
theorem noTmLnMd_cur {a b : Mod} (h : a.noTmLnMd = b.noTmLnMd) : a.cur = b.cur := (congrArg Mod.cur h :)
theorem noTmLnMd_nxt {a b : Mod} (h : a.noTmLnMd = b.noTmLnMd) : a.nxt = b.nxt := (congrArg Mod.nxt h :)
theorem noTmLnMd_en {a b : Mod} (h : a.noTmLnMd = b.noTmLnMd) : a.en = b.en := (congrArg Mod.en h :)
theorem noTmLnMd_fio {a b : Mod} (h : a.noTmLnMd = b.noTmLnMd) : a.fio = b.fio := (congrArg Mod.fio h :)
theorem noTmLnMd_bt {a b : Mod} (h : a.noTmLnMd = b.noTmLnMd) : a.bt = b.bt := (congrArg Mod.bt h :)
theorem noTmLnMd_str {a b : Mod} (h : a.noTmLnMd = b.noTmLnMd) : a.str = b.str := (congrArg Mod.str h :)
theorem noTmLnMd_can {a b : Mod} (h : a.noTmLnMd = b.noTmLnMd) : a.can = b.can := (congrArg Mod.can h :)
theorem noTmLnMd_net {a b : Mod} (h : a.noTmLnMd = b.noTmLnMd) : a.net = b.net := (congrArg Mod.net h :)
theorem noTmLnMd_host {a b : Mod} (h : a.noTmLnMd = b.noTmLnMd) : a.host = b.host := (congrArg Mod.host h :)
theorem noTmLnMd_rcd {a b : Mod} (h : a.noTmLnMd = b.noTmLnMd) : a.rcd = b.rcd := (congrArg Mod.rcd h :)
theorem noTmLnMd_rc {a b : Mod} (h : a.noTmLnMd = b.noTmLnMd) : a.rc = b.rc := (congrArg Mod.rc h :)
theorem noTmLnMd_pc {a b : Mod} (h : a.noTmLnMd = b.noTmLnMd) : a.pc = b.pc := (congrArg Mod.pc h :)
theorem noTmLnMd_up {a b : Mod} (h : a.noTmLnMd = b.noTmLnMd) : a.up = b.up := (congrArg Mod.up h :)
theorem noTmLnMd_sec {a b : Mod} (h : a.noTmLnMd = b.noTmLnMd) : a.sec = b.sec := (congrArg Mod.sec h :)
theorem noTmLnMd_pr {a b : Mod} (h : a.noTmLnMd = b.noTmLnMd) : a.pr = b.pr := (congrArg Mod.pr h :)
theorem noTmLnMd_stateOut {a b : Mod} (h : a.noTmLnMd = b.noTmLnMd) : a.stateOut = b.stateOut := (congrArg Mod.stateOut h :)

@[simp] theorem stepTime_noTmLnMd (t : Nat) (k : Option Src) : (stepTime t k m).noTmLnMd = m.noTmLnMd := (rfl)
@[simp] theorem stepTime_powered (t : Nat) (k : Option Src) : (stepTime t k m).powered = m.powered := noTmLnMd_powered (stepTime_noTmLnMd m t k)
@[simp] theorem stepTime_clk (t : Nat) (k : Option Src) : (stepTime t k m).clk = m.clk := noTmLnMd_clk (stepTime_noTmLnMd m t k)
@[simp] theorem stepTime_freeN (t : Nat) (k : Option Src) : (stepTime t k m).freeN = m.freeN := noTmLnMd_freeN (stepTime_noTmLnMd m t k)
@[simp] theorem stepTime_nv (t : Nat) (k : Option Src) : (stepTime t k m).nv = m.nv := noTmLnMd_nv (stepTime_noTmLnMd m t k)
@[simp] theorem stepTime_cfg (t : Nat) (k : Option Src) : (stepTime t k m).cfg = m.cfg := noTmLnMd_cfg (stepTime_noTmLnMd m t k)
@[simp] theorem stepTime_pw (t : Nat) (k : Option Src) : (stepTime t k m).pw = m.pw := noTmLnMd_pw (stepTime_noTmLnMd m t k)
@[simp] theorem stepTime_lg (t : Nat) (k : Option Src) : (stepTime t k m).lg = m.lg := noTmLnMd_lg (stepTime_noTmLnMd m t k)
@[simp] theorem stepTime_cur (t : Nat) (k : Option Src) : (stepTime t k m).cur = m.cur := noTmLnMd_cur (stepTime_noTmLnMd m t k)
@[simp] theorem stepTime_nxt (t : Nat) (k : Option Src) : (stepTime t k m).nxt = m.nxt := noTmLnMd_nxt (stepTime_noTmLnMd m t k)
@[simp] theorem stepTime_en (t : Nat) (k : Option Src) : (stepTime t k m).en = m.en := noTmLnMd_en (stepTime_noTmLnMd m t k)
@[simp] theorem stepTime_fio (t : Nat) (k : Option Src) : (stepTime t k m).fio = m.fio := noTmLnMd_fio (stepTime_noTmLnMd m t k)
@[simp] theorem stepTime_bt (t : Nat) (k : Option Src) : (stepTime t k m).bt = m.bt := noTmLnMd_bt (stepTime_noTmLnMd m t k)
@[simp] theorem stepTime_str (t : Nat) (k : Option Src) : (stepTime t k m).str = m.str := noTmLnMd_str (stepTime_noTmLnMd m t k)
@[simp] theorem stepTime_can (t : Nat) (k : Option Src) : (stepTime t k m).can = m.can := noTmLnMd_can (stepTime_noTmLnMd m t k)
@[simp] theorem stepTime_net (t : Nat) (k : Option Src) : (stepTime t k m).net = m.net := noTmLnMd_net (stepTime_noTmLnMd m t k)
@[simp] theorem stepTime_host (t : Nat) (k : Option Src) : (stepTime t k m).host = m.host := noTmLnMd_host (stepTime_noTmLnMd m t k)
@[simp] theorem stepTime_rcd (t : Nat) (k : Option Src) : (stepTime t k m).rcd = m.rcd := noTmLnMd_rcd (stepTime_noTmLnMd m t k)
@[simp] theorem stepTime_rc (t : Nat) (k : Option Src) : (stepTime t k m).rc = m.rc := noTmLnMd_rc (stepTime_noTmLnMd m t k)
@[simp] theorem stepTime_pc (t : Nat) (k : Option Src) : (stepTime t k m).pc = m.pc := noTmLnMd_pc (stepTime_noTmLnMd m t k)
@[simp] theorem stepTime_up (t : Nat) (k : Option Src) : (stepTime t k m).up = m.up := noTmLnMd_up (stepTime_noTmLnMd m t k)
@[simp] theorem stepTime_sec (t : Nat) (k : Option Src) : (stepTime t k m).sec = m.sec := noTmLnMd_sec (stepTime_noTmLnMd m t k)
@[simp] theorem stepTime_pr (t : Nat) (k : Option Src) : (stepTime t k m).pr = m.pr := noTmLnMd_pr (stepTime_noTmLnMd m t k)
@[simp] theorem stepTime_stateOut (t : Nat) (k : Option Src) : (stepTime t k m).stateOut = m.stateOut := noTmLnMd_stateOut (stepTime_noTmLnMd m t k)

/-- All but tm, ln, md, lg, cur, nxt, en, str, can, host, rcd. -/
def Mod.noTmLnMdLgCurNxtEnStrCanHostRcd (m : Mod) : Mod :=
  { m with tm := Pacer.fresh, ln := PerLane.all (Lane.fresh (LaneNv.fresh 0 0)), md := Modes.fresh, lg := Logic.fresh AppImage.empty, cur := [], nxt := [], en := Engine.fresh, str := Stride.fresh 0, can := ⟨0, [], []⟩, host := HostIf.fresh, rcd := Recorder.fresh }

theorem noTmLnMdLgCurNxtEnStrCanHostRcd_powered {a b : Mod} (h : a.noTmLnMdLgCurNxtEnStrCanHostRcd = b.noTmLnMdLgCurNxtEnStrCanHostRcd) : a.powered = b.powered := (congrArg Mod.powered h :)
theorem noTmLnMdLgCurNxtEnStrCanHostRcd_clk {a b : Mod} (h : a.noTmLnMdLgCurNxtEnStrCanHostRcd = b.noTmLnMdLgCurNxtEnStrCanHostRcd) : a.clk = b.clk := (congrArg Mod.clk h :)
theorem noTmLnMdLgCurNxtEnStrCanHostRcd_freeN {a b : Mod} (h : a.noTmLnMdLgCurNxtEnStrCanHostRcd = b.noTmLnMdLgCurNxtEnStrCanHostRcd) : a.freeN = b.freeN := (congrArg Mod.freeN h :)
theorem noTmLnMdLgCurNxtEnStrCanHostRcd_nv {a b : Mod} (h : a.noTmLnMdLgCurNxtEnStrCanHostRcd = b.noTmLnMdLgCurNxtEnStrCanHostRcd) : a.nv = b.nv := (congrArg Mod.nv h :)
theorem noTmLnMdLgCurNxtEnStrCanHostRcd_cfg {a b : Mod} (h : a.noTmLnMdLgCurNxtEnStrCanHostRcd = b.noTmLnMdLgCurNxtEnStrCanHostRcd) : a.cfg = b.cfg := (congrArg Mod.cfg h :)
theorem noTmLnMdLgCurNxtEnStrCanHostRcd_pw {a b : Mod} (h : a.noTmLnMdLgCurNxtEnStrCanHostRcd = b.noTmLnMdLgCurNxtEnStrCanHostRcd) : a.pw = b.pw := (congrArg Mod.pw h :)
theorem noTmLnMdLgCurNxtEnStrCanHostRcd_fio {a b : Mod} (h : a.noTmLnMdLgCurNxtEnStrCanHostRcd = b.noTmLnMdLgCurNxtEnStrCanHostRcd) : a.fio = b.fio := (congrArg Mod.fio h :)
theorem noTmLnMdLgCurNxtEnStrCanHostRcd_bt {a b : Mod} (h : a.noTmLnMdLgCurNxtEnStrCanHostRcd = b.noTmLnMdLgCurNxtEnStrCanHostRcd) : a.bt = b.bt := (congrArg Mod.bt h :)
theorem noTmLnMdLgCurNxtEnStrCanHostRcd_net {a b : Mod} (h : a.noTmLnMdLgCurNxtEnStrCanHostRcd = b.noTmLnMdLgCurNxtEnStrCanHostRcd) : a.net = b.net := (congrArg Mod.net h :)
theorem noTmLnMdLgCurNxtEnStrCanHostRcd_rc {a b : Mod} (h : a.noTmLnMdLgCurNxtEnStrCanHostRcd = b.noTmLnMdLgCurNxtEnStrCanHostRcd) : a.rc = b.rc := (congrArg Mod.rc h :)
theorem noTmLnMdLgCurNxtEnStrCanHostRcd_pc {a b : Mod} (h : a.noTmLnMdLgCurNxtEnStrCanHostRcd = b.noTmLnMdLgCurNxtEnStrCanHostRcd) : a.pc = b.pc := (congrArg Mod.pc h :)
theorem noTmLnMdLgCurNxtEnStrCanHostRcd_up {a b : Mod} (h : a.noTmLnMdLgCurNxtEnStrCanHostRcd = b.noTmLnMdLgCurNxtEnStrCanHostRcd) : a.up = b.up := (congrArg Mod.up h :)
theorem noTmLnMdLgCurNxtEnStrCanHostRcd_sec {a b : Mod} (h : a.noTmLnMdLgCurNxtEnStrCanHostRcd = b.noTmLnMdLgCurNxtEnStrCanHostRcd) : a.sec = b.sec := (congrArg Mod.sec h :)
theorem noTmLnMdLgCurNxtEnStrCanHostRcd_pr {a b : Mod} (h : a.noTmLnMdLgCurNxtEnStrCanHostRcd = b.noTmLnMdLgCurNxtEnStrCanHostRcd) : a.pr = b.pr := (congrArg Mod.pr h :)
theorem noTmLnMdLgCurNxtEnStrCanHostRcd_stateOut {a b : Mod} (h : a.noTmLnMdLgCurNxtEnStrCanHostRcd = b.noTmLnMdLgCurNxtEnStrCanHostRcd) : a.stateOut = b.stateOut := (congrArg Mod.stateOut h :)

@[simp] theorem takeSource_noTmLnMdLgCurNxtEnStrCanHostRcd (src : Src) (time : Nat) (meas : SrcMeas) : (takeSource src time meas m).noTmLnMdLgCurNxtEnStrCanHostRcd = m.noTmLnMdLgCurNxtEnStrCanHostRcd := by
  unfold takeSource; dsimp only; (repeat' split) <;> simp [Mod.noTmLnMdLgCurNxtEnStrCanHostRcd]
@[simp] theorem takeSource_powered (src : Src) (time : Nat) (meas : SrcMeas) : (takeSource src time meas m).powered = m.powered := noTmLnMdLgCurNxtEnStrCanHostRcd_powered (takeSource_noTmLnMdLgCurNxtEnStrCanHostRcd m src time meas)
@[simp] theorem takeSource_clk (src : Src) (time : Nat) (meas : SrcMeas) : (takeSource src time meas m).clk = m.clk := noTmLnMdLgCurNxtEnStrCanHostRcd_clk (takeSource_noTmLnMdLgCurNxtEnStrCanHostRcd m src time meas)
@[simp] theorem takeSource_freeN (src : Src) (time : Nat) (meas : SrcMeas) : (takeSource src time meas m).freeN = m.freeN := noTmLnMdLgCurNxtEnStrCanHostRcd_freeN (takeSource_noTmLnMdLgCurNxtEnStrCanHostRcd m src time meas)
@[simp] theorem takeSource_nv (src : Src) (time : Nat) (meas : SrcMeas) : (takeSource src time meas m).nv = m.nv := noTmLnMdLgCurNxtEnStrCanHostRcd_nv (takeSource_noTmLnMdLgCurNxtEnStrCanHostRcd m src time meas)
@[simp] theorem takeSource_cfg (src : Src) (time : Nat) (meas : SrcMeas) : (takeSource src time meas m).cfg = m.cfg := noTmLnMdLgCurNxtEnStrCanHostRcd_cfg (takeSource_noTmLnMdLgCurNxtEnStrCanHostRcd m src time meas)
@[simp] theorem takeSource_pw (src : Src) (time : Nat) (meas : SrcMeas) : (takeSource src time meas m).pw = m.pw := noTmLnMdLgCurNxtEnStrCanHostRcd_pw (takeSource_noTmLnMdLgCurNxtEnStrCanHostRcd m src time meas)
@[simp] theorem takeSource_fio (src : Src) (time : Nat) (meas : SrcMeas) : (takeSource src time meas m).fio = m.fio := noTmLnMdLgCurNxtEnStrCanHostRcd_fio (takeSource_noTmLnMdLgCurNxtEnStrCanHostRcd m src time meas)
@[simp] theorem takeSource_bt (src : Src) (time : Nat) (meas : SrcMeas) : (takeSource src time meas m).bt = m.bt := noTmLnMdLgCurNxtEnStrCanHostRcd_bt (takeSource_noTmLnMdLgCurNxtEnStrCanHostRcd m src time meas)
@[simp] theorem takeSource_net (src : Src) (time : Nat) (meas : SrcMeas) : (takeSource src time meas m).net = m.net := noTmLnMdLgCurNxtEnStrCanHostRcd_net (takeSource_noTmLnMdLgCurNxtEnStrCanHostRcd m src time meas)
@[simp] theorem takeSource_rc (src : Src) (time : Nat) (meas : SrcMeas) : (takeSource src time meas m).rc = m.rc := noTmLnMdLgCurNxtEnStrCanHostRcd_rc (takeSource_noTmLnMdLgCurNxtEnStrCanHostRcd m src time meas)
@[simp] theorem takeSource_pc (src : Src) (time : Nat) (meas : SrcMeas) : (takeSource src time meas m).pc = m.pc := noTmLnMdLgCurNxtEnStrCanHostRcd_pc (takeSource_noTmLnMdLgCurNxtEnStrCanHostRcd m src time meas)
@[simp] theorem takeSource_up (src : Src) (time : Nat) (meas : SrcMeas) : (takeSource src time meas m).up = m.up := noTmLnMdLgCurNxtEnStrCanHostRcd_up (takeSource_noTmLnMdLgCurNxtEnStrCanHostRcd m src time meas)
@[simp] theorem takeSource_sec (src : Src) (time : Nat) (meas : SrcMeas) : (takeSource src time meas m).sec = m.sec := noTmLnMdLgCurNxtEnStrCanHostRcd_sec (takeSource_noTmLnMdLgCurNxtEnStrCanHostRcd m src time meas)
@[simp] theorem takeSource_pr (src : Src) (time : Nat) (meas : SrcMeas) : (takeSource src time meas m).pr = m.pr := noTmLnMdLgCurNxtEnStrCanHostRcd_pr (takeSource_noTmLnMdLgCurNxtEnStrCanHostRcd m src time meas)
@[simp] theorem takeSource_stateOut (src : Src) (time : Nat) (meas : SrcMeas) : (takeSource src time meas m).stateOut = m.stateOut := noTmLnMdLgCurNxtEnStrCanHostRcd_stateOut (takeSource_noTmLnMdLgCurNxtEnStrCanHostRcd m src time meas)

/-- All but tm, host, rcd. -/
def Mod.noTmHostRcd (m : Mod) : Mod :=
  { m with tm := Pacer.fresh, host := HostIf.fresh, rcd := Recorder.fresh }

theorem noTmHostRcd_powered {a b : Mod} (h : a.noTmHostRcd = b.noTmHostRcd) : a.powered = b.powered := (congrArg Mod.powered h :)
theorem noTmHostRcd_clk {a b : Mod} (h : a.noTmHostRcd = b.noTmHostRcd) : a.clk = b.clk := (congrArg Mod.clk h :)
theorem noTmHostRcd_freeN {a b : Mod} (h : a.noTmHostRcd = b.noTmHostRcd) : a.freeN = b.freeN := (congrArg Mod.freeN h :)
theorem noTmHostRcd_nv {a b : Mod} (h : a.noTmHostRcd = b.noTmHostRcd) : a.nv = b.nv := (congrArg Mod.nv h :)
theorem noTmHostRcd_cfg {a b : Mod} (h : a.noTmHostRcd = b.noTmHostRcd) : a.cfg = b.cfg := (congrArg Mod.cfg h :)
theorem noTmHostRcd_ln {a b : Mod} (h : a.noTmHostRcd = b.noTmHostRcd) : a.ln = b.ln := (congrArg Mod.ln h :)
theorem noTmHostRcd_md {a b : Mod} (h : a.noTmHostRcd = b.noTmHostRcd) : a.md = b.md := (congrArg Mod.md h :)
theorem noTmHostRcd_pw {a b : Mod} (h : a.noTmHostRcd = b.noTmHostRcd) : a.pw = b.pw := (congrArg Mod.pw h :)
theorem noTmHostRcd_lg {a b : Mod} (h : a.noTmHostRcd = b.noTmHostRcd) : a.lg = b.lg := (congrArg Mod.lg h :)
theorem noTmHostRcd_cur {a b : Mod} (h : a.noTmHostRcd = b.noTmHostRcd) : a.cur = b.cur := (congrArg Mod.cur h :)
theorem noTmHostRcd_nxt {a b : Mod} (h : a.noTmHostRcd = b.noTmHostRcd) : a.nxt = b.nxt := (congrArg Mod.nxt h :)
theorem noTmHostRcd_en {a b : Mod} (h : a.noTmHostRcd = b.noTmHostRcd) : a.en = b.en := (congrArg Mod.en h :)
theorem noTmHostRcd_fio {a b : Mod} (h : a.noTmHostRcd = b.noTmHostRcd) : a.fio = b.fio := (congrArg Mod.fio h :)
theorem noTmHostRcd_bt {a b : Mod} (h : a.noTmHostRcd = b.noTmHostRcd) : a.bt = b.bt := (congrArg Mod.bt h :)
theorem noTmHostRcd_str {a b : Mod} (h : a.noTmHostRcd = b.noTmHostRcd) : a.str = b.str := (congrArg Mod.str h :)
theorem noTmHostRcd_can {a b : Mod} (h : a.noTmHostRcd = b.noTmHostRcd) : a.can = b.can := (congrArg Mod.can h :)
theorem noTmHostRcd_net {a b : Mod} (h : a.noTmHostRcd = b.noTmHostRcd) : a.net = b.net := (congrArg Mod.net h :)
theorem noTmHostRcd_rc {a b : Mod} (h : a.noTmHostRcd = b.noTmHostRcd) : a.rc = b.rc := (congrArg Mod.rc h :)
theorem noTmHostRcd_pc {a b : Mod} (h : a.noTmHostRcd = b.noTmHostRcd) : a.pc = b.pc := (congrArg Mod.pc h :)
theorem noTmHostRcd_up {a b : Mod} (h : a.noTmHostRcd = b.noTmHostRcd) : a.up = b.up := (congrArg Mod.up h :)
theorem noTmHostRcd_sec {a b : Mod} (h : a.noTmHostRcd = b.noTmHostRcd) : a.sec = b.sec := (congrArg Mod.sec h :)
theorem noTmHostRcd_pr {a b : Mod} (h : a.noTmHostRcd = b.noTmHostRcd) : a.pr = b.pr := (congrArg Mod.pr h :)
theorem noTmHostRcd_stateOut {a b : Mod} (h : a.noTmHostRcd = b.noTmHostRcd) : a.stateOut = b.stateOut := (congrArg Mod.stateOut h :)

@[simp] theorem tellSearch_noTmHostRcd : (tellSearch m).noTmHostRcd = m.noTmHostRcd := by
  unfold tellSearch; split <;> simp [Mod.noTmHostRcd]
@[simp] theorem tellSearch_powered : (tellSearch m).powered = m.powered := noTmHostRcd_powered (tellSearch_noTmHostRcd m)
@[simp] theorem tellSearch_clk : (tellSearch m).clk = m.clk := noTmHostRcd_clk (tellSearch_noTmHostRcd m)
@[simp] theorem tellSearch_freeN : (tellSearch m).freeN = m.freeN := noTmHostRcd_freeN (tellSearch_noTmHostRcd m)
@[simp] theorem tellSearch_nv : (tellSearch m).nv = m.nv := noTmHostRcd_nv (tellSearch_noTmHostRcd m)
@[simp] theorem tellSearch_cfg : (tellSearch m).cfg = m.cfg := noTmHostRcd_cfg (tellSearch_noTmHostRcd m)
@[simp] theorem tellSearch_ln : (tellSearch m).ln = m.ln := noTmHostRcd_ln (tellSearch_noTmHostRcd m)
@[simp] theorem tellSearch_md : (tellSearch m).md = m.md := noTmHostRcd_md (tellSearch_noTmHostRcd m)
@[simp] theorem tellSearch_pw : (tellSearch m).pw = m.pw := noTmHostRcd_pw (tellSearch_noTmHostRcd m)
@[simp] theorem tellSearch_lg : (tellSearch m).lg = m.lg := noTmHostRcd_lg (tellSearch_noTmHostRcd m)
@[simp] theorem tellSearch_cur : (tellSearch m).cur = m.cur := noTmHostRcd_cur (tellSearch_noTmHostRcd m)
@[simp] theorem tellSearch_nxt : (tellSearch m).nxt = m.nxt := noTmHostRcd_nxt (tellSearch_noTmHostRcd m)
@[simp] theorem tellSearch_en : (tellSearch m).en = m.en := noTmHostRcd_en (tellSearch_noTmHostRcd m)
@[simp] theorem tellSearch_fio : (tellSearch m).fio = m.fio := noTmHostRcd_fio (tellSearch_noTmHostRcd m)
@[simp] theorem tellSearch_bt : (tellSearch m).bt = m.bt := noTmHostRcd_bt (tellSearch_noTmHostRcd m)
@[simp] theorem tellSearch_str : (tellSearch m).str = m.str := noTmHostRcd_str (tellSearch_noTmHostRcd m)
@[simp] theorem tellSearch_can : (tellSearch m).can = m.can := noTmHostRcd_can (tellSearch_noTmHostRcd m)
@[simp] theorem tellSearch_net : (tellSearch m).net = m.net := noTmHostRcd_net (tellSearch_noTmHostRcd m)
@[simp] theorem tellSearch_rc : (tellSearch m).rc = m.rc := noTmHostRcd_rc (tellSearch_noTmHostRcd m)
@[simp] theorem tellSearch_pc : (tellSearch m).pc = m.pc := noTmHostRcd_pc (tellSearch_noTmHostRcd m)
@[simp] theorem tellSearch_up : (tellSearch m).up = m.up := noTmHostRcd_up (tellSearch_noTmHostRcd m)
@[simp] theorem tellSearch_sec : (tellSearch m).sec = m.sec := noTmHostRcd_sec (tellSearch_noTmHostRcd m)
@[simp] theorem tellSearch_pr : (tellSearch m).pr = m.pr := noTmHostRcd_pr (tellSearch_noTmHostRcd m)
@[simp] theorem tellSearch_stateOut : (tellSearch m).stateOut = m.stateOut := noTmHostRcd_stateOut (tellSearch_noTmHostRcd m)

/-- All but tm, ln, md, host, rcd. -/
def Mod.noTmLnMdHostRcd (m : Mod) : Mod :=
  { m with tm := Pacer.fresh, ln := PerLane.all (Lane.fresh (LaneNv.fresh 0 0)), md := Modes.fresh, host := HostIf.fresh, rcd := Recorder.fresh }

theorem noTmLnMdHostRcd_powered {a b : Mod} (h : a.noTmLnMdHostRcd = b.noTmLnMdHostRcd) : a.powered = b.powered := (congrArg Mod.powered h :)
theorem noTmLnMdHostRcd_clk {a b : Mod} (h : a.noTmLnMdHostRcd = b.noTmLnMdHostRcd) : a.clk = b.clk := (congrArg Mod.clk h :)
theorem noTmLnMdHostRcd_freeN {a b : Mod} (h : a.noTmLnMdHostRcd = b.noTmLnMdHostRcd) : a.freeN = b.freeN := (congrArg Mod.freeN h :)
theorem noTmLnMdHostRcd_nv {a b : Mod} (h : a.noTmLnMdHostRcd = b.noTmLnMdHostRcd) : a.nv = b.nv := (congrArg Mod.nv h :)
theorem noTmLnMdHostRcd_cfg {a b : Mod} (h : a.noTmLnMdHostRcd = b.noTmLnMdHostRcd) : a.cfg = b.cfg := (congrArg Mod.cfg h :)
theorem noTmLnMdHostRcd_pw {a b : Mod} (h : a.noTmLnMdHostRcd = b.noTmLnMdHostRcd) : a.pw = b.pw := (congrArg Mod.pw h :)
theorem noTmLnMdHostRcd_lg {a b : Mod} (h : a.noTmLnMdHostRcd = b.noTmLnMdHostRcd) : a.lg = b.lg := (congrArg Mod.lg h :)
theorem noTmLnMdHostRcd_cur {a b : Mod} (h : a.noTmLnMdHostRcd = b.noTmLnMdHostRcd) : a.cur = b.cur := (congrArg Mod.cur h :)
theorem noTmLnMdHostRcd_nxt {a b : Mod} (h : a.noTmLnMdHostRcd = b.noTmLnMdHostRcd) : a.nxt = b.nxt := (congrArg Mod.nxt h :)
theorem noTmLnMdHostRcd_en {a b : Mod} (h : a.noTmLnMdHostRcd = b.noTmLnMdHostRcd) : a.en = b.en := (congrArg Mod.en h :)
theorem noTmLnMdHostRcd_fio {a b : Mod} (h : a.noTmLnMdHostRcd = b.noTmLnMdHostRcd) : a.fio = b.fio := (congrArg Mod.fio h :)
theorem noTmLnMdHostRcd_bt {a b : Mod} (h : a.noTmLnMdHostRcd = b.noTmLnMdHostRcd) : a.bt = b.bt := (congrArg Mod.bt h :)
theorem noTmLnMdHostRcd_str {a b : Mod} (h : a.noTmLnMdHostRcd = b.noTmLnMdHostRcd) : a.str = b.str := (congrArg Mod.str h :)
theorem noTmLnMdHostRcd_can {a b : Mod} (h : a.noTmLnMdHostRcd = b.noTmLnMdHostRcd) : a.can = b.can := (congrArg Mod.can h :)
theorem noTmLnMdHostRcd_net {a b : Mod} (h : a.noTmLnMdHostRcd = b.noTmLnMdHostRcd) : a.net = b.net := (congrArg Mod.net h :)
theorem noTmLnMdHostRcd_rc {a b : Mod} (h : a.noTmLnMdHostRcd = b.noTmLnMdHostRcd) : a.rc = b.rc := (congrArg Mod.rc h :)
theorem noTmLnMdHostRcd_pc {a b : Mod} (h : a.noTmLnMdHostRcd = b.noTmLnMdHostRcd) : a.pc = b.pc := (congrArg Mod.pc h :)
theorem noTmLnMdHostRcd_up {a b : Mod} (h : a.noTmLnMdHostRcd = b.noTmLnMdHostRcd) : a.up = b.up := (congrArg Mod.up h :)
theorem noTmLnMdHostRcd_sec {a b : Mod} (h : a.noTmLnMdHostRcd = b.noTmLnMdHostRcd) : a.sec = b.sec := (congrArg Mod.sec h :)
theorem noTmLnMdHostRcd_pr {a b : Mod} (h : a.noTmLnMdHostRcd = b.noTmLnMdHostRcd) : a.pr = b.pr := (congrArg Mod.pr h :)
theorem noTmLnMdHostRcd_stateOut {a b : Mod} (h : a.noTmLnMdHostRcd = b.noTmLnMdHostRcd) : a.stateOut = b.stateOut := (congrArg Mod.stateOut h :)

@[simp] theorem ownTimeline_noTmLnMdHostRcd (f : Nat) : (ownTimeline f m).noTmLnMdHostRcd = m.noTmLnMdHostRcd := by
  have a1 : ∀ (x : Mod) (g : Pacer → Pacer), (updTm g x).noTmLnMdHostRcd = x.noTmLnMdHostRcd := fun _ _ => rfl
  have a2 : ∀ (t : Nat) (k : Option Src) (x : Mod), (stepTime t k x).noTmLnMdHostRcd = x.noTmLnMdHostRcd := fun _ _ _ => rfl
  have a3 : ∀ (x : Mod), (tellSearch x).noTmLnMdHostRcd = x.noTmLnMdHostRcd := fun x => by simp [Mod.noTmLnMdHostRcd]
  unfold ownTimeline; dsimp only; rw [a1, a2, a3]
@[simp] theorem ownTimeline_powered (f : Nat) : (ownTimeline f m).powered = m.powered := noTmLnMdHostRcd_powered (ownTimeline_noTmLnMdHostRcd m f)
@[simp] theorem ownTimeline_clk (f : Nat) : (ownTimeline f m).clk = m.clk := noTmLnMdHostRcd_clk (ownTimeline_noTmLnMdHostRcd m f)
@[simp] theorem ownTimeline_freeN (f : Nat) : (ownTimeline f m).freeN = m.freeN := noTmLnMdHostRcd_freeN (ownTimeline_noTmLnMdHostRcd m f)
@[simp] theorem ownTimeline_nv (f : Nat) : (ownTimeline f m).nv = m.nv := noTmLnMdHostRcd_nv (ownTimeline_noTmLnMdHostRcd m f)
@[simp] theorem ownTimeline_cfg (f : Nat) : (ownTimeline f m).cfg = m.cfg := noTmLnMdHostRcd_cfg (ownTimeline_noTmLnMdHostRcd m f)
@[simp] theorem ownTimeline_pw (f : Nat) : (ownTimeline f m).pw = m.pw := noTmLnMdHostRcd_pw (ownTimeline_noTmLnMdHostRcd m f)
@[simp] theorem ownTimeline_lg (f : Nat) : (ownTimeline f m).lg = m.lg := noTmLnMdHostRcd_lg (ownTimeline_noTmLnMdHostRcd m f)
@[simp] theorem ownTimeline_cur (f : Nat) : (ownTimeline f m).cur = m.cur := noTmLnMdHostRcd_cur (ownTimeline_noTmLnMdHostRcd m f)
@[simp] theorem ownTimeline_nxt (f : Nat) : (ownTimeline f m).nxt = m.nxt := noTmLnMdHostRcd_nxt (ownTimeline_noTmLnMdHostRcd m f)
@[simp] theorem ownTimeline_en (f : Nat) : (ownTimeline f m).en = m.en := noTmLnMdHostRcd_en (ownTimeline_noTmLnMdHostRcd m f)
@[simp] theorem ownTimeline_fio (f : Nat) : (ownTimeline f m).fio = m.fio := noTmLnMdHostRcd_fio (ownTimeline_noTmLnMdHostRcd m f)
@[simp] theorem ownTimeline_bt (f : Nat) : (ownTimeline f m).bt = m.bt := noTmLnMdHostRcd_bt (ownTimeline_noTmLnMdHostRcd m f)
@[simp] theorem ownTimeline_str (f : Nat) : (ownTimeline f m).str = m.str := noTmLnMdHostRcd_str (ownTimeline_noTmLnMdHostRcd m f)
@[simp] theorem ownTimeline_can (f : Nat) : (ownTimeline f m).can = m.can := noTmLnMdHostRcd_can (ownTimeline_noTmLnMdHostRcd m f)
@[simp] theorem ownTimeline_net (f : Nat) : (ownTimeline f m).net = m.net := noTmLnMdHostRcd_net (ownTimeline_noTmLnMdHostRcd m f)
@[simp] theorem ownTimeline_rc (f : Nat) : (ownTimeline f m).rc = m.rc := noTmLnMdHostRcd_rc (ownTimeline_noTmLnMdHostRcd m f)
@[simp] theorem ownTimeline_pc (f : Nat) : (ownTimeline f m).pc = m.pc := noTmLnMdHostRcd_pc (ownTimeline_noTmLnMdHostRcd m f)
@[simp] theorem ownTimeline_up (f : Nat) : (ownTimeline f m).up = m.up := noTmLnMdHostRcd_up (ownTimeline_noTmLnMdHostRcd m f)
@[simp] theorem ownTimeline_sec (f : Nat) : (ownTimeline f m).sec = m.sec := noTmLnMdHostRcd_sec (ownTimeline_noTmLnMdHostRcd m f)
@[simp] theorem ownTimeline_pr (f : Nat) : (ownTimeline f m).pr = m.pr := noTmLnMdHostRcd_pr (ownTimeline_noTmLnMdHostRcd m f)
@[simp] theorem ownTimeline_stateOut (f : Nat) : (ownTimeline f m).stateOut = m.stateOut := noTmLnMdHostRcd_stateOut (ownTimeline_noTmLnMdHostRcd m f)

/-- All but clk, freeN, tm, ln, md, lg, cur, nxt, en, str, can, host, rcd. -/
def Mod.noClkFreeNTmLnMdLgCurNxtEnStrCanHostRcd (m : Mod) : Mod :=
  { m with clk := 0, freeN := 0, tm := Pacer.fresh, ln := PerLane.all (Lane.fresh (LaneNv.fresh 0 0)), md := Modes.fresh, lg := Logic.fresh AppImage.empty, cur := [], nxt := [], en := Engine.fresh, str := Stride.fresh 0, can := ⟨0, [], []⟩, host := HostIf.fresh, rcd := Recorder.fresh }

theorem noClkFreeNTmLnMdLgCurNxtEnStrCanHostRcd_powered {a b : Mod} (h : a.noClkFreeNTmLnMdLgCurNxtEnStrCanHostRcd = b.noClkFreeNTmLnMdLgCurNxtEnStrCanHostRcd) : a.powered = b.powered := (congrArg Mod.powered h :)
theorem noClkFreeNTmLnMdLgCurNxtEnStrCanHostRcd_nv {a b : Mod} (h : a.noClkFreeNTmLnMdLgCurNxtEnStrCanHostRcd = b.noClkFreeNTmLnMdLgCurNxtEnStrCanHostRcd) : a.nv = b.nv := (congrArg Mod.nv h :)
theorem noClkFreeNTmLnMdLgCurNxtEnStrCanHostRcd_cfg {a b : Mod} (h : a.noClkFreeNTmLnMdLgCurNxtEnStrCanHostRcd = b.noClkFreeNTmLnMdLgCurNxtEnStrCanHostRcd) : a.cfg = b.cfg := (congrArg Mod.cfg h :)
theorem noClkFreeNTmLnMdLgCurNxtEnStrCanHostRcd_pw {a b : Mod} (h : a.noClkFreeNTmLnMdLgCurNxtEnStrCanHostRcd = b.noClkFreeNTmLnMdLgCurNxtEnStrCanHostRcd) : a.pw = b.pw := (congrArg Mod.pw h :)
theorem noClkFreeNTmLnMdLgCurNxtEnStrCanHostRcd_fio {a b : Mod} (h : a.noClkFreeNTmLnMdLgCurNxtEnStrCanHostRcd = b.noClkFreeNTmLnMdLgCurNxtEnStrCanHostRcd) : a.fio = b.fio := (congrArg Mod.fio h :)
theorem noClkFreeNTmLnMdLgCurNxtEnStrCanHostRcd_bt {a b : Mod} (h : a.noClkFreeNTmLnMdLgCurNxtEnStrCanHostRcd = b.noClkFreeNTmLnMdLgCurNxtEnStrCanHostRcd) : a.bt = b.bt := (congrArg Mod.bt h :)
theorem noClkFreeNTmLnMdLgCurNxtEnStrCanHostRcd_net {a b : Mod} (h : a.noClkFreeNTmLnMdLgCurNxtEnStrCanHostRcd = b.noClkFreeNTmLnMdLgCurNxtEnStrCanHostRcd) : a.net = b.net := (congrArg Mod.net h :)
theorem noClkFreeNTmLnMdLgCurNxtEnStrCanHostRcd_rc {a b : Mod} (h : a.noClkFreeNTmLnMdLgCurNxtEnStrCanHostRcd = b.noClkFreeNTmLnMdLgCurNxtEnStrCanHostRcd) : a.rc = b.rc := (congrArg Mod.rc h :)
theorem noClkFreeNTmLnMdLgCurNxtEnStrCanHostRcd_pc {a b : Mod} (h : a.noClkFreeNTmLnMdLgCurNxtEnStrCanHostRcd = b.noClkFreeNTmLnMdLgCurNxtEnStrCanHostRcd) : a.pc = b.pc := (congrArg Mod.pc h :)
theorem noClkFreeNTmLnMdLgCurNxtEnStrCanHostRcd_up {a b : Mod} (h : a.noClkFreeNTmLnMdLgCurNxtEnStrCanHostRcd = b.noClkFreeNTmLnMdLgCurNxtEnStrCanHostRcd) : a.up = b.up := (congrArg Mod.up h :)
theorem noClkFreeNTmLnMdLgCurNxtEnStrCanHostRcd_sec {a b : Mod} (h : a.noClkFreeNTmLnMdLgCurNxtEnStrCanHostRcd = b.noClkFreeNTmLnMdLgCurNxtEnStrCanHostRcd) : a.sec = b.sec := (congrArg Mod.sec h :)
theorem noClkFreeNTmLnMdLgCurNxtEnStrCanHostRcd_pr {a b : Mod} (h : a.noClkFreeNTmLnMdLgCurNxtEnStrCanHostRcd = b.noClkFreeNTmLnMdLgCurNxtEnStrCanHostRcd) : a.pr = b.pr := (congrArg Mod.pr h :)
theorem noClkFreeNTmLnMdLgCurNxtEnStrCanHostRcd_stateOut {a b : Mod} (h : a.noClkFreeNTmLnMdLgCurNxtEnStrCanHostRcd = b.noClkFreeNTmLnMdLgCurNxtEnStrCanHostRcd) : a.stateOut = b.stateOut := (congrArg Mod.stateOut h :)

@[simp] theorem acqTimeout_noClkFreeNTmLnMdLgCurNxtEnStrCanHostRcd : (acqTimeout m).noClkFreeNTmLnMdLgCurNxtEnStrCanHostRcd = m.noClkFreeNTmLnMdLgCurNxtEnStrCanHostRcd := by
  unfold acqTimeout; dsimp only; (repeat' split) <;> simp [Mod.noClkFreeNTmLnMdLgCurNxtEnStrCanHostRcd]
@[simp] theorem acqTimeout_powered : (acqTimeout m).powered = m.powered := noClkFreeNTmLnMdLgCurNxtEnStrCanHostRcd_powered (acqTimeout_noClkFreeNTmLnMdLgCurNxtEnStrCanHostRcd m)
@[simp] theorem acqTimeout_nv : (acqTimeout m).nv = m.nv := noClkFreeNTmLnMdLgCurNxtEnStrCanHostRcd_nv (acqTimeout_noClkFreeNTmLnMdLgCurNxtEnStrCanHostRcd m)
@[simp] theorem acqTimeout_cfg : (acqTimeout m).cfg = m.cfg := noClkFreeNTmLnMdLgCurNxtEnStrCanHostRcd_cfg (acqTimeout_noClkFreeNTmLnMdLgCurNxtEnStrCanHostRcd m)
@[simp] theorem acqTimeout_pw : (acqTimeout m).pw = m.pw := noClkFreeNTmLnMdLgCurNxtEnStrCanHostRcd_pw (acqTimeout_noClkFreeNTmLnMdLgCurNxtEnStrCanHostRcd m)
@[simp] theorem acqTimeout_fio : (acqTimeout m).fio = m.fio := noClkFreeNTmLnMdLgCurNxtEnStrCanHostRcd_fio (acqTimeout_noClkFreeNTmLnMdLgCurNxtEnStrCanHostRcd m)
@[simp] theorem acqTimeout_bt : (acqTimeout m).bt = m.bt := noClkFreeNTmLnMdLgCurNxtEnStrCanHostRcd_bt (acqTimeout_noClkFreeNTmLnMdLgCurNxtEnStrCanHostRcd m)
@[simp] theorem acqTimeout_net : (acqTimeout m).net = m.net := noClkFreeNTmLnMdLgCurNxtEnStrCanHostRcd_net (acqTimeout_noClkFreeNTmLnMdLgCurNxtEnStrCanHostRcd m)
@[simp] theorem acqTimeout_rc : (acqTimeout m).rc = m.rc := noClkFreeNTmLnMdLgCurNxtEnStrCanHostRcd_rc (acqTimeout_noClkFreeNTmLnMdLgCurNxtEnStrCanHostRcd m)
@[simp] theorem acqTimeout_pc : (acqTimeout m).pc = m.pc := noClkFreeNTmLnMdLgCurNxtEnStrCanHostRcd_pc (acqTimeout_noClkFreeNTmLnMdLgCurNxtEnStrCanHostRcd m)
@[simp] theorem acqTimeout_up : (acqTimeout m).up = m.up := noClkFreeNTmLnMdLgCurNxtEnStrCanHostRcd_up (acqTimeout_noClkFreeNTmLnMdLgCurNxtEnStrCanHostRcd m)
@[simp] theorem acqTimeout_sec : (acqTimeout m).sec = m.sec := noClkFreeNTmLnMdLgCurNxtEnStrCanHostRcd_sec (acqTimeout_noClkFreeNTmLnMdLgCurNxtEnStrCanHostRcd m)
@[simp] theorem acqTimeout_pr : (acqTimeout m).pr = m.pr := noClkFreeNTmLnMdLgCurNxtEnStrCanHostRcd_pr (acqTimeout_noClkFreeNTmLnMdLgCurNxtEnStrCanHostRcd m)
@[simp] theorem acqTimeout_stateOut : (acqTimeout m).stateOut = m.stateOut := noClkFreeNTmLnMdLgCurNxtEnStrCanHostRcd_stateOut (acqTimeout_noClkFreeNTmLnMdLgCurNxtEnStrCanHostRcd m)

@[simp] theorem updBanks_noNv (g : Banks → Banks) : (updBanks g m).noNv = m.noNv := rfl
@[simp] theorem updBanks_powered (g : Banks → Banks) : (updBanks g m).powered = m.powered := noNv_powered (updBanks_noNv m g)
@[simp] theorem updBanks_clk (g : Banks → Banks) : (updBanks g m).clk = m.clk := noNv_clk (updBanks_noNv m g)
@[simp] theorem updBanks_freeN (g : Banks → Banks) : (updBanks g m).freeN = m.freeN := noNv_freeN (updBanks_noNv m g)
@[simp] theorem updBanks_cfg (g : Banks → Banks) : (updBanks g m).cfg = m.cfg := noNv_cfg (updBanks_noNv m g)
@[simp] theorem updBanks_tm (g : Banks → Banks) : (updBanks g m).tm = m.tm := noNv_tm (updBanks_noNv m g)
@[simp] theorem updBanks_ln (g : Banks → Banks) : (updBanks g m).ln = m.ln := noNv_ln (updBanks_noNv m g)
@[simp] theorem updBanks_md (g : Banks → Banks) : (updBanks g m).md = m.md := noNv_md (updBanks_noNv m g)
@[simp] theorem updBanks_pw (g : Banks → Banks) : (updBanks g m).pw = m.pw := noNv_pw (updBanks_noNv m g)
@[simp] theorem updBanks_lg (g : Banks → Banks) : (updBanks g m).lg = m.lg := noNv_lg (updBanks_noNv m g)
@[simp] theorem updBanks_cur (g : Banks → Banks) : (updBanks g m).cur = m.cur := noNv_cur (updBanks_noNv m g)
@[simp] theorem updBanks_nxt (g : Banks → Banks) : (updBanks g m).nxt = m.nxt := noNv_nxt (updBanks_noNv m g)
@[simp] theorem updBanks_en (g : Banks → Banks) : (updBanks g m).en = m.en := noNv_en (updBanks_noNv m g)
@[simp] theorem updBanks_fio (g : Banks → Banks) : (updBanks g m).fio = m.fio := noNv_fio (updBanks_noNv m g)
@[simp] theorem updBanks_bt (g : Banks → Banks) : (updBanks g m).bt = m.bt := noNv_bt (updBanks_noNv m g)
@[simp] theorem updBanks_str (g : Banks → Banks) : (updBanks g m).str = m.str := noNv_str (updBanks_noNv m g)
@[simp] theorem updBanks_can (g : Banks → Banks) : (updBanks g m).can = m.can := noNv_can (updBanks_noNv m g)
@[simp] theorem updBanks_net (g : Banks → Banks) : (updBanks g m).net = m.net := noNv_net (updBanks_noNv m g)
@[simp] theorem updBanks_host (g : Banks → Banks) : (updBanks g m).host = m.host := noNv_host (updBanks_noNv m g)
@[simp] theorem updBanks_rcd (g : Banks → Banks) : (updBanks g m).rcd = m.rcd := noNv_rcd (updBanks_noNv m g)
@[simp] theorem updBanks_rc (g : Banks → Banks) : (updBanks g m).rc = m.rc := noNv_rc (updBanks_noNv m g)
@[simp] theorem updBanks_pc (g : Banks → Banks) : (updBanks g m).pc = m.pc := noNv_pc (updBanks_noNv m g)
@[simp] theorem updBanks_up (g : Banks → Banks) : (updBanks g m).up = m.up := noNv_up (updBanks_noNv m g)
@[simp] theorem updBanks_sec (g : Banks → Banks) : (updBanks g m).sec = m.sec := noNv_sec (updBanks_noNv m g)
@[simp] theorem updBanks_pr (g : Banks → Banks) : (updBanks g m).pr = m.pr := noNv_pr (updBanks_noNv m g)
@[simp] theorem updBanks_stateOut (g : Banks → Banks) : (updBanks g m).stateOut = m.stateOut := noNv_stateOut (updBanks_noNv m g)

@[simp] theorem commitPart_noNvMdHostRcdUp (part : Nat) : (commitPart part m).noNvMdHostRcdUp = m.noNvMdHostRcdUp := by
  unfold commitPart; dsimp only; split <;> simp [Mod.noNvMdHostRcdUp]
@[simp] theorem commitPart_powered (part : Nat) : (commitPart part m).powered = m.powered := noNvMdHostRcdUp_powered (commitPart_noNvMdHostRcdUp m part)
@[simp] theorem commitPart_clk (part : Nat) : (commitPart part m).clk = m.clk := noNvMdHostRcdUp_clk (commitPart_noNvMdHostRcdUp m part)
@[simp] theorem commitPart_freeN (part : Nat) : (commitPart part m).freeN = m.freeN := noNvMdHostRcdUp_freeN (commitPart_noNvMdHostRcdUp m part)
@[simp] theorem commitPart_cfg (part : Nat) : (commitPart part m).cfg = m.cfg := noNvMdHostRcdUp_cfg (commitPart_noNvMdHostRcdUp m part)
@[simp] theorem commitPart_tm (part : Nat) : (commitPart part m).tm = m.tm := noNvMdHostRcdUp_tm (commitPart_noNvMdHostRcdUp m part)
@[simp] theorem commitPart_ln (part : Nat) : (commitPart part m).ln = m.ln := noNvMdHostRcdUp_ln (commitPart_noNvMdHostRcdUp m part)
@[simp] theorem commitPart_pw (part : Nat) : (commitPart part m).pw = m.pw := noNvMdHostRcdUp_pw (commitPart_noNvMdHostRcdUp m part)
@[simp] theorem commitPart_lg (part : Nat) : (commitPart part m).lg = m.lg := noNvMdHostRcdUp_lg (commitPart_noNvMdHostRcdUp m part)
@[simp] theorem commitPart_cur (part : Nat) : (commitPart part m).cur = m.cur := noNvMdHostRcdUp_cur (commitPart_noNvMdHostRcdUp m part)
@[simp] theorem commitPart_nxt (part : Nat) : (commitPart part m).nxt = m.nxt := noNvMdHostRcdUp_nxt (commitPart_noNvMdHostRcdUp m part)
@[simp] theorem commitPart_en (part : Nat) : (commitPart part m).en = m.en := noNvMdHostRcdUp_en (commitPart_noNvMdHostRcdUp m part)
@[simp] theorem commitPart_fio (part : Nat) : (commitPart part m).fio = m.fio := noNvMdHostRcdUp_fio (commitPart_noNvMdHostRcdUp m part)
@[simp] theorem commitPart_bt (part : Nat) : (commitPart part m).bt = m.bt := noNvMdHostRcdUp_bt (commitPart_noNvMdHostRcdUp m part)
@[simp] theorem commitPart_str (part : Nat) : (commitPart part m).str = m.str := noNvMdHostRcdUp_str (commitPart_noNvMdHostRcdUp m part)
@[simp] theorem commitPart_can (part : Nat) : (commitPart part m).can = m.can := noNvMdHostRcdUp_can (commitPart_noNvMdHostRcdUp m part)
@[simp] theorem commitPart_net (part : Nat) : (commitPart part m).net = m.net := noNvMdHostRcdUp_net (commitPart_noNvMdHostRcdUp m part)
@[simp] theorem commitPart_rc (part : Nat) : (commitPart part m).rc = m.rc := noNvMdHostRcdUp_rc (commitPart_noNvMdHostRcdUp m part)
@[simp] theorem commitPart_pc (part : Nat) : (commitPart part m).pc = m.pc := noNvMdHostRcdUp_pc (commitPart_noNvMdHostRcdUp m part)
@[simp] theorem commitPart_sec (part : Nat) : (commitPart part m).sec = m.sec := noNvMdHostRcdUp_sec (commitPart_noNvMdHostRcdUp m part)
@[simp] theorem commitPart_pr (part : Nat) : (commitPart part m).pr = m.pr := noNvMdHostRcdUp_pr (commitPart_noNvMdHostRcdUp m part)
@[simp] theorem commitPart_stateOut (part : Nat) : (commitPart part m).stateOut = m.stateOut := noNvMdHostRcdUp_stateOut (commitPart_noNvMdHostRcdUp m part)

@[simp] theorem commitBanks_noNvMdHostRcdUp : (commitBanks m).noNvMdHostRcdUp = m.noNvMdHostRcdUp := forEach_keeps _ Mod.noNvMdHostRcdUp _ _ (fun i n => commitPart_noNvMdHostRcdUp n i)
@[simp] theorem commitBanks_powered : (commitBanks m).powered = m.powered := noNvMdHostRcdUp_powered (commitBanks_noNvMdHostRcdUp m)
@[simp] theorem commitBanks_clk : (commitBanks m).clk = m.clk := noNvMdHostRcdUp_clk (commitBanks_noNvMdHostRcdUp m)
@[simp] theorem commitBanks_freeN : (commitBanks m).freeN = m.freeN := noNvMdHostRcdUp_freeN (commitBanks_noNvMdHostRcdUp m)
@[simp] theorem commitBanks_cfg : (commitBanks m).cfg = m.cfg := noNvMdHostRcdUp_cfg (commitBanks_noNvMdHostRcdUp m)
@[simp] theorem commitBanks_tm : (commitBanks m).tm = m.tm := noNvMdHostRcdUp_tm (commitBanks_noNvMdHostRcdUp m)
@[simp] theorem commitBanks_ln : (commitBanks m).ln = m.ln := noNvMdHostRcdUp_ln (commitBanks_noNvMdHostRcdUp m)
@[simp] theorem commitBanks_pw : (commitBanks m).pw = m.pw := noNvMdHostRcdUp_pw (commitBanks_noNvMdHostRcdUp m)
@[simp] theorem commitBanks_lg : (commitBanks m).lg = m.lg := noNvMdHostRcdUp_lg (commitBanks_noNvMdHostRcdUp m)
@[simp] theorem commitBanks_cur : (commitBanks m).cur = m.cur := noNvMdHostRcdUp_cur (commitBanks_noNvMdHostRcdUp m)
@[simp] theorem commitBanks_nxt : (commitBanks m).nxt = m.nxt := noNvMdHostRcdUp_nxt (commitBanks_noNvMdHostRcdUp m)
@[simp] theorem commitBanks_en : (commitBanks m).en = m.en := noNvMdHostRcdUp_en (commitBanks_noNvMdHostRcdUp m)
@[simp] theorem commitBanks_fio : (commitBanks m).fio = m.fio := noNvMdHostRcdUp_fio (commitBanks_noNvMdHostRcdUp m)
@[simp] theorem commitBanks_bt : (commitBanks m).bt = m.bt := noNvMdHostRcdUp_bt (commitBanks_noNvMdHostRcdUp m)
@[simp] theorem commitBanks_str : (commitBanks m).str = m.str := noNvMdHostRcdUp_str (commitBanks_noNvMdHostRcdUp m)
@[simp] theorem commitBanks_can : (commitBanks m).can = m.can := noNvMdHostRcdUp_can (commitBanks_noNvMdHostRcdUp m)
@[simp] theorem commitBanks_net : (commitBanks m).net = m.net := noNvMdHostRcdUp_net (commitBanks_noNvMdHostRcdUp m)
@[simp] theorem commitBanks_rc : (commitBanks m).rc = m.rc := noNvMdHostRcdUp_rc (commitBanks_noNvMdHostRcdUp m)
@[simp] theorem commitBanks_pc : (commitBanks m).pc = m.pc := noNvMdHostRcdUp_pc (commitBanks_noNvMdHostRcdUp m)
@[simp] theorem commitBanks_sec : (commitBanks m).sec = m.sec := noNvMdHostRcdUp_sec (commitBanks_noNvMdHostRcdUp m)
@[simp] theorem commitBanks_pr : (commitBanks m).pr = m.pr := noNvMdHostRcdUp_pr (commitBanks_noNvMdHostRcdUp m)
@[simp] theorem commitBanks_stateOut : (commitBanks m).stateOut = m.stateOut := noNvMdHostRcdUp_stateOut (commitBanks_noNvMdHostRcdUp m)

@[simp] theorem tellDropped_noLnHostRcd : (tellDropped m).noLnHostRcd = m.noLnHostRcd := by
  unfold tellDropped; dsimp only; split <;> simp [Mod.noLnHostRcd]
@[simp] theorem tellDropped_powered : (tellDropped m).powered = m.powered := noLnHostRcd_powered (tellDropped_noLnHostRcd m)
@[simp] theorem tellDropped_clk : (tellDropped m).clk = m.clk := noLnHostRcd_clk (tellDropped_noLnHostRcd m)
@[simp] theorem tellDropped_freeN : (tellDropped m).freeN = m.freeN := noLnHostRcd_freeN (tellDropped_noLnHostRcd m)
@[simp] theorem tellDropped_nv : (tellDropped m).nv = m.nv := noLnHostRcd_nv (tellDropped_noLnHostRcd m)
@[simp] theorem tellDropped_cfg : (tellDropped m).cfg = m.cfg := noLnHostRcd_cfg (tellDropped_noLnHostRcd m)
@[simp] theorem tellDropped_tm : (tellDropped m).tm = m.tm := noLnHostRcd_tm (tellDropped_noLnHostRcd m)
@[simp] theorem tellDropped_md : (tellDropped m).md = m.md := noLnHostRcd_md (tellDropped_noLnHostRcd m)
@[simp] theorem tellDropped_pw : (tellDropped m).pw = m.pw := noLnHostRcd_pw (tellDropped_noLnHostRcd m)
@[simp] theorem tellDropped_lg : (tellDropped m).lg = m.lg := noLnHostRcd_lg (tellDropped_noLnHostRcd m)
@[simp] theorem tellDropped_cur : (tellDropped m).cur = m.cur := noLnHostRcd_cur (tellDropped_noLnHostRcd m)
@[simp] theorem tellDropped_nxt : (tellDropped m).nxt = m.nxt := noLnHostRcd_nxt (tellDropped_noLnHostRcd m)
@[simp] theorem tellDropped_en : (tellDropped m).en = m.en := noLnHostRcd_en (tellDropped_noLnHostRcd m)
@[simp] theorem tellDropped_fio : (tellDropped m).fio = m.fio := noLnHostRcd_fio (tellDropped_noLnHostRcd m)
@[simp] theorem tellDropped_bt : (tellDropped m).bt = m.bt := noLnHostRcd_bt (tellDropped_noLnHostRcd m)
@[simp] theorem tellDropped_str : (tellDropped m).str = m.str := noLnHostRcd_str (tellDropped_noLnHostRcd m)
@[simp] theorem tellDropped_can : (tellDropped m).can = m.can := noLnHostRcd_can (tellDropped_noLnHostRcd m)
@[simp] theorem tellDropped_net : (tellDropped m).net = m.net := noLnHostRcd_net (tellDropped_noLnHostRcd m)
@[simp] theorem tellDropped_rc : (tellDropped m).rc = m.rc := noLnHostRcd_rc (tellDropped_noLnHostRcd m)
@[simp] theorem tellDropped_pc : (tellDropped m).pc = m.pc := noLnHostRcd_pc (tellDropped_noLnHostRcd m)
@[simp] theorem tellDropped_up : (tellDropped m).up = m.up := noLnHostRcd_up (tellDropped_noLnHostRcd m)
@[simp] theorem tellDropped_sec : (tellDropped m).sec = m.sec := noLnHostRcd_sec (tellDropped_noLnHostRcd m)
@[simp] theorem tellDropped_pr : (tellDropped m).pr = m.pr := noLnHostRcd_pr (tellDropped_noLnHostRcd m)
@[simp] theorem tellDropped_stateOut : (tellDropped m).stateOut = m.stateOut := noLnHostRcd_stateOut (tellDropped_noLnHostRcd m)

@[simp] theorem roleChanged_noNvLgHostRcdUp : (roleChanged m).noNvLgHostRcdUp = m.noNvLgHostRcdUp := by
  unfold roleChanged; simp [Mod.noNvLgHostRcdUp]
@[simp] theorem roleChanged_powered : (roleChanged m).powered = m.powered := noNvLgHostRcdUp_powered (roleChanged_noNvLgHostRcdUp m)
@[simp] theorem roleChanged_clk : (roleChanged m).clk = m.clk := noNvLgHostRcdUp_clk (roleChanged_noNvLgHostRcdUp m)
@[simp] theorem roleChanged_freeN : (roleChanged m).freeN = m.freeN := noNvLgHostRcdUp_freeN (roleChanged_noNvLgHostRcdUp m)
@[simp] theorem roleChanged_cfg : (roleChanged m).cfg = m.cfg := noNvLgHostRcdUp_cfg (roleChanged_noNvLgHostRcdUp m)
@[simp] theorem roleChanged_tm : (roleChanged m).tm = m.tm := noNvLgHostRcdUp_tm (roleChanged_noNvLgHostRcdUp m)
@[simp] theorem roleChanged_ln : (roleChanged m).ln = m.ln := noNvLgHostRcdUp_ln (roleChanged_noNvLgHostRcdUp m)
@[simp] theorem roleChanged_md : (roleChanged m).md = m.md := noNvLgHostRcdUp_md (roleChanged_noNvLgHostRcdUp m)
@[simp] theorem roleChanged_pw : (roleChanged m).pw = m.pw := noNvLgHostRcdUp_pw (roleChanged_noNvLgHostRcdUp m)
@[simp] theorem roleChanged_cur : (roleChanged m).cur = m.cur := noNvLgHostRcdUp_cur (roleChanged_noNvLgHostRcdUp m)
@[simp] theorem roleChanged_nxt : (roleChanged m).nxt = m.nxt := noNvLgHostRcdUp_nxt (roleChanged_noNvLgHostRcdUp m)
@[simp] theorem roleChanged_en : (roleChanged m).en = m.en := noNvLgHostRcdUp_en (roleChanged_noNvLgHostRcdUp m)
@[simp] theorem roleChanged_fio : (roleChanged m).fio = m.fio := noNvLgHostRcdUp_fio (roleChanged_noNvLgHostRcdUp m)
@[simp] theorem roleChanged_bt : (roleChanged m).bt = m.bt := noNvLgHostRcdUp_bt (roleChanged_noNvLgHostRcdUp m)
@[simp] theorem roleChanged_str : (roleChanged m).str = m.str := noNvLgHostRcdUp_str (roleChanged_noNvLgHostRcdUp m)
@[simp] theorem roleChanged_can : (roleChanged m).can = m.can := noNvLgHostRcdUp_can (roleChanged_noNvLgHostRcdUp m)
@[simp] theorem roleChanged_net : (roleChanged m).net = m.net := noNvLgHostRcdUp_net (roleChanged_noNvLgHostRcdUp m)
@[simp] theorem roleChanged_rc : (roleChanged m).rc = m.rc := noNvLgHostRcdUp_rc (roleChanged_noNvLgHostRcdUp m)
@[simp] theorem roleChanged_pc : (roleChanged m).pc = m.pc := noNvLgHostRcdUp_pc (roleChanged_noNvLgHostRcdUp m)
@[simp] theorem roleChanged_sec : (roleChanged m).sec = m.sec := noNvLgHostRcdUp_sec (roleChanged_noNvLgHostRcdUp m)
@[simp] theorem roleChanged_pr : (roleChanged m).pr = m.pr := noNvLgHostRcdUp_pr (roleChanged_noNvLgHostRcdUp m)
@[simp] theorem roleChanged_stateOut : (roleChanged m).stateOut = m.stateOut := noNvLgHostRcdUp_stateOut (roleChanged_noNvLgHostRcdUp m)

end Sys2Proof.Machine
end

