-- ==== Sys2Proof/Laws/Tab.lean ====
section
/-! SUPPORT. Laws of the sparse tables and of the image memory: a read after a write, what a write leaves alone, and that every
operation keeps the canonical form. -/

namespace Sys2Proof.Machine

variable {α : Type}

@[simp] theorem tabGet_nil (d : α) (k : Nat) : tabGet d [] k = d := rfl

/-- A key below every listed one reads as the default. -/
theorem tabGet_below (d : α) (t : Tab α) (k : Nat) (h : ∀ e ∈ t, k < e.1) : tabGet d t k = d := by
  induction t with
  | nil => rfl
  | cons e r ih =>
    have hk := h e (by simp)
    simp only [tabGet, if_neg (Nat.ne_of_gt hk)]
    exact ih (fun x hx => h x (by simp [hx]))

variable [DecidableEq α]

theorem tabWf_cons {d : α} {k : Nat} {v : α} {r : Tab α} :
    tabWf d ((k, v) :: r) = true ↔ v ≠ d ∧ (∀ e ∈ r, k < e.1) ∧ tabWf d r = true := by
  simp [tabWf, and_assoc]

omit [DecidableEq α] in
theorem tabGet_tabDel_self (d : α) (t : Tab α) (k : Nat) : tabGet d (tabDel t k) k = d := by
  induction t with
  | nil => rfl
  | cons e r ih =>
    obtain ⟨i, w⟩ := e
    by_cases h : i = k
    · simpa [tabDel, h] using ih
    · simpa [tabDel, h, tabGet] using ih

omit [DecidableEq α] in
theorem tabGet_tabDel_ne (d : α) (t : Tab α) (k j : Nat) (h : j ≠ k) : tabGet d (tabDel t k) j = tabGet d t j := by
  induction t with
  | nil => rfl
  | cons e r ih =>
    obtain ⟨i, w⟩ := e
    by_cases hi : i = k
    · subst hi; simpa [tabDel, tabGet, h.symm] using ih
    · by_cases hj : i = j
      · subst hj; simp [tabDel, hi, tabGet]
      · simpa [tabDel, hi, tabGet, hj] using ih

omit [DecidableEq α] in
theorem tabGet_tabPut_self (d : α) (t : Tab α) (k : Nat) (v : α) : tabGet d (tabPut t k v) k = v := by
  induction t with
  | nil => simp [tabPut, tabGet]
  | cons e r ih =>
    obtain ⟨i, w⟩ := e
    simp only [tabPut]; split
    · simp [tabGet]
    · split
      · simp [tabGet]
      · rename_i h; simp only [tabGet, if_neg (fun hh : i = k => h hh.symm)]; exact ih

omit [DecidableEq α] in
theorem tabGet_tabPut_ne (d : α) (t : Tab α) (k j : Nat) (v : α) (h : j ≠ k) : tabGet d (tabPut t k v) j = tabGet d t j := by
  induction t with
  | nil => simp [tabPut, tabGet, h.symm]
  | cons e r ih =>
    obtain ⟨i, w⟩ := e
    simp only [tabPut]; split
    · simp [tabGet, h.symm]
    · split
      · rename_i hk; subst hk; simp [tabGet, h.symm]
      · simp only [tabGet]; split
        · rfl
        · exact ih

/-- A key reads as what was written to it. -/
@[simp] theorem tabGet_tabSet_self (d : α) (t : Tab α) (k : Nat) (v : α) : tabGet d (tabSet d t k v) k = v := by
  unfold tabSet; split
  · rename_i h; rw [tabGet_tabDel_self, h]
  · exact tabGet_tabPut_self d t k v

/-- Writing one key leaves every other key alone. -/
theorem tabGet_tabSet_ne (d : α) (t : Tab α) (k j : Nat) (v : α) (h : j ≠ k) : tabGet d (tabSet d t k v) j = tabGet d t j := by
  unfold tabSet; split
  · exact tabGet_tabDel_ne d t k j h
  · exact tabGet_tabPut_ne d t k j v h

/-- A function that keeps the default acts on every key. -/
theorem tabGet_tabMap (d : α) (f : α → α) (t : Tab α) (k : Nat) (hd : f d = d) : tabGet d (tabMap d f t) k = f (tabGet d t k) := by
  have key : ∀ (ks : List Nat) (acc : Tab α), tabGet d (ks.foldl (fun acc k => tabSet d acc k (f (tabGet d t k))) acc) k =
      if k ∈ ks then f (tabGet d t k) else tabGet d acc k := by
    intro ks
    induction ks with
    | nil => intro acc; simp
    | cons i r ih =>
      intro acc
      rw [List.foldl_cons, ih]
      by_cases h : k ∈ r
      · simp [h]
      · by_cases hi : k = i
        · subst hi; simp [h]
        · simp [h, hi, tabGet_tabSet_ne _ _ _ _ _ hi]
  unfold tabMap; rw [key]
  split
  · rfl
  · rename_i h
    have h0 : tabGet d t k = d := by
      clear key
      induction t with
      | nil => rfl
      | cons e r ih =>
        obtain ⟨i, w⟩ := e
        simp only [List.map, List.mem_cons, not_or] at h
        simp only [tabGet, if_neg (fun hh : i = k => h.1 hh.symm)]
        exact ih h.2
    rw [h0, hd]

theorem tabWf_tabDel (d : α) (t : Tab α) (k : Nat) (h : tabWf d t = true) : tabWf d (tabDel t k) = true := by
  induction t with
  | nil => rfl
  | cons e r ih =>
    obtain ⟨i, w⟩ := e
    obtain ⟨hw, hr, hwf⟩ := tabWf_cons.mp h
    by_cases hi : i = k
    · simpa [tabDel, hi] using ih hwf
    · have : tabDel ((i, w) :: r) k = (i, w) :: tabDel r k := by simp [tabDel, hi]
      rw [this]
      exact tabWf_cons.mpr ⟨hw, fun e he => hr e (List.mem_filter.mp he).1, ih hwf⟩

omit [DecidableEq α] in
theorem mem_tabPut {t : Tab α} {k : Nat} {v : α} {e : Nat × α} (h : e ∈ tabPut t k v) : e = (k, v) ∨ e ∈ t := by
  induction t with
  | nil => simpa [tabPut] using h
  | cons x r ih =>
    obtain ⟨i, w⟩ := x
    simp only [tabPut] at h
    split at h
    · exact (List.mem_cons.mp h).imp_right id
    · split at h
      · exact (List.mem_cons.mp h).imp_right (List.mem_cons_of_mem _)
      · rcases List.mem_cons.mp h with h | h
        · exact .inr (by simp [h])
        · exact (ih h).imp_right (List.mem_cons_of_mem _)

theorem tabWf_tabPut (d : α) (t : Tab α) (k : Nat) (v : α) (hv : v ≠ d) (h : tabWf d t = true) : tabWf d (tabPut t k v) = true := by
  induction t with
  | nil => simp [tabPut, tabWf, hv]
  | cons e r ih =>
    obtain ⟨i, w⟩ := e
    obtain ⟨hw, hr, hwf⟩ := tabWf_cons.mp h
    simp only [tabPut]; split
    · rename_i hk
      refine tabWf_cons.mpr ⟨hv, ?_, h⟩
      intro x hx
      rcases List.mem_cons.mp hx with rfl | hx
      · exact hk
      · exact Nat.lt_trans hk (hr x hx)
    · split
      · rename_i hk; subst hk; exact tabWf_cons.mpr ⟨hv, hr, hwf⟩
      · rename_i h1 h2
        refine tabWf_cons.mpr ⟨hw, ?_, ih hwf⟩
        intro x hx
        rcases mem_tabPut hx with rfl | hx
        · exact Nat.lt_of_le_of_ne (Nat.le_of_not_lt h1) (fun hh => h2 hh.symm)
        · exact hr x hx

/-- Writing keeps the canonical form. -/
theorem tabWf_tabSet (d : α) (t : Tab α) (k : Nat) (v : α) (h : tabWf d t = true) : tabWf d (tabSet d t k v) = true := by
  unfold tabSet; split
  · exact tabWf_tabDel d t k h
  · rename_i hv; exact tabWf_tabPut d t k v hv h

/-! ## Memory -/

theorem memSet_wf (m : Memory) (a : Nat) (v : Byte) (h : m.wf = true) : (memSet m a v).wf = true := tabWf_tabSet 0 m a v h

theorem memGet_memSet_self (m : Memory) (a : Nat) (v : Byte) : memGet (memSet m a v) a = v :=
  tabGet_tabSet_self 0 m a v

theorem memGet_memSet_ne (m : Memory) (a b : Nat) (v : Byte) (h : b ≠ a) : memGet (memSet m a v) b = memGet m b :=
  tabGet_tabSet_ne 0 m a b v h

/-- Storing bytes keeps the canonical form. -/
theorem memWrite_wf (m : Memory) (a : Nat) (bs : List Byte) (h : m.wf = true) : (memWrite m a bs).wf = true := by
  induction bs generalizing m a with
  | nil => exact h
  | cons b bs ih => exact ih _ _ (memSet_wf m a b h)

/-- Storing bytes leaves every address outside them alone. -/
theorem memGet_memWrite_outside (m : Memory) (a : Nat) (bs : List Byte) (x : Nat) (h : x < a ∨ a + bs.length ≤ x) :
    memGet (memWrite m a bs) x = memGet m x := by
  induction bs generalizing m a with
  | nil => rfl
  | cons b bs ih =>
    simp only [List.length_cons] at h
    rw [memWrite, ih _ _ (by omega), memGet_memSet_ne _ _ _ _ (by omega)]

/-- Each stored byte reads back. -/
theorem memGet_memWrite_inside (m : Memory) (a : Nat) (bs : List Byte) (i : Nat) (h : i < bs.length) :
    memGet (memWrite m a bs) (a + i) = bs[i] := by
  induction bs generalizing m a i with
  | nil => simp at h
  | cons b bs ih =>
    cases i with
    | zero =>
      rw [memWrite, memGet_memWrite_outside _ _ _ _ (by omega)]
      exact memGet_memSet_self _ _ _
    | succ i =>
      have := ih (memSet m a b) (a + 1) i (by simpa using h)
      simpa [memWrite, Nat.add_assoc, Nat.add_comm 1 i] using this

end Sys2Proof.Machine
end

