-- ==== Sys2Proof/Laws/Rings.lean ====
section
/-! SUPPORT. Rings: what writing one ring does to it and to the others, and that the Ledger's own writes never touch a ring's
set-up (R421). -/

namespace Sys2Proof.Machine

variable (m : Mod)

@[simp] theorem ringOf_setRing_self (i : Nat) (r : Ring) : ringOf (setRing i r m) i = r := tabGet_tabSet_self _ _ _ _

theorem ringOf_setRing_ne (i j : Nat) (r : Ring) (h : j ≠ i) : ringOf (setRing i r m) j = ringOf m j :=
  tabGet_tabSet_ne _ _ _ _ _ h

/-- A ring less the counts that the Ledger's own writes advance. -/
def Ring.setup (r : Ring) : Ring := { r with count := 0, aux := 0, open_ := 0, seq := 0 }

theorem setRing_setup (i j : Nat) (r : Ring) (h : r.setup = (ringOf m i).setup) :
    (ringOf (setRing i r m) j).setup = (ringOf m j).setup := by
  by_cases hj : j = i
  · subst hj; rw [ringOf_setRing_self, h]
  · rw [ringOf_setRing_ne m i j r hj]

theorem ringOf_congr {a b : Mod} (h : a.host.rings = b.host.rings) (i : Nat) : ringOf a i = ringOf b i := by
  unfold ringOf; rw [h]

theorem fireVector_rings (v : Nat) : (fireVector v m).host.rings = m.host.rings := rfl

theorem ringWrite_setup (i j : Nat) (mk : Bool → RingEntry) : (ringOf (ringWrite i mk m) j).setup = (ringOf m j).setup := by
  unfold ringWrite
  rw [ringOf_congr (fireVector_rings _ _) j]
  unfold putSlot; dsimp only
  refine (setRing_setup _ i j _ ?_).trans ?_
  · rfl
  · rfl

theorem ringOf_updHost (f : HostIf → HostIf) (h : (f m.host).rings = m.host.rings) (j : Nat) : ringOf (updHost f m) j = ringOf m j :=
  ringOf_congr h j

theorem writeEvent_setup (q : QEvent) (j : Nat) : (ringOf (writeEvent q m) j).setup = (ringOf m j).setup := by
  unfold writeEvent
  generalize h : ringWrite (64 + q.eq) (fun ph => .event q.ev q.eseq ph) m = n
  rw [ringOf_updHost n _ rfl, ← h, ringWrite_setup]

theorem fifoPush_setup (q : QEvent) (j : Nat) : (ringOf (fifoPush q m) j).setup = (ringOf m j).setup := by
  unfold fifoPush; split
  · split
    · rfl
    · unfold updRing; dsimp only; refine (setRing_setup _ _ j _ ?_).trans ?_ <;> rfl
  · rfl

theorem produce_setup (e : Event) (j : Nat) : (ringOf (produce e m) j).setup = (ringOf m j).setup := by
  unfold produce; split
  · rfl
  · dsimp only; split
    · rw [writeEvent_setup]; exact setRing_setup _ _ j _ rfl
    · rw [fifoPush_setup]; exact setRing_setup _ _ j _ rfl

theorem recAccept_ring (kind src code : Nat) (priv : Bool) (n : Nat) (body : List Byte) (j : Nat) :
    ringOf (recAccept kind src code priv n body m) j = ringOf m j := ringOf_congr (by simp) j

theorem raiseRaw_setup (e : Event) (j : Nat) : (ringOf (raiseRaw e m) j).setup = (ringOf m j).setup := by
  unfold raiseRaw; dsimp only; split
  · exact congrArg Ring.setup (recAccept_ring m _ _ _ _ _ _ j)
  · rw [produce_setup, recAccept_ring]

theorem writeLoss_setup (src : Nat) (run : W32 × Nat) (j : Nat) : (ringOf (writeLoss src run m) j).setup = (ringOf m j).setup := by
  unfold writeLoss; rw [recAccept_ring]; rfl

theorem tellLoss_setup (src : Nat) (run : W32 × Nat) (j : Nat) : (ringOf (tellLoss src run m) j).setup = (ringOf m j).setup := by
  unfold tellLoss; split
  · rfl
  · exact raiseRaw_setup m _ j

theorem closeRun_setup (priv : Bool) (src : Nat) (j : Nat) : (ringOf (closeRun priv src m) j).setup = (ringOf m j).setup := by
  unfold closeRun; split
  · rfl
  · dsimp only; split
    · rfl
    · exact (forEach_keeps _ (fun n => (ringOf n j).setup) _ _ (fun p n => tellLoss_setup n _ _ j)).trans
       (forEach_keeps _ (fun n => (ringOf n j).setup) _ _ (fun p n => writeLoss_setup n _ _ j))

/-- Raising an event touches no ring's set-up. -/
theorem raise_setup (code : Nat) (x : EvArgs) (j : Nat) : (ringOf (raise code x m) j).setup = (ringOf m j).setup := by
  unfold raise; split
  · rfl
  · dsimp only; rw [raiseRaw_setup, closeRun_setup]

theorem setup_eq {a b : Ring} (h : a.setup = b.setup) :
    a.basel = b.basel ∧ a.baseh = b.baseh ∧ a.wrdl = b.wrdl ∧ a.wrdh = b.wrdh ∧ a.en = b.en ∧ a.log2n = b.log2n ∧ a.cls = b.cls ∧
      a.target = b.target ∧ a.fault = b.fault ∧ a.ack = b.ack :=
  ⟨(congrArg Ring.basel h :), (congrArg Ring.baseh h :), (congrArg Ring.wrdl h :), (congrArg Ring.wrdh h :), (congrArg Ring.en h :),
    (congrArg Ring.log2n h :), (congrArg Ring.cls h :), (congrArg Ring.target h :), (congrArg Ring.fault h :), (congrArg Ring.ack h :)⟩

/-! With ring processing stopped, no event reaches a ring or the FIFO (R40). -/

theorem produce_down (e : Event) (h : ledgerUp m = false) : produce e m = m := by
  unfold produce eqOf; simp [h]

/-- What says whether the front end is there depends on the lanes alone (R21). -/
theorem feGone_congr {a b : Mod} (h : a.ln = b.ln) : feGone a = feGone b := by
  unfold feGone agreedBy aliveLanes; rw [h]

theorem ledgerUp_congr {a b : Mod} (h : a.ln = b.ln) (hr : a.host.run = b.host.run) (hv : a.host.valid = b.host.valid) : ledgerUp a = ledgerUp b := by
  unfold ledgerUp; rw [feGone_congr h, hr, hv]

theorem ledgerUp_recAccept (kind src code : Nat) (priv : Bool) (n : Nat) (body : List Byte) :
    ledgerUp (recAccept kind src code priv n body m) = ledgerUp m := ledgerUp_congr (by simp) (by simp) (by simp)

/-- The event counts and the FIFO. -/
def HostIf.told (h : HostIf) : W32 × W32 × W32 × List QEvent := (h.evp, h.evd, h.evl, h.fifo)

/-- Nothing was told, and the rings still stand still. -/
def Quiet (n : Mod) : Prop := n.host.told = m.host.told ∧ ledgerUp n = false

theorem raiseRaw_down (e : Event) (h : ledgerUp m = false) : (raiseRaw e m).host.told = m.host.told := by
  unfold raiseRaw; dsimp only; split
  · rw [updHost_host, recAccept_host]; rfl
  · rw [produce_down _ _ (by rw [ledgerUp_recAccept]; exact h), recAccept_host]

theorem forEach_inv {α : Type} (P : Mod → Prop) (xs : List α) (f : α → Mod → Mod) (m : Mod) (h : ∀ x n, P n → P (f x n)) (hm : P m) :
    P (forEach xs f m) := by
  induction xs generalizing m with
  | nil => exact hm
  | cons x r ih => exact ih _ (h x m hm)

theorem writeLoss_quiet (src : Nat) (run : W32 × Nat) (n : Mod) (h : Quiet m n) : Quiet m (writeLoss src run n) :=
  ⟨by rw [← h.1]; simp, by rw [← h.2]; exact ledgerUp_congr (by simp) (by simp) (by simp)⟩

theorem tellLoss_quiet (src : Nat) (run : W32 × Nat) (n : Mod) (h : Quiet m n) : Quiet m (tellLoss src run n) := by
  refine ⟨?_, by rw [← h.2]; exact ledgerUp_congr (by simp) (by simp) (by simp)⟩
  rw [← h.1]; unfold tellLoss; split
  · rfl
  · exact raiseRaw_down n _ h.2

theorem closeRun_quiet (priv : Bool) (src : Nat) (h : ledgerUp m = false) : Quiet m (closeRun priv src m) := by
  unfold closeRun; split
  · exact ⟨rfl, h⟩
  · dsimp only; split
    · exact ⟨rfl, h⟩
    · exact forEach_inv _ _ _ _ (fun p n hn => tellLoss_quiet m _ _ n hn) (forEach_inv _ _ _ _ (fun p n hn => writeLoss_quiet m _ _ n hn) ⟨rfl, h⟩)

theorem raise_down (code : Nat) (x : EvArgs) (h : ledgerUp m = false) : (raise code x m).host.told = m.host.told := by
  unfold raise; split
  · rfl
  · dsimp only
    rw [raiseRaw_down _ _ (closeRun_quiet m _ x.src h).2, (closeRun_quiet m _ x.src h).1]

end Sys2Proof.Machine
end

