-- ==== Sys2Proof/Laws/Time.lean ====
section
/-! SUPPORT. What the passing of time changes in a lane, and what the Pacer leaves alone. -/

namespace Sys2Proof.Machine

variable (m : Mod)

/-- A lane less its clock, the test routing and the performance counters. -/
def Lane.noClock (l : Lane) : Lane := { l with time := 0, corr := 0, testRoute := false, pcs := [] }


theorem noClock_nv {a b : Lane} (h : a.noClock = b.noClock) : a.nv = b.nv := (congrArg Lane.nv h :)
theorem noClock_supplied {a b : Lane} (h : a.noClock = b.noClock) : a.supplied = b.supplied := (congrArg Lane.supplied h :)
theorem noClock_usable {a b : Lane} (h : a.noClock = b.noClock) : a.usable = b.usable := (congrArg Lane.usable h :)
theorem noClock_heldOut {a b : Lane} (h : a.noClock = b.noClock) : a.heldOut = b.heldOut := (congrArg Lane.heldOut h :)
theorem noClock_excluded {a b : Lane} (h : a.noClock = b.noClock) : a.excluded = b.excluded := (congrArg Lane.excluded h :)
theorem noClock_stopped {a b : Lane} (h : a.noClock = b.noClock) : a.stopped = b.stopped := (congrArg Lane.stopped h :)
theorem noClock_halted {a b : Lane} (h : a.noClock = b.noClock) : a.halted = b.halted := (congrArg Lane.halted h :)
theorem noClock_opened {a b : Lane} (h : a.noClock = b.noClock) : a.opened = b.opened := (congrArg Lane.opened h :)
theorem noClock_openPairs {a b : Lane} (h : a.noClock = b.noClock) : a.openPairs = b.openPairs := (congrArg Lane.openPairs h :)
theorem noClock_keyLocked {a b : Lane} (h : a.noClock = b.noClock) : a.keyLocked = b.keyLocked := (congrArg Lane.keyLocked h :)
theorem noClock_testLatch {a b : Lane} (h : a.noClock = b.noClock) : a.testLatch = b.testLatch := (congrArg Lane.testLatch h :)
theorem noClock_proofAt {a b : Lane} (h : a.noClock = b.noClock) : a.proofAt = b.proofAt := (congrArg Lane.proofAt h :)
theorem noClock_itemAt {a b : Lane} (h : a.noClock = b.noClock) : a.itemAt = b.itemAt := (congrArg Lane.itemAt h :)
theorem noClock_itemNext {a b : Lane} (h : a.noClock = b.noClock) : a.itemNext = b.itemNext := (congrArg Lane.itemNext h :)
theorem noClock_abandoned {a b : Lane} (h : a.noClock = b.noClock) : a.abandoned = b.abandoned := (congrArg Lane.abandoned h :)
theorem noClock_freq {a b : Lane} (h : a.noClock = b.noClock) : a.freq = b.freq := (congrArg Lane.freq h :)
theorem noClock_offset {a b : Lane} (h : a.noClock = b.noClock) : a.offset = b.offset := (congrArg Lane.offset h :)
theorem noClock_driftLim {a b : Lane} (h : a.noClock = b.noClock) : a.driftLim = b.driftLim := (congrArg Lane.driftLim h :)
theorem noClock_driftEol {a b : Lane} (h : a.noClock = b.noClock) : a.driftEol = b.driftEol := (congrArg Lane.driftEol h :)
theorem noClock_feMiss {a b : Lane} (h : a.noClock = b.noClock) : a.feMiss = b.feMiss := (congrArg Lane.feMiss h :)
theorem noClock_feLost {a b : Lane} (h : a.noClock = b.noClock) : a.feLost = b.feLost := (congrArg Lane.feLost h :)
theorem noClock_vset {a b : Lane} (h : a.noClock = b.noClock) : a.vset = b.vset := (congrArg Lane.vset h :)
theorem noClock_tdiff {a b : Lane} (h : a.noClock = b.noClock) : a.tdiff = b.tdiff := (congrArg Lane.tdiff h :)
theorem noClock_localRx {a b : Lane} (h : a.noClock = b.noClock) : a.localRx = b.localRx := (congrArg Lane.localRx h :)
theorem noClock_remoteRx {a b : Lane} (h : a.noClock = b.noClock) : a.remoteRx = b.remoteRx := (congrArg Lane.remoteRx h :)
theorem noClock_offerRx {a b : Lane} (h : a.noClock = b.noClock) : a.offerRx = b.offerRx := (congrArg Lane.offerRx h :)
theorem noClock_verdictRx {a b : Lane} (h : a.noClock = b.noClock) : a.verdictRx = b.verdictRx := (congrArg Lane.verdictRx h :)
theorem noClock_confirmRx {a b : Lane} (h : a.noClock = b.noClock) : a.confirmRx = b.confirmRx := (congrArg Lane.confirmRx h :)
theorem noClock_faultRx {a b : Lane} (h : a.noClock = b.noClock) : a.faultRx = b.faultRx := (congrArg Lane.faultRx h :)
theorem noClock_sent {a b : Lane} (h : a.noClock = b.noClock) : a.sent = b.sent := (congrArg Lane.sent h :)
theorem noClock_ownChoice {a b : Lane} (h : a.noClock = b.noClock) : a.ownChoice = b.ownChoice := (congrArg Lane.ownChoice h :)
theorem noClock_sample {a b : Lane} (h : a.noClock = b.noClock) : a.sample = b.sample := (congrArg Lane.sample h :)
theorem noClock_volts {a b : Lane} (h : a.noClock = b.noClock) : a.volts = b.volts := (congrArg Lane.volts h :)
theorem noClock_image {a b : Lane} (h : a.noClock = b.noClock) : a.image = b.image := (congrArg Lane.image h :)
theorem noClock_gvolt {a b : Lane} (h : a.noClock = b.noClock) : a.gvolt = b.gvolt := (congrArg Lane.gvolt h :)
theorem noClock_gLow {a b : Lane} (h : a.noClock = b.noClock) : a.gLow = b.gLow := (congrArg Lane.gLow h :)
theorem noClock_ownOffer {a b : Lane} (h : a.noClock = b.noClock) : a.ownOffer = b.ownOffer := (congrArg Lane.ownOffer h :)
theorem noClock_ownSet {a b : Lane} (h : a.noClock = b.noClock) : a.ownSet = b.ownSet := (congrArg Lane.ownSet h :)
theorem noClock_ownHalt {a b : Lane} (h : a.noClock = b.noClock) : a.ownHalt = b.ownHalt := (congrArg Lane.ownHalt h :)
theorem noClock_voted {a b : Lane} (h : a.noClock = b.noClock) : a.voted = b.voted := (congrArg Lane.voted h :)
theorem noClock_late {a b : Lane} (h : a.noClock = b.noClock) : a.late = b.late := (congrArg Lane.late h :)
theorem noClock_exclCause {a b : Lane} (h : a.noClock = b.noClock) : a.exclCause = b.exclCause := (congrArg Lane.exclCause h :)
theorem noClock_step {a b : Lane} (h : a.noClock = b.noClock) : a.step = b.step := (congrArg Lane.step h :)
theorem noClock_margin {a b : Lane} (h : a.noClock = b.noClock) : a.margin = b.margin := (congrArg Lane.margin h :)
theorem noClock_lowReads {a b : Lane} (h : a.noClock = b.noClock) : a.lowReads = b.lowReads := (congrArg Lane.lowReads h :)
theorem noClock_eol {a b : Lane} (h : a.noClock = b.noClock) : a.eol = b.eol := (congrArg Lane.eol h :)
theorem noClock_lowerDue {a b : Lane} (h : a.noClock = b.noClock) : a.lowerDue = b.lowerDue := (congrArg Lane.lowerDue h :)
theorem noClock_mesh {a b : Lane} (h : a.noClock = b.noClock) : a.mesh = b.mesh := (congrArg Lane.mesh h :)
theorem noClock_envOk {a b : Lane} (h : a.noClock = b.noClock) : a.envOk = b.envOk := (congrArg Lane.envOk h :)
theorem noClock_pcLatch {a b : Lane} (h : a.noClock = b.noClock) : a.pcLatch = b.pcLatch := (congrArg Lane.pcLatch h :)
theorem noClock_latchTime {a b : Lane} (h : a.noClock = b.noClock) : a.latchTime = b.latchTime := (congrArg Lane.latchTime h :)
theorem noClock_btn {a b : Lane} (h : a.noClock = b.noClock) : a.btn = b.btn := (congrArg Lane.btn h :)
theorem noClock_missAll {a b : Lane} (h : a.noClock = b.noClock) : a.missAll = b.missAll := (congrArg Lane.missAll h :)
theorem noClock_divIn {a b : Lane} (h : a.noClock = b.noClock) : a.divIn = b.divIn := (congrArg Lane.divIn h :)
theorem noClock_foreignAt {a b : Lane} (h : a.noClock = b.noClock) : a.foreignAt = b.foreignAt := (congrArg Lane.foreignAt h :)
theorem noClock_subIdx {a b : Lane} (h : a.noClock = b.noClock) : a.subIdx = b.subIdx := (congrArg Lane.subIdx h :)
theorem noClock_alarmLevel {a b : Lane} (h : a.noClock = b.noClock) : a.alarmLevel = b.alarmLevel := (congrArg Lane.alarmLevel h :)
theorem noClock_cvu {a b : Lane} (h : a.noClock = b.noClock) : a.cvu = b.cvu := (congrArg Lane.cvu h :)

theorem noClock_alive {a b : Lane} (h : a.noClock = b.noClock) : a.alive = b.alive := by
  unfold Lane.alive; rw [noClock_supplied h, noClock_usable h, noClock_excluded h, noClock_halted h, noClock_stopped h]

theorem pcBump_noClock (fuel : Nat) (cfg : Tab W32) (n k : Nat) (l : Lane) : (pcBump fuel cfg n k l).noClock = l.noClock := by
  induction fuel generalizing n k l with
  | zero => rfl
  | succ i ih =>
    unfold pcBump; dsimp only; split
    · rw [ih]; rfl
    · rfl

theorem pcCount_noClock (cfg : Tab W32) (code a b : Nat) (l : Lane) : (pcCount cfg code a b l).noClock = l.noClock := by
  have key : ∀ (xs : List Nat) (l : Lane), (xs.foldl (fun acc n =>
      if fieldOf (tabGet 0 cfg (n / 4)).toNat (8 * (n % 4)) 8 % 64 = code ∧ (!bitOf (fieldOf (tabGet 0 cfg (n / 4)).toNat (8 * (n % 4)) 8) 7 || n == 0)
      then pcBump 32 cfg n (if bitOf (fieldOf (tabGet 0 cfg (n / 4)).toNat (8 * (n % 4)) 8) 6 then b else a) acc else acc) l).noClock = l.noClock := by
    intro xs
    induction xs with
    | nil => intro l; rfl
    | cons n r ih =>
      intro l; rw [List.foldl_cons, ih]; split
      · exact pcBump_noClock _ _ _ _ _
      · rfl
  unfold pcCount; split
  · rfl
  · exact key _ _

theorem pcCycles_noClock (cfg : Tab W32) (k d us : Nat) (l : Lane) : (pcCycles cfg k d us l).noClock = l.noClock := by
  unfold pcCycles; dsimp only; simp only [pcCount_noClock]

theorem laneTick_noClock (t : Bool) (d : Nat) (r : Int) (l : Lane) : (laneTick t d r l).noClock = l.noClock := rfl

theorem passTime_lane (d : Nat) (l : LaneId) : ((passTime d m).ln.get l).noClock = (m.ln.get l).noClock := by
  unfold passTime; dsimp only
  rw [PerLane.get_mapL, laneTick_noClock]
  unfold passCounters; split
  · rfl
  · rw [PerLane.get_mapL]; split
    · exact pcCycles_noClock _ _ _ _ _
    · rfl

theorem passTo_lane (t : Nat) (l : LaneId) : ((passTo t m).ln.get l).noClock = (m.ln.get l).noClock := passTime_lane m _ l
theorem passClk_lane (t : Nat) (l : LaneId) : ((passClk t m).ln.get l).noClock = (m.ln.get l).noClock := passTime_lane m _ l
theorem pcEvent_lane (x : LaneId) (code : Nat) (l : LaneId) : ((pcEvent x code m).ln.get l).noClock = (m.ln.get l).noClock := by
  unfold pcEvent; rw [updLane_ln]
  by_cases h : l = x
  · subst h; rw [PerLane.get_modify]; exact pcCount_noClock _ _ _ _ _
  · rw [PerLane.get_modify_ne _ _ _ _ h]
theorem pcAll_lane (code : Nat) (l : LaneId) : ((pcAll code m).ln.get l).noClock = (m.ln.get l).noClock := by
  unfold pcAll; split
  · rfl
  · rw [updLanes_ln, PerLane.get_mapL]; split
    · exact pcCount_noClock _ _ _ _ _
    · rfl
theorem passAll_lane (t : Nat) (l : LaneId) : ((passAll t m).ln.get l).noClock = (m.ln.get l).noClock := passTo_lane m _ l
theorem fireAt_lane (key len off : Nat) (due : Option Nat) (l : LaneId) : ((fireAt key len off due m).ln.get l).noClock = (m.ln.get l).noClock := by
  unfold fireAt; dsimp only; (repeat' split) <;> first | exact passAll_lane m _ l | exact pcAll_lane m _ l
theorem toPhase_lane (key p : Nat) (l : LaneId) : ((toPhase key p m).ln.get l).noClock = (m.ln.get l).noClock := by
  unfold toPhase; split
  · exact fireAt_lane m _ _ _ _ l
  · rfl
theorem toPhaseFrom_lane (due key p : Nat) (l : LaneId) : ((toPhaseFrom due key p m).ln.get l).noClock = (m.ln.get l).noClock := by
  unfold toPhaseFrom; split
  · exact fireAt_lane m _ _ _ _ l
  · rfl
theorem toNext_lane (key p : Nat) (l : LaneId) : ((toNext key p m).ln.get l).noClock = (m.ln.get l).noClock := by
  unfold toNext; split
  · exact fireAt_lane m _ _ _ _ l
  · rfl
theorem toBasicFrom_lane (due key off : Nat) (l : LaneId) : ((toBasicFrom due key off m).ln.get l).noClock = (m.ln.get l).noClock := by
  unfold toBasicFrom; split
  · exact fireAt_lane m _ _ _ _ l
  · rfl
theorem toBasic_lane (key off : Nat) (l : LaneId) : ((toBasic key off m).ln.get l).noClock = (m.ln.get l).noClock := by
  unfold toBasic; split
  · exact fireAt_lane m _ _ _ _ l
  · rfl


@[simp] theorem passTime_lane_nv (d : Nat) (l : LaneId) : ((passTime d m).ln.get l).nv = (m.ln.get l).nv := noClock_nv (passTime_lane m d l)
@[simp] theorem passTime_lane_supplied (d : Nat) (l : LaneId) : ((passTime d m).ln.get l).supplied = (m.ln.get l).supplied := noClock_supplied (passTime_lane m d l)
@[simp] theorem passTime_lane_usable (d : Nat) (l : LaneId) : ((passTime d m).ln.get l).usable = (m.ln.get l).usable := noClock_usable (passTime_lane m d l)
@[simp] theorem passTime_lane_heldOut (d : Nat) (l : LaneId) : ((passTime d m).ln.get l).heldOut = (m.ln.get l).heldOut := noClock_heldOut (passTime_lane m d l)
@[simp] theorem passTime_lane_excluded (d : Nat) (l : LaneId) : ((passTime d m).ln.get l).excluded = (m.ln.get l).excluded := noClock_excluded (passTime_lane m d l)
@[simp] theorem passTime_lane_stopped (d : Nat) (l : LaneId) : ((passTime d m).ln.get l).stopped = (m.ln.get l).stopped := noClock_stopped (passTime_lane m d l)
@[simp] theorem passTime_lane_halted (d : Nat) (l : LaneId) : ((passTime d m).ln.get l).halted = (m.ln.get l).halted := noClock_halted (passTime_lane m d l)
@[simp] theorem passTime_lane_opened (d : Nat) (l : LaneId) : ((passTime d m).ln.get l).opened = (m.ln.get l).opened := noClock_opened (passTime_lane m d l)
@[simp] theorem passTime_lane_openPairs (d : Nat) (l : LaneId) : ((passTime d m).ln.get l).openPairs = (m.ln.get l).openPairs := noClock_openPairs (passTime_lane m d l)
@[simp] theorem passTime_lane_keyLocked (d : Nat) (l : LaneId) : ((passTime d m).ln.get l).keyLocked = (m.ln.get l).keyLocked := noClock_keyLocked (passTime_lane m d l)
@[simp] theorem passTime_lane_testLatch (d : Nat) (l : LaneId) : ((passTime d m).ln.get l).testLatch = (m.ln.get l).testLatch := noClock_testLatch (passTime_lane m d l)
@[simp] theorem passTime_lane_proofAt (d : Nat) (l : LaneId) : ((passTime d m).ln.get l).proofAt = (m.ln.get l).proofAt := noClock_proofAt (passTime_lane m d l)
@[simp] theorem passTime_lane_itemAt (d : Nat) (l : LaneId) : ((passTime d m).ln.get l).itemAt = (m.ln.get l).itemAt := noClock_itemAt (passTime_lane m d l)
@[simp] theorem passTime_lane_itemNext (d : Nat) (l : LaneId) : ((passTime d m).ln.get l).itemNext = (m.ln.get l).itemNext := noClock_itemNext (passTime_lane m d l)
@[simp] theorem passTime_lane_abandoned (d : Nat) (l : LaneId) : ((passTime d m).ln.get l).abandoned = (m.ln.get l).abandoned := noClock_abandoned (passTime_lane m d l)
@[simp] theorem passTime_lane_freq (d : Nat) (l : LaneId) : ((passTime d m).ln.get l).freq = (m.ln.get l).freq := noClock_freq (passTime_lane m d l)
@[simp] theorem passTime_lane_offset (d : Nat) (l : LaneId) : ((passTime d m).ln.get l).offset = (m.ln.get l).offset := noClock_offset (passTime_lane m d l)
@[simp] theorem passTime_lane_driftLim (d : Nat) (l : LaneId) : ((passTime d m).ln.get l).driftLim = (m.ln.get l).driftLim := noClock_driftLim (passTime_lane m d l)
@[simp] theorem passTime_lane_driftEol (d : Nat) (l : LaneId) : ((passTime d m).ln.get l).driftEol = (m.ln.get l).driftEol := noClock_driftEol (passTime_lane m d l)
@[simp] theorem passTime_lane_feMiss (d : Nat) (l : LaneId) : ((passTime d m).ln.get l).feMiss = (m.ln.get l).feMiss := noClock_feMiss (passTime_lane m d l)
@[simp] theorem passTime_lane_feLost (d : Nat) (l : LaneId) : ((passTime d m).ln.get l).feLost = (m.ln.get l).feLost := noClock_feLost (passTime_lane m d l)
@[simp] theorem passTime_lane_vset (d : Nat) (l : LaneId) : ((passTime d m).ln.get l).vset = (m.ln.get l).vset := noClock_vset (passTime_lane m d l)
@[simp] theorem passTime_lane_tdiff (d : Nat) (l : LaneId) : ((passTime d m).ln.get l).tdiff = (m.ln.get l).tdiff := noClock_tdiff (passTime_lane m d l)
@[simp] theorem passTime_lane_localRx (d : Nat) (l : LaneId) : ((passTime d m).ln.get l).localRx = (m.ln.get l).localRx := noClock_localRx (passTime_lane m d l)
@[simp] theorem passTime_lane_remoteRx (d : Nat) (l : LaneId) : ((passTime d m).ln.get l).remoteRx = (m.ln.get l).remoteRx := noClock_remoteRx (passTime_lane m d l)
@[simp] theorem passTime_lane_offerRx (d : Nat) (l : LaneId) : ((passTime d m).ln.get l).offerRx = (m.ln.get l).offerRx := noClock_offerRx (passTime_lane m d l)
@[simp] theorem passTime_lane_verdictRx (d : Nat) (l : LaneId) : ((passTime d m).ln.get l).verdictRx = (m.ln.get l).verdictRx := noClock_verdictRx (passTime_lane m d l)
@[simp] theorem passTime_lane_confirmRx (d : Nat) (l : LaneId) : ((passTime d m).ln.get l).confirmRx = (m.ln.get l).confirmRx := noClock_confirmRx (passTime_lane m d l)
@[simp] theorem passTime_lane_faultRx (d : Nat) (l : LaneId) : ((passTime d m).ln.get l).faultRx = (m.ln.get l).faultRx := noClock_faultRx (passTime_lane m d l)
@[simp] theorem passTime_lane_sent (d : Nat) (l : LaneId) : ((passTime d m).ln.get l).sent = (m.ln.get l).sent := noClock_sent (passTime_lane m d l)
@[simp] theorem passTime_lane_ownChoice (d : Nat) (l : LaneId) : ((passTime d m).ln.get l).ownChoice = (m.ln.get l).ownChoice := noClock_ownChoice (passTime_lane m d l)
@[simp] theorem passTime_lane_sample (d : Nat) (l : LaneId) : ((passTime d m).ln.get l).sample = (m.ln.get l).sample := noClock_sample (passTime_lane m d l)
@[simp] theorem passTime_lane_volts (d : Nat) (l : LaneId) : ((passTime d m).ln.get l).volts = (m.ln.get l).volts := noClock_volts (passTime_lane m d l)
@[simp] theorem passTime_lane_image (d : Nat) (l : LaneId) : ((passTime d m).ln.get l).image = (m.ln.get l).image := noClock_image (passTime_lane m d l)
@[simp] theorem passTime_lane_gvolt (d : Nat) (l : LaneId) : ((passTime d m).ln.get l).gvolt = (m.ln.get l).gvolt := noClock_gvolt (passTime_lane m d l)
@[simp] theorem passTime_lane_gLow (d : Nat) (l : LaneId) : ((passTime d m).ln.get l).gLow = (m.ln.get l).gLow := noClock_gLow (passTime_lane m d l)
@[simp] theorem passTime_lane_ownOffer (d : Nat) (l : LaneId) : ((passTime d m).ln.get l).ownOffer = (m.ln.get l).ownOffer := noClock_ownOffer (passTime_lane m d l)
@[simp] theorem passTime_lane_ownSet (d : Nat) (l : LaneId) : ((passTime d m).ln.get l).ownSet = (m.ln.get l).ownSet := noClock_ownSet (passTime_lane m d l)
@[simp] theorem passTime_lane_ownHalt (d : Nat) (l : LaneId) : ((passTime d m).ln.get l).ownHalt = (m.ln.get l).ownHalt := noClock_ownHalt (passTime_lane m d l)
@[simp] theorem passTime_lane_voted (d : Nat) (l : LaneId) : ((passTime d m).ln.get l).voted = (m.ln.get l).voted := noClock_voted (passTime_lane m d l)
@[simp] theorem passTime_lane_late (d : Nat) (l : LaneId) : ((passTime d m).ln.get l).late = (m.ln.get l).late := noClock_late (passTime_lane m d l)
@[simp] theorem passTime_lane_exclCause (d : Nat) (l : LaneId) : ((passTime d m).ln.get l).exclCause = (m.ln.get l).exclCause := noClock_exclCause (passTime_lane m d l)
@[simp] theorem passTime_lane_step (d : Nat) (l : LaneId) : ((passTime d m).ln.get l).step = (m.ln.get l).step := noClock_step (passTime_lane m d l)
@[simp] theorem passTime_lane_margin (d : Nat) (l : LaneId) : ((passTime d m).ln.get l).margin = (m.ln.get l).margin := noClock_margin (passTime_lane m d l)
@[simp] theorem passTime_lane_lowReads (d : Nat) (l : LaneId) : ((passTime d m).ln.get l).lowReads = (m.ln.get l).lowReads := noClock_lowReads (passTime_lane m d l)
@[simp] theorem passTime_lane_eol (d : Nat) (l : LaneId) : ((passTime d m).ln.get l).eol = (m.ln.get l).eol := noClock_eol (passTime_lane m d l)
@[simp] theorem passTime_lane_lowerDue (d : Nat) (l : LaneId) : ((passTime d m).ln.get l).lowerDue = (m.ln.get l).lowerDue := noClock_lowerDue (passTime_lane m d l)
@[simp] theorem passTime_lane_mesh (d : Nat) (l : LaneId) : ((passTime d m).ln.get l).mesh = (m.ln.get l).mesh := noClock_mesh (passTime_lane m d l)
@[simp] theorem passTime_lane_envOk (d : Nat) (l : LaneId) : ((passTime d m).ln.get l).envOk = (m.ln.get l).envOk := noClock_envOk (passTime_lane m d l)
@[simp] theorem passTime_lane_pcLatch (d : Nat) (l : LaneId) : ((passTime d m).ln.get l).pcLatch = (m.ln.get l).pcLatch := noClock_pcLatch (passTime_lane m d l)
@[simp] theorem passTime_lane_latchTime (d : Nat) (l : LaneId) : ((passTime d m).ln.get l).latchTime = (m.ln.get l).latchTime := noClock_latchTime (passTime_lane m d l)
@[simp] theorem passTime_lane_btn (d : Nat) (l : LaneId) : ((passTime d m).ln.get l).btn = (m.ln.get l).btn := noClock_btn (passTime_lane m d l)
@[simp] theorem passTime_lane_missAll (d : Nat) (l : LaneId) : ((passTime d m).ln.get l).missAll = (m.ln.get l).missAll := noClock_missAll (passTime_lane m d l)
@[simp] theorem passTime_lane_divIn (d : Nat) (l : LaneId) : ((passTime d m).ln.get l).divIn = (m.ln.get l).divIn := noClock_divIn (passTime_lane m d l)
@[simp] theorem passTime_lane_foreignAt (d : Nat) (l : LaneId) : ((passTime d m).ln.get l).foreignAt = (m.ln.get l).foreignAt := noClock_foreignAt (passTime_lane m d l)
@[simp] theorem passTime_lane_subIdx (d : Nat) (l : LaneId) : ((passTime d m).ln.get l).subIdx = (m.ln.get l).subIdx := noClock_subIdx (passTime_lane m d l)
@[simp] theorem passTime_lane_alarmLevel (d : Nat) (l : LaneId) : ((passTime d m).ln.get l).alarmLevel = (m.ln.get l).alarmLevel := noClock_alarmLevel (passTime_lane m d l)
@[simp] theorem passTime_lane_cvu (d : Nat) (l : LaneId) : ((passTime d m).ln.get l).cvu = (m.ln.get l).cvu := noClock_cvu (passTime_lane m d l)
@[simp] theorem passTime_lane_alive (d : Nat) (l : LaneId) : ((passTime d m).ln.get l).alive = (m.ln.get l).alive := noClock_alive (passTime_lane m d l)
@[simp] theorem passTime_aliveLanes (d : Nat) : aliveLanes (passTime d m) = aliveLanes m := by
  unfold aliveLanes; congr 1; funext l; exact passTime_lane_alive m d l

@[simp] theorem passTo_lane_nv (t : Nat) (l : LaneId) : ((passTo t m).ln.get l).nv = (m.ln.get l).nv := noClock_nv (passTo_lane m t l)
@[simp] theorem passTo_lane_supplied (t : Nat) (l : LaneId) : ((passTo t m).ln.get l).supplied = (m.ln.get l).supplied := noClock_supplied (passTo_lane m t l)
@[simp] theorem passTo_lane_usable (t : Nat) (l : LaneId) : ((passTo t m).ln.get l).usable = (m.ln.get l).usable := noClock_usable (passTo_lane m t l)
@[simp] theorem passTo_lane_heldOut (t : Nat) (l : LaneId) : ((passTo t m).ln.get l).heldOut = (m.ln.get l).heldOut := noClock_heldOut (passTo_lane m t l)
@[simp] theorem passTo_lane_excluded (t : Nat) (l : LaneId) : ((passTo t m).ln.get l).excluded = (m.ln.get l).excluded := noClock_excluded (passTo_lane m t l)
@[simp] theorem passTo_lane_stopped (t : Nat) (l : LaneId) : ((passTo t m).ln.get l).stopped = (m.ln.get l).stopped := noClock_stopped (passTo_lane m t l)
@[simp] theorem passTo_lane_halted (t : Nat) (l : LaneId) : ((passTo t m).ln.get l).halted = (m.ln.get l).halted := noClock_halted (passTo_lane m t l)
@[simp] theorem passTo_lane_opened (t : Nat) (l : LaneId) : ((passTo t m).ln.get l).opened = (m.ln.get l).opened := noClock_opened (passTo_lane m t l)
@[simp] theorem passTo_lane_openPairs (t : Nat) (l : LaneId) : ((passTo t m).ln.get l).openPairs = (m.ln.get l).openPairs := noClock_openPairs (passTo_lane m t l)
@[simp] theorem passTo_lane_keyLocked (t : Nat) (l : LaneId) : ((passTo t m).ln.get l).keyLocked = (m.ln.get l).keyLocked := noClock_keyLocked (passTo_lane m t l)
@[simp] theorem passTo_lane_testLatch (t : Nat) (l : LaneId) : ((passTo t m).ln.get l).testLatch = (m.ln.get l).testLatch := noClock_testLatch (passTo_lane m t l)
@[simp] theorem passTo_lane_proofAt (t : Nat) (l : LaneId) : ((passTo t m).ln.get l).proofAt = (m.ln.get l).proofAt := noClock_proofAt (passTo_lane m t l)
@[simp] theorem passTo_lane_itemAt (t : Nat) (l : LaneId) : ((passTo t m).ln.get l).itemAt = (m.ln.get l).itemAt := noClock_itemAt (passTo_lane m t l)
@[simp] theorem passTo_lane_itemNext (t : Nat) (l : LaneId) : ((passTo t m).ln.get l).itemNext = (m.ln.get l).itemNext := noClock_itemNext (passTo_lane m t l)
@[simp] theorem passTo_lane_abandoned (t : Nat) (l : LaneId) : ((passTo t m).ln.get l).abandoned = (m.ln.get l).abandoned := noClock_abandoned (passTo_lane m t l)
@[simp] theorem passTo_lane_freq (t : Nat) (l : LaneId) : ((passTo t m).ln.get l).freq = (m.ln.get l).freq := noClock_freq (passTo_lane m t l)
@[simp] theorem passTo_lane_offset (t : Nat) (l : LaneId) : ((passTo t m).ln.get l).offset = (m.ln.get l).offset := noClock_offset (passTo_lane m t l)
@[simp] theorem passTo_lane_driftLim (t : Nat) (l : LaneId) : ((passTo t m).ln.get l).driftLim = (m.ln.get l).driftLim := noClock_driftLim (passTo_lane m t l)
@[simp] theorem passTo_lane_driftEol (t : Nat) (l : LaneId) : ((passTo t m).ln.get l).driftEol = (m.ln.get l).driftEol := noClock_driftEol (passTo_lane m t l)
@[simp] theorem passTo_lane_feMiss (t : Nat) (l : LaneId) : ((passTo t m).ln.get l).feMiss = (m.ln.get l).feMiss := noClock_feMiss (passTo_lane m t l)
@[simp] theorem passTo_lane_feLost (t : Nat) (l : LaneId) : ((passTo t m).ln.get l).feLost = (m.ln.get l).feLost := noClock_feLost (passTo_lane m t l)
@[simp] theorem passTo_lane_vset (t : Nat) (l : LaneId) : ((passTo t m).ln.get l).vset = (m.ln.get l).vset := noClock_vset (passTo_lane m t l)
@[simp] theorem passTo_lane_tdiff (t : Nat) (l : LaneId) : ((passTo t m).ln.get l).tdiff = (m.ln.get l).tdiff := noClock_tdiff (passTo_lane m t l)
@[simp] theorem passTo_lane_localRx (t : Nat) (l : LaneId) : ((passTo t m).ln.get l).localRx = (m.ln.get l).localRx := noClock_localRx (passTo_lane m t l)
@[simp] theorem passTo_lane_remoteRx (t : Nat) (l : LaneId) : ((passTo t m).ln.get l).remoteRx = (m.ln.get l).remoteRx := noClock_remoteRx (passTo_lane m t l)
@[simp] theorem passTo_lane_offerRx (t : Nat) (l : LaneId) : ((passTo t m).ln.get l).offerRx = (m.ln.get l).offerRx := noClock_offerRx (passTo_lane m t l)
@[simp] theorem passTo_lane_verdictRx (t : Nat) (l : LaneId) : ((passTo t m).ln.get l).verdictRx = (m.ln.get l).verdictRx := noClock_verdictRx (passTo_lane m t l)
@[simp] theorem passTo_lane_confirmRx (t : Nat) (l : LaneId) : ((passTo t m).ln.get l).confirmRx = (m.ln.get l).confirmRx := noClock_confirmRx (passTo_lane m t l)
@[simp] theorem passTo_lane_faultRx (t : Nat) (l : LaneId) : ((passTo t m).ln.get l).faultRx = (m.ln.get l).faultRx := noClock_faultRx (passTo_lane m t l)
@[simp] theorem passTo_lane_sent (t : Nat) (l : LaneId) : ((passTo t m).ln.get l).sent = (m.ln.get l).sent := noClock_sent (passTo_lane m t l)
@[simp] theorem passTo_lane_ownChoice (t : Nat) (l : LaneId) : ((passTo t m).ln.get l).ownChoice = (m.ln.get l).ownChoice := noClock_ownChoice (passTo_lane m t l)
@[simp] theorem passTo_lane_sample (t : Nat) (l : LaneId) : ((passTo t m).ln.get l).sample = (m.ln.get l).sample := noClock_sample (passTo_lane m t l)
@[simp] theorem passTo_lane_volts (t : Nat) (l : LaneId) : ((passTo t m).ln.get l).volts = (m.ln.get l).volts := noClock_volts (passTo_lane m t l)
@[simp] theorem passTo_lane_image (t : Nat) (l : LaneId) : ((passTo t m).ln.get l).image = (m.ln.get l).image := noClock_image (passTo_lane m t l)
@[simp] theorem passTo_lane_gvolt (t : Nat) (l : LaneId) : ((passTo t m).ln.get l).gvolt = (m.ln.get l).gvolt := noClock_gvolt (passTo_lane m t l)
@[simp] theorem passTo_lane_gLow (t : Nat) (l : LaneId) : ((passTo t m).ln.get l).gLow = (m.ln.get l).gLow := noClock_gLow (passTo_lane m t l)
@[simp] theorem passTo_lane_ownOffer (t : Nat) (l : LaneId) : ((passTo t m).ln.get l).ownOffer = (m.ln.get l).ownOffer := noClock_ownOffer (passTo_lane m t l)
@[simp] theorem passTo_lane_ownSet (t : Nat) (l : LaneId) : ((passTo t m).ln.get l).ownSet = (m.ln.get l).ownSet := noClock_ownSet (passTo_lane m t l)
@[simp] theorem passTo_lane_ownHalt (t : Nat) (l : LaneId) : ((passTo t m).ln.get l).ownHalt = (m.ln.get l).ownHalt := noClock_ownHalt (passTo_lane m t l)
@[simp] theorem passTo_lane_voted (t : Nat) (l : LaneId) : ((passTo t m).ln.get l).voted = (m.ln.get l).voted := noClock_voted (passTo_lane m t l)
@[simp] theorem passTo_lane_late (t : Nat) (l : LaneId) : ((passTo t m).ln.get l).late = (m.ln.get l).late := noClock_late (passTo_lane m t l)
@[simp] theorem passTo_lane_exclCause (t : Nat) (l : LaneId) : ((passTo t m).ln.get l).exclCause = (m.ln.get l).exclCause := noClock_exclCause (passTo_lane m t l)
@[simp] theorem passTo_lane_step (t : Nat) (l : LaneId) : ((passTo t m).ln.get l).step = (m.ln.get l).step := noClock_step (passTo_lane m t l)
@[simp] theorem passTo_lane_margin (t : Nat) (l : LaneId) : ((passTo t m).ln.get l).margin = (m.ln.get l).margin := noClock_margin (passTo_lane m t l)
@[simp] theorem passTo_lane_lowReads (t : Nat) (l : LaneId) : ((passTo t m).ln.get l).lowReads = (m.ln.get l).lowReads := noClock_lowReads (passTo_lane m t l)
@[simp] theorem passTo_lane_eol (t : Nat) (l : LaneId) : ((passTo t m).ln.get l).eol = (m.ln.get l).eol := noClock_eol (passTo_lane m t l)
@[simp] theorem passTo_lane_lowerDue (t : Nat) (l : LaneId) : ((passTo t m).ln.get l).lowerDue = (m.ln.get l).lowerDue := noClock_lowerDue (passTo_lane m t l)
@[simp] theorem passTo_lane_mesh (t : Nat) (l : LaneId) : ((passTo t m).ln.get l).mesh = (m.ln.get l).mesh := noClock_mesh (passTo_lane m t l)
@[simp] theorem passTo_lane_envOk (t : Nat) (l : LaneId) : ((passTo t m).ln.get l).envOk = (m.ln.get l).envOk := noClock_envOk (passTo_lane m t l)
@[simp] theorem passTo_lane_pcLatch (t : Nat) (l : LaneId) : ((passTo t m).ln.get l).pcLatch = (m.ln.get l).pcLatch := noClock_pcLatch (passTo_lane m t l)
@[simp] theorem passTo_lane_latchTime (t : Nat) (l : LaneId) : ((passTo t m).ln.get l).latchTime = (m.ln.get l).latchTime := noClock_latchTime (passTo_lane m t l)
@[simp] theorem passTo_lane_btn (t : Nat) (l : LaneId) : ((passTo t m).ln.get l).btn = (m.ln.get l).btn := noClock_btn (passTo_lane m t l)
@[simp] theorem passTo_lane_missAll (t : Nat) (l : LaneId) : ((passTo t m).ln.get l).missAll = (m.ln.get l).missAll := noClock_missAll (passTo_lane m t l)
@[simp] theorem passTo_lane_divIn (t : Nat) (l : LaneId) : ((passTo t m).ln.get l).divIn = (m.ln.get l).divIn := noClock_divIn (passTo_lane m t l)
@[simp] theorem passTo_lane_foreignAt (t : Nat) (l : LaneId) : ((passTo t m).ln.get l).foreignAt = (m.ln.get l).foreignAt := noClock_foreignAt (passTo_lane m t l)
@[simp] theorem passTo_lane_subIdx (t : Nat) (l : LaneId) : ((passTo t m).ln.get l).subIdx = (m.ln.get l).subIdx := noClock_subIdx (passTo_lane m t l)
@[simp] theorem passTo_lane_alarmLevel (t : Nat) (l : LaneId) : ((passTo t m).ln.get l).alarmLevel = (m.ln.get l).alarmLevel := noClock_alarmLevel (passTo_lane m t l)
@[simp] theorem passTo_lane_cvu (t : Nat) (l : LaneId) : ((passTo t m).ln.get l).cvu = (m.ln.get l).cvu := noClock_cvu (passTo_lane m t l)
@[simp] theorem passTo_lane_alive (t : Nat) (l : LaneId) : ((passTo t m).ln.get l).alive = (m.ln.get l).alive := noClock_alive (passTo_lane m t l)
@[simp] theorem passTo_aliveLanes (t : Nat) : aliveLanes (passTo t m) = aliveLanes m := by
  unfold aliveLanes; congr 1; funext l; exact passTo_lane_alive m t l

@[simp] theorem passClk_lane_nv (t : Nat) (l : LaneId) : ((passClk t m).ln.get l).nv = (m.ln.get l).nv := noClock_nv (passClk_lane m t l)
@[simp] theorem passClk_lane_supplied (t : Nat) (l : LaneId) : ((passClk t m).ln.get l).supplied = (m.ln.get l).supplied := noClock_supplied (passClk_lane m t l)
@[simp] theorem passClk_lane_usable (t : Nat) (l : LaneId) : ((passClk t m).ln.get l).usable = (m.ln.get l).usable := noClock_usable (passClk_lane m t l)
@[simp] theorem passClk_lane_heldOut (t : Nat) (l : LaneId) : ((passClk t m).ln.get l).heldOut = (m.ln.get l).heldOut := noClock_heldOut (passClk_lane m t l)
@[simp] theorem passClk_lane_excluded (t : Nat) (l : LaneId) : ((passClk t m).ln.get l).excluded = (m.ln.get l).excluded := noClock_excluded (passClk_lane m t l)
@[simp] theorem passClk_lane_stopped (t : Nat) (l : LaneId) : ((passClk t m).ln.get l).stopped = (m.ln.get l).stopped := noClock_stopped (passClk_lane m t l)
@[simp] theorem passClk_lane_halted (t : Nat) (l : LaneId) : ((passClk t m).ln.get l).halted = (m.ln.get l).halted := noClock_halted (passClk_lane m t l)
@[simp] theorem passClk_lane_opened (t : Nat) (l : LaneId) : ((passClk t m).ln.get l).opened = (m.ln.get l).opened := noClock_opened (passClk_lane m t l)
@[simp] theorem passClk_lane_openPairs (t : Nat) (l : LaneId) : ((passClk t m).ln.get l).openPairs = (m.ln.get l).openPairs := noClock_openPairs (passClk_lane m t l)
@[simp] theorem passClk_lane_keyLocked (t : Nat) (l : LaneId) : ((passClk t m).ln.get l).keyLocked = (m.ln.get l).keyLocked := noClock_keyLocked (passClk_lane m t l)
@[simp] theorem passClk_lane_testLatch (t : Nat) (l : LaneId) : ((passClk t m).ln.get l).testLatch = (m.ln.get l).testLatch := noClock_testLatch (passClk_lane m t l)
@[simp] theorem passClk_lane_proofAt (t : Nat) (l : LaneId) : ((passClk t m).ln.get l).proofAt = (m.ln.get l).proofAt := noClock_proofAt (passClk_lane m t l)
@[simp] theorem passClk_lane_itemAt (t : Nat) (l : LaneId) : ((passClk t m).ln.get l).itemAt = (m.ln.get l).itemAt := noClock_itemAt (passClk_lane m t l)
@[simp] theorem passClk_lane_itemNext (t : Nat) (l : LaneId) : ((passClk t m).ln.get l).itemNext = (m.ln.get l).itemNext := noClock_itemNext (passClk_lane m t l)
@[simp] theorem passClk_lane_abandoned (t : Nat) (l : LaneId) : ((passClk t m).ln.get l).abandoned = (m.ln.get l).abandoned := noClock_abandoned (passClk_lane m t l)
@[simp] theorem passClk_lane_freq (t : Nat) (l : LaneId) : ((passClk t m).ln.get l).freq = (m.ln.get l).freq := noClock_freq (passClk_lane m t l)
@[simp] theorem passClk_lane_offset (t : Nat) (l : LaneId) : ((passClk t m).ln.get l).offset = (m.ln.get l).offset := noClock_offset (passClk_lane m t l)
@[simp] theorem passClk_lane_driftLim (t : Nat) (l : LaneId) : ((passClk t m).ln.get l).driftLim = (m.ln.get l).driftLim := noClock_driftLim (passClk_lane m t l)
@[simp] theorem passClk_lane_driftEol (t : Nat) (l : LaneId) : ((passClk t m).ln.get l).driftEol = (m.ln.get l).driftEol := noClock_driftEol (passClk_lane m t l)
@[simp] theorem passClk_lane_feMiss (t : Nat) (l : LaneId) : ((passClk t m).ln.get l).feMiss = (m.ln.get l).feMiss := noClock_feMiss (passClk_lane m t l)
@[simp] theorem passClk_lane_feLost (t : Nat) (l : LaneId) : ((passClk t m).ln.get l).feLost = (m.ln.get l).feLost := noClock_feLost (passClk_lane m t l)
@[simp] theorem passClk_lane_vset (t : Nat) (l : LaneId) : ((passClk t m).ln.get l).vset = (m.ln.get l).vset := noClock_vset (passClk_lane m t l)
@[simp] theorem passClk_lane_tdiff (t : Nat) (l : LaneId) : ((passClk t m).ln.get l).tdiff = (m.ln.get l).tdiff := noClock_tdiff (passClk_lane m t l)
@[simp] theorem passClk_lane_localRx (t : Nat) (l : LaneId) : ((passClk t m).ln.get l).localRx = (m.ln.get l).localRx := noClock_localRx (passClk_lane m t l)
@[simp] theorem passClk_lane_remoteRx (t : Nat) (l : LaneId) : ((passClk t m).ln.get l).remoteRx = (m.ln.get l).remoteRx := noClock_remoteRx (passClk_lane m t l)
@[simp] theorem passClk_lane_offerRx (t : Nat) (l : LaneId) : ((passClk t m).ln.get l).offerRx = (m.ln.get l).offerRx := noClock_offerRx (passClk_lane m t l)
@[simp] theorem passClk_lane_verdictRx (t : Nat) (l : LaneId) : ((passClk t m).ln.get l).verdictRx = (m.ln.get l).verdictRx := noClock_verdictRx (passClk_lane m t l)
@[simp] theorem passClk_lane_confirmRx (t : Nat) (l : LaneId) : ((passClk t m).ln.get l).confirmRx = (m.ln.get l).confirmRx := noClock_confirmRx (passClk_lane m t l)
@[simp] theorem passClk_lane_faultRx (t : Nat) (l : LaneId) : ((passClk t m).ln.get l).faultRx = (m.ln.get l).faultRx := noClock_faultRx (passClk_lane m t l)
@[simp] theorem passClk_lane_sent (t : Nat) (l : LaneId) : ((passClk t m).ln.get l).sent = (m.ln.get l).sent := noClock_sent (passClk_lane m t l)
@[simp] theorem passClk_lane_ownChoice (t : Nat) (l : LaneId) : ((passClk t m).ln.get l).ownChoice = (m.ln.get l).ownChoice := noClock_ownChoice (passClk_lane m t l)
@[simp] theorem passClk_lane_sample (t : Nat) (l : LaneId) : ((passClk t m).ln.get l).sample = (m.ln.get l).sample := noClock_sample (passClk_lane m t l)
@[simp] theorem passClk_lane_volts (t : Nat) (l : LaneId) : ((passClk t m).ln.get l).volts = (m.ln.get l).volts := noClock_volts (passClk_lane m t l)
@[simp] theorem passClk_lane_image (t : Nat) (l : LaneId) : ((passClk t m).ln.get l).image = (m.ln.get l).image := noClock_image (passClk_lane m t l)
@[simp] theorem passClk_lane_gvolt (t : Nat) (l : LaneId) : ((passClk t m).ln.get l).gvolt = (m.ln.get l).gvolt := noClock_gvolt (passClk_lane m t l)
@[simp] theorem passClk_lane_gLow (t : Nat) (l : LaneId) : ((passClk t m).ln.get l).gLow = (m.ln.get l).gLow := noClock_gLow (passClk_lane m t l)
@[simp] theorem passClk_lane_ownOffer (t : Nat) (l : LaneId) : ((passClk t m).ln.get l).ownOffer = (m.ln.get l).ownOffer := noClock_ownOffer (passClk_lane m t l)
@[simp] theorem passClk_lane_ownSet (t : Nat) (l : LaneId) : ((passClk t m).ln.get l).ownSet = (m.ln.get l).ownSet := noClock_ownSet (passClk_lane m t l)
@[simp] theorem passClk_lane_ownHalt (t : Nat) (l : LaneId) : ((passClk t m).ln.get l).ownHalt = (m.ln.get l).ownHalt := noClock_ownHalt (passClk_lane m t l)
@[simp] theorem passClk_lane_voted (t : Nat) (l : LaneId) : ((passClk t m).ln.get l).voted = (m.ln.get l).voted := noClock_voted (passClk_lane m t l)
@[simp] theorem passClk_lane_late (t : Nat) (l : LaneId) : ((passClk t m).ln.get l).late = (m.ln.get l).late := noClock_late (passClk_lane m t l)
@[simp] theorem passClk_lane_exclCause (t : Nat) (l : LaneId) : ((passClk t m).ln.get l).exclCause = (m.ln.get l).exclCause := noClock_exclCause (passClk_lane m t l)
@[simp] theorem passClk_lane_step (t : Nat) (l : LaneId) : ((passClk t m).ln.get l).step = (m.ln.get l).step := noClock_step (passClk_lane m t l)
@[simp] theorem passClk_lane_margin (t : Nat) (l : LaneId) : ((passClk t m).ln.get l).margin = (m.ln.get l).margin := noClock_margin (passClk_lane m t l)
@[simp] theorem passClk_lane_lowReads (t : Nat) (l : LaneId) : ((passClk t m).ln.get l).lowReads = (m.ln.get l).lowReads := noClock_lowReads (passClk_lane m t l)
@[simp] theorem passClk_lane_eol (t : Nat) (l : LaneId) : ((passClk t m).ln.get l).eol = (m.ln.get l).eol := noClock_eol (passClk_lane m t l)
@[simp] theorem passClk_lane_lowerDue (t : Nat) (l : LaneId) : ((passClk t m).ln.get l).lowerDue = (m.ln.get l).lowerDue := noClock_lowerDue (passClk_lane m t l)
@[simp] theorem passClk_lane_mesh (t : Nat) (l : LaneId) : ((passClk t m).ln.get l).mesh = (m.ln.get l).mesh := noClock_mesh (passClk_lane m t l)
@[simp] theorem passClk_lane_envOk (t : Nat) (l : LaneId) : ((passClk t m).ln.get l).envOk = (m.ln.get l).envOk := noClock_envOk (passClk_lane m t l)
@[simp] theorem passClk_lane_pcLatch (t : Nat) (l : LaneId) : ((passClk t m).ln.get l).pcLatch = (m.ln.get l).pcLatch := noClock_pcLatch (passClk_lane m t l)
@[simp] theorem passClk_lane_latchTime (t : Nat) (l : LaneId) : ((passClk t m).ln.get l).latchTime = (m.ln.get l).latchTime := noClock_latchTime (passClk_lane m t l)
@[simp] theorem passClk_lane_btn (t : Nat) (l : LaneId) : ((passClk t m).ln.get l).btn = (m.ln.get l).btn := noClock_btn (passClk_lane m t l)
@[simp] theorem passClk_lane_missAll (t : Nat) (l : LaneId) : ((passClk t m).ln.get l).missAll = (m.ln.get l).missAll := noClock_missAll (passClk_lane m t l)
@[simp] theorem passClk_lane_divIn (t : Nat) (l : LaneId) : ((passClk t m).ln.get l).divIn = (m.ln.get l).divIn := noClock_divIn (passClk_lane m t l)
@[simp] theorem passClk_lane_foreignAt (t : Nat) (l : LaneId) : ((passClk t m).ln.get l).foreignAt = (m.ln.get l).foreignAt := noClock_foreignAt (passClk_lane m t l)
@[simp] theorem passClk_lane_subIdx (t : Nat) (l : LaneId) : ((passClk t m).ln.get l).subIdx = (m.ln.get l).subIdx := noClock_subIdx (passClk_lane m t l)
@[simp] theorem passClk_lane_alarmLevel (t : Nat) (l : LaneId) : ((passClk t m).ln.get l).alarmLevel = (m.ln.get l).alarmLevel := noClock_alarmLevel (passClk_lane m t l)
@[simp] theorem passClk_lane_cvu (t : Nat) (l : LaneId) : ((passClk t m).ln.get l).cvu = (m.ln.get l).cvu := noClock_cvu (passClk_lane m t l)
@[simp] theorem passClk_lane_alive (t : Nat) (l : LaneId) : ((passClk t m).ln.get l).alive = (m.ln.get l).alive := noClock_alive (passClk_lane m t l)
@[simp] theorem passClk_aliveLanes (t : Nat) : aliveLanes (passClk t m) = aliveLanes m := by
  unfold aliveLanes; congr 1; funext l; exact passClk_lane_alive m t l

@[simp] theorem toPhase_lane_nv (key p : Nat) (l : LaneId) : ((toPhase key p m).ln.get l).nv = (m.ln.get l).nv := noClock_nv (toPhase_lane m key p l)
@[simp] theorem toPhase_lane_supplied (key p : Nat) (l : LaneId) : ((toPhase key p m).ln.get l).supplied = (m.ln.get l).supplied := noClock_supplied (toPhase_lane m key p l)
@[simp] theorem toPhase_lane_usable (key p : Nat) (l : LaneId) : ((toPhase key p m).ln.get l).usable = (m.ln.get l).usable := noClock_usable (toPhase_lane m key p l)
@[simp] theorem toPhase_lane_heldOut (key p : Nat) (l : LaneId) : ((toPhase key p m).ln.get l).heldOut = (m.ln.get l).heldOut := noClock_heldOut (toPhase_lane m key p l)
@[simp] theorem toPhase_lane_excluded (key p : Nat) (l : LaneId) : ((toPhase key p m).ln.get l).excluded = (m.ln.get l).excluded := noClock_excluded (toPhase_lane m key p l)
@[simp] theorem toPhase_lane_stopped (key p : Nat) (l : LaneId) : ((toPhase key p m).ln.get l).stopped = (m.ln.get l).stopped := noClock_stopped (toPhase_lane m key p l)
@[simp] theorem toPhase_lane_halted (key p : Nat) (l : LaneId) : ((toPhase key p m).ln.get l).halted = (m.ln.get l).halted := noClock_halted (toPhase_lane m key p l)
@[simp] theorem toPhase_lane_opened (key p : Nat) (l : LaneId) : ((toPhase key p m).ln.get l).opened = (m.ln.get l).opened := noClock_opened (toPhase_lane m key p l)
@[simp] theorem toPhase_lane_openPairs (key p : Nat) (l : LaneId) : ((toPhase key p m).ln.get l).openPairs = (m.ln.get l).openPairs := noClock_openPairs (toPhase_lane m key p l)
@[simp] theorem toPhase_lane_keyLocked (key p : Nat) (l : LaneId) : ((toPhase key p m).ln.get l).keyLocked = (m.ln.get l).keyLocked := noClock_keyLocked (toPhase_lane m key p l)
@[simp] theorem toPhase_lane_testLatch (key p : Nat) (l : LaneId) : ((toPhase key p m).ln.get l).testLatch = (m.ln.get l).testLatch := noClock_testLatch (toPhase_lane m key p l)
@[simp] theorem toPhase_lane_proofAt (key p : Nat) (l : LaneId) : ((toPhase key p m).ln.get l).proofAt = (m.ln.get l).proofAt := noClock_proofAt (toPhase_lane m key p l)
@[simp] theorem toPhase_lane_itemAt (key p : Nat) (l : LaneId) : ((toPhase key p m).ln.get l).itemAt = (m.ln.get l).itemAt := noClock_itemAt (toPhase_lane m key p l)
@[simp] theorem toPhase_lane_itemNext (key p : Nat) (l : LaneId) : ((toPhase key p m).ln.get l).itemNext = (m.ln.get l).itemNext := noClock_itemNext (toPhase_lane m key p l)
@[simp] theorem toPhase_lane_abandoned (key p : Nat) (l : LaneId) : ((toPhase key p m).ln.get l).abandoned = (m.ln.get l).abandoned := noClock_abandoned (toPhase_lane m key p l)
@[simp] theorem toPhase_lane_freq (key p : Nat) (l : LaneId) : ((toPhase key p m).ln.get l).freq = (m.ln.get l).freq := noClock_freq (toPhase_lane m key p l)
@[simp] theorem toPhase_lane_offset (key p : Nat) (l : LaneId) : ((toPhase key p m).ln.get l).offset = (m.ln.get l).offset := noClock_offset (toPhase_lane m key p l)
@[simp] theorem toPhase_lane_driftLim (key p : Nat) (l : LaneId) : ((toPhase key p m).ln.get l).driftLim = (m.ln.get l).driftLim := noClock_driftLim (toPhase_lane m key p l)
@[simp] theorem toPhase_lane_driftEol (key p : Nat) (l : LaneId) : ((toPhase key p m).ln.get l).driftEol = (m.ln.get l).driftEol := noClock_driftEol (toPhase_lane m key p l)
@[simp] theorem toPhase_lane_feMiss (key p : Nat) (l : LaneId) : ((toPhase key p m).ln.get l).feMiss = (m.ln.get l).feMiss := noClock_feMiss (toPhase_lane m key p l)
@[simp] theorem toPhase_lane_feLost (key p : Nat) (l : LaneId) : ((toPhase key p m).ln.get l).feLost = (m.ln.get l).feLost := noClock_feLost (toPhase_lane m key p l)
@[simp] theorem toPhase_lane_vset (key p : Nat) (l : LaneId) : ((toPhase key p m).ln.get l).vset = (m.ln.get l).vset := noClock_vset (toPhase_lane m key p l)
@[simp] theorem toPhase_lane_tdiff (key p : Nat) (l : LaneId) : ((toPhase key p m).ln.get l).tdiff = (m.ln.get l).tdiff := noClock_tdiff (toPhase_lane m key p l)
@[simp] theorem toPhase_lane_localRx (key p : Nat) (l : LaneId) : ((toPhase key p m).ln.get l).localRx = (m.ln.get l).localRx := noClock_localRx (toPhase_lane m key p l)
@[simp] theorem toPhase_lane_remoteRx (key p : Nat) (l : LaneId) : ((toPhase key p m).ln.get l).remoteRx = (m.ln.get l).remoteRx := noClock_remoteRx (toPhase_lane m key p l)
@[simp] theorem toPhase_lane_offerRx (key p : Nat) (l : LaneId) : ((toPhase key p m).ln.get l).offerRx = (m.ln.get l).offerRx := noClock_offerRx (toPhase_lane m key p l)
@[simp] theorem toPhase_lane_verdictRx (key p : Nat) (l : LaneId) : ((toPhase key p m).ln.get l).verdictRx = (m.ln.get l).verdictRx := noClock_verdictRx (toPhase_lane m key p l)
@[simp] theorem toPhase_lane_confirmRx (key p : Nat) (l : LaneId) : ((toPhase key p m).ln.get l).confirmRx = (m.ln.get l).confirmRx := noClock_confirmRx (toPhase_lane m key p l)
@[simp] theorem toPhase_lane_faultRx (key p : Nat) (l : LaneId) : ((toPhase key p m).ln.get l).faultRx = (m.ln.get l).faultRx := noClock_faultRx (toPhase_lane m key p l)
@[simp] theorem toPhase_lane_sent (key p : Nat) (l : LaneId) : ((toPhase key p m).ln.get l).sent = (m.ln.get l).sent := noClock_sent (toPhase_lane m key p l)
@[simp] theorem toPhase_lane_ownChoice (key p : Nat) (l : LaneId) : ((toPhase key p m).ln.get l).ownChoice = (m.ln.get l).ownChoice := noClock_ownChoice (toPhase_lane m key p l)
@[simp] theorem toPhase_lane_sample (key p : Nat) (l : LaneId) : ((toPhase key p m).ln.get l).sample = (m.ln.get l).sample := noClock_sample (toPhase_lane m key p l)
@[simp] theorem toPhase_lane_volts (key p : Nat) (l : LaneId) : ((toPhase key p m).ln.get l).volts = (m.ln.get l).volts := noClock_volts (toPhase_lane m key p l)
@[simp] theorem toPhase_lane_image (key p : Nat) (l : LaneId) : ((toPhase key p m).ln.get l).image = (m.ln.get l).image := noClock_image (toPhase_lane m key p l)
@[simp] theorem toPhase_lane_gvolt (key p : Nat) (l : LaneId) : ((toPhase key p m).ln.get l).gvolt = (m.ln.get l).gvolt := noClock_gvolt (toPhase_lane m key p l)
@[simp] theorem toPhase_lane_gLow (key p : Nat) (l : LaneId) : ((toPhase key p m).ln.get l).gLow = (m.ln.get l).gLow := noClock_gLow (toPhase_lane m key p l)
@[simp] theorem toPhase_lane_ownOffer (key p : Nat) (l : LaneId) : ((toPhase key p m).ln.get l).ownOffer = (m.ln.get l).ownOffer := noClock_ownOffer (toPhase_lane m key p l)
@[simp] theorem toPhase_lane_ownSet (key p : Nat) (l : LaneId) : ((toPhase key p m).ln.get l).ownSet = (m.ln.get l).ownSet := noClock_ownSet (toPhase_lane m key p l)
@[simp] theorem toPhase_lane_ownHalt (key p : Nat) (l : LaneId) : ((toPhase key p m).ln.get l).ownHalt = (m.ln.get l).ownHalt := noClock_ownHalt (toPhase_lane m key p l)
@[simp] theorem toPhase_lane_voted (key p : Nat) (l : LaneId) : ((toPhase key p m).ln.get l).voted = (m.ln.get l).voted := noClock_voted (toPhase_lane m key p l)
@[simp] theorem toPhase_lane_late (key p : Nat) (l : LaneId) : ((toPhase key p m).ln.get l).late = (m.ln.get l).late := noClock_late (toPhase_lane m key p l)
@[simp] theorem toPhase_lane_exclCause (key p : Nat) (l : LaneId) : ((toPhase key p m).ln.get l).exclCause = (m.ln.get l).exclCause := noClock_exclCause (toPhase_lane m key p l)
@[simp] theorem toPhase_lane_step (key p : Nat) (l : LaneId) : ((toPhase key p m).ln.get l).step = (m.ln.get l).step := noClock_step (toPhase_lane m key p l)
@[simp] theorem toPhase_lane_margin (key p : Nat) (l : LaneId) : ((toPhase key p m).ln.get l).margin = (m.ln.get l).margin := noClock_margin (toPhase_lane m key p l)
@[simp] theorem toPhase_lane_lowReads (key p : Nat) (l : LaneId) : ((toPhase key p m).ln.get l).lowReads = (m.ln.get l).lowReads := noClock_lowReads (toPhase_lane m key p l)
@[simp] theorem toPhase_lane_eol (key p : Nat) (l : LaneId) : ((toPhase key p m).ln.get l).eol = (m.ln.get l).eol := noClock_eol (toPhase_lane m key p l)
@[simp] theorem toPhase_lane_lowerDue (key p : Nat) (l : LaneId) : ((toPhase key p m).ln.get l).lowerDue = (m.ln.get l).lowerDue := noClock_lowerDue (toPhase_lane m key p l)
@[simp] theorem toPhase_lane_mesh (key p : Nat) (l : LaneId) : ((toPhase key p m).ln.get l).mesh = (m.ln.get l).mesh := noClock_mesh (toPhase_lane m key p l)
@[simp] theorem toPhase_lane_envOk (key p : Nat) (l : LaneId) : ((toPhase key p m).ln.get l).envOk = (m.ln.get l).envOk := noClock_envOk (toPhase_lane m key p l)
@[simp] theorem toPhase_lane_pcLatch (key p : Nat) (l : LaneId) : ((toPhase key p m).ln.get l).pcLatch = (m.ln.get l).pcLatch := noClock_pcLatch (toPhase_lane m key p l)
@[simp] theorem toPhase_lane_latchTime (key p : Nat) (l : LaneId) : ((toPhase key p m).ln.get l).latchTime = (m.ln.get l).latchTime := noClock_latchTime (toPhase_lane m key p l)
@[simp] theorem toPhase_lane_btn (key p : Nat) (l : LaneId) : ((toPhase key p m).ln.get l).btn = (m.ln.get l).btn := noClock_btn (toPhase_lane m key p l)
@[simp] theorem toPhase_lane_missAll (key p : Nat) (l : LaneId) : ((toPhase key p m).ln.get l).missAll = (m.ln.get l).missAll := noClock_missAll (toPhase_lane m key p l)
@[simp] theorem toPhase_lane_divIn (key p : Nat) (l : LaneId) : ((toPhase key p m).ln.get l).divIn = (m.ln.get l).divIn := noClock_divIn (toPhase_lane m key p l)
@[simp] theorem toPhase_lane_foreignAt (key p : Nat) (l : LaneId) : ((toPhase key p m).ln.get l).foreignAt = (m.ln.get l).foreignAt := noClock_foreignAt (toPhase_lane m key p l)
@[simp] theorem toPhase_lane_subIdx (key p : Nat) (l : LaneId) : ((toPhase key p m).ln.get l).subIdx = (m.ln.get l).subIdx := noClock_subIdx (toPhase_lane m key p l)
@[simp] theorem toPhase_lane_alarmLevel (key p : Nat) (l : LaneId) : ((toPhase key p m).ln.get l).alarmLevel = (m.ln.get l).alarmLevel := noClock_alarmLevel (toPhase_lane m key p l)
@[simp] theorem toPhase_lane_cvu (key p : Nat) (l : LaneId) : ((toPhase key p m).ln.get l).cvu = (m.ln.get l).cvu := noClock_cvu (toPhase_lane m key p l)
@[simp] theorem toPhase_lane_alive (key p : Nat) (l : LaneId) : ((toPhase key p m).ln.get l).alive = (m.ln.get l).alive := noClock_alive (toPhase_lane m key p l)
@[simp] theorem toPhase_aliveLanes (key p : Nat) : aliveLanes (toPhase key p m) = aliveLanes m := by
  unfold aliveLanes; congr 1; funext l; exact toPhase_lane_alive m key p l

@[simp] theorem toPhaseFrom_lane_nv (due key p : Nat) (l : LaneId) : ((toPhaseFrom due key p m).ln.get l).nv = (m.ln.get l).nv := noClock_nv (toPhaseFrom_lane m due key p l)
@[simp] theorem toPhaseFrom_lane_supplied (due key p : Nat) (l : LaneId) : ((toPhaseFrom due key p m).ln.get l).supplied = (m.ln.get l).supplied := noClock_supplied (toPhaseFrom_lane m due key p l)
@[simp] theorem toPhaseFrom_lane_usable (due key p : Nat) (l : LaneId) : ((toPhaseFrom due key p m).ln.get l).usable = (m.ln.get l).usable := noClock_usable (toPhaseFrom_lane m due key p l)
@[simp] theorem toPhaseFrom_lane_heldOut (due key p : Nat) (l : LaneId) : ((toPhaseFrom due key p m).ln.get l).heldOut = (m.ln.get l).heldOut := noClock_heldOut (toPhaseFrom_lane m due key p l)
@[simp] theorem toPhaseFrom_lane_excluded (due key p : Nat) (l : LaneId) : ((toPhaseFrom due key p m).ln.get l).excluded = (m.ln.get l).excluded := noClock_excluded (toPhaseFrom_lane m due key p l)
@[simp] theorem toPhaseFrom_lane_stopped (due key p : Nat) (l : LaneId) : ((toPhaseFrom due key p m).ln.get l).stopped = (m.ln.get l).stopped := noClock_stopped (toPhaseFrom_lane m due key p l)
@[simp] theorem toPhaseFrom_lane_halted (due key p : Nat) (l : LaneId) : ((toPhaseFrom due key p m).ln.get l).halted = (m.ln.get l).halted := noClock_halted (toPhaseFrom_lane m due key p l)
@[simp] theorem toPhaseFrom_lane_opened (due key p : Nat) (l : LaneId) : ((toPhaseFrom due key p m).ln.get l).opened = (m.ln.get l).opened := noClock_opened (toPhaseFrom_lane m due key p l)
@[simp] theorem toPhaseFrom_lane_openPairs (due key p : Nat) (l : LaneId) : ((toPhaseFrom due key p m).ln.get l).openPairs = (m.ln.get l).openPairs := noClock_openPairs (toPhaseFrom_lane m due key p l)
@[simp] theorem toPhaseFrom_lane_keyLocked (due key p : Nat) (l : LaneId) : ((toPhaseFrom due key p m).ln.get l).keyLocked = (m.ln.get l).keyLocked := noClock_keyLocked (toPhaseFrom_lane m due key p l)
@[simp] theorem toPhaseFrom_lane_testLatch (due key p : Nat) (l : LaneId) : ((toPhaseFrom due key p m).ln.get l).testLatch = (m.ln.get l).testLatch := noClock_testLatch (toPhaseFrom_lane m due key p l)
@[simp] theorem toPhaseFrom_lane_proofAt (due key p : Nat) (l : LaneId) : ((toPhaseFrom due key p m).ln.get l).proofAt = (m.ln.get l).proofAt := noClock_proofAt (toPhaseFrom_lane m due key p l)
@[simp] theorem toPhaseFrom_lane_itemAt (due key p : Nat) (l : LaneId) : ((toPhaseFrom due key p m).ln.get l).itemAt = (m.ln.get l).itemAt := noClock_itemAt (toPhaseFrom_lane m due key p l)
@[simp] theorem toPhaseFrom_lane_itemNext (due key p : Nat) (l : LaneId) : ((toPhaseFrom due key p m).ln.get l).itemNext = (m.ln.get l).itemNext := noClock_itemNext (toPhaseFrom_lane m due key p l)
@[simp] theorem toPhaseFrom_lane_abandoned (due key p : Nat) (l : LaneId) : ((toPhaseFrom due key p m).ln.get l).abandoned = (m.ln.get l).abandoned := noClock_abandoned (toPhaseFrom_lane m due key p l)
@[simp] theorem toPhaseFrom_lane_freq (due key p : Nat) (l : LaneId) : ((toPhaseFrom due key p m).ln.get l).freq = (m.ln.get l).freq := noClock_freq (toPhaseFrom_lane m due key p l)
@[simp] theorem toPhaseFrom_lane_offset (due key p : Nat) (l : LaneId) : ((toPhaseFrom due key p m).ln.get l).offset = (m.ln.get l).offset := noClock_offset (toPhaseFrom_lane m due key p l)
@[simp] theorem toPhaseFrom_lane_driftLim (due key p : Nat) (l : LaneId) : ((toPhaseFrom due key p m).ln.get l).driftLim = (m.ln.get l).driftLim := noClock_driftLim (toPhaseFrom_lane m due key p l)
@[simp] theorem toPhaseFrom_lane_driftEol (due key p : Nat) (l : LaneId) : ((toPhaseFrom due key p m).ln.get l).driftEol = (m.ln.get l).driftEol := noClock_driftEol (toPhaseFrom_lane m due key p l)
@[simp] theorem toPhaseFrom_lane_feMiss (due key p : Nat) (l : LaneId) : ((toPhaseFrom due key p m).ln.get l).feMiss = (m.ln.get l).feMiss := noClock_feMiss (toPhaseFrom_lane m due key p l)
@[simp] theorem toPhaseFrom_lane_feLost (due key p : Nat) (l : LaneId) : ((toPhaseFrom due key p m).ln.get l).feLost = (m.ln.get l).feLost := noClock_feLost (toPhaseFrom_lane m due key p l)
@[simp] theorem toPhaseFrom_lane_vset (due key p : Nat) (l : LaneId) : ((toPhaseFrom due key p m).ln.get l).vset = (m.ln.get l).vset := noClock_vset (toPhaseFrom_lane m due key p l)
@[simp] theorem toPhaseFrom_lane_tdiff (due key p : Nat) (l : LaneId) : ((toPhaseFrom due key p m).ln.get l).tdiff = (m.ln.get l).tdiff := noClock_tdiff (toPhaseFrom_lane m due key p l)
@[simp] theorem toPhaseFrom_lane_localRx (due key p : Nat) (l : LaneId) : ((toPhaseFrom due key p m).ln.get l).localRx = (m.ln.get l).localRx := noClock_localRx (toPhaseFrom_lane m due key p l)
@[simp] theorem toPhaseFrom_lane_remoteRx (due key p : Nat) (l : LaneId) : ((toPhaseFrom due key p m).ln.get l).remoteRx = (m.ln.get l).remoteRx := noClock_remoteRx (toPhaseFrom_lane m due key p l)
@[simp] theorem toPhaseFrom_lane_offerRx (due key p : Nat) (l : LaneId) : ((toPhaseFrom due key p m).ln.get l).offerRx = (m.ln.get l).offerRx := noClock_offerRx (toPhaseFrom_lane m due key p l)
@[simp] theorem toPhaseFrom_lane_verdictRx (due key p : Nat) (l : LaneId) : ((toPhaseFrom due key p m).ln.get l).verdictRx = (m.ln.get l).verdictRx := noClock_verdictRx (toPhaseFrom_lane m due key p l)
@[simp] theorem toPhaseFrom_lane_confirmRx (due key p : Nat) (l : LaneId) : ((toPhaseFrom due key p m).ln.get l).confirmRx = (m.ln.get l).confirmRx := noClock_confirmRx (toPhaseFrom_lane m due key p l)
@[simp] theorem toPhaseFrom_lane_faultRx (due key p : Nat) (l : LaneId) : ((toPhaseFrom due key p m).ln.get l).faultRx = (m.ln.get l).faultRx := noClock_faultRx (toPhaseFrom_lane m due key p l)
@[simp] theorem toPhaseFrom_lane_sent (due key p : Nat) (l : LaneId) : ((toPhaseFrom due key p m).ln.get l).sent = (m.ln.get l).sent := noClock_sent (toPhaseFrom_lane m due key p l)
@[simp] theorem toPhaseFrom_lane_ownChoice (due key p : Nat) (l : LaneId) : ((toPhaseFrom due key p m).ln.get l).ownChoice = (m.ln.get l).ownChoice := noClock_ownChoice (toPhaseFrom_lane m due key p l)
@[simp] theorem toPhaseFrom_lane_sample (due key p : Nat) (l : LaneId) : ((toPhaseFrom due key p m).ln.get l).sample = (m.ln.get l).sample := noClock_sample (toPhaseFrom_lane m due key p l)
@[simp] theorem toPhaseFrom_lane_volts (due key p : Nat) (l : LaneId) : ((toPhaseFrom due key p m).ln.get l).volts = (m.ln.get l).volts := noClock_volts (toPhaseFrom_lane m due key p l)
@[simp] theorem toPhaseFrom_lane_image (due key p : Nat) (l : LaneId) : ((toPhaseFrom due key p m).ln.get l).image = (m.ln.get l).image := noClock_image (toPhaseFrom_lane m due key p l)
@[simp] theorem toPhaseFrom_lane_gvolt (due key p : Nat) (l : LaneId) : ((toPhaseFrom due key p m).ln.get l).gvolt = (m.ln.get l).gvolt := noClock_gvolt (toPhaseFrom_lane m due key p l)
@[simp] theorem toPhaseFrom_lane_gLow (due key p : Nat) (l : LaneId) : ((toPhaseFrom due key p m).ln.get l).gLow = (m.ln.get l).gLow := noClock_gLow (toPhaseFrom_lane m due key p l)
@[simp] theorem toPhaseFrom_lane_ownOffer (due key p : Nat) (l : LaneId) : ((toPhaseFrom due key p m).ln.get l).ownOffer = (m.ln.get l).ownOffer := noClock_ownOffer (toPhaseFrom_lane m due key p l)
@[simp] theorem toPhaseFrom_lane_ownSet (due key p : Nat) (l : LaneId) : ((toPhaseFrom due key p m).ln.get l).ownSet = (m.ln.get l).ownSet := noClock_ownSet (toPhaseFrom_lane m due key p l)
@[simp] theorem toPhaseFrom_lane_ownHalt (due key p : Nat) (l : LaneId) : ((toPhaseFrom due key p m).ln.get l).ownHalt = (m.ln.get l).ownHalt := noClock_ownHalt (toPhaseFrom_lane m due key p l)
@[simp] theorem toPhaseFrom_lane_voted (due key p : Nat) (l : LaneId) : ((toPhaseFrom due key p m).ln.get l).voted = (m.ln.get l).voted := noClock_voted (toPhaseFrom_lane m due key p l)
@[simp] theorem toPhaseFrom_lane_late (due key p : Nat) (l : LaneId) : ((toPhaseFrom due key p m).ln.get l).late = (m.ln.get l).late := noClock_late (toPhaseFrom_lane m due key p l)
@[simp] theorem toPhaseFrom_lane_exclCause (due key p : Nat) (l : LaneId) : ((toPhaseFrom due key p m).ln.get l).exclCause = (m.ln.get l).exclCause := noClock_exclCause (toPhaseFrom_lane m due key p l)
@[simp] theorem toPhaseFrom_lane_step (due key p : Nat) (l : LaneId) : ((toPhaseFrom due key p m).ln.get l).step = (m.ln.get l).step := noClock_step (toPhaseFrom_lane m due key p l)
@[simp] theorem toPhaseFrom_lane_margin (due key p : Nat) (l : LaneId) : ((toPhaseFrom due key p m).ln.get l).margin = (m.ln.get l).margin := noClock_margin (toPhaseFrom_lane m due key p l)
@[simp] theorem toPhaseFrom_lane_lowReads (due key p : Nat) (l : LaneId) : ((toPhaseFrom due key p m).ln.get l).lowReads = (m.ln.get l).lowReads := noClock_lowReads (toPhaseFrom_lane m due key p l)
@[simp] theorem toPhaseFrom_lane_eol (due key p : Nat) (l : LaneId) : ((toPhaseFrom due key p m).ln.get l).eol = (m.ln.get l).eol := noClock_eol (toPhaseFrom_lane m due key p l)
@[simp] theorem toPhaseFrom_lane_lowerDue (due key p : Nat) (l : LaneId) : ((toPhaseFrom due key p m).ln.get l).lowerDue = (m.ln.get l).lowerDue := noClock_lowerDue (toPhaseFrom_lane m due key p l)
@[simp] theorem toPhaseFrom_lane_mesh (due key p : Nat) (l : LaneId) : ((toPhaseFrom due key p m).ln.get l).mesh = (m.ln.get l).mesh := noClock_mesh (toPhaseFrom_lane m due key p l)
@[simp] theorem toPhaseFrom_lane_envOk (due key p : Nat) (l : LaneId) : ((toPhaseFrom due key p m).ln.get l).envOk = (m.ln.get l).envOk := noClock_envOk (toPhaseFrom_lane m due key p l)
@[simp] theorem toPhaseFrom_lane_pcLatch (due key p : Nat) (l : LaneId) : ((toPhaseFrom due key p m).ln.get l).pcLatch = (m.ln.get l).pcLatch := noClock_pcLatch (toPhaseFrom_lane m due key p l)
@[simp] theorem toPhaseFrom_lane_latchTime (due key p : Nat) (l : LaneId) : ((toPhaseFrom due key p m).ln.get l).latchTime = (m.ln.get l).latchTime := noClock_latchTime (toPhaseFrom_lane m due key p l)
@[simp] theorem toPhaseFrom_lane_btn (due key p : Nat) (l : LaneId) : ((toPhaseFrom due key p m).ln.get l).btn = (m.ln.get l).btn := noClock_btn (toPhaseFrom_lane m due key p l)
@[simp] theorem toPhaseFrom_lane_missAll (due key p : Nat) (l : LaneId) : ((toPhaseFrom due key p m).ln.get l).missAll = (m.ln.get l).missAll := noClock_missAll (toPhaseFrom_lane m due key p l)
@[simp] theorem toPhaseFrom_lane_divIn (due key p : Nat) (l : LaneId) : ((toPhaseFrom due key p m).ln.get l).divIn = (m.ln.get l).divIn := noClock_divIn (toPhaseFrom_lane m due key p l)
@[simp] theorem toPhaseFrom_lane_foreignAt (due key p : Nat) (l : LaneId) : ((toPhaseFrom due key p m).ln.get l).foreignAt = (m.ln.get l).foreignAt := noClock_foreignAt (toPhaseFrom_lane m due key p l)
@[simp] theorem toPhaseFrom_lane_subIdx (due key p : Nat) (l : LaneId) : ((toPhaseFrom due key p m).ln.get l).subIdx = (m.ln.get l).subIdx := noClock_subIdx (toPhaseFrom_lane m due key p l)
@[simp] theorem toPhaseFrom_lane_alarmLevel (due key p : Nat) (l : LaneId) : ((toPhaseFrom due key p m).ln.get l).alarmLevel = (m.ln.get l).alarmLevel := noClock_alarmLevel (toPhaseFrom_lane m due key p l)
@[simp] theorem toPhaseFrom_lane_cvu (due key p : Nat) (l : LaneId) : ((toPhaseFrom due key p m).ln.get l).cvu = (m.ln.get l).cvu := noClock_cvu (toPhaseFrom_lane m due key p l)
@[simp] theorem toPhaseFrom_lane_alive (due key p : Nat) (l : LaneId) : ((toPhaseFrom due key p m).ln.get l).alive = (m.ln.get l).alive := noClock_alive (toPhaseFrom_lane m due key p l)
@[simp] theorem toPhaseFrom_aliveLanes (due key p : Nat) : aliveLanes (toPhaseFrom due key p m) = aliveLanes m := by
  unfold aliveLanes; congr 1; funext l; exact toPhaseFrom_lane_alive m due key p l

@[simp] theorem toNext_lane_nv (key p : Nat) (l : LaneId) : ((toNext key p m).ln.get l).nv = (m.ln.get l).nv := noClock_nv (toNext_lane m key p l)
@[simp] theorem toNext_lane_supplied (key p : Nat) (l : LaneId) : ((toNext key p m).ln.get l).supplied = (m.ln.get l).supplied := noClock_supplied (toNext_lane m key p l)
@[simp] theorem toNext_lane_usable (key p : Nat) (l : LaneId) : ((toNext key p m).ln.get l).usable = (m.ln.get l).usable := noClock_usable (toNext_lane m key p l)
@[simp] theorem toNext_lane_heldOut (key p : Nat) (l : LaneId) : ((toNext key p m).ln.get l).heldOut = (m.ln.get l).heldOut := noClock_heldOut (toNext_lane m key p l)
@[simp] theorem toNext_lane_excluded (key p : Nat) (l : LaneId) : ((toNext key p m).ln.get l).excluded = (m.ln.get l).excluded := noClock_excluded (toNext_lane m key p l)
@[simp] theorem toNext_lane_stopped (key p : Nat) (l : LaneId) : ((toNext key p m).ln.get l).stopped = (m.ln.get l).stopped := noClock_stopped (toNext_lane m key p l)
@[simp] theorem toNext_lane_halted (key p : Nat) (l : LaneId) : ((toNext key p m).ln.get l).halted = (m.ln.get l).halted := noClock_halted (toNext_lane m key p l)
@[simp] theorem toNext_lane_opened (key p : Nat) (l : LaneId) : ((toNext key p m).ln.get l).opened = (m.ln.get l).opened := noClock_opened (toNext_lane m key p l)
@[simp] theorem toNext_lane_openPairs (key p : Nat) (l : LaneId) : ((toNext key p m).ln.get l).openPairs = (m.ln.get l).openPairs := noClock_openPairs (toNext_lane m key p l)
@[simp] theorem toNext_lane_keyLocked (key p : Nat) (l : LaneId) : ((toNext key p m).ln.get l).keyLocked = (m.ln.get l).keyLocked := noClock_keyLocked (toNext_lane m key p l)
@[simp] theorem toNext_lane_testLatch (key p : Nat) (l : LaneId) : ((toNext key p m).ln.get l).testLatch = (m.ln.get l).testLatch := noClock_testLatch (toNext_lane m key p l)
@[simp] theorem toNext_lane_proofAt (key p : Nat) (l : LaneId) : ((toNext key p m).ln.get l).proofAt = (m.ln.get l).proofAt := noClock_proofAt (toNext_lane m key p l)
@[simp] theorem toNext_lane_itemAt (key p : Nat) (l : LaneId) : ((toNext key p m).ln.get l).itemAt = (m.ln.get l).itemAt := noClock_itemAt (toNext_lane m key p l)
@[simp] theorem toNext_lane_itemNext (key p : Nat) (l : LaneId) : ((toNext key p m).ln.get l).itemNext = (m.ln.get l).itemNext := noClock_itemNext (toNext_lane m key p l)
@[simp] theorem toNext_lane_abandoned (key p : Nat) (l : LaneId) : ((toNext key p m).ln.get l).abandoned = (m.ln.get l).abandoned := noClock_abandoned (toNext_lane m key p l)
@[simp] theorem toNext_lane_freq (key p : Nat) (l : LaneId) : ((toNext key p m).ln.get l).freq = (m.ln.get l).freq := noClock_freq (toNext_lane m key p l)
@[simp] theorem toNext_lane_offset (key p : Nat) (l : LaneId) : ((toNext key p m).ln.get l).offset = (m.ln.get l).offset := noClock_offset (toNext_lane m key p l)
@[simp] theorem toNext_lane_driftLim (key p : Nat) (l : LaneId) : ((toNext key p m).ln.get l).driftLim = (m.ln.get l).driftLim := noClock_driftLim (toNext_lane m key p l)
@[simp] theorem toNext_lane_driftEol (key p : Nat) (l : LaneId) : ((toNext key p m).ln.get l).driftEol = (m.ln.get l).driftEol := noClock_driftEol (toNext_lane m key p l)
@[simp] theorem toNext_lane_feMiss (key p : Nat) (l : LaneId) : ((toNext key p m).ln.get l).feMiss = (m.ln.get l).feMiss := noClock_feMiss (toNext_lane m key p l)
@[simp] theorem toNext_lane_feLost (key p : Nat) (l : LaneId) : ((toNext key p m).ln.get l).feLost = (m.ln.get l).feLost := noClock_feLost (toNext_lane m key p l)
@[simp] theorem toNext_lane_vset (key p : Nat) (l : LaneId) : ((toNext key p m).ln.get l).vset = (m.ln.get l).vset := noClock_vset (toNext_lane m key p l)
@[simp] theorem toNext_lane_tdiff (key p : Nat) (l : LaneId) : ((toNext key p m).ln.get l).tdiff = (m.ln.get l).tdiff := noClock_tdiff (toNext_lane m key p l)
@[simp] theorem toNext_lane_localRx (key p : Nat) (l : LaneId) : ((toNext key p m).ln.get l).localRx = (m.ln.get l).localRx := noClock_localRx (toNext_lane m key p l)
@[simp] theorem toNext_lane_remoteRx (key p : Nat) (l : LaneId) : ((toNext key p m).ln.get l).remoteRx = (m.ln.get l).remoteRx := noClock_remoteRx (toNext_lane m key p l)
@[simp] theorem toNext_lane_offerRx (key p : Nat) (l : LaneId) : ((toNext key p m).ln.get l).offerRx = (m.ln.get l).offerRx := noClock_offerRx (toNext_lane m key p l)
@[simp] theorem toNext_lane_verdictRx (key p : Nat) (l : LaneId) : ((toNext key p m).ln.get l).verdictRx = (m.ln.get l).verdictRx := noClock_verdictRx (toNext_lane m key p l)
@[simp] theorem toNext_lane_confirmRx (key p : Nat) (l : LaneId) : ((toNext key p m).ln.get l).confirmRx = (m.ln.get l).confirmRx := noClock_confirmRx (toNext_lane m key p l)
@[simp] theorem toNext_lane_faultRx (key p : Nat) (l : LaneId) : ((toNext key p m).ln.get l).faultRx = (m.ln.get l).faultRx := noClock_faultRx (toNext_lane m key p l)
@[simp] theorem toNext_lane_sent (key p : Nat) (l : LaneId) : ((toNext key p m).ln.get l).sent = (m.ln.get l).sent := noClock_sent (toNext_lane m key p l)
@[simp] theorem toNext_lane_ownChoice (key p : Nat) (l : LaneId) : ((toNext key p m).ln.get l).ownChoice = (m.ln.get l).ownChoice := noClock_ownChoice (toNext_lane m key p l)
@[simp] theorem toNext_lane_sample (key p : Nat) (l : LaneId) : ((toNext key p m).ln.get l).sample = (m.ln.get l).sample := noClock_sample (toNext_lane m key p l)
@[simp] theorem toNext_lane_volts (key p : Nat) (l : LaneId) : ((toNext key p m).ln.get l).volts = (m.ln.get l).volts := noClock_volts (toNext_lane m key p l)
@[simp] theorem toNext_lane_image (key p : Nat) (l : LaneId) : ((toNext key p m).ln.get l).image = (m.ln.get l).image := noClock_image (toNext_lane m key p l)
@[simp] theorem toNext_lane_gvolt (key p : Nat) (l : LaneId) : ((toNext key p m).ln.get l).gvolt = (m.ln.get l).gvolt := noClock_gvolt (toNext_lane m key p l)
@[simp] theorem toNext_lane_gLow (key p : Nat) (l : LaneId) : ((toNext key p m).ln.get l).gLow = (m.ln.get l).gLow := noClock_gLow (toNext_lane m key p l)
@[simp] theorem toNext_lane_ownOffer (key p : Nat) (l : LaneId) : ((toNext key p m).ln.get l).ownOffer = (m.ln.get l).ownOffer := noClock_ownOffer (toNext_lane m key p l)
@[simp] theorem toNext_lane_ownSet (key p : Nat) (l : LaneId) : ((toNext key p m).ln.get l).ownSet = (m.ln.get l).ownSet := noClock_ownSet (toNext_lane m key p l)
@[simp] theorem toNext_lane_ownHalt (key p : Nat) (l : LaneId) : ((toNext key p m).ln.get l).ownHalt = (m.ln.get l).ownHalt := noClock_ownHalt (toNext_lane m key p l)
@[simp] theorem toNext_lane_voted (key p : Nat) (l : LaneId) : ((toNext key p m).ln.get l).voted = (m.ln.get l).voted := noClock_voted (toNext_lane m key p l)
@[simp] theorem toNext_lane_late (key p : Nat) (l : LaneId) : ((toNext key p m).ln.get l).late = (m.ln.get l).late := noClock_late (toNext_lane m key p l)
@[simp] theorem toNext_lane_exclCause (key p : Nat) (l : LaneId) : ((toNext key p m).ln.get l).exclCause = (m.ln.get l).exclCause := noClock_exclCause (toNext_lane m key p l)
@[simp] theorem toNext_lane_step (key p : Nat) (l : LaneId) : ((toNext key p m).ln.get l).step = (m.ln.get l).step := noClock_step (toNext_lane m key p l)
@[simp] theorem toNext_lane_margin (key p : Nat) (l : LaneId) : ((toNext key p m).ln.get l).margin = (m.ln.get l).margin := noClock_margin (toNext_lane m key p l)
@[simp] theorem toNext_lane_lowReads (key p : Nat) (l : LaneId) : ((toNext key p m).ln.get l).lowReads = (m.ln.get l).lowReads := noClock_lowReads (toNext_lane m key p l)
@[simp] theorem toNext_lane_eol (key p : Nat) (l : LaneId) : ((toNext key p m).ln.get l).eol = (m.ln.get l).eol := noClock_eol (toNext_lane m key p l)
@[simp] theorem toNext_lane_lowerDue (key p : Nat) (l : LaneId) : ((toNext key p m).ln.get l).lowerDue = (m.ln.get l).lowerDue := noClock_lowerDue (toNext_lane m key p l)
@[simp] theorem toNext_lane_mesh (key p : Nat) (l : LaneId) : ((toNext key p m).ln.get l).mesh = (m.ln.get l).mesh := noClock_mesh (toNext_lane m key p l)
@[simp] theorem toNext_lane_envOk (key p : Nat) (l : LaneId) : ((toNext key p m).ln.get l).envOk = (m.ln.get l).envOk := noClock_envOk (toNext_lane m key p l)
@[simp] theorem toNext_lane_pcLatch (key p : Nat) (l : LaneId) : ((toNext key p m).ln.get l).pcLatch = (m.ln.get l).pcLatch := noClock_pcLatch (toNext_lane m key p l)
@[simp] theorem toNext_lane_latchTime (key p : Nat) (l : LaneId) : ((toNext key p m).ln.get l).latchTime = (m.ln.get l).latchTime := noClock_latchTime (toNext_lane m key p l)
@[simp] theorem toNext_lane_btn (key p : Nat) (l : LaneId) : ((toNext key p m).ln.get l).btn = (m.ln.get l).btn := noClock_btn (toNext_lane m key p l)
@[simp] theorem toNext_lane_missAll (key p : Nat) (l : LaneId) : ((toNext key p m).ln.get l).missAll = (m.ln.get l).missAll := noClock_missAll (toNext_lane m key p l)
@[simp] theorem toNext_lane_divIn (key p : Nat) (l : LaneId) : ((toNext key p m).ln.get l).divIn = (m.ln.get l).divIn := noClock_divIn (toNext_lane m key p l)
@[simp] theorem toNext_lane_foreignAt (key p : Nat) (l : LaneId) : ((toNext key p m).ln.get l).foreignAt = (m.ln.get l).foreignAt := noClock_foreignAt (toNext_lane m key p l)
@[simp] theorem toNext_lane_subIdx (key p : Nat) (l : LaneId) : ((toNext key p m).ln.get l).subIdx = (m.ln.get l).subIdx := noClock_subIdx (toNext_lane m key p l)
@[simp] theorem toNext_lane_alarmLevel (key p : Nat) (l : LaneId) : ((toNext key p m).ln.get l).alarmLevel = (m.ln.get l).alarmLevel := noClock_alarmLevel (toNext_lane m key p l)
@[simp] theorem toNext_lane_cvu (key p : Nat) (l : LaneId) : ((toNext key p m).ln.get l).cvu = (m.ln.get l).cvu := noClock_cvu (toNext_lane m key p l)
@[simp] theorem toNext_lane_alive (key p : Nat) (l : LaneId) : ((toNext key p m).ln.get l).alive = (m.ln.get l).alive := noClock_alive (toNext_lane m key p l)
@[simp] theorem toNext_aliveLanes (key p : Nat) : aliveLanes (toNext key p m) = aliveLanes m := by
  unfold aliveLanes; congr 1; funext l; exact toNext_lane_alive m key p l

@[simp] theorem toBasicFrom_lane_nv (due key off : Nat) (l : LaneId) : ((toBasicFrom due key off m).ln.get l).nv = (m.ln.get l).nv := noClock_nv (toBasicFrom_lane m due key off l)
@[simp] theorem toBasicFrom_lane_supplied (due key off : Nat) (l : LaneId) : ((toBasicFrom due key off m).ln.get l).supplied = (m.ln.get l).supplied := noClock_supplied (toBasicFrom_lane m due key off l)
@[simp] theorem toBasicFrom_lane_usable (due key off : Nat) (l : LaneId) : ((toBasicFrom due key off m).ln.get l).usable = (m.ln.get l).usable := noClock_usable (toBasicFrom_lane m due key off l)
@[simp] theorem toBasicFrom_lane_heldOut (due key off : Nat) (l : LaneId) : ((toBasicFrom due key off m).ln.get l).heldOut = (m.ln.get l).heldOut := noClock_heldOut (toBasicFrom_lane m due key off l)
@[simp] theorem toBasicFrom_lane_excluded (due key off : Nat) (l : LaneId) : ((toBasicFrom due key off m).ln.get l).excluded = (m.ln.get l).excluded := noClock_excluded (toBasicFrom_lane m due key off l)
@[simp] theorem toBasicFrom_lane_stopped (due key off : Nat) (l : LaneId) : ((toBasicFrom due key off m).ln.get l).stopped = (m.ln.get l).stopped := noClock_stopped (toBasicFrom_lane m due key off l)
@[simp] theorem toBasicFrom_lane_halted (due key off : Nat) (l : LaneId) : ((toBasicFrom due key off m).ln.get l).halted = (m.ln.get l).halted := noClock_halted (toBasicFrom_lane m due key off l)
@[simp] theorem toBasicFrom_lane_opened (due key off : Nat) (l : LaneId) : ((toBasicFrom due key off m).ln.get l).opened = (m.ln.get l).opened := noClock_opened (toBasicFrom_lane m due key off l)
@[simp] theorem toBasicFrom_lane_openPairs (due key off : Nat) (l : LaneId) : ((toBasicFrom due key off m).ln.get l).openPairs = (m.ln.get l).openPairs := noClock_openPairs (toBasicFrom_lane m due key off l)
@[simp] theorem toBasicFrom_lane_keyLocked (due key off : Nat) (l : LaneId) : ((toBasicFrom due key off m).ln.get l).keyLocked = (m.ln.get l).keyLocked := noClock_keyLocked (toBasicFrom_lane m due key off l)
@[simp] theorem toBasicFrom_lane_testLatch (due key off : Nat) (l : LaneId) : ((toBasicFrom due key off m).ln.get l).testLatch = (m.ln.get l).testLatch := noClock_testLatch (toBasicFrom_lane m due key off l)
@[simp] theorem toBasicFrom_lane_proofAt (due key off : Nat) (l : LaneId) : ((toBasicFrom due key off m).ln.get l).proofAt = (m.ln.get l).proofAt := noClock_proofAt (toBasicFrom_lane m due key off l)
@[simp] theorem toBasicFrom_lane_itemAt (due key off : Nat) (l : LaneId) : ((toBasicFrom due key off m).ln.get l).itemAt = (m.ln.get l).itemAt := noClock_itemAt (toBasicFrom_lane m due key off l)
@[simp] theorem toBasicFrom_lane_itemNext (due key off : Nat) (l : LaneId) : ((toBasicFrom due key off m).ln.get l).itemNext = (m.ln.get l).itemNext := noClock_itemNext (toBasicFrom_lane m due key off l)
@[simp] theorem toBasicFrom_lane_abandoned (due key off : Nat) (l : LaneId) : ((toBasicFrom due key off m).ln.get l).abandoned = (m.ln.get l).abandoned := noClock_abandoned (toBasicFrom_lane m due key off l)
@[simp] theorem toBasicFrom_lane_freq (due key off : Nat) (l : LaneId) : ((toBasicFrom due key off m).ln.get l).freq = (m.ln.get l).freq := noClock_freq (toBasicFrom_lane m due key off l)
@[simp] theorem toBasicFrom_lane_offset (due key off : Nat) (l : LaneId) : ((toBasicFrom due key off m).ln.get l).offset = (m.ln.get l).offset := noClock_offset (toBasicFrom_lane m due key off l)
@[simp] theorem toBasicFrom_lane_driftLim (due key off : Nat) (l : LaneId) : ((toBasicFrom due key off m).ln.get l).driftLim = (m.ln.get l).driftLim := noClock_driftLim (toBasicFrom_lane m due key off l)
@[simp] theorem toBasicFrom_lane_driftEol (due key off : Nat) (l : LaneId) : ((toBasicFrom due key off m).ln.get l).driftEol = (m.ln.get l).driftEol := noClock_driftEol (toBasicFrom_lane m due key off l)
@[simp] theorem toBasicFrom_lane_feMiss (due key off : Nat) (l : LaneId) : ((toBasicFrom due key off m).ln.get l).feMiss = (m.ln.get l).feMiss := noClock_feMiss (toBasicFrom_lane m due key off l)
@[simp] theorem toBasicFrom_lane_feLost (due key off : Nat) (l : LaneId) : ((toBasicFrom due key off m).ln.get l).feLost = (m.ln.get l).feLost := noClock_feLost (toBasicFrom_lane m due key off l)
@[simp] theorem toBasicFrom_lane_vset (due key off : Nat) (l : LaneId) : ((toBasicFrom due key off m).ln.get l).vset = (m.ln.get l).vset := noClock_vset (toBasicFrom_lane m due key off l)
@[simp] theorem toBasicFrom_lane_tdiff (due key off : Nat) (l : LaneId) : ((toBasicFrom due key off m).ln.get l).tdiff = (m.ln.get l).tdiff := noClock_tdiff (toBasicFrom_lane m due key off l)
@[simp] theorem toBasicFrom_lane_localRx (due key off : Nat) (l : LaneId) : ((toBasicFrom due key off m).ln.get l).localRx = (m.ln.get l).localRx := noClock_localRx (toBasicFrom_lane m due key off l)
@[simp] theorem toBasicFrom_lane_remoteRx (due key off : Nat) (l : LaneId) : ((toBasicFrom due key off m).ln.get l).remoteRx = (m.ln.get l).remoteRx := noClock_remoteRx (toBasicFrom_lane m due key off l)
@[simp] theorem toBasicFrom_lane_offerRx (due key off : Nat) (l : LaneId) : ((toBasicFrom due key off m).ln.get l).offerRx = (m.ln.get l).offerRx := noClock_offerRx (toBasicFrom_lane m due key off l)
@[simp] theorem toBasicFrom_lane_verdictRx (due key off : Nat) (l : LaneId) : ((toBasicFrom due key off m).ln.get l).verdictRx = (m.ln.get l).verdictRx := noClock_verdictRx (toBasicFrom_lane m due key off l)
@[simp] theorem toBasicFrom_lane_confirmRx (due key off : Nat) (l : LaneId) : ((toBasicFrom due key off m).ln.get l).confirmRx = (m.ln.get l).confirmRx := noClock_confirmRx (toBasicFrom_lane m due key off l)
@[simp] theorem toBasicFrom_lane_faultRx (due key off : Nat) (l : LaneId) : ((toBasicFrom due key off m).ln.get l).faultRx = (m.ln.get l).faultRx := noClock_faultRx (toBasicFrom_lane m due key off l)
@[simp] theorem toBasicFrom_lane_sent (due key off : Nat) (l : LaneId) : ((toBasicFrom due key off m).ln.get l).sent = (m.ln.get l).sent := noClock_sent (toBasicFrom_lane m due key off l)
@[simp] theorem toBasicFrom_lane_ownChoice (due key off : Nat) (l : LaneId) : ((toBasicFrom due key off m).ln.get l).ownChoice = (m.ln.get l).ownChoice := noClock_ownChoice (toBasicFrom_lane m due key off l)
@[simp] theorem toBasicFrom_lane_sample (due key off : Nat) (l : LaneId) : ((toBasicFrom due key off m).ln.get l).sample = (m.ln.get l).sample := noClock_sample (toBasicFrom_lane m due key off l)
@[simp] theorem toBasicFrom_lane_volts (due key off : Nat) (l : LaneId) : ((toBasicFrom due key off m).ln.get l).volts = (m.ln.get l).volts := noClock_volts (toBasicFrom_lane m due key off l)
@[simp] theorem toBasicFrom_lane_image (due key off : Nat) (l : LaneId) : ((toBasicFrom due key off m).ln.get l).image = (m.ln.get l).image := noClock_image (toBasicFrom_lane m due key off l)
@[simp] theorem toBasicFrom_lane_gvolt (due key off : Nat) (l : LaneId) : ((toBasicFrom due key off m).ln.get l).gvolt = (m.ln.get l).gvolt := noClock_gvolt (toBasicFrom_lane m due key off l)
@[simp] theorem toBasicFrom_lane_gLow (due key off : Nat) (l : LaneId) : ((toBasicFrom due key off m).ln.get l).gLow = (m.ln.get l).gLow := noClock_gLow (toBasicFrom_lane m due key off l)
@[simp] theorem toBasicFrom_lane_ownOffer (due key off : Nat) (l : LaneId) : ((toBasicFrom due key off m).ln.get l).ownOffer = (m.ln.get l).ownOffer := noClock_ownOffer (toBasicFrom_lane m due key off l)
@[simp] theorem toBasicFrom_lane_ownSet (due key off : Nat) (l : LaneId) : ((toBasicFrom due key off m).ln.get l).ownSet = (m.ln.get l).ownSet := noClock_ownSet (toBasicFrom_lane m due key off l)
@[simp] theorem toBasicFrom_lane_ownHalt (due key off : Nat) (l : LaneId) : ((toBasicFrom due key off m).ln.get l).ownHalt = (m.ln.get l).ownHalt := noClock_ownHalt (toBasicFrom_lane m due key off l)
@[simp] theorem toBasicFrom_lane_voted (due key off : Nat) (l : LaneId) : ((toBasicFrom due key off m).ln.get l).voted = (m.ln.get l).voted := noClock_voted (toBasicFrom_lane m due key off l)
@[simp] theorem toBasicFrom_lane_late (due key off : Nat) (l : LaneId) : ((toBasicFrom due key off m).ln.get l).late = (m.ln.get l).late := noClock_late (toBasicFrom_lane m due key off l)
@[simp] theorem toBasicFrom_lane_exclCause (due key off : Nat) (l : LaneId) : ((toBasicFrom due key off m).ln.get l).exclCause = (m.ln.get l).exclCause := noClock_exclCause (toBasicFrom_lane m due key off l)
@[simp] theorem toBasicFrom_lane_step (due key off : Nat) (l : LaneId) : ((toBasicFrom due key off m).ln.get l).step = (m.ln.get l).step := noClock_step (toBasicFrom_lane m due key off l)
@[simp] theorem toBasicFrom_lane_margin (due key off : Nat) (l : LaneId) : ((toBasicFrom due key off m).ln.get l).margin = (m.ln.get l).margin := noClock_margin (toBasicFrom_lane m due key off l)
@[simp] theorem toBasicFrom_lane_lowReads (due key off : Nat) (l : LaneId) : ((toBasicFrom due key off m).ln.get l).lowReads = (m.ln.get l).lowReads := noClock_lowReads (toBasicFrom_lane m due key off l)
@[simp] theorem toBasicFrom_lane_eol (due key off : Nat) (l : LaneId) : ((toBasicFrom due key off m).ln.get l).eol = (m.ln.get l).eol := noClock_eol (toBasicFrom_lane m due key off l)
@[simp] theorem toBasicFrom_lane_lowerDue (due key off : Nat) (l : LaneId) : ((toBasicFrom due key off m).ln.get l).lowerDue = (m.ln.get l).lowerDue := noClock_lowerDue (toBasicFrom_lane m due key off l)
@[simp] theorem toBasicFrom_lane_mesh (due key off : Nat) (l : LaneId) : ((toBasicFrom due key off m).ln.get l).mesh = (m.ln.get l).mesh := noClock_mesh (toBasicFrom_lane m due key off l)
@[simp] theorem toBasicFrom_lane_envOk (due key off : Nat) (l : LaneId) : ((toBasicFrom due key off m).ln.get l).envOk = (m.ln.get l).envOk := noClock_envOk (toBasicFrom_lane m due key off l)
@[simp] theorem toBasicFrom_lane_pcLatch (due key off : Nat) (l : LaneId) : ((toBasicFrom due key off m).ln.get l).pcLatch = (m.ln.get l).pcLatch := noClock_pcLatch (toBasicFrom_lane m due key off l)
@[simp] theorem toBasicFrom_lane_latchTime (due key off : Nat) (l : LaneId) : ((toBasicFrom due key off m).ln.get l).latchTime = (m.ln.get l).latchTime := noClock_latchTime (toBasicFrom_lane m due key off l)
@[simp] theorem toBasicFrom_lane_btn (due key off : Nat) (l : LaneId) : ((toBasicFrom due key off m).ln.get l).btn = (m.ln.get l).btn := noClock_btn (toBasicFrom_lane m due key off l)
@[simp] theorem toBasicFrom_lane_missAll (due key off : Nat) (l : LaneId) : ((toBasicFrom due key off m).ln.get l).missAll = (m.ln.get l).missAll := noClock_missAll (toBasicFrom_lane m due key off l)
@[simp] theorem toBasicFrom_lane_divIn (due key off : Nat) (l : LaneId) : ((toBasicFrom due key off m).ln.get l).divIn = (m.ln.get l).divIn := noClock_divIn (toBasicFrom_lane m due key off l)
@[simp] theorem toBasicFrom_lane_foreignAt (due key off : Nat) (l : LaneId) : ((toBasicFrom due key off m).ln.get l).foreignAt = (m.ln.get l).foreignAt := noClock_foreignAt (toBasicFrom_lane m due key off l)
@[simp] theorem toBasicFrom_lane_subIdx (due key off : Nat) (l : LaneId) : ((toBasicFrom due key off m).ln.get l).subIdx = (m.ln.get l).subIdx := noClock_subIdx (toBasicFrom_lane m due key off l)
@[simp] theorem toBasicFrom_lane_alarmLevel (due key off : Nat) (l : LaneId) : ((toBasicFrom due key off m).ln.get l).alarmLevel = (m.ln.get l).alarmLevel := noClock_alarmLevel (toBasicFrom_lane m due key off l)
@[simp] theorem toBasicFrom_lane_cvu (due key off : Nat) (l : LaneId) : ((toBasicFrom due key off m).ln.get l).cvu = (m.ln.get l).cvu := noClock_cvu (toBasicFrom_lane m due key off l)
@[simp] theorem toBasicFrom_lane_alive (due key off : Nat) (l : LaneId) : ((toBasicFrom due key off m).ln.get l).alive = (m.ln.get l).alive := noClock_alive (toBasicFrom_lane m due key off l)
@[simp] theorem toBasicFrom_aliveLanes (due key off : Nat) : aliveLanes (toBasicFrom due key off m) = aliveLanes m := by
  unfold aliveLanes; congr 1; funext l; exact toBasicFrom_lane_alive m due key off l

@[simp] theorem toBasic_lane_nv (key off : Nat) (l : LaneId) : ((toBasic key off m).ln.get l).nv = (m.ln.get l).nv := noClock_nv (toBasic_lane m key off l)
@[simp] theorem toBasic_lane_supplied (key off : Nat) (l : LaneId) : ((toBasic key off m).ln.get l).supplied = (m.ln.get l).supplied := noClock_supplied (toBasic_lane m key off l)
@[simp] theorem toBasic_lane_usable (key off : Nat) (l : LaneId) : ((toBasic key off m).ln.get l).usable = (m.ln.get l).usable := noClock_usable (toBasic_lane m key off l)
@[simp] theorem toBasic_lane_heldOut (key off : Nat) (l : LaneId) : ((toBasic key off m).ln.get l).heldOut = (m.ln.get l).heldOut := noClock_heldOut (toBasic_lane m key off l)
@[simp] theorem toBasic_lane_excluded (key off : Nat) (l : LaneId) : ((toBasic key off m).ln.get l).excluded = (m.ln.get l).excluded := noClock_excluded (toBasic_lane m key off l)
@[simp] theorem toBasic_lane_stopped (key off : Nat) (l : LaneId) : ((toBasic key off m).ln.get l).stopped = (m.ln.get l).stopped := noClock_stopped (toBasic_lane m key off l)
@[simp] theorem toBasic_lane_halted (key off : Nat) (l : LaneId) : ((toBasic key off m).ln.get l).halted = (m.ln.get l).halted := noClock_halted (toBasic_lane m key off l)
@[simp] theorem toBasic_lane_opened (key off : Nat) (l : LaneId) : ((toBasic key off m).ln.get l).opened = (m.ln.get l).opened := noClock_opened (toBasic_lane m key off l)
@[simp] theorem toBasic_lane_openPairs (key off : Nat) (l : LaneId) : ((toBasic key off m).ln.get l).openPairs = (m.ln.get l).openPairs := noClock_openPairs (toBasic_lane m key off l)
@[simp] theorem toBasic_lane_keyLocked (key off : Nat) (l : LaneId) : ((toBasic key off m).ln.get l).keyLocked = (m.ln.get l).keyLocked := noClock_keyLocked (toBasic_lane m key off l)
@[simp] theorem toBasic_lane_testLatch (key off : Nat) (l : LaneId) : ((toBasic key off m).ln.get l).testLatch = (m.ln.get l).testLatch := noClock_testLatch (toBasic_lane m key off l)
@[simp] theorem toBasic_lane_proofAt (key off : Nat) (l : LaneId) : ((toBasic key off m).ln.get l).proofAt = (m.ln.get l).proofAt := noClock_proofAt (toBasic_lane m key off l)
@[simp] theorem toBasic_lane_itemAt (key off : Nat) (l : LaneId) : ((toBasic key off m).ln.get l).itemAt = (m.ln.get l).itemAt := noClock_itemAt (toBasic_lane m key off l)
@[simp] theorem toBasic_lane_itemNext (key off : Nat) (l : LaneId) : ((toBasic key off m).ln.get l).itemNext = (m.ln.get l).itemNext := noClock_itemNext (toBasic_lane m key off l)
@[simp] theorem toBasic_lane_abandoned (key off : Nat) (l : LaneId) : ((toBasic key off m).ln.get l).abandoned = (m.ln.get l).abandoned := noClock_abandoned (toBasic_lane m key off l)
@[simp] theorem toBasic_lane_freq (key off : Nat) (l : LaneId) : ((toBasic key off m).ln.get l).freq = (m.ln.get l).freq := noClock_freq (toBasic_lane m key off l)
@[simp] theorem toBasic_lane_offset (key off : Nat) (l : LaneId) : ((toBasic key off m).ln.get l).offset = (m.ln.get l).offset := noClock_offset (toBasic_lane m key off l)
@[simp] theorem toBasic_lane_driftLim (key off : Nat) (l : LaneId) : ((toBasic key off m).ln.get l).driftLim = (m.ln.get l).driftLim := noClock_driftLim (toBasic_lane m key off l)
@[simp] theorem toBasic_lane_driftEol (key off : Nat) (l : LaneId) : ((toBasic key off m).ln.get l).driftEol = (m.ln.get l).driftEol := noClock_driftEol (toBasic_lane m key off l)
@[simp] theorem toBasic_lane_feMiss (key off : Nat) (l : LaneId) : ((toBasic key off m).ln.get l).feMiss = (m.ln.get l).feMiss := noClock_feMiss (toBasic_lane m key off l)
@[simp] theorem toBasic_lane_feLost (key off : Nat) (l : LaneId) : ((toBasic key off m).ln.get l).feLost = (m.ln.get l).feLost := noClock_feLost (toBasic_lane m key off l)
@[simp] theorem toBasic_lane_vset (key off : Nat) (l : LaneId) : ((toBasic key off m).ln.get l).vset = (m.ln.get l).vset := noClock_vset (toBasic_lane m key off l)
@[simp] theorem toBasic_lane_tdiff (key off : Nat) (l : LaneId) : ((toBasic key off m).ln.get l).tdiff = (m.ln.get l).tdiff := noClock_tdiff (toBasic_lane m key off l)
@[simp] theorem toBasic_lane_localRx (key off : Nat) (l : LaneId) : ((toBasic key off m).ln.get l).localRx = (m.ln.get l).localRx := noClock_localRx (toBasic_lane m key off l)
@[simp] theorem toBasic_lane_remoteRx (key off : Nat) (l : LaneId) : ((toBasic key off m).ln.get l).remoteRx = (m.ln.get l).remoteRx := noClock_remoteRx (toBasic_lane m key off l)
@[simp] theorem toBasic_lane_offerRx (key off : Nat) (l : LaneId) : ((toBasic key off m).ln.get l).offerRx = (m.ln.get l).offerRx := noClock_offerRx (toBasic_lane m key off l)
@[simp] theorem toBasic_lane_verdictRx (key off : Nat) (l : LaneId) : ((toBasic key off m).ln.get l).verdictRx = (m.ln.get l).verdictRx := noClock_verdictRx (toBasic_lane m key off l)
@[simp] theorem toBasic_lane_confirmRx (key off : Nat) (l : LaneId) : ((toBasic key off m).ln.get l).confirmRx = (m.ln.get l).confirmRx := noClock_confirmRx (toBasic_lane m key off l)
@[simp] theorem toBasic_lane_faultRx (key off : Nat) (l : LaneId) : ((toBasic key off m).ln.get l).faultRx = (m.ln.get l).faultRx := noClock_faultRx (toBasic_lane m key off l)
@[simp] theorem toBasic_lane_sent (key off : Nat) (l : LaneId) : ((toBasic key off m).ln.get l).sent = (m.ln.get l).sent := noClock_sent (toBasic_lane m key off l)
@[simp] theorem toBasic_lane_ownChoice (key off : Nat) (l : LaneId) : ((toBasic key off m).ln.get l).ownChoice = (m.ln.get l).ownChoice := noClock_ownChoice (toBasic_lane m key off l)
@[simp] theorem toBasic_lane_sample (key off : Nat) (l : LaneId) : ((toBasic key off m).ln.get l).sample = (m.ln.get l).sample := noClock_sample (toBasic_lane m key off l)
@[simp] theorem toBasic_lane_volts (key off : Nat) (l : LaneId) : ((toBasic key off m).ln.get l).volts = (m.ln.get l).volts := noClock_volts (toBasic_lane m key off l)
@[simp] theorem toBasic_lane_image (key off : Nat) (l : LaneId) : ((toBasic key off m).ln.get l).image = (m.ln.get l).image := noClock_image (toBasic_lane m key off l)
@[simp] theorem toBasic_lane_gvolt (key off : Nat) (l : LaneId) : ((toBasic key off m).ln.get l).gvolt = (m.ln.get l).gvolt := noClock_gvolt (toBasic_lane m key off l)
@[simp] theorem toBasic_lane_gLow (key off : Nat) (l : LaneId) : ((toBasic key off m).ln.get l).gLow = (m.ln.get l).gLow := noClock_gLow (toBasic_lane m key off l)
@[simp] theorem toBasic_lane_ownOffer (key off : Nat) (l : LaneId) : ((toBasic key off m).ln.get l).ownOffer = (m.ln.get l).ownOffer := noClock_ownOffer (toBasic_lane m key off l)
@[simp] theorem toBasic_lane_ownSet (key off : Nat) (l : LaneId) : ((toBasic key off m).ln.get l).ownSet = (m.ln.get l).ownSet := noClock_ownSet (toBasic_lane m key off l)
@[simp] theorem toBasic_lane_ownHalt (key off : Nat) (l : LaneId) : ((toBasic key off m).ln.get l).ownHalt = (m.ln.get l).ownHalt := noClock_ownHalt (toBasic_lane m key off l)
@[simp] theorem toBasic_lane_voted (key off : Nat) (l : LaneId) : ((toBasic key off m).ln.get l).voted = (m.ln.get l).voted := noClock_voted (toBasic_lane m key off l)
@[simp] theorem toBasic_lane_late (key off : Nat) (l : LaneId) : ((toBasic key off m).ln.get l).late = (m.ln.get l).late := noClock_late (toBasic_lane m key off l)
@[simp] theorem toBasic_lane_exclCause (key off : Nat) (l : LaneId) : ((toBasic key off m).ln.get l).exclCause = (m.ln.get l).exclCause := noClock_exclCause (toBasic_lane m key off l)
@[simp] theorem toBasic_lane_step (key off : Nat) (l : LaneId) : ((toBasic key off m).ln.get l).step = (m.ln.get l).step := noClock_step (toBasic_lane m key off l)
@[simp] theorem toBasic_lane_margin (key off : Nat) (l : LaneId) : ((toBasic key off m).ln.get l).margin = (m.ln.get l).margin := noClock_margin (toBasic_lane m key off l)
@[simp] theorem toBasic_lane_lowReads (key off : Nat) (l : LaneId) : ((toBasic key off m).ln.get l).lowReads = (m.ln.get l).lowReads := noClock_lowReads (toBasic_lane m key off l)
@[simp] theorem toBasic_lane_eol (key off : Nat) (l : LaneId) : ((toBasic key off m).ln.get l).eol = (m.ln.get l).eol := noClock_eol (toBasic_lane m key off l)
@[simp] theorem toBasic_lane_lowerDue (key off : Nat) (l : LaneId) : ((toBasic key off m).ln.get l).lowerDue = (m.ln.get l).lowerDue := noClock_lowerDue (toBasic_lane m key off l)
@[simp] theorem toBasic_lane_mesh (key off : Nat) (l : LaneId) : ((toBasic key off m).ln.get l).mesh = (m.ln.get l).mesh := noClock_mesh (toBasic_lane m key off l)
@[simp] theorem toBasic_lane_envOk (key off : Nat) (l : LaneId) : ((toBasic key off m).ln.get l).envOk = (m.ln.get l).envOk := noClock_envOk (toBasic_lane m key off l)
@[simp] theorem toBasic_lane_pcLatch (key off : Nat) (l : LaneId) : ((toBasic key off m).ln.get l).pcLatch = (m.ln.get l).pcLatch := noClock_pcLatch (toBasic_lane m key off l)
@[simp] theorem toBasic_lane_latchTime (key off : Nat) (l : LaneId) : ((toBasic key off m).ln.get l).latchTime = (m.ln.get l).latchTime := noClock_latchTime (toBasic_lane m key off l)
@[simp] theorem toBasic_lane_btn (key off : Nat) (l : LaneId) : ((toBasic key off m).ln.get l).btn = (m.ln.get l).btn := noClock_btn (toBasic_lane m key off l)
@[simp] theorem toBasic_lane_missAll (key off : Nat) (l : LaneId) : ((toBasic key off m).ln.get l).missAll = (m.ln.get l).missAll := noClock_missAll (toBasic_lane m key off l)
@[simp] theorem toBasic_lane_divIn (key off : Nat) (l : LaneId) : ((toBasic key off m).ln.get l).divIn = (m.ln.get l).divIn := noClock_divIn (toBasic_lane m key off l)
@[simp] theorem toBasic_lane_foreignAt (key off : Nat) (l : LaneId) : ((toBasic key off m).ln.get l).foreignAt = (m.ln.get l).foreignAt := noClock_foreignAt (toBasic_lane m key off l)
@[simp] theorem toBasic_lane_subIdx (key off : Nat) (l : LaneId) : ((toBasic key off m).ln.get l).subIdx = (m.ln.get l).subIdx := noClock_subIdx (toBasic_lane m key off l)
@[simp] theorem toBasic_lane_alarmLevel (key off : Nat) (l : LaneId) : ((toBasic key off m).ln.get l).alarmLevel = (m.ln.get l).alarmLevel := noClock_alarmLevel (toBasic_lane m key off l)
@[simp] theorem toBasic_lane_cvu (key off : Nat) (l : LaneId) : ((toBasic key off m).ln.get l).cvu = (m.ln.get l).cvu := noClock_cvu (toBasic_lane m key off l)
@[simp] theorem toBasic_lane_alive (key off : Nat) (l : LaneId) : ((toBasic key off m).ln.get l).alive = (m.ln.get l).alive := noClock_alive (toBasic_lane m key off l)
@[simp] theorem toBasic_aliveLanes (key off : Nat) : aliveLanes (toBasic key off m) = aliveLanes m := by
  unfold aliveLanes; congr 1; funext l; exact toBasic_lane_alive m key off l

@[simp] theorem pcEvent_lane_nv (x : LaneId) (code : Nat) (l : LaneId) : ((pcEvent x code m).ln.get l).nv = (m.ln.get l).nv := noClock_nv (pcEvent_lane m x code l)
@[simp] theorem pcEvent_lane_supplied (x : LaneId) (code : Nat) (l : LaneId) : ((pcEvent x code m).ln.get l).supplied = (m.ln.get l).supplied := noClock_supplied (pcEvent_lane m x code l)
@[simp] theorem pcEvent_lane_usable (x : LaneId) (code : Nat) (l : LaneId) : ((pcEvent x code m).ln.get l).usable = (m.ln.get l).usable := noClock_usable (pcEvent_lane m x code l)
@[simp] theorem pcEvent_lane_heldOut (x : LaneId) (code : Nat) (l : LaneId) : ((pcEvent x code m).ln.get l).heldOut = (m.ln.get l).heldOut := noClock_heldOut (pcEvent_lane m x code l)
@[simp] theorem pcEvent_lane_excluded (x : LaneId) (code : Nat) (l : LaneId) : ((pcEvent x code m).ln.get l).excluded = (m.ln.get l).excluded := noClock_excluded (pcEvent_lane m x code l)
@[simp] theorem pcEvent_lane_stopped (x : LaneId) (code : Nat) (l : LaneId) : ((pcEvent x code m).ln.get l).stopped = (m.ln.get l).stopped := noClock_stopped (pcEvent_lane m x code l)
@[simp] theorem pcEvent_lane_halted (x : LaneId) (code : Nat) (l : LaneId) : ((pcEvent x code m).ln.get l).halted = (m.ln.get l).halted := noClock_halted (pcEvent_lane m x code l)
@[simp] theorem pcEvent_lane_opened (x : LaneId) (code : Nat) (l : LaneId) : ((pcEvent x code m).ln.get l).opened = (m.ln.get l).opened := noClock_opened (pcEvent_lane m x code l)
@[simp] theorem pcEvent_lane_openPairs (x : LaneId) (code : Nat) (l : LaneId) : ((pcEvent x code m).ln.get l).openPairs = (m.ln.get l).openPairs := noClock_openPairs (pcEvent_lane m x code l)
@[simp] theorem pcEvent_lane_keyLocked (x : LaneId) (code : Nat) (l : LaneId) : ((pcEvent x code m).ln.get l).keyLocked = (m.ln.get l).keyLocked := noClock_keyLocked (pcEvent_lane m x code l)
@[simp] theorem pcEvent_lane_testLatch (x : LaneId) (code : Nat) (l : LaneId) : ((pcEvent x code m).ln.get l).testLatch = (m.ln.get l).testLatch := noClock_testLatch (pcEvent_lane m x code l)
@[simp] theorem pcEvent_lane_proofAt (x : LaneId) (code : Nat) (l : LaneId) : ((pcEvent x code m).ln.get l).proofAt = (m.ln.get l).proofAt := noClock_proofAt (pcEvent_lane m x code l)
@[simp] theorem pcEvent_lane_itemAt (x : LaneId) (code : Nat) (l : LaneId) : ((pcEvent x code m).ln.get l).itemAt = (m.ln.get l).itemAt := noClock_itemAt (pcEvent_lane m x code l)
@[simp] theorem pcEvent_lane_itemNext (x : LaneId) (code : Nat) (l : LaneId) : ((pcEvent x code m).ln.get l).itemNext = (m.ln.get l).itemNext := noClock_itemNext (pcEvent_lane m x code l)
@[simp] theorem pcEvent_lane_abandoned (x : LaneId) (code : Nat) (l : LaneId) : ((pcEvent x code m).ln.get l).abandoned = (m.ln.get l).abandoned := noClock_abandoned (pcEvent_lane m x code l)
@[simp] theorem pcEvent_lane_freq (x : LaneId) (code : Nat) (l : LaneId) : ((pcEvent x code m).ln.get l).freq = (m.ln.get l).freq := noClock_freq (pcEvent_lane m x code l)
@[simp] theorem pcEvent_lane_offset (x : LaneId) (code : Nat) (l : LaneId) : ((pcEvent x code m).ln.get l).offset = (m.ln.get l).offset := noClock_offset (pcEvent_lane m x code l)
@[simp] theorem pcEvent_lane_driftLim (x : LaneId) (code : Nat) (l : LaneId) : ((pcEvent x code m).ln.get l).driftLim = (m.ln.get l).driftLim := noClock_driftLim (pcEvent_lane m x code l)
@[simp] theorem pcEvent_lane_driftEol (x : LaneId) (code : Nat) (l : LaneId) : ((pcEvent x code m).ln.get l).driftEol = (m.ln.get l).driftEol := noClock_driftEol (pcEvent_lane m x code l)
@[simp] theorem pcEvent_lane_feMiss (x : LaneId) (code : Nat) (l : LaneId) : ((pcEvent x code m).ln.get l).feMiss = (m.ln.get l).feMiss := noClock_feMiss (pcEvent_lane m x code l)
@[simp] theorem pcEvent_lane_feLost (x : LaneId) (code : Nat) (l : LaneId) : ((pcEvent x code m).ln.get l).feLost = (m.ln.get l).feLost := noClock_feLost (pcEvent_lane m x code l)
@[simp] theorem pcEvent_lane_vset (x : LaneId) (code : Nat) (l : LaneId) : ((pcEvent x code m).ln.get l).vset = (m.ln.get l).vset := noClock_vset (pcEvent_lane m x code l)
@[simp] theorem pcEvent_lane_tdiff (x : LaneId) (code : Nat) (l : LaneId) : ((pcEvent x code m).ln.get l).tdiff = (m.ln.get l).tdiff := noClock_tdiff (pcEvent_lane m x code l)
@[simp] theorem pcEvent_lane_localRx (x : LaneId) (code : Nat) (l : LaneId) : ((pcEvent x code m).ln.get l).localRx = (m.ln.get l).localRx := noClock_localRx (pcEvent_lane m x code l)
@[simp] theorem pcEvent_lane_remoteRx (x : LaneId) (code : Nat) (l : LaneId) : ((pcEvent x code m).ln.get l).remoteRx = (m.ln.get l).remoteRx := noClock_remoteRx (pcEvent_lane m x code l)
@[simp] theorem pcEvent_lane_offerRx (x : LaneId) (code : Nat) (l : LaneId) : ((pcEvent x code m).ln.get l).offerRx = (m.ln.get l).offerRx := noClock_offerRx (pcEvent_lane m x code l)
@[simp] theorem pcEvent_lane_verdictRx (x : LaneId) (code : Nat) (l : LaneId) : ((pcEvent x code m).ln.get l).verdictRx = (m.ln.get l).verdictRx := noClock_verdictRx (pcEvent_lane m x code l)
@[simp] theorem pcEvent_lane_confirmRx (x : LaneId) (code : Nat) (l : LaneId) : ((pcEvent x code m).ln.get l).confirmRx = (m.ln.get l).confirmRx := noClock_confirmRx (pcEvent_lane m x code l)
@[simp] theorem pcEvent_lane_faultRx (x : LaneId) (code : Nat) (l : LaneId) : ((pcEvent x code m).ln.get l).faultRx = (m.ln.get l).faultRx := noClock_faultRx (pcEvent_lane m x code l)
@[simp] theorem pcEvent_lane_sent (x : LaneId) (code : Nat) (l : LaneId) : ((pcEvent x code m).ln.get l).sent = (m.ln.get l).sent := noClock_sent (pcEvent_lane m x code l)
@[simp] theorem pcEvent_lane_ownChoice (x : LaneId) (code : Nat) (l : LaneId) : ((pcEvent x code m).ln.get l).ownChoice = (m.ln.get l).ownChoice := noClock_ownChoice (pcEvent_lane m x code l)
@[simp] theorem pcEvent_lane_sample (x : LaneId) (code : Nat) (l : LaneId) : ((pcEvent x code m).ln.get l).sample = (m.ln.get l).sample := noClock_sample (pcEvent_lane m x code l)
@[simp] theorem pcEvent_lane_volts (x : LaneId) (code : Nat) (l : LaneId) : ((pcEvent x code m).ln.get l).volts = (m.ln.get l).volts := noClock_volts (pcEvent_lane m x code l)
@[simp] theorem pcEvent_lane_image (x : LaneId) (code : Nat) (l : LaneId) : ((pcEvent x code m).ln.get l).image = (m.ln.get l).image := noClock_image (pcEvent_lane m x code l)
@[simp] theorem pcEvent_lane_gvolt (x : LaneId) (code : Nat) (l : LaneId) : ((pcEvent x code m).ln.get l).gvolt = (m.ln.get l).gvolt := noClock_gvolt (pcEvent_lane m x code l)
@[simp] theorem pcEvent_lane_gLow (x : LaneId) (code : Nat) (l : LaneId) : ((pcEvent x code m).ln.get l).gLow = (m.ln.get l).gLow := noClock_gLow (pcEvent_lane m x code l)
@[simp] theorem pcEvent_lane_ownOffer (x : LaneId) (code : Nat) (l : LaneId) : ((pcEvent x code m).ln.get l).ownOffer = (m.ln.get l).ownOffer := noClock_ownOffer (pcEvent_lane m x code l)
@[simp] theorem pcEvent_lane_ownSet (x : LaneId) (code : Nat) (l : LaneId) : ((pcEvent x code m).ln.get l).ownSet = (m.ln.get l).ownSet := noClock_ownSet (pcEvent_lane m x code l)
@[simp] theorem pcEvent_lane_ownHalt (x : LaneId) (code : Nat) (l : LaneId) : ((pcEvent x code m).ln.get l).ownHalt = (m.ln.get l).ownHalt := noClock_ownHalt (pcEvent_lane m x code l)
@[simp] theorem pcEvent_lane_voted (x : LaneId) (code : Nat) (l : LaneId) : ((pcEvent x code m).ln.get l).voted = (m.ln.get l).voted := noClock_voted (pcEvent_lane m x code l)
@[simp] theorem pcEvent_lane_late (x : LaneId) (code : Nat) (l : LaneId) : ((pcEvent x code m).ln.get l).late = (m.ln.get l).late := noClock_late (pcEvent_lane m x code l)
@[simp] theorem pcEvent_lane_exclCause (x : LaneId) (code : Nat) (l : LaneId) : ((pcEvent x code m).ln.get l).exclCause = (m.ln.get l).exclCause := noClock_exclCause (pcEvent_lane m x code l)
@[simp] theorem pcEvent_lane_step (x : LaneId) (code : Nat) (l : LaneId) : ((pcEvent x code m).ln.get l).step = (m.ln.get l).step := noClock_step (pcEvent_lane m x code l)
@[simp] theorem pcEvent_lane_margin (x : LaneId) (code : Nat) (l : LaneId) : ((pcEvent x code m).ln.get l).margin = (m.ln.get l).margin := noClock_margin (pcEvent_lane m x code l)
@[simp] theorem pcEvent_lane_lowReads (x : LaneId) (code : Nat) (l : LaneId) : ((pcEvent x code m).ln.get l).lowReads = (m.ln.get l).lowReads := noClock_lowReads (pcEvent_lane m x code l)
@[simp] theorem pcEvent_lane_eol (x : LaneId) (code : Nat) (l : LaneId) : ((pcEvent x code m).ln.get l).eol = (m.ln.get l).eol := noClock_eol (pcEvent_lane m x code l)
@[simp] theorem pcEvent_lane_lowerDue (x : LaneId) (code : Nat) (l : LaneId) : ((pcEvent x code m).ln.get l).lowerDue = (m.ln.get l).lowerDue := noClock_lowerDue (pcEvent_lane m x code l)
@[simp] theorem pcEvent_lane_mesh (x : LaneId) (code : Nat) (l : LaneId) : ((pcEvent x code m).ln.get l).mesh = (m.ln.get l).mesh := noClock_mesh (pcEvent_lane m x code l)
@[simp] theorem pcEvent_lane_envOk (x : LaneId) (code : Nat) (l : LaneId) : ((pcEvent x code m).ln.get l).envOk = (m.ln.get l).envOk := noClock_envOk (pcEvent_lane m x code l)
@[simp] theorem pcEvent_lane_pcLatch (x : LaneId) (code : Nat) (l : LaneId) : ((pcEvent x code m).ln.get l).pcLatch = (m.ln.get l).pcLatch := noClock_pcLatch (pcEvent_lane m x code l)
@[simp] theorem pcEvent_lane_latchTime (x : LaneId) (code : Nat) (l : LaneId) : ((pcEvent x code m).ln.get l).latchTime = (m.ln.get l).latchTime := noClock_latchTime (pcEvent_lane m x code l)
@[simp] theorem pcEvent_lane_btn (x : LaneId) (code : Nat) (l : LaneId) : ((pcEvent x code m).ln.get l).btn = (m.ln.get l).btn := noClock_btn (pcEvent_lane m x code l)
@[simp] theorem pcEvent_lane_missAll (x : LaneId) (code : Nat) (l : LaneId) : ((pcEvent x code m).ln.get l).missAll = (m.ln.get l).missAll := noClock_missAll (pcEvent_lane m x code l)
@[simp] theorem pcEvent_lane_divIn (x : LaneId) (code : Nat) (l : LaneId) : ((pcEvent x code m).ln.get l).divIn = (m.ln.get l).divIn := noClock_divIn (pcEvent_lane m x code l)
@[simp] theorem pcEvent_lane_foreignAt (x : LaneId) (code : Nat) (l : LaneId) : ((pcEvent x code m).ln.get l).foreignAt = (m.ln.get l).foreignAt := noClock_foreignAt (pcEvent_lane m x code l)
@[simp] theorem pcEvent_lane_subIdx (x : LaneId) (code : Nat) (l : LaneId) : ((pcEvent x code m).ln.get l).subIdx = (m.ln.get l).subIdx := noClock_subIdx (pcEvent_lane m x code l)
@[simp] theorem pcEvent_lane_alarmLevel (x : LaneId) (code : Nat) (l : LaneId) : ((pcEvent x code m).ln.get l).alarmLevel = (m.ln.get l).alarmLevel := noClock_alarmLevel (pcEvent_lane m x code l)
@[simp] theorem pcEvent_lane_cvu (x : LaneId) (code : Nat) (l : LaneId) : ((pcEvent x code m).ln.get l).cvu = (m.ln.get l).cvu := noClock_cvu (pcEvent_lane m x code l)
@[simp] theorem pcEvent_lane_alive (x : LaneId) (code : Nat) (l : LaneId) : ((pcEvent x code m).ln.get l).alive = (m.ln.get l).alive := noClock_alive (pcEvent_lane m x code l)
@[simp] theorem pcEvent_aliveLanes (x : LaneId) (code : Nat) : aliveLanes (pcEvent x code m) = aliveLanes m := by
  unfold aliveLanes; congr 1; funext l; exact pcEvent_lane_alive m x code l

@[simp] theorem pcAll_lane_nv (code : Nat) (l : LaneId) : ((pcAll code m).ln.get l).nv = (m.ln.get l).nv := noClock_nv (pcAll_lane m code l)
@[simp] theorem pcAll_lane_supplied (code : Nat) (l : LaneId) : ((pcAll code m).ln.get l).supplied = (m.ln.get l).supplied := noClock_supplied (pcAll_lane m code l)
@[simp] theorem pcAll_lane_usable (code : Nat) (l : LaneId) : ((pcAll code m).ln.get l).usable = (m.ln.get l).usable := noClock_usable (pcAll_lane m code l)
@[simp] theorem pcAll_lane_heldOut (code : Nat) (l : LaneId) : ((pcAll code m).ln.get l).heldOut = (m.ln.get l).heldOut := noClock_heldOut (pcAll_lane m code l)
@[simp] theorem pcAll_lane_excluded (code : Nat) (l : LaneId) : ((pcAll code m).ln.get l).excluded = (m.ln.get l).excluded := noClock_excluded (pcAll_lane m code l)
@[simp] theorem pcAll_lane_stopped (code : Nat) (l : LaneId) : ((pcAll code m).ln.get l).stopped = (m.ln.get l).stopped := noClock_stopped (pcAll_lane m code l)
@[simp] theorem pcAll_lane_halted (code : Nat) (l : LaneId) : ((pcAll code m).ln.get l).halted = (m.ln.get l).halted := noClock_halted (pcAll_lane m code l)
@[simp] theorem pcAll_lane_opened (code : Nat) (l : LaneId) : ((pcAll code m).ln.get l).opened = (m.ln.get l).opened := noClock_opened (pcAll_lane m code l)
@[simp] theorem pcAll_lane_openPairs (code : Nat) (l : LaneId) : ((pcAll code m).ln.get l).openPairs = (m.ln.get l).openPairs := noClock_openPairs (pcAll_lane m code l)
@[simp] theorem pcAll_lane_keyLocked (code : Nat) (l : LaneId) : ((pcAll code m).ln.get l).keyLocked = (m.ln.get l).keyLocked := noClock_keyLocked (pcAll_lane m code l)
@[simp] theorem pcAll_lane_testLatch (code : Nat) (l : LaneId) : ((pcAll code m).ln.get l).testLatch = (m.ln.get l).testLatch := noClock_testLatch (pcAll_lane m code l)
@[simp] theorem pcAll_lane_proofAt (code : Nat) (l : LaneId) : ((pcAll code m).ln.get l).proofAt = (m.ln.get l).proofAt := noClock_proofAt (pcAll_lane m code l)
@[simp] theorem pcAll_lane_itemAt (code : Nat) (l : LaneId) : ((pcAll code m).ln.get l).itemAt = (m.ln.get l).itemAt := noClock_itemAt (pcAll_lane m code l)
@[simp] theorem pcAll_lane_itemNext (code : Nat) (l : LaneId) : ((pcAll code m).ln.get l).itemNext = (m.ln.get l).itemNext := noClock_itemNext (pcAll_lane m code l)
@[simp] theorem pcAll_lane_abandoned (code : Nat) (l : LaneId) : ((pcAll code m).ln.get l).abandoned = (m.ln.get l).abandoned := noClock_abandoned (pcAll_lane m code l)
@[simp] theorem pcAll_lane_freq (code : Nat) (l : LaneId) : ((pcAll code m).ln.get l).freq = (m.ln.get l).freq := noClock_freq (pcAll_lane m code l)
@[simp] theorem pcAll_lane_offset (code : Nat) (l : LaneId) : ((pcAll code m).ln.get l).offset = (m.ln.get l).offset := noClock_offset (pcAll_lane m code l)
@[simp] theorem pcAll_lane_driftLim (code : Nat) (l : LaneId) : ((pcAll code m).ln.get l).driftLim = (m.ln.get l).driftLim := noClock_driftLim (pcAll_lane m code l)
@[simp] theorem pcAll_lane_driftEol (code : Nat) (l : LaneId) : ((pcAll code m).ln.get l).driftEol = (m.ln.get l).driftEol := noClock_driftEol (pcAll_lane m code l)
@[simp] theorem pcAll_lane_feMiss (code : Nat) (l : LaneId) : ((pcAll code m).ln.get l).feMiss = (m.ln.get l).feMiss := noClock_feMiss (pcAll_lane m code l)
@[simp] theorem pcAll_lane_feLost (code : Nat) (l : LaneId) : ((pcAll code m).ln.get l).feLost = (m.ln.get l).feLost := noClock_feLost (pcAll_lane m code l)
@[simp] theorem pcAll_lane_vset (code : Nat) (l : LaneId) : ((pcAll code m).ln.get l).vset = (m.ln.get l).vset := noClock_vset (pcAll_lane m code l)
@[simp] theorem pcAll_lane_tdiff (code : Nat) (l : LaneId) : ((pcAll code m).ln.get l).tdiff = (m.ln.get l).tdiff := noClock_tdiff (pcAll_lane m code l)
@[simp] theorem pcAll_lane_localRx (code : Nat) (l : LaneId) : ((pcAll code m).ln.get l).localRx = (m.ln.get l).localRx := noClock_localRx (pcAll_lane m code l)
@[simp] theorem pcAll_lane_remoteRx (code : Nat) (l : LaneId) : ((pcAll code m).ln.get l).remoteRx = (m.ln.get l).remoteRx := noClock_remoteRx (pcAll_lane m code l)
@[simp] theorem pcAll_lane_offerRx (code : Nat) (l : LaneId) : ((pcAll code m).ln.get l).offerRx = (m.ln.get l).offerRx := noClock_offerRx (pcAll_lane m code l)
@[simp] theorem pcAll_lane_verdictRx (code : Nat) (l : LaneId) : ((pcAll code m).ln.get l).verdictRx = (m.ln.get l).verdictRx := noClock_verdictRx (pcAll_lane m code l)
@[simp] theorem pcAll_lane_confirmRx (code : Nat) (l : LaneId) : ((pcAll code m).ln.get l).confirmRx = (m.ln.get l).confirmRx := noClock_confirmRx (pcAll_lane m code l)
@[simp] theorem pcAll_lane_faultRx (code : Nat) (l : LaneId) : ((pcAll code m).ln.get l).faultRx = (m.ln.get l).faultRx := noClock_faultRx (pcAll_lane m code l)
@[simp] theorem pcAll_lane_sent (code : Nat) (l : LaneId) : ((pcAll code m).ln.get l).sent = (m.ln.get l).sent := noClock_sent (pcAll_lane m code l)
@[simp] theorem pcAll_lane_ownChoice (code : Nat) (l : LaneId) : ((pcAll code m).ln.get l).ownChoice = (m.ln.get l).ownChoice := noClock_ownChoice (pcAll_lane m code l)
@[simp] theorem pcAll_lane_sample (code : Nat) (l : LaneId) : ((pcAll code m).ln.get l).sample = (m.ln.get l).sample := noClock_sample (pcAll_lane m code l)
@[simp] theorem pcAll_lane_volts (code : Nat) (l : LaneId) : ((pcAll code m).ln.get l).volts = (m.ln.get l).volts := noClock_volts (pcAll_lane m code l)
@[simp] theorem pcAll_lane_image (code : Nat) (l : LaneId) : ((pcAll code m).ln.get l).image = (m.ln.get l).image := noClock_image (pcAll_lane m code l)
@[simp] theorem pcAll_lane_gvolt (code : Nat) (l : LaneId) : ((pcAll code m).ln.get l).gvolt = (m.ln.get l).gvolt := noClock_gvolt (pcAll_lane m code l)
@[simp] theorem pcAll_lane_gLow (code : Nat) (l : LaneId) : ((pcAll code m).ln.get l).gLow = (m.ln.get l).gLow := noClock_gLow (pcAll_lane m code l)
@[simp] theorem pcAll_lane_ownOffer (code : Nat) (l : LaneId) : ((pcAll code m).ln.get l).ownOffer = (m.ln.get l).ownOffer := noClock_ownOffer (pcAll_lane m code l)
@[simp] theorem pcAll_lane_ownSet (code : Nat) (l : LaneId) : ((pcAll code m).ln.get l).ownSet = (m.ln.get l).ownSet := noClock_ownSet (pcAll_lane m code l)
@[simp] theorem pcAll_lane_ownHalt (code : Nat) (l : LaneId) : ((pcAll code m).ln.get l).ownHalt = (m.ln.get l).ownHalt := noClock_ownHalt (pcAll_lane m code l)
@[simp] theorem pcAll_lane_voted (code : Nat) (l : LaneId) : ((pcAll code m).ln.get l).voted = (m.ln.get l).voted := noClock_voted (pcAll_lane m code l)
@[simp] theorem pcAll_lane_late (code : Nat) (l : LaneId) : ((pcAll code m).ln.get l).late = (m.ln.get l).late := noClock_late (pcAll_lane m code l)
@[simp] theorem pcAll_lane_exclCause (code : Nat) (l : LaneId) : ((pcAll code m).ln.get l).exclCause = (m.ln.get l).exclCause := noClock_exclCause (pcAll_lane m code l)
@[simp] theorem pcAll_lane_step (code : Nat) (l : LaneId) : ((pcAll code m).ln.get l).step = (m.ln.get l).step := noClock_step (pcAll_lane m code l)
@[simp] theorem pcAll_lane_margin (code : Nat) (l : LaneId) : ((pcAll code m).ln.get l).margin = (m.ln.get l).margin := noClock_margin (pcAll_lane m code l)
@[simp] theorem pcAll_lane_lowReads (code : Nat) (l : LaneId) : ((pcAll code m).ln.get l).lowReads = (m.ln.get l).lowReads := noClock_lowReads (pcAll_lane m code l)
@[simp] theorem pcAll_lane_eol (code : Nat) (l : LaneId) : ((pcAll code m).ln.get l).eol = (m.ln.get l).eol := noClock_eol (pcAll_lane m code l)
@[simp] theorem pcAll_lane_lowerDue (code : Nat) (l : LaneId) : ((pcAll code m).ln.get l).lowerDue = (m.ln.get l).lowerDue := noClock_lowerDue (pcAll_lane m code l)
@[simp] theorem pcAll_lane_mesh (code : Nat) (l : LaneId) : ((pcAll code m).ln.get l).mesh = (m.ln.get l).mesh := noClock_mesh (pcAll_lane m code l)
@[simp] theorem pcAll_lane_envOk (code : Nat) (l : LaneId) : ((pcAll code m).ln.get l).envOk = (m.ln.get l).envOk := noClock_envOk (pcAll_lane m code l)
@[simp] theorem pcAll_lane_pcLatch (code : Nat) (l : LaneId) : ((pcAll code m).ln.get l).pcLatch = (m.ln.get l).pcLatch := noClock_pcLatch (pcAll_lane m code l)
@[simp] theorem pcAll_lane_latchTime (code : Nat) (l : LaneId) : ((pcAll code m).ln.get l).latchTime = (m.ln.get l).latchTime := noClock_latchTime (pcAll_lane m code l)
@[simp] theorem pcAll_lane_btn (code : Nat) (l : LaneId) : ((pcAll code m).ln.get l).btn = (m.ln.get l).btn := noClock_btn (pcAll_lane m code l)
@[simp] theorem pcAll_lane_missAll (code : Nat) (l : LaneId) : ((pcAll code m).ln.get l).missAll = (m.ln.get l).missAll := noClock_missAll (pcAll_lane m code l)
@[simp] theorem pcAll_lane_divIn (code : Nat) (l : LaneId) : ((pcAll code m).ln.get l).divIn = (m.ln.get l).divIn := noClock_divIn (pcAll_lane m code l)
@[simp] theorem pcAll_lane_foreignAt (code : Nat) (l : LaneId) : ((pcAll code m).ln.get l).foreignAt = (m.ln.get l).foreignAt := noClock_foreignAt (pcAll_lane m code l)
@[simp] theorem pcAll_lane_subIdx (code : Nat) (l : LaneId) : ((pcAll code m).ln.get l).subIdx = (m.ln.get l).subIdx := noClock_subIdx (pcAll_lane m code l)
@[simp] theorem pcAll_lane_alarmLevel (code : Nat) (l : LaneId) : ((pcAll code m).ln.get l).alarmLevel = (m.ln.get l).alarmLevel := noClock_alarmLevel (pcAll_lane m code l)
@[simp] theorem pcAll_lane_cvu (code : Nat) (l : LaneId) : ((pcAll code m).ln.get l).cvu = (m.ln.get l).cvu := noClock_cvu (pcAll_lane m code l)
@[simp] theorem pcAll_lane_alive (code : Nat) (l : LaneId) : ((pcAll code m).ln.get l).alive = (m.ln.get l).alive := noClock_alive (pcAll_lane m code l)
@[simp] theorem pcAll_aliveLanes (code : Nat) : aliveLanes (pcAll code m) = aliveLanes m := by
  unfold aliveLanes; congr 1; funext l; exact pcAll_lane_alive m code l

/-- Operating time moves forward to the moment named, never back (R509). -/
theorem passClk_clk_eq (t : Nat) : (passClk t m).clk = max m.clk t := by
  simp [passClk, passTime]; omega


@[simp] theorem updPort_noTm (g : PtpPort → PtpPort) : (updPort g m).noTm = m.noTm := (rfl)
@[simp] theorem updPort_powered (g : PtpPort → PtpPort) : (updPort g m).powered = m.powered := noTm_powered (updPort_noTm m g)
@[simp] theorem updPort_clk (g : PtpPort → PtpPort) : (updPort g m).clk = m.clk := noTm_clk (updPort_noTm m g)
@[simp] theorem updPort_freeN (g : PtpPort → PtpPort) : (updPort g m).freeN = m.freeN := noTm_freeN (updPort_noTm m g)
@[simp] theorem updPort_nv (g : PtpPort → PtpPort) : (updPort g m).nv = m.nv := noTm_nv (updPort_noTm m g)
@[simp] theorem updPort_cfg (g : PtpPort → PtpPort) : (updPort g m).cfg = m.cfg := noTm_cfg (updPort_noTm m g)
@[simp] theorem updPort_ln (g : PtpPort → PtpPort) : (updPort g m).ln = m.ln := noTm_ln (updPort_noTm m g)
@[simp] theorem updPort_md (g : PtpPort → PtpPort) : (updPort g m).md = m.md := noTm_md (updPort_noTm m g)
@[simp] theorem updPort_pw (g : PtpPort → PtpPort) : (updPort g m).pw = m.pw := noTm_pw (updPort_noTm m g)
@[simp] theorem updPort_lg (g : PtpPort → PtpPort) : (updPort g m).lg = m.lg := noTm_lg (updPort_noTm m g)
@[simp] theorem updPort_cur (g : PtpPort → PtpPort) : (updPort g m).cur = m.cur := noTm_cur (updPort_noTm m g)
@[simp] theorem updPort_nxt (g : PtpPort → PtpPort) : (updPort g m).nxt = m.nxt := noTm_nxt (updPort_noTm m g)
@[simp] theorem updPort_en (g : PtpPort → PtpPort) : (updPort g m).en = m.en := noTm_en (updPort_noTm m g)
@[simp] theorem updPort_fio (g : PtpPort → PtpPort) : (updPort g m).fio = m.fio := noTm_fio (updPort_noTm m g)
@[simp] theorem updPort_bt (g : PtpPort → PtpPort) : (updPort g m).bt = m.bt := noTm_bt (updPort_noTm m g)
@[simp] theorem updPort_str (g : PtpPort → PtpPort) : (updPort g m).str = m.str := noTm_str (updPort_noTm m g)
@[simp] theorem updPort_can (g : PtpPort → PtpPort) : (updPort g m).can = m.can := noTm_can (updPort_noTm m g)
@[simp] theorem updPort_net (g : PtpPort → PtpPort) : (updPort g m).net = m.net := noTm_net (updPort_noTm m g)
@[simp] theorem updPort_host (g : PtpPort → PtpPort) : (updPort g m).host = m.host := noTm_host (updPort_noTm m g)
@[simp] theorem updPort_rcd (g : PtpPort → PtpPort) : (updPort g m).rcd = m.rcd := noTm_rcd (updPort_noTm m g)
@[simp] theorem updPort_rc (g : PtpPort → PtpPort) : (updPort g m).rc = m.rc := noTm_rc (updPort_noTm m g)
@[simp] theorem updPort_pc (g : PtpPort → PtpPort) : (updPort g m).pc = m.pc := noTm_pc (updPort_noTm m g)
@[simp] theorem updPort_up (g : PtpPort → PtpPort) : (updPort g m).up = m.up := noTm_up (updPort_noTm m g)
@[simp] theorem updPort_sec (g : PtpPort → PtpPort) : (updPort g m).sec = m.sec := noTm_sec (updPort_noTm m g)
@[simp] theorem updPort_pr (g : PtpPort → PtpPort) : (updPort g m).pr = m.pr := noTm_pr (updPort_noTm m g)
@[simp] theorem updPort_stateOut (g : PtpPort → PtpPort) : (updPort g m).stateOut = m.stateOut := noTm_stateOut (updPort_noTm m g)

@[simp] theorem noteElig_noTm (s : Src) : (noteElig s m).noTm = m.noTm := by
  unfold noteElig; split <;> simp [Mod.noTm]
@[simp] theorem noteElig_powered (s : Src) : (noteElig s m).powered = m.powered := noTm_powered (noteElig_noTm m s)
@[simp] theorem noteElig_clk (s : Src) : (noteElig s m).clk = m.clk := noTm_clk (noteElig_noTm m s)
@[simp] theorem noteElig_freeN (s : Src) : (noteElig s m).freeN = m.freeN := noTm_freeN (noteElig_noTm m s)
@[simp] theorem noteElig_nv (s : Src) : (noteElig s m).nv = m.nv := noTm_nv (noteElig_noTm m s)
@[simp] theorem noteElig_cfg (s : Src) : (noteElig s m).cfg = m.cfg := noTm_cfg (noteElig_noTm m s)
@[simp] theorem noteElig_ln (s : Src) : (noteElig s m).ln = m.ln := noTm_ln (noteElig_noTm m s)
@[simp] theorem noteElig_md (s : Src) : (noteElig s m).md = m.md := noTm_md (noteElig_noTm m s)
@[simp] theorem noteElig_pw (s : Src) : (noteElig s m).pw = m.pw := noTm_pw (noteElig_noTm m s)
@[simp] theorem noteElig_lg (s : Src) : (noteElig s m).lg = m.lg := noTm_lg (noteElig_noTm m s)
@[simp] theorem noteElig_cur (s : Src) : (noteElig s m).cur = m.cur := noTm_cur (noteElig_noTm m s)
@[simp] theorem noteElig_nxt (s : Src) : (noteElig s m).nxt = m.nxt := noTm_nxt (noteElig_noTm m s)
@[simp] theorem noteElig_en (s : Src) : (noteElig s m).en = m.en := noTm_en (noteElig_noTm m s)
@[simp] theorem noteElig_fio (s : Src) : (noteElig s m).fio = m.fio := noTm_fio (noteElig_noTm m s)
@[simp] theorem noteElig_bt (s : Src) : (noteElig s m).bt = m.bt := noTm_bt (noteElig_noTm m s)
@[simp] theorem noteElig_str (s : Src) : (noteElig s m).str = m.str := noTm_str (noteElig_noTm m s)
@[simp] theorem noteElig_can (s : Src) : (noteElig s m).can = m.can := noTm_can (noteElig_noTm m s)
@[simp] theorem noteElig_net (s : Src) : (noteElig s m).net = m.net := noTm_net (noteElig_noTm m s)
@[simp] theorem noteElig_host (s : Src) : (noteElig s m).host = m.host := noTm_host (noteElig_noTm m s)
@[simp] theorem noteElig_rcd (s : Src) : (noteElig s m).rcd = m.rcd := noTm_rcd (noteElig_noTm m s)
@[simp] theorem noteElig_rc (s : Src) : (noteElig s m).rc = m.rc := noTm_rc (noteElig_noTm m s)
@[simp] theorem noteElig_pc (s : Src) : (noteElig s m).pc = m.pc := noTm_pc (noteElig_noTm m s)
@[simp] theorem noteElig_up (s : Src) : (noteElig s m).up = m.up := noTm_up (noteElig_noTm m s)
@[simp] theorem noteElig_sec (s : Src) : (noteElig s m).sec = m.sec := noTm_sec (noteElig_noTm m s)
@[simp] theorem noteElig_pr (s : Src) : (noteElig s m).pr = m.pr := noTm_pr (noteElig_noTm m s)
@[simp] theorem noteElig_stateOut (s : Src) : (noteElig s m).stateOut = m.stateOut := noTm_stateOut (noteElig_noTm m s)

/-- All but tm, ln. -/
def Mod.noTmLn (m : Mod) : Mod :=
  { m with tm := Pacer.fresh, ln := PerLane.all (Lane.fresh (LaneNv.fresh 0 0)) }

theorem noTmLn_powered {a b : Mod} (h : a.noTmLn = b.noTmLn) : a.powered = b.powered := (congrArg Mod.powered h :)
theorem noTmLn_clk {a b : Mod} (h : a.noTmLn = b.noTmLn) : a.clk = b.clk := (congrArg Mod.clk h :)
theorem noTmLn_freeN {a b : Mod} (h : a.noTmLn = b.noTmLn) : a.freeN = b.freeN := (congrArg Mod.freeN h :)
theorem noTmLn_nv {a b : Mod} (h : a.noTmLn = b.noTmLn) : a.nv = b.nv := (congrArg Mod.nv h :)
theorem noTmLn_cfg {a b : Mod} (h : a.noTmLn = b.noTmLn) : a.cfg = b.cfg := (congrArg Mod.cfg h :)
theorem noTmLn_md {a b : Mod} (h : a.noTmLn = b.noTmLn) : a.md = b.md := (congrArg Mod.md h :)
theorem noTmLn_pw {a b : Mod} (h : a.noTmLn = b.noTmLn) : a.pw = b.pw := (congrArg Mod.pw h :)
theorem noTmLn_lg {a b : Mod} (h : a.noTmLn = b.noTmLn) : a.lg = b.lg := (congrArg Mod.lg h :)
theorem noTmLn_cur {a b : Mod} (h : a.noTmLn = b.noTmLn) : a.cur = b.cur := (congrArg Mod.cur h :)
theorem noTmLn_nxt {a b : Mod} (h : a.noTmLn = b.noTmLn) : a.nxt = b.nxt := (congrArg Mod.nxt h :)
theorem noTmLn_en {a b : Mod} (h : a.noTmLn = b.noTmLn) : a.en = b.en := (congrArg Mod.en h :)
theorem noTmLn_fio {a b : Mod} (h : a.noTmLn = b.noTmLn) : a.fio = b.fio := (congrArg Mod.fio h :)
theorem noTmLn_bt {a b : Mod} (h : a.noTmLn = b.noTmLn) : a.bt = b.bt := (congrArg Mod.bt h :)
theorem noTmLn_str {a b : Mod} (h : a.noTmLn = b.noTmLn) : a.str = b.str := (congrArg Mod.str h :)
theorem noTmLn_can {a b : Mod} (h : a.noTmLn = b.noTmLn) : a.can = b.can := (congrArg Mod.can h :)
theorem noTmLn_net {a b : Mod} (h : a.noTmLn = b.noTmLn) : a.net = b.net := (congrArg Mod.net h :)
theorem noTmLn_host {a b : Mod} (h : a.noTmLn = b.noTmLn) : a.host = b.host := (congrArg Mod.host h :)
theorem noTmLn_rcd {a b : Mod} (h : a.noTmLn = b.noTmLn) : a.rcd = b.rcd := (congrArg Mod.rcd h :)
theorem noTmLn_rc {a b : Mod} (h : a.noTmLn = b.noTmLn) : a.rc = b.rc := (congrArg Mod.rc h :)
theorem noTmLn_pc {a b : Mod} (h : a.noTmLn = b.noTmLn) : a.pc = b.pc := (congrArg Mod.pc h :)
theorem noTmLn_up {a b : Mod} (h : a.noTmLn = b.noTmLn) : a.up = b.up := (congrArg Mod.up h :)
theorem noTmLn_sec {a b : Mod} (h : a.noTmLn = b.noTmLn) : a.sec = b.sec := (congrArg Mod.sec h :)
theorem noTmLn_pr {a b : Mod} (h : a.noTmLn = b.noTmLn) : a.pr = b.pr := (congrArg Mod.pr h :)
theorem noTmLn_stateOut {a b : Mod} (h : a.noTmLn = b.noTmLn) : a.stateOut = b.stateOut := (congrArg Mod.stateOut h :)

@[simp] theorem follow_noTmLn (s : Src) : (follow s m).noTmLn = m.noTmLn := (rfl)
@[simp] theorem follow_powered (s : Src) : (follow s m).powered = m.powered := noTmLn_powered (follow_noTmLn m s)
@[simp] theorem follow_clk (s : Src) : (follow s m).clk = m.clk := noTmLn_clk (follow_noTmLn m s)
@[simp] theorem follow_freeN (s : Src) : (follow s m).freeN = m.freeN := noTmLn_freeN (follow_noTmLn m s)
@[simp] theorem follow_nv (s : Src) : (follow s m).nv = m.nv := noTmLn_nv (follow_noTmLn m s)
@[simp] theorem follow_cfg (s : Src) : (follow s m).cfg = m.cfg := noTmLn_cfg (follow_noTmLn m s)
@[simp] theorem follow_md (s : Src) : (follow s m).md = m.md := noTmLn_md (follow_noTmLn m s)
@[simp] theorem follow_pw (s : Src) : (follow s m).pw = m.pw := noTmLn_pw (follow_noTmLn m s)
@[simp] theorem follow_lg (s : Src) : (follow s m).lg = m.lg := noTmLn_lg (follow_noTmLn m s)
@[simp] theorem follow_cur (s : Src) : (follow s m).cur = m.cur := noTmLn_cur (follow_noTmLn m s)
@[simp] theorem follow_nxt (s : Src) : (follow s m).nxt = m.nxt := noTmLn_nxt (follow_noTmLn m s)
@[simp] theorem follow_en (s : Src) : (follow s m).en = m.en := noTmLn_en (follow_noTmLn m s)
@[simp] theorem follow_fio (s : Src) : (follow s m).fio = m.fio := noTmLn_fio (follow_noTmLn m s)
@[simp] theorem follow_bt (s : Src) : (follow s m).bt = m.bt := noTmLn_bt (follow_noTmLn m s)
@[simp] theorem follow_str (s : Src) : (follow s m).str = m.str := noTmLn_str (follow_noTmLn m s)
@[simp] theorem follow_can (s : Src) : (follow s m).can = m.can := noTmLn_can (follow_noTmLn m s)
@[simp] theorem follow_net (s : Src) : (follow s m).net = m.net := noTmLn_net (follow_noTmLn m s)
@[simp] theorem follow_host (s : Src) : (follow s m).host = m.host := noTmLn_host (follow_noTmLn m s)
@[simp] theorem follow_rcd (s : Src) : (follow s m).rcd = m.rcd := noTmLn_rcd (follow_noTmLn m s)
@[simp] theorem follow_rc (s : Src) : (follow s m).rc = m.rc := noTmLn_rc (follow_noTmLn m s)
@[simp] theorem follow_pc (s : Src) : (follow s m).pc = m.pc := noTmLn_pc (follow_noTmLn m s)
@[simp] theorem follow_up (s : Src) : (follow s m).up = m.up := noTmLn_up (follow_noTmLn m s)
@[simp] theorem follow_sec (s : Src) : (follow s m).sec = m.sec := noTmLn_sec (follow_noTmLn m s)
@[simp] theorem follow_pr (s : Src) : (follow s m).pr = m.pr := noTmLn_pr (follow_noTmLn m s)
@[simp] theorem follow_stateOut (s : Src) : (follow s m).stateOut = m.stateOut := noTmLn_stateOut (follow_noTmLn m s)

@[simp] theorem towardsRef_noLn : (towardsRef m).noLn = m.noLn := by
  unfold towardsRef; split <;> rfl
@[simp] theorem towardsRef_powered : (towardsRef m).powered = m.powered := noLn_powered (towardsRef_noLn m)
@[simp] theorem towardsRef_clk : (towardsRef m).clk = m.clk := noLn_clk (towardsRef_noLn m)
@[simp] theorem towardsRef_freeN : (towardsRef m).freeN = m.freeN := noLn_freeN (towardsRef_noLn m)
@[simp] theorem towardsRef_nv : (towardsRef m).nv = m.nv := noLn_nv (towardsRef_noLn m)
@[simp] theorem towardsRef_cfg : (towardsRef m).cfg = m.cfg := noLn_cfg (towardsRef_noLn m)
@[simp] theorem towardsRef_tm : (towardsRef m).tm = m.tm := noLn_tm (towardsRef_noLn m)
@[simp] theorem towardsRef_md : (towardsRef m).md = m.md := noLn_md (towardsRef_noLn m)
@[simp] theorem towardsRef_pw : (towardsRef m).pw = m.pw := noLn_pw (towardsRef_noLn m)
@[simp] theorem towardsRef_lg : (towardsRef m).lg = m.lg := noLn_lg (towardsRef_noLn m)
@[simp] theorem towardsRef_cur : (towardsRef m).cur = m.cur := noLn_cur (towardsRef_noLn m)
@[simp] theorem towardsRef_nxt : (towardsRef m).nxt = m.nxt := noLn_nxt (towardsRef_noLn m)
@[simp] theorem towardsRef_en : (towardsRef m).en = m.en := noLn_en (towardsRef_noLn m)
@[simp] theorem towardsRef_fio : (towardsRef m).fio = m.fio := noLn_fio (towardsRef_noLn m)
@[simp] theorem towardsRef_bt : (towardsRef m).bt = m.bt := noLn_bt (towardsRef_noLn m)
@[simp] theorem towardsRef_str : (towardsRef m).str = m.str := noLn_str (towardsRef_noLn m)
@[simp] theorem towardsRef_can : (towardsRef m).can = m.can := noLn_can (towardsRef_noLn m)
@[simp] theorem towardsRef_net : (towardsRef m).net = m.net := noLn_net (towardsRef_noLn m)
@[simp] theorem towardsRef_host : (towardsRef m).host = m.host := noLn_host (towardsRef_noLn m)
@[simp] theorem towardsRef_rcd : (towardsRef m).rcd = m.rcd := noLn_rcd (towardsRef_noLn m)
@[simp] theorem towardsRef_rc : (towardsRef m).rc = m.rc := noLn_rc (towardsRef_noLn m)
@[simp] theorem towardsRef_pc : (towardsRef m).pc = m.pc := noLn_pc (towardsRef_noLn m)
@[simp] theorem towardsRef_up : (towardsRef m).up = m.up := noLn_up (towardsRef_noLn m)
@[simp] theorem towardsRef_sec : (towardsRef m).sec = m.sec := noLn_sec (towardsRef_noLn m)
@[simp] theorem towardsRef_pr : (towardsRef m).pr = m.pr := noLn_pr (towardsRef_noLn m)
@[simp] theorem towardsRef_stateOut : (towardsRef m).stateOut = m.stateOut := noLn_stateOut (towardsRef_noLn m)

/-- All but tm, ln, host, rcd. -/
def Mod.noTmLnHostRcd (m : Mod) : Mod :=
  { m with tm := Pacer.fresh, ln := PerLane.all (Lane.fresh (LaneNv.fresh 0 0)), host := HostIf.fresh, rcd := Recorder.fresh }

theorem noTmLnHostRcd_powered {a b : Mod} (h : a.noTmLnHostRcd = b.noTmLnHostRcd) : a.powered = b.powered := (congrArg Mod.powered h :)
theorem noTmLnHostRcd_clk {a b : Mod} (h : a.noTmLnHostRcd = b.noTmLnHostRcd) : a.clk = b.clk := (congrArg Mod.clk h :)
theorem noTmLnHostRcd_freeN {a b : Mod} (h : a.noTmLnHostRcd = b.noTmLnHostRcd) : a.freeN = b.freeN := (congrArg Mod.freeN h :)
theorem noTmLnHostRcd_nv {a b : Mod} (h : a.noTmLnHostRcd = b.noTmLnHostRcd) : a.nv = b.nv := (congrArg Mod.nv h :)
theorem noTmLnHostRcd_cfg {a b : Mod} (h : a.noTmLnHostRcd = b.noTmLnHostRcd) : a.cfg = b.cfg := (congrArg Mod.cfg h :)
theorem noTmLnHostRcd_md {a b : Mod} (h : a.noTmLnHostRcd = b.noTmLnHostRcd) : a.md = b.md := (congrArg Mod.md h :)
theorem noTmLnHostRcd_pw {a b : Mod} (h : a.noTmLnHostRcd = b.noTmLnHostRcd) : a.pw = b.pw := (congrArg Mod.pw h :)
theorem noTmLnHostRcd_lg {a b : Mod} (h : a.noTmLnHostRcd = b.noTmLnHostRcd) : a.lg = b.lg := (congrArg Mod.lg h :)
theorem noTmLnHostRcd_cur {a b : Mod} (h : a.noTmLnHostRcd = b.noTmLnHostRcd) : a.cur = b.cur := (congrArg Mod.cur h :)
theorem noTmLnHostRcd_nxt {a b : Mod} (h : a.noTmLnHostRcd = b.noTmLnHostRcd) : a.nxt = b.nxt := (congrArg Mod.nxt h :)
theorem noTmLnHostRcd_en {a b : Mod} (h : a.noTmLnHostRcd = b.noTmLnHostRcd) : a.en = b.en := (congrArg Mod.en h :)
theorem noTmLnHostRcd_fio {a b : Mod} (h : a.noTmLnHostRcd = b.noTmLnHostRcd) : a.fio = b.fio := (congrArg Mod.fio h :)
theorem noTmLnHostRcd_bt {a b : Mod} (h : a.noTmLnHostRcd = b.noTmLnHostRcd) : a.bt = b.bt := (congrArg Mod.bt h :)
theorem noTmLnHostRcd_str {a b : Mod} (h : a.noTmLnHostRcd = b.noTmLnHostRcd) : a.str = b.str := (congrArg Mod.str h :)
theorem noTmLnHostRcd_can {a b : Mod} (h : a.noTmLnHostRcd = b.noTmLnHostRcd) : a.can = b.can := (congrArg Mod.can h :)
theorem noTmLnHostRcd_net {a b : Mod} (h : a.noTmLnHostRcd = b.noTmLnHostRcd) : a.net = b.net := (congrArg Mod.net h :)
theorem noTmLnHostRcd_rc {a b : Mod} (h : a.noTmLnHostRcd = b.noTmLnHostRcd) : a.rc = b.rc := (congrArg Mod.rc h :)
theorem noTmLnHostRcd_pc {a b : Mod} (h : a.noTmLnHostRcd = b.noTmLnHostRcd) : a.pc = b.pc := (congrArg Mod.pc h :)
theorem noTmLnHostRcd_up {a b : Mod} (h : a.noTmLnHostRcd = b.noTmLnHostRcd) : a.up = b.up := (congrArg Mod.up h :)
theorem noTmLnHostRcd_sec {a b : Mod} (h : a.noTmLnHostRcd = b.noTmLnHostRcd) : a.sec = b.sec := (congrArg Mod.sec h :)
theorem noTmLnHostRcd_pr {a b : Mod} (h : a.noTmLnHostRcd = b.noTmLnHostRcd) : a.pr = b.pr := (congrArg Mod.pr h :)
theorem noTmLnHostRcd_stateOut {a b : Mod} (h : a.noTmLnHostRcd = b.noTmLnHostRcd) : a.stateOut = b.stateOut := (congrArg Mod.stateOut h :)

@[simp] theorem holdover_noTmLnHostRcd (p : Bool) : (holdover p m).noTmLnHostRcd = m.noTmLnHostRcd := by
  unfold holdover; dsimp only
  rw [show ∀ x : Mod, (raise 0x43 {} x).noTmLnHostRcd = x.noTmLnHostRcd from fun x => by simp [Mod.noTmLnHostRcd],
    show ∀ x : Mod, (towardsRef x).noTmLnHostRcd = x.noTmLnHostRcd from fun x => by simp [Mod.noTmLnHostRcd]]; rfl
@[simp] theorem holdover_powered (p : Bool) : (holdover p m).powered = m.powered := noTmLnHostRcd_powered (holdover_noTmLnHostRcd m p)
@[simp] theorem holdover_clk (p : Bool) : (holdover p m).clk = m.clk := noTmLnHostRcd_clk (holdover_noTmLnHostRcd m p)
@[simp] theorem holdover_freeN (p : Bool) : (holdover p m).freeN = m.freeN := noTmLnHostRcd_freeN (holdover_noTmLnHostRcd m p)
@[simp] theorem holdover_nv (p : Bool) : (holdover p m).nv = m.nv := noTmLnHostRcd_nv (holdover_noTmLnHostRcd m p)
@[simp] theorem holdover_cfg (p : Bool) : (holdover p m).cfg = m.cfg := noTmLnHostRcd_cfg (holdover_noTmLnHostRcd m p)
@[simp] theorem holdover_md (p : Bool) : (holdover p m).md = m.md := noTmLnHostRcd_md (holdover_noTmLnHostRcd m p)
@[simp] theorem holdover_pw (p : Bool) : (holdover p m).pw = m.pw := noTmLnHostRcd_pw (holdover_noTmLnHostRcd m p)
@[simp] theorem holdover_lg (p : Bool) : (holdover p m).lg = m.lg := noTmLnHostRcd_lg (holdover_noTmLnHostRcd m p)
@[simp] theorem holdover_cur (p : Bool) : (holdover p m).cur = m.cur := noTmLnHostRcd_cur (holdover_noTmLnHostRcd m p)
@[simp] theorem holdover_nxt (p : Bool) : (holdover p m).nxt = m.nxt := noTmLnHostRcd_nxt (holdover_noTmLnHostRcd m p)
@[simp] theorem holdover_en (p : Bool) : (holdover p m).en = m.en := noTmLnHostRcd_en (holdover_noTmLnHostRcd m p)
@[simp] theorem holdover_fio (p : Bool) : (holdover p m).fio = m.fio := noTmLnHostRcd_fio (holdover_noTmLnHostRcd m p)
@[simp] theorem holdover_bt (p : Bool) : (holdover p m).bt = m.bt := noTmLnHostRcd_bt (holdover_noTmLnHostRcd m p)
@[simp] theorem holdover_str (p : Bool) : (holdover p m).str = m.str := noTmLnHostRcd_str (holdover_noTmLnHostRcd m p)
@[simp] theorem holdover_can (p : Bool) : (holdover p m).can = m.can := noTmLnHostRcd_can (holdover_noTmLnHostRcd m p)
@[simp] theorem holdover_net (p : Bool) : (holdover p m).net = m.net := noTmLnHostRcd_net (holdover_noTmLnHostRcd m p)
@[simp] theorem holdover_rc (p : Bool) : (holdover p m).rc = m.rc := noTmLnHostRcd_rc (holdover_noTmLnHostRcd m p)
@[simp] theorem holdover_pc (p : Bool) : (holdover p m).pc = m.pc := noTmLnHostRcd_pc (holdover_noTmLnHostRcd m p)
@[simp] theorem holdover_up (p : Bool) : (holdover p m).up = m.up := noTmLnHostRcd_up (holdover_noTmLnHostRcd m p)
@[simp] theorem holdover_sec (p : Bool) : (holdover p m).sec = m.sec := noTmLnHostRcd_sec (holdover_noTmLnHostRcd m p)
@[simp] theorem holdover_pr (p : Bool) : (holdover p m).pr = m.pr := noTmLnHostRcd_pr (holdover_noTmLnHostRcd m p)
@[simp] theorem holdover_stateOut (p : Bool) : (holdover p m).stateOut = m.stateOut := noTmLnHostRcd_stateOut (holdover_noTmLnHostRcd m p)

@[simp] theorem loseSource_noTmLnHostRcd (s : Src) (v : Bool) : (loseSource s v m).noTmLnHostRcd = m.noTmLnHostRcd := by
  have h : ∀ x : Mod, (onlyIf v (raise 0x41 { arg1 := srcCode s }) x).noTmLnHostRcd = x.noTmLnHostRcd := fun x => onlyIf_keeps x Mod.noTmLnHostRcd v _ (by simp [Mod.noTmLnHostRcd])
  unfold loseSource; dsimp only; split
  · rfl
  · split
    · rw [show ∀ (c : Nat) (y : EvArgs) (x : Mod), (raise c y x).noTmLnHostRcd = x.noTmLnHostRcd from fun c y x => by simp [Mod.noTmLnHostRcd],
        show ∀ (t : Src) (x : Mod), (follow t x).noTmLnHostRcd = x.noTmLnHostRcd from fun _ _ => rfl, h]
    · rw [show ∀ (p : Bool) (x : Mod), (holdover p x).noTmLnHostRcd = x.noTmLnHostRcd from fun p x => holdover_noTmLnHostRcd x p, h]
@[simp] theorem loseSource_powered (s : Src) (v : Bool) : (loseSource s v m).powered = m.powered := noTmLnHostRcd_powered (loseSource_noTmLnHostRcd m s v)
@[simp] theorem loseSource_clk (s : Src) (v : Bool) : (loseSource s v m).clk = m.clk := noTmLnHostRcd_clk (loseSource_noTmLnHostRcd m s v)
@[simp] theorem loseSource_freeN (s : Src) (v : Bool) : (loseSource s v m).freeN = m.freeN := noTmLnHostRcd_freeN (loseSource_noTmLnHostRcd m s v)
@[simp] theorem loseSource_nv (s : Src) (v : Bool) : (loseSource s v m).nv = m.nv := noTmLnHostRcd_nv (loseSource_noTmLnHostRcd m s v)
@[simp] theorem loseSource_cfg (s : Src) (v : Bool) : (loseSource s v m).cfg = m.cfg := noTmLnHostRcd_cfg (loseSource_noTmLnHostRcd m s v)
@[simp] theorem loseSource_md (s : Src) (v : Bool) : (loseSource s v m).md = m.md := noTmLnHostRcd_md (loseSource_noTmLnHostRcd m s v)
@[simp] theorem loseSource_pw (s : Src) (v : Bool) : (loseSource s v m).pw = m.pw := noTmLnHostRcd_pw (loseSource_noTmLnHostRcd m s v)
@[simp] theorem loseSource_lg (s : Src) (v : Bool) : (loseSource s v m).lg = m.lg := noTmLnHostRcd_lg (loseSource_noTmLnHostRcd m s v)
@[simp] theorem loseSource_cur (s : Src) (v : Bool) : (loseSource s v m).cur = m.cur := noTmLnHostRcd_cur (loseSource_noTmLnHostRcd m s v)
@[simp] theorem loseSource_nxt (s : Src) (v : Bool) : (loseSource s v m).nxt = m.nxt := noTmLnHostRcd_nxt (loseSource_noTmLnHostRcd m s v)
@[simp] theorem loseSource_en (s : Src) (v : Bool) : (loseSource s v m).en = m.en := noTmLnHostRcd_en (loseSource_noTmLnHostRcd m s v)
@[simp] theorem loseSource_fio (s : Src) (v : Bool) : (loseSource s v m).fio = m.fio := noTmLnHostRcd_fio (loseSource_noTmLnHostRcd m s v)
@[simp] theorem loseSource_bt (s : Src) (v : Bool) : (loseSource s v m).bt = m.bt := noTmLnHostRcd_bt (loseSource_noTmLnHostRcd m s v)
@[simp] theorem loseSource_str (s : Src) (v : Bool) : (loseSource s v m).str = m.str := noTmLnHostRcd_str (loseSource_noTmLnHostRcd m s v)
@[simp] theorem loseSource_can (s : Src) (v : Bool) : (loseSource s v m).can = m.can := noTmLnHostRcd_can (loseSource_noTmLnHostRcd m s v)
@[simp] theorem loseSource_net (s : Src) (v : Bool) : (loseSource s v m).net = m.net := noTmLnHostRcd_net (loseSource_noTmLnHostRcd m s v)
@[simp] theorem loseSource_rc (s : Src) (v : Bool) : (loseSource s v m).rc = m.rc := noTmLnHostRcd_rc (loseSource_noTmLnHostRcd m s v)
@[simp] theorem loseSource_pc (s : Src) (v : Bool) : (loseSource s v m).pc = m.pc := noTmLnHostRcd_pc (loseSource_noTmLnHostRcd m s v)
@[simp] theorem loseSource_up (s : Src) (v : Bool) : (loseSource s v m).up = m.up := noTmLnHostRcd_up (loseSource_noTmLnHostRcd m s v)
@[simp] theorem loseSource_sec (s : Src) (v : Bool) : (loseSource s v m).sec = m.sec := noTmLnHostRcd_sec (loseSource_noTmLnHostRcd m s v)
@[simp] theorem loseSource_pr (s : Src) (v : Bool) : (loseSource s v m).pr = m.pr := noTmLnHostRcd_pr (loseSource_noTmLnHostRcd m s v)
@[simp] theorem loseSource_stateOut (s : Src) (v : Bool) : (loseSource s v m).stateOut = m.stateOut := noTmLnHostRcd_stateOut (loseSource_noTmLnHostRcd m s v)

@[simp] theorem setValid_noTmLnHostRcd (s : Src) (v : Bool) : (setValid s v m).noTmLnHostRcd = m.noTmLnHostRcd := by
  unfold setValid; dsimp only; (repeat' split) <;> simp [Mod.noTmLnHostRcd]
@[simp] theorem setValid_powered (s : Src) (v : Bool) : (setValid s v m).powered = m.powered := noTmLnHostRcd_powered (setValid_noTmLnHostRcd m s v)
@[simp] theorem setValid_clk (s : Src) (v : Bool) : (setValid s v m).clk = m.clk := noTmLnHostRcd_clk (setValid_noTmLnHostRcd m s v)
@[simp] theorem setValid_freeN (s : Src) (v : Bool) : (setValid s v m).freeN = m.freeN := noTmLnHostRcd_freeN (setValid_noTmLnHostRcd m s v)
@[simp] theorem setValid_nv (s : Src) (v : Bool) : (setValid s v m).nv = m.nv := noTmLnHostRcd_nv (setValid_noTmLnHostRcd m s v)
@[simp] theorem setValid_cfg (s : Src) (v : Bool) : (setValid s v m).cfg = m.cfg := noTmLnHostRcd_cfg (setValid_noTmLnHostRcd m s v)
@[simp] theorem setValid_md (s : Src) (v : Bool) : (setValid s v m).md = m.md := noTmLnHostRcd_md (setValid_noTmLnHostRcd m s v)
@[simp] theorem setValid_pw (s : Src) (v : Bool) : (setValid s v m).pw = m.pw := noTmLnHostRcd_pw (setValid_noTmLnHostRcd m s v)
@[simp] theorem setValid_lg (s : Src) (v : Bool) : (setValid s v m).lg = m.lg := noTmLnHostRcd_lg (setValid_noTmLnHostRcd m s v)
@[simp] theorem setValid_cur (s : Src) (v : Bool) : (setValid s v m).cur = m.cur := noTmLnHostRcd_cur (setValid_noTmLnHostRcd m s v)
@[simp] theorem setValid_nxt (s : Src) (v : Bool) : (setValid s v m).nxt = m.nxt := noTmLnHostRcd_nxt (setValid_noTmLnHostRcd m s v)
@[simp] theorem setValid_en (s : Src) (v : Bool) : (setValid s v m).en = m.en := noTmLnHostRcd_en (setValid_noTmLnHostRcd m s v)
@[simp] theorem setValid_fio (s : Src) (v : Bool) : (setValid s v m).fio = m.fio := noTmLnHostRcd_fio (setValid_noTmLnHostRcd m s v)
@[simp] theorem setValid_bt (s : Src) (v : Bool) : (setValid s v m).bt = m.bt := noTmLnHostRcd_bt (setValid_noTmLnHostRcd m s v)
@[simp] theorem setValid_str (s : Src) (v : Bool) : (setValid s v m).str = m.str := noTmLnHostRcd_str (setValid_noTmLnHostRcd m s v)
@[simp] theorem setValid_can (s : Src) (v : Bool) : (setValid s v m).can = m.can := noTmLnHostRcd_can (setValid_noTmLnHostRcd m s v)
@[simp] theorem setValid_net (s : Src) (v : Bool) : (setValid s v m).net = m.net := noTmLnHostRcd_net (setValid_noTmLnHostRcd m s v)
@[simp] theorem setValid_rc (s : Src) (v : Bool) : (setValid s v m).rc = m.rc := noTmLnHostRcd_rc (setValid_noTmLnHostRcd m s v)
@[simp] theorem setValid_pc (s : Src) (v : Bool) : (setValid s v m).pc = m.pc := noTmLnHostRcd_pc (setValid_noTmLnHostRcd m s v)
@[simp] theorem setValid_up (s : Src) (v : Bool) : (setValid s v m).up = m.up := noTmLnHostRcd_up (setValid_noTmLnHostRcd m s v)
@[simp] theorem setValid_sec (s : Src) (v : Bool) : (setValid s v m).sec = m.sec := noTmLnHostRcd_sec (setValid_noTmLnHostRcd m s v)
@[simp] theorem setValid_pr (s : Src) (v : Bool) : (setValid s v m).pr = m.pr := noTmLnHostRcd_pr (setValid_noTmLnHostRcd m s v)
@[simp] theorem setValid_stateOut (s : Src) (v : Bool) : (setValid s v m).stateOut = m.stateOut := noTmLnHostRcd_stateOut (setValid_noTmLnHostRcd m s v)

@[simp] theorem dropOwnGun_noTmLnHostRcd : (dropOwnGun m).noTmLnHostRcd = m.noTmLnHostRcd := by
  unfold dropOwnGun; split <;> simp [Mod.noTmLnHostRcd]
@[simp] theorem dropOwnGun_powered : (dropOwnGun m).powered = m.powered := noTmLnHostRcd_powered (dropOwnGun_noTmLnHostRcd m)
@[simp] theorem dropOwnGun_clk : (dropOwnGun m).clk = m.clk := noTmLnHostRcd_clk (dropOwnGun_noTmLnHostRcd m)
@[simp] theorem dropOwnGun_freeN : (dropOwnGun m).freeN = m.freeN := noTmLnHostRcd_freeN (dropOwnGun_noTmLnHostRcd m)
@[simp] theorem dropOwnGun_nv : (dropOwnGun m).nv = m.nv := noTmLnHostRcd_nv (dropOwnGun_noTmLnHostRcd m)
@[simp] theorem dropOwnGun_cfg : (dropOwnGun m).cfg = m.cfg := noTmLnHostRcd_cfg (dropOwnGun_noTmLnHostRcd m)
@[simp] theorem dropOwnGun_md : (dropOwnGun m).md = m.md := noTmLnHostRcd_md (dropOwnGun_noTmLnHostRcd m)
@[simp] theorem dropOwnGun_pw : (dropOwnGun m).pw = m.pw := noTmLnHostRcd_pw (dropOwnGun_noTmLnHostRcd m)
@[simp] theorem dropOwnGun_lg : (dropOwnGun m).lg = m.lg := noTmLnHostRcd_lg (dropOwnGun_noTmLnHostRcd m)
@[simp] theorem dropOwnGun_cur : (dropOwnGun m).cur = m.cur := noTmLnHostRcd_cur (dropOwnGun_noTmLnHostRcd m)
@[simp] theorem dropOwnGun_nxt : (dropOwnGun m).nxt = m.nxt := noTmLnHostRcd_nxt (dropOwnGun_noTmLnHostRcd m)
@[simp] theorem dropOwnGun_en : (dropOwnGun m).en = m.en := noTmLnHostRcd_en (dropOwnGun_noTmLnHostRcd m)
@[simp] theorem dropOwnGun_fio : (dropOwnGun m).fio = m.fio := noTmLnHostRcd_fio (dropOwnGun_noTmLnHostRcd m)
@[simp] theorem dropOwnGun_bt : (dropOwnGun m).bt = m.bt := noTmLnHostRcd_bt (dropOwnGun_noTmLnHostRcd m)
@[simp] theorem dropOwnGun_str : (dropOwnGun m).str = m.str := noTmLnHostRcd_str (dropOwnGun_noTmLnHostRcd m)
@[simp] theorem dropOwnGun_can : (dropOwnGun m).can = m.can := noTmLnHostRcd_can (dropOwnGun_noTmLnHostRcd m)
@[simp] theorem dropOwnGun_net : (dropOwnGun m).net = m.net := noTmLnHostRcd_net (dropOwnGun_noTmLnHostRcd m)
@[simp] theorem dropOwnGun_rc : (dropOwnGun m).rc = m.rc := noTmLnHostRcd_rc (dropOwnGun_noTmLnHostRcd m)
@[simp] theorem dropOwnGun_pc : (dropOwnGun m).pc = m.pc := noTmLnHostRcd_pc (dropOwnGun_noTmLnHostRcd m)
@[simp] theorem dropOwnGun_up : (dropOwnGun m).up = m.up := noTmLnHostRcd_up (dropOwnGun_noTmLnHostRcd m)
@[simp] theorem dropOwnGun_sec : (dropOwnGun m).sec = m.sec := noTmLnHostRcd_sec (dropOwnGun_noTmLnHostRcd m)
@[simp] theorem dropOwnGun_pr : (dropOwnGun m).pr = m.pr := noTmLnHostRcd_pr (dropOwnGun_noTmLnHostRcd m)
@[simp] theorem dropOwnGun_stateOut : (dropOwnGun m).stateOut = m.stateOut := noTmLnHostRcd_stateOut (dropOwnGun_noTmLnHostRcd m)

@[simp] theorem preferPartner_noTmLnHostRcd : (preferPartner m).noTmLnHostRcd = m.noTmLnHostRcd := by
  unfold preferPartner; split <;> simp [Mod.noTmLnHostRcd]
@[simp] theorem preferPartner_powered : (preferPartner m).powered = m.powered := noTmLnHostRcd_powered (preferPartner_noTmLnHostRcd m)
@[simp] theorem preferPartner_clk : (preferPartner m).clk = m.clk := noTmLnHostRcd_clk (preferPartner_noTmLnHostRcd m)
@[simp] theorem preferPartner_freeN : (preferPartner m).freeN = m.freeN := noTmLnHostRcd_freeN (preferPartner_noTmLnHostRcd m)
@[simp] theorem preferPartner_nv : (preferPartner m).nv = m.nv := noTmLnHostRcd_nv (preferPartner_noTmLnHostRcd m)
@[simp] theorem preferPartner_cfg : (preferPartner m).cfg = m.cfg := noTmLnHostRcd_cfg (preferPartner_noTmLnHostRcd m)
@[simp] theorem preferPartner_md : (preferPartner m).md = m.md := noTmLnHostRcd_md (preferPartner_noTmLnHostRcd m)
@[simp] theorem preferPartner_pw : (preferPartner m).pw = m.pw := noTmLnHostRcd_pw (preferPartner_noTmLnHostRcd m)
@[simp] theorem preferPartner_lg : (preferPartner m).lg = m.lg := noTmLnHostRcd_lg (preferPartner_noTmLnHostRcd m)
@[simp] theorem preferPartner_cur : (preferPartner m).cur = m.cur := noTmLnHostRcd_cur (preferPartner_noTmLnHostRcd m)
@[simp] theorem preferPartner_nxt : (preferPartner m).nxt = m.nxt := noTmLnHostRcd_nxt (preferPartner_noTmLnHostRcd m)
@[simp] theorem preferPartner_en : (preferPartner m).en = m.en := noTmLnHostRcd_en (preferPartner_noTmLnHostRcd m)
@[simp] theorem preferPartner_fio : (preferPartner m).fio = m.fio := noTmLnHostRcd_fio (preferPartner_noTmLnHostRcd m)
@[simp] theorem preferPartner_bt : (preferPartner m).bt = m.bt := noTmLnHostRcd_bt (preferPartner_noTmLnHostRcd m)
@[simp] theorem preferPartner_str : (preferPartner m).str = m.str := noTmLnHostRcd_str (preferPartner_noTmLnHostRcd m)
@[simp] theorem preferPartner_can : (preferPartner m).can = m.can := noTmLnHostRcd_can (preferPartner_noTmLnHostRcd m)
@[simp] theorem preferPartner_net : (preferPartner m).net = m.net := noTmLnHostRcd_net (preferPartner_noTmLnHostRcd m)
@[simp] theorem preferPartner_rc : (preferPartner m).rc = m.rc := noTmLnHostRcd_rc (preferPartner_noTmLnHostRcd m)
@[simp] theorem preferPartner_pc : (preferPartner m).pc = m.pc := noTmLnHostRcd_pc (preferPartner_noTmLnHostRcd m)
@[simp] theorem preferPartner_up : (preferPartner m).up = m.up := noTmLnHostRcd_up (preferPartner_noTmLnHostRcd m)
@[simp] theorem preferPartner_sec : (preferPartner m).sec = m.sec := noTmLnHostRcd_sec (preferPartner_noTmLnHostRcd m)
@[simp] theorem preferPartner_pr : (preferPartner m).pr = m.pr := noTmLnHostRcd_pr (preferPartner_noTmLnHostRcd m)
@[simp] theorem preferPartner_stateOut : (preferPartner m).stateOut = m.stateOut := noTmLnHostRcd_stateOut (preferPartner_noTmLnHostRcd m)

@[simp] theorem measure_noTm (s : Src) (off : Int) : (measure s off m).noTm = m.noTm := by
  unfold measure; split <;> simp [Mod.noTm]
@[simp] theorem measure_powered (s : Src) (off : Int) : (measure s off m).powered = m.powered := noTm_powered (measure_noTm m s off)
@[simp] theorem measure_clk (s : Src) (off : Int) : (measure s off m).clk = m.clk := noTm_clk (measure_noTm m s off)
@[simp] theorem measure_freeN (s : Src) (off : Int) : (measure s off m).freeN = m.freeN := noTm_freeN (measure_noTm m s off)
@[simp] theorem measure_nv (s : Src) (off : Int) : (measure s off m).nv = m.nv := noTm_nv (measure_noTm m s off)
@[simp] theorem measure_cfg (s : Src) (off : Int) : (measure s off m).cfg = m.cfg := noTm_cfg (measure_noTm m s off)
@[simp] theorem measure_ln (s : Src) (off : Int) : (measure s off m).ln = m.ln := noTm_ln (measure_noTm m s off)
@[simp] theorem measure_md (s : Src) (off : Int) : (measure s off m).md = m.md := noTm_md (measure_noTm m s off)
@[simp] theorem measure_pw (s : Src) (off : Int) : (measure s off m).pw = m.pw := noTm_pw (measure_noTm m s off)
@[simp] theorem measure_lg (s : Src) (off : Int) : (measure s off m).lg = m.lg := noTm_lg (measure_noTm m s off)
@[simp] theorem measure_cur (s : Src) (off : Int) : (measure s off m).cur = m.cur := noTm_cur (measure_noTm m s off)
@[simp] theorem measure_nxt (s : Src) (off : Int) : (measure s off m).nxt = m.nxt := noTm_nxt (measure_noTm m s off)
@[simp] theorem measure_en (s : Src) (off : Int) : (measure s off m).en = m.en := noTm_en (measure_noTm m s off)
@[simp] theorem measure_fio (s : Src) (off : Int) : (measure s off m).fio = m.fio := noTm_fio (measure_noTm m s off)
@[simp] theorem measure_bt (s : Src) (off : Int) : (measure s off m).bt = m.bt := noTm_bt (measure_noTm m s off)
@[simp] theorem measure_str (s : Src) (off : Int) : (measure s off m).str = m.str := noTm_str (measure_noTm m s off)
@[simp] theorem measure_can (s : Src) (off : Int) : (measure s off m).can = m.can := noTm_can (measure_noTm m s off)
@[simp] theorem measure_net (s : Src) (off : Int) : (measure s off m).net = m.net := noTm_net (measure_noTm m s off)
@[simp] theorem measure_host (s : Src) (off : Int) : (measure s off m).host = m.host := noTm_host (measure_noTm m s off)
@[simp] theorem measure_rcd (s : Src) (off : Int) : (measure s off m).rcd = m.rcd := noTm_rcd (measure_noTm m s off)
@[simp] theorem measure_rc (s : Src) (off : Int) : (measure s off m).rc = m.rc := noTm_rc (measure_noTm m s off)
@[simp] theorem measure_pc (s : Src) (off : Int) : (measure s off m).pc = m.pc := noTm_pc (measure_noTm m s off)
@[simp] theorem measure_up (s : Src) (off : Int) : (measure s off m).up = m.up := noTm_up (measure_noTm m s off)
@[simp] theorem measure_sec (s : Src) (off : Int) : (measure s off m).sec = m.sec := noTm_sec (measure_noTm m s off)
@[simp] theorem measure_pr (s : Src) (off : Int) : (measure s off m).pr = m.pr := noTm_pr (measure_noTm m s off)
@[simp] theorem measure_stateOut (s : Src) (off : Int) : (measure s off m).stateOut = m.stateOut := noTm_stateOut (measure_noTm m s off)

@[simp] theorem noteLastGm_noTm (gm : PtpGm) : (noteLastGm gm m).noTm = m.noTm := by
  unfold noteLastGm; split <;> simp [Mod.noTm]
@[simp] theorem noteLastGm_powered (gm : PtpGm) : (noteLastGm gm m).powered = m.powered := noTm_powered (noteLastGm_noTm m gm)
@[simp] theorem noteLastGm_clk (gm : PtpGm) : (noteLastGm gm m).clk = m.clk := noTm_clk (noteLastGm_noTm m gm)
@[simp] theorem noteLastGm_freeN (gm : PtpGm) : (noteLastGm gm m).freeN = m.freeN := noTm_freeN (noteLastGm_noTm m gm)
@[simp] theorem noteLastGm_nv (gm : PtpGm) : (noteLastGm gm m).nv = m.nv := noTm_nv (noteLastGm_noTm m gm)
@[simp] theorem noteLastGm_cfg (gm : PtpGm) : (noteLastGm gm m).cfg = m.cfg := noTm_cfg (noteLastGm_noTm m gm)
@[simp] theorem noteLastGm_ln (gm : PtpGm) : (noteLastGm gm m).ln = m.ln := noTm_ln (noteLastGm_noTm m gm)
@[simp] theorem noteLastGm_md (gm : PtpGm) : (noteLastGm gm m).md = m.md := noTm_md (noteLastGm_noTm m gm)
@[simp] theorem noteLastGm_pw (gm : PtpGm) : (noteLastGm gm m).pw = m.pw := noTm_pw (noteLastGm_noTm m gm)
@[simp] theorem noteLastGm_lg (gm : PtpGm) : (noteLastGm gm m).lg = m.lg := noTm_lg (noteLastGm_noTm m gm)
@[simp] theorem noteLastGm_cur (gm : PtpGm) : (noteLastGm gm m).cur = m.cur := noTm_cur (noteLastGm_noTm m gm)
@[simp] theorem noteLastGm_nxt (gm : PtpGm) : (noteLastGm gm m).nxt = m.nxt := noTm_nxt (noteLastGm_noTm m gm)
@[simp] theorem noteLastGm_en (gm : PtpGm) : (noteLastGm gm m).en = m.en := noTm_en (noteLastGm_noTm m gm)
@[simp] theorem noteLastGm_fio (gm : PtpGm) : (noteLastGm gm m).fio = m.fio := noTm_fio (noteLastGm_noTm m gm)
@[simp] theorem noteLastGm_bt (gm : PtpGm) : (noteLastGm gm m).bt = m.bt := noTm_bt (noteLastGm_noTm m gm)
@[simp] theorem noteLastGm_str (gm : PtpGm) : (noteLastGm gm m).str = m.str := noTm_str (noteLastGm_noTm m gm)
@[simp] theorem noteLastGm_can (gm : PtpGm) : (noteLastGm gm m).can = m.can := noTm_can (noteLastGm_noTm m gm)
@[simp] theorem noteLastGm_net (gm : PtpGm) : (noteLastGm gm m).net = m.net := noTm_net (noteLastGm_noTm m gm)
@[simp] theorem noteLastGm_host (gm : PtpGm) : (noteLastGm gm m).host = m.host := noTm_host (noteLastGm_noTm m gm)
@[simp] theorem noteLastGm_rcd (gm : PtpGm) : (noteLastGm gm m).rcd = m.rcd := noTm_rcd (noteLastGm_noTm m gm)
@[simp] theorem noteLastGm_rc (gm : PtpGm) : (noteLastGm gm m).rc = m.rc := noTm_rc (noteLastGm_noTm m gm)
@[simp] theorem noteLastGm_pc (gm : PtpGm) : (noteLastGm gm m).pc = m.pc := noTm_pc (noteLastGm_noTm m gm)
@[simp] theorem noteLastGm_up (gm : PtpGm) : (noteLastGm gm m).up = m.up := noTm_up (noteLastGm_noTm m gm)
@[simp] theorem noteLastGm_sec (gm : PtpGm) : (noteLastGm gm m).sec = m.sec := noTm_sec (noteLastGm_noTm m gm)
@[simp] theorem noteLastGm_pr (gm : PtpGm) : (noteLastGm gm m).pr = m.pr := noTm_pr (noteLastGm_noTm m gm)
@[simp] theorem noteLastGm_stateOut (gm : PtpGm) : (noteLastGm gm m).stateOut = m.stateOut := noTm_stateOut (noteLastGm_noTm m gm)

@[simp] theorem judgePtp_noTmLnHostRcd : (judgePtp m).noTmLnHostRcd = m.noTmLnHostRcd := by
  unfold judgePtp; simp [Mod.noTmLnHostRcd]
@[simp] theorem judgePtp_powered : (judgePtp m).powered = m.powered := noTmLnHostRcd_powered (judgePtp_noTmLnHostRcd m)
@[simp] theorem judgePtp_clk : (judgePtp m).clk = m.clk := noTmLnHostRcd_clk (judgePtp_noTmLnHostRcd m)
@[simp] theorem judgePtp_freeN : (judgePtp m).freeN = m.freeN := noTmLnHostRcd_freeN (judgePtp_noTmLnHostRcd m)
@[simp] theorem judgePtp_nv : (judgePtp m).nv = m.nv := noTmLnHostRcd_nv (judgePtp_noTmLnHostRcd m)
@[simp] theorem judgePtp_cfg : (judgePtp m).cfg = m.cfg := noTmLnHostRcd_cfg (judgePtp_noTmLnHostRcd m)
@[simp] theorem judgePtp_md : (judgePtp m).md = m.md := noTmLnHostRcd_md (judgePtp_noTmLnHostRcd m)
@[simp] theorem judgePtp_pw : (judgePtp m).pw = m.pw := noTmLnHostRcd_pw (judgePtp_noTmLnHostRcd m)
@[simp] theorem judgePtp_lg : (judgePtp m).lg = m.lg := noTmLnHostRcd_lg (judgePtp_noTmLnHostRcd m)
@[simp] theorem judgePtp_cur : (judgePtp m).cur = m.cur := noTmLnHostRcd_cur (judgePtp_noTmLnHostRcd m)
@[simp] theorem judgePtp_nxt : (judgePtp m).nxt = m.nxt := noTmLnHostRcd_nxt (judgePtp_noTmLnHostRcd m)
@[simp] theorem judgePtp_en : (judgePtp m).en = m.en := noTmLnHostRcd_en (judgePtp_noTmLnHostRcd m)
@[simp] theorem judgePtp_fio : (judgePtp m).fio = m.fio := noTmLnHostRcd_fio (judgePtp_noTmLnHostRcd m)
@[simp] theorem judgePtp_bt : (judgePtp m).bt = m.bt := noTmLnHostRcd_bt (judgePtp_noTmLnHostRcd m)
@[simp] theorem judgePtp_str : (judgePtp m).str = m.str := noTmLnHostRcd_str (judgePtp_noTmLnHostRcd m)
@[simp] theorem judgePtp_can : (judgePtp m).can = m.can := noTmLnHostRcd_can (judgePtp_noTmLnHostRcd m)
@[simp] theorem judgePtp_net : (judgePtp m).net = m.net := noTmLnHostRcd_net (judgePtp_noTmLnHostRcd m)
@[simp] theorem judgePtp_rc : (judgePtp m).rc = m.rc := noTmLnHostRcd_rc (judgePtp_noTmLnHostRcd m)
@[simp] theorem judgePtp_pc : (judgePtp m).pc = m.pc := noTmLnHostRcd_pc (judgePtp_noTmLnHostRcd m)
@[simp] theorem judgePtp_up : (judgePtp m).up = m.up := noTmLnHostRcd_up (judgePtp_noTmLnHostRcd m)
@[simp] theorem judgePtp_sec : (judgePtp m).sec = m.sec := noTmLnHostRcd_sec (judgePtp_noTmLnHostRcd m)
@[simp] theorem judgePtp_pr : (judgePtp m).pr = m.pr := noTmLnHostRcd_pr (judgePtp_noTmLnHostRcd m)
@[simp] theorem judgePtp_stateOut : (judgePtp m).stateOut = m.stateOut := noTmLnHostRcd_stateOut (judgePtp_noTmLnHostRcd m)

@[simp] theorem ptpOffset_noTmLnHostRcd (d : Int) : (ptpOffset d m).noTmLnHostRcd = m.noTmLnHostRcd := by
  unfold ptpOffset; simp [Mod.noTmLnHostRcd]
@[simp] theorem ptpOffset_powered (d : Int) : (ptpOffset d m).powered = m.powered := noTmLnHostRcd_powered (ptpOffset_noTmLnHostRcd m d)
@[simp] theorem ptpOffset_clk (d : Int) : (ptpOffset d m).clk = m.clk := noTmLnHostRcd_clk (ptpOffset_noTmLnHostRcd m d)
@[simp] theorem ptpOffset_freeN (d : Int) : (ptpOffset d m).freeN = m.freeN := noTmLnHostRcd_freeN (ptpOffset_noTmLnHostRcd m d)
@[simp] theorem ptpOffset_nv (d : Int) : (ptpOffset d m).nv = m.nv := noTmLnHostRcd_nv (ptpOffset_noTmLnHostRcd m d)
@[simp] theorem ptpOffset_cfg (d : Int) : (ptpOffset d m).cfg = m.cfg := noTmLnHostRcd_cfg (ptpOffset_noTmLnHostRcd m d)
@[simp] theorem ptpOffset_md (d : Int) : (ptpOffset d m).md = m.md := noTmLnHostRcd_md (ptpOffset_noTmLnHostRcd m d)
@[simp] theorem ptpOffset_pw (d : Int) : (ptpOffset d m).pw = m.pw := noTmLnHostRcd_pw (ptpOffset_noTmLnHostRcd m d)
@[simp] theorem ptpOffset_lg (d : Int) : (ptpOffset d m).lg = m.lg := noTmLnHostRcd_lg (ptpOffset_noTmLnHostRcd m d)
@[simp] theorem ptpOffset_cur (d : Int) : (ptpOffset d m).cur = m.cur := noTmLnHostRcd_cur (ptpOffset_noTmLnHostRcd m d)
@[simp] theorem ptpOffset_nxt (d : Int) : (ptpOffset d m).nxt = m.nxt := noTmLnHostRcd_nxt (ptpOffset_noTmLnHostRcd m d)
@[simp] theorem ptpOffset_en (d : Int) : (ptpOffset d m).en = m.en := noTmLnHostRcd_en (ptpOffset_noTmLnHostRcd m d)
@[simp] theorem ptpOffset_fio (d : Int) : (ptpOffset d m).fio = m.fio := noTmLnHostRcd_fio (ptpOffset_noTmLnHostRcd m d)
@[simp] theorem ptpOffset_bt (d : Int) : (ptpOffset d m).bt = m.bt := noTmLnHostRcd_bt (ptpOffset_noTmLnHostRcd m d)
@[simp] theorem ptpOffset_str (d : Int) : (ptpOffset d m).str = m.str := noTmLnHostRcd_str (ptpOffset_noTmLnHostRcd m d)
@[simp] theorem ptpOffset_can (d : Int) : (ptpOffset d m).can = m.can := noTmLnHostRcd_can (ptpOffset_noTmLnHostRcd m d)
@[simp] theorem ptpOffset_net (d : Int) : (ptpOffset d m).net = m.net := noTmLnHostRcd_net (ptpOffset_noTmLnHostRcd m d)
@[simp] theorem ptpOffset_rc (d : Int) : (ptpOffset d m).rc = m.rc := noTmLnHostRcd_rc (ptpOffset_noTmLnHostRcd m d)
@[simp] theorem ptpOffset_pc (d : Int) : (ptpOffset d m).pc = m.pc := noTmLnHostRcd_pc (ptpOffset_noTmLnHostRcd m d)
@[simp] theorem ptpOffset_up (d : Int) : (ptpOffset d m).up = m.up := noTmLnHostRcd_up (ptpOffset_noTmLnHostRcd m d)
@[simp] theorem ptpOffset_sec (d : Int) : (ptpOffset d m).sec = m.sec := noTmLnHostRcd_sec (ptpOffset_noTmLnHostRcd m d)
@[simp] theorem ptpOffset_pr (d : Int) : (ptpOffset d m).pr = m.pr := noTmLnHostRcd_pr (ptpOffset_noTmLnHostRcd m d)
@[simp] theorem ptpOffset_stateOut (d : Int) : (ptpOffset d m).stateOut = m.stateOut := noTmLnHostRcd_stateOut (ptpOffset_noTmLnHostRcd m d)

@[simp] theorem ptpAnnounce_noTmLnHostRcd (gm : PtpGm) (log : Int) : (ptpAnnounce gm log m).noTmLnHostRcd = m.noTmLnHostRcd := by
  unfold ptpAnnounce; dsimp only; (repeat' split) <;> simp [Mod.noTmLnHostRcd]
@[simp] theorem ptpAnnounce_powered (gm : PtpGm) (log : Int) : (ptpAnnounce gm log m).powered = m.powered := noTmLnHostRcd_powered (ptpAnnounce_noTmLnHostRcd m gm log)
@[simp] theorem ptpAnnounce_clk (gm : PtpGm) (log : Int) : (ptpAnnounce gm log m).clk = m.clk := noTmLnHostRcd_clk (ptpAnnounce_noTmLnHostRcd m gm log)
@[simp] theorem ptpAnnounce_freeN (gm : PtpGm) (log : Int) : (ptpAnnounce gm log m).freeN = m.freeN := noTmLnHostRcd_freeN (ptpAnnounce_noTmLnHostRcd m gm log)
@[simp] theorem ptpAnnounce_nv (gm : PtpGm) (log : Int) : (ptpAnnounce gm log m).nv = m.nv := noTmLnHostRcd_nv (ptpAnnounce_noTmLnHostRcd m gm log)
@[simp] theorem ptpAnnounce_cfg (gm : PtpGm) (log : Int) : (ptpAnnounce gm log m).cfg = m.cfg := noTmLnHostRcd_cfg (ptpAnnounce_noTmLnHostRcd m gm log)
@[simp] theorem ptpAnnounce_md (gm : PtpGm) (log : Int) : (ptpAnnounce gm log m).md = m.md := noTmLnHostRcd_md (ptpAnnounce_noTmLnHostRcd m gm log)
@[simp] theorem ptpAnnounce_pw (gm : PtpGm) (log : Int) : (ptpAnnounce gm log m).pw = m.pw := noTmLnHostRcd_pw (ptpAnnounce_noTmLnHostRcd m gm log)
@[simp] theorem ptpAnnounce_lg (gm : PtpGm) (log : Int) : (ptpAnnounce gm log m).lg = m.lg := noTmLnHostRcd_lg (ptpAnnounce_noTmLnHostRcd m gm log)
@[simp] theorem ptpAnnounce_cur (gm : PtpGm) (log : Int) : (ptpAnnounce gm log m).cur = m.cur := noTmLnHostRcd_cur (ptpAnnounce_noTmLnHostRcd m gm log)
@[simp] theorem ptpAnnounce_nxt (gm : PtpGm) (log : Int) : (ptpAnnounce gm log m).nxt = m.nxt := noTmLnHostRcd_nxt (ptpAnnounce_noTmLnHostRcd m gm log)
@[simp] theorem ptpAnnounce_en (gm : PtpGm) (log : Int) : (ptpAnnounce gm log m).en = m.en := noTmLnHostRcd_en (ptpAnnounce_noTmLnHostRcd m gm log)
@[simp] theorem ptpAnnounce_fio (gm : PtpGm) (log : Int) : (ptpAnnounce gm log m).fio = m.fio := noTmLnHostRcd_fio (ptpAnnounce_noTmLnHostRcd m gm log)
@[simp] theorem ptpAnnounce_bt (gm : PtpGm) (log : Int) : (ptpAnnounce gm log m).bt = m.bt := noTmLnHostRcd_bt (ptpAnnounce_noTmLnHostRcd m gm log)
@[simp] theorem ptpAnnounce_str (gm : PtpGm) (log : Int) : (ptpAnnounce gm log m).str = m.str := noTmLnHostRcd_str (ptpAnnounce_noTmLnHostRcd m gm log)
@[simp] theorem ptpAnnounce_can (gm : PtpGm) (log : Int) : (ptpAnnounce gm log m).can = m.can := noTmLnHostRcd_can (ptpAnnounce_noTmLnHostRcd m gm log)
@[simp] theorem ptpAnnounce_net (gm : PtpGm) (log : Int) : (ptpAnnounce gm log m).net = m.net := noTmLnHostRcd_net (ptpAnnounce_noTmLnHostRcd m gm log)
@[simp] theorem ptpAnnounce_rc (gm : PtpGm) (log : Int) : (ptpAnnounce gm log m).rc = m.rc := noTmLnHostRcd_rc (ptpAnnounce_noTmLnHostRcd m gm log)
@[simp] theorem ptpAnnounce_pc (gm : PtpGm) (log : Int) : (ptpAnnounce gm log m).pc = m.pc := noTmLnHostRcd_pc (ptpAnnounce_noTmLnHostRcd m gm log)
@[simp] theorem ptpAnnounce_up (gm : PtpGm) (log : Int) : (ptpAnnounce gm log m).up = m.up := noTmLnHostRcd_up (ptpAnnounce_noTmLnHostRcd m gm log)
@[simp] theorem ptpAnnounce_sec (gm : PtpGm) (log : Int) : (ptpAnnounce gm log m).sec = m.sec := noTmLnHostRcd_sec (ptpAnnounce_noTmLnHostRcd m gm log)
@[simp] theorem ptpAnnounce_pr (gm : PtpGm) (log : Int) : (ptpAnnounce gm log m).pr = m.pr := noTmLnHostRcd_pr (ptpAnnounce_noTmLnHostRcd m gm log)
@[simp] theorem ptpAnnounce_stateOut (gm : PtpGm) (log : Int) : (ptpAnnounce gm log m).stateOut = m.stateOut := noTmLnHostRcd_stateOut (ptpAnnounce_noTmLnHostRcd m gm log)

@[simp] theorem doPtp_noTmLnHostRcd (msg : PtpMsg) : (doPtp msg m).noTmLnHostRcd = m.noTmLnHostRcd := by
  unfold doPtp; (repeat' split) <;> simp [Mod.noTmLnHostRcd]
@[simp] theorem doPtp_powered (msg : PtpMsg) : (doPtp msg m).powered = m.powered := noTmLnHostRcd_powered (doPtp_noTmLnHostRcd m msg)
@[simp] theorem doPtp_clk (msg : PtpMsg) : (doPtp msg m).clk = m.clk := noTmLnHostRcd_clk (doPtp_noTmLnHostRcd m msg)
@[simp] theorem doPtp_freeN (msg : PtpMsg) : (doPtp msg m).freeN = m.freeN := noTmLnHostRcd_freeN (doPtp_noTmLnHostRcd m msg)
@[simp] theorem doPtp_nv (msg : PtpMsg) : (doPtp msg m).nv = m.nv := noTmLnHostRcd_nv (doPtp_noTmLnHostRcd m msg)
@[simp] theorem doPtp_cfg (msg : PtpMsg) : (doPtp msg m).cfg = m.cfg := noTmLnHostRcd_cfg (doPtp_noTmLnHostRcd m msg)
@[simp] theorem doPtp_md (msg : PtpMsg) : (doPtp msg m).md = m.md := noTmLnHostRcd_md (doPtp_noTmLnHostRcd m msg)
@[simp] theorem doPtp_pw (msg : PtpMsg) : (doPtp msg m).pw = m.pw := noTmLnHostRcd_pw (doPtp_noTmLnHostRcd m msg)
@[simp] theorem doPtp_lg (msg : PtpMsg) : (doPtp msg m).lg = m.lg := noTmLnHostRcd_lg (doPtp_noTmLnHostRcd m msg)
@[simp] theorem doPtp_cur (msg : PtpMsg) : (doPtp msg m).cur = m.cur := noTmLnHostRcd_cur (doPtp_noTmLnHostRcd m msg)
@[simp] theorem doPtp_nxt (msg : PtpMsg) : (doPtp msg m).nxt = m.nxt := noTmLnHostRcd_nxt (doPtp_noTmLnHostRcd m msg)
@[simp] theorem doPtp_en (msg : PtpMsg) : (doPtp msg m).en = m.en := noTmLnHostRcd_en (doPtp_noTmLnHostRcd m msg)
@[simp] theorem doPtp_fio (msg : PtpMsg) : (doPtp msg m).fio = m.fio := noTmLnHostRcd_fio (doPtp_noTmLnHostRcd m msg)
@[simp] theorem doPtp_bt (msg : PtpMsg) : (doPtp msg m).bt = m.bt := noTmLnHostRcd_bt (doPtp_noTmLnHostRcd m msg)
@[simp] theorem doPtp_str (msg : PtpMsg) : (doPtp msg m).str = m.str := noTmLnHostRcd_str (doPtp_noTmLnHostRcd m msg)
@[simp] theorem doPtp_can (msg : PtpMsg) : (doPtp msg m).can = m.can := noTmLnHostRcd_can (doPtp_noTmLnHostRcd m msg)
@[simp] theorem doPtp_net (msg : PtpMsg) : (doPtp msg m).net = m.net := noTmLnHostRcd_net (doPtp_noTmLnHostRcd m msg)
@[simp] theorem doPtp_rc (msg : PtpMsg) : (doPtp msg m).rc = m.rc := noTmLnHostRcd_rc (doPtp_noTmLnHostRcd m msg)
@[simp] theorem doPtp_pc (msg : PtpMsg) : (doPtp msg m).pc = m.pc := noTmLnHostRcd_pc (doPtp_noTmLnHostRcd m msg)
@[simp] theorem doPtp_up (msg : PtpMsg) : (doPtp msg m).up = m.up := noTmLnHostRcd_up (doPtp_noTmLnHostRcd m msg)
@[simp] theorem doPtp_sec (msg : PtpMsg) : (doPtp msg m).sec = m.sec := noTmLnHostRcd_sec (doPtp_noTmLnHostRcd m msg)
@[simp] theorem doPtp_pr (msg : PtpMsg) : (doPtp msg m).pr = m.pr := noTmLnHostRcd_pr (doPtp_noTmLnHostRcd m msg)
@[simp] theorem doPtp_stateOut (msg : PtpMsg) : (doPtp msg m).stateOut = m.stateOut := noTmLnHostRcd_stateOut (doPtp_noTmLnHostRcd m msg)

@[simp] theorem refuseSrc_noTmLnHostRcd (s : Src) : (refuseSrc s m).noTmLnHostRcd = m.noTmLnHostRcd := by
  unfold refuseSrc; simp [Mod.noTmLnHostRcd]
@[simp] theorem refuseSrc_powered (s : Src) : (refuseSrc s m).powered = m.powered := noTmLnHostRcd_powered (refuseSrc_noTmLnHostRcd m s)
@[simp] theorem refuseSrc_clk (s : Src) : (refuseSrc s m).clk = m.clk := noTmLnHostRcd_clk (refuseSrc_noTmLnHostRcd m s)
@[simp] theorem refuseSrc_freeN (s : Src) : (refuseSrc s m).freeN = m.freeN := noTmLnHostRcd_freeN (refuseSrc_noTmLnHostRcd m s)
@[simp] theorem refuseSrc_nv (s : Src) : (refuseSrc s m).nv = m.nv := noTmLnHostRcd_nv (refuseSrc_noTmLnHostRcd m s)
@[simp] theorem refuseSrc_cfg (s : Src) : (refuseSrc s m).cfg = m.cfg := noTmLnHostRcd_cfg (refuseSrc_noTmLnHostRcd m s)
@[simp] theorem refuseSrc_md (s : Src) : (refuseSrc s m).md = m.md := noTmLnHostRcd_md (refuseSrc_noTmLnHostRcd m s)
@[simp] theorem refuseSrc_pw (s : Src) : (refuseSrc s m).pw = m.pw := noTmLnHostRcd_pw (refuseSrc_noTmLnHostRcd m s)
@[simp] theorem refuseSrc_lg (s : Src) : (refuseSrc s m).lg = m.lg := noTmLnHostRcd_lg (refuseSrc_noTmLnHostRcd m s)
@[simp] theorem refuseSrc_cur (s : Src) : (refuseSrc s m).cur = m.cur := noTmLnHostRcd_cur (refuseSrc_noTmLnHostRcd m s)
@[simp] theorem refuseSrc_nxt (s : Src) : (refuseSrc s m).nxt = m.nxt := noTmLnHostRcd_nxt (refuseSrc_noTmLnHostRcd m s)
@[simp] theorem refuseSrc_en (s : Src) : (refuseSrc s m).en = m.en := noTmLnHostRcd_en (refuseSrc_noTmLnHostRcd m s)
@[simp] theorem refuseSrc_fio (s : Src) : (refuseSrc s m).fio = m.fio := noTmLnHostRcd_fio (refuseSrc_noTmLnHostRcd m s)
@[simp] theorem refuseSrc_bt (s : Src) : (refuseSrc s m).bt = m.bt := noTmLnHostRcd_bt (refuseSrc_noTmLnHostRcd m s)
@[simp] theorem refuseSrc_str (s : Src) : (refuseSrc s m).str = m.str := noTmLnHostRcd_str (refuseSrc_noTmLnHostRcd m s)
@[simp] theorem refuseSrc_can (s : Src) : (refuseSrc s m).can = m.can := noTmLnHostRcd_can (refuseSrc_noTmLnHostRcd m s)
@[simp] theorem refuseSrc_net (s : Src) : (refuseSrc s m).net = m.net := noTmLnHostRcd_net (refuseSrc_noTmLnHostRcd m s)
@[simp] theorem refuseSrc_rc (s : Src) : (refuseSrc s m).rc = m.rc := noTmLnHostRcd_rc (refuseSrc_noTmLnHostRcd m s)
@[simp] theorem refuseSrc_pc (s : Src) : (refuseSrc s m).pc = m.pc := noTmLnHostRcd_pc (refuseSrc_noTmLnHostRcd m s)
@[simp] theorem refuseSrc_up (s : Src) : (refuseSrc s m).up = m.up := noTmLnHostRcd_up (refuseSrc_noTmLnHostRcd m s)
@[simp] theorem refuseSrc_sec (s : Src) : (refuseSrc s m).sec = m.sec := noTmLnHostRcd_sec (refuseSrc_noTmLnHostRcd m s)
@[simp] theorem refuseSrc_pr (s : Src) : (refuseSrc s m).pr = m.pr := noTmLnHostRcd_pr (refuseSrc_noTmLnHostRcd m s)
@[simp] theorem refuseSrc_stateOut (s : Src) : (refuseSrc s m).stateOut = m.stateOut := noTmLnHostRcd_stateOut (refuseSrc_noTmLnHostRcd m s)

@[simp] theorem servoSrc_noTmLnHostRcd (s : Src) : (servoSrc s m).noTmLnHostRcd = m.noTmLnHostRcd := by
  unfold servoSrc; dsimp only; (repeat' split) <;> simp [Mod.noTmLnHostRcd]
@[simp] theorem servoSrc_powered (s : Src) : (servoSrc s m).powered = m.powered := noTmLnHostRcd_powered (servoSrc_noTmLnHostRcd m s)
@[simp] theorem servoSrc_clk (s : Src) : (servoSrc s m).clk = m.clk := noTmLnHostRcd_clk (servoSrc_noTmLnHostRcd m s)
@[simp] theorem servoSrc_freeN (s : Src) : (servoSrc s m).freeN = m.freeN := noTmLnHostRcd_freeN (servoSrc_noTmLnHostRcd m s)
@[simp] theorem servoSrc_nv (s : Src) : (servoSrc s m).nv = m.nv := noTmLnHostRcd_nv (servoSrc_noTmLnHostRcd m s)
@[simp] theorem servoSrc_cfg (s : Src) : (servoSrc s m).cfg = m.cfg := noTmLnHostRcd_cfg (servoSrc_noTmLnHostRcd m s)
@[simp] theorem servoSrc_md (s : Src) : (servoSrc s m).md = m.md := noTmLnHostRcd_md (servoSrc_noTmLnHostRcd m s)
@[simp] theorem servoSrc_pw (s : Src) : (servoSrc s m).pw = m.pw := noTmLnHostRcd_pw (servoSrc_noTmLnHostRcd m s)
@[simp] theorem servoSrc_lg (s : Src) : (servoSrc s m).lg = m.lg := noTmLnHostRcd_lg (servoSrc_noTmLnHostRcd m s)
@[simp] theorem servoSrc_cur (s : Src) : (servoSrc s m).cur = m.cur := noTmLnHostRcd_cur (servoSrc_noTmLnHostRcd m s)
@[simp] theorem servoSrc_nxt (s : Src) : (servoSrc s m).nxt = m.nxt := noTmLnHostRcd_nxt (servoSrc_noTmLnHostRcd m s)
@[simp] theorem servoSrc_en (s : Src) : (servoSrc s m).en = m.en := noTmLnHostRcd_en (servoSrc_noTmLnHostRcd m s)
@[simp] theorem servoSrc_fio (s : Src) : (servoSrc s m).fio = m.fio := noTmLnHostRcd_fio (servoSrc_noTmLnHostRcd m s)
@[simp] theorem servoSrc_bt (s : Src) : (servoSrc s m).bt = m.bt := noTmLnHostRcd_bt (servoSrc_noTmLnHostRcd m s)
@[simp] theorem servoSrc_str (s : Src) : (servoSrc s m).str = m.str := noTmLnHostRcd_str (servoSrc_noTmLnHostRcd m s)
@[simp] theorem servoSrc_can (s : Src) : (servoSrc s m).can = m.can := noTmLnHostRcd_can (servoSrc_noTmLnHostRcd m s)
@[simp] theorem servoSrc_net (s : Src) : (servoSrc s m).net = m.net := noTmLnHostRcd_net (servoSrc_noTmLnHostRcd m s)
@[simp] theorem servoSrc_rc (s : Src) : (servoSrc s m).rc = m.rc := noTmLnHostRcd_rc (servoSrc_noTmLnHostRcd m s)
@[simp] theorem servoSrc_pc (s : Src) : (servoSrc s m).pc = m.pc := noTmLnHostRcd_pc (servoSrc_noTmLnHostRcd m s)
@[simp] theorem servoSrc_up (s : Src) : (servoSrc s m).up = m.up := noTmLnHostRcd_up (servoSrc_noTmLnHostRcd m s)
@[simp] theorem servoSrc_sec (s : Src) : (servoSrc s m).sec = m.sec := noTmLnHostRcd_sec (servoSrc_noTmLnHostRcd m s)
@[simp] theorem servoSrc_pr (s : Src) : (servoSrc s m).pr = m.pr := noTmLnHostRcd_pr (servoSrc_noTmLnHostRcd m s)
@[simp] theorem servoSrc_stateOut (s : Src) : (servoSrc s m).stateOut = m.stateOut := noTmLnHostRcd_stateOut (servoSrc_noTmLnHostRcd m s)

@[simp] theorem driftLane_noLnHostRcd (ppb : PerLane Int) (adev : PerLane Nat) (l : LaneId) : (driftLane ppb adev l m).noLnHostRcd = m.noLnHostRcd := by
  have h : ∀ (c : Bool) (y : EvArgs) (x : Mod), (onlyIf c (raise 0x47 y) x).noLnHostRcd = x.noLnHostRcd := fun c y x => onlyIf_keeps x Mod.noLnHostRcd c _ (by simp [Mod.noLnHostRcd])
  have h2 : ∀ (g : Lane → Lane) (l : LaneId) (x : Mod), (updLane l g x).noLnHostRcd = x.noLnHostRcd := fun _ _ _ => rfl
  have h3 : ∀ (c : Nat) (y : EvArgs) (x : Mod), (raise c y x).noLnHostRcd = x.noLnHostRcd := fun c y x => by simp [Mod.noLnHostRcd]
  unfold driftLane; dsimp only; split
  · rfl
  · split
    · rw [h3, h2, h, h2]
    · rw [h, h2]
@[simp] theorem driftLane_powered (ppb : PerLane Int) (adev : PerLane Nat) (l : LaneId) : (driftLane ppb adev l m).powered = m.powered := noLnHostRcd_powered (driftLane_noLnHostRcd m ppb adev l)
@[simp] theorem driftLane_clk (ppb : PerLane Int) (adev : PerLane Nat) (l : LaneId) : (driftLane ppb adev l m).clk = m.clk := noLnHostRcd_clk (driftLane_noLnHostRcd m ppb adev l)
@[simp] theorem driftLane_freeN (ppb : PerLane Int) (adev : PerLane Nat) (l : LaneId) : (driftLane ppb adev l m).freeN = m.freeN := noLnHostRcd_freeN (driftLane_noLnHostRcd m ppb adev l)
@[simp] theorem driftLane_nv (ppb : PerLane Int) (adev : PerLane Nat) (l : LaneId) : (driftLane ppb adev l m).nv = m.nv := noLnHostRcd_nv (driftLane_noLnHostRcd m ppb adev l)
@[simp] theorem driftLane_cfg (ppb : PerLane Int) (adev : PerLane Nat) (l : LaneId) : (driftLane ppb adev l m).cfg = m.cfg := noLnHostRcd_cfg (driftLane_noLnHostRcd m ppb adev l)
@[simp] theorem driftLane_tm (ppb : PerLane Int) (adev : PerLane Nat) (l : LaneId) : (driftLane ppb adev l m).tm = m.tm := noLnHostRcd_tm (driftLane_noLnHostRcd m ppb adev l)
@[simp] theorem driftLane_md (ppb : PerLane Int) (adev : PerLane Nat) (l : LaneId) : (driftLane ppb adev l m).md = m.md := noLnHostRcd_md (driftLane_noLnHostRcd m ppb adev l)
@[simp] theorem driftLane_pw (ppb : PerLane Int) (adev : PerLane Nat) (l : LaneId) : (driftLane ppb adev l m).pw = m.pw := noLnHostRcd_pw (driftLane_noLnHostRcd m ppb adev l)
@[simp] theorem driftLane_lg (ppb : PerLane Int) (adev : PerLane Nat) (l : LaneId) : (driftLane ppb adev l m).lg = m.lg := noLnHostRcd_lg (driftLane_noLnHostRcd m ppb adev l)
@[simp] theorem driftLane_cur (ppb : PerLane Int) (adev : PerLane Nat) (l : LaneId) : (driftLane ppb adev l m).cur = m.cur := noLnHostRcd_cur (driftLane_noLnHostRcd m ppb adev l)
@[simp] theorem driftLane_nxt (ppb : PerLane Int) (adev : PerLane Nat) (l : LaneId) : (driftLane ppb adev l m).nxt = m.nxt := noLnHostRcd_nxt (driftLane_noLnHostRcd m ppb adev l)
@[simp] theorem driftLane_en (ppb : PerLane Int) (adev : PerLane Nat) (l : LaneId) : (driftLane ppb adev l m).en = m.en := noLnHostRcd_en (driftLane_noLnHostRcd m ppb adev l)
@[simp] theorem driftLane_fio (ppb : PerLane Int) (adev : PerLane Nat) (l : LaneId) : (driftLane ppb adev l m).fio = m.fio := noLnHostRcd_fio (driftLane_noLnHostRcd m ppb adev l)
@[simp] theorem driftLane_bt (ppb : PerLane Int) (adev : PerLane Nat) (l : LaneId) : (driftLane ppb adev l m).bt = m.bt := noLnHostRcd_bt (driftLane_noLnHostRcd m ppb adev l)
@[simp] theorem driftLane_str (ppb : PerLane Int) (adev : PerLane Nat) (l : LaneId) : (driftLane ppb adev l m).str = m.str := noLnHostRcd_str (driftLane_noLnHostRcd m ppb adev l)
@[simp] theorem driftLane_can (ppb : PerLane Int) (adev : PerLane Nat) (l : LaneId) : (driftLane ppb adev l m).can = m.can := noLnHostRcd_can (driftLane_noLnHostRcd m ppb adev l)
@[simp] theorem driftLane_net (ppb : PerLane Int) (adev : PerLane Nat) (l : LaneId) : (driftLane ppb adev l m).net = m.net := noLnHostRcd_net (driftLane_noLnHostRcd m ppb adev l)
@[simp] theorem driftLane_rc (ppb : PerLane Int) (adev : PerLane Nat) (l : LaneId) : (driftLane ppb adev l m).rc = m.rc := noLnHostRcd_rc (driftLane_noLnHostRcd m ppb adev l)
@[simp] theorem driftLane_pc (ppb : PerLane Int) (adev : PerLane Nat) (l : LaneId) : (driftLane ppb adev l m).pc = m.pc := noLnHostRcd_pc (driftLane_noLnHostRcd m ppb adev l)
@[simp] theorem driftLane_up (ppb : PerLane Int) (adev : PerLane Nat) (l : LaneId) : (driftLane ppb adev l m).up = m.up := noLnHostRcd_up (driftLane_noLnHostRcd m ppb adev l)
@[simp] theorem driftLane_sec (ppb : PerLane Int) (adev : PerLane Nat) (l : LaneId) : (driftLane ppb adev l m).sec = m.sec := noLnHostRcd_sec (driftLane_noLnHostRcd m ppb adev l)
@[simp] theorem driftLane_pr (ppb : PerLane Int) (adev : PerLane Nat) (l : LaneId) : (driftLane ppb adev l m).pr = m.pr := noLnHostRcd_pr (driftLane_noLnHostRcd m ppb adev l)
@[simp] theorem driftLane_stateOut (ppb : PerLane Int) (adev : PerLane Nat) (l : LaneId) : (driftLane ppb adev l m).stateOut = m.stateOut := noLnHostRcd_stateOut (driftLane_noLnHostRcd m ppb adev l)

end Sys2Proof.Machine
end

