-- ==== Sys2Proof/Laws/Opened.lean ====
section
/-! SUPPORT. The safe state is kept: which operations leave every switch open (R22, R34, R35). -/

namespace Sys2Proof.Machine

/-- With every switch open no channel is energised (R22). -/
theorem off_of_opened {m : Mod} (h : AllOpened m) : AllOff m := by
  intro k
  have hc : ∀ l p, laneClosesIn m l p k = false := fun l p => by simp [laneClosesIn, Lane.drivesPair, h l]
  simp [energised, hc]

theorem enterHalt_keeps_opened (c : Nat) (m : Mod) (h : AllOpened m) : AllOpened (enterHalt c m) := by
  by_cases h1 : m.md.mode = .halt
  · rwa [enterHalt_again m c (Or.inl h1)]
  · by_cases h2 : m.md.mode = .recovery
    · rwa [enterHalt_again m c (Or.inr h2)]
    · exact enterHalt_opened m c h1 h2

theorem opened_of_ln {m n : Mod} (h : n.ln = m.ln) (hm : AllOpened m) : AllOpened n := by
  intro l; rw [h]; exact hm l

theorem onlyIf_inv (P : Mod → Prop) (c : Bool) (f : Mod → Mod) (m : Mod) (h : P m → P (f m)) (hm : P m) : P (onlyIf c f m) := by
  cases c
  · exact hm
  · exact h hm

theorem updLane_opened (l : LaneId) (f : Lane → Lane) (m : Mod) (hf : ∀ x, x.opened = true → (f x).opened = true) (h : AllOpened m) :
    AllOpened (updLane l f m) := by
  intro x
  simp only [updLane_ln]
  by_cases hx : x = l
  · subst hx; simp; exact hf _ (h x)
  · rw [PerLane.get_modify_ne _ _ _ _ hx]; exact h x

theorem updLanes_opened (f : LaneId → Lane → Lane) (m : Mod) (hf : ∀ l x, x.opened = true → (f l x).opened = true) (h : AllOpened m) :
    AllOpened (updLanes f m) := by
  intro x; simp; exact hf _ _ (h x)

theorem alarm_opened (t l : Nat) (m : Mod) (h : AllOpened m) : AllOpened (alarm t l m) := by
  unfold alarm; dsimp only
  split
  · exact opened_of_ln (by simp) h
  · split
    · exact opened_of_ln (by simp) h
    · apply enterHalt_keeps_opened; split <;> exact opened_of_ln (by simp) h

theorem alarmAll_opened (t : Nat) (m : Mod) (h : AllOpened m) : AllOpened (alarmAll t m) := by
  unfold alarmAll; dsimp only
  apply alarm_opened
  exact forEach_inv AllOpened _ _ _ (fun l n hn => updLane_opened _ _ _ (fun _ hx => hx) hn) h

theorem step1_opened (p : Bool) (prev : Nat) (env : StartEnv) (m : Mod) (h : AllOpened m) : AllOpened (startStep1 p prev env m) := by
  unfold startStep1; dsimp only
  apply onlyIf_inv AllOpened _ _ _ (alarmAll_opened 1 _)
  apply onlyIf_inv AllOpened _ _ _ (fun h => opened_of_ln (by simp) h)
  apply onlyIf_inv AllOpened _ _ _ (fun h => opened_of_ln (by simp) h)
  refine opened_of_ln (updRcd_ln _ _) (onlyIf_inv AllOpened _ _ _ (fun h => opened_of_ln (by simp) h) ?_)
  exact opened_of_ln (by simp) h

theorem step2_opened (env : StartEnv) (m : Mod) (h : AllOpened m) : AllOpened (startStep2 env m) := by
  have h1 : AllOpened (noteBist env m) :=
    opened_of_ln (m := updLanes (fun l x => { x with usable := bistPass m env l }) m) rfl (updLanes_opened _ _ (fun _ _ h => h) h)
  have h2 : ∀ (a : List LaneId) (b : List Nat) (c : Nat) (x : Mod), AllOpened x → AllOpened (tellBist a b c x) := fun a b c x hx => by
    unfold tellBist
    refine forEach_inv AllOpened _ _ _ (fun l n hn => opened_of_ln (raise_ln _ _ _) ?_) (forEach_inv AllOpened _ _ _ (fun b n hn =>
      opened_of_ln (raise_ln _ _ _) hn) hx)
    unfold recordExcl; exact updLanes_opened _ _ (fun _ _ h => by dsimp only; split <;> exact h) hn
  have h4 : ∀ (x : Mod), AllOpened x → AllOpened (forEach allLanes (planLane env) x) := fun x hx =>
    forEach_inv AllOpened _ _ _ (fun l n hn => by
      unfold planLane; dsimp only
      exact onlyIf_inv AllOpened _ _ _ (fun h => opened_of_ln (by simp) h) (updLane_opened _ _ _ (fun x hx => (noClock_opened (pcCount_noClock _ _ _ _ _)).trans hx) hn)) hx
  have h5 : ∀ (a : List Nat) (b : Nat) (x : Mod), AllOpened x → AllOpened (leaveOut env a b x) := fun a b x hx => opened_of_ln (by simp) hx
  unfold startStep2; split
  · exact h
  · split
    · exact enterHalt_keeps_opened _ _ h1
    · split
      · exact enterHalt_keeps_opened _ _ h1
      · dsimp only; split
        · exact enterHalt_keeps_opened _ _ (h5 _ _ _ (h4 _ (h2 _ _ _ _ h1)))
        · exact h5 _ _ _ (h4 _ (h2 _ _ _ _ h1))

theorem migrate_opened (env : StartEnv) (m : Mod) (h : AllOpened m) : AllOpened (migrate env m).2.2 := by
  have hh : ∀ (xs : List LaneId) (a : Nat × Mod), AllOpened a.2 →
      AllOpened (xs.foldl (fun (acc : Nat × Mod) l => let r := migrateLane env l acc.2; (if r.1 then acc.1 else acc.1 + 2 ^ laneNo l, r.2)) a).2 := by
    intro xs
    induction xs with
    | nil => intro a ha; exact ha
    | cons l r ih =>
      intro a ha
      rw [List.foldl_cons]; apply ih
      dsimp only [migrateLane]; split
      · exact updLane_opened _ _ _ (fun _ hx => hx) ha
      · exact ha
  unfold migrate; dsimp only
  (repeat' split) <;> exact hh _ _ h

theorem step3_opened (env : StartEnv) (m : Mod) (h : AllOpened m) : AllOpened (startStep3 env m) := by
  unfold startStep3; split
  · exact h
  · have h1 : AllOpened (startFloor env m) := by
      unfold startFloor; exact opened_of_ln (m := updLanes (fun l x => { x with mesh := env.mesh.get l, envOk := env.envOk.get l }) m) rfl (updLanes_opened _ _ (fun _ _ h => h) h)
    have h2 : ∀ x, AllOpened x → AllOpened (holdOut x) := fun x hx =>
      forEach_inv AllOpened _ _ _ (fun l n hn => updLane_opened l (fun x => { x with heldOut := true, usable := false }) n (fun _ hx => hx) hn)
        (forEach_inv AllOpened _ _ _ (fun l n hn => opened_of_ln (raise_ln _ _ _) hn) hx)
    dsimp only; split
    · exact enterHalt_keeps_opened _ _ (h2 _ h1)
    · unfold startLifecycle; dsimp only
      have h3 : ∀ ls, AllOpened (agreeLifecycle ls (holdOut (startFloor env m))) := by
        intro ls; unfold agreeLifecycle
        exact onlyIf_inv AllOpened _ _ _ (alarmAll_opened 11 _) (opened_of_ln rfl (h2 _ h1))
      split
      · exact h3 _
      · split
        · exact enterHalt_keeps_opened _ _ (h3 _)
        · unfold startMigrate; dsimp only
          have h4 := migrate_opened env _ (h3 (aliveLanes (startFloor env m)))
          split
          · unfold migrationFails; apply enterHalt_keeps_opened; exact opened_of_ln (by simp [fellBack]) h4
          · unfold takeUp; dsimp only
            exact opened_of_ln (by simp; rfl) (updLanes_opened (fun _ x => if x.alive then throughUnit2 _ { x with vset := _ } else x) _ (fun _ _ h => by split <;> exact h) h4)

end Sys2Proof.Machine
end

