-- ==== Sys2Proof/Laws/Told.lean ====
section
/-! SUPPORT. What raising an event tells: the record the recorder takes, and the agreed event that waits for phase 16,000. -/

namespace Sys2Proof.Machine

/-- A command that runs `f` on a powered module does what `f` does. -/
theorem does_of_run {c : Instr} {s : State} {P : Mod → Prop} (f : Mod → Mod) (h : exec c s = s.run f) (hp : s.m.powered = true)
    (hP : P (f s.m)) : Does c s P := ⟨f s.m, h.trans (State.run_powered f s hp), hP⟩

/-- An accepted record stands last among the dirty ones. -/
theorem recAccept_dirty (m : Mod) (kind src code : Nat) (priv : Bool) (n : Nat) (body : List Byte)
    (h1 : m.rcd.stopped = false) (h2 : m.rcd.unusable = false) (h3 : recRoom priv m = true)
    (h4 : tabFind m.rcd.drops src = none) : (recAccept kind src code priv n body m).rcd.dirty = m.rcd.dirty ++
      [{ record := { kind := kind, src := src, code := code, privileged := priv, podium := false, rseq := tabGet 0 m.rcd.seq src, scn := n,
                     opsec := if priv then satN 0xFFFFFFFF (m.clk / 1000000000) else 0,
                     pcyc := if priv then m.nv.store.pcyc else 0, body := body }, at_ := m.clk }] := by
  simp [recAccept, h1, h2, h3, h4]

theorem closeRun_none (m : Mod) (priv : Bool) (src : Nat) (h : tabFind m.rcd.drops src = none) : closeRun priv src m = m := by
  simp [closeRun, h]

/-- An event that is raised when the recorder takes records is recorded as R508 lays it out. -/
theorem raise_dirty (m : Mod) (code : Nat) (x : EvArgs) (hv : x.src ≠ 0 ∨ votes m = true)
    (h : recReady (isPrivileged code) x.src m = true) :
    (raise code x m).rcd.dirty = m.rcd.dirty ++ [recordOf (eventOf code x m) m] := by
  simp only [recReady, Bool.and_eq_true, Bool.not_eq_true', Option.isNone_iff_eq_none] at h
  obtain ⟨⟨⟨h1, h2⟩, h3⟩, h4⟩ := h
  have hg : (x.src == 0 && decide ((aliveLanes m).length < 2) && operating m) = false := by
    rcases hv with hv | hv
    · simp [hv]
    · simp only [votes, Bool.and_eq_true, decide_eq_true_eq] at hv
      have : ¬ (aliveLanes m).length < 2 := by omega
      simp [this]
  simp only [raise, hg, Bool.false_eq_true, if_false, closeRun_none m _ x.src h4, raiseRaw]
  split <;> simp only [updHost_rcd, produce_rcd, recAccept_dirty _ _ _ _ _ _ _ h1 h2 h3 h4] <;> rfl

theorem recAccept_operating (m : Mod) (kind src code : Nat) (priv : Bool) (n : Nat) (body : List Byte) :
    operating (recAccept kind src code priv n body m) = operating m := by simp [operating, mode]

/-- An agreed event waits for phase 16,000 behind those that wait already (R445). -/
theorem raise_evWait (m : Mod) (code : Nat) (x : EvArgs) (hx : x.src = 0) (hv : votes m = true) :
    (raise code x m).host.evWait = m.host.evWait ++ [eventOf code x m] := by
  simp only [votes, Bool.and_eq_true, decide_eq_true_eq] at hv
  obtain ⟨ho, ha⟩ := hv
  have : ¬ (aliveLanes m).length < 2 := by omega
  have h2 : operating (closeRun (isPrivileged code) x.src m) = true := by simpa [operating, mode] using ho
  simp [raise, hx, this, raiseRaw, eventOf]
  simp [hx] at h2
  rw [if_pos h2]; simp [closeRun_host_evWait]

/-- An event with a source of its own leaves those that wait alone. -/
theorem raise_evWait_own (m : Mod) (code : Nat) (x : EvArgs) (hx : x.src ≠ 0) : (raise code x m).host.evWait = m.host.evWait := by
  simp [raise, hx, raiseRaw, produce_host_evWait, closeRun_host_evWait]

/-- Where no agreed event can be formed, none is told (R435). -/
theorem raise_unformed (m : Mod) (code : Nat) (x : EvArgs) (hx : x.src = 0) (ho : operating m = true)
    (ha : (aliveLanes m).length < 2) : raise code x m = m := by
  simp [raise, hx, ho, ha]

/-! ## The same moment -/

/-- What an event shows of the moment: running lanes, station time, operating time, modes, recorder and power cycle. -/
def SameMoment (m n : Mod) : Prop :=
  aliveLanes n = aliveLanes m ∧ now n = now m ∧ n.clk = m.clk ∧ n.md.mode = m.md.mode ∧ n.rcd = m.rcd ∧
    n.nv.store.pcyc = m.nv.store.pcyc ∧ n.host.evWait = m.host.evWait

theorem aliveLanes_congr {m n : Mod} (h : ∀ l, (n.ln.get l).alive = (m.ln.get l).alive) : aliveLanes n = aliveLanes m := by
  unfold aliveLanes; congr 1; funext l; exact h l

theorem now_congr {m n : Mod} (h : ∀ l, (n.ln.get l).alive = (m.ln.get l).alive) (ht : ∀ l, (n.ln.get l).time = (m.ln.get l).time) :
    now n = now m := by
  unfold now refLane; rw [aliveLanes_congr h, ht]

theorem sameMoment_of {m n : Mod} (h1 : ∀ l, (n.ln.get l).alive = (m.ln.get l).alive) (h2 : ∀ l, (n.ln.get l).time = (m.ln.get l).time)
    (h3 : n.clk = m.clk) (h4 : n.md.mode = m.md.mode) (h5 : n.rcd = m.rcd) (h6 : n.nv.store.pcyc = m.nv.store.pcyc)
    (h7 : n.host.evWait = m.host.evWait) : SameMoment m n :=
  ⟨aliveLanes_congr h1, now_congr h1 h2, h3, h4, h5, h6, h7⟩

theorem SameMoment.refl (m : Mod) : SameMoment m m := ⟨rfl, rfl, rfl, rfl, rfl, rfl, rfl⟩

/-- An event raised at the same moment shows what it would have shown before. -/
theorem tellsAlone_raise {m n : Mod} (code : Nat) (x : EvArgs) (hx : x.src ≠ 0) (h : SameMoment m n) :
    TellsAlone code x m (raise code x n) := by
  obtain ⟨-, h2, h3, -, h5, h6, -⟩ := h
  intro hr
  have hr' : recReady (isPrivileged code) x.src n = true := by simpa [recReady, recRoom, h5] using hr
  rw [raise_dirty n code x (Or.inl hx) hr', h5]
  simp only [recordOf, eventOf, scn, h2, h3, h5, h6]
  rfl

theorem tellsAgreed_raise {m n : Mod} (code : Nat) (x : EvArgs) (hx : x.src = 0) (h : SameMoment m n) :
    TellsAgreed code x m (raise code x n) := by
  obtain ⟨h1, h2, -, h4, -, -, h7⟩ := h
  intro hv
  have hv' : votes n = true := by simpa [votes, operating, mode, h1, h4] using hv
  rw [raise_evWait n code x hx hv', h7]
  simp [eventOf, scn, h2]

end Sys2Proof.Machine
end

