-- ==== Sys2Proof/Laws/Frame.lean ====
section
/-! SUPPORT. What a frame between lanes leaves behind whatever it carries, and what its receiver then holds (R93, R94, R104). -/

namespace Sys2Proof.Machine

/-- A lane without its performance counters and check-value units. -/
def Lane.noPcs (l : Lane) : Lane := { l with pcs := [], cvu := [] }
theorem bump_pcs (fuel cfg n k) (l : Lane) : (pcBump fuel cfg n k l).noPcs = l.noPcs := by
  induction fuel generalizing n k l with
  | zero => rfl
  | succ i ih => unfold pcBump; dsimp only; split
                 · rw [ih]; rfl
                 · rfl
theorem count_pcs (cfg code a b) (l : Lane) : (pcCount cfg code a b l).noPcs = l.noPcs := by
  have key : ∀ (xs : List Nat) (l : Lane), (xs.foldl (fun acc n =>
      if fieldOf (tabGet 0 cfg (n / 4)).toNat (8 * (n % 4)) 8 % 64 = code ∧ (!bitOf (fieldOf (tabGet 0 cfg (n / 4)).toNat (8 * (n % 4)) 8) 7 || n == 0)
      then pcBump 32 cfg n (if bitOf (fieldOf (tabGet 0 cfg (n / 4)).toNat (8 * (n % 4)) 8) 6 then b else a) acc else acc) l).noPcs = l.noPcs := by
    intro xs
    induction xs with
    | nil => intro l; rfl
    | cons x xs ih => intro l; rw [List.foldl_cons, ih]; split
                      · rw [bump_pcs]
                      · rfl
  unfold pcCount; split
  · rfl
  · exact key _ _
theorem pcs_alive {a b : Lane} (h : a.noPcs = b.noPcs) : a.alive = b.alive := (congrArg Lane.alive h :)
theorem pcs_time {a b : Lane} (h : a.noPcs = b.noPcs) : a.time = b.time := (congrArg Lane.time h :)
theorem pcs_vset {a b : Lane} (h : a.noPcs = b.noPcs) : a.vset = b.vset := (congrArg Lane.vset h :)
theorem pcs_opened {a b : Lane} (h : a.noPcs = b.noPcs) : a.opened = b.opened := (congrArg Lane.opened h :)
theorem upd_get (l x f) (m : Mod) : (updLane l f m).ln.get x = if x = l then f (m.ln.get x) else m.ln.get x := by
  split
  · rename_i h; subst h; simp
  · rename_i h; simp [PerLane.get_modify_ne _ _ _ _ h]
theorem pcEvent_pcs (l x c) (m : Mod) : ((pcEvent l c m).ln.get x).noPcs = (m.ln.get x).noPcs := by
  unfold pcEvent; rw [upd_get]; split
  · exact count_pcs _ _ _ _ _
  · rfl
/-- All that a frame leaves alone, whatever it carries: in every lane, what is held of other frames too. -/
def FF (m n : Mod) : Prop := { n with ln := m.ln, md := m.md, tm := m.tm, host := m.host, rcd := m.rcd, pc := m.pc } = m ∧ (n.pc = { m.pc with mism := n.pc.mism } ∧ n.md.mode = m.md.mode) ∧ n.md.fired = m.md.fired ∧
    ∀ x, (n.ln.get x).opened = (m.ln.get x).opened ∧ (n.ln.get x).alive = (m.ln.get x).alive ∧ (n.ln.get x).vset = (m.ln.get x).vset ∧ (n.ln.get x).time = (m.ln.get x).time ∧ (n.ln.get x).supplied = (m.ln.get x).supplied ∧
     (n.ln.get x).localRx = (m.ln.get x).localRx ∧ (n.ln.get x).remoteRx = (m.ln.get x).remoteRx ∧ (n.ln.get x).offerRx = (m.ln.get x).offerRx ∧ (n.ln.get x).verdictRx = (m.ln.get x).verdictRx ∧ (n.ln.get x).confirmRx = (m.ln.get x).confirmRx ∧ (n.ln.get x).faultRx = (m.ln.get x).faultRx
theorem ff_refl (m : Mod) : FF m m := ⟨rfl, ⟨rfl, rfl⟩, rfl, fun _ => ⟨rfl, rfl, rfl, rfl, rfl, rfl, rfl, rfl, rfl, rfl, rfl⟩⟩
theorem FF.trans {a b c : Mod} (h : FF a b) (g : FF b c) : FF a c := by
  obtain ⟨h1, h2, h4, h3⟩ := h; obtain ⟨g1, g2, g4, g3⟩ := g
  refine ⟨?_, ⟨by rw [g2.1, h2.1], g2.2.trans h2.2⟩, g4.trans h4, fun x => ?_⟩
  · rw [← h1, ← g1]
  · obtain ⟨a1,a2,a3,a4,a5,a6,a7,a8,a9,a10,a11⟩ := h3 x; obtain ⟨b1,b2,b3,b4,b5,b6,b7,b8,b9,b10,b11⟩ := g3 x
    exact ⟨b1.trans a1, b2.trans a2, b3.trans a3, b4.trans a4, b5.trans a5, b6.trans a6, b7.trans a7, b8.trans a8, b9.trans a9, b10.trans a10, b11.trans a11⟩
theorem ff_pcs (m n : Mod) (h0 : { n with ln := m.ln } = m) (h : ∀ x, (n.ln.get x).noPcs = (m.ln.get x).noPcs) : FF m n := by
  have h1 : n.md = m.md := by rw [← h0]
  refine ⟨by rw [← h0], ⟨by rw [← h0], by rw [h1]⟩, by rw [h1], fun x => ?_⟩
  have := h x
  exact ⟨(congrArg Lane.opened this :), pcs_alive this, (congrArg Lane.vset this :), (congrArg Lane.time this :), (congrArg Lane.supplied this :), (congrArg Lane.localRx this :), (congrArg Lane.remoteRx this :), (congrArg Lane.offerRx this :), (congrArg Lane.verdictRx this :), (congrArg Lane.confirmRx this :), (congrArg Lane.faultRx this :)⟩
theorem ff_pc (l c) (m : Mod) : FF m (pcEvent l c m) := ff_pcs _ _ rfl (pcEvent_pcs l · c m)
theorem ff_raise (c x) (m : Mod) : FF m (raise c x m) := by
  have h := raise_noHR m c x
  refine ⟨?_, ⟨by simp, by simp⟩, by simp, fun y => by simp [Lane.alive]⟩
  have e : ∀ n : Mod, n.noHR = m.noHR → { n with ln := m.ln, md := m.md, tm := m.tm, host := m.host, rcd := m.rcd, pc := m.pc } = m := by
    intro n hn; cases n; cases m; simp [Mod.noHR] at hn ⊢; obtain ⟨h1,h2,h3,h4,h5,h6,h7,h8,h9,h10,h11,h12,h13,h14,h15,h16,h17,h18,h19,h20,h21,h22,h23,h24⟩ := hn; simp [*]
  exact e _ h
theorem ff_md (f : Modes → Modes) (m : Mod) (h : ∀ d, (f d).mode = d.mode ∧ (f d).fired = d.fired) : FF m (updMd f m) :=
  ⟨rfl, ⟨rfl, (h _).1⟩, (h _).2, fun _ => ⟨rfl, rfl, rfl, rfl, rfl, rfl, rfl, rfl, rfl, rfl, rfl⟩⟩
theorem ff_line (n ok) (m : Mod) : FF m (lineHeard n ok m) := by
  unfold lineHeard lineBroke; split
  · exact ff_md _ _ (fun _ => ⟨rfl, rfl⟩)
  · exact ff_md _ _ (fun _ => ⟨rfl, rfl⟩)
theorem ff_cvu (l u x) (m : Mod) : FF m (laneCvu l u x m) := by
  have h1 (b : Bool) (n : Mod) : FF n (onlyIf b (fun n => raise 0xEC { src := laneSrc l, arg0 := 4 * laneNo l + u, arg1 := x.poly }
      (updPc (fun p => { p with mism := satN 0xFFFF (p.mism + 1) }) n)) n) := by
    cases b
    · exact ff_refl _
    · rw [onlyIf_true]
      exact FF.trans (b := updPc (fun p => { p with mism := satN 0xFFFF (p.mism + 1) }) n)
        ⟨rfl, ⟨rfl, rfl⟩, rfl, fun _ => ⟨rfl, rfl, rfl, rfl, rfl, rfl, rfl, rfl, rfl, rfl, rfl⟩⟩ (ff_raise _ _ _)
  unfold laneCvu
  exact (ff_pcs m (updLane l (fun y => { y with cvu := tabSet CvUnit.fresh y.cvu u x }) m) rfl (fun x => by rw [upd_get]; split <;> rfl)).trans
    (h1 _ _)
theorem ff_heard (r k c) (m : Mod) : FF m (heardOn r k c m) := by
  have hear (n bs) (m : Mod) : FF m (if List.isEmpty bs then m else
      laneCvu r 1 (cvuOn 2 (bs.take (bs.length - 8)) (some (BitVec.ofNat 64 (readBE bs (bs.length - 8) 8))))
        (pcEvent r (if linkOk bs then 0x11 else 0x12) (lineHeard n (linkOk bs) m))) := by
    split
    · exact ff_refl _
    · exact (ff_line _ _ _).trans ((ff_pc _ _ _).trans (ff_cvu _ _ _ _))
  unfold heardOn; exact (hear _ _ _).trans (hear _ _ _)
theorem ff_lanes (f : LaneId → Lane → Lane) (m : Mod) (hf : ∀ l x, (f l x) = { x with exclCause := (f l x).exclCause, tdiff := (f l x).tdiff }) : FF m (updLanes f m) := by
  refine ⟨rfl, ⟨rfl, rfl⟩, rfl, fun x => ?_⟩
  simp only [updLanes_ln, PerLane.get_mapL]; rw [hf x (m.ln.get x)]; simp [Lane.alive]
theorem ff_lane (l) (f : Lane → Lane) (m : Mod) (hf : ∀ x, (f x) = { x with exclCause := (f x).exclCause, tdiff := (f x).tdiff }) : FF m (updLane l f m) := by
  refine ⟨rfl, ⟨rfl, rfl⟩, rfl, fun x => ?_⟩
  rw [upd_get]; split
  · rw [hf (m.ln.get x)]; simp [Lane.alive]
  · simp
theorem ff_tm (f) (m : Mod) : FF m (updTm f m) := ⟨rfl, ⟨rfl, rfl⟩, rfl, fun _ => ⟨rfl, rfl, rfl, rfl, rfl, rfl, rfl, rfl, rfl, rfl, rfl⟩⟩
theorem ff_time (r s k t) (m : Mod) : FF m (compareTime r s k t m) := by
  unfold compareTime; dsimp only
  refine FF.trans ?_ (ff_lanes _ _ (fun l x => by generalize (timeFar _ l && x.alive && x.exclCause == 0) = b; cases b <;> rfl))
  split
  · refine (ff_lane r _ m (fun x => rfl)).trans ((ff_tm _ _).trans (ff_raise _ _ _))
  · exact ff_lane r _ m (fun x => rfl)
theorem ff_in (t r s c) (m : Mod) : FF m (frameIn t r s c m).2 := by
  unfold frameIn; split
  · exact ff_refl _
  · split
    · exact ff_refl _
    · dsimp only; split
      · exact ff_heard _ _ _ _
      · split
        · exact (ff_heard _ _ _ _).trans (ff_time _ _ _ _ _)
        · exact ff_heard _ _ _ _
theorem ff_scn {m n : Mod} (h : FF m n) : scn n = scn m := by
  unfold scn; rw [now_congr (fun l => (h.2.2.2 l).2.1) (fun l => (h.2.2.2 l).2.2.2.1)]
theorem counts_in {t r s c f} {m : Mod} (hc : Counts t r s c f m) : (frameIn t r s c m).1 = some f := by
  obtain ⟨h1, h2, h3, h4, h5, h6, h7, h8, h9⟩ := hc
  have : ∃ k, linkOf r s = some k := by cases r <;> cases s <;> first | exact absurd rfl h1 | exact ⟨_, rfl⟩
  obtain ⟨k, hk⟩ := this
  unfold frameIn; simp [*]
theorem fo_of {m n : Mod} (h : FF m n) : FrameOnly m n := ⟨h.1, h.2.1.1, h.2.1.2, fun x => ⟨(h.2.2.2 x).1, (h.2.2.2 x).2.1, (h.2.2.2 x).2.2.1⟩⟩
theorem fo_trans {a b c : Mod} (h : FrameOnly a b) (g : FrameOnly b c) : FrameOnly a c := by
  obtain ⟨h1, h0, h2, h3⟩ := h; obtain ⟨g1, g0, g2, g3⟩ := g
  refine ⟨?_, by rw [g0, h0], g2.trans h2, fun x => ⟨(g3 x).1.trans (h3 x).1, (g3 x).2.1.trans (h3 x).2.1, (g3 x).2.2.trans (h3 x).2.2⟩⟩
  rw [← h1, ← g1]
theorem upd_fo (l f) (m : Mod) (h : ∀ x : Lane, (f x).opened = x.opened ∧ (f x).alive = x.alive ∧ (f x).vset = x.vset) : FrameOnly m (updLane l f m) := by
  refine ⟨rfl, rfl, rfl, fun x => ?_⟩
  rw [upd_get]; split
  · exact h _
  · exact ⟨rfl, rfl, rfl⟩
theorem round_in {t key close r s c f keep} {m : Mod} (hc : Counts t r s c f m) (ht : InTime key close r m)
   : roundFrame t key close r s c keep m = updLane r (keep f) (frameIn t r s c m).2 := by
  have g := ff_in t r s c m
  unfold roundFrame
  have e : (frameIn t r s c m) = (some f, (frameIn t r s c m).2) := by rw [← counts_in hc]
  rw [e]; dsimp only
  have h2 : firedNow key (frameIn t r s c m).2 = false := by rw [← ht.2]; unfold firedNow; rw [ff_scn g, g.2.2.1]
  have h3 : ((frameIn t r s c m).2.ln.get r).time = (m.ln.get r).time := (g.2.2.2 r).2.2.2.1
  rw [h2, h3]; simp [ht.1]

/-- Two modules that agree outside the host interface and the recorder differ in what was told at most. -/
theorem toldOnly_of {m n : Mod} (h : n.noHR = m.noHR) : ToldOnly m n := by
  have e : { n.noHR with host := m.host, rcd := m.rcd } = { m.noHR with host := m.host, rcd := m.rcd } := by rw [h]
  exact e

/-- Raising an event changes what was told, and nothing else (R444, R507). -/
theorem toldOnly_raise (code : Nat) (x : EvArgs) (m : Mod) : ToldOnly m (raise code x m) := toldOnly_of (raise_noHR m code x)

end Sys2Proof.Machine
end

