-- ==== Sys2Proof/Laws/Frames.lean ====
section
/-! SUPPORT. Frames: a Stride frame as formed passes its own frame check (R296, R297). -/

namespace Sys2Proof.Machine

@[simp] theorem bytesLE_length (n v : Nat) : (bytesLE n v).length = n := by
  induction n generalizing v with
  | zero => rfl
  | succ n ih => simp [bytesLE, ih]

@[simp] theorem fcsOf_length (body : List Byte) : (fcsOf body).length = 4 := bytesLE_length _ _

/-- A body of at least the common header, followed by its frame check sequence, is good. -/
theorem fcsGood_of_body (body : List Byte) (h : 30 ≤ body.length) : fcsGood (body ++ fcsOf body) = true := by
  have l : (body ++ fcsOf body).length - 4 = body.length := by simp
  unfold fcsGood
  rw [l, List.take_left, List.drop_left]
  simp; omega

theorem fcsGood_bytes (f : SFrame) (src : List Byte) (h : 30 ≤ (f.body src).length) : fcsGood (f.bytes src) = true :=
  fcsGood_of_body _ h

end Sys2Proof.Machine
end

