-- ==== Sys2Proof/Laws/Jic.lean ====
section
/-! SUPPORT. One instruction of a running heat: what it leaves where its operation succeeds, and where it faults (R170, R172, R173). -/

namespace Sys2Proof.Machine

variable {m : Mod} {t : Nat} {d : TaskDesc} {i : Instr}

/-- The heat as an instruction of `words` words finds it. -/
def heatOf (t : Nat) (d : TaskDesc) (words : Nat) (m : Mod) : Heat :=
  { num := t, desc := d, at_ := (tcbOf m t).pc,
    tcb := { tcbOf m t with instrs := (tcbOf m t).instrs + 1, sliceLeft := (tcbOf m t).sliceLeft - 1, pc := (tcbOf m t).pc + words },
    m := pcAll 0x07 m }

theorem tcbOf_setTcb_self (t : Nat) (x : Tcb) (m : Mod) : tcbOf (setTcb t x m) t = x := by
  simp only [tcbOf, setTcb, updLg]; exact tabGet_tabSet_self _ _ _ _

theorem tcbOf_setTcb_ne (t j : Nat) (x : Tcb) (m : Mod) (h : j ≠ t) : tcbOf (setTcb t x m) j = tcbOf m j := by
  simp only [tcbOf, setTcb, updLg]; exact tabGet_tabSet_ne _ _ _ _ _ h

/-- Code that gives an instruction is no illegal opcode. -/
theorem gives_legal {app : AppImage} {pc : Nat} (h : codeGives app pc i = true) : (codeAt app pc = .illegal) = False := by
  simp only [eq_iff_iff, iff_false]; intro e; rw [codeGives, e] at h; exact Bool.noConfusion (h : false = true)

/-- An instruction whose operation succeeds leaves the heat its operation leaves. -/
theorem runJic_ok (words : Nat) (op : JStep) (h : Heat) (hi : InHeat t d m) (hc : codeGives m.lg.app (tcbOf m t).pc i = true) (ho : op (heatOf t d words m) = .ok h)
    (hs : d.kind ≠ .slow ∨ h.tcb.sliceLeft ≠ 0) : runJic i words op m = setTcb t h.tcb h.m := by
  obtain ⟨h1, h2, h3, -⟩ := hi
  have h4 : ¬ d.maxInstr ≤ (tcbOf m t).instrs := by omega
  unfold runJic stepHeat
  simp only [h1, h2, h4, gives_legal hc, hc, if_false, if_true]
  unfold heatOf at ho
  simp only [ho]
  unfold sliceOver
  rw [if_neg]
  rintro ⟨g1, -, g3, -⟩
  rw [tcbOf_setTcb_self] at g3
  rcases hs with hs | hs
  · exact hs g1
  · exact hs g3

/-- An instruction that faults parks its task. -/
theorem runJic_error (words : Nat) (op : JStep) (f : Nat) (hi : InHeat t d m) (hc : codeGives m.lg.app (tcbOf m t).pc i = true) (ho : op (heatOf t d words m) = .error f) :
    runJic i words op m = parkTask t f (tcbOf m t).pc (setTcb t (heatOf t d words m).tcb (pcAll 0x07 m)) := by
  obtain ⟨h1, h2, h3, -⟩ := hi
  have h4 : ¬ d.maxInstr ≤ (tcbOf m t).instrs := by omega
  unfold runJic stepHeat
  simp only [h1, h2, h4, gives_legal hc, hc, if_false, if_true]
  unfold heatOf at ho ⊢
  simp only [ho]

/-! ## Parking -/

/-- Completing the commands a heat leaves changes what is told, and nothing else. -/
theorem endCmds_inv (P : Mod → Prop) (cs : List TaskCmd) (f : TaskCmd → Mod → Mod) (m : Mod) (hf : ∀ c n, P n → P (f c n)) (hm : P m) :
    P (endCmds cs f m) := forEach_inv P _ _ _ hf hm

/-- A parked task, whatever it was doing (R172, R173). -/
theorem parks_parkTask (f pc : Nat) (n : Mod) (h0 : { n with lg := m.lg, ln := m.ln } = m) (hs : n.lg.stack = m.lg.stack)
    (ho : ∀ j, j ≠ t → tcbOf n j = tcbOf m j) : Parks t f m (parkTask t f pc n) := by
  have key : ∀ (e : Mod) (xs : List Nat), (forEach xs (fun r acc => endPend r 8 acc) e).lg = e.lg ∧ (forEach xs (fun r acc => endPend r 8 acc) e).md = e.md ∧
      (forEach xs (fun r acc => endPend r 8 acc) e).cur = e.cur ∧ (forEach xs (fun r acc => endPend r 8 acc) e).fio = e.fio := by
    intro e xs
    refine forEach_inv (fun n => n.lg = e.lg ∧ n.md = e.md ∧ n.cur = e.cur ∧ n.fio = e.fio) _ _ _ ?_ ⟨rfl, rfl, rfl, rfl⟩
    intro x n hn
    unfold endPend; split
    · exact hn
    · simpa [dropPend] using hn
  have hmd : n.md = m.md := by rw [← h0]
  have hcur : n.cur = m.cur := by rw [← h0]
  have hfio : n.fio = m.fio := by rw [← h0]
  have cm : ∀ (cs : List TaskCmd) (e : Mod), (endCmds cs (fun c acc => complete c.sub 0x0C t acc) e).lg = e.lg ∧
      (endCmds cs (fun c acc => complete c.sub 0x0C t acc) e).md = e.md ∧ (endCmds cs (fun c acc => complete c.sub 0x0C t acc) e).cur = e.cur ∧
      (endCmds cs (fun c acc => complete c.sub 0x0C t acc) e).fio = e.fio := by
    intro cs e
    exact endCmds_inv (fun n => n.lg = e.lg ∧ n.md = e.md ∧ n.cur = e.cur ∧ n.fio = e.fio) _ _ _ (fun c n hn => by simpa using hn) ⟨rfl, rfl, rfl, rfl⟩
  obtain ⟨c1, c2, c3, c4⟩ := cm ((tcbOf n t).cmds ++ (tcbOf n t).cmdsWait) (restrictOuts t n)
  have q1 : (restrictOuts t n).lg = n.lg := rfl
  have q2 : (restrictOuts t n).md = n.md := rfl
  have q3 : (restrictOuts t n).cur = n.cur := rfl
  have q4 : (restrictOuts t n).fio = n.fio := rfl
  have res : ∀ e : Mod, (resume e).lg.running = e.lg.stack.head? ∧ (resume e).lg.tcbs = e.lg.tcbs ∧ (resume e).lg.fault = e.lg.fault ∧
      (resume e).lg.ftask = e.lg.ftask ∧ (resume e).md = e.md ∧ (resume e).cur = e.cur ∧ (resume e).fio = e.fio := by
    intro e; unfold resume; split <;> rename_i h <;> simp [h]
  unfold parkTask
  simp only
  generalize hm3 : updLg (fun g => { g with fault := f, ftask := t }) _ = m3
  have t3 : m3.lg.tcbs = tabSet Tcb.empty n.lg.tcbs t { clearTcb (tcbOf n t) with parked := true, cmdsWait := [], trigWait := 0 } ∧
      m3.lg.fault = f ∧ m3.lg.ftask = t ∧ m3.lg.stack = m.lg.stack ∧ m3.md = m.md ∧ m3.cur = m.cur ∧ m3.fio = m.fio := by
    subst hm3
    refine ⟨?_, rfl, rfl, ?_, ?_, ?_, ?_⟩
    · simp [setTcb, c1, q1]
    · simp [setTcb, c1, q1, hs]
    · simp [setTcb, c2, q2, hmd]
    · simp [setTcb, c3, q3, hcur]
    · simp [setTcb, c4, q4, hfio]
  generalize hm4 : (if (taskDesc n t).any (·.route) then forEach (m3.en.pend.map (·.1)) (fun r acc => endPend r 8 acc) m3 else m3 : Mod) = m4
  have t4 : m4.lg = m3.lg ∧ m4.md = m3.md ∧ m4.cur = m3.cur ∧ m4.fio = m3.fio := by
    subst hm4; split
    · exact key _ _
    · exact ⟨rfl, rfl, rfl, rfl⟩
  obtain ⟨r1, r2, r3, r4, r5, r6, r7⟩ := res m4
  have tc : ∀ j, tcbOf (resume m4) j = tabGet Tcb.empty m3.lg.tcbs j := by intro j; unfold tcbOf; rw [r2, t4.1]
  refine ⟨?_, ?_, ?_, ?_, ?_, ?_, ?_, ?_, ?_⟩
  · rw [tc, t3.1, tabGet_tabSet_self]
  · rw [tc, t3.1, tabGet_tabSet_self]; rfl
  · rw [r3, t4.1, t3.2.1]
  · rw [r4, t4.1, t3.2.2.1]
  · rw [r1, t4.1, t3.2.2.2.1]
  · intro j hj; rw [tc, t3.1, tabGet_tabSet_ne _ _ _ _ _ hj]; exact ho j hj
  · rw [r5, t4.2.1, t3.2.2.2.2.1]
  · rw [r6, t4.2.2.1, t3.2.2.2.2.2.1]
  · rw [r7, t4.2.2.2, t3.2.2.2.2.2.2]

theorem pcAll_frame (code : Nat) (m : Mod) : { pcAll code m with ln := m.ln } = m := by
  have h := pcAll_noLn m code
  exact (congrArg (fun n : Mod => { n with ln := m.ln }) h :)

/-- An instruction that faults parks its task and no other. -/
theorem parks_runJic (words : Nat) (op : JStep) (f : Nat) (hi : InHeat t d m) (hc : codeGives m.lg.app (tcbOf m t).pc i = true) (ho : op (heatOf t d words m) = .error f) :
    Parks t f m (runJic i words op m) := by
  rw [runJic_error words op f hi hc ho]
  refine parks_parkTask _ _ _ ?_ ?_ ?_
  · have := pcAll_frame 0x07 m
    exact (congrArg (fun n : Mod => { n with lg := m.lg }) this :)
  · simp [setTcb]
  · intro j hj; rw [tcbOf_setTcb_ne _ _ _ _ hj]; simp [tcbOf]

/-! ## Going on -/

/-- What every instruction that goes on leaves alone. -/
theorem logicOnly_setTcb (x : Tcb) : LogicOnly t m (setTcb t x (pcAll 0x07 m)) := by
  refine ⟨?_, ?_, ?_, ?_⟩
  · have := pcAll_frame 0x07 m
    exact (congrArg (fun n : Mod => { n with lg := m.lg }) this :)
  · simp [setTcb]
  · intro j hj; rw [tcbOf_setTcb_ne _ _ _ _ hj]; simp [tcbOf]
  · intro l; simp [setTcb, Lane.alive]

theorem slice_left (words : Nat) (hi : InHeat t d m) : d.kind ≠ .slow ∨ (heatOf t d words m).tcb.sliceLeft ≠ 0 := by
  obtain ⟨-, -, -, h | h⟩ := hi
  · exact .inl h
  · right; show (tcbOf m t).sliceLeft - 1 ≠ 0; omega

/-- An instruction whose operation gives one register a value has that one effect. -/
theorem results_runJic (words : Nat) (op : JStep) (r : Rg) (x : Reg) (hi : InHeat t d m) (hc : codeGives m.lg.app (tcbOf m t).pc i = true)
    (ho : op (heatOf t d words m) = .ok (setReg r x (heatOf t d words m))) : Results t words r x m (runJic i words op m) := by
  rw [runJic_ok words op _ hi hc ho (slice_left words hi)]
  refine ⟨logicOnly_setTcb _, by simp [setTcb, setReg, heatOf], ?_, ?_, ?_⟩
  · unfold Steps; erw [tcbOf_setTcb_self]; rfl
  · unfold regAt; simp only [setReg, heatOf, tcbOf_setTcb_self]; simp
  · intro q hq
    have : r.toNat ≠ q.toNat := fun e => hq (BitVec.eq_of_toNat_eq e.symm)
    unfold regAt; simp only [setReg, heatOf, tcbOf_setTcb_self]; simp [this]

/-- An instruction that writes no register goes on where its operation says. -/
theorem continues_runJic (words pc : Nat) (op : JStep) (hi : InHeat t d m) (hc : codeGives m.lg.app (tcbOf m t).pc i = true)
    (ho : op (heatOf t d words m) = .ok (jump pc (heatOf t d words m))) : Continues t pc m (runJic i words op m) := by
  rw [runJic_ok words op _ hi hc ho (slice_left words hi)]
  refine ⟨logicOnly_setTcb _, by simp [setTcb, jump, heatOf], ?_, ?_⟩
  · unfold Steps; erw [tcbOf_setTcb_self]; rfl
  · intro q; unfold regAt; simp only [jump, heatOf, tcbOf_setTcb_self]

/-- An instruction that goes on with a control block of its own. -/
theorem logic_runJic (words : Nat) (op : JStep) (h : Heat) (hi : InHeat t d m) (hc : codeGives m.lg.app (tcbOf m t).pc i = true) (ho : op (heatOf t d words m) = .ok h)
    (hm : h.m = pcAll 0x07 m) (hl : h.tcb.sliceLeft = (heatOf t d words m).tcb.sliceLeft) :
    LogicOnly t m (runJic i words op m) ∧ tcbOf (runJic i words op m) t = h.tcb := by
  rw [runJic_ok words op h hi hc ho (by rw [hl]; exact slice_left words hi), hm]
  exact ⟨logicOnly_setTcb _, tcbOf_setTcb_self _ _ _⟩

/-! ## Operands -/

theorem getReg_heatOf (words : Nat) (r : Rg) :
    getReg r (heatOf t d words m) = if (regAt m t r).ty = .none then .error fType else .ok (regAt m t r) := rfl

/-- A register that holds a value of the type asked for. -/
theorem getAs_holds (words : Nat) (r : Rg) (ty : Ty) (v : Int) (h : Holds m t r ty v) : getAs ty r (heatOf t d words m) = .ok v := by
  obtain ⟨h1, h2, h3⟩ := h
  have : (regAt m t r).ty ≠ .none := by rw [h1]; exact h2
  simp only [getAs, getReg_heatOf, this, if_false]
  show (if (regAt m t r).ty = ty then Except.ok (regInt (regAt m t r)) else .error fType) = _
  rw [if_pos h1, h3]

theorem getBool_holds (words : Nat) (r : Rg) (b : Bool) (h : Holds m t r .bool (b2n b)) : getBool r (heatOf t d words m) = .ok b := by
  unfold getBool; rw [getAs_holds words r _ _ h]; cases b <;> rfl

/-- A register of another type is a type fault. -/
theorem getAs_other (words : Nat) (r : Rg) (ty : Ty) (h : (regAt m t r).ty ≠ ty) : getAs ty r (heatOf t d words m) = .error fType := by
  simp only [getAs, getReg_heatOf]
  by_cases h1 : (regAt m t r).ty = .none
  · rw [if_pos h1]; rfl
  · rw [if_neg h1]
    show (if (regAt m t r).ty = ty then Except.ok (regInt (regAt m t r)) else .error fType) = _
    rw [if_neg h]

theorem getIndex_holds (words : Nat) (r : Rg) (lim : Nat) (v : Int) (h : Holds m t r .int32 v) :
    getIndex r lim (heatOf t d words m) = if 0 ≤ v ∧ v < lim then .ok v.toNat else .error fBound := by
  unfold getIndex; rw [getAs_holds words r _ _ h]; rfl

/-- A register that refers to an object of a kind asked for. -/
theorem getObj_refers (words : Nat) (r : Rg) (ks : List Nat) (k i : Nat) (hk : k ∈ ks) (h : Refers m t r k i) :
    getObj ks r (heatOf t d words m) = .ok (k, i) := by
  obtain ⟨v, h1, h2, h3, h4, h5⟩ := h
  unfold getObj; rw [getAs_holds words r _ _ h1]
  show (if _ then _ else _) = _
  have hl : (heatOf t d words m).m.lg = m.lg := by simp [heatOf]
  rw [if_pos]
  · simp only [Int.toNat_natCast, h4, h5]
  · simp only [Int.toNat_natCast, hl]; exact ⟨h2, h3, by rw [h4]; exact hk⟩

end Sys2Proof.Machine
end

