-- ==== Sys2Proof/WellFormed.lean ====
section
/-! DEFINITION. Well-formed commands: the sizes the manual fixes for what a command carries. A meaning is total and does not
rest on these checks; a list that is too short reads as zeros beyond its end. -/

namespace Sys2Proof

/-- A pulse observation has 104 loops and 4 group voltages (R254, R271). -/
def PulseObs.wf (o : PulseObs) : Bool := o.loops.length == 104 && o.volts.length == 4

/-- A diagnostic record covers 64 channels and 4 groups (R251). -/
def DiagObs.wf (d : DiagObs) : Bool := d.load.length == 64 && d.group.length == 4

/-- A submission entry: OPC and TASK are bytes, OPER is 40 bytes, NSCN is 64 bits (R432). -/
def Submission.wf (s : Submission) : Bool :=
  decide (s.opc < 256) && decide (s.task < 256) && s.oper.length == 40 && decide (s.nscn < 2 ^ 64)

/-- A copy of a cross-lane frame is absent, or long enough for the common header and the link check (R101). -/
def copyWf (bs : List Byte) : Bool := bs.isEmpty || decide (28 ≤ bs.length)

/-- Both copies of a cross-lane frame. -/
def XCopies.wf (c : XCopies) : Bool := copyWf c.line0 && copyWf c.line1

/-- A CAN FD frame carries at most 64 bytes, and an 11-bit identifier unless it is extended (R378, R382). -/
def CanFrame.wf (f : CanFrame) : Bool := decide (f.bytes.length ≤ 64) && (f.extended || decide (f.ident < 2048))

/-- A pair local image has 104 states, 4 voltages, 4 group states and 4 diagnostic words at least (R457). -/
def PairImage.wf (p : PairImage) : Bool := p.inputs.length == 104 && p.volts.length == 4 && p.grp.length == 4

/-- The alarm levels of triggers 0-12 (R564). -/
def levelsWf (ls : List Nat) (authn : Nat) : Bool := ls.length == 13 && ls.all (fun l => decide (l ≤ 4)) && decide (authn < 256)

/-- A command is well formed. -/
def Instr.wf : Instr → Bool
  | .inputPulseSample o t => o.a.wf && o.b.wf && o.c.wf && t.outMv.length == 64
  | .localFreezeFrame _ _ a b | .remoteFreezeFrame _ _ a b | .offerFrame _ _ a b | .verdictFrame _ _ a b | .confirmationFrame _ _ a b
  | .laneFaultFrame _ _ a b | .securityAlarmFrame _ _ a b _ => XCopies.wf { line0 := a, line1 := b }
  | .diagnosticRecord l g _ => DiagObs.wf { load := l, group := g }
  | .canFrameReceived _ f => f.wf
  | .pairLocalImage (some p) => p.content.wf
  | .setAlarmLevels _ ls n => levelsWf ls n
  | .registerWrite off _ => off % 4 == 0
  | .doorbellPoll _ es => es.all (fun e => e.bytes.length == 64)
  | .partnerSubmission f => f.content.wf
  | .goToRun sub | .haltRequest sub | .possessionGrant sub | .possessionReturn sub | .forceSet sub | .forceRelease sub
  | .routeRequest sub | .routeCancel sub | .runBlockBist sub _ | .applicationCommand sub | .clearExclusionRecord sub
  | .acknowledgeSagLatch sub | .clearExternalFeedLatch sub | .clearChannelLatch sub | .discardLearnedCurrent sub
  | .switchSchedule sub | .rebindStationIdentity sub | .readConnectionCounters sub | .hostCanTransmit sub
  | .cancelHostTransmit sub _ | .noOperation sub | .changeover sub | .reJoin sub | .openSession sub | .header sub
  | .payloadChunk sub | .verify sub | .activate sub | .closeSession sub | .recorderRead sub | .recorderReadStop sub
  | .rollCall sub | .setCounters sub => sub.wf
  | _ => true

end Sys2Proof
end

