-- ==== Sys2Proof/Laws/PerInstr.lean ====
section
/-! SUPPORT. What every command says as syntax, one lemma for each: a well-formed command that carries a submission carries an opcode
byte, a task byte, 40 bytes of operands and a nominal SCN of 64 bits (R432). -/

namespace Sys2Proof.Laws.CarriedSizes

/-- The submission a command carries. -/
def carried : Instr → Option Submission
  | .partnerSubmission frame => some frame.content
  | .goToRun sub => some sub
  | .haltRequest sub => some sub
  | .possessionGrant sub => some sub
  | .possessionReturn sub => some sub
  | .forceSet sub => some sub
  | .forceRelease sub => some sub
  | .routeRequest sub => some sub
  | .routeCancel sub => some sub
  | .runBlockBist sub _ => some sub
  | .applicationCommand sub => some sub
  | .clearExclusionRecord sub => some sub
  | .acknowledgeSagLatch sub => some sub
  | .clearExternalFeedLatch sub => some sub
  | .clearChannelLatch sub => some sub
  | .discardLearnedCurrent sub => some sub
  | .switchSchedule sub => some sub
  | .rebindStationIdentity sub => some sub
  | .readConnectionCounters sub => some sub
  | .hostCanTransmit sub => some sub
  | .cancelHostTransmit sub _ => some sub
  | .noOperation sub => some sub
  | .changeover sub => some sub
  | .reJoin sub => some sub
  | .openSession sub => some sub
  | .header sub => some sub
  | .payloadChunk sub => some sub
  | .verify sub => some sub
  | .activate sub => some sub
  | .closeSession sub => some sub
  | .recorderRead sub => some sub
  | .recorderReadStop sub => some sub
  | .rollCall sub => some sub
  | .setCounters sub => some sub
  | _ => none

/-- The fields of the carried submission have the widths of R432. -/
def Statement (i : Instr) : Prop :=
  i.wf = true → ∀ sub, carried i = some sub → sub.opc < 256 ∧ sub.task < 256 ∧ sub.oper.length = 40 ∧ sub.nscn < 2 ^ 64

theorem of_none {i : Instr} (h : carried i = none) : Statement i := fun _ sub e => by rw [h] at e; cases e

theorem of_sub {i : Instr} (x : Submission) (h : carried i = some x) (hw : i.wf = x.wf) : Statement i := fun w sub e => by
  rw [h] at e; cases e; rw [hw] at w
  simpa [Submission.wf, and_assoc] using w

end Sys2Proof.Laws.CarriedSizes

theorem Sys2Proof.Laws.CarriedSizes.jNop : Sys2Proof.Laws.CarriedSizes.Statement (.jNop) :=
  Sys2Proof.Laws.CarriedSizes.of_none rfl
theorem Sys2Proof.Laws.CarriedSizes.jJmp (off : W32) : Sys2Proof.Laws.CarriedSizes.Statement (.jJmp off) :=
  Sys2Proof.Laws.CarriedSizes.of_none rfl
theorem Sys2Proof.Laws.CarriedSizes.jJt (a : Rg) (off : W32) : Sys2Proof.Laws.CarriedSizes.Statement (.jJt a off) :=
  Sys2Proof.Laws.CarriedSizes.of_none rfl
theorem Sys2Proof.Laws.CarriedSizes.jJf (a : Rg) (off : W32) : Sys2Proof.Laws.CarriedSizes.Statement (.jJf a off) :=
  Sys2Proof.Laws.CarriedSizes.of_none rfl
theorem Sys2Proof.Laws.CarriedSizes.jJtab (a : Rg) (tab : W32) : Sys2Proof.Laws.CarriedSizes.Statement (.jJtab a tab) :=
  Sys2Proof.Laws.CarriedSizes.of_none rfl
theorem Sys2Proof.Laws.CarriedSizes.jCall (fn : W32) : Sys2Proof.Laws.CarriedSizes.Statement (.jCall fn) :=
  Sys2Proof.Laws.CarriedSizes.of_none rfl
theorem Sys2Proof.Laws.CarriedSizes.jRet : Sys2Proof.Laws.CarriedSizes.Statement (.jRet) :=
  Sys2Proof.Laws.CarriedSizes.of_none rfl
theorem Sys2Proof.Laws.CarriedSizes.jLoop (a : Rg) (n off : W16) : Sys2Proof.Laws.CarriedSizes.Statement (.jLoop a n off) :=
  Sys2Proof.Laws.CarriedSizes.of_none rfl
theorem Sys2Proof.Laws.CarriedSizes.jNext : Sys2Proof.Laws.CarriedSizes.Statement (.jNext) :=
  Sys2Proof.Laws.CarriedSizes.of_none rfl
theorem Sys2Proof.Laws.CarriedSizes.jEnd : Sys2Proof.Laws.CarriedSizes.Statement (.jEnd) :=
  Sys2Proof.Laws.CarriedSizes.of_none rfl
theorem Sys2Proof.Laws.CarriedSizes.jFail (n : W32) : Sys2Proof.Laws.CarriedSizes.Statement (.jFail n) :=
  Sys2Proof.Laws.CarriedSizes.of_none rfl
theorem Sys2Proof.Laws.CarriedSizes.jChk (a : Rg) (n : W32) : Sys2Proof.Laws.CarriedSizes.Statement (.jChk a n) :=
  Sys2Proof.Laws.CarriedSizes.of_none rfl
theorem Sys2Proof.Laws.CarriedSizes.jLdi (d c : Rg) (imm : W32) : Sys2Proof.Laws.CarriedSizes.Statement (.jLdi d c imm) :=
  Sys2Proof.Laws.CarriedSizes.of_none rfl
theorem Sys2Proof.Laws.CarriedSizes.jLdk (d : Rg) (k : W32) : Sys2Proof.Laws.CarriedSizes.Statement (.jLdk d k) :=
  Sys2Proof.Laws.CarriedSizes.of_none rfl
theorem Sys2Proof.Laws.CarriedSizes.jMov (d a : Rg) : Sys2Proof.Laws.CarriedSizes.Statement (.jMov d a) :=
  Sys2Proof.Laws.CarriedSizes.of_none rfl
theorem Sys2Proof.Laws.CarriedSizes.jCvt (d a c : Rg) : Sys2Proof.Laws.CarriedSizes.Statement (.jCvt d a c) :=
  Sys2Proof.Laws.CarriedSizes.of_none rfl
theorem Sys2Proof.Laws.CarriedSizes.jSel (d a b c : Rg) : Sys2Proof.Laws.CarriedSizes.Statement (.jSel d a b c) :=
  Sys2Proof.Laws.CarriedSizes.of_none rfl
theorem Sys2Proof.Laws.CarriedSizes.jClr (d c : Rg) : Sys2Proof.Laws.CarriedSizes.Statement (.jClr d c) :=
  Sys2Proof.Laws.CarriedSizes.of_none rfl
theorem Sys2Proof.Laws.CarriedSizes.jObj (d a c : Rg) : Sys2Proof.Laws.CarriedSizes.Statement (.jObj d a c) :=
  Sys2Proof.Laws.CarriedSizes.of_none rfl
theorem Sys2Proof.Laws.CarriedSizes.jIdx (d a : Rg) : Sys2Proof.Laws.CarriedSizes.Statement (.jIdx d a) :=
  Sys2Proof.Laws.CarriedSizes.of_none rfl
theorem Sys2Proof.Laws.CarriedSizes.jLd (d : Rg) (var : W32) : Sys2Proof.Laws.CarriedSizes.Statement (.jLd d var) :=
  Sys2Proof.Laws.CarriedSizes.of_none rfl
theorem Sys2Proof.Laws.CarriedSizes.jSt (var : W32) (a : Rg) : Sys2Proof.Laws.CarriedSizes.Statement (.jSt var a) :=
  Sys2Proof.Laws.CarriedSizes.of_none rfl
theorem Sys2Proof.Laws.CarriedSizes.jLdx (d a : Rg) (arr : W32) : Sys2Proof.Laws.CarriedSizes.Statement (.jLdx d a arr) :=
  Sys2Proof.Laws.CarriedSizes.of_none rfl
theorem Sys2Proof.Laws.CarriedSizes.jStx (arr : W32) (a b : Rg) : Sys2Proof.Laws.CarriedSizes.Statement (.jStx arr a b) :=
  Sys2Proof.Laws.CarriedSizes.of_none rfl
theorem Sys2Proof.Laws.CarriedSizes.jLdf (d c : Rg) (rec : W32) : Sys2Proof.Laws.CarriedSizes.Statement (.jLdf d c rec) :=
  Sys2Proof.Laws.CarriedSizes.of_none rfl
theorem Sys2Proof.Laws.CarriedSizes.jStf (rec : W32) (c a : Rg) : Sys2Proof.Laws.CarriedSizes.Statement (.jStf rec c a) :=
  Sys2Proof.Laws.CarriedSizes.of_none rfl
theorem Sys2Proof.Laws.CarriedSizes.jLdp (d : Rg) (var : W32) : Sys2Proof.Laws.CarriedSizes.Statement (.jLdp d var) :=
  Sys2Proof.Laws.CarriedSizes.of_none rfl
theorem Sys2Proof.Laws.CarriedSizes.jLen (d : Rg) (arr : W32) : Sys2Proof.Laws.CarriedSizes.Statement (.jLen d arr) :=
  Sys2Proof.Laws.CarriedSizes.of_none rfl
theorem Sys2Proof.Laws.CarriedSizes.jAdd (d a b : Rg) : Sys2Proof.Laws.CarriedSizes.Statement (.jAdd d a b) :=
  Sys2Proof.Laws.CarriedSizes.of_none rfl
theorem Sys2Proof.Laws.CarriedSizes.jSub (d a b : Rg) : Sys2Proof.Laws.CarriedSizes.Statement (.jSub d a b) :=
  Sys2Proof.Laws.CarriedSizes.of_none rfl
theorem Sys2Proof.Laws.CarriedSizes.jMul (d a b : Rg) : Sys2Proof.Laws.CarriedSizes.Statement (.jMul d a b) :=
  Sys2Proof.Laws.CarriedSizes.of_none rfl
theorem Sys2Proof.Laws.CarriedSizes.jDiv (d a b : Rg) : Sys2Proof.Laws.CarriedSizes.Statement (.jDiv d a b) :=
  Sys2Proof.Laws.CarriedSizes.of_none rfl
theorem Sys2Proof.Laws.CarriedSizes.jMod (d a b : Rg) : Sys2Proof.Laws.CarriedSizes.Statement (.jMod d a b) :=
  Sys2Proof.Laws.CarriedSizes.of_none rfl
theorem Sys2Proof.Laws.CarriedSizes.jNeg (d a : Rg) : Sys2Proof.Laws.CarriedSizes.Statement (.jNeg d a) :=
  Sys2Proof.Laws.CarriedSizes.of_none rfl
theorem Sys2Proof.Laws.CarriedSizes.jAbs (d a : Rg) : Sys2Proof.Laws.CarriedSizes.Statement (.jAbs d a) :=
  Sys2Proof.Laws.CarriedSizes.of_none rfl
theorem Sys2Proof.Laws.CarriedSizes.jMin (d a b : Rg) : Sys2Proof.Laws.CarriedSizes.Statement (.jMin d a b) :=
  Sys2Proof.Laws.CarriedSizes.of_none rfl
theorem Sys2Proof.Laws.CarriedSizes.jMax (d a b : Rg) : Sys2Proof.Laws.CarriedSizes.Statement (.jMax d a b) :=
  Sys2Proof.Laws.CarriedSizes.of_none rfl
theorem Sys2Proof.Laws.CarriedSizes.jLim (d a b c : Rg) : Sys2Proof.Laws.CarriedSizes.Statement (.jLim d a b c) :=
  Sys2Proof.Laws.CarriedSizes.of_none rfl
theorem Sys2Proof.Laws.CarriedSizes.jEq (d a b : Rg) : Sys2Proof.Laws.CarriedSizes.Statement (.jEq d a b) :=
  Sys2Proof.Laws.CarriedSizes.of_none rfl
theorem Sys2Proof.Laws.CarriedSizes.jNe (d a b : Rg) : Sys2Proof.Laws.CarriedSizes.Statement (.jNe d a b) :=
  Sys2Proof.Laws.CarriedSizes.of_none rfl
theorem Sys2Proof.Laws.CarriedSizes.jLt (d a b : Rg) : Sys2Proof.Laws.CarriedSizes.Statement (.jLt d a b) :=
  Sys2Proof.Laws.CarriedSizes.of_none rfl
theorem Sys2Proof.Laws.CarriedSizes.jLe (d a b : Rg) : Sys2Proof.Laws.CarriedSizes.Statement (.jLe d a b) :=
  Sys2Proof.Laws.CarriedSizes.of_none rfl
theorem Sys2Proof.Laws.CarriedSizes.jGt (d a b : Rg) : Sys2Proof.Laws.CarriedSizes.Statement (.jGt d a b) :=
  Sys2Proof.Laws.CarriedSizes.of_none rfl
theorem Sys2Proof.Laws.CarriedSizes.jGe (d a b : Rg) : Sys2Proof.Laws.CarriedSizes.Statement (.jGe d a b) :=
  Sys2Proof.Laws.CarriedSizes.of_none rfl
theorem Sys2Proof.Laws.CarriedSizes.jAnd (d a b : Rg) : Sys2Proof.Laws.CarriedSizes.Statement (.jAnd d a b) :=
  Sys2Proof.Laws.CarriedSizes.of_none rfl
theorem Sys2Proof.Laws.CarriedSizes.jOr (d a b : Rg) : Sys2Proof.Laws.CarriedSizes.Statement (.jOr d a b) :=
  Sys2Proof.Laws.CarriedSizes.of_none rfl
theorem Sys2Proof.Laws.CarriedSizes.jXor (d a b : Rg) : Sys2Proof.Laws.CarriedSizes.Statement (.jXor d a b) :=
  Sys2Proof.Laws.CarriedSizes.of_none rfl
theorem Sys2Proof.Laws.CarriedSizes.jNot (d a : Rg) : Sys2Proof.Laws.CarriedSizes.Statement (.jNot d a) :=
  Sys2Proof.Laws.CarriedSizes.of_none rfl
theorem Sys2Proof.Laws.CarriedSizes.jBand (d a b : Rg) : Sys2Proof.Laws.CarriedSizes.Statement (.jBand d a b) :=
  Sys2Proof.Laws.CarriedSizes.of_none rfl
theorem Sys2Proof.Laws.CarriedSizes.jBor (d a b : Rg) : Sys2Proof.Laws.CarriedSizes.Statement (.jBor d a b) :=
  Sys2Proof.Laws.CarriedSizes.of_none rfl
theorem Sys2Proof.Laws.CarriedSizes.jBxor (d a b : Rg) : Sys2Proof.Laws.CarriedSizes.Statement (.jBxor d a b) :=
  Sys2Proof.Laws.CarriedSizes.of_none rfl
theorem Sys2Proof.Laws.CarriedSizes.jBnot (d a : Rg) : Sys2Proof.Laws.CarriedSizes.Statement (.jBnot d a) :=
  Sys2Proof.Laws.CarriedSizes.of_none rfl
theorem Sys2Proof.Laws.CarriedSizes.jShl (d a b : Rg) : Sys2Proof.Laws.CarriedSizes.Statement (.jShl d a b) :=
  Sys2Proof.Laws.CarriedSizes.of_none rfl
theorem Sys2Proof.Laws.CarriedSizes.jShr (d a b : Rg) : Sys2Proof.Laws.CarriedSizes.Statement (.jShr d a b) :=
  Sys2Proof.Laws.CarriedSizes.of_none rfl
theorem Sys2Proof.Laws.CarriedSizes.jBtst (d a b : Rg) : Sys2Proof.Laws.CarriedSizes.Statement (.jBtst d a b) :=
  Sys2Proof.Laws.CarriedSizes.of_none rfl
theorem Sys2Proof.Laws.CarriedSizes.jBset (d a b : Rg) : Sys2Proof.Laws.CarriedSizes.Statement (.jBset d a b) :=
  Sys2Proof.Laws.CarriedSizes.of_none rfl
theorem Sys2Proof.Laws.CarriedSizes.jBclr (d a b : Rg) : Sys2Proof.Laws.CarriedSizes.Statement (.jBclr d a b) :=
  Sys2Proof.Laws.CarriedSizes.of_none rfl
theorem Sys2Proof.Laws.CarriedSizes.jIscl (d a : Rg) : Sys2Proof.Laws.CarriedSizes.Statement (.jIscl d a) :=
  Sys2Proof.Laws.CarriedSizes.of_none rfl
theorem Sys2Proof.Laws.CarriedSizes.jIsop (d a : Rg) : Sys2Proof.Laws.CarriedSizes.Statement (.jIsop d a) :=
  Sys2Proof.Laws.CarriedSizes.of_none rfl
theorem Sys2Proof.Laws.CarriedSizes.jIsbd (d a : Rg) : Sys2Proof.Laws.CarriedSizes.Statement (.jIsbd d a) :=
  Sys2Proof.Laws.CarriedSizes.of_none rfl
theorem Sys2Proof.Laws.CarriedSizes.jAgr (d a b : Rg) : Sys2Proof.Laws.CarriedSizes.Statement (.jAgr d a b) :=
  Sys2Proof.Laws.CarriedSizes.of_none rfl
theorem Sys2Proof.Laws.CarriedSizes.jIn (d a : Rg) : Sys2Proof.Laws.CarriedSizes.Statement (.jIn d a) :=
  Sys2Proof.Laws.CarriedSizes.of_none rfl
theorem Sys2Proof.Laws.CarriedSizes.jInq (d a : Rg) : Sys2Proof.Laws.CarriedSizes.Statement (.jInq d a) :=
  Sys2Proof.Laws.CarriedSizes.of_none rfl
theorem Sys2Proof.Laws.CarriedSizes.jStn (d a : Rg) : Sys2Proof.Laws.CarriedSizes.Statement (.jStn d a) :=
  Sys2Proof.Laws.CarriedSizes.of_none rfl
theorem Sys2Proof.Laws.CarriedSizes.jFrc (d : Rg) (var : W32) : Sys2Proof.Laws.CarriedSizes.Statement (.jFrc d var) :=
  Sys2Proof.Laws.CarriedSizes.of_none rfl
theorem Sys2Proof.Laws.CarriedSizes.jArea (d a : Rg) : Sys2Proof.Laws.CarriedSizes.Statement (.jArea d a) :=
  Sys2Proof.Laws.CarriedSizes.of_none rfl
theorem Sys2Proof.Laws.CarriedSizes.jGrp (d a : Rg) : Sys2Proof.Laws.CarriedSizes.Statement (.jGrp d a) :=
  Sys2Proof.Laws.CarriedSizes.of_none rfl
theorem Sys2Proof.Laws.CarriedSizes.jNow (d : Rg) : Sys2Proof.Laws.CarriedSizes.Statement (.jNow d) :=
  Sys2Proof.Laws.CarriedSizes.of_none rfl
theorem Sys2Proof.Laws.CarriedSizes.jElap (d a : Rg) : Sys2Proof.Laws.CarriedSizes.Statement (.jElap d a) :=
  Sys2Proof.Laws.CarriedSizes.of_none rfl
theorem Sys2Proof.Laws.CarriedSizes.jTon (d a b : Rg) (t : W32) : Sys2Proof.Laws.CarriedSizes.Statement (.jTon d a b t) :=
  Sys2Proof.Laws.CarriedSizes.of_none rfl
theorem Sys2Proof.Laws.CarriedSizes.jTof (d a b : Rg) (t : W32) : Sys2Proof.Laws.CarriedSizes.Statement (.jTof d a b t) :=
  Sys2Proof.Laws.CarriedSizes.of_none rfl
theorem Sys2Proof.Laws.CarriedSizes.jTp (d a b : Rg) (t : W32) : Sys2Proof.Laws.CarriedSizes.Statement (.jTp d a b t) :=
  Sys2Proof.Laws.CarriedSizes.of_none rfl
theorem Sys2Proof.Laws.CarriedSizes.jTrs (t : W32) : Sys2Proof.Laws.CarriedSizes.Statement (.jTrs t) :=
  Sys2Proof.Laws.CarriedSizes.of_none rfl
theorem Sys2Proof.Laws.CarriedSizes.jTrem (d : Rg) (t : W32) : Sys2Proof.Laws.CarriedSizes.Statement (.jTrem d t) :=
  Sys2Proof.Laws.CarriedSizes.of_none rfl
theorem Sys2Proof.Laws.CarriedSizes.jCtu (d a b : Rg) (t : W32) : Sys2Proof.Laws.CarriedSizes.Statement (.jCtu d a b t) :=
  Sys2Proof.Laws.CarriedSizes.of_none rfl
theorem Sys2Proof.Laws.CarriedSizes.jCtd (d a b : Rg) (t : W32) : Sys2Proof.Laws.CarriedSizes.Statement (.jCtd d a b t) :=
  Sys2Proof.Laws.CarriedSizes.of_none rfl
theorem Sys2Proof.Laws.CarriedSizes.jCrs (a : Rg) (t : W32) : Sys2Proof.Laws.CarriedSizes.Statement (.jCrs a t) :=
  Sys2Proof.Laws.CarriedSizes.of_none rfl
theorem Sys2Proof.Laws.CarriedSizes.jRtrg (d a : Rg) (t : W32) : Sys2Proof.Laws.CarriedSizes.Statement (.jRtrg d a t) :=
  Sys2Proof.Laws.CarriedSizes.of_none rfl
theorem Sys2Proof.Laws.CarriedSizes.jFtrg (d a : Rg) (t : W32) : Sys2Proof.Laws.CarriedSizes.Statement (.jFtrg d a t) :=
  Sys2Proof.Laws.CarriedSizes.of_none rfl
theorem Sys2Proof.Laws.CarriedSizes.jEnxt (d : Rg) : Sys2Proof.Laws.CarriedSizes.Statement (.jEnxt d) :=
  Sys2Proof.Laws.CarriedSizes.of_none rfl
theorem Sys2Proof.Laws.CarriedSizes.jEreq (d a : Rg) : Sys2Proof.Laws.CarriedSizes.Statement (.jEreq d a) :=
  Sys2Proof.Laws.CarriedSizes.of_none rfl
theorem Sys2Proof.Laws.CarriedSizes.jElck (a b : Rg) : Sys2Proof.Laws.CarriedSizes.Statement (.jElck a b) :=
  Sys2Proof.Laws.CarriedSizes.of_none rfl
theorem Sys2Proof.Laws.CarriedSizes.jEdrp (a b : Rg) : Sys2Proof.Laws.CarriedSizes.Statement (.jEdrp a b) :=
  Sys2Proof.Laws.CarriedSizes.of_none rfl
theorem Sys2Proof.Laws.CarriedSizes.jErel (a b : Rg) : Sys2Proof.Laws.CarriedSizes.Statement (.jErel a b) :=
  Sys2Proof.Laws.CarriedSizes.of_none rfl
theorem Sys2Proof.Laws.CarriedSizes.jErrl (a : Rg) : Sys2Proof.Laws.CarriedSizes.Statement (.jErrl a) :=
  Sys2Proof.Laws.CarriedSizes.of_none rfl
theorem Sys2Proof.Laws.CarriedSizes.jEsta (d a : Rg) : Sys2Proof.Laws.CarriedSizes.Statement (.jEsta d a) :=
  Sys2Proof.Laws.CarriedSizes.of_none rfl
theorem Sys2Proof.Laws.CarriedSizes.jEovl (d a : Rg) : Sys2Proof.Laws.CarriedSizes.Statement (.jEovl d a) :=
  Sys2Proof.Laws.CarriedSizes.of_none rfl
theorem Sys2Proof.Laws.CarriedSizes.jHcmd (d : Rg) : Sys2Proof.Laws.CarriedSizes.Statement (.jHcmd d) :=
  Sys2Proof.Laws.CarriedSizes.of_none rfl
theorem Sys2Proof.Laws.CarriedSizes.jHdon (a b : Rg) : Sys2Proof.Laws.CarriedSizes.Statement (.jHdon a b) :=
  Sys2Proof.Laws.CarriedSizes.of_none rfl
theorem Sys2Proof.Laws.CarriedSizes.jHevt (a b : Rg) : Sys2Proof.Laws.CarriedSizes.Statement (.jHevt a b) :=
  Sys2Proof.Laws.CarriedSizes.of_none rfl
theorem Sys2Proof.Laws.CarriedSizes.jTrg (d : Rg) : Sys2Proof.Laws.CarriedSizes.Statement (.jTrg d) :=
  Sys2Proof.Laws.CarriedSizes.of_none rfl
theorem Sys2Proof.Laws.CarriedSizes.jSys (d c : Rg) : Sys2Proof.Laws.CarriedSizes.Statement (.jSys d c) :=
  Sys2Proof.Laws.CarriedSizes.of_none rfl
theorem Sys2Proof.Laws.CarriedSizes.jRec (a b : Rg) : Sys2Proof.Laws.CarriedSizes.Statement (.jRec a b) :=
  Sys2Proof.Laws.CarriedSizes.of_none rfl
theorem Sys2Proof.Laws.CarriedSizes.jCvu (d a : Rg) (arr : W32) : Sys2Proof.Laws.CarriedSizes.Statement (.jCvu d a arr) :=
  Sys2Proof.Laws.CarriedSizes.of_none rfl
theorem Sys2Proof.Laws.CarriedSizes.jConn (d a : Rg) : Sys2Proof.Laws.CarriedSizes.Statement (.jConn d a) :=
  Sys2Proof.Laws.CarriedSizes.of_none rfl
theorem Sys2Proof.Laws.CarriedSizes.jTagv (d a : Rg) : Sys2Proof.Laws.CarriedSizes.Statement (.jTagv d a) :=
  Sys2Proof.Laws.CarriedSizes.of_none rfl
theorem Sys2Proof.Laws.CarriedSizes.powerUp (env : StartEnv) : Sys2Proof.Laws.CarriedSizes.Statement (.powerUp env) :=
  Sys2Proof.Laws.CarriedSizes.of_none rfl
theorem Sys2Proof.Laws.CarriedSizes.acquisitionTimeout : Sys2Proof.Laws.CarriedSizes.Statement (.acquisitionTimeout) :=
  Sys2Proof.Laws.CarriedSizes.of_none rfl
theorem Sys2Proof.Laws.CarriedSizes.sourceTaken (src : Src) (time : Nat) (meas : SrcMeas) : Sys2Proof.Laws.CarriedSizes.Statement (.sourceTaken src time meas) :=
  Sys2Proof.Laws.CarriedSizes.of_none rfl
theorem Sys2Proof.Laws.CarriedSizes.pairDiscoveryTimeout : Sys2Proof.Laws.CarriedSizes.Statement (.pairDiscoveryTimeout) :=
  Sys2Proof.Laws.CarriedSizes.of_none rfl
theorem Sys2Proof.Laws.CarriedSizes.startComplete : Sys2Proof.Laws.CarriedSizes.Statement (.startComplete) :=
  Sys2Proof.Laws.CarriedSizes.of_none rfl
theorem Sys2Proof.Laws.CarriedSizes.warmUpOverdue : Sys2Proof.Laws.CarriedSizes.Statement (.warmUpOverdue) :=
  Sys2Proof.Laws.CarriedSizes.of_none rfl
theorem Sys2Proof.Laws.CarriedSizes.paceSlowed (vin : Nat) : Sys2Proof.Laws.CarriedSizes.Statement (.paceSlowed vin) :=
  Sys2Proof.Laws.CarriedSizes.of_none rfl
theorem Sys2Proof.Laws.CarriedSizes.paceNormal (vin : Nat) : Sys2Proof.Laws.CarriedSizes.Statement (.paceNormal vin) :=
  Sys2Proof.Laws.CarriedSizes.of_none rfl
theorem Sys2Proof.Laws.CarriedSizes.logicInputBelow16v (vin : Nat) : Sys2Proof.Laws.CarriedSizes.Statement (.logicInputBelow16v vin) :=
  Sys2Proof.Laws.CarriedSizes.of_none rfl
theorem Sys2Proof.Laws.CarriedSizes.supplyValidRestart (env : StartEnv) : Sys2Proof.Laws.CarriedSizes.Statement (.supplyValidRestart env) :=
  Sys2Proof.Laws.CarriedSizes.of_none rfl
theorem Sys2Proof.Laws.CarriedSizes.logicFeedAbsent (feed : Feed) (mv : Nat) : Sys2Proof.Laws.CarriedSizes.Statement (.logicFeedAbsent feed mv) :=
  Sys2Proof.Laws.CarriedSizes.of_none rfl
theorem Sys2Proof.Laws.CarriedSizes.logicFeedRestored (feed : Feed) (mv : Nat) : Sys2Proof.Laws.CarriedSizes.Statement (.logicFeedRestored feed mv) :=
  Sys2Proof.Laws.CarriedSizes.of_none rfl
theorem Sys2Proof.Laws.CarriedSizes.feedOvervoltageDisconnect (feed : Feed) (mv : Nat) : Sys2Proof.Laws.CarriedSizes.Statement (.feedOvervoltageDisconnect feed mv) :=
  Sys2Proof.Laws.CarriedSizes.of_none rfl
theorem Sys2Proof.Laws.CarriedSizes.feedOvervoltageReconnect (feed : Feed) (mv : Nat) : Sys2Proof.Laws.CarriedSizes.Statement (.feedOvervoltageReconnect feed mv) :=
  Sys2Proof.Laws.CarriedSizes.of_none rfl
theorem Sys2Proof.Laws.CarriedSizes.resetKey (heldMs : Nat) (env : StartEnv) : Sys2Proof.Laws.CarriedSizes.Statement (.resetKey heldMs env) :=
  Sys2Proof.Laws.CarriedSizes.of_none rfl
theorem Sys2Proof.Laws.CarriedSizes.resetRequest (val : W32) (env : StartEnv) : Sys2Proof.Laws.CarriedSizes.Statement (.resetRequest val env) :=
  Sys2Proof.Laws.CarriedSizes.of_none rfl
theorem Sys2Proof.Laws.CarriedSizes.pcieReset : Sys2Proof.Laws.CarriedSizes.Statement (.pcieReset) :=
  Sys2Proof.Laws.CarriedSizes.of_none rfl
theorem Sys2Proof.Laws.CarriedSizes.automaticRestart (env : StartEnv) : Sys2Proof.Laws.CarriedSizes.Statement (.automaticRestart env) :=
  Sys2Proof.Laws.CarriedSizes.of_none rfl
theorem Sys2Proof.Laws.CarriedSizes.strideStopOnHalt : Sys2Proof.Laws.CarriedSizes.Statement (.strideStopOnHalt) :=
  Sys2Proof.Laws.CarriedSizes.of_none rfl
theorem Sys2Proof.Laws.CarriedSizes.modeTransitionEffect : Sys2Proof.Laws.CarriedSizes.Statement (.modeTransitionEffect) :=
  Sys2Proof.Laws.CarriedSizes.of_none rfl
theorem Sys2Proof.Laws.CarriedSizes.frontEndLivenessExchange (lane : LaneId) (ok : Bool) : Sys2Proof.Laws.CarriedSizes.Statement (.frontEndLivenessExchange lane ok) :=
  Sys2Proof.Laws.CarriedSizes.of_none rfl
theorem Sys2Proof.Laws.CarriedSizes.frontEndLost (lane : LaneId) : Sys2Proof.Laws.CarriedSizes.Statement (.frontEndLost lane) :=
  Sys2Proof.Laws.CarriedSizes.of_none rfl
theorem Sys2Proof.Laws.CarriedSizes.ptpMessage (msg : PtpMsg) : Sys2Proof.Laws.CarriedSizes.Statement (.ptpMessage msg) :=
  Sys2Proof.Laws.CarriedSizes.of_none rfl
theorem Sys2Proof.Laws.CarriedSizes.ptpAnnounceTimeout : Sys2Proof.Laws.CarriedSizes.Statement (.ptpAnnounceTimeout) :=
  Sys2Proof.Laws.CarriedSizes.of_none rfl
theorem Sys2Proof.Laws.CarriedSizes.gunSourceTimeout : Sys2Proof.Laws.CarriedSizes.Statement (.gunSourceTimeout) :=
  Sys2Proof.Laws.CarriedSizes.of_none rfl
theorem Sys2Proof.Laws.CarriedSizes.partnerTimeTimeout : Sys2Proof.Laws.CarriedSizes.Statement (.partnerTimeTimeout) :=
  Sys2Proof.Laws.CarriedSizes.of_none rfl
theorem Sys2Proof.Laws.CarriedSizes.servoCorrection : Sys2Proof.Laws.CarriedSizes.Statement (.servoCorrection) :=
  Sys2Proof.Laws.CarriedSizes.of_none rfl
theorem Sys2Proof.Laws.CarriedSizes.sourceEligible10s (src : Src) : Sys2Proof.Laws.CarriedSizes.Statement (.sourceEligible10s src) :=
  Sys2Proof.Laws.CarriedSizes.of_none rfl
theorem Sys2Proof.Laws.CarriedSizes.refusedSourceCleared (src : Src) : Sys2Proof.Laws.CarriedSizes.Statement (.refusedSourceCleared src) :=
  Sys2Proof.Laws.CarriedSizes.of_none rfl
theorem Sys2Proof.Laws.CarriedSizes.holdoverAlarm : Sys2Proof.Laws.CarriedSizes.Statement (.holdoverAlarm) :=
  Sys2Proof.Laws.CarriedSizes.of_none rfl
theorem Sys2Proof.Laws.CarriedSizes.oscillatorDriftWindow (ppb : PerLane Int) (adev : PerLane Nat) : Sys2Proof.Laws.CarriedSizes.Statement (.oscillatorDriftWindow ppb adev) :=
  Sys2Proof.Laws.CarriedSizes.of_none rfl
theorem Sys2Proof.Laws.CarriedSizes.pcrscnlRead : Sys2Proof.Laws.CarriedSizes.Statement (.pcrscnlRead) :=
  Sys2Proof.Laws.CarriedSizes.of_none rfl
theorem Sys2Proof.Laws.CarriedSizes.registerWrite (off : Nat) (val : W32) : Sys2Proof.Laws.CarriedSizes.Statement (.registerWrite off val) :=
  Sys2Proof.Laws.CarriedSizes.of_none rfl
theorem Sys2Proof.Laws.CarriedSizes.comparatorMismatch (lane : LaneId) (rails : BitVec 2) : Sys2Proof.Laws.CarriedSizes.Statement (.comparatorMismatch lane rails) :=
  Sys2Proof.Laws.CarriedSizes.of_none rfl
theorem Sys2Proof.Laws.CarriedSizes.sramScrub (lane : LaneId) (finds : List ScrubFind) : Sys2Proof.Laws.CarriedSizes.Statement (.sramScrub lane finds) :=
  Sys2Proof.Laws.CarriedSizes.of_none rfl
theorem Sys2Proof.Laws.CarriedSizes.comparatorProofOverdue (lane : LaneId) : Sys2Proof.Laws.CarriedSizes.Statement (.comparatorProofOverdue lane) :=
  Sys2Proof.Laws.CarriedSizes.of_none rfl
theorem Sys2Proof.Laws.CarriedSizes.hurdleItemOverdue (lane : LaneId) (item : Fin 8) : Sys2Proof.Laws.CarriedSizes.Statement (.hurdleItemOverdue lane item) :=
  Sys2Proof.Laws.CarriedSizes.of_none rfl
theorem Sys2Proof.Laws.CarriedSizes.hurdle (obs : HurdleObs) : Sys2Proof.Laws.CarriedSizes.Statement (.hurdle obs) :=
  Sys2Proof.Laws.CarriedSizes.of_none rfl
theorem Sys2Proof.Laws.CarriedSizes.testRoutingClose (lane : LaneId) (active : Bool) : Sys2Proof.Laws.CarriedSizes.Statement (.testRoutingClose lane active) :=
  Sys2Proof.Laws.CarriedSizes.of_none rfl
theorem Sys2Proof.Laws.CarriedSizes.clockPlanLowered (lane : LaneId) : Sys2Proof.Laws.CarriedSizes.Statement (.clockPlanLowered lane) :=
  Sys2Proof.Laws.CarriedSizes.of_none rfl
theorem Sys2Proof.Laws.CarriedSizes.linkLineLost (link : Link) (line : Bool) : Sys2Proof.Laws.CarriedSizes.Statement (.linkLineLost link line) :=
  Sys2Proof.Laws.CarriedSizes.of_none rfl
theorem Sys2Proof.Laws.CarriedSizes.linkLineRestored (link : Link) (line : Bool) : Sys2Proof.Laws.CarriedSizes.Statement (.linkLineRestored link line) :=
  Sys2Proof.Laws.CarriedSizes.of_none rfl
theorem Sys2Proof.Laws.CarriedSizes.localFreeze : Sys2Proof.Laws.CarriedSizes.Statement (.localFreeze) :=
  Sys2Proof.Laws.CarriedSizes.of_none rfl
theorem Sys2Proof.Laws.CarriedSizes.localFreezeFrame (rcv snd : LaneId) (line0 line1 : List Byte) : Sys2Proof.Laws.CarriedSizes.Statement (.localFreezeFrame rcv snd line0 line1) :=
  Sys2Proof.Laws.CarriedSizes.of_none rfl
theorem Sys2Proof.Laws.CarriedSizes.localFreezeAgreement : Sys2Proof.Laws.CarriedSizes.Statement (.localFreezeAgreement) :=
  Sys2Proof.Laws.CarriedSizes.of_none rfl
theorem Sys2Proof.Laws.CarriedSizes.sagLatchSet (g : Fin 4) : Sys2Proof.Laws.CarriedSizes.Statement (.sagLatchSet g) :=
  Sys2Proof.Laws.CarriedSizes.of_none rfl
theorem Sys2Proof.Laws.CarriedSizes.minorityReport (lane : LaneId) (chan : Fin 104) : Sys2Proof.Laws.CarriedSizes.Statement (.minorityReport lane chan) :=
  Sys2Proof.Laws.CarriedSizes.of_none rfl
theorem Sys2Proof.Laws.CarriedSizes.remoteFreeze : Sys2Proof.Laws.CarriedSizes.Statement (.remoteFreeze) :=
  Sys2Proof.Laws.CarriedSizes.of_none rfl
theorem Sys2Proof.Laws.CarriedSizes.remoteFreezeFrame (rcv snd : LaneId) (line0 line1 : List Byte) : Sys2Proof.Laws.CarriedSizes.Statement (.remoteFreezeFrame rcv snd line0 line1) :=
  Sys2Proof.Laws.CarriedSizes.of_none rfl
theorem Sys2Proof.Laws.CarriedSizes.remoteFreezeAgreement : Sys2Proof.Laws.CarriedSizes.Statement (.remoteFreezeAgreement) :=
  Sys2Proof.Laws.CarriedSizes.of_none rfl
theorem Sys2Proof.Laws.CarriedSizes.pendingRequestExpired (route : Fin 4096) : Sys2Proof.Laws.CarriedSizes.Statement (.pendingRequestExpired route) :=
  Sys2Proof.Laws.CarriedSizes.of_none rfl
theorem Sys2Proof.Laws.CarriedSizes.enginePassLate : Sys2Proof.Laws.CarriedSizes.Statement (.enginePassLate) :=
  Sys2Proof.Laws.CarriedSizes.of_none rfl
theorem Sys2Proof.Laws.CarriedSizes.ioControllerLost : Sys2Proof.Laws.CarriedSizes.Statement (.ioControllerLost) :=
  Sys2Proof.Laws.CarriedSizes.of_none rfl
theorem Sys2Proof.Laws.CarriedSizes.taskRelease (task : Fin 32) : Sys2Proof.Laws.CarriedSizes.Statement (.taskRelease task) :=
  Sys2Proof.Laws.CarriedSizes.of_none rfl
theorem Sys2Proof.Laws.CarriedSizes.slowTaskSlice (task : Fin 32) : Sys2Proof.Laws.CarriedSizes.Statement (.slowTaskSlice task) :=
  Sys2Proof.Laws.CarriedSizes.of_none rfl
theorem Sys2Proof.Laws.CarriedSizes.snapshot : Sys2Proof.Laws.CarriedSizes.Statement (.snapshot) :=
  Sys2Proof.Laws.CarriedSizes.of_none rfl
theorem Sys2Proof.Laws.CarriedSizes.offerFrame (rcv snd : LaneId) (line0 line1 : List Byte) : Sys2Proof.Laws.CarriedSizes.Statement (.offerFrame rcv snd line0 line1) :=
  Sys2Proof.Laws.CarriedSizes.of_none rfl
theorem Sys2Proof.Laws.CarriedSizes.offersClose : Sys2Proof.Laws.CarriedSizes.Statement (.offersClose) :=
  Sys2Proof.Laws.CarriedSizes.of_none rfl
theorem Sys2Proof.Laws.CarriedSizes.verdictFrame (rcv snd : LaneId) (line0 line1 : List Byte) : Sys2Proof.Laws.CarriedSizes.Statement (.verdictFrame rcv snd line0 line1) :=
  Sys2Proof.Laws.CarriedSizes.of_none rfl
theorem Sys2Proof.Laws.CarriedSizes.verdictsClose : Sys2Proof.Laws.CarriedSizes.Statement (.verdictsClose) :=
  Sys2Proof.Laws.CarriedSizes.of_none rfl
theorem Sys2Proof.Laws.CarriedSizes.confirmationFrame (rcv snd : LaneId) (line0 line1 : List Byte) : Sys2Proof.Laws.CarriedSizes.Statement (.confirmationFrame rcv snd line0 line1) :=
  Sys2Proof.Laws.CarriedSizes.of_none rfl
theorem Sys2Proof.Laws.CarriedSizes.confirmationsClose : Sys2Proof.Laws.CarriedSizes.Statement (.confirmationsClose) :=
  Sys2Proof.Laws.CarriedSizes.of_none rfl
theorem Sys2Proof.Laws.CarriedSizes.laneFaultFrame (rcv snd : LaneId) (line0 line1 : List Byte) : Sys2Proof.Laws.CarriedSizes.Statement (.laneFaultFrame rcv snd line0 line1) :=
  Sys2Proof.Laws.CarriedSizes.of_none rfl
theorem Sys2Proof.Laws.CarriedSizes.securityAlarmFrame (rcv snd : LaneId) (line0 line1 : List Byte) (delay : Fin 101) : Sys2Proof.Laws.CarriedSizes.Statement (.securityAlarmFrame rcv snd line0 line1 delay) :=
  Sys2Proof.Laws.CarriedSizes.of_none rfl
theorem Sys2Proof.Laws.CarriedSizes.sealing : Sys2Proof.Laws.CarriedSizes.Statement (.sealing) :=
  Sys2Proof.Laws.CarriedSizes.of_none rfl
theorem Sys2Proof.Laws.CarriedSizes.localOutputsApplied : Sys2Proof.Laws.CarriedSizes.Statement (.localOutputsApplied) :=
  Sys2Proof.Laws.CarriedSizes.of_none rfl
theorem Sys2Proof.Laws.CarriedSizes.onlineChangeCheck : Sys2Proof.Laws.CarriedSizes.Statement (.onlineChangeCheck) :=
  Sys2Proof.Laws.CarriedSizes.of_none rfl
theorem Sys2Proof.Laws.CarriedSizes.onlineChangeApplied : Sys2Proof.Laws.CarriedSizes.Statement (.onlineChangeApplied) :=
  Sys2Proof.Laws.CarriedSizes.of_none rfl
theorem Sys2Proof.Laws.CarriedSizes.inputPulseSample (obs : PerLane PulseObs) (test : TestPart) : Sys2Proof.Laws.CarriedSizes.Statement (.inputPulseSample obs test) :=
  Sys2Proof.Laws.CarriedSizes.of_none rfl
theorem Sys2Proof.Laws.CarriedSizes.diagnosticRecord (load group : List Nat) (ports : PerLane (Option (List Byte))) : Sys2Proof.Laws.CarriedSizes.Statement (.diagnosticRecord load group ports) :=
  Sys2Proof.Laws.CarriedSizes.of_none rfl
theorem Sys2Proof.Laws.CarriedSizes.offPulse (k : Fin 64) (test : PulseTest) : Sys2Proof.Laws.CarriedSizes.Statement (.offPulse k test) :=
  Sys2Proof.Laws.CarriedSizes.of_none rfl
theorem Sys2Proof.Laws.CarriedSizes.protectiveSwitchOff (k : Fin 64) (cond : Protect) : Sys2Proof.Laws.CarriedSizes.Statement (.protectiveSwitchOff k cond) :=
  Sys2Proof.Laws.CarriedSizes.of_none rfl
theorem Sys2Proof.Laws.CarriedSizes.openWireDetected (k : Fin 64) : Sys2Proof.Laws.CarriedSizes.Statement (.openWireDetected k) :=
  Sys2Proof.Laws.CarriedSizes.of_none rfl
theorem Sys2Proof.Laws.CarriedSizes.loadLearningComplete (k : Fin 64) : Sys2Proof.Laws.CarriedSizes.Statement (.loadLearningComplete k) :=
  Sys2Proof.Laws.CarriedSizes.of_none rfl
theorem Sys2Proof.Laws.CarriedSizes.groupCurrentHigh (g : Fin 4) : Sys2Proof.Laws.CarriedSizes.Statement (.groupCurrentHigh g) :=
  Sys2Proof.Laws.CarriedSizes.of_none rfl
theorem Sys2Proof.Laws.CarriedSizes.contactorCheck : Sys2Proof.Laws.CarriedSizes.Statement (.contactorCheck) :=
  Sys2Proof.Laws.CarriedSizes.of_none rfl
theorem Sys2Proof.Laws.CarriedSizes.gunFrameSend (seg : Fin 4) : Sys2Proof.Laws.CarriedSizes.Statement (.gunFrameSend seg) :=
  Sys2Proof.Laws.CarriedSizes.of_none rfl
theorem Sys2Proof.Laws.CarriedSizes.gunFrameReceive (port : Port) (got : RingRx) : Sys2Proof.Laws.CarriedSizes.Statement (.gunFrameReceive port got) :=
  Sys2Proof.Laws.CarriedSizes.of_none rfl
theorem Sys2Proof.Laws.CarriedSizes.gunYieldEnd (seg : Fin 4) : Sys2Proof.Laws.CarriedSizes.Statement (.gunYieldEnd seg) :=
  Sys2Proof.Laws.CarriedSizes.of_none rfl
theorem Sys2Proof.Laws.CarriedSizes.gunListenEnd (seg : Fin 4) : Sys2Proof.Laws.CarriedSizes.Statement (.gunListenEnd seg) :=
  Sys2Proof.Laws.CarriedSizes.of_none rfl
theorem Sys2Proof.Laws.CarriedSizes.segmentDark (seg : Fin 4) : Sys2Proof.Laws.CarriedSizes.Statement (.segmentDark seg) :=
  Sys2Proof.Laws.CarriedSizes.of_none rfl
theorem Sys2Proof.Laws.CarriedSizes.gunTakeover (seg : Fin 4) : Sys2Proof.Laws.CarriedSizes.Statement (.gunTakeover seg) :=
  Sys2Proof.Laws.CarriedSizes.of_none rfl
theorem Sys2Proof.Laws.CarriedSizes.exclusiveWindowSend (station : Nat) : Sys2Proof.Laws.CarriedSizes.Statement (.exclusiveWindowSend station) :=
  Sys2Proof.Laws.CarriedSizes.of_none rfl
theorem Sys2Proof.Laws.CarriedSizes.exclusiveFrameReturn (frame : RingFrame) : Sys2Proof.Laws.CarriedSizes.Statement (.exclusiveFrameReturn frame) :=
  Sys2Proof.Laws.CarriedSizes.of_none rfl
theorem Sys2Proof.Laws.CarriedSizes.bidWindowSend (seg : Fin 4) : Sys2Proof.Laws.CarriedSizes.Statement (.bidWindowSend seg) :=
  Sys2Proof.Laws.CarriedSizes.of_none rfl
theorem Sys2Proof.Laws.CarriedSizes.bidFrameReturn (frame : RingFrame) : Sys2Proof.Laws.CarriedSizes.Statement (.bidFrameReturn frame) :=
  Sys2Proof.Laws.CarriedSizes.of_none rfl
theorem Sys2Proof.Laws.CarriedSizes.entryWindowSend (seg : Fin 4) : Sys2Proof.Laws.CarriedSizes.Statement (.entryWindowSend seg) :=
  Sys2Proof.Laws.CarriedSizes.of_none rfl
theorem Sys2Proof.Laws.CarriedSizes.entryFrameReturn (frame : RingFrame) : Sys2Proof.Laws.CarriedSizes.Statement (.entryFrameReturn frame) :=
  Sys2Proof.Laws.CarriedSizes.of_none rfl
theorem Sys2Proof.Laws.CarriedSizes.capabilityTimeout (station : Nat) : Sys2Proof.Laws.CarriedSizes.Statement (.capabilityTimeout station) :=
  Sys2Proof.Laws.CarriedSizes.of_none rfl
theorem Sys2Proof.Laws.CarriedSizes.stationLost (station : Nat) : Sys2Proof.Laws.CarriedSizes.Statement (.stationLost station) :=
  Sys2Proof.Laws.CarriedSizes.of_none rfl
theorem Sys2Proof.Laws.CarriedSizes.measureWindow : Sys2Proof.Laws.CarriedSizes.Statement (.measureWindow) :=
  Sys2Proof.Laws.CarriedSizes.of_none rfl
theorem Sys2Proof.Laws.CarriedSizes.linkDelayRequest (port : Port) (got : RingRx) : Sys2Proof.Laws.CarriedSizes.Statement (.linkDelayRequest port got) :=
  Sys2Proof.Laws.CarriedSizes.of_none rfl
theorem Sys2Proof.Laws.CarriedSizes.linkDelayResponse (port : Port) (rx : Nat) (bytes : List Byte) : Sys2Proof.Laws.CarriedSizes.Statement (.linkDelayResponse port rx bytes) :=
  Sys2Proof.Laws.CarriedSizes.of_none rfl
theorem Sys2Proof.Laws.CarriedSizes.scheduleSwitchDecision : Sys2Proof.Laws.CarriedSizes.Statement (.scheduleSwitchDecision) :=
  Sys2Proof.Laws.CarriedSizes.of_none rfl
theorem Sys2Proof.Laws.CarriedSizes.scheduleSwitchApplied : Sys2Proof.Laws.CarriedSizes.Statement (.scheduleSwitchApplied) :=
  Sys2Proof.Laws.CarriedSizes.of_none rfl
theorem Sys2Proof.Laws.CarriedSizes.telegramCopyReceived (lane : LaneId) (tel : List Byte) (medium seg : Nat) : Sys2Proof.Laws.CarriedSizes.Statement (.telegramCopyReceived lane tel medium seg) :=
  Sys2Proof.Laws.CarriedSizes.of_none rfl
theorem Sys2Proof.Laws.CarriedSizes.syncSlot (chan : Fin 4) : Sys2Proof.Laws.CarriedSizes.Statement (.syncSlot chan) :=
  Sys2Proof.Laws.CarriedSizes.of_none rfl
theorem Sys2Proof.Laws.CarriedSizes.nodeSlot (num : Nat) : Sys2Proof.Laws.CarriedSizes.Statement (.nodeSlot num) :=
  Sys2Proof.Laws.CarriedSizes.of_none rfl
theorem Sys2Proof.Laws.CarriedSizes.vitalEntryAborted (num : Nat) (started : Bool) : Sys2Proof.Laws.CarriedSizes.Statement (.vitalEntryAborted num started) :=
  Sys2Proof.Laws.CarriedSizes.of_none rfl
theorem Sys2Proof.Laws.CarriedSizes.canFrameSent (chan : Fin 4) (sent : CanSent) (brs : Bool) (tdcv : Nat) : Sys2Proof.Laws.CarriedSizes.Statement (.canFrameSent chan sent brs tdcv) :=
  Sys2Proof.Laws.CarriedSizes.of_none rfl
theorem Sys2Proof.Laws.CarriedSizes.canFrameReceived (chan : Fin 4) (frame : CanFrame) : Sys2Proof.Laws.CarriedSizes.Statement (.canFrameReceived chan frame) :=
  Sys2Proof.Laws.CarriedSizes.of_none rfl
theorem Sys2Proof.Laws.CarriedSizes.discoveryRequest (chan : Fin 4) : Sys2Proof.Laws.CarriedSizes.Statement (.discoveryRequest chan) :=
  Sys2Proof.Laws.CarriedSizes.of_none rfl
theorem Sys2Proof.Laws.CarriedSizes.discoveryResponse (resp : ChanFrame) : Sys2Proof.Laws.CarriedSizes.Statement (.discoveryResponse resp) :=
  Sys2Proof.Laws.CarriedSizes.of_none rfl
theorem Sys2Proof.Laws.CarriedSizes.nodeLost (num : Nat) : Sys2Proof.Laws.CarriedSizes.Statement (.nodeLost num) :=
  Sys2Proof.Laws.CarriedSizes.of_none rfl
theorem Sys2Proof.Laws.CarriedSizes.hostEntryLifetimeExpired (chan : Fin 4) (buf : Fin 16) : Sys2Proof.Laws.CarriedSizes.Statement (.hostEntryLifetimeExpired chan buf) :=
  Sys2Proof.Laws.CarriedSizes.of_none rfl
theorem Sys2Proof.Laws.CarriedSizes.errorPassive (chan : Fin 4) (tec rec : Nat) : Sys2Proof.Laws.CarriedSizes.Statement (.errorPassive chan tec rec) :=
  Sys2Proof.Laws.CarriedSizes.of_none rfl
theorem Sys2Proof.Laws.CarriedSizes.busOff (chan : Fin 4) : Sys2Proof.Laws.CarriedSizes.Statement (.busOff chan) :=
  Sys2Proof.Laws.CarriedSizes.of_none rfl
theorem Sys2Proof.Laws.CarriedSizes.busOffRecovered (chan : Fin 4) : Sys2Proof.Laws.CarriedSizes.Statement (.busOffRecovered chan) :=
  Sys2Proof.Laws.CarriedSizes.of_none rfl
theorem Sys2Proof.Laws.CarriedSizes.bitTimingWrite (chan : Fin 4) (data : Bool) (val : W32) : Sys2Proof.Laws.CarriedSizes.Statement (.bitTimingWrite chan data val) :=
  Sys2Proof.Laws.CarriedSizes.of_none rfl
theorem Sys2Proof.Laws.CarriedSizes.hifctlRun : Sys2Proof.Laws.CarriedSizes.Statement (.hifctlRun) :=
  Sys2Proof.Laws.CarriedSizes.of_none rfl
theorem Sys2Proof.Laws.CarriedSizes.hifctlMirror (on : Bool) : Sys2Proof.Laws.CarriedSizes.Statement (.hifctlMirror on) :=
  Sys2Proof.Laws.CarriedSizes.of_none rfl
theorem Sys2Proof.Laws.CarriedSizes.hiflaccRead : Sys2Proof.Laws.CarriedSizes.Statement (.hiflaccRead) :=
  Sys2Proof.Laws.CarriedSizes.of_none rfl
theorem Sys2Proof.Laws.CarriedSizes.hifevpRead : Sys2Proof.Laws.CarriedSizes.Statement (.hifevpRead) :=
  Sys2Proof.Laws.CarriedSizes.of_none rfl
theorem Sys2Proof.Laws.CarriedSizes.fprodRead (f : Fin 13) : Sys2Proof.Laws.CarriedSizes.Statement (.fprodRead f) :=
  Sys2Proof.Laws.CarriedSizes.of_none rfl
theorem Sys2Proof.Laws.CarriedSizes.doorbellPoll (words : List (Fin 96 × W32)) (entries : List PollEntry) : Sys2Proof.Laws.CarriedSizes.Statement (.doorbellPoll words entries) :=
  Sys2Proof.Laws.CarriedSizes.of_none rfl
theorem Sys2Proof.Laws.CarriedSizes.submissionRingHeld (sq : Fin 32) : Sys2Proof.Laws.CarriedSizes.Statement (.submissionRingHeld sq) :=
  Sys2Proof.Laws.CarriedSizes.of_none rfl
theorem Sys2Proof.Laws.CarriedSizes.hostRingMemoryInvalid (cause : InvCause) : Sys2Proof.Laws.CarriedSizes.Statement (.hostRingMemoryInvalid cause) :=
  Sys2Proof.Laws.CarriedSizes.of_none rfl
theorem Sys2Proof.Laws.CarriedSizes.pcieLinkDegraded (speed width : Nat) : Sys2Proof.Laws.CarriedSizes.Statement (.pcieLinkDegraded speed width) :=
  Sys2Proof.Laws.CarriedSizes.of_none rfl
theorem Sys2Proof.Laws.CarriedSizes.eventFifoDrain (eq : Fin 16) : Sys2Proof.Laws.CarriedSizes.Statement (.eventFifoDrain eq) :=
  Sys2Proof.Laws.CarriedSizes.of_none rfl
theorem Sys2Proof.Laws.CarriedSizes.stateMirrorWrite (finished : Bool) : Sys2Proof.Laws.CarriedSizes.Statement (.stateMirrorWrite finished) :=
  Sys2Proof.Laws.CarriedSizes.of_none rfl
theorem Sys2Proof.Laws.CarriedSizes.criticalPendingExpired (terminal : Nat) : Sys2Proof.Laws.CarriedSizes.Statement (.criticalPendingExpired terminal) :=
  Sys2Proof.Laws.CarriedSizes.of_none rfl
theorem Sys2Proof.Laws.CarriedSizes.hello : Sys2Proof.Laws.CarriedSizes.Statement (.hello) :=
  Sys2Proof.Laws.CarriedSizes.of_none rfl
theorem Sys2Proof.Laws.CarriedSizes.helloReceived (line0 line1 : LineCopy) (hello : Hello) : Sys2Proof.Laws.CarriedSizes.Statement (.helloReceived line0 line1 hello) :=
  Sys2Proof.Laws.CarriedSizes.of_none rfl
theorem Sys2Proof.Laws.CarriedSizes.partnerTelegram (copies : PartnerCopies) (medium seg : Nat) (tel : List Byte) : Sys2Proof.Laws.CarriedSizes.Statement (.partnerTelegram copies medium seg tel) :=
  Sys2Proof.Laws.CarriedSizes.of_none rfl
theorem Sys2Proof.Laws.CarriedSizes.partnerSubmission (frame : PartnerFrame Submission) : Sys2Proof.Laws.CarriedSizes.Statement (.partnerSubmission frame) :=
  Sys2Proof.Laws.CarriedSizes.of_sub frame.content rfl rfl
theorem Sys2Proof.Laws.CarriedSizes.pairLocalImage (image : Option (PartnerFrame PairImage)) : Sys2Proof.Laws.CarriedSizes.Statement (.pairLocalImage image) :=
  Sys2Proof.Laws.CarriedSizes.of_none rfl
theorem Sys2Proof.Laws.CarriedSizes.pairStatus (frame : Option (PartnerFrame PairStatusFrame)) : Sys2Proof.Laws.CarriedSizes.Statement (.pairStatus frame) :=
  Sys2Proof.Laws.CarriedSizes.of_none rfl
theorem Sys2Proof.Laws.CarriedSizes.stateChunk (index total : Nat) (copy : LineCopy) (line : Bool) (tail : Option StateTail) (bytes : List Byte) : Sys2Proof.Laws.CarriedSizes.Statement (.stateChunk index total copy line tail bytes) :=
  Sys2Proof.Laws.CarriedSizes.of_none rfl
theorem Sys2Proof.Laws.CarriedSizes.partnerAdmissionFrame (chan : Fin 4) (addr : Nat) (identity : W64) (slot : PartnerFrame Nat) : Sys2Proof.Laws.CarriedSizes.Statement (.partnerAdmissionFrame chan addr identity slot) :=
  Sys2Proof.Laws.CarriedSizes.of_none rfl
theorem Sys2Proof.Laws.CarriedSizes.partnerLinkLost : Sys2Proof.Laws.CarriedSizes.Statement (.partnerLinkLost) :=
  Sys2Proof.Laws.CarriedSizes.of_none rfl
theorem Sys2Proof.Laws.CarriedSizes.partnerLineLost (line : Bool) : Sys2Proof.Laws.CarriedSizes.Statement (.partnerLineLost line) :=
  Sys2Proof.Laws.CarriedSizes.of_none rfl
theorem Sys2Proof.Laws.CarriedSizes.leadNoAcknowledgement : Sys2Proof.Laws.CarriedSizes.Statement (.leadNoAcknowledgement) :=
  Sys2Proof.Laws.CarriedSizes.of_none rfl
theorem Sys2Proof.Laws.CarriedSizes.takeoverDecision : Sys2Proof.Laws.CarriedSizes.Statement (.takeoverDecision) :=
  Sys2Proof.Laws.CarriedSizes.of_none rfl
theorem Sys2Proof.Laws.CarriedSizes.outgoingDeadline : Sys2Proof.Laws.CarriedSizes.Statement (.outgoingDeadline) :=
  Sys2Proof.Laws.CarriedSizes.of_none rfl
theorem Sys2Proof.Laws.CarriedSizes.drillDay : Sys2Proof.Laws.CarriedSizes.Statement (.drillDay) :=
  Sys2Proof.Laws.CarriedSizes.of_none rfl
theorem Sys2Proof.Laws.CarriedSizes.rollCallLatch : Sys2Proof.Laws.CarriedSizes.Statement (.rollCallLatch) :=
  Sys2Proof.Laws.CarriedSizes.of_none rfl
theorem Sys2Proof.Laws.CarriedSizes.rollCallBlock (unit : RcUnit) (num : Nat) (bytes : List Byte) : Sys2Proof.Laws.CarriedSizes.Statement (.rollCallBlock unit num bytes) :=
  Sys2Proof.Laws.CarriedSizes.of_none rfl
theorem Sys2Proof.Laws.CarriedSizes.rollCallClose : Sys2Proof.Laws.CarriedSizes.Statement (.rollCallClose) :=
  Sys2Proof.Laws.CarriedSizes.of_none rfl
theorem Sys2Proof.Laws.CarriedSizes.rollCallSectionWrite : Sys2Proof.Laws.CarriedSizes.Statement (.rollCallSectionWrite) :=
  Sys2Proof.Laws.CarriedSizes.of_none rfl
theorem Sys2Proof.Laws.CarriedSizes.rollCallCompletion : Sys2Proof.Laws.CarriedSizes.Statement (.rollCallCompletion) :=
  Sys2Proof.Laws.CarriedSizes.of_none rfl
theorem Sys2Proof.Laws.CarriedSizes.counterSettingApply : Sys2Proof.Laws.CarriedSizes.Statement (.counterSettingApply) :=
  Sys2Proof.Laws.CarriedSizes.of_none rfl
theorem Sys2Proof.Laws.CarriedSizes.recordAccept (record : RecIn) : Sys2Proof.Laws.CarriedSizes.Statement (.recordAccept record) :=
  Sys2Proof.Laws.CarriedSizes.of_none rfl
theorem Sys2Proof.Laws.CarriedSizes.lossRecord (src : Fin 9) : Sys2Proof.Laws.CarriedSizes.Statement (.lossRecord src) :=
  Sys2Proof.Laws.CarriedSizes.of_none rfl
theorem Sys2Proof.Laws.CarriedSizes.recorderFlush (writable : Bool) (mismatches : Nat) : Sys2Proof.Laws.CarriedSizes.Statement (.recorderFlush writable mismatches) :=
  Sys2Proof.Laws.CarriedSizes.of_none rfl
theorem Sys2Proof.Laws.CarriedSizes.recorderReadDelivery (ring : Fin 8) : Sys2Proof.Laws.CarriedSizes.Statement (.recorderReadDelivery ring) :=
  Sys2Proof.Laws.CarriedSizes.of_none rfl
theorem Sys2Proof.Laws.CarriedSizes.fifoPointerMismatch (f : Fin 13) : Sys2Proof.Laws.CarriedSizes.Statement (.fifoPointerMismatch f) :=
  Sys2Proof.Laws.CarriedSizes.of_none rfl
theorem Sys2Proof.Laws.CarriedSizes.activationPrepare : Sys2Proof.Laws.CarriedSizes.Statement (.activationPrepare) :=
  Sys2Proof.Laws.CarriedSizes.of_none rfl
theorem Sys2Proof.Laws.CarriedSizes.updateRestart (env : StartEnv) : Sys2Proof.Laws.CarriedSizes.Statement (.updateRestart env) :=
  Sys2Proof.Laws.CarriedSizes.of_none rfl
theorem Sys2Proof.Laws.CarriedSizes.sessionIdleTimeout : Sys2Proof.Laws.CarriedSizes.Statement (.sessionIdleTimeout) :=
  Sys2Proof.Laws.CarriedSizes.of_none rfl
theorem Sys2Proof.Laws.CarriedSizes.serviceConnectionLost : Sys2Proof.Laws.CarriedSizes.Statement (.serviceConnectionLost) :=
  Sys2Proof.Laws.CarriedSizes.of_none rfl
theorem Sys2Proof.Laws.CarriedSizes.ocActivationTimeout : Sys2Proof.Laws.CarriedSizes.Statement (.ocActivationTimeout) :=
  Sys2Proof.Laws.CarriedSizes.of_none rfl
theorem Sys2Proof.Laws.CarriedSizes.tlsHandshake (suiteOk : Bool) (role : CertRole) (subject : W64) (chain : List Byte) : Sys2Proof.Laws.CarriedSizes.Statement (.tlsHandshake suiteOk role subject chain) :=
  Sys2Proof.Laws.CarriedSizes.of_none rfl
theorem Sys2Proof.Laws.CarriedSizes.authBackoffExpired : Sys2Proof.Laws.CarriedSizes.Statement (.authBackoffExpired) :=
  Sys2Proof.Laws.CarriedSizes.of_none rfl
theorem Sys2Proof.Laws.CarriedSizes.meshLoopBroken (lane : LaneId) : Sys2Proof.Laws.CarriedSizes.Statement (.meshLoopBroken lane) :=
  Sys2Proof.Laws.CarriedSizes.of_none rfl
theorem Sys2Proof.Laws.CarriedSizes.keyStoreEnvironment (lane : LaneId) : Sys2Proof.Laws.CarriedSizes.Statement (.keyStoreEnvironment lane) :=
  Sys2Proof.Laws.CarriedSizes.of_none rfl
theorem Sys2Proof.Laws.CarriedSizes.temperatureHigh (temp : Int) : Sys2Proof.Laws.CarriedSizes.Statement (.temperatureHigh temp) :=
  Sys2Proof.Laws.CarriedSizes.of_none rfl
theorem Sys2Proof.Laws.CarriedSizes.flashRefresh (flash : Flash) (wear : Nat) : Sys2Proof.Laws.CarriedSizes.Statement (.flashRefresh flash wear) :=
  Sys2Proof.Laws.CarriedSizes.of_none rfl
theorem Sys2Proof.Laws.CarriedSizes.goToRun (sub : Submission) : Sys2Proof.Laws.CarriedSizes.Statement (.goToRun sub) :=
  Sys2Proof.Laws.CarriedSizes.of_sub sub rfl rfl
theorem Sys2Proof.Laws.CarriedSizes.haltRequest (sub : Submission) : Sys2Proof.Laws.CarriedSizes.Statement (.haltRequest sub) :=
  Sys2Proof.Laws.CarriedSizes.of_sub sub rfl rfl
theorem Sys2Proof.Laws.CarriedSizes.possessionGrant (sub : Submission) : Sys2Proof.Laws.CarriedSizes.Statement (.possessionGrant sub) :=
  Sys2Proof.Laws.CarriedSizes.of_sub sub rfl rfl
theorem Sys2Proof.Laws.CarriedSizes.possessionReturn (sub : Submission) : Sys2Proof.Laws.CarriedSizes.Statement (.possessionReturn sub) :=
  Sys2Proof.Laws.CarriedSizes.of_sub sub rfl rfl
theorem Sys2Proof.Laws.CarriedSizes.forceSet (sub : Submission) : Sys2Proof.Laws.CarriedSizes.Statement (.forceSet sub) :=
  Sys2Proof.Laws.CarriedSizes.of_sub sub rfl rfl
theorem Sys2Proof.Laws.CarriedSizes.forceRelease (sub : Submission) : Sys2Proof.Laws.CarriedSizes.Statement (.forceRelease sub) :=
  Sys2Proof.Laws.CarriedSizes.of_sub sub rfl rfl
theorem Sys2Proof.Laws.CarriedSizes.routeRequest (sub : Submission) : Sys2Proof.Laws.CarriedSizes.Statement (.routeRequest sub) :=
  Sys2Proof.Laws.CarriedSizes.of_sub sub rfl rfl
theorem Sys2Proof.Laws.CarriedSizes.routeCancel (sub : Submission) : Sys2Proof.Laws.CarriedSizes.Statement (.routeCancel sub) :=
  Sys2Proof.Laws.CarriedSizes.of_sub sub rfl rfl
theorem Sys2Proof.Laws.CarriedSizes.runBlockBist (sub : Submission) (pass : Bool) : Sys2Proof.Laws.CarriedSizes.Statement (.runBlockBist sub pass) :=
  Sys2Proof.Laws.CarriedSizes.of_sub sub rfl rfl
theorem Sys2Proof.Laws.CarriedSizes.applicationCommand (sub : Submission) : Sys2Proof.Laws.CarriedSizes.Statement (.applicationCommand sub) :=
  Sys2Proof.Laws.CarriedSizes.of_sub sub rfl rfl
theorem Sys2Proof.Laws.CarriedSizes.clearExclusionRecord (sub : Submission) : Sys2Proof.Laws.CarriedSizes.Statement (.clearExclusionRecord sub) :=
  Sys2Proof.Laws.CarriedSizes.of_sub sub rfl rfl
theorem Sys2Proof.Laws.CarriedSizes.acknowledgeSagLatch (sub : Submission) : Sys2Proof.Laws.CarriedSizes.Statement (.acknowledgeSagLatch sub) :=
  Sys2Proof.Laws.CarriedSizes.of_sub sub rfl rfl
theorem Sys2Proof.Laws.CarriedSizes.clearExternalFeedLatch (sub : Submission) : Sys2Proof.Laws.CarriedSizes.Statement (.clearExternalFeedLatch sub) :=
  Sys2Proof.Laws.CarriedSizes.of_sub sub rfl rfl
theorem Sys2Proof.Laws.CarriedSizes.clearChannelLatch (sub : Submission) : Sys2Proof.Laws.CarriedSizes.Statement (.clearChannelLatch sub) :=
  Sys2Proof.Laws.CarriedSizes.of_sub sub rfl rfl
theorem Sys2Proof.Laws.CarriedSizes.discardLearnedCurrent (sub : Submission) : Sys2Proof.Laws.CarriedSizes.Statement (.discardLearnedCurrent sub) :=
  Sys2Proof.Laws.CarriedSizes.of_sub sub rfl rfl
theorem Sys2Proof.Laws.CarriedSizes.switchSchedule (sub : Submission) : Sys2Proof.Laws.CarriedSizes.Statement (.switchSchedule sub) :=
  Sys2Proof.Laws.CarriedSizes.of_sub sub rfl rfl
theorem Sys2Proof.Laws.CarriedSizes.rebindStationIdentity (sub : Submission) : Sys2Proof.Laws.CarriedSizes.Statement (.rebindStationIdentity sub) :=
  Sys2Proof.Laws.CarriedSizes.of_sub sub rfl rfl
theorem Sys2Proof.Laws.CarriedSizes.readConnectionCounters (sub : Submission) : Sys2Proof.Laws.CarriedSizes.Statement (.readConnectionCounters sub) :=
  Sys2Proof.Laws.CarriedSizes.of_sub sub rfl rfl
theorem Sys2Proof.Laws.CarriedSizes.hostCanTransmit (sub : Submission) : Sys2Proof.Laws.CarriedSizes.Statement (.hostCanTransmit sub) :=
  Sys2Proof.Laws.CarriedSizes.of_sub sub rfl rfl
theorem Sys2Proof.Laws.CarriedSizes.cancelHostTransmit (sub : Submission) (started : Bool) : Sys2Proof.Laws.CarriedSizes.Statement (.cancelHostTransmit sub started) :=
  Sys2Proof.Laws.CarriedSizes.of_sub sub rfl rfl
theorem Sys2Proof.Laws.CarriedSizes.noOperation (sub : Submission) : Sys2Proof.Laws.CarriedSizes.Statement (.noOperation sub) :=
  Sys2Proof.Laws.CarriedSizes.of_sub sub rfl rfl
theorem Sys2Proof.Laws.CarriedSizes.changeover (sub : Submission) : Sys2Proof.Laws.CarriedSizes.Statement (.changeover sub) :=
  Sys2Proof.Laws.CarriedSizes.of_sub sub rfl rfl
theorem Sys2Proof.Laws.CarriedSizes.reJoin (sub : Submission) : Sys2Proof.Laws.CarriedSizes.Statement (.reJoin sub) :=
  Sys2Proof.Laws.CarriedSizes.of_sub sub rfl rfl
theorem Sys2Proof.Laws.CarriedSizes.openSession (sub : Submission) : Sys2Proof.Laws.CarriedSizes.Statement (.openSession sub) :=
  Sys2Proof.Laws.CarriedSizes.of_sub sub rfl rfl
theorem Sys2Proof.Laws.CarriedSizes.header (sub : Submission) : Sys2Proof.Laws.CarriedSizes.Statement (.header sub) :=
  Sys2Proof.Laws.CarriedSizes.of_sub sub rfl rfl
theorem Sys2Proof.Laws.CarriedSizes.payloadChunk (sub : Submission) : Sys2Proof.Laws.CarriedSizes.Statement (.payloadChunk sub) :=
  Sys2Proof.Laws.CarriedSizes.of_sub sub rfl rfl
theorem Sys2Proof.Laws.CarriedSizes.verify (sub : Submission) : Sys2Proof.Laws.CarriedSizes.Statement (.verify sub) :=
  Sys2Proof.Laws.CarriedSizes.of_sub sub rfl rfl
theorem Sys2Proof.Laws.CarriedSizes.activate (sub : Submission) : Sys2Proof.Laws.CarriedSizes.Statement (.activate sub) :=
  Sys2Proof.Laws.CarriedSizes.of_sub sub rfl rfl
theorem Sys2Proof.Laws.CarriedSizes.closeSession (sub : Submission) : Sys2Proof.Laws.CarriedSizes.Statement (.closeSession sub) :=
  Sys2Proof.Laws.CarriedSizes.of_sub sub rfl rfl
theorem Sys2Proof.Laws.CarriedSizes.recorderRead (sub : Submission) : Sys2Proof.Laws.CarriedSizes.Statement (.recorderRead sub) :=
  Sys2Proof.Laws.CarriedSizes.of_sub sub rfl rfl
theorem Sys2Proof.Laws.CarriedSizes.recorderReadStop (sub : Submission) : Sys2Proof.Laws.CarriedSizes.Statement (.recorderReadStop sub) :=
  Sys2Proof.Laws.CarriedSizes.of_sub sub rfl rfl
theorem Sys2Proof.Laws.CarriedSizes.rollCall (sub : Submission) : Sys2Proof.Laws.CarriedSizes.Statement (.rollCall sub) :=
  Sys2Proof.Laws.CarriedSizes.of_sub sub rfl rfl
theorem Sys2Proof.Laws.CarriedSizes.setCounters (sub : Submission) : Sys2Proof.Laws.CarriedSizes.Statement (.setCounters sub) :=
  Sys2Proof.Laws.CarriedSizes.of_sub sub rfl rfl
theorem Sys2Proof.Laws.CarriedSizes.provision (head : OwnerHead) (root : List Byte) (nid : Nat) (partner : W64) (paired : Bool) : Sys2Proof.Laws.CarriedSizes.Statement (.provision head root nid partner paired) :=
  Sys2Proof.Laws.CarriedSizes.of_none rfl
theorem Sys2Proof.Laws.CarriedSizes.loadWrappedKeys (head : OwnerHead) (entries : List KeyEntry) : Sys2Proof.Laws.CarriedSizes.Statement (.loadWrappedKeys head entries) :=
  Sys2Proof.Laws.CarriedSizes.of_none rfl
theorem Sys2Proof.Laws.CarriedSizes.lifecycleTransition (head : OwnerHead) (target : Lifecycle) : Sys2Proof.Laws.CarriedSizes.Statement (.lifecycleTransition head target) :=
  Sys2Proof.Laws.CarriedSizes.of_none rfl
theorem Sys2Proof.Laws.CarriedSizes.setAlarmLevels (head : OwnerHead) (levels : List Nat) (authn : Nat) : Sys2Proof.Laws.CarriedSizes.Statement (.setAlarmLevels head levels authn) :=
  Sys2Proof.Laws.CarriedSizes.of_none rfl
theorem Sys2Proof.Laws.CarriedSizes.clearPendingAlarm (head : OwnerHead) : Sys2Proof.Laws.CarriedSizes.Statement (.clearPendingAlarm head) :=
  Sys2Proof.Laws.CarriedSizes.of_none rfl
theorem Sys2Proof.Laws.CarriedSizes.ownerUpdateLock (head : OwnerHead) (on : Bool) : Sys2Proof.Laws.CarriedSizes.Statement (.ownerUpdateLock head on) :=
  Sys2Proof.Laws.CarriedSizes.of_none rfl
theorem Sys2Proof.Laws.CarriedSizes.raiseRollbackFloor (head : OwnerHead) (kind : Nat) : Sys2Proof.Laws.CarriedSizes.Statement (.raiseRollbackFloor head kind) :=
  Sys2Proof.Laws.CarriedSizes.of_none rfl
theorem Sys2Proof.Laws.CarriedSizes.revokeImageVerificationKey (head : OwnerHead) (slot : Nat) (signer : Nat) (sig : List Byte) : Sys2Proof.Laws.CarriedSizes.Statement (.revokeImageVerificationKey head slot signer sig) :=
  Sys2Proof.Laws.CarriedSizes.of_none rfl
theorem Sys2Proof.Laws.CarriedSizes.partnerLineRestored (line : Bool) : Sys2Proof.Laws.CarriedSizes.Statement (.partnerLineRestored line) :=
  Sys2Proof.Laws.CarriedSizes.of_none rfl
theorem Sys2Proof.Laws.CarriedSizes.msixVectorUnmasked (entry : MsixWrite) : Sys2Proof.Laws.CarriedSizes.Statement (.msixVectorUnmasked entry) :=
  Sys2Proof.Laws.CarriedSizes.of_none rfl
theorem Sys2Proof.Laws.CarriedSizes.laneSupplyLost (lane : LaneId) : Sys2Proof.Laws.CarriedSizes.Statement (.laneSupplyLost lane) :=
  Sys2Proof.Laws.CarriedSizes.of_none rfl
theorem Sys2Proof.Laws.CarriedSizes.holdUpStoreExhausted : Sys2Proof.Laws.CarriedSizes.Statement (.holdUpStoreExhausted) :=
  Sys2Proof.Laws.CarriedSizes.of_none rfl
end

