-- ==== Sys2Proof/Laws/Submit.lean ====
section
/-! SUPPORT. A submission that may be taken: what consuming, holding and accepting it leaves, and that its opcode's own meaning then runs
(R42, R95, R423-R440). -/

namespace Sys2Proof.Machine

variable {m : Mod} {q : Fin 32} {opc : Nat} {sub : Submission} {crit : Bool}

/-! ## Taking an entry -/

/-- The host interface less what taking an entry writes of it: the rings and what they told, the head block and the FIFOs. -/
def HostIf.noTake (h : HostIf) : HostIf := { h.noTold with head := [], dfifo := [] }

/-- From `m` to `n` an entry was taken at most. -/
structure Took (m n : Mod) : Prop where
  rest : { n with host := m.host, rcd := m.rcd, pc := m.pc, pr := m.pr } = m
  pc : n.pc = { m.pc with consumed := n.pc.consumed }
  pr : n.pr = { m.pr with subOut := n.pr.subOut }
  host : n.host.noTake = m.host.noTake
  cls : ∀ j, (ringOf n j).cls = (ringOf m j).cls

theorem Took.rfl' (m : Mod) : Took m m := ⟨rfl, rfl, rfl, rfl, fun _ => rfl⟩

theorem Took.trans {a b c : Mod} (h : Took a b) (g : Took b c) : Took a c := by
  refine ⟨?_, ?_, ?_, g.host.trans h.host, fun j => (g.cls j).trans (h.cls j)⟩
  · rw [← h.rest, ← g.rest]
  · rw [g.pc, h.pc]
  · rw [g.pr, h.pr]

/-- A ring's class is no matter of its counts. -/
theorem updRing_cls (i j : Nat) (f : Ring → Ring) (m : Mod) (hf : ∀ r, (f r).cls = r.cls) : (ringOf (updRing i f m) j).cls = (ringOf m j).cls := by
  unfold updRing
  by_cases h : j = i
  · subst h; rw [ringOf_setRing_self]; exact hf _
  · exact congrArg Ring.cls (ringOf_setRing_ne m i j _ h)

theorem took_updRing (i : Nat) (f : Ring → Ring) (m : Mod) (hf : ∀ r, (f r).cls = r.cls) : Took m (updRing i f m) :=
  ⟨rfl, rfl, rfl, rfl, fun j => updRing_cls i j f m hf⟩

theorem took_host (f : HostIf → HostIf) (m : Mod) (h : (f m.host).noTake = m.host.noTake) (hr : (f m.host).rings = m.host.rings) :
    Took m (updHost f m) := ⟨rfl, rfl, rfl, h, fun j => congrArg Ring.cls (ringOf_congr (a := updHost f m) hr j)⟩

theorem took_of_host {n : Mod} (h : { n with host := m.host, rcd := m.rcd } = m) (hh : n.host.noTold = m.host.noTold)
    (hr : ∀ j, (ringOf n j).setup = (ringOf m j).setup) : Took m n := by
  refine ⟨?_, ?_, ?_, congrArg (fun x : HostIf => { x with head := [], dfifo := [] }) hh, fun j => (congrArg Ring.cls (hr j) :)⟩
  · rw [← h]
  · rw [← h]
  · rw [← h]

theorem took_raise (code : Nat) (x : EvArgs) (m : Mod) : Took m (raise code x m) :=
  took_of_host (congrArg (fun n : Mod => { n with host := m.host, rcd := m.rcd }) (raise_noHR m code x)) (raise_host_noTold m code x)
    (raise_setup m code x)

theorem took_ringWrite (i : Nat) (mk : Bool → RingEntry) (m : Mod) : Took m (ringWrite i mk m) :=
  took_of_host (congrArg (fun n : Mod => { n with host := m.host, rcd := m.rcd }) (ringWrite_noHost m i mk))
    (noOut_noTold (ringWrite_host_noOut m i mk)) (fun j => ringWrite_setup m i j mk)

theorem took_dfifo (f : Nat) (g : DiagFifo → DiagFifo) (m : Mod) : Took m (updDfifo f g m) := took_host _ _ rfl rfl

theorem took_writeCopy (t : Nat) (x : FifoItem) (m : Mod) : Took m (writeCopy t x m) := by
  unfold writeCopy; dsimp only; split
  · exact (took_ringWrite _ _ m).trans (took_updRing _ (fun r => { r with lost := 0 }) _ (fun _ => rfl))
  · refine (took_updRing (88 + t) (fun r => { r with aux := r.aux + 1, lost := r.lost + 1 }) m (fun _ => rfl)).trans ?_
    unfold onlyIf; split
    · exact took_raise _ _ _
    · exact Took.rfl' _

theorem took_mirrorCopy (t medium seg : Nat) (rx : Bool) (tel : List Byte) (m : Mod) : Took m (mirrorCopy t rx medium seg tel m) := by
  unfold mirrorCopy; split
  · exact Took.rfl' _
  · refine Took.trans (b := fifoTake (1 + t) { received := rx, medium := medium, seg := seg, at_ := now m, tel := tel } m) ?_ ?_
    · unfold fifoTake; dsimp only; split
      · exact took_dfifo _ _ m
      · generalize hn : updDfifo (1 + t) _ m = n
        have hn : Took m n := hn ▸ took_dfifo _ _ m
        refine hn.trans ?_
        unfold onlyIf; split
        · exact took_updRing _ (fun r => { r with aux := r.aux + 1, lost := r.lost + 1 }) _ (fun _ => rfl)
        · exact Took.rfl' _
    · generalize fifoTake _ _ m = n
      unfold drainMirror; dsimp only; split
      · exact Took.rfl' _
      · exact forEach_inv (Took n) _ _ _ (fun x k h => h.trans (took_writeCopy t x k)) (by unfold fifoGive; exact took_dfifo _ _ n)

theorem took_consume (i : Nat) (m : Mod) : Took m (consume i m) := by
  unfold consume; dsimp only
  generalize hn : updRing i _ m = n
  have hn : Took m n := hn ▸ took_updRing _ _ m (fun _ => rfl)
  exact hn.trans ⟨rfl, rfl, rfl, rfl, fun _ => rfl⟩

theorem took_ringBell (i : Nat) (m : Mod) : Took m (ringBell i m) := took_updRing _ _ m (fun r => by split <;> rfl)

theorem took_forward (s : Submission) (m : Mod) : Took m (forwardSub s m) := by
  unfold forwardSub; split
  · exact ⟨rfl, rfl, rfl, rfl, fun _ => rfl⟩
  · exact Took.rfl' _

/-- Taking an entry changes the rings and what they told, the submissions on their way to SHADOW, and the count of those consumed. -/
theorem took_takeIn (s : Submission) (m : Mod) : Took m (takeIn s m) := by
  unfold takeIn; split
  · rename_i q _
    refine Took.trans ?_ (took_forward _ _)
    have h0 : Took m (updPr (fun p => { p with subOut := [] }) m) := ⟨rfl, rfl, rfl, rfl, fun _ => rfl⟩
    refine (h0.trans ((took_ringBell q.val _).trans (took_consume q.val _))).trans ?_
    unfold onlyIf; split
    · exact took_mirrorCopy _ _ _ _ _ _
    · exact Took.rfl' _
  · exact Took.rfl' _
  · exact Took.rfl' _

theorem Took.ln {n : Mod} (h : Took m n) : n.ln = m.ln := by rw [← h.rest]
theorem Took.waiting {n : Mod} (h : Took m n) : n.host.waiting = m.host.waiting := (congrArg HostIf.waiting h.host :)
theorem Took.critWait {n : Mod} (h : Took m n) : n.host.critWait = m.host.critWait := (congrArg HostIf.critWait h.host :)

/-! ## Holding it to the freeze, and accepting it -/

theorem feGone_of_lanes {a b : Mod} (h : ∀ l, (a.ln.get l).alive = (b.ln.get l).alive ∧ (a.ln.get l).feLost = (b.ln.get l).feLost) :
    feGone a = feGone b := by
  have e : aliveLanes a = aliveLanes b := by unfold aliveLanes; congr 1; funext l; exact (h l).1
  have ea : a.ln.a.feLost = b.ln.a.feLost := (h .a).2
  unfold feGone agreedBy
  rw [e]
  simp only [ea, fun l => (h l).2]

/-- Up to the freeze only time passes. -/
theorem toFreeze_lane (m : Mod) (l : LaneId) : ((toFreeze m).ln.get l).noClock = (m.ln.get l).noClock := by
  unfold toFreeze; split
  · rfl
  · exact passTo_lane m _ l

theorem toFreeze_host (m : Mod) : (toFreeze m).host = m.host := by
  unfold toFreeze; split
  · rfl
  · simp [passTo]

/-- An entry of a host ring is held as it came: it waits, and every running lane notes its index. -/
theorem holdSub_ring {s : Submission} (hs : s.src = .ring q) (m : Mod) : holdSub s m =
    updLanes (fun _ x => if x.alive then { x with subIdx := tabSet 0 x.subIdx (ringKey s.src) (BitVec.ofNat 32 (s.index + 1)) } else x)
      (updHost (fun h => { h with waiting := h.waiting ++ [s] }) m) := by
  unfold holdSub; rw [hs]

theorem freeze_host {s : Submission} (hs : s.src = .ring q) (m : Mod) :
    (toFreeze (holdSub s m)).host = { m.host with waiting := m.host.waiting ++ [s] } := by
  rw [toFreeze_host, holdSub_ring hs]; rfl

theorem atFreeze_host (hs : sub.src = .ring q) : (atFreeze opc sub m).host =
    { (takeIn { sub with opc := opc } m).host with waiting := (takeIn { sub with opc := opc } m).host.waiting ++ [{ sub with opc := opc }] } :=
  freeze_host (s := { sub with opc := opc }) hs _

/-- What the entry's consumption leaves at the freeze: it waits behind those that waited. -/
theorem atFreeze_waiting (hs : sub.src = .ring q) : (atFreeze opc sub m).host.waiting = m.host.waiting ++ [{ sub with opc := opc }] :=
  (congrArg HostIf.waiting (atFreeze_host hs) :).trans
    (congrArg (· ++ [{ sub with opc := opc }]) (took_takeIn { sub with opc := opc } m).waiting)

theorem atFreeze_critWait (hs : sub.src = .ring q) : (atFreeze opc sub m).host.critWait = m.host.critWait :=
  (congrArg HostIf.critWait (atFreeze_host hs) :).trans (took_takeIn { sub with opc := opc } m).critWait

theorem atFreeze_cls (hs : sub.src = .ring q) (j : Nat) : (ringOf (atFreeze opc sub m) j).cls = (ringOf m j).cls :=
  (congrArg Ring.cls (ringOf_congr (b := takeIn { sub with opc := opc } m) (congrArg HostIf.rings (atFreeze_host hs) :) j)).trans
    ((took_takeIn { sub with opc := opc } m).cls j)

theorem atFreeze_feGone (hs : sub.src = .ring q) : feGone (atFreeze opc sub m) = feGone m := by
  rw [← feGone_congr (took_takeIn { sub with opc := opc } m).ln]
  refine feGone_of_lanes fun l => ?_
  unfold atFreeze
  generalize takeIn { sub with opc := opc } m = n
  have h := toFreeze_lane (holdSub { sub with opc := opc } n) l
  have g : ((holdSub { sub with opc := opc } n).ln.get l).alive = (n.ln.get l).alive ∧
      ((holdSub { sub with opc := opc } n).ln.get l).feLost = (n.ln.get l).feLost := by
    rw [holdSub_ring (s := { sub with opc := opc }) hs]
    have k : ∀ (i : Nat) (w : W32) (x : Lane), (if x.alive = true then { x with subIdx := tabSet 0 x.subIdx i w } else x).alive = x.alive ∧
        (if x.alive = true then { x with subIdx := tabSet 0 x.subIdx i w } else x).feLost = x.feLost := by
      intro i w x; split <;> exact ⟨rfl, rfl⟩
    cases l <;> exact k _ _ _
  exact ⟨(congrArg Lane.alive h :).trans g.1, (congrArg Lane.feLost h :).trans g.2⟩

/-- Accepting changes the counts of the host, the submissions in work and those of the cycle. -/
theorem accept_frame (s : Submission) (m : Mod) : { accept s m with host := m.host } = m := by
  unfold accept; dsimp only; split
  · split <;> rfl
  · rfl

theorem accept_host (s : Submission) (m : Mod) : ∃ a cs, (accept s m).host =
    { m.host with acc := a, open_ := m.host.open_ ++ [acceptedOf s s.opc], order := m.host.order ++ [acceptedOf s s.opc],
                  cycleSubs := cs, cycleAt := scn m + 1 } := by
  unfold accept; dsimp only; split
  · split
    · exact ⟨_, _, rfl⟩
    · exact ⟨m.host.acc, _, rfl⟩
  · exact ⟨m.host.acc, _, rfl⟩

theorem taken_open : acceptedOf sub opc ∈ (taken opc sub m).host.open_ := by
  obtain ⟨a, cs, h⟩ := accept_host { sub with opc := opc } (updHost (fun h => { h with waiting := [], critWait := [] }) (atFreeze opc sub m))
  unfold taken; rw [h]
  simp [acceptedOf]

theorem flatMap_range_one {α : Type} (x : α) (k n : Nat) (h : k < n) :
    (List.range n).flatMap (fun i => if (k == i) = true then [x] else []) = [x] := by
  induction n with
  | zero => omega
  | succ n ih =>
    rw [List.range_succ, List.flatMap_append]
    by_cases e : k = n
    · subst e
      have : (List.range k).flatMap (fun i => if (k == i) = true then [x] else []) = [] := by
        rw [List.flatMap_eq_nil_iff]; intro i hi
        have := List.mem_range.mp hi
        simp; omega
      rw [this]; simp
    · rw [ih (by omega)]; simp [e]

/-- The one entry that waits, where it is agreed, is all that is accepted. -/
theorem inOrder_one {s : Submission} {ok : Submission → Bool} {n : Mod} (hs : s.src = .ring q) (hf : feGone n = false)
    (hw : n.host.waiting = [s]) (ho : ok s = true) : inOrder ok n = [s] := by
  have hk : ringKey s.src < 65 := by rw [hs]; have := q.isLt; simp only [ringKey]; omega
  unfold inOrder; rw [hf, hw]
  simp only [Bool.false_eq_true, if_false, List.filter_cons, List.filter_nil, ho, Bool.and_true]
  exact flatMap_range_one s _ _ hk

/-- The one entry that waits is accepted and processed, where it is agreed and not deferred. -/
theorem acceptBy_one {s : Submission} {ok : Submission → Bool} {run : Submission → Mod → Mod} {n : Mod} (hs : s.src = .ring q)
    (hf : feGone n = false) (hw : n.host.waiting = [s]) (hc : n.host.critWait = []) (ho : ok s = true)
    (hd : (critDeferred n && s.crit) = false) :
    acceptBy ok run n = run s (accept s (updHost (fun h => { h with waiting := [], critWait := [] }) n)) := by
  have hl : updHost (fun h => { h with waiting := h.waiting.filter (fun s => !(ok s)),
                                       critWait := [s].filter (fun s => critDeferred n && s.crit) }) n =
      updHost (fun h => { h with waiting := [], critWait := [] }) n := by
    unfold updHost; simp only [hw, List.filter_cons, ho, hd, List.filter_nil, Bool.not_true, Bool.false_eq_true, if_false]
  unfold acceptBy
  rw [inOrder_one hs hf hw ho, hc]
  dsimp only
  rw [hl]
  simp only [List.filter_cons, hd, List.filter_nil, Bool.not_false, if_true, List.nil_append]
  rfl

/-- The entry that enters is taken at the freeze, and its opcode's own checks begin there. -/
theorem direct_enters (f : Handler) (h : Enters q opc crit sub m) :
    direct opc f sub m = runSub (some f) (acceptedOf sub opc) { sub with opc := opc } (taken opc sub m) := by
  obtain ⟨hs, hc, ht, hcl, hw, hcw, hp, hd⟩ := h
  have hfe : feGone (atFreeze opc sub m) = false := by
    rw [atFreeze_feGone hs]
    have := ht; unfold mayTake at this; simp only [hs, Bool.and_eq_true] at this
    have l := this.1.2; unfold sqOpen ledgerUp at l; simp only [Bool.and_eq_true] at l
    simpa using l.1.1.1.1.1.2
  have hnr : onFeRing m { sub with opc := opc } = false := by unfold onFeRing; simp only [hs]; exact hcl
  have hdf : (critDeferred (atFreeze opc sub m) && sub.crit) = false := by
    rw [hc]; cases crit
    · exact Bool.and_false _
    · rw [hd rfl]; rfl
  have ns : sub.src ≠ .service := by rw [hs]; exact fun h => nomatch h
  unfold direct
  simp only [ht, hnr, Bool.not_true, Bool.false_eq_true, if_false]
  rw [if_neg ns]
  refine (acceptBy_one (s := { sub with opc := opc }) (n := atFreeze opc sub m) hs hfe ?_ ?_ ?_ hdf).trans ?_
  · rw [atFreeze_waiting hs, hw]; rfl
  · rw [atFreeze_critWait hs, hcw]
  · rw [if_pos rfl]; exact hp
  · rw [if_pos rfl]; unfold runWith; dsimp only
    exact if_neg (fun h => h taken_open)

/-- Where the mode admits it and it is critical as R440 has it, its own meaning runs, or its telegram is checked first. -/
theorem direct_admits (f : Handler) (h : Admits q opc crit sub m) (hfe : feOpcode opc = false) :
    direct opc f sub m = if crit then critical f (acceptedOf sub opc) { sub with opc := opc } (taken opc sub m)
      else f (acceptedOf sub opc) { sub with opc := opc } (taken opc sub m) := by
  obtain ⟨he, hn, hb⟩ := h
  have hnr : onFeRing (taken opc sub m) { sub with opc := opc } = false := by
    unfold onFeRing; simp only [he.1]
    have : (taken opc sub m).host.rings = (atFreeze opc sub m).host.rings := by
      obtain ⟨a, cs, h⟩ := accept_host { sub with opc := opc } (updHost (fun h => { h with waiting := [], critWait := [] }) (atFreeze opc sub m))
      unfold taken; rw [h]; rfl
    rw [ringOf_congr this, atFreeze_cls he.1]; exact he.2.2.2.1
  rw [direct_enters f he]
  unfold runSub
  simp only [hnr, hfe, hb, hn, Bool.false_eq_true, if_false]
  have hc := he.2.1
  cases crit <;> simp [hc]

/-- An entry of a front-end ring is accepted when it is consumed, and its own meaning runs then (R398, R433). -/
theorem direct_atOnce (f : Handler) (hs : sub.src = .ring q) (ht : mayTake m { sub with opc := opc } = true) (hcl : (ringOf m q.val).cls = true) :
    direct opc f sub m = runSub (some f) (acceptedOf sub opc) { sub with opc := opc } (takenAtOnce opc sub m) := by
  have ns : sub.src ≠ .service := by rw [hs]; exact fun h => nomatch h
  have hr : onFeRing m { sub with opc := opc } = true := by unfold onFeRing; simp only [hs]; exact hcl
  unfold direct
  simp only [ht, hr, Bool.not_true, Bool.false_eq_true, if_false, if_true]
  rw [if_neg ns]; rfl

end Sys2Proof.Machine
end

