-- ==== Sys2Proof/Laws/Wire.lean ====
section
/-! SUPPORT. What hearing a partner frame does: the lines are judged, its check value is taken through a unit, and nothing else. -/

namespace Sys2Proof.Machine

variable (m : Mod)

/-- What a copy says of its line. -/
def judgeLine (i : Nat) (c : LineCopy) (m : Mod) : Mod :=
  match c with
  | .absent => m
  | .good => heardLine i true m
  | .damaged => heardLine i false m

theorem heardLine_pr (i : Nat) (ok : Bool) {m n : Mod} (hp : m.pr = n.pr) (hc : m.clk = n.clk) : (heardLine i ok m).pr = (heardLine i ok n).pr := by
  unfold heardLine updPr; simp only [hp, hc]; split <;> rfl
@[simp] theorem heardLine_rest (i : Nat) (ok : Bool) : { heardLine i ok m with pr := m.pr } = m := by unfold heardLine; split <;> rfl
@[simp] theorem heardLine_clk (i : Nat) (ok : Bool) : (heardLine i ok m).clk = m.clk := by unfold heardLine; split <;> rfl

theorem heardLine_nv (i : Nat) (ok : Bool) : (heardLine i ok m).nv = m.nv := by unfold heardLine; split <;> rfl

@[simp] theorem partnerCheck_pr (ok : Bool) : (partnerCheck ok m).pr = m.pr := by unfold partnerCheck takeFree; simp
@[simp] theorem partnerCheck_clk (ok : Bool) : (partnerCheck ok m).clk = m.clk := by unfold partnerCheck takeFree; simp
theorem partnerCheck_noFreeNHostRcdPc (ok : Bool) : (partnerCheck ok m).noFreeNHostRcdPc = m.noFreeNHostRcdPc := by
  unfold partnerCheck takeFree; simp [Mod.noFreeNHostRcdPc]

/-- All but what hearing a frame may change. -/
def Mod.noWire (m : Mod) : Mod := { m with freeN := 0, host := HostIf.fresh, rcd := Recorder.fresh, pc := Counters.fresh, pr := Pair.fresh }

theorem noWire_rest {a b : Mod} (h : a.noWire = b.noWire) : { a with freeN := b.freeN, host := b.host, rcd := b.rcd, pc := b.pc, pr := b.pr } = b := by
  cases a; cases b; simp only [Mod.noWire, Mod.mk.injEq] at h ⊢; simp_all

theorem hearCopy_pr (i : Nat) (c : LineCopy) {m n : Mod} (hp : m.pr = n.pr) (hc : m.clk = n.clk) : (hearCopy i c m).pr = (judgeLine i c n).pr := by
  cases c
  · exact hp
  · exact heardLine_pr i true (by simp [hp]) (by simp [hc])
  · exact heardLine_pr i false (by simp [hp]) (by simp [hc])

theorem hearCopy_noWire (i : Nat) (c : LineCopy) : (hearCopy i c m).noWire = m.noWire := by
  have k (ok : Bool) : (heardLine i ok (partnerCheck ok m)).noWire = m.noWire := by
    have a : (heardLine i ok (partnerCheck ok m)).noWire = (partnerCheck ok m).noWire := by unfold heardLine; split <;> rfl
    have b := congrArg (fun n : Mod => { n with pr := Pair.fresh }) (partnerCheck_noFreeNHostRcdPc m ok)
    exact a.trans b
  cases c
  · rfl
  · exact k true
  · exact k false

@[simp] theorem hearCopy_clk (i : Nat) (c : LineCopy) : (hearCopy i c m).clk = m.clk := (congrArg Mod.clk (hearCopy_noWire m i c) :)

/-- The pair part after a frame is that of its two lines judged, where the link is fitted. -/
theorem hearFrame_pr (c : PartnerCopies) (h : linkFitted m = true) : (hearFrame c m).pr = (judgeLine 1 c.line1 (judgeLine 0 c.line0 m)).pr := by
  unfold hearFrame; rw [if_neg (by simp [h])]
  refine hearCopy_pr 1 c.line1 (hearCopy_pr 0 c.line0 rfl rfl) ?_
  simp only [hearCopy_clk]
  cases c.line0 <;> simp [judgeLine]

theorem hearFrame_noWire (c : PartnerCopies) : (hearFrame c m).noWire = m.noWire := by
  unfold hearFrame
  split
  · rfl
  · rw [hearCopy_noWire, hearCopy_noWire]

/-- Nothing else changes but the free counter, what was told and counted. -/
theorem hearFrame_rest (c : PartnerCopies) :
    { hearFrame c m with freeN := m.freeN, host := m.host, rcd := m.rcd, pc := m.pc, pr := m.pr } = m := noWire_rest (hearFrame_noWire m c)

@[simp] theorem hearFrame_tm (c : PartnerCopies) : (hearFrame c m).tm = m.tm := (congrArg Mod.tm (hearFrame_noWire m c) :)
@[simp] theorem hearFrame_ln (c : PartnerCopies) : (hearFrame c m).ln = m.ln := (congrArg Mod.ln (hearFrame_noWire m c) :)
@[simp] theorem hearFrame_md (c : PartnerCopies) : (hearFrame c m).md = m.md := (congrArg Mod.md (hearFrame_noWire m c) :)
@[simp] theorem hearFrame_nv (c : PartnerCopies) : (hearFrame c m).nv = m.nv := (congrArg Mod.nv (hearFrame_noWire m c) :)
@[simp] theorem hearFrame_fio (c : PartnerCopies) : (hearFrame c m).fio = m.fio := (congrArg Mod.fio (hearFrame_noWire m c) :)
@[simp] theorem hearFrame_cur (c : PartnerCopies) : (hearFrame c m).cur = m.cur := (congrArg Mod.cur (hearFrame_noWire m c) :)
@[simp] theorem hearFrame_nxt (c : PartnerCopies) : (hearFrame c m).nxt = m.nxt := (congrArg Mod.nxt (hearFrame_noWire m c) :)

@[simp] theorem hearFrame_scn (c : PartnerCopies) : scn (hearFrame c m) = scn m := by unfold scn now refLane aliveLanes; simp
@[simp] theorem hearFrame_phase (c : PartnerCopies) : phase (hearFrame c m) = phase m := by unfold phase now refLane aliveLanes; simp

/-- The link carries frames after a frame as its lines, judged, say. -/
theorem partnerUp_heard (c : PartnerCopies) (h : linkFitted m = true) :
    partnerUp (hearFrame c m) = partnerUp (judgeLine 1 c.line1 (judgeLine 0 c.line0 m)) := by
  unfold partnerUp
  rw [hearFrame_pr m c h, hearFrame_nv]
  congr 3
  cases c.line0 <;> cases c.line1 <;> simp [judgeLine, heardLine_nv]

end Sys2Proof.Machine
end

