-- ==== Sys2Proof/Tests/Slice0.lean ====
section
/-! SUPPORT. Tests: ill-formed commands that the check refuses, small steps whose result the manual gives, and for every statement with
hypotheses a concrete state and operands that meet them (`wit_<statement>`), clause by clause. -/

namespace Sys2Proof.Tests

set_option Elab.async false

open Sys2Proof.Machine

/-! ## Small states -/

/-- A lane that runs and votes. -/
def lane3 : Lane := { Lane.fresh (LaneNv.fresh 0 0) with usable := true, opened := false, vset := PerLane.all true }

/-- A module in RUN-3, single, on the own timeline's time 0. -/
def mod3 : Mod :=
  { Mod.start 0 0 Nv.fresh (PerLane.all (LaneNv.fresh 0 0)) with
    powered := true, ln := PerLane.all lane3, md := { Modes.fresh with mode := .run3 }, tm := { Pacer.fresh with taken := true },
    pr := { Pair.fresh with role := 0 } }

/-- The module of `mod3` after `f`, with nothing waiting. -/
def st (f : Mod → Mod) : State := { pending := [], m := f mod3 }

/-- The module the outcome holds. -/
def after (o : Host.Outcome State Fault Refusal) : Option Mod :=
  match o with
  | .next s => some s.m
  | _ => none

def inMode (x : Mode) (m : Mod) : Mod := updMd (fun d => { d with mode := x }) m
def starting (n : Nat) (m : Mod) : Mod := updTm (fun t => { t with taken := false }) (updMd (fun d => { d with mode := .start, step := n }) m)

def env0 : StartEnv :=
  { mismatch := PerLane.all 0, capUf := 5000, charge := 100, couplers := [], sealIntact := true, mesh := PerLane.all true,
    envOk := PerLane.all true, canary := PerLane.all (20, 30, 40, 50), settingsCrc := PerLane.all true, feSettingsCrc := true,
    lines := 0x3F, linkDelay := [700, 700, 700], isoClosed := 0, sfp := [], geo := 0, feed1 := 24000, feed2 := 24000, temp := 20 }

theorem ofLE_bytesLE (n v : Nat) : ofLE (bytesLE n v) = v % 256 ^ n := by
  induction n generalizing v with
  | zero => simp [bytesLE, ofLE, Nat.mod_one]
  | succ n ih =>
    simp only [bytesLE, ofLE, ih, BitVec.toNat_ofNat]
    rw [show (256 : Nat) ^ (n + 1) = 256 * 256 ^ n from by rw [Nat.pow_succ, Nat.mul_comm]]
    exact (Nat.mod_mul (a := 256) (b := 256 ^ n) (x := v)).symm

theorem ofBE_bytesBE (s : W64) : ofBE (bytesBE 8 s.toNat) = s.toNat := by
  unfold ofBE bytesBE
  rw [List.reverse_reverse, ofLE_bytesLE]
  exact Nat.mod_eq_of_lt (by have := s.isLt; omega)

/-! ## Ill-formed commands -/

theorem test_wf_register_offset : (Instr.registerWrite 3 0#32).wf = false := by decide
theorem test_wf_alarm_levels : levelsWf (List.replicate 12 1) 5 = false ∧ levelsWf (List.replicate 13 5) 5 = false ∧ levelsWf (List.replicate 13 1) 256 = false := by
  decide
theorem test_wf_pulse : PulseObs.wf { loops := List.replicate 103 none, volts := [0, 0, 0, 0] } = false ∧
    PulseObs.wf { loops := List.replicate 104 none, volts := [0, 0, 0] } = false := by decide
theorem test_wf_record : DiagObs.wf { load := [], group := [0, 0, 0, 0] } = false := by decide
theorem test_wf_copies : XCopies.wf { line0 := List.replicate 27 0, line1 := [] } = false ∧ XCopies.wf { line0 := [], line1 := List.replicate 28 0 } = true := by decide
theorem test_wf_can : CanFrame.wf { ident := 0, fd := true, extended := false, remote := false, res := false, bytes := List.replicate 65 0 } = false ∧
    CanFrame.wf { ident := 2048, fd := true, extended := false, remote := false, res := false, bytes := [] } = false := by decide
theorem test_wf_image : PairImage.wf { scn := 0, inputs := [], volts := [], grp := [], diag := [], spos := 0, seal1 := 0, seal2 := 0 } = false := by decide

/-- An entry of 40 bytes of OPER on ring 0. -/
def sub0 : Submission :=
  { src := .ring 0, index := 0, opc := 0, crit := false, task := 0, tag := 7, nscn := 0, oper := List.replicate 40 0, blob := [] }

theorem test_wf_sub : Submission.wf sub0 = true ∧ Submission.wf { sub0 with opc := 256 } = false ∧ Submission.wf { sub0 with task := 256 } = false ∧
    Submission.wf { sub0 with oper := [] } = false ∧ Submission.wf { sub0 with nscn := 2 ^ 64 } = false := by decide

/-! ## Witnesses: power and restart -/

theorem wit_PowerPath_pace : (st id).m.powered = true ∧ (19999 < 20000 ∧ (st id).m.pw.pace = 0) ∧
    (21000 ≤ 21000 ∧ (st (updPw (fun p => { p with pace := 1 }))).m.pw.pace = 1) := by decide +kernel

theorem wit_PowerPath_feeds : (st id).m.powered = true ∧ feedPresent (st id).m .one = false ∧ feedOv (st id).m .one = false ∧
    feedPresent (st (setPresent .two true)).m .two = true ∧ feedOv (st (setOv .two true)).m .two = true ∧
    15999 < 16000 ∧ 18000 ≤ 18000 ∧ 36000 < 36001 ∧ 30000 ≤ 30000 := by decide +kernel

theorem wit_LossOfSupply : (st id).m.powered = true ∧ 15999 < 16000 ∧ operating (st id).m = true ∧ (st id).m.pw.f1 = false ∧ (st id).m.pw.f2 = false := by
  decide +kernel

/-- An activation at SCN 100 of the front end's image. -/
def act0 : Activation :=
  { scn := 100, online := false, kinds := [1], prepared := true,
    hdr := { kind := 1, hfl := 0, version := 1, sver := 0, smin := 0, plen := 0, pdig := [], ockind := 0, comp := [], decl := [], raw := [] } }

def halted (c : Nat) (m : Mod) : Mod := updMd (fun d => { d with mode := .halt, hcause := c }) m

theorem wit_RestartsBeginAnew : State.reset.m.powered = false ∧ ((st (halted 5)).m.md.mode = .halt ∧ (st (halted 5)).m.md.hcause = 5) ∧ 3000 ≤ 3000 ∧
    ((st (halted 10)).m.md.hcause ∈ [1, 3, 9, 10] ∧ arMax (st (halted 10)).m ≠ 0 ∧
      arCount (passClk ((st (halted 10)).m.md.haltAt + 200000000) (st (halted 10)).m) < arMax (st (halted 10)).m) ∧
    (st (inMode .recovery)).m.md.mode = .recovery ∧ (st (starting 4)).m.md.mode = .start ∧
    (st (updUp (fun u => { u with act := some act0 }))).m.up.act = some act0 ∧ act0.online = false ∧ act0.prepared = true := by decide +kernel

theorem wit_HostInterfaceReset : (st id).m.powered = true ∧ serving (st id).m = true ∧ (0 : W32) ≠ 0xA55A#32 := by decide +kernel

/-! ## Witnesses: START and time -/

/-- A module waiting in START step 4. -/
def acq (floor : Option Nat) : State := st (fun m => updTm (fun t => { t with floor := floor }) (starting 4 m))

/-- PTP is valid. -/
def validPtp (m : Mod) : Mod := updTm (fun t => { t with ptp := { t.ptp with valid := true } }) m

theorem wit_SourceTaken : (acq none).m.powered = true ∧ acquiring (acq none).m = true ∧ firstSource (acq none).m .ptp = true ∧
    acquiring (validPtp (acq none).m) = true ∧ (srcOf (validPtp (acq none).m) .ptp).valid = true ∧ firstSource (validPtp (acq none).m) .ptp = true ∧
    acquiring (validPtp (acq (some 5)).m) = true ∧ (srcOf (validPtp (acq (some 5)).m) .ptp).valid = true ∧ firstSource (validPtp (acq (some 5)).m) .ptp = true ∧
    (validPtp (acq (some 5)).m).tm.floor = some 5 ∧
    (acq none).m.tm.floor = none ∧ acquiring (acq (some 5)).m = true ∧ (acq (some 5)).m.tm.floor = some 5 ∧ firstSource (acq (some 5)).m .gun = true ∧
    firstSource (validPtp (acq (some 5)).m) .gun = false := by decide +kernel

/-- A module that searches its partner. -/
def searching (wire : BitVec 2) (m : Mod) : Mod :=
  updFio (fun f => { f with image := (List.replicate 104 0).set 102 wire })
    (updPr (fun p => { p with role := 3 }) { starting 4 m with cfg := { m.cfg with prcfg := 2 } })

theorem wit_StartTimeouts : (acquiring (acq (some 5)).m = true ∧ ownOk (acq (some 5)).m = true ∧ (acq (some 5)).m.pr.role ≠ 2 ∧ (acq (some 5)).m.tm.floor = some 5) ∧
    (acquiring (acq none).m = true ∧ (acq none).m.tm.floor = none) ∧
    ((st (searching 0)).m.pr.role = 3 ∧ (st (searching 0)).m.md.mode = .start ∧ (st (searching 0)).m.pr.found = false ∧ swi (st (searching 0)).m 6 = 0 ∧
      swi (st (searching 0)).m 7 = 0 ∧ prLone (st (searching 0)).m = true ∧ (st (searching 0)).m.up.act = none) ∧ swi (st (searching 1)).m 6 = 1 := by decide +kernel

theorem wit_EndOfStart : (st (inMode .start)).m.md.mode = .start ∧ (st (inMode .start)).m.tm.taken = true ∧ (st (inMode .start)).m.pr.role ≠ 3 ∧
    staffPassed (st (inMode .start)).m = true ∧ (st (inMode .start)).m.md.trialBits = 0 ∧
    (∀ j, j < 8 → (st (inMode .start)).m.fio.image.getD (80 + 2 * j) 3 ≠ 0 ∧ (st (inMode .start)).m.fio.image.getD (81 + 2 * j) 3 ≠ 0) := by decide +kernel

/-- A switch 3 that has not passed. -/
def staffDue (m : Mod) : Mod := updMd (fun d => { d with doneAt := some 0 }) (updLg (fun g => { g with app := { g.app with staff := [3] } }) m)

/-- START waits in step 8 since operating time 7 for switch 3. -/
def warming (m : Mod) : Mod :=
  updMd (fun d => { d with mode := .start, step := 8, step8At := some 7 }) (updLg (fun g => { g with app := { g.app with staff := [3] } }) m)

theorem wit_EndOfStart_warming : (st warming).m.md.mode = .start ∧ (st warming).m.tm.taken = true ∧ (st warming).m.pr.role ≠ 3 ∧
    staffPassed (st warming).m = false ∧ (st warming).m.md.trialBits = 0 ∧ (st warming).m.md.step = 8 ∧ (st warming).m.md.step8At = some 7 := by decide +kernel

theorem wit_EndOfStart_overdue : (st staffDue).m.md.doneAt = some 0 ∧ serving (st staffDue).m = true ∧ 3 ∈ (st staffDue).m.lg.app.staff ∧
    3 ∉ (st staffDue).m.md.wuPass := by decide +kernel

def toMaintain (m : Mod) : Mod := updMd (fun d => { d with pendMode := some .maintain }) m

theorem wit_ModesAndFrontEnd : (serving (st toMaintain).m = true ∧ (st toMaintain).m.md.pendMode = some .maintain ∧ runs .maintain = false ∧
      (st toMaintain).m.pr.chgDue = false ∧ (st toMaintain).m.md.mode ≠ .shadow ∧ Mode.maintain ≠ (st toMaintain).m.md.mode) ∧
    operating (st (halted 1)).m = false ∧ (((st id).m.ln.get .a).alive = true ∧ ((st id).m.ln.get .a).feLost = false) ∧
    (4 ≤ ((st (updLane .b (fun l => { l with feMiss := 4 }))).m.ln.get .b).feMiss ∧ (st id).m.pr.role ≠ 1) := by decide +kernel

def ptpIn (f : Pacer → Pacer) : State := st (updTm f)

/-- The head of a message of the transport and domain set up. -/
def head1 (log : Int) : PtpHead := { transport := ptpTransport mod3, domain := ptpDomain mod3, logInterval := log }
def gm1 : PtpGm :=
  { priority1 := 128, clockClass := 6, accuracy := 0x20, variance := 0x4E5D, priority2 := 128, identity := 1, stepsRemoved := 0, traceable := true }
def peerDelay : State := st (fun m => { m with cfg := { m.cfg with pcrptp := m.cfg.pcrptp ^^^ 1#32 } })

theorem wit_ScnReadAndPtp : ((st id).m.tm.ptp.absent = false ∧ (st id).m.tm.ptpPort.gm = none ∧ ptpMine (st id).m (head1 (-3)) = true ∧
      (-3 : Int) ≤ (head1 (-3)).logInterval ∧ (head1 2).logInterval ≤ 2) ∧ ptpMine (st id).m { head1 0 with domain := (head1 0).domain + 1 } = false ∧
    (syncRate (head1 1) = false ∧ syncRate (head1 (-5)) = false ∧ syncRate (head1 (-4)) = true ∧ syncRate (head1 0) = true) ∧
    ptpPeerDelay (st id).m ≠ ptpPeerDelay peerDelay.m ∧
    (st (updTm (fun t => { t with ptpPort := { t.ptpPort with msDiff := some 5 } }))).m.tm.ptpPort.msDiff = some 5 := by decide +kernel

theorem wit_SilentSources :
    (ptpIn (fun t => { t with ptpPort := { t.ptpPort with annAt := some 9 } })).m.tm.ptpPort.annAt = some 9 ∧
    (ptpIn (fun t => { t with gun := { t.gun with heardAt := some 9 } })).m.tm.gun.heardAt = some 9 ∧
    (ptpIn (fun t => { t with partner := { t.partner with heardAt := some 9 } })).m.tm.partner.heardAt = some 9 := by decide +kernel

def followPtp (offs : List Int) (t : Pacer) : Pacer := { t with use := .following .ptp, ptp := { t.ptp with valid := true, offs := offs, eligAt := some 3 } }
def inHold0 (t : Pacer) : Pacer := { followPtp [] t with use := .holdover }

theorem wit_ServoAndSources : ((ptpIn (followPtp [1000000])).m.tm.taken = true ∧ (ptpIn (followPtp [1000000])).m.tm.use = .following .ptp ∧
      (ptpIn (followPtp [1000000])).m.tm.ref = none ∧ (ptpIn (followPtp [1000000])).m.tm.partner.offs = [] ∧ (ptpIn (followPtp [1000000])).m.tm.gun.offs = [] ∧
      (ptpIn (followPtp [1000000])).m.tm.ptp.valid = true ∧ (ptpIn (followPtp [1000000])).m.tm.ptp.refused = false ∧
      median (ptpIn (followPtp [1000000])).m.tm.ptp.offs = some 1000000 ∧ (-1000000 : Int) ≤ 1000000 ∧ (1000000 : Int) ≤ 1000000) ∧
    (ptpIn (fun t => followPtp [-1000001] { t with ptp := { t.ptp with refused := true } })).m.tm.ptp.refused = true ∧ (-1000001 : Int) < -1000000 ∧
    (median (ptpIn (followPtp [1000001])).m.tm.ptp.offs = some 1000001 ∧ (1000000 : Int) < 1000001) ∧
    ((srcOf (ptpIn inHold0).m .ptp).eligAt = some 3 ∧ eligible (ptpIn inHold0).m .ptp = true ∧ inHold (ptpIn inHold0).m = true) ∧
    ((srcOf (ptpIn (fun t => { t with gun := { t.gun with refused := true, clearAt := some 1 } })).m .gun).refused = true ∧
      (srcOf (ptpIn (fun t => { t with gun := { t.gun with refused := true, clearAt := some 1 } })).m .gun).clearAt = some 1) := by decide +kernel

theorem wit_HoldoverAndDrift : (inHold (ptpIn inHold0).m = true ∧ (ptpIn inHold0).m.tm.alarmed = false) ∧
    ((ptpIn (followPtp [])).m.tm.use = .following .ptp ∧ ((ptpIn (followPtp [])).m.ln.get .c).alive = true) ∧ 25000 < (25001 : Int).natAbs ∧
    (25000 : Int).natAbs ≤ 25000 := by decide +kernel

/-! ## Witnesses: lanes and frames -/

theorem wit_LaneSelfTests : (st id).m.powered = true ∧ ((st id).m.ln.get .b).alive = true ∧ (2 : BitVec 2) ≠ 1 ∧ (0 : BitVec 2) ≠ 1 ∧
    ((st id).m.ln.get .b).testRoute = false ∧ ((st (updLane .b (fun l => { l with testRoute := true }))).m.ln.get .b).testRoute = true ∧
    ((st (updLane .b (fun l => { l with testRoute := true }))).m.ln.get .b).alive = true ∧ serving (st id).m = true := by decide +kernel

def hurdleMod (item off plan : Nat) : State :=
  st (fun m => updMd (fun d => { d with hurdleOff := off })
    (forEach allLanes (fun l => updLane l (fun x => { x with itemNext := item, nv := { x.nv with plan := plan } })) m))

/-- The module of `hurdleMod` at its hurdle. -/
def atHurdle (item off plan : Nat) : Mod :=
  toPhaseFrom (scnOf (hurdleMod item off plan).m.md.startedAt * 20000000 + 20000000) 12 16100 (hurdleMod item off plan).m
/-- One injection of each kind; `r` is what the address path's produced. -/
def inj (r : InjResult) : Injections := { dataPath := .bothRails, addrPath := r, treeRails := [(.bothRails, .bothRails)], delayStages := [.bothRails] }

theorem wit_HurdleOfALane :
    (serving (hurdleMod 6 0 0).m = true ∧ (hurdleLane (atHurdle 6 0 0)).isSome = true ∧
      (allLanes.all (fun l => ((atHurdle 6 0 0).ln.get l).alive && decide (((atHurdle 6 0 0).ln.get l).itemNext < 7))) = true ∧
      hurdleIsOff (atHurdle 6 0 0) = false) ∧
    (allLanes.all (fun l => decide (((atHurdle 7 0 3).ln.get l).itemNext = 7 ∧ ((atHurdle 7 0 3).ln.get l).nv.plan = 3))) = true ∧
    hurdleIsOff (atHurdle 6 2 0) = true ∧ 8 ≤ 8 ∧ 3 < 4 ∧ comparatorProven (inj .bothRails) = true ∧ comparatorProven (inj .oneRail) = false := by decide +kernel

def lowered (m : Mod) : Mod := updLane .a (fun l => { l with lowerDue := true, nv := { l.nv with plan := 2 } }) m
def linesUp (m : Mod) : Mod := updMd (fun d => { d with lines := 0x3F, lineAt := (List.range 6).map (fun i => (i, 5)) }) m
def oneLate (m : Mod) : Mod := updMd (fun d => { d with lineAt := [(1, 9000000)] }) (linesUp m)

/-- Line 0 of link AB is lost, and has delivered valid frames since operating time 4. -/
def lineBack (m : Mod) : Mod := updMd (fun d => { d with lines := 0x3E, lineSince := [(0, 4)] }) m

theorem wit_PlanAndLines : (((st lowered).m.ln.get .a).alive = true ∧ ((st lowered).m.ln.get .a).lowerDue = true ∧ ((st lowered).m.ln.get .a).nv.plan < 3) ∧
    (lineUp (st linesUp).m (lineNo .ab false) = true ∧ lineUp (st linesUp).m (lineNo .ab true) = true ∧
      lineSilent (passClk (tabGet 0 (st linesUp).m.md.lineAt (lineNo .ab false) + 20000000) (st linesUp).m) (lineNo .ab true) = true) ∧
    lineSilent (passClk (tabGet 0 (st oneLate).m.md.lineAt (lineNo .ab false) + 20000000) (st oneLate).m) (lineNo .ab true) = false ∧
    (tabFind (st lineBack).m.md.lineSince (lineNo .ab false) = some 4 ∧ lineUp (st lineBack).m (lineNo .ab false) = false) ∧
    tabFind (st linesUp).m.md.lineSince (lineNo .ab false) = none := by decide +kernel

/-- A frame of lane B in station cycle 0, on line 0 only. -/
def frameB (type : Nat) (payload : List Byte) : XFrame := { type := type, sender := 1, mode := 4, flags := 0, scn := 0, stime := 0, payload := payload }
def copiesB (type : Nat) (payload : List Byte) : XCopies := { line0 := (frameB type payload).bytes, line1 := [] }

theorem wit_FramesAreHeld : Counts xLocal .a .b (copiesB xLocal []) (frameB xLocal []) (st id).m ∧
    Counts xRemote .a .b (copiesB xRemote [1]) (frameB xRemote [1]) (st id).m ∧ Counts xOffer .a .b (copiesB xOffer []) (frameB xOffer []) (st id).m :=
  ⟨by unfold Counts; decide +kernel, by unfold Counts; decide +kernel, by unfold Counts; decide +kernel⟩
theorem wit_FramesAreHeld_rounds : Counts xVerdict .a .b (copiesB xVerdict []) (frameB xVerdict []) (st id).m ∧
    Counts xConfirm .a .b (copiesB xConfirm []) (frameB xConfirm []) (st id).m ∧ Counts xFault .a .b (copiesB xFault [0, 0, 0, 2]) (frameB xFault [0, 0, 0, 2]) (st id).m :=
  ⟨by unfold Counts; decide +kernel, by unfold Counts; decide +kernel, by unfold Counts; decide +kernel⟩
theorem wit_FramesAreHeld_time : InTime 2 560 .a (st id).m ∧ InTime 4 1080 .a (st id).m ∧ InTime 7 15000 .a (st id).m ∧
    InTime 8 15200 .a (st id).m ∧ InTime 9 15400 .a (st id).m := by unfold InTime; decide +kernel

/-- Payloads that are read back as they were formed. -/
def local0 : LocalPayload := { inputs := List.replicate 104 2, volts := [1, 2, 3, 65535] }
def remote0 : RemotePayload := { seqs := [(7, 6)], rings := List.replicate 32 9 }

theorem wit_FramesAreHeld_read : (frameB 255 []).type < 256 ∧ (frameB 255 []).sender < 256 ∧ (frameB 255 []).scn < 2 ^ 64 ∧ (frameB 255 []).stime < 2 ^ 64 ∧
    local0.inputs.length = 104 ∧ local0.volts.length = 4 ∧ (local0.volts.all (· < 65536)) = true ∧ remote0.seqs.length < 65536 ∧
    remote0.rings.length = 32 ∧ localOf (localBytes local0) = local0 ∧ remoteOf (remoteBytes remote0) = remote0 := by decide +kernel

theorem wit_FramesLeftOut : xFrameOf { line0 := List.replicate 28 1, line1 := [] } = none ∧
    (xFrameOf (copiesB xLocal []) = some (frameB xLocal []) ∧ (frameB xLocal []).sender ≠ laneNo .c ∧ { frameB xLocal [] with scn := 1 }.scn ≠ scn (st id).m) ∧
    ((st (updLane .b (fun l => { l with supplied := false }))).m.ln.get .b).supplied = false ∧
    ((st (updLane .a (fun l => { l with vset := l.vset.set .b false }))).m.ln.get .a).vset.get .b = false := by decide +kernel

def offer0 : Offer := { mode := 4, flags := 0, var := 1, eng := 2, ctrl := 3, stat := 4, slice := 0, res1 := 0, remote := 0, drive := 0, iso := 0, res2 := 0, snap := 0 }

theorem wit_RoundsOfTheFinish :
    ((toPhase 7 15000 (st (updLane .a (fun l => { l with ownOffer := some offer0 }))).m).ln.get .a).alive = true ∧
    ((toPhase 7 15000 (st (updLane .a (fun l => { l with ownOffer := some offer0 }))).m).ln.get .a).ownOffer.isSome = true ∧
    ((toPhase 7 15000 (st id).m).ln.get .a).ownOffer = none ∧ operating (st id).m = true ∧
    ((decodeWires (toPhase 1 500 (st (updLane .c (fun l => { l with excluded := true }))).m)).ln.get .c).alive = false := by decide +kernel

/-- Lanes that have confirmed: each holds the set of the others and its own. -/
def confirmed (set : LaneId → PerLane Bool) (halt : LaneId → Bool) (m : Mod) : Mod :=
  forEach allLanes (fun l => updLane l (fun x =>
    { x with ownSet := set l, ownHalt := halt l,
             confirmRx := (PerLane.all ()).mapL (fun y _ => some { set := set y, haltMark := halt y }) })) m

def abOnly : PerLane Bool := { a := true, b := true, c := false }

/-- The module of `st f` as it stands at the close of the confirmations. -/
def atClose (f : Mod → Mod) : Mod := toPhase 9 15400 (st f).m

theorem wit_TheFinalSet_all : 1 ≤ (aliveLanes (atClose (confirmed (fun _ => PerLane.all true) (fun _ => false)))).length ∧
    (allLanes.all (fun l => ((atClose (confirmed (fun _ => PerLane.all true) (fun _ => false))).ln.get l).alive &&
      decide (((atClose (confirmed (fun _ => PerLane.all true) (fun _ => false))).ln.get l).vset = PerLane.all true) &&
      decide (finalOf l ((atClose (confirmed (fun _ => PerLane.all true) (fun _ => false))).ln.get l) = some (PerLane.all true)))) = true := by decide +kernel

theorem wit_TheFinalSet_none :
    (allLanes.all (fun l => decide (finalOf l ((atClose (confirmed (fun _ => PerLane.all false) (fun _ => true))).ln.get l) = none) &&
      decide (((atClose (confirmed (fun _ => PerLane.all false) (fun _ => true))).ln.get l).stopped ≠ 3))) = true := by decide +kernel

theorem wit_TheFinalSet_two :
    let t := atClose (confirmed (fun l => if l = .c then PerLane.all false else abOnly) (fun l => l == .c))
    (allLanes.all (fun l => (t.ln.get l).alive && decide ((t.ln.get l).vset = PerLane.all true))) = true ∧ abOnly.get .c = false ∧
      finalOf .a (t.ln.get .a) = some abOnly ∧ finalOf .b (t.ln.get .b) = some abOnly ∧ finalOf .c (t.ln.get .c) = none := by decide +kernel

/-! ## Witnesses: freezes, outputs, tasks -/

def rec0 (seq : W32) : DiagRec := { seq := seq, flags := 0, chan := List.replicate 64 0, iso := 0, gcur := [0, 0, 0, 0] }
def passed (m : Mod) : Mod := updEn (fun e => { e with passScn := 1 }) m

theorem wit_AgreementAndSnapshot : operating (st id).m = true ∧ ((toPhase 2 560 (st id).m).ln.get .a).alive = true ∧
    (st id).m.host.waiting = [] ∧ (st id).m.host.critWait = [] ∧ commonRecord (toPhase 4 1080 (st id).m) = none ∧
    ((st passed).m.en.passScn = scn (st passed).m + 1 ∧ (st passed).m.lg.snapScn ≠ scn (st passed).m + 1 ∧
      (runsApp (st passed).m = false ∨ mainDone (st passed).m = true) ∧ phaseOf ((st passed).m.ln.get .a).time ≤ 15000 ∧ ownCourse (st passed).m .a = false ∧ ownCourse (st passed).m (courseLane (st passed).m) = false ∧
      15000 < phaseOf ((st (fun m => updLane .c (fun x => { x with time := 15001000 }) (passed m))).m.ln.get .c).time) := by decide +kernel

def recorded (m : Mod) : Mod := updFio (fun f => { f with recLanes := PerLane.all (some (rec0 1)), recPrev := PerLane.all (some (rec0 0)) }) m

theorem wit_AgreementAndSnapshot_record : (commonRecord (toPhase 4 1080 (st recorded).m)).isSome = true ∧ (st recorded).m.fio.agreed.map (·.seq) ≠ some 1 := by
  decide +kernel

def keyed (m : Mod) : Mod := updBt (fun b => { b with bodies := [(3, List.replicate 48 0)] }) (forEach allLanes (fun l => updLane l (fun x =>
  { x with ownSet := PerLane.all true, nv := { x.nv with keys := { x.nv.keys with position := some 0 } } })) m)

/-- The outgoing module of a changeover whose SWI6 reads closed. -/
def goesOut (m : Mod) : Mod := updFio (fun f => { f with image := (List.replicate 104 0).set 102 1 }) (updPr (fun p => { p with outgoing := true }) m)

theorem wit_SealingAndOutputs : maySeal (st (halted 1)).m = false ∧ maySeal (st keyed).m = true ∧
    (sealers (toPhase 10 15500 (st keyed).m)).length ≥ 2 ∧ (st keyed).m.md.mode ≠ .shadow ∧
    ((toPhase 10 15500 (st keyed).m).bt.bodies.map (·.1)).Nodup ∧ (3, List.replicate 48 0) ∈ (toPhase 10 15500 (st keyed).m).bt.bodies ∧
    (maySeal (st (fun m => inMode .shadow (keyed m))).m = true ∧ (st (fun m => inMode .shadow (keyed m))).m.pr.instep = false) ∧
    (serving (st id).m = true ∧ (toPhase 11 16000 (st id).m).pr.outgoing = false) ∧
    ((sealers (toPhase 10 15500 (st id).m)).length < 2 ∧ (st id).m.md.mode ≠ .shadow) ∧
    (serving (st goesOut).m = true ∧ (toPhase 11 16000 (st goesOut).m).pr.outgoing = true ∧ swi (toPhase 11 16000 (st goesOut).m) 6 = 1) ∧
    (LaneId.a ≠ .b ∧ xFrameOf (copiesB xAlarm [9, 3]) = some (frameB xAlarm [9, 3]) ∧ alarmOf (frameB xAlarm [9, 3]).payload = (9, 3) ∧
      ((st id).m.ln.get .a).supplied = true ∧ (st id).m.nv.sec.pend ≤ 3 ∧ operating (st id).m = true ∧
      3 ≤ ((st (updLane .c (fun x => { x with alarmLevel := 3 }))).m.ln.get .c).alarmLevel ∧
      allLanes.all (fun l => decide (((st id).m.ln.get l).alarmLevel < 3)) = true) := by decide +kernel

/-- A task of the 20 ms kind and a slow one. -/
def task (k : TaskKind) : TaskDesc :=
  { num := 1, kind := k, period := 5, offset := 0, edges := [], critical := false, prio := 1, entry := 100, maxInstr := 1000, slice := 50,
    route := true, blocks := [], uses := [], worstHeat := 0, worstSlice := 0 }

def withTask (k : TaskKind) (m : Mod) : Mod := updLg (fun g => { g with app := { g.app with tasks := [task k] } }) m
def slowOn (m : Mod) : Mod := updTcb 1 (fun x => { x with active := true }) (withTask .slow m)
def pending0 (m : Mod) : Mod :=
  updEn (fun e => { e with pend := [(5, { tag := 1, prio := 0, blk := 0, arrival := 0, sub := { src := .service, opc := 8, tag := 1 } })] }) m

/-- The hurdle of this station cycle is protected, and its next item tests a block the slow task uses. -/
def heldBack (m : Mod) : Mod :=
  updMd (fun d => { d with hurdleProt := 1 }) (updLg (fun g => { g with app := { g.app with tasks := [{ task .slow with uses := [0] }] } }) (slowOn m))

/-- The route task runs, at an ENXT. -/
def enxtWaits (m : Mod) : Mod :=
  updTcb 1 (fun x => { x with active := true, pc := 0 })
    (updLg (fun g => { g with running := some 1, app := { g.app with tasks := [task .cyc20], code := [0x4F000000] } }) m)

theorem wit_TasksAndPass : (taskDesc (st (withTask .cyc20)).m 1 = some (task .cyc20) ∧ mayRelease (st (withTask .cyc20)).m (task .cyc20) = true) ∧
    mayRelease (st (fun m => halted 1 (withTask .cyc20 m))).m (task .cyc20) = false ∧
    (taskDesc (st slowOn).m 1 = some (task .slow) ∧ runsApp (st slowOn).m = true ∧ (tcbOf (st slowOn).m 1).parked = false ∧ (tcbOf (st slowOn).m 1).active = true) ∧
    deferred (toPhaseFrom 0 8001 16000 (st slowOn).m) (task .slow) = false ∧
    deferred (toPhaseFrom 0 8001 16000 (st heldBack).m) { task .slow with uses := [0] } = true ∧
    (pendOf (st pending0).m 5).isSome = true := by decide +kernel

theorem wit_TasksAndPass_late : (serving (st enxtWaits).m = true ∧ (st enxtWaits).m.tm.taken = true ∧ decide (phase (st enxtWaits).m < 1500) = true) ∧
    ((passTo (scn (st enxtWaits).m * 20000000 + 1500000) (st enxtWaits).m).en.passScn ≠ scn (passTo 1500000 (st enxtWaits).m) + 1 ∧
      enxtNext (passTo 1500000 (st enxtWaits).m) = true ∧ 1500 ≤ phase (passTo 1500000 (st enxtWaits).m) ∧
      (passTo 1500000 (st enxtWaits).m).en.lateTold ≠ scn (passTo 1500000 (st enxtWaits).m) + 1) ∧
    enxtNext (passTo 1500000 (st id).m) = false := by decide +kernel

def olc (charge : Nat) (m : Mod) : Mod :=
  updPw (fun p => { p with charge := charge }) (updUp (fun u => { u with act := some { act0 with scn := 3, online := true, prepared := false, kinds := [4] } }) m)

theorem wit_OnlineChangeRuns : serving (st (olc 94)).m = true ∧ now (st (olc 94)).m ≤ (3 - 1) * 20000000 + 16000000 ∧
    (stateForbids (passTo ((3 - 1) * 20000000 + 16000000) (st (olc 94)).m) [4] true 0 ||
      decide ((passTo ((3 - 1) * 20000000 + 16000000) (st (olc 94)).m).pw.charge < 95)) = true ∧
    (stateForbids (passTo ((3 - 1) * 20000000 + 16000000) (st (olc 95)).m) [4] true 0 ||
      decide ((passTo ((3 - 1) * 20000000 + 16000000) (st (olc 95)).m).pw.charge < 95)) = false ∧
    changeAbort (passTo ((3 - 1) * 20000000 + 16000000) (st (olc 95)).m) = 3 ∧ votes (passTo ((3 - 1) * 20000000 + 16000000) (st (olc 95)).m) = true ∧
    (st (fun m => updLg (fun g => { g with olcNew := some AppImage.empty }) (olc 95 m))).m.lg.olcNew = some AppImage.empty := by decide +kernel

/-- The running application is the one the staged change was built against. -/
def changeFits (m : Mod) : Mod :=
  let x := updNv (fun n => { n with banks := { n.banks with verified := [(4, act0.hdr)] } })
    (updLanes (fun _ l => { l with nv := { l.nv with bank1 := ProgBank.fresh true 1 1 } }) (olc 95 m))
  updLg (fun g => { g with app := { g.app with build := (stagedApp x).xferBase } }) x

theorem wit_OnlineChangeRuns_built : changeAbort (passTo ((3 - 1) * 20000000 + 16000000) (st changeFits).m) = 0 := by
  unfold changeAbort
  rw [if_neg (by decide +kernel), if_neg (by decide +kernel), if_neg (by decide +kernel), if_neg]
  exact fun h => h rfl

/-! ## Witnesses: field I/O -/

def grpAt (f : Group → Group) : State := st (updGroup 0 f)
def drvAt (f : Drive → Drive) : State := st (updDrive 48 f)

/-- Every field group has its supply. -/
def fed (m : Mod) : Mod := updFio (fun f => { f with groups := f.groups.map (fun g => { g with volt := 24000, grp := 0 }) }) m
/-- 50 records of learning are in for the drive 48. -/
def learns (m : Mod) : Mod := updDrive 48 (fun d => { d with learnN := 50, learnSum := 100, on := true }) (fed m)

theorem wit_FieldReports : (6 ≤ (groupAt (grpAt (fun g => { g with lowN := 6 })).m 0).lowN ∧ (groupAt (grpAt (fun g => { g with lowN := 6 })).m 0).sag = false) ∧
    (fieldOf (st (updFio (fun f => { f with minN := [(0, 50)] }))).m.cfg.fiocfg.toNat 16 8 ≤ tabGet 0 (st (updFio (fun f => { f with minN := [(0, 50)] }))).m.fio.minN 0) ∧
    (5 ≤ (st (updFio (fun f => { f with age := 5 }))).m.fio.age ∧ (st (updFio (fun f => { f with age := 5 }))).m.fio.iocl = false ∧
      operating (st (updFio (fun f => { f with age := 5 }))).m = true) ∧
    tabGet false (st (updFio (fun f => { f with minN := [(0, 50)] }))).m.fio.minTold 0 = false ∧
    (3 ≤ (driveOf (drvAt (fun d => { d with lowN := 3 })).m 48).lowN ∧ (driveOf (drvAt (fun d => { d with lowN := 3 })).m 48).openWire = false ∧
      suspended (groupAt (st (fun m => updDrive 48 (fun d => { d with lowN := 3 }) (fed m))).m (groupOfDrive 48)) = false) ∧
    suspended (groupAt (drvAt (fun d => { d with lowN := 3 })).m (groupOfDrive 48)) = true ∧
    (50 ≤ (driveOf (st learns).m 48).learnN ∧ learning (st learns).m 48 (((st learns).m.fio.agreed.map (·.flags)).getD 0) = true) ∧
    learning (st (fun m => { m with cfg := { m.cfg with fiocfg := 0 } })).m 48 0 = false ∧
    (50 ≤ (groupAt (grpAt (fun g => { g with hiCur := 50 })).m 0).hiCur ∧ (groupAt (grpAt (fun g => { g with hiCur := 50 })).m 0).hiCurTold = false) := by
  decide +kernel

def driven (m : Mod) : Mod :=
  updFio (fun f => { f with image := List.replicate 104 1, imageAt := 7, groups := f.groups.map (fun g => { g with volt := 24000 }) })
    (updDrive 48 (fun d => { d with on := true }) (forEach allLanes (fun l => updLane l (fun x => { x with time := 6 * 20000000 })) m))

/-- A record of the I/O controller as bytes. -/
def recBytes : List Byte := diagBody (rec0 5) ++ bytesBE 8 (crc64 (diagBody (rec0 5))).toNat

theorem wit_SamplingAndPulses_record : diagIn (recBytes.drop 1) = none ∧
    ((toNext 14 700 (st id).m).ln.get .a).alive = true ∧
    (allOpen (driveOf (st (updDrive 7 (fun d => { d with high := true }))).m 7) = true ∧ (driveOf (st (updDrive 7 (fun d => { d with high := true }))).m 7).high = true) := by
  decide +kernel

/-- A record with its own check value is read. -/
theorem wit_SamplingAndPulses_bytes : (diagIn recBytes).isSome = true := by
  have l : (diagBody (rec0 5)).length = 272 := by decide +kernel
  have c : readBE recBytes 272 8 = (crc64 (diagBody (rec0 5))).toNat := by
    have e : cut recBytes 272 8 = bytesBE 8 (crc64 (diagBody (rec0 5))).toNat := by
      unfold recBytes cut
      rw [← l, List.drop_left, List.take_of_length_le (by simp [bytesBE])]
      simp [bytesBE]
    unfold readBE; rw [e]; exact ofBE_bytesBE _
  have t : recBytes.take 272 = diagBody (rec0 5) := by unfold recBytes; rw [← l, List.take_left]
  have n : recBytes.length = 280 := by unfold recBytes; rw [List.length_append, l]; simp [bytesBE]
  unfold diagIn
  rw [if_pos ⟨n, by rw [t, c]⟩]
  rfl

theorem wit_SamplingAndPulses : ((st id).m.ln.get .a).supplied = true ∧ (operating (st id).m = true ∧ bitOf (st id).m.md.bist 4 = false) ∧
    ((driveOf (toNext 1048 (200 + 300 * 48) (st driven).m) 48).on = true ∧ (driveOf (toNext 1048 (200 + 300 * 48) (st driven).m) 48).tripped = false ∧
      (toNext 1048 (200 + 300 * 48) (st driven).m).pw.pace = 0) ∧ allOpen (driveOf (toNext 1048 (200 + 300 * 48) (st id).m) 48) = true ∧
    (serving (st driven).m = true ∧ (st driven).m.md.mode ≠ .shadow ∧ suspended (groupAt (st driven).m 2) = false ∧ (driveOf (st driven).m 48).on = true ∧
      (driveOf (st driven).m 48).changedAt + 7 ≤ (st driven).m.fio.imageAt ∧ (st driven).m.fio.image.getD 80 3 ≠ 0) ∧
    suspended (groupAt (st (updGroup 2 (fun g => { g with volt := 16799 }))).m 2) = true := by decide +kernel

/-! ## Witnesses: Stride -/

/-- Segment 0 with station 7 at position 1, an exclusive, a bid and an entry window; `role` is this module's. -/
def strideMod (role : Nat) (m : Mod) : Mod :=
  updSeg 0 (fun g => { g with role := role })
    { m with net := { NetImage.empty with
      stations := [{ num := 7, seg := 0, pos := 1, identity := 77, kind := 1, outLen := 64, inLen := 64, conns := 1, fibre := 100 }],
      scheds := [{ num := 0, words := [[[], [0x00700064, 0x40000258], [0x80000384], []], [], [], []] }, { num := 1, words := [] }] } }

def stg (f : Mod → Mod) : State := st (fun m => f (strideMod 1 m))

/-- A frame of segment 0 sent from end a, at the other end. -/
def ringHead (kind bcn woff stn : Nat) (payload : List Byte) : SFrame :=
  { kind := kind, fromB := false, looped := false, adm := true, seg := 0, bcn := bcn, scn := 0, woff := woff, stn := stn, sched := 0, loopPos := 0,
    payload := payload }
def ringF (f : SFrame) (rx : Nat) : RingFrame := { port := { seg := 0, side := .b }, rx := rx, bytes := f.bytes [2, 0, 0, 0, 0, 0] }

def gunPay : GunPay :=
  { ts := 0, corr := 0, scn := 0, mid := 99, rank := 0, pair := false, farCopy := false, first := true, mmode := 4, swfl := 0, swScn := 0, rcScn := 0, nstn := 0 }
def gunHead : SFrame := ringHead sGun 0 0 0 (gunBytes gunPay)

/-- A frame of the tests passes its check. -/
theorem ringF_good (f : SFrame) (rx : Nat) : fcsGood (ringF f rx).bytes = true :=
  fcsGood_bytes f _ (by unfold SFrame.body destOf; split <;> simp [bytesBE] <;> omega)

theorem wit_GunMastership_frames : sRead (ringF gunHead 0).bytes = some gunHead ∧ gunOf gunHead.payload = gunPay ∧
    gunHead.fromB ≠ sideB (ringF gunHead 0).port.side ∧ { gunHead with fromB := true }.fromB = sideB (ringF gunHead 0).port.side ∧
    fcsGood ((ringF gunHead 0).bytes.take 33) = false ∧ (sRead (ringF { gunHead with kind := 7 } 0).bytes).isNone = true := by decide +kernel

/-- The module's identity is 5; with `p`, it is paired with 99. -/
def named (p : Bool) (m : Mod) : Mod := updNv (fun n => { n with paired := p, partnerId := 99, sec := { n.sec with identity := 5 } }) m

theorem wit_GunMastership : FourOfEach (stg id).m ∧ sends (stg id).m 0 = true ∧ (segAt (stg id).m 0).role = 1 ∧ sends (stg id).m 1 = false ∧
    usesEnd (stg id).m 0 false = true ∧ operating (stg id).m = true ∧
    (gunPay.mid ≠ (stg (named false)).m.nv.sec.identity ∧ (stg (named false)).m.nv.paired = false) ∧
    ((stg (named true)).m.nv.paired = true ∧ gunPay.mid = (stg (named true)).m.nv.partnerId ∧ (stg (named true)).m.tm.gun.absent = false) ∧
    linkDelayAt (stg (updSeg 0 (fun g => { g with medB := some 40 }))).m { seg := 0, side := .b } = some 40 ∧
    (segAt (stg (updSeg 0 (fun g => { g with role := 3 }))).m 0).yieldTo = none ∧
    (segAt (stg (updSeg 0 (fun g => { g with yieldTo := some 8 }))).m 0).yieldTo = some 8 ∧
    ((segAt (stg (updSeg 0 (fun g => { g with role := 3, evidence := some 1 }))).m 0).role = 3 ∧
      (segAt (stg (updSeg 0 (fun g => { g with role := 3, evidence := some 1 }))).m 0).evidence.isSome = true) ∧
    bitOf (st (fun m => updStr (fun x => { x with strcfg := 2 }) (strideMod 3 m))).m.str.strcfg.toNat 1 = true ∧
    (segAt (st (fun m => updStr (fun x => { x with strcfg := 2 }) (strideMod 3 m))).m 0).evidence = none ∧
    (bitOf (st (fun m => updStr (fun x => { x with strcfg := 0 }) (strideMod 3 m))).m.str.strcfg.toNat 1 = false ∧
      (segAt (st (fun m => updStr (fun x => { x with strcfg := 0 }) (strideMod 3 m))).m 0).darkTold = false) ∧
    (segAt (st (strideMod 2)).m 0).role = 2 := by unfold FourOfEach; decide +kernel

/-- What a station of 64 bytes each way returns, with this ILEN. -/
def exPayload (ilen : Nat) : List Byte := List.replicate 66 0 ++ bytesBE 2 ilen ++ List.replicate 136 0
def exHead (ilen : Nat) : SFrame := ringHead sExclusive 1 100 7 (exPayload ilen)
def bidHead : SFrame := ringHead sBid 1 600 0 (List.replicate 4 0 ++ bytesBE 2 1 ++ [1] ++ List.replicate 259 0 ++ bytesBE 4 3)
def admit7 (m : Mod) : Mod := updStation 7 (fun x => { x with adm := true }) m

/-- Station 7 is admitted, and its frame left at its window. -/
def sent7 (m : Mod) : Mod := updStation 7 (fun x => { x with sentAt := some 5100000 }) (admit7 m)
def bidsOut (m : Mod) : Mod := updSeg 0 (fun g => { g with grant := 7, bid := 5, bidSent := 5600001 }) m

theorem wit_StrideWindows : (stationDesc (stg id).m 7).isSome = true ∧
    ((windowsOf (stg id).m 0).find? (fun w => w.kind == 0 && w.station == 7)).isSome = true ∧ sends (stg id).m 0 = true ∧
    (admitted (toNext 2007 5100 (stg id).m) 7 = false ∧ admitted (toNext 2007 5100 (stg admit7).m) 7 = true) ∧
    usesEnd (stg sent7).m 0 true = true ∧ expected (stg sent7).m (stationAt (stg sent7).m 7).sentAt (ringF (exHead 0) 5100000) (exHead 0) = true ∧
    expected (stg sent7).m (stationAt (stg sent7).m 7).sentAt (ringF (exHead 0) 5102001) (exHead 0) = false ∧
    (exHead 0).payload.length = 76 + 64 + 64 ∧ (exOf 64 64 (exHead 0).payload).ilen = 0 ∧ 64 < (exOf 64 64 (exHead 65).payload).ilen ∧
    (stationAt (stg sent7).m 7).adm = true ∧
    nextWindow (stg id).m 0 1 (segAt (stg id).m 0).bidSent = some 5600000 ∧ sendsAt 5600000 (stg id).m 0 = true ∧ transitBad (stg bidsOut).m 0 = false ∧
    (segAt (stg bidsOut).m 0).bid ≠ 0xFFFFFFFF#32 ∧ (segAt (stg bidsOut).m 0).grant ≠ 0 ∧
    expected (stg bidsOut).m (lastSent (segAt (stg bidsOut).m 0).bidSent) (ringF bidHead 5600000) bidHead = true ∧
    expected (stg id).m (lastSent (segAt (stg id).m 0).bidSent) (ringF bidHead 5600000) bidHead = false ∧ (bidOf bidHead.payload).mlen = 1 := by decide +kernel

theorem wit_StrideWindows_frames : sRead (ringF (exHead 0) 0).bytes = some (exHead 0) ∧
    sRead (ringF bidHead 0).bytes = some bidHead ∧ (exHead 0).stn = 7 := by decide +kernel

def slot0 (n : Nat) : EntrySlot := { identity := 77, claimed := n, hops := 1, firmware := 0 }

def slotBytes (n identity : Nat) : List Byte := bytesBE 8 identity ++ bytesBE 2 n ++ [1, 0] ++ bytesBE 4 0
/-- One station claims number `n`. -/
def entryHead (n identity : Nat) : SFrame :=
  ringHead sEntry 2 900 0 ([0, 0] ++ slotBytes n identity ++ (List.replicate 7 (List.replicate 8 (0xFF#8) ++ List.replicate 8 (0#8))).flatten)
def entryOut (m : Mod) : Mod := updSeg 0 (fun g => { g with entrySent := 10900001 }) m
def claims (h : SFrame) : List EntrySlot := (entrySlots h.payload).filter (fun x => x.identity != BitVec.ofNat 64 (2 ^ 64 - 1))

theorem wit_StationEntry : nextWindow (stg id).m 0 2 (segAt (stg id).m 0).entrySent = some 10900000 ∧ sendsAt 10900000 (stg id).m 0 = true ∧ (stg id).m.up.oc.state = 0 ∧
    expected (stg entryOut).m (lastSent (segAt (stg entryOut).m 0).entrySent) (ringF (entryHead 7 77) 10900000) (entryHead 7 77) = true ∧
    expected (stg id).m (lastSent (segAt (stg id).m 0).entrySent) (ringF (entryHead 7 77) 10900000) (entryHead 7 77) = false ∧
    claims (entryHead 7 77) = [slot0 7] ∧ claims (entryHead 8 78) = [{ slot0 8 with identity := 78 }] ∧
    ((stationDesc (stg id).m 7).map (fun d => (d.identity, d.seg, d.num, d.pos))) = some (77, 0, 7, 1) ∧ (entryHead 7 77).fromB = false ∧
    (stationAt (stg id).m 7).adm = false ∧ stationDesc (stg id).m 8 = none ∧
    (stg id).m.net.stations.any (fun d => ((stationDesc (stg id).m d.num).map (·.identity)) == some 78) = false ∧
    (stationAt (stg admit7).m 7).capDone = false ∧ (stationAt (stg admit7).m 7).adm = true := by decide +kernel

theorem wit_StationEntry_frames : sRead (ringF (entryHead 7 77) 0).bytes = some (entryHead 7 77) := by decide +kernel

def switching (conf : Bool) (ack : Option Nat) (m : Mod) : Mod :=
  updStation 7 (fun x => { x with adm := true, ackScn := ack }) (updStr (fun x => { x with swNext := 1, swScn := 20, swPend := true, swConf := conf }) m)

theorem wit_LinksAndSchedules : (stg id).m.tm.taken = true ∧ sends (toPhase 21 14700 (stg id).m) 0 = true ∧ sends (toPhase 21 14700 (stg id).m) 3 = false ∧
    usesEnd (stg id).m 0 true = true ∧ 5000 ≤ 5000 ∧ (segAt (stg (updSeg 0 (fun g => { g with measAt := some 1 }))).m 0).measAt.isSome = true ∧
    ((stg (switching false (some 18))).m.str.swPend = true ∧ (stg (switching false (some 18))).m.str.swConf = false ∧
      (stg (switching false (some 18))).m.str.stations.all (fun e => !admThroughout e.2 18 || decide (e.2.ackScn = some 18)) = true) ∧
    (stg (switching false none)).m.str.stations.any (fun e => admThroughout e.2 18 && decide (e.2.ackScn ≠ some 18)) = true ∧
    ((stg (switching true none)).m.str.swPend = true ∧ (stg (switching true none)).m.str.swConf = true ∧
      operating (stg (switching false none)).m = true ∧ operating (stg (switching false (some 18))).m = true ∧ operating (stg (switching true none)).m = true) := by decide +kernel

/-! ## Witnesses: telegrams -/

/-- Connection 3, cyclic, 16 bytes of DATA, expiry 100 ms, epoch 1, towards the ZL3. -/
def conn3 : ConnDesc :=
  { num := 3, cid := 0x00700000, kind := 1, per := 1, ofs := 0, texp := 100, dlen := 16, layout := [], layoutId := 0, epoch := 1 }
def connMod (m : Mod) : Mod := updLg (fun g => { g with app := { g.app with conns := [conn3] } }) m

/-- Everything of a telegram copy of that connection but its seals, and the body they seal. -/
def pre3 (epoch seq : Nat) : List Byte :=
  [0x11, 0x00, 0x45, 0x10] ++ bytesBE 4 0x00700000 ++ bytesBE 2 epoch ++ bytesBE 2 100 ++ bytesBE 4 seq ++ List.replicate 16 0
def body3 (epoch seq : Nat) : List Byte := [0x11, 0x00, 0x10] ++ bytesBE 4 0x00700000 ++ bytesBE 2 epoch ++ bytesBE 2 100 ++ bytesBE 4 seq ++ List.replicate 16 0

/-- The telegram with the seals of channel keys of zeros. -/
def tel3 (epoch seq : Nat) : List Byte :=
  pre3 epoch seq ++ (bytesBE 8 (sealOf 0 4 0x00700000 (body3 epoch seq)).toNat ++ bytesBE 8 (sealOf 0 5 0x00700000 (body3 epoch seq)).toNat)

/-- A lane that holds those channel keys. -/
def keyLane (x : Lane) : Lane := { x with nv := { x.nv with keys := { x.nv.keys with channel := [(14, 0), (15, 0)] } } }
def keyMod (b : BtnLane) (m : Mod) : Mod := updLane .a (fun x => updBtn 3 (fun _ => b) (keyLane x)) (connMod m)

theorem seals3 (b : BtnLane) (epoch seq : Nat) (he : readBE (tel3 epoch seq) 4 4 = 0x00700000) :
    sealsOk ((st (keyMod b)).m.ln.get .a) (tel3 epoch seq) = true := by
  have e1 : readBE (tel3 epoch seq) 32 8 = (sealOf 0 4 0x00700000 (body3 epoch seq)).toNat := ofBE_bytesBE _
  have e2 : readBE (tel3 epoch seq) 40 8 = (sealOf 0 5 0x00700000 (body3 epoch seq)).toNat := ofBE_bytesBE _
  have ec : telCid (tel3 epoch seq) = 0x00700000 := by unfold telCid; rw [he]; rfl
  have k1 : channelKey ((st (keyMod b)).m.ln.get .a) 0 7 false = some 0 := by rfl
  have k2 : channelKey ((st (keyMod b)).m.ln.get .a) 0 7 true = some 0 := by rfl
  have d : telDlen (tel3 epoch seq) = 16 := by rfl
  have bd : telBody (tel3 epoch seq) = body3 epoch seq := by rfl
  have sp : byteAt (tel3 epoch seq) 2 = 0x45 := by rfl
  unfold sealsOk
  simp only [ec, show cidClass 0x00700000 = 0 from rfl, show cidNum 0x00700000 = 7 from rfl, d, bd, sp]
  simp only [show (0 : Nat) = 2 ↔ False by decide, if_false, k1, k2, e1, e2, b2n]
  simp

/-- The step at which lane A of `keyMod b`, at time `t`, stops with the telegram. -/
def stepOf (b : BtnLane) (t epoch seq : Nat) : Nat := (checkTel (st (keyMod b)).m ((st (keyMod b)).m.ln.get .a) t false (tel3 epoch seq)).step

theorem wit_TelegramsAreCounted : operating (st connMod).m = true ∧ ((st (keyMod BtnLane.fresh)).m.ln.get .a).alive = true ∧
    ((st (keyMod BtnLane.fresh)).m.ln.get .a).feLost = false ∧
    (checkTel (st connMod).m ((st connMod).m.ln.get .a) 0 false (tel3 1 0)).step = 4 := by decide +kernel

theorem wit_TelegramsAreCounted_recv : stepOf BtnLane.fresh 100000000 1 5 = 0 := by
  unfold stepOf checkTel; rw [seals3 _ _ _ (by decide +kernel)]; decide +kernel
theorem wit_TelegramsAreCounted_epoch : stepOf BtnLane.fresh 100000000 2 5 = 5 := by
  unfold stepOf checkTel; rw [seals3 _ _ _ (by decide +kernel)]; decide +kernel
theorem wit_TelegramsAreCounted_dup : stepOf { BtnLane.fresh with counted := [(5, [])] } 100000000 1 5 = 7 := by
  unfold stepOf checkTel; rw [seals3 _ _ _ (by decide +kernel)]; decide +kernel
theorem wit_TelegramsAreCounted_late : stepOf BtnLane.fresh 200000001 1 5 = 8 := by
  unfold stepOf checkTel; rw [seals3 _ _ _ (by decide +kernel)]; decide +kernel
theorem wit_TelegramsAreCounted_old : stepOf { BtnLane.fresh with top := some 5 } 200000000 1 5 = 9 := by
  unfold stepOf checkTel; rw [seals3 _ _ _ (by decide +kernel)]; decide +kernel

/-! ## Witnesses: CAN FD -/

def node5 : NodeDesc := { chan := 0, addr := 5, identity := 55, kind := 1, dlen0 := 0, dlen1 := 16, per := 1, ofs := 0, slot := 3000, events := 0 }

/-- Channel 0 active, with node 5 on it. -/
def canMod (m : Mod) : Mod := updChan 0 (fun c => { c with state := 0 }) { m with net := { NetImage.empty with nodes := [node5] } }

/-- Connection 4, from the ZL3 to node 5 on channel 0, with a telegram sealed for it. -/
def nodeOut (m : Mod) : Mod :=
  updBt (fun b => { b with outTel := [(4, { seq := 0, body := [], tel := [1] })] })
    (updNode 5 (fun x => { x with adm := true })
      (updLg (fun g => { g with app := { g.app with conns := [{ conn3 with num := 4, cid := 0x40508000 }] } }) (canMod m)))

def vital5 (m : Mod) : Mod := updChan 0 (fun c => { c with vital := [{ num := 5, ident := 0x45, tel := [], scn := 0, started := false }] }) (canMod m)
def queued (m : Mod) : Mod := updChan 0 (fun c => { c with host := [(15, { HostTx.fresh with state := 1 })] }) (canMod m)

theorem wit_CanSending : FourOfEach (st canMod).m ∧ canSends (st canMod).m 0 = true ∧ canSends (st id).m 0 = false ∧
    (nodeDesc (st nodeOut).m 5 = some node5 ∧ canSends (st nodeOut).m 0 = true ∧
      nodeServed (toNext 5005 3000 (st nodeOut).m) 5 = true ∧ scn (toNext 5005 3000 (st nodeOut).m) % 1 = 0 ∧
      (outFor (toNext 5005 3000 (st nodeOut).m) 1 5).isSome = true) ∧
    ((chanOf (st vital5).m 0).vital.find? (fun e => e.num == 5)).isSome = true ∧ (chanUp (st vital5).m 0 = true) ∧
    (hostTx (st queued).m 0 15).state = 1 ∧
    ((st (inMode .commission)).m.host.run = false ∧
      timingOk (chanNodes (st (inMode .commission)).m 3) canBtReset
        (((chanOf (st (inMode .commission)).m 3).dtNext).getD ((chanOf (st (inMode .commission)).m 3).dt)) = true) ∧
    (st (updHost (fun h => { h with run := true }))).m.host.run = true := by unfold FourOfEach; decide +kernel

def frame0 (ident n : Nat) : CanFrame := { ident := ident, fd := true, extended := false, remote := false, res := false, bytes := List.replicate n 0 }
/-- Node 5's answer to a discovery, with this identity: a CAN kind 1, up to 16 bytes of DATA. -/
def respF (i : Nat) : CanFrame := { frame0 0x405 0 with bytes := bytesBE 8 i ++ bytesBE 2 1 ++ bytesBE 2 0 ++ [16, 0, 0] ++ List.replicate 17 0 }
def resp0 (i : W64) : DiscResp := { address := 5, identity := i, kind := 1, firmware := 0, maxDlen := 16, events := 0, blocks := 0 }

def shadowing (m : Mod) : Mod :=
  updPr (fun p => { p with role := 2, found := true, linkLost := false, pmode := 4 }) (updNv (fun n => { n with paired := true, partnerId := 99 }) m)

theorem wit_CanReceivingAndNodes : (chanUp (st canMod).m 0 = true ∧ nodeNum 0 5 = 5 ∧ classOf 0x105 = .input 5 ∧ (frame0 0x105 48).bytes.length = 32 + node5.dlen1) ∧
    classOf 0x7F1 = .zl3 ∧ (canSends (st canMod).m 0 = true ∧ leads (st canMod).m = true) ∧ discRefusal (st canMod).m 0 (resp0 55) = 0 ∧
    discRefusal (st canMod).m 0 (resp0 56) ≠ 0 ∧ discOf (respF 55) = some (resp0 55) ∧ discOf (respF 56) = some (resp0 56) ∧ discOf (frame0 0x405 31) = none ∧
    (frame0 0x105 48).res = false ∧ { frame0 0x105 48 with res := true }.res = true ∧ classOf 0x205 = .event 5 ∧ (frame0 0x205 64).bytes.length ∈ [32, 48, 64] ∧ ((st (fun m => shadowing (canMod m))).m.pr.role = 2 ∧ partnerUp (st (fun m => shadowing (canMod m))).m = true) ∧
    (nodeAt (st nodeOut).m 5).adm = true ∧ (chanOf (st canMod).m 0).state = 0 ∧ 127 < 128 ∧
    (chanOf (st (updChan 0 (fun c => { c with state := 2 }))).m 0).state = 2 := by decide +kernel

/-! ## Witnesses: host interface -/

/-- SQ 0 completes to CQ 0; EQ 0, RR 0 and the rings it needs are enabled with 16 slots. -/
def ringsOn (m : Mod) : Mod :=
  let r : Ring := { Ring.fresh with en := true, log2n := 4 }
  updHost (fun h => { h with run := true, valid := true, rings := [(0, r), (32, r), (64, r), (80, r)] }) m
def setUp (m : Mod) : Mod := updHost (fun h => { h with rings := [(64, { Ring.fresh with en := true, log2n := 4, basel := 0x10000, wrdl := 0x20000 })], mirl := 0x1000000, headl := 0x30000 }) m
def held (m : Mod) : Mod := updRing 0 (fun r => { r with held := 1 }) (ringsOn m)
def posted (m : Mod) : Mod := updRing 0 (fun r => { r with ack := 1 }) (ringsOn m)
/-- What the Ledger reads at slot 0 of SQ 0: 64 bytes and no sealed block. -/
def poll0 : PollEntry := { sq := 0, index := 0, bytes := List.replicate 64 0, blob := [] }
def ev0 : QEvent := { eq := 0, ev := { code := 1, src := 0, privileged := false, scn := 0, arg0 := 0, arg1 := 0, arg2 := 0 }, eseq := 0 }

theorem wit_RegisterWrites : ((st ringsOn).m.host.run = true ∧ (0x000C : Nat) ≠ 0x0008) ∧ (st id).m.host.run = false ∧ 95 < 96 ∧
    (newSettings 0x0180 0#32 (st id).m.cfg).isSome = true ∧ ((newSettings 0x0180 0#32 (st id).m.cfg).bind id).isSome = true ∧
    (((st id).m.ln.get .a).supplied = true ∧ ((st id).m.ln.get .a).nv.flashOk = true) ∧ (st (inMode .commission)).m.md.mode = .commission ∧ ((st id).m.md.mode ≠ .start ∧ (st id).m.md.mode ≠ .commission) := by decide +kernel

theorem wit_SetUpAndReads : ((st setUp).m.host.run = false ∧ setupError (st setUp).m = 0) ∧ setupError (st id).m ≠ 0 ∧
    ((st setUp).m.host.resetTold = false ∧ (st setUp).m.rcd.stopped = false ∧ (st setUp).m.rcd.unusable = false) ∧ (2 < 3 ∧ 3 ≤ 3 ∧ 4 ≤ 4) ∧ (st ringsOn).m.host.valid = true := by decide +kernel

theorem wit_RingsAtWork : ledgerUp (st id).m = false ∧ ledgerUp (st ringsOn).m = true ∧
    ((ringOf (toPoll (st ringsOn).m) 80).en = true ∧ (ringOf (toPoll (st ringsOn).m) 80).fault = false ∧ diff32 0 0 ≤ diff32 0 0 ∧ diff32 0 0 < diff32 1 0) ∧
    ((ringOf (toPoll (st ringsOn).m) 0).en = true ∧ ringSize (ringOf (toPoll (st ringsOn).m) 0) < diff32 17 0 ∧ diff32 16 0 ≤ ringSize (ringOf (toPoll (st ringsOn).m) 0)) ∧
    (poll0.sq = 0 ∧ BitVec.ofNat 32 poll0.index = (ringOf (toPoll (st posted).m) 0).count ∧ published (toPoll (st posted).m) 0 = true ∧
      sqOpen (toPoll (st posted).m) 0 = true ∧ slotLeft (toPoll (st posted).m) 0 = true ∧ (ringOf (toPoll (st posted).m) 0).cls = false) ∧
    ((ringOf (st held).m 0).held ≠ 0 ∧ (ringOf (st held).m 0).heldTold = false ∧ ledgerUp (st held).m = true) ∧
    (ev0.eq = 0 ∧ (st (fun m => updHost (fun h => { h with fifo := [ev0] }) (ringsOn m))).m.host.fifo = [ev0] ∧ tabFind (st ringsOn).m.host.lossQ 0 = none ∧ ringRoom (st ringsOn).m 64 = true) ∧ ringRoom (st ringsOn).m 65 = false ∧
    ((st (fun m => updHost (fun h => { h with mirror := true }) (ringsOn m))).m.host.mirror = true ∧ (st ringsOn).m.tm.taken = true ∧ operating (st ringsOn).m = true) ∧
    (tabFind (st (updHost (fun h => { h with crit := [(2, { data := [], seq := 0 })] }))).m.host.crit 2).isSome = true := by decide +kernel

/-! ## Witnesses: the pair -/

def paired (m : Mod) : Mod := updNv (fun n => { n with paired := true, partnerId := 99 }) m
def hello0 (i : W64) (rank : Nat) : Hello :=
  { identity := i, rank := rank, role := 1, mode := 4, vset := PerLane.all true, inStep := false, wantsState := false, outgoing := false, scn := 0, offset := 0,
    ownTimeline := false, traceable := true, build := 0, settings := 0, swi6 := false, swi7 := false, kcv := PerLane.all 0 }

/-- Line 1 of the partner link is lost and has delivered valid frames since operating time 4. -/
def pairLineBack (m : Mod) : Mod := updPr (fun p => { p with lines := 1, lineSince := [(1, 4)] }) (paired m)

theorem wit_PartnerLink : linkFitted (st paired).m = true ∧ (st paired).m.md.mode ≠ .start ∧ operating (st paired).m = true ∧
    ((st (starting 2)).m.md.mode = .start ∧ (st (starting 2)).m.md.step < 3) ∧ (hello0 98 1).identity ≠ (st paired).m.nv.partnerId ∧
    (linkFitted (st pairLineBack).m = true ∧ (st pairLineBack).m.pr.lines.getLsbD (b2n true) = false ∧ tabFind (st pairLineBack).m.pr.lineSince (b2n true) = some 4) ∧
    tabFind (st paired).m.pr.lineSince (b2n true) = none ∧ (sub0.src = .ring 0 ∧ operating (st shadowing).m = true) ∧
    ((hello0 99 1).identity = (st paired).m.nv.partnerId ∧ (hello0 99 1).rank ≠ rankOf (st paired).m ∧ (hello0 99 1).build = (st paired).m.lg.app.build ∧
      (hello0 99 1).settings = (st paired).m.net.digest) ∧
    ((st (fun m => paired (searching 0 m))).m.pr.role = 3 ∧ linkFitted (st (fun m => paired (searching 0 m))).m = true ∧ 2 ≤ (hello0 99 1).mode) ∧
    ((hello0 99 0).rank = rankOf (st paired).m ∧ (st paired).m.pr.refused = false ∧ (st paired).m.pr.role ≠ 1) ∧
    (st (updPr (fun p => { p with lines := 3 }))).m.pr.lines.getLsbD (b2n true) = true ∧ (st shadowing).m.pr.linkLost = false ∧
    partnerUp (st id).m = false ∧ partnerUp (st shadowing).m = true ∧ (st shadowing).m.pr.role = 2 ∧ feOpcode sub0.opc = false ∧ (st id).m.pr.role ≠ 2 := by
  decide +kernel

def pimg : PairImage := { scn := 0, inputs := [], volts := [], grp := [], diag := [], spos := 0, seal1 := 0, seal2 := 0 }
def shadowOn (m : Mod) : Mod := updPr (fun p => { p with adopted := true }) (inMode .shadow (shadowing m))
def joins (m : Mod) : Mod := updPr (fun p => { p with adopted := false, joining := true, joinScn := (transferScn (inMode .shadow (shadowing m))).getD 0 }) (shadowOn m)
def leadOn (m : Mod) : Mod := updPr (fun p => { p with role := 1, ackScn := some 2 }) (shadowing m)

/-- LEAD's image with the seals of lanes A and B under position keys of zeros. -/
def sealedImg (m : Mod) : PairImage :=
  { pimg with spos := 0x01, seal1 := sealOf 0 0 (pairCid m) (imageBytes { pimg with spos := 0x01 }),
              seal2 := sealOf 0 1 (pairCid m) (imageBytes { pimg with spos := 0x01 }) }
def keyed2 (m : Mod) : Mod := updLanes (fun _ x => { x with nv := { x.nv with keys := { x.nv.keys with position := some 0 } } }) (shadowOn m)

theorem wit_PairInStep_sealed : imageSealed (st keyed2).m (sealedImg (st keyed2).m) = true ∧ imageSealed (st shadowOn).m pimg = false := by
  constructor
  · have a : ((st keyed2).m.ln.get .a).nv.keys.position = some 0 := by rfl
    have b : ((st keyed2).m.ln.get .b).nv.keys.position = some 0 := by rfl
    unfold imageSealed sealedImg
    simp [twoSealed, laneOf?, a, b]
    exact ⟨rfl, rfl⟩
  · decide +kernel

/-- LEAD whose partner asks for its state. -/
def asked (m : Mod) : Mod := updPr (fun p => { p with pWants := true }) (leadOn m)

theorem wit_PairInStep_states : (∃ f : PairStatusFrame, f = ownStatus (toNext 18 15400 (st shadowOn).m) ∧ f.scn = scn (toNext 18 15400 (st shadowOn).m)) ∧
    ((st asked).m.nv.paired = true ∧ serving (st asked).m = true ∧ (st asked).m.pr.outgoing = false ∧ (st asked).m.pr.pWants = true ∧ partnerUp (st asked).m = true ∧
      (st asked).m.pr.role ≤ 1 ∧ (st asked).m.pr.role = 1) := ⟨⟨_, rfl, by decide +kernel⟩, by decide +kernel⟩

theorem wit_PairInStep : (serving (st shadowOn).m = true ∧ partnerUp (st shadowOn).m = true ∧ (st shadowOn).m.pr.role = 2) ∧
    ({ pimg with scn := 1 }.scn ≠ scn (toNext 16 560 (st shadowOn).m)) ∧ ((st leadOn).m.pr.role ≠ 2 ∧ leads (st leadOn).m = true ∧ partnerUp (st leadOn).m = true) ∧
    ((st shadowOn).m.nv.paired = true ∧ (st shadowOn).m.pr.outgoing = false ∧ (st shadowOn).m.pr.adopted = true ∧ (st shadowOn).m.bt.divOut = (st shadowOn).m.pr.divSeen) ∧
    ((st joins).m.md.mode = .shadow ∧ (st joins).m.pr.joining = true ∧ (st joins).m.pr.adopted = false ∧ transferScn (st joins).m = some (st joins).m.pr.joinScn ∧
      (tabPut (st joins).m.pr.chunks 0 []).length < 2 ∧ 1 ≤ (tabPut (st joins).m.pr.chunks 0 []).length) ∧
    ((st leadOn).m.pr.ackScn = some 2 ∧ serving (st leadOn).m = true ∧ (st leadOn).m.pr.outgoing = false ∧ (st leadOn).m.pr.noAckTold = false) := by decide +kernel

def inStep (lost : Bool) (m : Mod) : Mod :=
  updFio (fun f => { f with image := List.replicate 104 0 }) (updPr (fun p => { p with instep := true, linkLost := lost }) (shadowOn m))

theorem wit_Takeover : ((st (inStep true)).m.md.mode = .shadow ∧ (st (inStep true)).m.pr.instep = true ∧ swi (toNext 17 560 (st (inStep true)).m) 6 = 0 ∧
      swi (toNext 17 560 (st (inStep true)).m) 7 = 0 ∧ votes (toNext 17 560 (st (inStep true)).m) = true ∧ (toNext 17 560 (st (inStep true)).m).pr.linkLost = true) ∧
    (2 ≤ (toNext 17 560 (st (inStep false)).m).pr.pmode ∧ (toNext 17 560 (st (inStep false)).m).pr.linkLost = false) ∧
    ((st (updPr (fun p => { p with outgoing := true }))).m.pr.outgoing = true ∧ serving (st (updPr (fun p => { p with outgoing := true }))).m = true) := by
  decide +kernel

/-! ## Witnesses: recorder, roll call, update, security -/

def dirty0 : Dirty := recordOf (eventOf 1 {} mod3) mod3
def dirtyN (n : Nat) (m : Mod) : Mod := updRcd (fun r => { r with dirty := List.replicate n dirty0 }) m
def small (m : Mod) : Mod := updRcd (fun r => { r with ceil := 0 }) m
def dropping (m : Mod) : Mod := updRcd (fun r => { r with drops := [(2, (5, 3))] }) m
def recIn (src : Nat) : RecIn := { kind := 0, src := src, code := 1, privileged := false, scn := 0, body := [] }
def read0 (mode left : Nat) : RecRead := { mode := mode, mask := 511, privOnly := false, start := 0, left := left, delivered := 0, tag := 1, moved := false }

/-- A read on RR 0, whose ring is enabled and, with `last`, has one place left; the store holds one record. -/
def reading (mode left : Nat) (fault last : Bool) (m : Mod) : Mod :=
  updNv (fun n => { n with store := { n.store with recs := [(0, dirty0.record)], next := 1 } })
    (updRcd (fun r => { r with reads := [(0, read0 mode left)] })
      (updRing 80 (fun r => { r with fault := fault, count := if last then 15 else 0 }) (ringsOn m)))
def full80 (m : Mod) : Mod := updRing 80 (fun r => { r with count := 16 }) (reading 0 1 false false m)

theorem wit_RecorderAtWork :
    (aliveLanes (st (forEach [LaneId.a, .b] (fun l => updLane l (fun x => { x with stopped := 1 })))).m).length < 2 ∧
    ((recIn 2).src ≠ 0 ∧ (recIn 2).src ≠ 7 ∧ (st id).m.rcd.stopped = false ∧ (st id).m.rcd.unusable = false ∧ tabFind (st id).m.rcd.drops 2 = none ∧
      recRoom false (st id).m = true) ∧ recRoom false (st small).m = false ∧
    (tabFind (st dropping).m.rcd.drops 2 = some (5, 3) ∧ (st dropping).m.rcd.dirty.length + 6 ≤ (st dropping).m.rcd.ceil ∧ tabFind (st dropping).m.rcd.drops 3 = none ∧
      (st dropping).m.rcd.stopped = false ∧ (st dropping).m.rcd.unusable = false) ∧ feUnits (st id).m 12 ≠ [] ∧ (st id).m.rcd.dirty = [] ∧
    ((st (dirtyN 2)).m.rcd.dirty ≠ [] ∧ (st (dirtyN 2)).m.nv.store.broken = false ∧ (st (dirtyN 2)).m.nv.store.field = false) ∧
    ((tabFind (st (reading 0 1 true false)).m.rcd.reads 0).isSome = true ∧ (ringOf (st (reading 0 1 true false)).m 80).fault = true) ∧
    ((ringOf (st full80).m 80).fault = false ∧ ringRoom (st full80).m 80 = false) ∧
    (ringRoom (st (reading 0 1 false true)).m 80 = true ∧ (ringOf (st (reading 0 1 false true)).m 80).log2n ≤ 15 ∧
      diff32 (ringOf (st (reading 0 1 false true)).m 80).count (ringOf (st (reading 0 1 false true)).m 80).ack + 1 = ringSize (ringOf (st (reading 0 1 false true)).m 80) ∧
      tabGet [] (st (reading 0 1 false true)).m.rcd.ends 0 = [] ∧ (read0 0 1).left ≠ 0 ∧
      ((readable (st (reading 0 1 false true)).m (read0 0 1)).find? (fun e => selects (read0 0 1) e.2.1)).isSome = true) ∧
    ((read0 0 0).mode ≠ 2 ∧ (read0 0 0).left = 0 ∧ ringRoom (st (reading 0 0 false true)).m 80 = true) := by decide +kernel

def rcAt (n : Nat) (m : Mod) : Mod :=
  updRc (fun r => { r with state := n, target := 30, own := [(0, [1])], units := [(0, { kind := 0, declared := 1, latched := true, blocks := [] }), (11, { kind := 3, declared := 1, latched := true, blocks := [] }), (519, { kind := 4, declared := 1, latched := true, blocks := [] })],
                           sub := some { src := .ring 0, opc := 0xEA, tag := 1 } })
    (updHost (fun h => { h with open_ := [{ src := .ring 0, opc := 0xEA, tag := 1 }] }) m)
def counting (m : Mod) : Mod := updPc (fun p => { p with waiting := some (List.replicate 8 1, 4) }) m

theorem wit_RollCall : (st (rcAt 1)).m.rc.state = 1 ∧ (st id).m.rc.state ≠ 1 ∧ (st id).m.rc.state ≠ 2 ∧
    ((st (rcAt 2)).m.rc.state = 2 ∧ tabFind (st (rcAt 2)).m.rc.own (16 * laneNo .a + 0) = some [1] ∧
      ((tabFind (st (rcAt 2)).m.rc.units (laneNo .a)).map (·.latched)) = some true) ∧
    ((st (rcAt 1)).m.tm.taken = true ∧ (∀ l ∈ allLanes, ((st (rcAt 1)).m.ln.get l).corr = 0) ∧ ((st (rcAt 1)).m.ln.get .b).alive = true) ∧
    (blockIn (.station 7) 0 [] = none ∧ blockIn (.lane .a) 2 [] = some (2, [])) ∧
    (((tabFind (st (rcAt 2)).m.rc.units (unitNo (.node 3))).map (·.latched)) = some true ∧
      blockIn (.node 3) 0 (bytesBE 4 30 ++ [15]) = some (15, cut (bytesBE 4 30 ++ [15]) 0 64) ∧ readBE (cut (bytesBE 4 30 ++ [15]) 0 64) 0 4 = (st (rcAt 2)).m.rc.target % 2 ^ 32 ∧
      blockIn (.node 3) 0 (bytesBE 4 31 ++ [15]) = some (15, cut (bytesBE 4 31 ++ [15]) 0 64) ∧ readBE (cut (bytesBE 4 31 ++ [15]) 0 64) 0 4 ≠ (st (rcAt 2)).m.rc.target % 2 ^ 32) ∧
    (feOnly 0xEA = false ∧ leftToNewLead (st (rcAt 3)).m { src := .ring 0, opc := 0xEA, tag := 1 } = false) ∧
    ((st (rcAt 3)).m.rc.state = 3 ∧ (st (rcAt 3)).m.rc.sectionDone = false ∧ (st (rcAt 3)).m.rc.sub = some { src := .ring 0, opc := 0xEA, tag := 1 } ∧
      { src := .ring 0, opc := 0xEA, tag := 1 } ∈ (st (rcAt 3)).m.host.open_) ∧
    ((st counting).m.pc.waiting = some (List.replicate 8 1, 4) ∧ (List.replicate 8 (1 : W32)).length = 8) ∧ (st id).m.pc.waiting = none := by decide +kernel

def planned (charge : Nat) (m : Mod) : Mod :=
  updPw (fun p => { p with charge := charge }) (inMode .commission (updUp (fun u => { u with act := some { act0 with prepared := false } }) m))
def sess0 (kind : Nat) : Session :=
  { num := 1, src := .ring 0, kind := kind, station := 0, lastAt := 0, header := none, payload := [], held := PerLane.all [], verified := false }

theorem wit_UpdateDeadlines : (st (planned 94)).m.up.act = some { act0 with prepared := false } ∧
    (passTo ((100 - 1) * 20000000 + 16000000) (st (planned 94)).m).pw.charge < 95 ∧
    (stateForbids (passTo ((100 - 1) * 20000000 + 16000000) (st (planned 95)).m) [1] false 0 = false ∧
      95 ≤ (passTo ((100 - 1) * 20000000 + 16000000) (st (planned 95)).m).pw.charge) ∧ (st id).m.up.act = none ∧
    (st (updUp (fun u => { u with session := some (sess0 1) }))).m.up.session = some (sess0 1) ∧ (st id).m.up.session = none ∧
    (st (updUp (fun u => { u with oc := { u.oc with state := 3 } }))).m.up.oc.state = 3 ∧ (st id).m.up.oc.state ≠ 3 ∧ (st id).m.up.oc.state = 0 ∧
    ((st (updUp (fun u => { u with oc := { u.oc with state := 2, actScn := 5 } }))).m.up.oc.state ≠ 0 ∧
      (st (updUp (fun u => { u with oc := { u.oc with state := 2, actScn := 5 } }))).m.up.oc.actScn ≠ 0) := by decide +kernel

def owned (m : Mod) : Mod := forEach allLanes (fun l => updLane l (fun x => { x with mesh := true, envOk := true, nv := { x.nv with keys := { x.nv.keys with owner := some [1] } } })) m

theorem wit_PortAndKeyStores : portOpen (st (updSec (fun x => { x with sess := some .owner }))).m = false ∧ portOpen (st owned).m = true ∧
    (st owned).m.nv.sec.pend = 0 ∧ (st (updNv (fun n => { n with sec := { n.sec with pend := 2 } }))).m.nv.sec.pend ≠ 0 ∧
    certOk (st id).m .service [] = false ∧ (st (updSec (fun x => { x with backoffTo := some 9 }))).m.sec.backoffTo = some 9 ∧
    (((st owned).m.ln.get .b).supplied = true ∧ ((st owned).m.ln.get .b).mesh = true ∧ ((st owned).m.ln.get .b).envOk = true ∧ levelOf 0 (st owned).m = 1) ∧
    levelOf 0 (st (updSec (fun x => { x with lc := .field }))).m = 3 ∧
    ((st (updLane .b (fun x => { x with supplied := false }))).m.ln.get .b).supplied = false := by decide +kernel

/-- Whether the owner's certificate verifies is the installation's cryptography (log entry 6): where it does, the port accepts it. -/
theorem wit_PortAndKeyStores_cert (h : Config.chainOk [1] [] = true) : certOk (st owned).m .owner [] = true := h

def ownerAt (lc : Lifecycle) (pend : Nat) (m : Mod) : Mod :=
  updNv (fun n => { n with sec := { n.sec with pend := pend, nid := 9 } })
    (updSec (fun x => { x with sess := some .owner, lc := lc })
      (forEach allLanes (fun l => updLane l (fun x => { x with nv := { x.nv with keys := { x.nv.keys with position := some 0 } } })) (owned { m with net := { m.net with version := 3 } })))
/-- An owner command with TAG 1 and this counter. -/
def ohead (n : Nat) : OwnerHead := { subject := 2, chain := [], block := List.replicate 4 0 ++ bytesLE 4 1 ++ List.replicate 56 0 ++ bytesLE 8 n, sig := [] }

theorem wit_OwnerCommands : ownerSession (st (ownerAt .provisioned 3)).m = true ∧ operating (st (ownerAt .provisioned 3)).m = true ∧
    ((st (ownerAt .blank 0)).m.sec.lc = .blank ∧ ownerSession (st (ownerAt .blank 0)).m = true) ∧
    ((st (ownerAt .provisioned 3)).m.sec.lc ≠ .retired ∧ (st (ownerAt .provisioned 3)).m.sec.lc ≠ .fieldLocked ∧
      ((st (ownerAt .provisioned 3)).m.ln.get (refLane (st (ownerAt .provisioned 3)).m)).nv.keys.channel.length ≤ 2048) ∧
    (lcMove .provisioned .field = true ∧ Lifecycle.field ≠ .retired ∧ lcReady (st (ownerAt .provisioned 3)).m .field = true) ∧
    lcMove .provisioned .blank = false ∧
    ((List.replicate 12 2 ++ [4]).length = 13 ∧ (List.replicate 12 2 ++ [4]).zipIdx.all (fun p => decide ((levelRange false p.2).1 ≤ p.1) && decide (p.1 ≤ (levelRange false p.2).2)) = true) ∧
    (List.replicate 13 0).zipIdx.all (fun p => decide ((levelRange false p.2).1 ≤ p.1) && decide (p.1 ≤ (levelRange false p.2).2)) = false ∧
    ((st (ownerAt .provisioned 3)).m.nv.sec.pend = 3 ∧ (posKeys (st (ownerAt .provisioned 3)).m).length = 3) ∧
    (runningVersion (st (ownerAt .provisioned 3)).m 5 0 = some 3 ∧ 3 < 2 ^ 32) ∧
    ((0 : Nat) ≠ 1 ∧ [true, true, true, true].getD 1 false = true ∧ (([true, true, true, true].set 0 false).filter id).length ≠ 0) := by decide +kernel

/-- An owner command with the counter used already is not authentic, whatever its signature. -/
theorem wit_OwnerCommands_stale : ownerOk (st (ownerAt .provisioned 3)).m (ohead 0) = false := by
  unfold ownerOk
  rw [show ((updateLanes (st (ownerAt .provisioned 3)).m).all (fun l => decide (((st (ownerAt .provisioned 3)).m.ln.get l).nv.keys.counter < headCounter (ohead 0)))) = false
    from by decide +kernel]
  simp

/-- Where chain and signature verify (log entry 6), a higher counter makes it authentic. -/
theorem wit_OwnerCommands_authentic (hc : Config.chainOk [1] [] = true) (hs : Config.ownerSigOk [] (ohead 1).block [] = true) :
    ownerOk (st (ownerAt .provisioned 3)).m (ohead 1) = true := by
  unfold ownerOk
  rw [show ((updateLanes (st (ownerAt .provisioned 3)).m).all (fun l => decide (((st (ownerAt .provisioned 3)).m.ln.get l).nv.keys.counter < headCounter (ohead 1)))) = true
    from by decide +kernel, show ownerRoot (st (ownerAt .provisioned 3)).m = some [1] from by decide +kernel]
  have c : (ohead 1).chain = [] := rfl
  have g : (ohead 1).sig = [] := rfl
  simp only [c, g, hc, hs, Bool.and_self]

/-! ## Witnesses: single rules, the queue -/

def heat (m : Mod) : Mod := updLg (fun g => { g with running := some 1, app := { g.app with tasks := [{ task .cyc20 with route := false }] } }) m

theorem wit_OnlyTheRouteTaskCommits : InHeat 1 { task .cyc20 with route := false } (st heat).m ∧ (st heat).m.powered = true := by unfold InHeat; decide +kernel
theorem wit_TemperatureIsToldOnce : (st id).m.powered = true ∧ (70 : Int) < 71 ∧ (st id).m.pw.tempTold = false ∧ (67 : Int) ≤ 67 ∧ (67 : Int) < 68 ∧ (70 : Int) ≤ 70 := by
  decide +kernel
theorem wit_StepTakesTheFront : ({ st id with pending := [.pcieReset] } : State).pending = .pcieReset :: [] ∧ (st id).pending = [] ∧
    State.reset.m.powered = false := by decide +kernel
theorem wit_ImagesStayCanonical : ImagesWf State.reset.m := by unfold ImagesWf; decide +kernel
theorem wit_ShapesAndBoundsStay : FourOfEach State.reset.m ∧ FifoBounded State.reset.m := by unfold FourOfEach FifoBounded; decide +kernel

/-! ## Witnesses: submissions -/

def subAt (md : Mode) (f : Mod → Mod) : State := st (fun m => f (inMode md (ringsOn m)))

/-- A submission on ring 0 with these bytes of OPER. -/
def subOf (oper : List Byte) : Submission := { sub0 with oper := oper ++ List.replicate (40 - oper.length) 0 }

def forced0 (m : Mod) : Mod := updMd (fun d => { d with forces := [{ isObj := false, ref := 1, tag := 1, val := 1, area := 0 }], areas := 1 }) m
def inField (m : Mod) : Mod := updSec (fun x => { x with lc := .field }) m

/-- A BOOL variable 1 in area 0 that may be forced. -/
def var1 : VarDesc :=
  { vid := 1, addr := 16, ty := .bool, emax := 0, count := none, fields := [], owner := 1, output := false, retained := false, forceable := true,
    area := some 0, obj := none, init := [0], restr := [] }
def withVar (m : Mod) : Mod := updLg (fun g => { g with app := { g.app with vars := [var1] } }) m

/-- What the entry finds once its freeze has accepted it. -/
def tk (opc : Nat) (sub : Submission) (s : State) : Mod := taken opc sub s.m
def trig0 : Trig := { sub := { src := .ring 0, opc := 4, tag := 9 }, code := 0, area := 0 }

/-- In START GO TO RUN is refused. -/
theorem wit_ModeCommands_refused : Enters 0 0x01 false sub0 (subAt .start id).m ∧
    modeBars (tk 0x01 sub0 (subAt .start id)) { sub0 with opc := 0x01 } = true := by unfold Enters; decide +kernel

theorem wit_ModeCommands : Admits 0 0x01 false sub0 (subAt .commission inField).m ∧ cmdMode (tk 0x01 sub0 (subAt .commission inField)) = .commission ∧
    (tk 0x01 sub0 (subAt .commission inField)).md.forces = [] ∧ (tk 0x01 sub0 (subAt .commission inField)).md.areas = 0 ∧
    (tk 0x01 sub0 (subAt .commission inField)).sec.lc = .field := by unfold Admits Enters; decide +kernel

theorem wit_ModeCommands_held : Admits 0 0x01 false sub0 (subAt .commission forced0).m ∧ cmdMode (tk 0x01 sub0 (subAt .commission forced0)) = .commission ∧
    (tk 0x01 sub0 (subAt .commission forced0)).md.forces ≠ [] := by unfold Admits Enters; decide +kernel

theorem wit_ModeCommands_halt : Admits 0 0x02 false sub0 (subAt .start id).m := by unfold Admits Enters; decide +kernel

def force0 : Submission := subOf [0, 0, 0, 0, 1, 0, 0, 0, 1, 0, 0, 0, 0, 0, 0, 0, 1]
def forceAt (areas : BitVec 64) : Mod :=
  tk 0x06 force0 (subAt .commission (fun m => updMd (fun d => { d with areas := areas }) (withVar m)))
theorem wit_ModeCommands_force : Admits 0 0x06 false force0 (subAt .commission (fun m => updMd (fun d => { d with areas := 1 }) (withVar m))).m ∧
    forceTarget (forceAt 1) false 1 = some (.bool, 0, some 0, true) ∧ cmdMode (forceAt 1) = .commission ∧ tyOfTag 1 = .bool ∧
    forceFits .bool 0 (BitVec.ofNat 64 1) = true ∧ (forceAt 1).md.areas.getLsbD 0 = true ∧ (forceAt 1).md.forces.length = 0 ∧
    recorderDead (forceAt 1) = false := by unfold Admits Enters; decide +kernel

theorem wit_ModeCommands_force_outside : Admits 0 0x06 false force0 (subAt .commission (fun m => updMd (fun d => { d with areas := 0 }) (withVar m))).m ∧
    forceTarget (forceAt 0) false 1 = some (.bool, 0, some 0, true) ∧ cmdMode (forceAt 0) = .commission ∧ (forceAt 0).md.areas.getLsbD 0 = false := by
  unfold Admits Enters; decide +kernel

def release0 : Submission := subOf [0, 0, 0, 0, 1]
theorem wit_ModeCommands_release : Admits 0 0x07 false release0 (subAt .run3 forced0).m ∧ Admits 0 0x07 false release0 (subAt .run3 id).m ∧
    (tk 0x07 release0 (subAt .run3 forced0)).md.forces.any (fun f => f.isObj == false && f.ref == 1) = true ∧
    (tk 0x07 release0 (subAt .run3 id)).md.forces.any (fun f => f.isObj == false && f.ref == 1) = false := by unfold Admits Enters; decide +kernel

/-- The terminal connection of terminal 9. -/
def conn9 : ConnDesc := { conn3 with num := 9, cid := 0x80900000, kind := 3, dlen := 56 }

/-- DATA of a critical command: opcode, STEP, tag 7, operands. -/
def crit9 (opc step task : Nat) (oper : List Byte) : List Byte :=
  [BitVec.ofNat 8 opc, BitVec.ofNat 8 step, BitVec.ofNat 8 task, 0, 0, 0, 0, 7] ++ List.replicate 8 0 ++ oper ++ List.replicate (40 - oper.length) 0
def pre9 (d : List Byte) : List Byte := [0x13, 0x00, 0x67, 0x38, 0x80, 0x90, 0, 0, 0, 1, 0, 100, 0, 0, 0, 30] ++ d
def body9 (d : List Byte) : List Byte := [0x13, 0x00, 0x38, 0x80, 0x90, 0, 0, 0, 1, 0, 100, 0, 0, 0, 30] ++ d
def tel9 (d : List Byte) : List Byte :=
  pre9 d ++ (bytesBE 8 (sealOf 0 6 0x80900000 (body9 d)).toNat ++ bytesBE 8 (sealOf 0 7 0x80900000 (body9 d)).toNat)

/-- Every lane holds the terminal's keys, time is SCN 30, and step 1 of `d1` came with SEQ 5. -/
def confMod (md : Mode) (d1 : List Byte) (f : Mod → Mod) : State :=
  subAt md (fun m => f (updHost (fun h => { h with crit := [(9, { data := d1, seq := 5 })] })
    (updLanes (fun _ x => { x with time := 600000000, nv := { x.nv with keys := { x.nv.keys with channel := [(8210, 0), (8211, 0)] } } })
      (updLg (fun g => { g with app := { g.app with conns := [conn9] } }) m))))
def sub9 (d : List Byte) : Submission := { subOf [0, 0, 0, 0, 0, 0, 0, 0, 88] with crit := true, blob := tel9 d }

theorem seals9 (x : Lane) (hx : x.nv.keys.channel = [(8210, 0), (8211, 0)]) (d : List Byte) (h4 : readBE (tel9 d) 4 4 = 0x80900000)
    (h3 : byteAt (tel9 d) 3 = 56) (h2 : byteAt (tel9 d) 2 = 0x67) (hb : telBody (tel9 d) = body9 d)
    (c1 : cut (tel9 d) 72 8 = bytesBE 8 (sealOf 0 6 0x80900000 (body9 d)).toNat) (c2 : cut (tel9 d) 80 8 = bytesBE 8 (sealOf 0 7 0x80900000 (body9 d)).toNat) :
    sealsOk x (tel9 d) = true := by
  have e1 : readBE (tel9 d) 72 8 = (sealOf 0 6 0x80900000 (body9 d)).toNat := by unfold readBE; rw [c1]; exact ofBE_bytesBE _
  have e2 : readBE (tel9 d) 80 8 = (sealOf 0 7 0x80900000 (body9 d)).toNat := by unfold readBE; rw [c2]; exact ofBE_bytesBE _
  have ec : telCid (tel9 d) = 0x80900000 := by unfold telCid; rw [h4]; rfl
  have k1 : channelKey x 2 9 false = some 0 := by unfold channelKey; rw [hx]; rfl
  have k2 : channelKey x 2 9 true = some 0 := by unfold channelKey; rw [hx]; rfl
  have d3 : telDlen (tel9 d) = 56 := h3
  unfold sealsOk
  simp only [ec, show cidClass 0x80900000 = 2 from rfl, show cidNum 0x80900000 = 9 from rfl, d3, hb, h2]
  simp only [if_true, k1, k2, e1, e2, b2n]
  simp

theorem tel9_check (k : TelCheck) (h : k.step = 0 ∧ k.conn = some conn9 ∧ k.full = 30) : k = { step := 0, conn := some conn9, full := 30 } := by
  obtain ⟨a, b, c⟩ := h; cases k; simp_all

/-- Grants area 3: DATA of both steps. -/
def g1 : List Byte := crit9 4 1 0 [3]
def g2 : List Byte := crit9 4 2 0 [3]
theorem sealed_g2 (x : Lane) (hx : x.nv.keys.channel = [(8210, 0), (8211, 0)]) : sealsOk x (tel9 g2) = true :=
  seals9 x hx g2 (by decide +kernel) (by decide +kernel) (by decide +kernel) rfl rfl rfl

def granted3 (m : Mod) : Mod := updMd (fun d => { d with areas := 8 }) m
def trigged (m : Mod) : Mod := updMd (fun d => { d with trigs := [trig0] }) m

theorem wit_ModeCommands_grant_confirms : Confirms 0x04 (sub9 g2) (confMod .run3 g1 id).m := by
  have hc (l : LaneId) : checkTel (taken 0x04 (sub9 g2) (confMod .run3 g1 id).m) ((taken 0x04 (sub9 g2) (confMod .run3 g1 id).m).ln.get l)
      (scn (taken 0x04 (sub9 g2) (confMod .run3 g1 id).m) * 20000000 + 1000000) true (tel9 g2) = { step := 0, conn := some conn9, full := 30 } := by
    apply tel9_check; unfold checkTel; rw [sealed_g2 _ (by cases l <;> rfl)]; cases l <;> decide +kernel
  unfold Confirms checkTerminal
  simp only [show (sub9 g2).blob = tel9 g2 from rfl, hc]
  decide +kernel

/-- The grant enters, and its area is free, in RUN-3, and in COMMISSION without and with a trigger told before it. -/
theorem wit_ModeCommands_grant : byteAt (sealedOper 0x04 (sub9 g2)) 0 = 3 ∧
    (∀ s ∈ [confMod .run3 g1 id, confMod .commission g1 id, confMod .commission g1 trigged], Admits 0 0x04 true (sub9 g2) s.m ∧
      recorderDead (tk 0x04 (sub9 g2) s) = false ∧ (tk 0x04 (sub9 g2) s).md.areas.getLsbD 3 = false) ∧
    cmdMode (tk 0x04 (sub9 g2) (confMod .run3 g1 id)) = .run3 ∧ cmdMode (tk 0x04 (sub9 g2) (confMod .commission g1 id)) = .commission ∧
    (tk 0x04 (sub9 g2) (confMod .commission g1 id)).md.trigs = [] ∧ (tk 0x04 (sub9 g2) (confMod .commission g1 trigged)).md.trigs ≠ [] := by
  unfold Admits Enters; decide +kernel

theorem wit_ModeCommands_grant_commission : Confirms 0x04 (sub9 g2) (confMod .commission g1 id).m := by
  have hc (l : LaneId) : checkTel (taken 0x04 (sub9 g2) (confMod .commission g1 id).m) ((taken 0x04 (sub9 g2) (confMod .commission g1 id).m).ln.get l)
      (scn (taken 0x04 (sub9 g2) (confMod .commission g1 id).m) * 20000000 + 1000000) true (tel9 g2) = { step := 0, conn := some conn9, full := 30 } := by
    apply tel9_check; unfold checkTel; rw [sealed_g2 _ (by cases l <;> rfl)]; cases l <;> decide +kernel
  unfold Confirms checkTerminal
  simp only [show (sub9 g2).blob = tel9 g2 from rfl, hc]
  decide +kernel
theorem wit_ModeCommands_grant_trigged : Confirms 0x04 (sub9 g2) (confMod .commission g1 trigged).m := by
  have hc (l : LaneId) : checkTel (taken 0x04 (sub9 g2) (confMod .commission g1 trigged).m) ((taken 0x04 (sub9 g2) (confMod .commission g1 trigged).m).ln.get l)
      (scn (taken 0x04 (sub9 g2) (confMod .commission g1 trigged).m) * 20000000 + 1000000) true (tel9 g2) = { step := 0, conn := some conn9, full := 30 } := by
    apply tel9_check; unfold checkTel; rw [sealed_g2 _ (by cases l <;> rfl)]; cases l <;> decide +kernel
  unfold Confirms checkTerminal
  simp only [show (sub9 g2).blob = tel9 g2 from rfl, hc]
  decide +kernel

/-- Returns area 3. -/
def t1 : List Byte := crit9 0x05 1 0 [3]
def t2 : List Byte := crit9 0x05 2 0 [3]
theorem sealed_t2 (x : Lane) (hx : x.nv.keys.channel = [(8210, 0), (8211, 0)]) : sealsOk x (tel9 t2) = true :=
  seals9 x hx t2 (by decide +kernel) (by decide +kernel) (by decide +kernel) rfl rfl rfl

def forced3 (m : Mod) : Mod := updMd (fun d => { d with areas := 8, forces := [{ isObj := false, ref := 1, tag := 1, val := 1, area := 3 }] }) m

theorem wit_ModeCommands_return_confirms : Confirms 0x05 (sub9 t2) (confMod .maintain t1 granted3).m := by
  have hc (l : LaneId) : checkTel (taken 0x05 (sub9 t2) (confMod .maintain t1 granted3).m) ((taken 0x05 (sub9 t2) (confMod .maintain t1 granted3).m).ln.get l)
      (scn (taken 0x05 (sub9 t2) (confMod .maintain t1 granted3).m) * 20000000 + 1000000) true (tel9 t2) = { step := 0, conn := some conn9, full := 30 } := by
    apply tel9_check; unfold checkTel; rw [sealed_t2 _ (by cases l <;> rfl)]; cases l <;> decide +kernel
  unfold Confirms checkTerminal
  simp only [show (sub9 t2).blob = tel9 t2 from rfl, hc]
  decide +kernel
theorem wit_ModeCommands_return_forced : Confirms 0x05 (sub9 t2) (confMod .maintain t1 forced3).m := by
  have hc (l : LaneId) : checkTel (taken 0x05 (sub9 t2) (confMod .maintain t1 forced3).m) ((taken 0x05 (sub9 t2) (confMod .maintain t1 forced3).m).ln.get l)
      (scn (taken 0x05 (sub9 t2) (confMod .maintain t1 forced3).m) * 20000000 + 1000000) true (tel9 t2) = { step := 0, conn := some conn9, full := 30 } := by
    apply tel9_check; unfold checkTel; rw [sealed_t2 _ (by cases l <;> rfl)]; cases l <;> decide +kernel
  unfold Confirms checkTerminal
  simp only [show (sub9 t2).blob = tel9 t2 from rfl, hc]
  decide +kernel
theorem wit_ModeCommands_return_commission : Confirms 0x05 (sub9 t2) (confMod .commission t1 granted3).m := by
  have hc (l : LaneId) : checkTel (taken 0x05 (sub9 t2) (confMod .commission t1 granted3).m) ((taken 0x05 (sub9 t2) (confMod .commission t1 granted3).m).ln.get l)
      (scn (taken 0x05 (sub9 t2) (confMod .commission t1 granted3).m) * 20000000 + 1000000) true (tel9 t2) = { step := 0, conn := some conn9, full := 30 } := by
    apply tel9_check; unfold checkTel; rw [sealed_t2 _ (by cases l <;> rfl)]; cases l <;> decide +kernel
  unfold Confirms checkTerminal
  simp only [show (sub9 t2).blob = tel9 t2 from rfl, hc]
  decide +kernel

theorem wit_ModeCommands_return : byteAt (sealedOper 0x05 (sub9 t2)) 0 = 3 ∧
    (∀ s ∈ [confMod .maintain t1 granted3, confMod .maintain t1 forced3, confMod .commission t1 granted3], Admits 0 0x05 true (sub9 t2) s.m ∧
      (tk 0x05 (sub9 t2) s).md.areas.getLsbD 3 = true) ∧
    (tk 0x05 (sub9 t2) (confMod .maintain t1 granted3)).md.forces.any (fun f => f.area == 3) = false ∧
    (tk 0x05 (sub9 t2) (confMod .maintain t1 forced3)).md.forces.any (fun f => f.area == 3) = true ∧
    cmdMode (tk 0x05 (sub9 t2) (confMod .maintain t1 granted3)) = .maintain ∧ cmdMode (tk 0x05 (sub9 t2) (confMod .commission t1 granted3)) = .commission := by
  unfold Admits Enters; decide +kernel

def stn7 (m : Mod) : Mod := { m with net := (strideMod 0 m).net }

/-- Rebinds station 7 to identity 88, and back to its table's. -/
def b1 : List Byte := crit9 0x81 1 0 ([0, 7, 0, 0, 0, 0, 0, 0] ++ [0, 0, 0, 0, 0, 0, 0, 88])
def b2 : List Byte := crit9 0x81 2 0 ([0, 7, 0, 0, 0, 0, 0, 0] ++ [0, 0, 0, 0, 0, 0, 0, 88])

theorem sealed_b2 (x : Lane) (hx : x.nv.keys.channel = [(8210, 0), (8211, 0)]) : sealsOk x (tel9 b2) = true :=
  seals9 x hx b2 (by decide +kernel) (by decide +kernel) (by decide +kernel) rfl rfl rfl

theorem wit_FieldAndNetworkCommands_confirms : Confirms 0x81 (sub9 b2) (confMod .commission b1 stn7).m := by
  have hc (l : LaneId) : checkTel (taken 0x81 (sub9 b2) (confMod .commission b1 stn7).m) ((taken 0x81 (sub9 b2) (confMod .commission b1 stn7).m).ln.get l)
      (scn (taken 0x81 (sub9 b2) (confMod .commission b1 stn7).m) * 20000000 + 1000000) true (tel9 b2) = { step := 0, conn := some conn9, full := 30 } := by
    apply tel9_check; unfold checkTel; rw [sealed_b2 _ (by cases l <;> rfl)]; cases l <;> decide +kernel
  unfold Confirms checkTerminal
  simp only [show (sub9 b2).blob = tel9 b2 from rfl, hc]
  decide +kernel

theorem wit_FieldAndNetworkCommands_rebind : Admits 0 0x81 true (sub9 b2) (confMod .commission b1 stn7).m ∧
    readLE (sealedOper 0x81 (sub9 b2)) 0 2 = 7 ∧ byteAt (sealedOper 0x81 (sub9 b2)) 2 = 0 ∧ readLE (sealedOper 0x81 (sub9 b2)) 8 8 = 88 ∧
    (boundOf (tk 0x81 (sub9 b2) (confMod .commission b1 stn7)) 0 7).isSome = true ∧ (tk 0x81 (sub9 b2) (confMod .commission b1 stn7)).md.mode = .commission ∧
    farAdmitted (tk 0x81 (sub9 b2) (confMod .commission b1 stn7)) 0 7 = false ∧
    boundElsewhere (tk 0x81 (sub9 b2) (confMod .commission b1 stn7)) 0 7 88 = false ∧
    (farConns (tk 0x81 (sub9 b2) (confMod .commission b1 stn7)) 0 7).any (fun c => decide (65535 < epochOf (tk 0x81 (sub9 b2) (confMod .commission b1 stn7)) c + 1)) = false := by
  unfold Admits Enters; decide +kernel

def evTask (n : Nat) (m : Mod) : Mod := updTcb 1 (fun x => { x with cmdN := n, cmdScn := scn m }) (withTask .evMain m)
def withConn9 (m : Mod) : Mod := updLg (fun g => { g with app := { g.app with conns := [conn9] } }) m

/-- A critical application command for task 1. -/
def a1 : List Byte := crit9 0x0B 1 1 [5]
def a2 : List Byte := crit9 0x0B 2 1 [5]
theorem sealed_a2 (x : Lane) (hx : x.nv.keys.channel = [(8210, 0), (8211, 0)]) : sealsOk x (tel9 a2) = true :=
  seals9 x hx a2 (by decide +kernel) (by decide +kernel) (by decide +kernel) rfl rfl rfl

def critTask (m : Mod) : Mod := withConn9 (updLg (fun g => { g with app := { g.app with tasks := [{ task .evMain with critical := true }] } }) m)

theorem wit_RouteAndTaskCommands_confirms : Confirms 0x0B (sub9 a2) (confMod .run3 a1 critTask).m := by
  have hc (l : LaneId) : checkTel (taken 0x0B (sub9 a2) (confMod .run3 a1 critTask).m) ((taken 0x0B (sub9 a2) (confMod .run3 a1 critTask).m).ln.get l)
      (scn (taken 0x0B (sub9 a2) (confMod .run3 a1 critTask).m) * 20000000 + 1000000) true (tel9 a2) = { step := 0, conn := some conn9, full := 30 } := by
    apply tel9_check; unfold checkTel; rw [sealed_a2 _ (by cases l <;> rfl)]; cases l <;> decide +kernel
  unfold Confirms checkTerminal
  simp only [show (sub9 a2).blob = tel9 a2 from rfl, hc]
  decide +kernel
theorem wit_RouteAndTaskCommands_critical : Admits 0 0x0B true (sub9 a2) (confMod .run3 a1 critTask).m ∧ byteAt (telData (sub9 a2).blob) 2 = 1 ∧
    taskDesc (tk 0x0B (sub9 a2) (confMod .run3 a1 critTask)) 1 = some { task .evMain with critical := true } ∧
    (tcbOf (tk 0x0B (sub9 a2) (confMod .run3 a1 critTask)) 1).parked = false ∧ (tcbOf (tk 0x0B (sub9 a2) (confMod .run3 a1 critTask)) 1).cmdN < 64 ∧
    fieldOf ((sub9 a2).tag).toNat 12 8 = 0 := by unfold Admits Enters; decide +kernel

/-- Route 0's request of this tag waits. -/
def pendMod (tag : W32) (m : Mod) : Mod :=
  updHost (fun h => { h with open_ := [{ src := .ring 0, opc := 8, tag := tag }] })
    (updEn (fun e => { e with pend := [(0, { tag := tag, prio := 0, blk := 0, arrival := 0, sub := { src := .ring 0, opc := 8, tag := tag } })] }) m)
def subT : Submission := { sub0 with task := 1, tag := 0 }

/-- A route request that R218 refuses in no row: route 0 valid and free, of another generation than the last lock's. -/
def free0 (m : Mod) : Mod := updLg (fun g => { g with app := { g.app with dir := [(0, BitVec.ofNat 32 (2 ^ 31))] } }) m
def subG : Submission := { sub0 with tag := 0x01000000 }

theorem wit_RouteAndTaskCommands_request : Admits 0 0x08 false subG (subAt .run3 free0).m ∧ Admits 0 0x08 false subT (subAt .run3 id).m ∧
    fieldOf (0x01000000#32).toNat 12 8 = 0 ∧ byteAt sub0.oper 0 ≤ 7 ∧ requestRefusal (tk 0x08 subG (subAt .run3 free0)) 0x01000000 = 0 ∧
    requestRefusal (tk 0x08 subT (subAt .run3 id)) 0 ≠ 0 := by unfold Admits Enters; decide +kernel

theorem wit_RouteAndTaskCommands_cancel : Admits 0 0x09 false sub0 (subAt .run3 (pendMod 0)).m ∧ tagRoute (BitVec.ofNat 32 (readLE sub0.oper 0 4)) = 0 ∧
    (pendOf (tk 0x09 sub0 (subAt .run3 (pendMod 0))) 0).map (fun p => (p.tag, p.sub.opc)) = some (0, 8) ∧
    (pendOf (tk 0x09 sub0 (subAt .run3 (pendMod 0))) 0).map (·.sub) = (tk 0x09 sub0 (subAt .run3 (pendMod 0))).host.open_.head? ∧
    Admits 0 0x09 false sub0 (subAt .run3 (pendMod 0x01000000)).m ∧
    (pendOf (tk 0x09 sub0 (subAt .run3 (pendMod 0x01000000))) 0).map (·.tag) = some 0x01000000 := by unfold Admits Enters; decide +kernel

theorem wit_RouteAndTaskCommands_bist : (Admits 0 0x0A false sub0 (subAt .commission id).m ∧ cmdMode (tk 0x0A sub0 (subAt .commission id)) = .commission ∧
      (tk 0x0A sub0 (subAt .commission id)).sec.lc = .blank) ∧ byteAt sub0.oper 0 < 24 ∧
    Admits 0 0x0A false sub0 (subAt .commission inField).m ∧ cmdMode (tk 0x0A sub0 (subAt .commission inField)) = .commission ∧
    (tk 0x0A sub0 (subAt .commission inField)).sec.lc = .field := by unfold Admits Enters; decide +kernel

theorem wit_RouteAndTaskCommands_command : Admits 0 0x0B false subT (subAt .run3 (evTask 63)).m ∧
    taskDesc (tk 0x0B subT (subAt .run3 (evTask 63))) 1 = some (task .evMain) ∧ (tcbOf (tk 0x0B subT (subAt .run3 (evTask 63))) 1).parked = false ∧
    (tcbOf (tk 0x0B subT (subAt .run3 (evTask 63))) 1).cmdScn = scn (tk 0x0B subT (subAt .run3 (evTask 63))) ∧
    (tcbOf (tk 0x0B subT (subAt .run3 (evTask 63))) 1).cmdN = 63 := by unfold Admits Enters; decide +kernel

theorem wit_RouteAndTaskCommands_full : Admits 0 0x0B false subT (subAt .run3 (evTask 64)).m ∧
    taskDesc (tk 0x0B subT (subAt .run3 (evTask 64))) 1 = some (task .evMain) ∧ (tcbOf (tk 0x0B subT (subAt .run3 (evTask 64))) 1).parked = false ∧
    (tcbOf (tk 0x0B subT (subAt .run3 (evTask 64))) 1).cmdScn = scn (tk 0x0B subT (subAt .run3 (evTask 64))) ∧
    (tcbOf (tk 0x0B subT (subAt .run3 (evTask 64))) 1).cmdN = 64 := by unfold Admits Enters; decide +kernel

theorem wit_RouteAndTaskCommands_exclusion : Admits 0 0x21 false sub0 (subAt .commission id).m ∧ cmdMode (tk 0x21 sub0 (subAt .commission id)) = .commission ∧
    laneOf? (byteAt sub0.oper 0) = some .a ∧ Admits 0 0x21 false sub0 (subAt .run3 id).m ∧ cmdMode (tk 0x21 sub0 (subAt .run3 id)) = .run3 := by
  unfold Admits Enters; decide +kernel

def grpSub (f : Group → Group) : State := subAt .run3 (updGroup 0 f)
def drvSub (f : Drive → Drive) : State := subAt .run3 (updDrive 0 f)
def sagging (n : Nat) : State := grpSub (fun g => { g with sag := true, highN := n })
def feeding (b : Bool) : State := subAt .run3 (fun m => updGroup 0 (fun g => { g with ext := true }) (updDrive ((drivesOf 0).headD 0) (fun d => { d with feed := b }) m))

theorem wit_FieldAndNetworkCommands_sag : byteAt sub0.oper 0 = 0 ∧
    (Admits 0 0x60 false sub0 (sagging 50).m ∧ (groupAt (tk 0x60 sub0 (sagging 50)) 0).sag = true ∧ 50 ≤ (groupAt (tk 0x60 sub0 (sagging 50)) 0).highN) ∧
    (Admits 0 0x60 false sub0 (sagging 49).m ∧ (groupAt (tk 0x60 sub0 (sagging 49)) 0).sag = true ∧ (groupAt (tk 0x60 sub0 (sagging 49)) 0).highN < 50) := by
  unfold Admits Enters; decide +kernel

theorem wit_FieldAndNetworkCommands_feed :
    (Admits 0 0x61 false sub0 (feeding false).m ∧ (groupAt (tk 0x61 sub0 (feeding false)) 0).ext = true ∧
      (drivesOf 0).any (fun j => (driveOf (tk 0x61 sub0 (feeding false)) j).feed) = false ∧ (0 : Nat) ≠ 2) ∧
    (Admits 0 0x61 false sub0 (feeding true).m ∧ (groupAt (tk 0x61 sub0 (feeding true)) 0).ext = true ∧
      (drivesOf 0).any (fun j => (driveOf (tk 0x61 sub0 (feeding true)) j).feed) = true) := by unfold Admits Enters; decide +kernel

def overloaded : State := drvSub (fun d => { d with overload := true })
def proofLost : State := drvSub (fun d => { d with overload := true, proof := true })
theorem wit_FieldAndNetworkCommands_channel :
    (Admits 0 0x62 false sub0 overloaded.m ∧ (driveOf (tk 0x62 sub0 overloaded) 0).overload = true ∧ (driveOf (tk 0x62 sub0 overloaded) 0).proof = false ∧
      (groupAt (tk 0x62 sub0 overloaded) (groupOfDrive 0)).sag = false ∧ (groupAt (tk 0x62 sub0 overloaded) (groupOfDrive 0)).ext = false) ∧
    (Admits 0 0x62 false sub0 proofLost.m ∧ (driveOf (tk 0x62 sub0 proofLost) 0).proof = true) ∧
    (Admits 0 0x63 false sub0 (subAt .run3 id).m ∧ bitOf (tk 0x63 sub0 (subAt .run3 id)).cfg.fiocfg.toNat 0 = true) := by
  unfold Admits Enters; decide +kernel

/-- A switch to schedule 1 ten station cycles on, too soon, and too soon where the completion ring has stopped. -/
def cqStopped (m : Mod) : Mod := updRing 32 (fun r => { r with fault := true }) m
def schedSub (n : Nat) : Submission := { subOf [1] with nscn := scn (tk 0x80 (subOf [1]) (subAt .run3 stn7)) + n }
theorem wit_FieldAndNetworkCommands_schedule :
    Admits 0 0x80 false (schedSub 10) (subAt .run3 stn7).m ∧ (tk 0x80 (schedSub 10) (subAt .run3 stn7)).net.scheds.any (fun x => x.num == 1) = true ∧
    (tk 0x80 (schedSub 10) (subAt .run3 stn7)).str.sched = 0 ∧ (tk 0x80 (schedSub 10) (subAt .run3 stn7)).str.swPend = false ∧
    scn (tk 0x80 (schedSub 10) (subAt .run3 stn7)) + 10 ≤ (schedSub 10).nscn := by unfold Admits Enters; decide +kernel

theorem wit_FieldAndNetworkCommands_soon : Admits 0 0x80 false (schedSub 9) (subAt .run3 stn7).m ∧
    (tk 0x80 (schedSub 9) (subAt .run3 stn7)).net.scheds.any (fun x => x.num == 1) = true ∧
    (tk 0x80 (schedSub 9) (subAt .run3 stn7)).str.sched = 0 ∧ (tk 0x80 (schedSub 9) (subAt .run3 stn7)).str.swPend = false ∧
    (schedSub 9).nscn < scn (tk 0x80 (schedSub 9) (subAt .run3 stn7)) + 10 ∧
    ringRoom (tk 0x80 (schedSub 9) (subAt .run3 stn7)) ((ringOf (tk 0x80 (schedSub 9) (subAt .run3 stn7)) 0).target % 32 + 32) = true := by
  unfold Admits Enters; decide +kernel

theorem wit_FieldAndNetworkCommands_noRoom : Admits 0 0x80 false (schedSub 9) (subAt .run3 (fun m => cqStopped (stn7 m))).m ∧
    (schedSub 9).nscn < scn (tk 0x80 (schedSub 9) (subAt .run3 (fun m => cqStopped (stn7 m)))) + 10 ∧
    (tk 0x80 (schedSub 9) (subAt .run3 (fun m => cqStopped (stn7 m)))).net.scheds.any (fun x => x.num == 1) = true ∧
    (tk 0x80 (schedSub 9) (subAt .run3 (fun m => cqStopped (stn7 m)))).str.sched = 0 ∧
    ringRoom (tk 0x80 (schedSub 9) (subAt .run3 (fun m => cqStopped (stn7 m)))) ((ringOf (tk 0x80 (schedSub 9) (subAt .run3 (fun m => cqStopped (stn7 m)))) 0).target % 32 + 32) = false := by
  unfold Admits Enters; decide +kernel

theorem wit_FieldAndNetworkCommands_counters : (Admits 0 0xA0 false (subOf [3]) (subAt .run3 connMod).m ∧
      ((inConns (tk 0xA0 (subOf [3]) (subAt .run3 connMod))).find? (fun c => c.num == 3)).isSome = true) ∧
    (Admits 0 0xA0 false (subOf [3]) (subAt .run3 id).m ∧ (inConns (tk 0xA0 (subOf [3]) (subAt .run3 id))).find? (fun c => c.num == 3) = none) := by
  unfold Admits Enters; decide +kernel

/-- Ring 0 is a front-end ring; channel 0 is up; buffer 1 is free, or holds an entry of generation 1. -/
def feRing (h : HostTx) (m : Mod) : Mod :=
  updHost (fun x => { x with open_ := [{ src := .ring 0, opc := 0xB0, tag := 5 }],
                             rings := (List.range 32).map (fun i => (32 + i, { Ring.fresh with en := true, log2n := 4 })) ++ x.rings })
    (updRing 0 (fun r => { r with cls := true }) (updChan 0 (fun c => { c with state := 0, host := [(1, h)] }) { m with clk := 1 }))
def txSub : Submission := subOf ([0, 1, 1, 0, 0x80, 4, 0, 0] ++ List.replicate 8 0 ++ [1])
def inQueue : HostTx := { HostTx.fresh with state := 1, gen := 1, tag := 5 }
def leadReady (swi7 : BitVec 2) (m : Mod) : Mod :=
  updFio (fun f => { f with image := (List.replicate 104 0).set 103 swi7 })
    (updPr (fun p => { p with role := 1, prole := 2, stepCyc := 50, ackScn := some (scn m), acks := [(0, 1)] }) (shadowing m))
def rollSub : Submission := { subOf (List.replicate 8 0 ++ [0x00, 0x50, 0x0C]) with nscn := 4 }
def atOnce (opc : Nat) (sub : Submission) (s : State) : Mod := takenAtOnce opc sub s.m

theorem wit_HostAndPairCommands_transmit : FourOfEach (atOnce 0xB0 txSub (subAt .run3 (feRing HostTx.fresh))) ∧ (ringOf (subAt .run3 (feRing HostTx.fresh)).m 0).cls = true ∧
    mayTake (subAt .run3 (feRing HostTx.fresh)).m { txSub with opc := 0xB0 } = true ∧ readLE txSub.oper 16 2 = 1 ∧
    bufferFree (atOnce 0xB0 txSub (subAt .run3 (feRing HostTx.fresh))) (hostTx (atOnce 0xB0 txSub (subAt .run3 (feRing HostTx.fresh))) 0 1) = true ∧
    formatOk (readLE txSub.oper 4 2) (byteAt txSub.oper 6) (bitOf (byteAt txSub.oper 3) 0) (bitOf (byteAt txSub.oper 3) 1) = true ∧ byteAt txSub.oper 2 ≠ 0 ∧
    byteAt txSub.oper 2 ≠ (hostTx (atOnce 0xB0 txSub (subAt .run3 (feRing HostTx.fresh))) 0 1).lastGen ∧
    (chanOf (atOnce 0xB0 txSub (subAt .run3 (feRing HostTx.fresh))) 0).state ≠ 3 := by unfold FourOfEach; decide +kernel

theorem wit_HostAndPairCommands_cancel : FourOfEach (atOnce 0xB1 txSub (subAt .run3 (feRing inQueue))) ∧
    mayTake (subAt .run3 (feRing inQueue)).m { txSub with opc := 0xB1 } = true ∧ hostTx (atOnce 0xB1 txSub (subAt .run3 (feRing inQueue))) 0 1 = inQueue ∧
    inQueue.queuedAt < (atOnce 0xB1 txSub (subAt .run3 (feRing inQueue))).clk ∧ inQueue.sq = 0 ∧
    ({ src := .ring (Fin.ofNat 32 inQueue.sq), opc := 0xB0, tag := inQueue.tag } : Accepted) ∈ (atOnce 0xB1 txSub (subAt .run3 (feRing inQueue))).host.open_ := by
  unfold FourOfEach; decide +kernel

theorem wit_HostAndPairCommands_room : (List.range 32).all (fun k => ringRoom (atOnce 0xB1 txSub (subAt .run3 (feRing inQueue))) (32 + k) &&
    decide (diff32 (ringOf (atOnce 0xB1 txSub (subAt .run3 (feRing inQueue))) (32 + k)).count (ringOf (atOnce 0xB1 txSub (subAt .run3 (feRing inQueue))) (32 + k)).ack + 1 <
      ringSize (ringOf (atOnce 0xB1 txSub (subAt .run3 (feRing inQueue))) (32 + k)))) = true := by decide +kernel

theorem wit_HostAndPairCommands_noOperation : Admits 0 0xC0 false sub0 (subAt .run3 id).m ∧
    ringRoom (tk 0xC0 sub0 (subAt .run3 id)) ((ringOf (tk 0xC0 sub0 (subAt .run3 id)) 0).target % 32 + 32) = true ∧
    Admits 0 0xC0 false sub0 (subAt .run3 cqStopped).m ∧
    ringRoom (tk 0xC0 sub0 (subAt .run3 cqStopped)) ((ringOf (tk 0xC0 sub0 (subAt .run3 cqStopped)) 0).target % 32 + 32) = false ∧
    mayTake (st id).m { sub0 with opc := 0xC0 } = false := by unfold Admits Enters; decide +kernel

def feStopped (m : Mod) : Mod := updRing 0 (fun r => { r with cls := true }) (cqStopped m)
theorem wit_HostAndPairCommands_noOperation_atOnce : mayTake (subAt .run3 (feRing inQueue)).m { sub0 with opc := 0xC0 } = true ∧
    (ringOf (subAt .run3 (feRing inQueue)).m 0).cls = true ∧
    ringRoom (atOnce 0xC0 sub0 (subAt .run3 (feRing inQueue))) ((ringOf (atOnce 0xC0 sub0 (subAt .run3 (feRing inQueue))) 0).target % 32 + 32) = true ∧
    mayTake (subAt .run3 feStopped).m { sub0 with opc := 0xC0 } = true ∧ (ringOf (subAt .run3 feStopped).m 0).cls = true ∧
    ringRoom (atOnce 0xC0 sub0 (subAt .run3 feStopped)) ((ringOf (atOnce 0xC0 sub0 (subAt .run3 feStopped)) 0).target % 32 + 32) = false := by decide +kernel

theorem wit_HostAndPairCommands_changeover : (∀ w, w = 0 ∨ w = 1 → Admits 0 0xD0 false sub0 (subAt .run3 (leadReady w)).m) ∧
    ((tk 0xD0 sub0 (subAt .run3 (leadReady 1))).pr.role = 1 ∧ (tk 0xD0 sub0 (subAt .run3 (leadReady 1))).pr.outgoing = false ∧
      cmdMode (tk 0xD0 sub0 (subAt .run3 (leadReady 1))) = .run3 ∧ (tk 0xD0 sub0 (subAt .run3 (leadReady 1))).pr.prole = 2 ∧
      50 ≤ (tk 0xD0 sub0 (subAt .run3 (leadReady 1))).pr.stepCyc ∧ (tk 0xD0 sub0 (subAt .run3 (leadReady 1))).pr.chgo = false) ∧
    swi (tk 0xD0 sub0 (subAt .run3 (leadReady 1))) 7 = 1 ∧ swi (tk 0xD0 sub0 (subAt .run3 (leadReady 1))) 6 ≠ 1 ∧
    swi (tk 0xD0 sub0 (subAt .run3 (leadReady 0))) 7 ≠ 1 := by
  refine ⟨?_, by decide +kernel⟩
  intro w hw; unfold Admits Enters; rcases hw with rfl | rfl <;> decide +kernel

theorem wit_HostAndPairCommands_reJoin : (Admits 0 0xD1 false sub0 (subAt .shadow shadowing).m ∧ (tk 0xD1 sub0 (subAt .shadow shadowing)).pr.role = 2 ∧
      (tk 0xD1 sub0 (subAt .shadow shadowing)).pr.joining = false) ∧ Admits 0 0xD1 false sub0 (subAt .run3 id).m ∧ (tk 0xD1 sub0 (subAt .run3 id)).pr.role ≠ 2 := by
  unfold Admits Enters; decide +kernel

theorem wit_HostAndPairCommands_recorder :
    (Admits 0 0xE8 false (subOf [0, 2, 1]) (subAt .run3 id).m ∧ byteAt (subOf [0, 2, 1]).oper 1 = 2 ∧ readLE (subOf [0, 2, 1]).oper 2 2 ≠ 0) ∧
    (Admits 0 0xE9 false sub0 (subAt .run3 (updRcd (fun r => { r with reads := [(0, read0 0 1)] }))).m ∧
      (tabFind (tk 0xE9 sub0 (subAt .run3 (updRcd (fun r => { r with reads := [(0, read0 0 1)] })))).rcd.reads 0).isSome = true) ∧
    (Admits 0 0xEA false rollSub (subAt .run3 id).m ∧ scn (tk 0xEA rollSub (subAt .run3 id)) + 4 ≤ rollSub.nscn ∧ (tk 0xEA rollSub (subAt .run3 id)).rc.state = 0 ∧
      readLE rollSub.oper 0 8 % 4096 = 0 ∧ 0xC5000 ≤ readLE rollSub.oper 8 4) ∧
    (Admits 0 0xEA false sub0 (subAt .run3 id).m ∧ sub0.nscn ≤ scn (tk 0xEA sub0 (subAt .run3 id))) := by unfold Admits Enters; decide +kernel

theorem wit_HostAndPairCommands_counters :
    (Admits 0 0xEB false sub0 (subAt .run3 id).m ∧ ((List.range 8).map (fun i => BitVec.ofNat 32 (readLE sub0.oper (4 * i) 4))).all pcWordOk = true) ∧
    (Admits 0 0xEB false (subOf [0x7F]) (subAt .run3 id).m ∧
      ((List.range 8).map (fun i => BitVec.ofNat 32 (readLE (subOf [0x7F]).oper (4 * i) 4))).all pcWordOk = false) := by unfold Admits Enters; decide +kernel

def hdrNs (n : Nat) : ImgHeader := { act0.hdr with kind := 5, plen := n }
def charged (m : Mod) : Mod := updPw (fun p => { p with charge := 95 }) (inField m)
def sessAt (x : Session) : State := subAt .commission (fun m => updUp (fun u => { u with session := some x }) (charged m))
def sess5 : Session := { sess0 5 with header := some (hdrNs 2), payload := [1, 2], verified := true }
def sess1 : Session := { sess0 1 with header := some act0.hdr, verified := true }
def verSub (oper : List Byte) (nscn : Nat) : Submission := { subOf oper with nscn := nscn }

/-- A front-end image header of version 0 with no components. -/
def head1k : List Byte := bytesLE 4 0x5A33494D ++ bytesLE 2 1 ++ [1, 0] ++ partName ++ List.replicate 4072 0

/-- Where the signature verifies (log entry 6), the header passes every step. -/
theorem wit_UpdateSession_header (hs : ∀ k b g, Config.imageSigOk k b g = true) :
    Admits 0 0xE1 false { subOf [1] with blob := head1k } (sessAt (sess0 1)).m ∧
    headerStep (tk 0xE1 { subOf [1] with blob := head1k } (sessAt (sess0 1))) (sess0 1) head1k = 0 := by
  refine ⟨by unfold Admits Enters; decide +kernel, ?_⟩
  have g : sigOk (tk 0xE1 { subOf [1] with blob := head1k } (sessAt (sess0 1))) (parseHeader head1k) head1k = true := by
    unfold sigOk; simp only [hs, Bool.and_true]; decide +kernel
  have l : head1k.length = 4096 := by unfold head1k; rw [List.length_append, List.length_replicate]; decide +kernel
  unfold headerStep
  rw [l, if_neg (by decide +kernel), g]
  decide +kernel

/-- A header too short is refused. -/
theorem wit_UpdateSession_refused : Admits 0 0xE1 false (subOf [1]) (sessAt sess5).m ∧ sessionOf (subOf [1]) (tk 0xE1 (subOf [1]) (sessAt sess5)) = some sess5 ∧
    headerStep (tk 0xE1 (subOf [1]) (sessAt sess5)) sess5 (subOf [1]).blob ≠ 0 ∧ headerStep (tk 0xE1 (subOf [1]) (sessAt sess5)) sess5 (subOf [1]).blob ≠ 5 := by
  unfold Admits Enters; decide +kernel

/-- The first chunk of a session: 4,096 of 4,096 bytes. -/
def sessC : Session := { sess0 5 with header := some (hdrNs 4096) }
def subC : Submission := { subOf (bytesLE 4 1 ++ List.replicate 12 0 ++ bytesLE 4 4096) with blob := List.replicate 4096 7 }
theorem wit_UpdateSession_chunk : Admits 0 0xE2 false subC (sessAt sessC).m ∧ sessionOf subC (tk 0xE2 subC (sessAt sessC)) = some sessC ∧
    sessC.header = some (hdrNs 4096) ∧ 95 ≤ (tk 0xE2 subC (sessAt sessC)).pw.charge ∧
    chunkOk sessC (hdrNs 4096) (readLE subC.oper 4 4) (readLE subC.oper 16 4) = true := by unfold Admits Enters; decide +kernel

theorem wit_UpdateSession_chunk_refused : Admits 0 0xE2 false (subOf [1]) (sessAt sess5).m ∧ sessionOf (subOf [1]) (tk 0xE2 (subOf [1]) (sessAt sess5)) = some sess5 ∧
    sess5.header = some (hdrNs 2) ∧ 95 ≤ (tk 0xE2 (subOf [1]) (sessAt sess5)).pw.charge ∧
    chunkOk sess5 (hdrNs 2) (readLE (subOf [1]).oper 4 4) (readLE (subOf [1]).oper 16 4) = false := by unfold Admits Enters; decide +kernel

/-- A front-end image of two bytes, whole and with its digest, and one with another digest. -/
def hdrV (pdig : List Byte) : ImgHeader := { act0.hdr with plen := 2, pdig := pdig }
def sessV (pdig : List Byte) : Session := { sess0 1 with header := some (hdrV pdig), payload := [1, 2] }
theorem wit_UpdateSession_verify : Admits 0 0xE3 false (subOf [1]) (sessAt (sessV (sha256 [1, 2]))).m ∧
    sessionOf (subOf [1]) (tk 0xE3 (subOf [1]) (sessAt (sessV (sha256 [1, 2])))) = some (sessV (sha256 [1, 2])) ∧
    contentCode (tk 0xE3 (subOf [1]) (sessAt (sessV (sha256 [1, 2])))) (stagedNow (tk 0xE3 (subOf [1]) (sessAt (sessV (sha256 [1, 2])))))
      (hdrV (sha256 [1, 2])) (bankCopies (tk 0xE3 (subOf [1]) (sessAt (sessV (sha256 [1, 2])))) (sessV (sha256 [1, 2]))) = 0 := by
  refine ⟨by unfold Admits Enters; decide +kernel, by decide +kernel, ?_⟩
  have b : bankCopies (tk 0xE3 (subOf [1]) (sessAt (sessV (sha256 [1, 2])))) (sessV (sha256 [1, 2])) = [[1, 2]] := rfl
  rw [b]; simp [contentCode, hdrV, act0]

theorem wit_UpdateSession_verify_refused : Admits 0 0xE3 false (subOf [1]) (sessAt (sessV [])).m ∧
    sessionOf (subOf [1]) (tk 0xE3 (subOf [1]) (sessAt (sessV []))) = some (sessV []) ∧ (sessV []).payload.length = (hdrV []).plen ∧ (hdrV []).kind ≠ 6 ∧
    contentCode (tk 0xE3 (subOf [1]) (sessAt (sessV []))) (stagedNow (tk 0xE3 (subOf [1]) (sessAt (sessV []))))
      (hdrV []) (bankCopies (tk 0xE3 (subOf [1]) (sessAt (sessV []))) (sessV [])) ≠ 0 := by
  refine ⟨by unfold Admits Enters; decide +kernel, by decide +kernel, rfl, by decide, ?_⟩
  have b : bankCopies (tk 0xE3 (subOf [1]) (sessAt (sessV []))) (sessV []) = [[1, 2]] := rfl
  rw [b]
  simp [contentCode, hdrV, act0]
  decide +kernel

theorem wit_UpdateSession_open : Admits 0 0xE0 false (subOf [5]) (subAt .commission charged).m ∧ openRefusal (tk 0xE0 (subOf [5]) (subAt .commission charged)) 5 0 = 0 ∧
    Admits 0 0xE0 false (subOf [5]) (sessAt sess5).m ∧ openRefusal (tk 0xE0 (subOf [5]) (sessAt sess5)) 5 0 ≠ 0 := by unfold Admits Enters; decide +kernel

theorem wit_UpdateSession_activate : Admits 0 0xE4 false (verSub [1] 500) (sessAt sess1).m ∧
    sessionOf (verSub [1] 500) (tk 0xE4 (verSub [1] 500) (sessAt sess1)) = some sess1 ∧ sess1.header = some act0.hdr ∧ sess1.verified = true ∧
    byteAt (verSub [1] 500).oper 4 = 0 ∧ scnAllowed (tk 0xE4 (verSub [1] 500) (sessAt sess1)) false 500 = true ∧
    activeKinds (tk 0xE4 (verSub [1] 500) (sessAt sess1)) 1 = [1] ∧ nsMatches (tk 0xE4 (verSub [1] 500) (sessAt sess1)) [1] = true ∧
    kindAllows (tk 0xE4 (verSub [1] 500) (sessAt sess1)) 1 [1] false = true ∧ stateForbids (tk 0xE4 (verSub [1] 500) (sessAt sess1)) [1] false sess1.station = false ∧
    95 ≤ (tk 0xE4 (verSub [1] 500) (sessAt sess1)).pw.charge ∧ sess1.kind ≠ 6 := by unfold Admits Enters; decide +kernel

theorem wit_UpdateSession_close : Admits 0 0xE5 false (subOf [1]) (sessAt sess5).m ∧ sessionOf (subOf [1]) (tk 0xE5 (subOf [1]) (sessAt sess5)) = some sess5 ∧
    Admits 0 0xE5 false (subOf [1]) (subAt .commission id).m ∧ sessionOf (subOf [1]) (tk 0xE5 (subOf [1]) (subAt .commission id)) = none := by
  unfold Admits Enters; decide +kernel

/-! ## JIC -/

/-- Task 1 in its heat, with these registers. -/
def cpu (f : Tcb → Tcb) (rs : List (Nat × Reg)) (m : Mod) : Mod :=
  updTcb 1 (fun x => f { x with regs := rs.foldl (fun v p => v.setIfInBounds p.1 p.2) x.regs }) (heat m)
def jst (rs : List (Nat × Reg)) (f : Mod → Mod) : State := st (fun m => f (cpu id rs m))
def jt (f : Tcb → Tcb) : State := st (cpu f [])
def cyc1 : TaskDesc := { task .cyc20 with route := false }
def one (ty : Ty) (v : Int) : List (Nat × Reg) := [(1, regOf ty v)]
def two (ty : Ty) (x y : Int) : List (Nat × Reg) := [(1, regOf ty x), (2, regOf ty y)]
def withApp (f : AppImage → AppImage) (m : Mod) : Mod := updLg (fun g => { g with app := f g.app }) m
def frame0c : CallFrame := { ret := 7, depth := 1 }
def loop0 (n : Nat) : LoopFrame := { start := 3, fin := 9, count := n }

/-- The heat stands at a word of code: an illegal opcode, or NOP. -/
def coded (w : W32) (m : Mod) : Mod := withApp (fun a => { a with code := [w] }) (updTcb 1 (fun x => { x with pc := 0 }) m)

theorem wit_JicControlFlow_code : codeGives (jst [] id).m.lg.app (tcbOf (jst [] id).m 1).pc .jNop = true ∧
    codeAt (jst [] (coded 0x60000000)).m.lg.app (tcbOf (jst [] (coded 0x60000000)).m 1).pc = .illegal ∧
    codeAt (jst [] (coded 0)).m.lg.app (tcbOf (jst [] (coded 0)).m 1).pc = .instr .jNop ∧ (Instr.jRet) ≠ .jNop := by decide +kernel

theorem wit_JicControlFlow : (jst (one .bool 1) id).m.powered = true ∧ InHeat 1 cyc1 (jst (one .bool 1) id).m ∧
    Holds (jst (one .bool 1) id).m 1 1 .bool (b2n true) ∧ Holds (jst (one .bool 0) id).m 1 1 .bool (b2n false) ∧
    (regAt (jst [] id).m 1 1).ty ≠ .bool ∧
    (Holds (jst (one .int32 1) (withApp (fun a => { a with jtabs := [[5, 6]] }))).m 1 1 .int32 1 ∧ (1 : Int) < [5, 6].length) ∧
    (Holds (jst (one .int32 2) (withApp (fun a => { a with jtabs := [[5, 6]] }))).m 1 1 .int32 2 ∧ ([5, 6].length : Int) ≤ 2) ∧
    Holds (jst (one .int32 (-1)) id).m 1 1 .int32 (-1) ∧
    (InHeat 1 cyc1 (jt (fun x => { x with calls := List.replicate 15 frame0c })).m ∧
      (tcbOf (jt (fun x => { x with calls := List.replicate 15 frame0c })).m 1).calls.length < 16) ∧
    16 ≤ (tcbOf (jt (fun x => { x with calls := List.replicate 16 frame0c })).m 1).calls.length ∧
    (tcbOf (jt (fun x => { x with calls := [frame0c] })).m 1).calls = frame0c :: [] ∧ (tcbOf (jt id).m 1).calls = [] ∧
    (Holds (jst (one .int32 0) id).m 1 1 .int32 0 ∧ Holds (jst (one .int32 16) id).m 1 1 .int32 16 ∧
      (16 : Int) ≤ (16 : W16).toNat ∧ (tcbOf (jt (fun x => { x with loops := List.replicate 15 (loop0 2) })).m 1).loops.length < 16 ∧ ((15 : W16).toNat : Int) < 16) ∧
    (tcbOf (jt (fun x => { x with loops := [loop0 2] })).m 1).loops = loop0 2 :: [] ∧ (tcbOf (jt (fun x => { x with loops := [loop0 1] })).m 1).loops = loop0 1 :: [] ∧
    1 < (loop0 2).count ∧ (loop0 1).count ≤ 1 ∧ (tcbOf (jt id).m 1).loops = [] ∧ (tcbOf (jt id).m 1).cmds = [] := by
  unfold InHeat Holds; decide +kernel

/-- An array, a record, and a variable of another task. -/
def varA : VarDesc := { var1 with vid := 2, addr := 20, ty := .int16, count := some 3 }
def varR : VarDesc := { var1 with vid := 3, addr := 32, fields := [{ off := 0, ty := .enum8, emax := 2 }, { off := 1, ty := .bool, emax := 0 }] }
def varE : VarDesc := { var1 with vid := 4, addr := 40, ty := .enum8, emax := 2 }
def varO : VarDesc := { var1 with vid := 5, addr := 48, owner := 2 }
def withVars (m : Mod) : Mod := withApp (fun a => { a with vars := [var1, varA, varR, varE, varO], kpool := [(.dur, 9)] }) m
def forced1 (m : Mod) : Mod := { withVars m with md := (forced0 m).md }

theorem wit_JicValues : (InHeat 1 cyc1 (jst [] withVars).m ∧ tyOfTag 4 = .int16 ∧ fits .int16 (0x7FFF : W32).toInt = true ∧ fits .int16 (0x8000 : W32).toInt = false ∧
      tyOfTag (0 : Rg).toNat = .none) ∧
    ((regAt (jst (one .int32 32767) id).m 1 1).ty ≠ .none ∧ fits .int16 (regInt (regAt (jst (one .int32 32767) id).m 1 1)) = true ∧
      fits .int16 (regInt (regAt (jst (one .int32 32768) id).m 1 1)) = false ∧ refOk (jst [] id).m.lg.app nullRef = true) ∧
    (jst [] withVars).m.lg.app.kpool[(0 : W32).toNat]? = some (.dur, 9) ∧ (jst [] withVars).m.lg.app.kpool[(1 : W32).toNat]? = none ∧
    (regAt (jst [] id).m 1 1).ty = .none ∧
    (Holds (jst ((3, regOf .dur 9) :: two .bool 1 0) id).m 1 1 .bool (b2n true) ∧ (regAt (jst ((3, regOf .dur 9) :: two .bool 1 0) id).m 1 2).ty = .bool ∧
      (regAt (jst ((3, regOf .dur 9) :: two .bool 1 0) id).m 1 1).ty = .bool) ∧
    (Holds (jst (one .int32 4095) id).m 1 1 .int32 4095 ∧ objIn (jst [] id).m.lg.app (0 : Rg).toNat 4095 = true ∧
      objIn (jst [] id).m.lg.app (0 : Rg).toNat 4096 = false ∧ Holds (jst (one .int32 4096) id).m 1 1 .int32 4096) ∧
    (Holds (jst (one .obj 5) id).m 1 1 .obj (5 : Nat) ∧ 5 ≠ nullRef ∧ Holds (jst (one .obj nullRef) id).m 1 1 .obj nullRef) := by
  unfold InHeat Holds; decide +kernel

theorem wit_JicValues_vars : InHeat 1 cyc1 (jst (two .int32 2 3) withVars).m ∧
    ((jst [] withVars).m.lg.app.vars.find? (fun x => x.vid == (1 : W32).toNat) = some var1 ∧ var1.owner = 1 ∧ forceOn (jst [] withVars).m false 1 = none ∧
      plainVar var1 = true ∧ (decodeVal .bool 0 (ofLE (memRead (jst [] withVars).m.nxt 16 1))).toOption = some (regOf .bool 0) ∧
      (regAt (jst (one .bool 1) withVars).m 1 1).ty = var1.ty ∧ (forceOn (jst [] forced1).m false 1).isSome = true) ∧
    ((jst [] withVars).m.lg.app.vars.find? (fun x => x.vid == (2 : W32).toNat) = some varA ∧ varA.count = some 3 ∧ varA.fields = [] ∧
      Holds (jst (two .int32 2 3) withVars).m 1 1 .int32 2 ∧ Holds (jst (two .int32 2 3) withVars).m 1 2 .int32 3 ∧ (3 : Int) ≤ 3 ∧
      (decodeVal .int16 0 (ofLE (memRead (jst [] withVars).m.nxt (20 + 2 * 2) 2))).toOption = some (regOf .int16 0) ∧
      (regAt (jst [(1, regOf .int32 2), (2, regOf .int16 7)] withVars).m 1 2).ty = varA.ty) ∧
    ((jst [] withVars).m.lg.app.vars.find? (fun x => x.vid == (3 : W32).toNat) = some varR ∧ varR.count = none ∧ varR.fields[1]? = some { off := 1, ty := .bool, emax := 0 } ∧
      (decodeVal .bool 0 (ofLE (memRead (jst [] withVars).m.nxt 33 1))).toOption = some (regOf .bool 0) ∧ varR.fields[0]? = some { off := 0, ty := .enum8, emax := 2 }) ∧
    ((jst [] withVars).m.lg.app.vars.find? (fun x => x.vid == (4 : W32).toNat) = some varE ∧ (regAt (jst (one .enum8 2) withVars).m 1 1).ty = varE.ty ∧
      (regAt (jst (one .enum8 2) withVars).m 1 1).val.toNat ≤ varE.emax) ∧
    ((jst [] withVars).m.lg.app.vars.find? (fun x => x.vid == (5 : W32).toNat) = some varO ∧ varO.owner ≠ 1) := by
  unfold InHeat Holds; decide +kernel

theorem wit_JicArithmetic : (jst (two .int32 2147483647 1) id).m.powered = true ∧ InHeat 1 cyc1 (jst (two .int32 2147483647 1) id).m ∧ arithTy .int32 = true ∧
    (Holds (jst (two .int32 2147483647 1) id).m 1 1 .int32 2147483647 ∧ Holds (jst (two .int32 2147483647 1) id).m 1 2 .int32 1 ∧
      fits .int32 (2147483647 + 1) = false ∧ fits .int32 (2147483647 - 1) = true ∧ fits .int32 (2147483647 * 1) = true ∧ fits .int32 (Int.tdiv 2147483647 1) = true ∧
      fits .int32 (Int.tmod 2147483647 1) = true ∧ fits .int32 2147483647 = true) ∧
    (Holds (jst (two .int32 (-2147483648) (-1)) id).m 1 1 .int32 (-2147483648) ∧ Holds (jst (two .int32 (-2147483648) (-1)) id).m 1 2 .int32 (-1) ∧
      fits .int32 (Int.tdiv (-2147483648) (-1)) = false ∧ fits .int32 (-2147483648 * -1) = false ∧ negTy .int32 = true ∧ fits .int32 (-(-2147483648)) = false) ∧
    (Holds (jst (two .int32 5 0) id).m 1 1 .int32 5 ∧ Holds (jst (two .int32 5 0) id).m 1 2 .int32 0 ∧ fits .int32 (5 + 0) = true ∧ fits .int32 (-5) = true ∧
      fits .int32 ((-5 : Int).natAbs : Int) = true) ∧
    (Holds (jst (two .int32 (-2147483648) 1) id).m 1 2 .int32 1 ∧ fits .int32 (-2147483648 - 1) = false ∧ orderTy .int32 = true) ∧
    (Holds (jst ((3, regOf .int32 1) :: two .int32 5 1) id).m 1 3 .int32 1 ∧ (1 : Int) ≤ 1 ∧ (0 : Int) < 1) ∧
    (Holds (jst (two .state4 1 2) id).m 1 1 .state4 1 ∧ Holds (jst (two .state4 1 2) id).m 1 2 .state4 2 ∧ fits .state4 1 = true) ∧
    (regAt (jst [(1, regOf .int32 1), (2, regOf .dur 1)] id).m 1 1).ty ≠ (regAt (jst [(1, regOf .int32 1), (2, regOf .dur 1)] id).m 1 2).ty := by
  unfold InHeat Holds; decide +kernel

theorem wit_JicArithmetic_bits : (Holds (jst [(1, regOf .tstamp 9), (2, regOf .dur 9)] id).m 1 1 .tstamp 9 ∧ Holds (jst [(1, regOf .tstamp 9), (2, regOf .dur 9)] id).m 1 2 .dur 9 ∧
      fits .tstamp (9 + 9) = true ∧ fits .tstamp (9 - 9) = true ∧ Holds (jst (two .tstamp 9 10) id).m 1 2 .tstamp 10 ∧ fits .dur (9 - 10) = true) ∧
    (Holds (jst (two .bool 1 0) id).m 1 1 .bool (b2n true) ∧ Holds (jst (two .bool 1 0) id).m 1 2 .bool (b2n false)) ∧
    (Holds (jst (two .uint32 0xF0 0x0F) id).m 1 1 .uint32 ((0xF0 : W32).toNat : Int) ∧ Holds (jst (two .uint32 0xF0 0x0F) id).m 1 2 .uint32 ((0x0F : W32).toNat : Int)) ∧
    (Holds (jst [(1, regOf .uint32 1), (2, regOf .int32 31)] id).m 1 2 .int32 (31 : Nat) ∧ 31 < 32 ∧
      Holds (jst [(1, regOf .uint32 1), (2, regOf .int32 32)] id).m 1 2 .int32 (32 : Nat)) := by
  unfold Holds; decide +kernel

/-- Objects, and instances of each kind. -/
def obj0 : ObjEntry := { ref := 5, inb := .chan 0, ty := .bool, emax := 0, subst := 0, area := none, staff := false, word := none }
def inst0 (num : Nat) (k : InstKind) (t : Nat) : InstDesc := { num := num, kind := k, task := t, ident := num, retained := false }
def withInsts (m : Mod) : Mod :=
  withApp (fun a => { a with vars := [var1], objs := [obj0], insts := [inst0 0 .timer 1, inst0 1 .counter 1, inst0 2 .edge 1, inst0 3 .timer 2] }) m
def atTime (m : Mod) : Mod := updTcb 1 (fun x => { x with nominal := 1000 }) m

theorem refers_of (m : Mod) (r : Rg) (kind idx v : Nat)
    (h : ((regAt m 1 r).ty = .obj ∧ regInt (regAt m 1 r) = v) ∧ v ≠ nullRef ∧ refOk m.lg.app v = true ∧ fieldOf v 28 4 = kind ∧ fieldOf v 0 16 = idx) :
    Refers m 1 r kind idx := ⟨v, ⟨h.1.1, by decide, h.1.2⟩, h.2⟩

theorem wit_JicInputsAndTimers : (jst (two .bool 1 0) withInsts).m.powered = true ∧ InHeat 1 cyc1 (jst (two .bool 1 0) withInsts).m ∧ cyc1.kind ≠ .slow ∧
    (Holds (jst (one .obj 5) withInsts).m 1 1 .obj (5 : Nat) ∧ (jst (one .obj 5) withInsts).m.lg.app.objs.find? (fun x => x.ref.toNat == 5) = some obj0 ∧
      (inputVal (jst (one .obj 5) withInsts).m obj0).isSome = true) ∧
    (jst [] withInsts).m.lg.app.vars.find? (fun x => x.vid == (1 : W32).toNat) = some var1 ∧ var1.obj = none ∧
    (Holds (jst (two .int32 3 4) id).m 1 1 .int32 (3 : Nat) ∧ Holds (jst (two .int32 3 4) id).m 1 2 .int32 (4 : Nat)) ∧
    (Holds (jst (two .tstamp 1000 1001) atTime).m 1 1 .tstamp 1000 ∧ (1000 : Int) ≤ (tcbOf (jst (two .tstamp 1000 1001) atTime).m 1).nominal ∧
      fits .dur ((tcbOf (jst (two .tstamp 1000 1001) atTime).m 1).nominal - 1000) = true ∧ Holds (jst (two .tstamp 1000 1001) atTime).m 1 2 .tstamp 1001 ∧
      ((tcbOf (jst (two .tstamp 1000 1001) atTime).m 1).nominal : Int) < 1001) ∧
    ((jst [] withInsts).m.lg.app.insts.find? (fun k => k.num == (0 : W32).toNat && k.kind == .timer) = some (inst0 0 .timer 1) ∧
      (tabGet InstState.idle (jst [] withInsts).m.lg.insts 0).running = false ∧
      Holds (jst [(1, regOf .bool 1), (2, regOf .dur 604800000000000)] withInsts).m 1 1 .bool (b2n true) ∧
      Holds (jst [(1, regOf .bool 1), (2, regOf .dur 604800000000000)] withInsts).m 1 2 .dur (604800000000000 : Nat)) ∧
    ((jst [] withInsts).m.lg.app.insts.find? (fun k => k.num == (3 : W32).toNat && k.kind == .timer) = some (inst0 3 .timer 2) ∧ (inst0 3 .timer 2).task ≠ 1) ∧
    ((jst [] withInsts).m.lg.app.insts.find? (fun k => k.num == (1 : W32).toNat && k.kind == .counter) = some (inst0 1 .counter 1) ∧
      Holds (jst [(1, regOf .bool 1), (2, regOf .int32 (-3))] withInsts).m 1 2 .int32 (-3)) ∧
    ((jst [] withInsts).m.lg.app.insts.find? (fun k => k.num == (2 : W32).toNat && k.kind == .edge) = some (inst0 2 .edge 1) ∧
      Holds (jst (two .bool 1 0) withInsts).m 1 2 .bool (b2n false)) := by
  unfold InHeat Holds; decide +kernel

theorem wit_JicInputsAndTimers_refers : Refers (jst (one .obj 0x60000200) id).m 1 1 6 512 ∧ Refers (jst (one .obj 0x5000003F) id).m 1 1 5 63 :=
  ⟨refers_of _ 1 6 512 0x60000200 (by decide +kernel), refers_of _ 1 5 63 0x5000003F (by decide +kernel)⟩

/-- A request in work, and a host command waiting for the task. -/
def acc0 : Accepted := { src := .ring 0, opc := 11, tag := 7 }
def hcmd (m : Mod) : Mod :=
  updHost (fun h => { h with open_ := [acc0] }) (updTcb 1 (fun x => { x with cmds := [{ sub := acc0, words := List.replicate 10 5, fetched := false, done := false }] }) m)
def routeTask (m : Mod) : Mod := withApp (fun a => { a with tasks := [task .cyc20] }) m
/-- Route 0: a signal at danger as its entry, and a section; requested, a candidate, or locked. -/
def varS : VarDesc := { var1 with vid := 9, addr := 60, ty := .enum8, emax := 3 }
def route0 (m : Mod) : Mod :=
  let n := withApp (fun a => { a with vars := [varS], statusVids := [8, 9, 10, 11], dir := [(0, 4)], pool := [(4, 2), (6, 0x4000), (7, 0x6003)] }) (routeTask m)
  { n with cur := [(60, 1)] }
def cand0 : Cand := { route := 0, mask := 0, proposed := 0, flank := 0, gone := false, committed := false }
def pend0 : PendReq := { tag := 7, prio := 0, blk := 0, arrival := 0, sub := acc0 }
def asks0 (m : Mod) : Mod :=
  updHost (fun h => { h with open_ := [acc0] }) (updEn (fun e => { e with passScn := scn m + 1, pend := [(0, pend0)], cands := [cand0] }) (route0 m))
def locks0 (m : Mod) : Mod := updEn (fun e => { e with routes := [(0, { RouteSt.free with state := 1, base := 4 })] }) (route0 m)

theorem wit_JicCommandsAndRoutes : (InHeat 1 cyc1 (jst (two .uint32 1 2) hcmd).m ∧
      (tcbOf (jst [] id).m 1).cmds.findIdx? (fun c => !c.fetched) = none ∧ (tcbOf (jst [] hcmd).m 1).cmds.findIdx? (fun c => !c.fetched) = some 0 ∧ (53 : Rg).toNat ≤ 53 ∧ 53 < (54 : Rg).toNat) ∧
    (Holds (jst [(1, regOf .reqtag 7), (2, regOf .int32 65535)] hcmd).m 1 1 .reqtag (7 : Nat) ∧ Holds (jst [(1, regOf .reqtag 7), (2, regOf .int32 65535)] hcmd).m 1 2 .int32 (65535 : Nat) ∧
      (tcbOf (jst [] hcmd).m 1).cmds.findIdx? (fun c => !c.done && (c.sub.tag.toNat : Int) == 7) = some 0 ∧ acc0 ∈ (jst [] hcmd).m.host.open_) ∧
    ((regAt (jst (two .uint32 1 2) hcmd).m 1 1).ty = .uint32 ∧ 2 ≤ (aliveLanes (jst (two .uint32 1 2) hcmd).m).length ∧ recReady false 7 (jst (two .uint32 1 2) hcmd).m = true) ∧
    7 < (8 : Rg).toNat ∧
    (Holds (jst (one .int32 2) withVars).m 1 1 .int32 (2 : Nat) ∧ (62 : Rg).toNat < 63) ∧
    (Holds (jst (one .int32 3) withVars).m 1 1 .int32 (3 : Nat) ∧ (jst [] withVars).m.lg.app.vars.find? (fun y => y.vid == (2 : W32).toNat) = some varA ∧ varA.count = some 3) ∧
    (inConns (jst [] connMod).m).find? (fun y => y.num == 3 && y.kind != 3) = some conn3 ∧
    (cyc1.route = false ∧ InHeat 1 (task .cyc20) (jst [] asks0).m ∧ (task .cyc20).route = true ∧ (jst [] asks0).m.en.passScn = scn (jst [] asks0).m + 1) ∧
    ((jst [] asks0).m.en.cands.zipIdx.drop (tcbOf (jst [] asks0).m 1).cursor).find? (fun p => !p.1.gone) = some (cand0, 0) ∧
    ((jst [] routeTask).m.en.cands.zipIdx.drop (tcbOf (jst [] routeTask).m 1).cursor).find? (fun p => !p.1.gone) = none ∧
    Holds (jst (one .reqtag 7) id).m 1 1 .reqtag ((7 : W32).toNat : Int) := by
  unfold InHeat Holds; decide +kernel

theorem wit_JicCommandsAndRoutes_refers : Refers (jst (one .obj 0x90000000) connMod).m 1 1 9 0 ∧ Refers (jst (one .obj 0) asks0).m 1 1 0 0 ∧
    Refers (jst [(1, regOf .obj 0), (2, regOf .obj 0x20000000)] locks0).m 1 2 2 0 :=
  ⟨refers_of _ 1 9 0 0x90000000 (by decide +kernel), refers_of _ 1 0 0 0 (by decide +kernel), refers_of _ 2 2 0 0x20000000 (by decide +kernel)⟩

theorem wit_JicCommandsAndRoutes_engine : pendOf (jst [] route0).m 0 = none ∧ (61 : Rg).toNat ≤ 61 ∧ (pendOf (jst [] asks0).m 0).map (·.sub) = some acc0 ∧
    acc0 ∈ (jst [] asks0).m.host.open_ ∧
    (Holds (jst [(1, regOf .obj 0), (2, regOf .int32 0)] asks0).m 1 2 .int32 0 ∧ (candOfRoute (jst [] asks0).m 0).isSome = true ∧ candOfRoute (jst [] route0).m 0 = none ∧
      (routeDef (jst [] asks0).m.lg.app (dirBase (jst [] asks0).m.lg.app 0)).ovs = []) ∧
    (Holds (jst [(1, regOf .obj 0), (2, regOf .int32 16)] asks0).m 1 2 .int32 (16 : Nat) ∧ Holds (jst [(1, regOf .obj 0), (2, regOf .int32 255)] asks0).m 1 2 .int32 (255 : Nat)) ∧
    ((routeSt (jst [] locks0).m 0).state = 1 ∧ entryAtDanger (jst [] locks0).m 0 = true ∧ findElem (heldDef (jst [] locks0).m 0).main 2 0 = some 0 ∧
      (routeSt (jst [] locks0).m 0).mrel.getLsbD 0 = false ∧ 2 ≤ (heldDef (jst [] locks0).m 0).main.length ∧ (routeSt (jst [] locks0).m 0).mrel.getLsbD 1 = false) ∧
    entryAtDanger (jst [] (fun m => { locks0 m with cur := [] })).m 0 = false := by
  unfold Holds; decide +kernel

/-! ## Worked examples of the manual -/

/-- The ASCII bytes of 123456789. -/
def digits : List Byte := [0x31, 0x32, 0x33, 0x34, 0x35, 0x36, 0x37, 0x38, 0x39]

/-- R499's column of check values. -/
theorem test_check_values : (List.range 4).map (fun c => cvuFinal c (digits.foldl (cvuByte c) (cvuInit c))) =
    [0xCBF43926, 0xE3069283, 0x62EC59E3F1A4F00A, 0x29B1] := by decide +kernel

def ent (cond kind idx : Nat) : W32 := BitVec.ofNat 32 (cond * 2 ^ 28 + kind * 8192 + idx)
def hdr0 (r alts main : Nat) : W32 := BitVec.ofNat 32 (r * 2 ^ 20 + alts * 2 ^ 17 + main)
def dirAt (base : Nat) : W32 := BitVec.ofNat 32 (2 ^ 31 + base)
def statVar (vid addr : Nat) : VarDesc := { var1 with vid := vid, addr := addr, ty := .enum8, emax := 7 }
def ask (r prio arrival : Nat) (tag : W32) : Nat × PendReq := (r, { tag := tag, prio := prio, blk := 0, arrival := arrival, sub := { acc0 with tag := tag } })
def vec (l : List Nat) : BitVec 4096 := l.foldl (fun v r => v ||| BitVec.ofNat 4096 (2 ^ r)) 0

/-- The example of the route engine's chapter: routes 212 and 214 start at signal 20, 1031 needs point 417 reverse, sections 3122 and 3305 are
occupied, and route 88 holds point 431 reverse. -/
def junction : Mod :=
  let app (a : AppImage) : AppImage :=
    { a with vars := [statVar 8 1000, statVar 9 4000, statVar 10 10000, statVar 11 20000], statusVids := [8, 9, 10, 11]
             dir := [(212, dirAt 100), (214, dirAt 200), (660, dirAt 300), (1031, dirAt 400)]
             pool := [(100, hdr0 212 3 1), (101, 0x00010101), (102, ent 4 2 20), (103, ent 3 3 3200), (104, ent 1 1 431), (105, ent 3 3 3201),
                      (200, hdr0 214 0 2), (201, 0), (202, ent 4 2 20), (203, ent 1 1 417),
                      (300, hdr0 660 0 2), (301, 0), (302, ent 4 2 40), (303, ent 3 3 3305),
                      (400, hdr0 1031 2 2), (401, 0x00000101), (402, ent 4 2 30), (403, ent 2 1 417), (404, ent 3 3 3122), (405, ent 3 3 3202)]
             matrix := [(212, vec [212, 214]), (214, vec [212, 214, 1031]), (1031, vec [214, 1031])] }
  let n := updEn (fun e => { e with locked := vec [88], routes := [(88, { RouteSt.free with state := 1 })], elems := [(elemPos 1 431, 0x60000058)]
                                    pend := [ask 212 2 100 0x009000D4, ask 214 2 97 0x014000D6, ask 660 2 97 0x02200294, ask 1031 1 100 0x0A300407] }) (withApp app mod3)
  { forEach allLanes (fun l => updLane l (fun x => { x with time := 2001080000 })) n with
    cur := [(1417, 5), (1431, 6), (4020, 1), (4030, 1), (4040, 1), (13122, 2), (13200, 1), (13201, 1), (13202, 1), (13305, 2)] }

theorem test_route_pass : (enginePass junction).en.cands.map (fun c => (c.route, c.mask, c.proposed)) = [(1031, 2, 1), (212, 5, 0)] ∧
    (enginePass junction).en.pend.map (fun p => (p.1, p.2.blk)) = [(212, 0), (214, 2), (660, 4), (1031, 0)] ∧
    eovlLive (enginePass junction) 1031 = 0x21 ∧ eovlLive (enginePass junction) 212 = 0x50 := by decide +kernel

/-- ELCK 1031 with alternative 1, then ELCK 212 with alternative 2: element state of point 417, and route 214's code at the next pass. -/
theorem test_route_commit : (((lockRoute 1031 1 (enginePass junction)).bind (lockRoute 212 2)).map (fun m =>
    (estaOf (tabGet 0 m.en.elems (elemPos 1 417)).toNat, (routeSt m 212).ovl, (pendOf (enginePass m) 214).map (·.blk)))) = some (0x11, 2, some 1) := by
  decide +kernel

/-- R594: RUN-3, single, both feeds, with a force; HALT with HCAUSE 5; no supply. -/
theorem test_panel : (panel (updPw (fun p => { p with f1 := true, f2 := true }) (forced0 mod3))).run = .steady .green ∧
    (panel (forced0 mod3)).force = .steady .yellow ∧ (panel (halted 5 mod3)).supply = .flashing .red ∧ (panel (halted 5 mod3)).right = some 5 ∧
    panel State.reset.m = Panel.dark := by decide +kernel

/-! ## Witnesses: the links, the pair, the update again -/

/-- A delay request and its answer at a ring end, as frames. -/
def reqBytes : List Byte := frameOut (stg id).m 0 sDelayReq 0 true false 0 (delayReqBytes 0)
def rspBytes : List Byte := frameOut (stg id).m 0 sDelayRsp 0 true false 0 (delayRspBytes 500)
theorem fcsGood_bytes (f : SFrame) (src : List Byte) (h : 30 ≤ (f.body src).length) : fcsGood (f.bytes src) = true := by
  have l : (fcsOf (f.body src)).length = 4 := by unfold fcsOf bytesLE; simp
  unfold fcsGood SFrame.bytes
  simp [l]
  omega
theorem wit_LinksAndSchedules_checked : fcsGood reqBytes = true ∧ fcsGood rspBytes = true :=
  ⟨fcsGood_bytes _ _ (by decide +kernel), fcsGood_bytes _ _ (by decide +kernel)⟩
theorem wit_LinksAndSchedules_frames : FourOfEach (stg id).m ∧ usesEnd (stg id).m 0 true = true ∧ (sRead reqBytes).map (·.kind) = some sDelayReq ∧
    endSends (now (stg id).m) (stg id).m 0 = true ∧ (sRead rspBytes).map (·.kind) = some sDelayRsp := by
  unfold FourOfEach; decide +kernel

def stopped3 (m : Mod) : Mod := updSeg 3 (fun g => { g with stopped := true }) m
theorem wit_LinksAndSchedules_windows : (stg stopped3).m.tm.taken = true ∧ mayStride (now (stg stopped3).m) (stg stopped3).m = true ∧
    endSends (scn (toPhase 21 14700 (stg stopped3).m) * 20000000 + 14700000) (toPhase 21 14700 (stg stopped3).m) 0 = true ∧
    usesEnd (toPhase 21 14700 (stg stopped3).m) 0 true = true ∧
    endSends (scn (toPhase 21 14700 (stg stopped3).m) * 20000000 + 14700000) (toPhase 21 14700 (stg stopped3).m) 3 = false := by decide +kernel

def good2 : PartnerCopies := { line0 := .good, line1 := .good }
def none2 : PartnerCopies := { line0 := .absent, line1 := .absent }
theorem wit_PartnerLink_copies : copiesOk good2 = true ∧ copiesOk none2 = false ∧ partnerUp (hearFrame none2 (st id).m) = false ∧
    operating (st shadowing).m = true ∧ (st (inMode .shadow)).m.pr.role ≠ 2 := by decide +kernel
theorem wit_PartnerLink_up : partnerUp (hearFrame good2 (st shadowing).m) = true := by
  rw [partnerUp_heard _ _ (by decide +kernel)]; decide +kernel

/-- At the step of the image, of the status and of the takeover. -/
def at16 (f : Mod → Mod) : Mod := toPhaseFrom (pairDue 16 (st f).m) 16 560 (st f).m
def at18 (f : Mod → Mod) : Mod := toPhaseFrom (pairDue 18 (st f).m) 18 15400 (st f).m
def at17 (f : Mod → Mod) : Mod := toPhaseFrom (pairDue 17 (st f).m) 17 560 (st f).m

theorem wit_PairInStep_moments : scn (hearFrame good2 (at16 shadowOn)) = 0 ∧ scn (hearFrame good2 (at18 shadowOn)) = 0 := by
  constructor <;> (rw [hearFrame_scn]; decide +kernel)
theorem wit_PairInStep_up : partnerUp (hearFrame good2 (at18 shadowOn)) = true ∧ partnerUp (hearFrame good2 (at18 leadOn)) = true ∧
    partnerUp (hearFrame good2 (at18 asked)) = true := by
  refine ⟨?_, ?_, ?_⟩ <;> (rw [partnerUp_heard _ _ (by decide +kernel)]; decide +kernel)
theorem wit_PairInStep_status : (∃ f : PairStatusFrame, f = ownStatus (hearFrame good2 (at18 shadowOn)) ∧ f.scn = scn (hearFrame good2 (at18 shadowOn))) ∧
    (st leadOn).m.nv.paired = true ∧ serving (st leadOn).m = true ∧ (st leadOn).m.pr.outgoing = false := ⟨⟨_, rfl, rfl⟩, by decide +kernel⟩

/-- A joining SHADOW, before and after the first of two chunks. -/
def joins2 (m : Mod) : Mod :=
  updPr (fun p => { p with chunks := [(0, [])] }) (updLanes (fun _ x => { x with nv := { x.nv with keys := { x.nv.keys with position := some 0 } } }) (joins m))
def chunk0 : PartnerCopies := { line0 := .good, line1 := .absent }
def chunk1 : PartnerCopies := { line0 := .absent, line1 := .good }

theorem wit_PairInStep_first : partnerUp (hearFrame chunk0 (st joins).m) = true ∧ (tabPut (hearFrame chunk0 (st joins).m).pr.chunks 0 []).length < 2 ∧
    transferScn (hearFrame chunk0 (st joins).m) = some (hearFrame chunk0 (st joins).m).pr.joinScn := by
  unfold transferScn
  rw [partnerUp_heard _ _ (by decide +kernel), hearFrame_pr _ _ (by decide +kernel), hearFrame_phase, hearFrame_scn]; decide +kernel

theorem wit_PairInStep_whole : partnerUp (hearFrame chunk1 (st joins2).m) = true ∧ 2 ≤ (tabPut (hearFrame chunk1 (st joins2).m).pr.chunks 1 []).length ∧
    transferScn (hearFrame chunk1 (st joins2).m) = some (hearFrame chunk1 (st joins2).m).pr.joinScn ∧
    (st joins2).m.md.mode = .shadow ∧ (st joins2).m.pr.joining = true ∧ (st joins2).m.pr.adopted = false := by
  unfold transferScn
  rw [partnerUp_heard _ _ (by decide +kernel), hearFrame_pr _ _ (by decide +kernel), hearFrame_phase, hearFrame_scn]; decide +kernel

/-- The last chunk, sealed by lanes A and B. -/
theorem wit_PairInStep_last (bs : List Byte) (ds : List W64) : ∃ s1 s2 : W64,
    twoSealed (hearFrame chunk1 (st joins2).m) 0x01 s1 s2 (tailBytes 0 2 ds bs) = true := by
  refine ⟨sealOf 0 0 (pairCid (hearFrame chunk1 (st joins2).m)) (tailBytes 0 2 ds bs),
    sealOf 0 1 (pairCid (hearFrame chunk1 (st joins2).m)) (tailBytes 0 2 ds bs), ?_⟩
  have a : ((st joins2).m.ln.get .a).nv.keys.position = some 0 := by rfl
  have b : ((st joins2).m.ln.get .b).nv.keys.position = some 0 := by rfl
  unfold twoSealed
  simp [laneOf?, a, b]

theorem wit_Takeover_moment : swi (at17 (inStep true)) 6 = 0 ∧ swi (at17 (inStep true)) 7 = 0 ∧ votes (at17 (inStep true)) = true ∧ (at17 (inStep true)).pr.linkLost = true ∧
    2 ≤ (at17 (inStep false)).pr.pmode ∧ (at17 (inStep false)).pr.linkLost = false ∧
    (st id).m.tm.taken = true := by decide +kernel

/-- An object controller's activation at SCN 100 waits. -/
def ocOn (charge : Nat) (adm : Bool) (m : Mod) : Mod :=
  updPw (fun p => { p with charge := charge })
    (updUp (fun u => { u with oc := { u.oc with state := 2, actScn := 100, station := 7 } })
      (updStr (fun x => { x with stations := [(7, { StationSt.fresh with adm := adm })] }) (inMode .commission (inField (strideMod 1 m)))))
def ocAt (charge : Nat) (adm : Bool) : Mod := passTo ((100 - 1) * 20000000 + 16000000) (st (ocOn charge adm)).m

theorem wit_UpdateDeadlines_oc : (st (ocOn 95 true)).m.up.act = none ∧ ocWaits (st (ocOn 95 true)).m = true ∧ scn (ocAt 95 true) < (st (ocOn 95 true)).m.up.oc.actScn ∧
    stateForbids (ocAt 95 true) [6] false (ocAt 95 true).up.oc.station = false ∧ 95 ≤ (ocAt 95 true).pw.charge ∧ (ocAt 94 true).pw.charge < 95 ∧
    stateForbids (ocAt 95 false) [6] false (ocAt 95 false).up.oc.station = true ∧ ocWaits (st id).m = false := by decide +kernel

/-! ## Witnesses: entries and messages -/

def vec0 (v : Vector32) (m : Mod) : Mod := updHost (fun h => { h with vecs := [(0, v)] }) m
theorem wit_EntriesAndMessages : sub0.src = .ring 0 ∧ (st ringsOn).m.host.waiting = [] ∧ (st ringsOn).m.host.critWait = [] ∧ sub0.crit = false ∧
    ((tabGet Vector32.fresh (st (vec0 { Vector32.fresh with due := true, masked := false })).m.host.vecs 0).due = true ∧
      (tabGet Vector32.fresh (st (vec0 { Vector32.fresh with due := true, masked := false })).m.host.vecs 0).masked = false ∧
      (tabGet Vector32.fresh (st (vec0 { Vector32.fresh with due := true, masked := false })).m.host.vecs 0).lastAt = none) ∧
    (tabGet Vector32.fresh (st (vec0 { Vector32.fresh with due := true, masked := true })).m.host.vecs 0).masked = true ∧
    (tabGet Vector32.fresh (st id).m.host.vecs 0).due = false ∧ (st id).m.powered = true := by decide +kernel

/-! ## Published values -/

/-- AES-128-CMAC of the empty message: example 1 of RFC 4493, section 4. -/
theorem test_cmac : aesCmac 0x2b7e151628aed2a6abf7158809cf4f3c [] = 0xbb1d6929e95937287fa37d129b756746 := by decide +kernel

/-- SHA-256 of "abc": the example of FIPS 180. -/
theorem test_sha : sha256 [0x61, 0x62, 0x63] =
    bytesBE 32 0xba7816bf8f01cfea414140de5dae2223b00361a396177a9cb410ff61f20015ad := by decide +kernel


end Sys2Proof.Tests
end

namespace Sys2Proof.Machine

/-! # Register writes (R12, R13, R413, R421) -/

/-! ## A discarded write (R413) -/

/-- What the host interface counts is no part of the moment an event shows. -/
theorem sameMoment_updHost {m : Mod} {f : HostIf → HostIf} (h : (f m.host).evWait = m.host.evWait) : SameMoment m (updHost f m) :=
  ⟨rfl, rfl, rfl, rfl, rfl, rfl, h⟩

theorem discardWrite_discN (off : Nat) (m : Mod) : (discardWrite off m).host.discN = satN 0xFFFF (m.host.discN + 1) := by
  simp [discardWrite]

theorem toldOnly_discardWrite (off : Nat) (m : Mod) : ToldOnly m (discardWrite off m) :=
  toldOnly_of ((raise_noHR _ _ _).trans (noHost_noHR rfl))

theorem tellsAlone_discardWrite (off : Nat) (m : Mod) : TellsAlone 0xC2 { src := 4, arg2 := off } m (discardWrite off m) :=
  tellsAlone_raise _ _ (by simp) (sameMoment_updHost rfl)

theorem discardWrite_cfg (off : Nat) (m : Mod) : (discardWrite off m).cfg = m.cfg := by simp [discardWrite]

theorem discardWrite_ln (off : Nat) (m : Mod) : (discardWrite off m).ln = m.ln := by simp [discardWrite]

/-! ## A register held outside START and COMMISSION (RWS, R12) -/

theorem rws_of_setting {m : Mod} (off : Nat) (f : Mod → Mod) (h : m.md.mode = .start ∨ m.md.mode = .commission) : rws off f m = f m := by
  rcases h with h | h <;> simp [rws, mode, h]

theorem rws_of_not_setting {m : Mod} (off : Nat) (f : Mod → Mod) (hs : m.md.mode ≠ .start) (hc : m.md.mode ≠ .commission) :
    rws off f m = discardWrite off m := by
  simp [rws, mode, hs, hc]

/-! ## The settings of the lanes (R152, R540) -/

@[simp] theorem storeSettings_cfg (c : Settings) (m : Mod) : (storeSettings c m).cfg = c := rfl

theorem storeSettings_frame (c : Settings) (m : Mod) : { storeSettings c m with cfg := m.cfg, ln := m.ln } = m := rfl

/-- A supplied lane whose flash takes writes holds the settings in the area of the running bank. -/
theorem storeSettings_stored (c : Settings) (m : Mod) (l : LaneId) (hs : (m.ln.get l).supplied = true)
    (hf : (m.ln.get l).nv.flashOk = true) :
    (if runProg m = 0 then ((storeSettings c m).ln.get l).nv.area0.stored else ((storeSettings c m).ln.get l).nv.area1.stored) = some c := by
  by_cases hb : runProg m = 0 <;> simp [storeSettings, hs, hf, hb]

/-! ## Which rule a write follows -/

/-- The settings registers lie below the ring descriptor table (R412). -/
theorem newSettings_of_ringTable {off : Nat} (val : W32) (c : Settings) (h : 0x1000 ≤ off) : newSettings off val c = none := by
  unfold newSettings
  split
  case h_11 => rfl
  all_goals omega

/-- What is no settings register and lies in the ring descriptor table is a descriptor's field (R421). -/
theorem writePlain_of_ringTable {off : Nat} (val : W32) (m : Mod) (h1 : 0x1000 ≤ off) (h2 : off < 0x1C00) :
    writePlain off val m = writeRing ((off - 0x1000) / 32) (off % 32) val m := by
  unfold writePlain
  repeat rw [if_neg (by omega)]
  rw [if_pos ⟨h1, h2⟩]

theorem doWrite_of_run {off : Nat} {m : Mod} (val : W32) (hr : m.host.run = true) (h : off ≠ 0x0008) :
    doWrite off val m = discardWrite off m := by
  simp [doWrite, h, hr]

theorem doWrite_of_settings {off : Nat} {val : W32} {m : Mod} {c : Settings} (hr : m.host.run = false)
    (hs : newSettings off val m.cfg = some (some c)) : doWrite off val m = rws off (storeSettings c) m := by
  have h8 : off ≠ 0x0008 := by rintro rfl; cases hs
  simp [doWrite, h8, hr, hs]

/-- With RUN 0 a write inside descriptor `i` is the write of the field at its place in the descriptor (R421). -/
theorem doWrite_of_ring {i k : Nat} {m : Mod} (val : W32) (hr : m.host.run = false) (hi : i < 96) (hk : k < 32) :
    doWrite (0x1000 + 32 * i + k) val m = writeRing i k val m := by
  have h8 : 0x1000 + 32 * i + k ≠ 0x0008 := by omega
  have hn := newSettings_of_ringTable (off := 0x1000 + 32 * i + k) val m.cfg (by omega)
  have hring : (0x1000 + 32 * i + k - 0x1000) / 32 = i := by omega
  have hfield : (0x1000 + 32 * i + k) % 32 = k := by omega
  simp only [doWrite, h8, hr, hn, if_false, Bool.false_eq_true]
  rw [writePlain_of_ringTable val m (by omega) (by omega), hring, hfield]

/-! ## What writing a ring's field changes -/

/-- A ring is given new fields: it holds them, every other ring and all outside the host interface stay. -/
theorem updRing_effect (i : Nat) (f : Ring → Ring) (m : Mod) :
    ringOf (updRing i f m) i = f (ringOf m i) ∧ (∀ j, j ≠ i → ringOf (updRing i f m) j = ringOf m j) ∧
      { updRing i f m with host := m.host } = m :=
  ⟨ringOf_setRing_self m i _, fun j hj => ringOf_setRing_ne m i j _ hj, rfl⟩

/-! ## REGISTER_WRITE -/

/-- The command does what the write does. -/
theorem does_registerWrite {s : State} {off : Nat} {val : W32} {P : Mod → Prop} (hp : s.m.powered = true) (h : P (doWrite off val s.m)) :
    Does (.registerWrite off val) s P :=
  does_of_run (doWrite off val) rfl hp h

/-- With RUN 0, writing a descriptor's field does what the field's rule says. -/
theorem does_registerWrite_ring {s : State} {i k : Nat} {val : W32} {P : Mod → Prop} (hp : s.m.powered = true)
    (hr : s.m.host.run = false) (hi : i < 96) (hk : k < 32) (h : P (writeRing i k val s.m)) :
    Does (.registerWrite (0x1000 + 32 * i + k) val) s P :=
  does_registerWrite hp (by rwa [doWrite_of_ring val hr hi hk])

/-- Settles O33, by the rule each write follows: discarded with RUN 1, a ring descriptor's field, or a settings register under RWS. -/
theorem registerWrites : Obligations.RegisterWrites := by
  unfold Obligations.RegisterWrites
  intro s off val hp
  refine ⟨fun hrun h8 => ?discarded, fun i hi hr => ⟨?basel, ?control, ?readOnly⟩,
    fun c hr hs => ⟨fun hmode => ?stored, fun hstart hcomm => ?refused⟩⟩
  case discarded =>
    apply does_registerWrite hp
    rw [doWrite_of_run val hrun h8]
    exact ⟨discardWrite_discN off s.m, toldOnly_discardWrite off s.m, tellsAlone_discardWrite off s.m⟩
  case basel =>
    rintro rfl
    exact does_registerWrite_ring (k := 0) hp hr hi (by decide) (updRing_effect i _ s.m)
  case control =>
    rintro rfl
    exact does_registerWrite_ring hp hr hi (by decide) (updRing_effect i _ s.m)
  case readOnly =>
    rintro rfl
    exact does_registerWrite_ring hp hr hi (by decide) rfl
  case stored =>
    apply does_registerWrite hp
    rw [doWrite_of_settings hr hs, rws_of_setting off _ hmode]
    exact ⟨storeSettings_cfg c s.m, storeSettings_stored c s.m, storeSettings_frame c s.m⟩
  case refused =>
    apply does_registerWrite hp
    rw [doWrite_of_settings hr hs, rws_of_not_setting off _ hstart hcomm]
    exact ⟨discardWrite_cfg off s.m, discardWrite_ln off s.m, discardWrite_discN off s.m⟩

end Sys2Proof.Machine

namespace Sys2Proof.Machine

/-! # Telegram copies at a lane (R358-R360, R367) -/

/-! ## What a copy can touch -/

/-- From `m` to `n` lane `l` changed, and beside it only what was told, counted or noticed. -/
structure AtLane (l : LaneId) (m n : Mod) : Prop where
  others : ∀ x, x ≠ l → n.ln.get x = m.ln.get x
  rest : { n with ln := m.ln, host := m.host, rcd := m.rcd, pc := m.pc, pr := m.pr, sec := m.sec } = m

/-- A lane's account of a connection, without what it remembers of the events it told. -/
def BtnLane.account (b : BtnLane) : BtnLane := { b with sealFails := [], told := [] }

/-- As `AtLane`, and lane `l` keeps its account of every connection. -/
structure AccountKept (l : LaneId) (m n : Mod) : Prop extends AtLane l m n where
  account : ∀ c, (btnOf (n.ln.get l) c).account = (btnOf (m.ln.get l) c).account

section
variable {l : LaneId} {m n : Mod}

theorem AtLane.trans {k : Mod} (h : AtLane l m n) (g : AtLane l n k) : AtLane l m k :=
  ⟨fun x hx => (g.others x hx).trans (h.others x hx), by rw [← h.rest, ← g.rest]⟩

theorem AtLane.md (h : AtLane l m n) : n.md = m.md := (congrArg Mod.md h.rest :)

theorem AtLane.bt (h : AtLane l m n) : n.bt = m.bt := (congrArg Mod.bt h.rest :)

theorem AtLane.operating_eq (h : AtLane l m n) : operating n = operating m := by simp [operating, mode, h.md]

theorem AtLane.sameImages (h : AtLane l m n) : SameImages m n := by
  have hcur : n.cur = m.cur := (congrArg Mod.cur h.rest :)
  have hnxt : n.nxt = m.nxt := (congrArg Mod.nxt h.rest :)
  intro a
  rw [hcur, hnxt]
  exact ⟨rfl, rfl⟩

theorem atLane_updLane (l : LaneId) (f : Lane → Lane) (m : Mod) : AtLane l m (updLane l f m) :=
  ⟨fun x hx => by simp [PerLane.get_modify_ne _ _ _ _ hx], rfl⟩

theorem AccountKept.refl (l : LaneId) (m : Mod) : AccountKept l m m := ⟨⟨fun _ _ => rfl, rfl⟩, fun _ => rfl⟩

theorem AccountKept.trans {k : Mod} (h : AccountKept l m n) (g : AccountKept l n k) : AccountKept l m k :=
  ⟨h.toAtLane.trans g.toAtLane, fun c => (g.account c).trans (h.account c)⟩

theorem AccountKept.of_ln (hln : n.ln = m.ln)
    (h : { n with ln := m.ln, host := m.host, rcd := m.rcd, pc := m.pc, pr := m.pr, sec := m.sec } = m) : AccountKept l m n :=
  ⟨⟨fun _ _ => by rw [hln], h⟩, fun _ => by rw [hln]⟩

/-- Taking an item from a FIFO, or copying one to a mirror ring, is no matter of any lane. -/
theorem Took.accountKept (h : Took m n) : AccountKept l m n := .of_ln h.ln (by rw [← h.rest])

end

/-! ## A lane's records of its connections -/

@[simp] theorem btnOf_updBtn_self (c : Nat) (f : BtnLane → BtnLane) (x : Lane) : btnOf (updBtn c f x) c = f (btnOf x c) :=
  tabGet_tabSet_self _ _ _ _

theorem btnOf_updBtn_ne {c d : Nat} (f : BtnLane → BtnLane) (x : Lane) (h : d ≠ c) : btnOf (updBtn c f x) d = btnOf x d :=
  tabGet_tabSet_ne _ _ _ _ _ h

theorem accountKept_updLane (l : LaneId) (f : Lane → Lane) (m : Mod) (hf : ∀ x c, (btnOf (f x) c).account = (btnOf x c).account) :
    AccountKept l m (updLane l f m) :=
  ⟨atLane_updLane l f m, fun c => by simp [hf]⟩

/-- What a lane notes of its events on a connection leaves its account of every connection. -/
theorem accountKept_updBtn (l : LaneId) (c : Nat) (f : BtnLane → BtnLane) (m : Mod) (hf : ∀ b, (f b).account = b.account) :
    AccountKept l m (updLane l (updBtn c f) m) :=
  accountKept_updLane l _ m fun x d => by
    by_cases hd : d = c
    · subst hd; simp [hf]
    · rw [btnOf_updBtn_ne f x hd]

theorem accountKept_raise (l : LaneId) (code : Nat) (x : EvArgs) (m : Mod) : AccountKept l m (raise code x m) :=
  (took_raise code x m).accountKept

theorem accountKept_pcEvent (l : LaneId) (code : Nat) (m : Mod) : AccountKept l m (pcEvent l code m) :=
  ⟨atLane_updLane l _ m, fun c => by simp [btnOf]⟩

/-- While the module votes a trigger is only noticed (R565). -/
theorem accountKept_noteTrig (l : LaneId) (trig : Nat) {m : Mod} (ho : operating m = true) : AccountKept l m (noteTrig trig m) := by
  rw [noteTrig, if_pos ho]
  exact .of_ln rfl rfl

/-- The lane port's FIFO gives the telegram. -/
theorem took_takeFromPort (l : LaneId) (tel : List Byte) (m : Mod) : Took m (takeFromPort l tel m) := by
  unfold takeFromPort
  dsimp only
  split
  · unfold fifoGive
    exact took_dfifo _ _ m
  · exact .rfl' m

/-! ## The events of a copy (R358, R377) -/

theorem accountKept_tellBtn (l : LaneId) (c code : Nat) (x : EvArgs) {m : Mod} (ho : operating m = true) :
    AccountKept l m (tellBtn l c code x m) := by
  unfold tellBtn
  dsimp only
  split
  · have hraise := (accountKept_updBtn l c (fun b => { b with told := tabPut b.told code (scn m) }) m fun _ => rfl).trans
      (accountKept_raise l code { x with src := laneSrc l, arg0 := c } _)
    unfold onlyIf
    split
    · exact hraise.trans (accountKept_noteTrig l 9 (hraise.operating_eq.trans ho))
    · exact hraise
  · exact .refl l m

/-- Whatever the failing step tells, the lane's account of every connection stays. -/
theorem accountKept_tellStep (l : LaneId) (k : TelCheck) (tel : List Byte) {m : Mod} (ho : operating m = true) :
    AccountKept l m (tellStep l k tel m) := by
  unfold tellStep
  dsimp only
  split
  case h_1 => -- step 2: a foreign network identity
    split
    · have hraise := (accountKept_updLane l (fun x => { x with foreignAt := some (scn m) }) m fun _ _ => rfl).trans
        (accountKept_raise l 0xA7 { src := laneSrc l, arg2 := (telCid tel).toNat } _)
      exact hraise.trans (accountKept_noteTrig l 8 (hraise.operating_eq.trans ho))
    · exact .refl l m
  case h_2 => exact accountKept_tellBtn l _ _ _ ho
  case h_3 => -- step 4: the 16th seal failure in 1,000 station cycles
    have hfail := accountKept_updBtn l ((k.conn.map (·.num)).getD noConn)
      (fun b => { b with sealFails := scn m :: b.sealFails.filter (fun x => decide (scn m < x + 1000)) }) m fun _ => rfl
    split
    · exact hfail.trans (accountKept_tellBtn l _ _ _ (hfail.operating_eq.trans ho))
    · exact hfail
  case h_4 => exact accountKept_tellBtn l _ _ _ ho
  case h_5 => exact accountKept_tellBtn l _ _ _ ho
  case h_6 => exact .refl l m

/-! ## Counting (R359) -/

section
variable {k : TelCheck} (tel : List Byte) (b : BtnLane)

theorem countTel_recv (h : k.step = 0) : countTel k tel b =
    { noteSeq k.full (telBody tel) b with recv := b.recv + 1, top := some k.full, prev := b.newest,
                                          newest := some { seq := k.full, tel := tel } } := by
  simp only [countTel, h]

theorem countTel_sealf (h : k.step = 4) : countTel k tel b = { b with sealf := b.sealf + 1 } := by simp only [countTel, h]

theorem countTel_epmis (h : k.step = 5) : countTel k tel b = { b with epmis := b.epmis + 1 } := by simp only [countTel, h]

theorem countTel_dup (h : k.step = 7) : countTel k tel b = { b with dup := b.dup + 1 } := by simp only [countTel, h]

theorem countTel_late (h : k.step = 8 ∨ k.step = 9) :
    countTel k tel b = { noteSeq k.full (telBody tel) b with late := b.late + 1 } := by
  rcases h with h | h <;> simp only [countTel, h]

end

/-- Counting and what was told are apart. -/
theorem account_countTel (k : TelCheck) (tel : List Byte) (b : BtnLane) : (countTel k tel b).account = countTel k tel b.account := by
  unfold countTel
  split <;> rfl

/-- Lane `l` has counted the copy at `n`: its account of the connection is that of `m` with the copy counted. -/
structure Counted (l : LaneId) (k : TelCheck) (tel : List Byte) (c : Nat) (m n : Mod) : Prop extends AtLane l m n where
  account : (btnOf (n.ln.get l) c).account = countTel k tel (btnOf (m.ln.get l) c).account

section
variable {l : LaneId} {k : TelCheck} {tel : List Byte} {c : Nat} {m n : Mod}

theorem Counted.after {a : Mod} (g : Counted l k tel c m n) (h : AccountKept l a m) : Counted l k tel c a n :=
  ⟨h.toAtLane.trans g.toAtLane, by rw [g.account, h.account]⟩

theorem Counted.before {a : Mod} (g : Counted l k tel c m n) (h : AccountKept l n a) : Counted l k tel c m a :=
  ⟨g.toAtLane.trans h.toAtLane, by rw [h.account, g.account]⟩

theorem counted_updBtn (l : LaneId) (k : TelCheck) (tel : List Byte) (c : Nat) (m : Mod) :
    Counted l k tel c m (updLane l (updBtn c (countTel k tel)) m) :=
  ⟨atLane_updLane l _ m, by simp [account_countTel]⟩

end

/-! ## A divergence (R367) -/

/-- Dropping a sequence number changes which telegrams are held, no count. -/
theorem dropSeq_counts (full : Nat) (b : BtnLane) : (dropSeq full b).dup = b.dup ∧ (dropSeq full b).recv = b.recv := by
  unfold dropSeq
  (repeat' split) <;> exact ⟨rfl, rfl⟩

/-- Only a copy that fails step 7 can show a divergence. -/
theorem diverge_of_ne_seven {l : LaneId} {k : TelCheck} (tel : List Byte) (m : Mod) (h : k.step ≠ 7) : diverge l k tel m = m := by
  simp [diverge, h]

theorem atLane_diverge (l : LaneId) (k : TelCheck) (tel : List Byte) (m : Mod) : AtLane l m (diverge l k tel m) := by
  unfold diverge
  dsimp only
  split
  · exact (atLane_updLane l _ m).trans (accountKept_raise l _ _ _).toAtLane
  · exact (AccountKept.refl l m).toAtLane

/-- What a divergence leaves of the lane's record of the connection: all, or all but the telegrams of that sequence number. -/
theorem btnOf_diverge (l : LaneId) {k : TelCheck} {c : Nat} (tel : List Byte) (m : Mod) (hc : (k.conn.map (·.num)).getD noConn = c) :
    btnOf ((diverge l k tel m).ln.get l) c = btnOf (m.ln.get l) c ∨
      btnOf ((diverge l k tel m).ln.get l) c =
        dropSeq k.full { btnOf (m.ln.get l) c with diverged := k.full :: (btnOf (m.ln.get l) c).diverged } := by
  unfold diverge
  dsimp only
  rw [hc]
  split
  · right
    rw [raise_ln, updLane_ln, PerLane.get_modify]
    exact tabGet_tabSet_self _ _ _ _
  · exact .inl rfl

/-- A divergence changes no count of the connection. -/
theorem diverge_counts (l : LaneId) {k : TelCheck} {c : Nat} (tel : List Byte) (m : Mod) (hc : (k.conn.map (·.num)).getD noConn = c) :
    (btnOf ((diverge l k tel m).ln.get l) c).dup = (btnOf (m.ln.get l) c).dup ∧
      (btnOf ((diverge l k tel m).ln.get l) c).recv = (btnOf (m.ln.get l) c).recv := by
  rcases btnOf_diverge l tel m hc with h | h
  · rw [h]; exact ⟨rfl, rfl⟩
  · rw [h]; exact dropSeq_counts k.full _

/-! ## Accepting a copy (R358-R360) -/

/-- Accepting a copy counts it, then drops what diverges. -/
theorem acceptTel_counted {l : LaneId} {k : TelCheck} {c : Nat} {m : Mod} (tel : List Byte) (hc : c = (k.conn.map (·.num)).getD noConn)
    (ho : operating m = true) : ∃ a, Counted l k tel c m a ∧ acceptTel l k tel m = diverge l k tel a := by
  subst hc
  refine ⟨_, Counted.after (counted_updBtn l k tel _ _) ?_, rfl⟩
  exact (accountKept_tellStep l k tel ho).trans (accountKept_pcEvent l _ _)

/-! ## TELEGRAM_COPY_RECEIVED -/

section
variable {s : State} {l : LaneId} {tel : List Byte} {medium seg : Nat} {k : TelCheck} {c : Nat} {P : Mod → Prop}

/-- A running lane of a module that votes checks the copy, counts it, drops what diverges, and the lowest lane copies it to its mirror
ring. -/
theorem does_telegram (hp : s.m.powered = true) (ho : operating s.m = true) (ha : (s.m.ln.get l).alive = true)
    (hf : (s.m.ln.get l).feLost = false) (hk : k = checkTel s.m (s.m.ln.get l) (s.m.ln.get l).time false tel)
    (hc : c = (k.conn.map (·.num)).getD noConn)
    (h : ∀ a b, Counted l k tel c s.m a → AccountKept l (diverge l k tel a) b → P b) :
    Does (.telegramCopyReceived l tel medium seg) s P := by
  apply does_of_run (doTelegram l tel medium seg) rfl hp
  have htake : AccountKept l s.m (takeFromPort l tel s.m) := (took_takeFromPort l tel s.m).accountKept
  obtain ⟨a, hcount, haccept⟩ := acceptTel_counted tel hc (htake.operating_eq.trans ho)
  have hguard : (!(s.m.ln.get l).alive || !operating s.m || (s.m.ln.get l).feLost) = false := by simp [ho, ha, hf]
  unfold doTelegram
  dsimp only
  rw [hguard, ← hk, if_neg Bool.false_ne_true, haccept]
  apply h a _ (hcount.after htake)
  split
  · exact (took_mirrorCopy _ _ _ _ _ _).accountKept
  · exact .refl l _

/-- A copy that does not fail step 7 is counted, and nothing else happens to the lane's account. -/
theorem does_telegram_counted (hp : s.m.powered = true) (ho : operating s.m = true) (ha : (s.m.ln.get l).alive = true)
    (hf : (s.m.ln.get l).feLost = false) (hk : k = checkTel s.m (s.m.ln.get l) (s.m.ln.get l).time false tel)
    (hc : c = (k.conn.map (·.num)).getD noConn) (h7 : k.step ≠ 7) (h : ∀ n, Counted l k tel c s.m n → P n) :
    Does (.telegramCopyReceived l tel medium seg) s P :=
  does_telegram hp ho ha hf hk hc fun a b hcount hkept => h b (hcount.before (by rwa [diverge_of_ne_seven tel a h7] at hkept))

end

/-- Settles O30: whatever is told on the way leaves a lane's account of its connections, so that the account after the copy is the one
before with the copy counted in the class of its step; after step 7 a divergence may drop telegrams, but changes no count. -/
theorem telegramsAreCounted : Obligations.TelegramsAreCounted := by
  unfold Obligations.TelegramsAreCounted
  intro s l tel medium seg n k hp ho ha hf hk hn
  refine ⟨fun h => ?received, fun h => ?sealFailure, fun h => ?otherEpoch, fun h => ?duplicate, fun h => ?late⟩
  case received =>
    refine does_telegram_counted hp ho ha hf hk hn (by omega) fun m g => ?_
    have hb := g.account.trans (countTel_recv tel _ h)
    exact ⟨(congrArg BtnLane.recv hb :), (congrArg BtnLane.newest hb :), (congrArg BtnLane.prev hb :), (congrArg BtnLane.top hb :),
      (congrArg BtnLane.dup hb :), (congrArg BtnLane.late hb :), g.others, g.bt, g.sameImages⟩
  case sealFailure =>
    refine does_telegram_counted hp ho ha hf hk hn (by omega) fun m g => ?_
    have hb := g.account.trans (countTel_sealf tel _ h)
    exact ⟨(congrArg BtnLane.sealf hb :), (congrArg BtnLane.newest hb :), g.others, g.sameImages⟩
  case otherEpoch =>
    refine does_telegram_counted hp ho ha hf hk hn (by omega) fun m g => ?_
    have hb := g.account.trans (countTel_epmis tel _ h)
    exact ⟨(congrArg BtnLane.epmis hb :), (congrArg BtnLane.newest hb :), g.others, g.sameImages⟩
  case duplicate =>
    refine does_telegram hp ho ha hf hk hn fun a m g hkept => ?_
    have hb := g.account.trans (countTel_dup tel _ h)
    have hm := hkept.account n
    obtain ⟨hdup, hrecv⟩ := diverge_counts l tel a hn.symm
    have hat := (g.toAtLane.trans (atLane_diverge l k tel a)).trans hkept.toAtLane
    exact ⟨(congrArg BtnLane.dup hm :).trans (hdup.trans (congrArg BtnLane.dup hb :)),
      (congrArg BtnLane.recv hm :).trans (hrecv.trans (congrArg BtnLane.recv hb :)), hat.others, hat.sameImages⟩
  case late =>
    refine does_telegram_counted hp ho ha hf hk hn (by omega) fun m g => ?_
    have hb := g.account.trans (countTel_late tel _ h)
    exact ⟨(congrArg BtnLane.late hb :), (congrArg BtnLane.newest hb :), g.others, g.sameImages⟩

end Sys2Proof.Machine
